-- ==== Sys2Proof/Word.lean ====
section
/-! DEFINITION.  The word types of the module (R8: registers are 32 bits, little-endian; the device
physical address space is 48 bits, R457) and the sparse table type that State is built from. -/

namespace Sys2Proof

/-- One byte of memory. -/
abbrev Byte := BitVec 8
/-- A register of the register space (R8). -/
abbrev Word := BitVec 32
/-- A memory bank word (R93) and most time values. -/
abbrev DWord := BitVec 64
/-- A device physical address (R457). -/
abbrev PAddr := BitVec 48

/-- A sparse table: key and value pairs with keys strictly rising, and no pair whose value is the
table's default.  Which value is the default is said where a table is used. -/
abbrev Table (α : Type) := List (Nat × α)

end Sys2Proof
end

