-- ==== Sys2Proof/Machine/Num.lean ====
section
/-! DEFINITION.  The number formats and the exact arithmetic of chapter 02 (R32 to R56).  Values are
exact: a sign, a magnitude and a power of two.  Rounding happens once, in `Num.round`. -/

namespace Sys2Proof.Machine

/-- The format codes of R32; the reserved codes 0xA to 0xF are no format. -/
inductive Fmt where
  | int8 | e4m3 | e5m2 | fp4 | bf16 | fp32 | int32 | ci16 | ci32 | lps
  deriving DecidableEq, Repr

/-- R32: the 4-bit code of a format; none for a reserved code. -/
def Fmt.ofCode (c : Nat) : Option Fmt :=
  match c with
  | 0 => some .int8 | 1 => some .e4m3 | 2 => some .e5m2 | 3 => some .fp4 | 4 => some .bf16
  | 5 => some .fp32 | 6 => some .int32 | 7 => some .ci16 | 8 => some .ci32 | 9 => some .lps
  | _ => none

/-- R32: the code of a format. -/
def Fmt.code : Fmt → Nat
  | .int8 => 0 | .e4m3 => 1 | .e5m2 => 2 | .fp4 => 3 | .bf16 => 4
  | .fp32 => 5 | .int32 => 6 | .ci16 => 7 | .ci32 => 8 | .lps => 9

/-- R32: bytes of one element; a block-FP4 element has half a byte and answers 0 here. -/
def Fmt.bytes : Fmt → Nat
  | .int8 | .e4m3 | .e5m2 => 1
  | .fp4 => 0
  | .bf16 => 2
  | .fp32 | .int32 | .ci16 => 4
  | .ci32 => 8
  | .lps => 16

/-- R32, column 'Array operand'. -/
def Fmt.arrayOperand : Fmt → Bool
  | .int8 | .e4m3 | .e5m2 | .fp4 | .bf16 | .ci16 => true
  | _ => false

/-- R34: one of the two FP8 formats. -/
def Fmt.isFp8 : Fmt → Bool
  | .e4m3 | .e5m2 => true
  | _ => false

/-- R33: the operand pairs an array pass accepts. -/
def Fmt.pairOk (a w : Fmt) : Bool :=
  (a.isFp8 && w.isFp8) || (a == w && (a == .int8 || a == .fp4 || a == .bf16 || a == .ci16))

/-- R32, column 'Array output', for one operand pair: INT32 only from INT8, CI16 and CI32 only from
CI16, LPS not from BF16 or CI16, and the floating outputs from every real pair. -/
def Fmt.outOk (a o : Fmt) : Bool :=
  match o with
  | .int32 => a == .int8
  | .ci16 | .ci32 => a == .ci16
  | .lps => a == .int8 || a.isFp8 || a == .fp4
  | .e4m3 | .e5m2 | .bf16 | .fp32 => a != .ci16
  | .int8 | .fp4 => false

/-- An exact value: (−1)^neg · mag · 2^exp, an infinity, or not a number. -/
inductive Num where
  | fin (neg : Bool) (mag : Nat) (exp : Int)
  | inf (neg : Bool)
  | nan
  deriving DecidableEq, Repr

/-- The layout of a binary floating-point format (R34): exponent and mantissa widths, the exponent of
bit 0 of a subnormal, the code of the largest finite magnitude, whether it has infinities, and the
canonical NaN. -/
structure FloatFmt where
  ew : Nat
  mw : Nat
  emin : Int
  maxCode : Nat
  hasInf : Bool
  nan : Nat
  deriving DecidableEq, Repr

def FloatFmt.e4m3 : FloatFmt := ⟨4, 3, -9, 0x7E, false, 0x7F⟩
def FloatFmt.e5m2 : FloatFmt := ⟨5, 2, -16, 0x7B, true, 0x7F⟩
def FloatFmt.bf16 : FloatFmt := ⟨8, 7, -133, 0x7F7F, true, 0x7FC0⟩
def FloatFmt.fp32 : FloatFmt := ⟨8, 23, -149, 0x7F7FFFFF, true, 0x7FC00000⟩

/-- The floating layout of a format, where it has one. -/
def Fmt.float? : Fmt → Option FloatFmt
  | .e4m3 => some .e4m3 | .e5m2 => some .e5m2 | .bf16 => some .bf16 | .fp32 => some .fp32
  | _ => none

/-- R34: the exact value of a floating code. -/
def FloatFmt.value (f : FloatFmt) (code : Nat) : Num :=
  let neg := code / 2 ^ (f.ew + f.mw) % 2 == 1
  let mag := code % 2 ^ (f.ew + f.mw)
  let be := mag / 2 ^ f.mw
  let m := mag % 2 ^ f.mw
  if mag ≤ f.maxCode then
    if be = 0 then .fin neg m f.emin else .fin neg (2 ^ f.mw + m) (f.emin + (be - 1 : Int))
  else if f.hasInf && mag == f.maxCode + 1 then .inf neg
  else .nan

/-- Shift a magnitude right by n places, to nearest with ties to even. -/
def shrRne (m n : Nat) : Nat :=
  let q := m / 2 ^ n
  let r := m % 2 ^ n
  if 2 * r > 2 ^ n then q + 1
  else if 2 * r = 2 ^ n ∧ 0 < n then q + q % 2
  else q

/-- The magnitude m · 2^e on the grid 2^u, to nearest with ties to even. -/
def gridRne (m : Nat) (e u : Int) : Nat :=
  if u ≤ e then m * 2 ^ (e - u).toNat else shrRne m (u - e).toNat

/-- The number of bits of a magnitude. -/
def bitLen (m : Nat) : Nat := if m = 0 then 0 else Nat.log2 m + 1

/-- R49 and R50: one rounding of an exact value into a floating format, to nearest with ties to even,
subnormals kept, saturating at the largest finite value (an infinity as well).  The Bool says that the
conversion saturated. -/
def FloatFmt.round (f : FloatFmt) (x : Num) : Nat × Bool :=
  let sgn (neg : Bool) : Nat := if neg then 2 ^ (f.ew + f.mw) else 0
  match x with
  | .nan => (f.nan, false)
  | .inf neg => (sgn neg + f.maxCode, true)
  | .fin neg m e =>
    if m = 0 then (sgn neg, false)
    else
      let u := max (e + (bitLen m : Int) - (f.mw + 1 : Nat)) f.emin
      let code := (u - f.emin).toNat * 2 ^ f.mw + gridRne m e u
      if f.maxCode < code then (sgn neg + f.maxCode, true) else (sgn neg + code, false)

/-- The exact value of an integer times a power of two; zero is +0 (R48). -/
def Num.ofInt (i e : Int) : Num := .fin (decide (i < 0)) i.natAbs e

/-- R50, rows 'FP32 → INT8, INT32' and 'LPS → INT8, INT32': to nearest with ties to even, saturating
in a two's-complement width; NaN gives 0. -/
def Num.toInt (w : Nat) (x : Num) : Int × Bool :=
  let hi : Int := 2 ^ (w - 1) - 1
  let lo : Int := -(2 ^ (w - 1))
  match x with
  | .nan => (0, false)
  | .inf neg => (if neg then lo else hi, true)
  | .fin neg m e =>
    let q := gridRne m e 0
    let i : Int := if neg then -(q : Int) else q
    if hi < i then (hi, true) else if i < lo then (lo, true) else (i, false)

/-- A signed integer as a bit pattern of w bits. -/
def toBits (w : Nat) (i : Int) : Nat := (i % (2 ^ w : Nat)).toNat

/-- A bit pattern of w bits as a signed integer. -/
def ofBits (w : Nat) (n : Nat) : Int :=
  let m := n % 2 ^ w
  if m < 2 ^ (w - 1) then (m : Int) else (m : Int) - 2 ^ w

/-- Clamp an integer, saying whether it was clamped. -/
def clampInt (lo hi i : Int) : Int × Bool :=
  if hi < i then (hi, true) else if i < lo then (lo, true) else (i, false)

/-- Exact product; NaN if either is NaN, and R47: infinite operands act as NaN. -/
def Num.mul : Num → Num → Num
  | .fin a m e, .fin b n f => .fin (a != b) (m * n) (e + f)
  | _, _ => .nan

/-- The signed integer of a finite value on the grid 2^g, where g is at or below its exponent. -/
def Num.onGrid (g : Int) : Num → Option Int
  | .fin neg m e => some ((if neg then -1 else 1) * (m * 2 ^ (e - g).toNat : Nat))
  | _ => none

/-- IEEE 754 addition to nearest even of two finite FP32 values, saturating (R49); NaN and infinite
operands give NaN (R46, R47).  The sum of equal magnitudes of opposite sign is +0 (R48). -/
def fp32Add (a b : Nat) : Nat × Bool :=
  match FloatFmt.fp32.value a, FloatFmt.fp32.value b with
  | .fin na ma ea, .fin nb mb eb =>
    let g := min ea eb
    let ia : Int := (if na then -1 else 1) * (ma * 2 ^ (ea - g).toNat : Nat)
    let ib : Int := (if nb then -1 else 1) * (mb * 2 ^ (eb - g).toNat : Nat)
    let t := ia + ib
    if t = 0 then (if na && nb && ma == 0 && mb == 0 then 0x80000000 else 0, false)
    else FloatFmt.fp32.round (.fin (decide (t < 0)) t.natAbs g)
  | _, _ => (0x7FC00000, false)

/-- R36: the value of one E2M1 code. -/
def fp4Value (code : Nat) : Num :=
  let neg := code / 8 % 2 == 1
  let be := code / 2 % 4
  let m := code % 2
  if be = 0 then .fin neg m (-1) else .fin neg (2 + m) ((be : Int) - 2)

/-- R36: the value of an element of a block whose scale byte is s; 0xFF marks the block as NaN. -/
def fp4BlockValue (s code : Nat) : Num :=
  if s = 0xFF then .nan
  else match fp4Value code with
    | .fin neg m e => .fin neg m (e + s - 127)
    | x => x

/-- R32: the exact value of an element of a real format that is not block FP4 or LPS. -/
def Fmt.value (f : Fmt) (code : Nat) : Num :=
  match f with
  | .int8 => .ofInt (ofBits 8 code) 0
  | .int32 => .ofInt (ofBits 32 code) 0
  | .e4m3 => FloatFmt.e4m3.value code
  | .e5m2 => FloatFmt.e5m2.value code
  | .bf16 => FloatFmt.bf16.value code
  | .fp32 => FloatFmt.fp32.value code
  | .fp4 => fp4Value code
  | .ci16 | .ci32 | .lps => .nan

/-- R44: the integer that is no number. -/
def lpsNan : Nat := 2 ^ 127

/-- R43, R44: the value of an LPS element at exponent base b. -/
def lpsValue (b : Int) (l : Nat) : Num :=
  if l % 2 ^ 128 = lpsNan then .nan else .ofInt (ofBits 128 l) b

/-- R44: LPS addition, exact within ±(2¹²⁷ − 1), saturating beyond; the Bool is FLAGS bit 1's cause. -/
def lpsAdd (a b : Nat) : Nat × Bool :=
  if a % 2 ^ 128 = lpsNan ∨ b % 2 ^ 128 = lpsNan then (lpsNan, false)
  else
    let r := clampInt (-(2 ^ 127 - 1)) (2 ^ 127 - 1) (ofBits 128 a + ofBits 128 b)
    (toBits 128 r.1, r.2)

/-- R49: an exact value into a target format of a store stage.  INT32 saturates to ±(2³¹ − 1) upwards
and −2³¹ downwards; LPS is exact on the base b. -/
def Num.store (f : Fmt) (b : Int) (x : Num) : Nat × Bool :=
  match f with
  | .e4m3 => FloatFmt.e4m3.round x
  | .e5m2 => FloatFmt.e5m2.round x
  | .bf16 => FloatFmt.bf16.round x
  | .fp32 => FloatFmt.fp32.round x
  | .int32 => let r := x.toInt 32; (toBits 32 r.1, r.2)
  | .int8 => let r := x.toInt 8; (toBits 8 r.1, r.2)
  | .lps => match x.onGrid b with
    | some i => (toBits 128 i, false)
    | none => (lpsNan, false)
  | .fp4 | .ci16 | .ci32 => (0, false)

/-- R51: an exact value scaled by 2^(−e), to the nearest E2M1 code, ties to the code with bit 0 clear,
saturated to ±6.0.  DEDUCED (log 40): the element counts as saturated where the value rounded
without a range limit exceeds 6.0. -/
def fp4Round (e : Int) (x : Num) : Nat × Bool :=
  match x with
  | .fin neg m ex =>
    let s := if neg then 8 else 0
    if m = 0 then (s, false)
    else
      let u := max (ex - e + (bitLen m : Int) - 2) (-1)
      let code := (u + 1).toNat * 2 + gridRne m (ex - e) u
      if 7 < code then (s + 7, true) else (s + code, false)
  | .inf neg => ((if neg then 8 else 0) + 7, true)
  | .nan => (0, false)

/-- R51: infinities count as the FP32 largest finite value when the block's scale is chosen. -/
def Num.clipInf : Num → Num
  | .inf neg => .fin neg 0xFFFFFF 104
  | x => x

/-- floor(log₂ |x|) of a finite non-zero value. -/
def Num.log2 : Num → Option Int
  | .fin _ m e => if m = 0 then none else some (e + Nat.log2 m)
  | _ => none

/-- The greatest floor(log₂ |x|) of a list of values; none where all are zero. -/
def maxLog2 : List Num → Option Int
  | [] => none
  | x :: xs => match x.log2, maxLog2 xs with
    | some a, some b => some (max a b)
    | some a, none => some a
    | none, r => r

/-- R51: 16 values to one block-FP4 block: the scale byte, the element codes, and how many elements
saturated. -/
def fp4Block (xs : List Num) : Nat × List Nat × Nat :=
  if xs.any (· == .nan) then (0xFF, xs.map (fun _ => 0), 0)
  else
    let ys := xs.map Num.clipInf
    match maxLog2 ys with
    | none => (0, ys.map (fun y => (fp4Round 0 y).1), 0)
    | some g =>
      let e := max (-127) (min 127 (g - 2))
      let rs := ys.map (fp4Round e)
      ((e + 127).toNat, rs.map (·.1), (rs.filter (·.2)).length)

/-- R50: is the pair of formats a conversion the table supports? -/
def Fmt.convertOk (a b : Fmt) : Bool :=
  a == b ||
  match a, b with
  | .ci16, .ci32 | .ci32, .ci16 => true
  | .ci16, _ | .ci32, _ | _, .ci16 | _, .ci32 => false
  | _, .lps => false
  | _, _ => true

/-- R50, one element to a format that is neither block FP4 nor complex nor LPS.  Into FP32 an INT8,
FP8 or BF16 infinity stays an infinity; every other conversion saturates. -/
def Num.convert (src dst : Fmt) (x : Num) : Nat × Bool :=
  match src, dst, x with
  | .e5m2, .fp32, .inf neg | .bf16, .fp32, .inf neg => (if neg then 0xFF800000 else 0x7F800000, false)
  | _, _, _ => x.store dst 0

/-- R50: CI32 → CI16, one component, saturated with no shift. -/
def ci32ToCi16 (c : Nat) : Nat × Bool :=
  let r := clampInt (-32768) 32767 (ofBits 32 c)
  (toBits 16 r.1, r.2)

/-- R54: the rounding of a Dibber or CI16 store: to nearest even, or toward minus infinity. -/
inductive StoreRound where
  | nearestEven | truncate
  deriving DecidableEq, Repr

/-- R54 and R55: arithmetic right shift by sh, rounding, saturation to a width, optionally symmetric. -/
def cstore (sh : Nat) (rnd : StoreRound) (w : Nat) (symm : Bool) (i : Int) : Int × Bool :=
  let q : Int := match rnd with
    | .truncate => i / (2 ^ sh : Nat)
    | .nearestEven =>
      let f := i / (2 ^ sh : Nat)
      let r := i % (2 ^ sh : Nat)
      if 2 * r > (2 ^ sh : Nat) then f + 1
      else if 2 * r = (2 ^ sh : Nat) ∧ 0 < sh then f + f % 2
      else f
  clampInt (if symm then -(2 ^ (w - 1) - 1) else -(2 ^ (w - 1))) (2 ^ (w - 1) - 1) q

/-- R52: the exact complex product of two CI16 values, each given as real and imaginary integers, with
the conjugate and negate variants (the second operand conjugated, the product negated). -/
def cmul (conj neg : Bool) (a b : Int × Int) : Int × Int :=
  let bi := if conj then -b.2 else b.2
  let re := a.1 * b.1 - a.2 * bi
  let im := a.1 * bi + a.2 * b.1
  if neg then (-re, -im) else (re, im)

/-- R35: the components of a CI16 word. -/
def ci16 (w : Nat) : Int × Int := (ofBits 16 w, ofBits 16 (w / 2 ^ 16))

/-- R53: one component of a Dibber accumulation in 40 bits, held at the bound; the Bool sets the
sticky overflow flag. -/
def acc40 (acc add : Int) : Int × Bool := clampInt (-(2 ^ 39)) (2 ^ 39 - 1) (acc + add)

end Sys2Proof.Machine
end

