-- ==== Sys2Proof/Machine/Types.lean ====
section
/-! DEFINITION.  The named things of the module that commands and state speak of: dies and their places
(R14, R98), ring classes (R17), clock domains (R25), islands (R27), masters (R97), and the regions of
the device physical address space (R457). -/

namespace Sys2Proof.Machine

/-- The ten logical dies (R98). -/
inductive Die where
  | pd (n : Fin 4) | gd (n : Fin 4) | rd | hd
  deriving DecidableEq, Repr

/-- R98: the logical die index d. -/
def Die.index : Die → Nat
  | .pd n => n | .gd n => 4 + n | .rd => 8 | .hd => 9

/-- R98, inverted; indices above 9 give HD. -/
def Die.ofIndex (d : Nat) : Die :=
  if h : d < 4 then .pd ⟨d, h⟩
  else if h : d - 4 < 4 then .gd ⟨d - 4, h⟩
  else if d = 8 then .rd else .hd

/-- R14: positions on the Mooring ring. -/
def Die.position : Die → Nat
  | .hd => 0 | .pd 0 => 1 | .gd 0 => 2 | .gd 1 => 3 | .pd 1 => 4
  | .rd => 5 | .pd 2 => 6 | .gd 2 => 7 | .gd 3 => 8 | .pd 3 => 9

/-- R14, inverted. -/
def Die.atPosition (p : Nat) : Die :=
  match p % 10 with
  | 0 => .hd | 1 => .pd 0 | 2 => .gd 0 | 3 => .gd 1 | 4 => .pd 1
  | 5 => .rd | 6 => .pd 2 | 7 => .gd 2 | 8 => .gd 3 | _ => .pd 3

/-- R17: traffic classes of the ring. -/
inductive RingClass where
  | radio | control | bulk
  deriving DecidableEq, Repr

/-- R17: what a ring transfer carries; `other` is traffic the rule does not name, whose class its sender gives. -/
inductive RingTraffic where
  | sample | llr | tideTable | command | tally | completion | weight | berth | contextSave
  | other (cls : RingClass)
  deriving DecidableEq, Repr

/-- R17: the class each kind of traffic travels in. -/
def RingTraffic.cls : RingTraffic → RingClass
  | .sample | .llr | .tideTable => .radio
  | .command | .tally | .completion => .control
  | .weight | .berth | .contextSave => .bulk
  | .other c => c

/-- R17, R95: strict priority of a class, highest first. -/
def RingClass.code : RingClass → Nat
  | .radio => 0 | .control => 1 | .bulk => 2

/-- R25: the eighteen clock domains. -/
inductive ClkDomain where
  | aon | tide | pda (n : Fin 4) | gdc (n : Fin 4) | rdc | rdf | moor | pilot | hbmc | pcie | zel | fh
  deriving DecidableEq, Repr

/-- R25: domains that never stop once started. -/
def ClkDomain.always : ClkDomain → Bool
  | .aon | .tide | .moor | .pilot | .pcie => true
  | _ => false

/-- Who writes a register or issues an access: the PF, a virtual function, or a Pilot core of a die.
HD.A0 to HD.A7 are cores 0 to 7 of HD and HD.B0 to HD.B7 are cores 8 to 15 (R97). -/
inductive Agent where
  | pf
  | vf (f : Fin 512)
  | core (d : Die) (k : Fin 16)
  deriving DecidableEq, Repr

/-- R27: what an island holds. -/
inductive IslKind where
  | array (g : Nat) | bankGroup (n j : Nat) | base (d : Die) | dibbers (c : Nat) | coding (c : Nat)
  | ports (p : Nat) | optics (k : Nat) | aon
  deriving DecidableEq, Repr

/-- R27: the unit of island i. -/
def islKind (i : Nat) : IslKind :=
  if i < 68 then
    if i % 17 = 16 then .base (Die.ofIndex (i / 17)) else .array (16 * (i / 17) + i % 17)
  else if i < 472 then
    let n := (i - 68) / 101
    let r := (i - 68) % 101
    if r < 4 then .array (64 + 4 * n + r)
    else if r = 100 then .base (Die.ofIndex (4 + n))
    else .bankGroup n (r - 4)
  else if i < 476 then .array (80 + (i - 472))
  else if i < 482 then .dibbers (i - 476)
  else if i < 486 then .coding (i - 482)
  else if i < 490 then .ports (i - 486)
  else if i = 490 then .base .rd
  else if i < 497 then .optics (i - 491)
  else if i = 497 then .base .hd
  else .aon

/-- R27: the island of array g (R24). -/
def arrayIsland (g : Nat) : Nat :=
  if g < 64 then 17 * (g / 16) + g % 16
  else if g < 80 then 68 + 101 * ((g - 64) / 4) + (g - 64) % 4
  else 472 + (g - 80)

/-- R27: the island of bank group j of GDn. -/
def bgIsland (n j : Nat) : Nat := 68 + 101 * n + 4 + j

/-- R27: the BASE island of a die. -/
def baseIsland : Die → Nat
  | .pd n => 17 * n + 16 | .gd n => 68 + 101 * n + 100 | .rd => 490 | .hd => 497

/-- R24: the die that carries array g. -/
def arrayDie (g : Nat) : Die :=
  if g < 64 then Die.ofIndex (g / 16) else if g < 80 then Die.ofIndex (4 + (g - 64) / 4) else .rd

/-- R97: the master identifier of a Pilot core. -/
def coreId : Die → Nat → Nat
  | .pd n, k => 0x080 + 4 * n + k
  | .gd n, k => 0x090 + 2 * n + k
  | .rd, k => 0x098 + k
  | .hd, k => 0x09C + k

/-- The number of Pilot cores that a die's IRQ_CORE fields can name. -/
def dieCores : Die → Nat
  | .gd _ => 2 | .hd => 16 | _ => 4

/-- R70, R98: IRQ_CORE; a value naming no core routes to core 0. -/
def irqCore (d : Die) (v : Nat) : Nat := coreId d (if v < dieCores d then v else 0)

/-- R97: the master identifier of an agent; the PF and the virtual functions come in over PCIe. -/
def Agent.master : Agent → Nat
  | .pf | .vf _ => 0x120
  | .core d k => coreId d k

/-- R97: is the identifier one the table gives a unit? -/
def masterUsed (m : Nat) : Bool :=
  m ≤ 0x053 || (0x060 ≤ m && m ≤ 0x067) || (0x080 ≤ m && m ≤ 0x0AB) || (0x0C0 ≤ m && m ≤ 0x0C3) ||
  m == 0x0D0 || m == 0x0D1 || (0x0E0 ≤ m && m ≤ 0x111) || (0x120 ≤ m && m ≤ 0x125) ||
  (0x1F0 ≤ m && m ≤ 0x1F9)

/-- R97: the die a master's unit is part of. -/
def masterDie (m : Nat) : Die :=
  if m < 0x060 then arrayDie m
  else if m < 0x068 then Die.ofIndex (4 + m % 4)
  else if m < 0x090 then Die.ofIndex ((m - 0x080) / 4)
  else if m < 0x098 then Die.ofIndex (4 + (m - 0x090) / 2)
  else if m < 0x09C then .rd
  else if m < 0x0C0 then .hd
  else if m < 0x0D0 then Die.ofIndex (m - 0x0C0)
  else if m < 0x120 then .rd
  else if m < 0x1F0 then .hd
  else Die.ofIndex (m - 0x1F0)

/-- R97: the identifier of a Pilot core. -/
def isCore (m : Nat) : Bool := decide (0x080 ≤ m) && decide (m ≤ 0x0AB)

/-- R95, R97: the radio engines: FFT engines, PRACH detector, Dibbers, coding cluster and fronthaul ports. -/
def isRadioEngine (m : Nat) : Bool := m == 0x0D0 || m == 0x0D1 || (decide (0x0E0 ≤ m) && decide (m ≤ 0x111))

/-- The two ports of a bank (R94). -/
inductive Port where
  | a | b
  deriving DecidableEq, Repr

/-- R94: the port a master's plain accesses use on a die's banks.  On GD only the banks' Drip lanes use port A, and
`lane` says that the access is a read of the bank's own lane. -/
def portOf (d : Die) (m : Nat) (lane : Bool) : Port :=
  match d with
  | .gd n => if lane && m == 0x060 + n then .a else .b
  | .pd n => if 16 * n.val ≤ m ∧ m < 16 * n.val + 16 then .a else .b
  | .rd => if (80 ≤ m ∧ m < 84) ∨ isRadioEngine m then .a else .b
  | .hd => if 0x09C ≤ m ∧ m ≤ 0x0AB then .a else .b

/-- Where a device physical address lies (R457): HBM stack and offset, die SRAM and offset, register
space and offset, a window beyond its span (R21), or reserved. -/
inductive Place where
  | hbm (k off : Nat) | sram (d : Die) (off : Nat) | regs (off : Nat) | beyond (d : Die) | reserved
  deriving DecidableEq, Repr

/-- R20: bytes of SRAM in use in a die's window. -/
def sramSpan : Die → Nat
  | .gd _ => 0xC0000000 | .hd => 0x10000000 | _ => 0x30000000

/-- R20: base address of a die's SRAM window. -/
def sramBase : Die → Nat
  | .pd n => 0x010000000000 + n * 0x40000000
  | .gd n => 0x020000000000 + n * 0x100000000
  | .rd => 0x030000000000
  | .hd => 0x038000000000

/-- An offset inside a die's SRAM window, within or beyond its span. -/
def inWindow (d : Die) (off : Nat) : Place := if off < sramSpan d then .sram d off else .beyond d

/-- R457: the regions of the device physical address space. -/
def place (a : Nat) : Place :=
  if a < 0x006000000000 then .hbm (a / 0x000C00000000) (a % 0x000C00000000)
  else if 0x010000000000 ≤ a ∧ a < 0x010100000000 then
    inWindow (Die.ofIndex ((a - 0x010000000000) / 0x40000000)) (a % 0x40000000)
  else if 0x020000000000 ≤ a ∧ a < 0x020400000000 then
    inWindow (Die.ofIndex (4 + (a - 0x020000000000) / 0x100000000)) (a % 0x100000000)
  else if 0x030000000000 ≤ a ∧ a < 0x030040000000 then inWindow .rd (a - 0x030000000000)
  else if 0x038000000000 ≤ a ∧ a < 0x038040000000 then inWindow .hd (a - 0x038000000000)
  else if 0x040000000000 ≤ a ∧ a < 0x040010000000 then .regs (a - 0x040000000000)
  else .reserved

/-- R101: the status of a bank access. -/
inductive BankStatus where
  | ok | corrected | collide | ecc | address | island | detFault | refused
  deriving DecidableEq, Repr

/-- R101: the 3-bit code. -/
def BankStatus.code : BankStatus → Nat
  | .ok => 0 | .corrected => 1 | .collide => 2 | .ecc => 3
  | .address => 4 | .island => 5 | .detFault => 6 | .refused => 7

/-- Why a Pilot core is interrupted. -/
inductive IrqSrc where
  | es | dl | ecc | dredge | tideTable | ds | barrier | shed | trigger | radio
  | capture | adopt | other
  /-- not an interrupt but the fault exception of R104 -/
  | detFault
  deriving DecidableEq, Repr

end Sys2Proof.Machine
end

