-- ==== Sys2Proof/Machine/Maps.lean ====
section
/-! DEFINITION.  Sparse tables in one canonical form: keys strictly rising, and no entry equal to what
an unlisted key reads as.  Memory, the register file and every per-unit table of State use them, so
equal contents are equal data.  Also little-endian bytes and bit fields (R8). -/

namespace Sys2Proof.Machine

variable {α : Type}

/-- The value at a key; an unlisted key reads as d. -/
def tget (d : α) : Table α → Nat → α
  | [], _ => d
  | (k, v) :: t, i => if i = k then v else tget d t i

/-- Place a value at a key, in key order; v = none removes the key. -/
def tput (v : Option α) : Table α → Nat → Table α
  | [], i => match v with
    | some x => [(i, x)]
    | none => []
  | (k, x) :: t, i =>
    if i < k then
      match v with
      | some y => (i, y) :: (k, x) :: t
      | none => (k, x) :: t
    else if i = k then
      match v with
      | some y => (k, y) :: t
      | none => t
    else (k, x) :: tput v t i

/-- Write a value at a key; writing what an unlisted key reads as removes the entry. -/
def tset [DecidableEq α] (d : α) (t : Table α) (i : Nat) (v : α) : Table α :=
  tput (if v = d then none else some v) t i

/-- Change the value at a key. -/
def tmod [DecidableEq α] (d : α) (t : Table α) (i : Nat) (f : α → α) : Table α :=
  tset d t i (f (tget d t i))

/-- Remove every entry whose key satisfies p; those keys then read as unlisted. -/
def tdrop (p : Nat → Bool) (t : Table α) : Table α := t.filter (fun e => !p e.1)

/-- Keys strictly rising, all at or above lo. -/
def tsorted : Nat → Table α → Bool
  | _, [] => true
  | lo, (k, _) :: t => decide (lo ≤ k) && tsorted (k + 1) t

/-- The canonical form of a table whose unlisted keys read as d. -/
def twf [DecidableEq α] (d : α) (t : Table α) : Bool := tsorted 0 t && t.all (fun e => e.2 ≠ d)

/-- Memory: (address, byte) pairs; a byte that nothing has written reads as 0 (log 3). -/
abbrev Memory := Table Byte

/-- Memory.wf: the canonical form of memory. -/
def Memory.wf (m : Memory) : Bool := twf (0 : Byte) m

/-- Read one byte. -/
def rdByte (m : Memory) (a : Nat) : Byte := tget 0 m a

/-- Write one byte. -/
def wrByte (m : Memory) (a : Nat) (b : Byte) : Memory := tset 0 m a b

/-- Read n bytes from a. -/
def rdBytes (m : Memory) (a : Nat) : Nat → List Byte
  | 0 => []
  | n + 1 => rdByte m a :: rdBytes m (a + 1) n

/-- Write a run of bytes at a. -/
def wrBytes (m : Memory) (a : Nat) : List Byte → Memory
  | [] => m
  | b :: bs => wrBytes (wrByte m a b) (a + 1) bs

/-- A little-endian number from bytes (R8). -/
def leNat : List Byte → Nat
  | [] => 0
  | b :: bs => b.toNat + 256 * leNat bs

/-- The n little-endian bytes of a number (R8). -/
def leBytes : Nat → Nat → List Byte
  | 0, _ => []
  | n + 1, x => BitVec.ofNat 8 x :: leBytes n (x / 256)

/-- Bits hi:lo of a number. -/
def bitsOf (x hi lo : Nat) : Nat := x / 2 ^ lo % 2 ^ (hi + 1 - lo)

/-- One bit of a number. -/
def bitOf (x i : Nat) : Bool := x / 2 ^ i % 2 == 1

/-- A number with bits hi:lo replaced. -/
def withBits (x hi lo v : Nat) : Nat :=
  x - bitsOf x hi lo * 2 ^ lo + v % 2 ^ (hi + 1 - lo) * 2 ^ lo

/-- A Bool as a bit. -/
def b2n (b : Bool) : Nat := if b then 1 else 0

/-- Add to a 32-bit count that saturates at 0xFFFF_FFFF. -/
def satAdd (w : Word) (n : Nat) : Word := BitVec.ofNat 32 (min 0xFFFFFFFF (w.toNat + n))

/-- Bytes start to start + n − 1 of a record, as a number. -/
def fieldAt (bs : List Byte) (start n : Nat) : Nat := leNat ((bs.drop start).take n)

/-- A 64-byte record as its bytes. -/
def bytesOf (n : Nat) (x : BitVec (8 * n)) : List Byte := leBytes n x.toNat

/-- Change the element at position i of a list, where there is one. -/
def lmod (l : List α) (i : Nat) (f : α → α) : List α :=
  match l, i with
  | [], _ => []
  | x :: xs, 0 => f x :: xs
  | x :: xs, i + 1 => x :: lmod xs i f

/-- Change the first element that satisfies p. -/
def lmodFirst (p : α → Bool) (f : α → α) : List α → List α
  | [] => []
  | x :: xs => if p x then f x :: xs else x :: lmodFirst p f xs

/-- Remove the first element that satisfies p. -/
def lrmFirst (p : α → Bool) : List α → List α
  | [] => []
  | x :: xs => if p x then xs else x :: lrmFirst p xs

/-- The number of set bits below w. -/
def popCount (x : Nat) : Nat → Nat
  | 0 => 0
  | w + 1 => x % 2 + popCount (x / 2) w

/-- ceil(a ÷ b). -/
def ceilDiv (a b : Nat) : Nat := (a + b - 1) / b

end Sys2Proof.Machine
end

