-- ==== Sys2Proof/Machine/Parts/Zelic.lean ====
section
/-! DEFINITION.  State of the Zelic fabric (chapter 13). -/

namespace Sys2Proof.Machine

/-- A message (R290); rsvd says that a reserved bit of its header is set. -/
structure ZlMsg where
  typ : Nat
  cls : Nat := 0
  dst : Nat := 0
  src : Nat := 0
  gen : Nat := 0
  retry : Nat := 0
  err : Bool := false
  tag : Nat := 0
  subop : Nat := 0
  job : Nat := 0
  /-- R304; codes from 0x10 on never leave the module -/
  status : Nat := 0
  len : Nat := 0
  age : Nat := 0
  qaddr : Nat := 0
  index : Nat := 0
  operand : Nat := 0
  rsvd : Bool := false
  data : List Byte := []
  deriving DecidableEq, Repr

/-- Who issues a request (R293): a Pilot core acting for VF v or, with v = 0, for the PF or the module; the
Harbourmaster under a job identifier of a slot record; a Lock under the FAR_JOB of a segment. -/
inductive ZlIss where
  | fw (core : Fin 44) (v : Fin 513)
  | harbour (job : Nat)
  | lock (seg job : Nat)
  deriving DecidableEq, Repr

/-- A request that a Lock has taken, with the link it came on (R310); none for this module's own. -/
structure ZlOrig where
  via : Option Nat
  msg : ZlMsg
  deriving DecidableEq, Repr

/-- An outstanding request (R307). -/
structure ZlReq where
  iss : ZlIss
  msg : ZlMsg
  /-- the link of the first copy; none where the module itself is the target -/
  link : Option Nat
  /-- raw count at which RETRY 0 was sent -/
  t0 : Option Nat := none
  /-- copies sent, and those answered BUSY (R308) -/
  sent : Nat := 0
  busy : Nat := 0
  /-- retries made -/
  retries : Nat := 0
  /-- the copy it is a chunk of, and where a GET chunk goes -/
  copy : Option Nat := none
  dst : Nat := 0
  /-- requests that wait for it at a Lock -/
  origs : List ZlOrig := []
  deriving DecidableEq, Repr

/-- A tag (R307): its generation, the request that holds it, and the raw count at which its quarantine ends. -/
structure ZlTag where
  gen : Nat := 0
  req : Option ZlReq := none
  quar : Option Nat := none
  deriving DecidableEq, Repr

/-- An asynchronous copy in progress (R299). -/
structure ZlCopy where
  iss : ZlIss
  get : Bool
  /-- chunks not yet answered -/
  left : Nat
  /-- status of the first chunk that failed, or OK -/
  status : Nat := 0
  deriving DecidableEq, Repr

/-- A completion at its issuer (R304). -/
structure ZlDone where
  iss : ZlIss
  /-- the type of the request; 0x07 and 0x09 for a whole copy -/
  typ : Nat
  tag : Nat := 0
  status : Nat
  err : Bool := false
  /-- prior value of an atomic -/
  prior : Nat := 0
  /-- data of a load -/
  data : List Byte := []
  deriving DecidableEq, Repr

/-- What an issuer has in hand and not yet sent (R303, R307). -/
inductive ZlHeld where
  | req (iss : ZlIss) (msg : ZlMsg) (origs : List ZlOrig)
  | fence (iss : ZlIss) (classes : Nat)
  /-- the rest of a copy: class, target, local and quay address, bytes and counter -/
  | chunks (iss : ZlIss) (get : Bool) (cls dst : Nat) (addr qaddr left index copy : Nat)
  deriving DecidableEq, Repr

/-- A message that has a link and waits for room in its egress queue (R318, R319). -/
structure ZlOut where
  link : Nat
  queue : Nat
  msg : ZlMsg
  /-- raw count of arrival of a forwarded message -/
  fwd : Option Nat := none
  deriving DecidableEq, Repr

/-- A cached reply (R308). -/
structure ZlReply where
  src : Nat
  tag : Nat
  gen : Nat
  made : Nat
  reply : ZlMsg
  deriving DecidableEq, Repr

/-- R288: states of a link. -/
inductive ZlLinkSt where
  | disabled | training | up | down
  deriving DecidableEq, Repr

structure ZlLink where
  st : ZlLinkSt := .disabled
  peerModule : Nat := 0
  peerLink : Nat := 0
  /-- consecutive failed replays -/
  fails : Nat := 0
  deriving DecidableEq, Repr

/-- A quay entry as the harbour die caches it (R296): its segment and its 32 bytes. -/
structure QtCached where
  seg : Nat
  raw : Nat
  deriving DecidableEq, Repr

/-- A Lock's write-combining buffer (R311). -/
structure ZlBuf where
  via : Option Nat
  src : Nat
  job : Nat
  seg : Nat
  cls : Nat
  farModule : Nat
  farJob : Nat
  start : Nat
  data : List Byte := []
  stores : List ZlOrig := []
  since : Nat
  deriving DecidableEq, Repr

/-- The Zelic fabric. -/
structure Zelic where
  links : Table ZlLink := []
  /-- R309: raw count at which ENABLE was set, while its window lasts -/
  busyFrom : Option Nat := none
  tags : Table ZlTag := []
  held : List ZlHeld := []
  out : List ZlOut := []
  /-- messages to this module itself, oldest first (R289) -/
  loop : List ZlMsg := []
  copies : Table (Option ZlCopy) := []
  nextCopy : Nat := 0
  done : List ZlDone := []
  /-- reply caches by arrival link -/
  rc : Table (List ZlReply) := []
  qt : List QtCached := []
  /-- an invalidation in progress: of one segment, or of all -/
  inv : Option (Option Nat) := none
  /-- raw count of the last sweep -/
  sweepT : Nat := 0
  bufs : List ZlBuf := []
  /-- messages that have left, by link, newest last -/
  wire : List (Nat × ZlMsg) := []
  deriving DecidableEq, Repr

end Sys2Proof.Machine
end

