-- ==== Sys2Proof/Machine/Operand.lean ====
section
/-! DEFINITION.  Structured operands of commands. -/

namespace Sys2Proof.Machine

/-- What a bank access does (R93): a 64-bit read, the read of a GD bank's own Drip lane (R79, R94), or a write of the
bytes its mask enables. -/
inductive BankOp where
  | read
  | laneRead
  | write (mask : BitVec 8) (data : DWord)
  deriving DecidableEq, Repr

/-- An ABORT of an array, and how long its injection has been held when it comes (R73, R75). -/
structure EsAbort where
  array : Fin 84
  waited : Nat
  deriving DecidableEq, Repr

/-- How long injection has waited for operand data that now arrives, and the next row, if any, that it has to wait for
(R71, R75). -/
structure EsArrival where
  cycles : Nat
  waits : Option (Fin 65536)
  deriving DecidableEq, Repr

/-- A row write of an array, and the words of the row that lose a collision with another master's write (R99, R102). -/
structure EsStore where
  array : Fin 84
  lost : List PAddr
  deriving DecidableEq, Repr

/-- What a ring transfer is: the master that issues it (R97) and its kind of traffic (R17). -/
structure RingUse where
  master : Fin 512
  kind : RingTraffic
  deriving DecidableEq, Repr

/-- A request at a bank (R93 to R97): its master, the ring class it came over in where its master is on another die,
the bank cycles it has waited, and what it does. -/
structure BankReq where
  master : Fin 512
  ring : RingClass
  waited : Nat
  op : BankOp
  deriving DecidableEq, Repr

/-- A march read that failed (R115): word of the region, bit of the stored word, expected value. -/
structure MarchFail where
  word : Fin 512
  bit : Fin 72
  expect : Bool
  deriving DecidableEq, Repr

/-- One PRB of an uplink section: its exponent and 24 mantissas, real and imaginary in turn (R210). -/
structure PrbData where
  exp : Fin 16
  m : List Int
  deriving DecidableEq, Repr

/-- How a received frame is carried (R206). -/
inductive FhTransport where
  | ethernet | udp | ieee1914
  deriving DecidableEq, Repr

/-- U-plane compression methods (R206). -/
inductive FhComp where
  | none | blockFloat | blockScaling | muLaw | modulation | selective
  deriving DecidableEq, Repr

/-- The headers of a received C-plane or U-plane frame (R206, R208): its transport, whether it is tagged, its length, its
eCPRI message type, and the VLAN and sequence it is matched and checked by beside its eAxC identifier. -/
structure FhHdr where
  transport : FhTransport
  tagged : Bool
  len : Nat
  typ : BitVec 8
  vlan : BitVec 12
  seq : BitVec 8
  deriving DecidableEq, Repr

/-- The sections of a received C-plane frame (R206): section type, and subcarrier spacing in Hz (section type 3 names it). -/
structure FhSection where
  typ : BitVec 8
  scs : Nat
  deriving DecidableEq, Repr

/-- The directions of a slot that a configuration names (R226, R227). -/
structure SlotDirs where
  up : Bool
  down : Bool
  deriving DecidableEq, Repr

/-- How an FFT job runs (R219): an inverse transform, and started by an event strobe. -/
structure FftMode where
  inverse : Bool
  strobe : Bool
  deriving DecidableEq, Repr

/-- One repetition of a PRACH occasion on one of the cell's PRACH streams (R216): the stream's receive context, the symbol
it came in, by the slots after the occasion's first, and where its L samples lie in RD SRAM (log 21). -/
structure PrachRep where
  rx : Fin 2048
  after : Fin 20
  sym : Fin 14
  buf : PAddr
  deriving DecidableEq, Repr

/-- What the PRACH detector found of one preamble (R217). -/
structure PrachDet where
  preamble : Fin 64
  ta : Fin 3847
  /-- 0.1 dB units relative to full scale -/
  power : Int
  deriving DecidableEq, Repr

/-- The resource elements that the log-likelihood ratios of an allocation are drawn from, in order (R230): per values for
each, by subcarrier and then by data symbol. -/
structure LlrAlloc where
  cell : Fin 512
  frame : Nat
  slot : Fin 20
  startPrb : Fin 273
  prbs : Fin 274
  syms : BitVec 14
  per : Fin 65
  deriving DecidableEq, Repr

/-- Where a Dibber store puts its lanes: a vector register, consecutive elements of local data memory or of device memory,
or the log-likelihood ratios of an allocation from value k on, the set of which begins at a (R230). -/
inductive DbDst where
  | vreg (d : Fin 32)
  | dmem (off : BitVec 18)
  | device (a : PAddr)
  | llr (a : PAddr) (alloc : LlrAlloc) (k : Nat)
  deriving DecidableEq, Repr

/-- Where a Dibber load reads: local data memory or device memory. -/
inductive DbSrc where
  | dmem (off : BitVec 18)
  | device (a : PAddr)
  deriving DecidableEq, Repr

/-- The register a Dibber load writes (R221): 32 lanes of a vector register, a scalar register or a predicate. -/
inductive DbLoadReg where
  | v (d : Fin 32) | s (d : Fin 16) | p (d : Fin 4)
  deriving DecidableEq, Repr

/-- Lane operations outside the multiply-accumulate and the store (R223). -/
inductive LaneOp where
  | addSub (sub symm : Bool) (d a b : Fin 32)
  | negate (symm : Bool) (d a : Fin 32)
  | conjugate (symm : Bool) (d a : Fin 32)
  | power (acc : Fin 8) (a : Fin 32)
  | minMax (max : Bool) (d a b : Fin 32)
  | compare (imag : Bool) (rel : Ordering) (p : Fin 4) (a b : Fin 32)
  | accMinMax (max : Bool) (d a b : Fin 8)
  | accCompare (rel : Ordering) (p : Fin 4) (a b : Fin 8)
  | shiftLeft (symm : Bool) (k : Fin 32) (d a : Fin 32)
  | reciprocal (d a : Fin 32)
  | recipSqrt (d a : Fin 32)
  /-- a load is issued (R221) -/
  | load (d : DbLoadReg) (src : DbSrc)
  /-- the oldest load on its way arrives -/
  | arrive
  deriving DecidableEq, Repr

/-- PTP messages (R274, R276). -/
inductive PtpMsg where
  | delayReq | syncOneStep | syncTwoStep | followUp | delayResp | announce | signaling | management | pdelay
  deriving DecidableEq, Repr

/-- How a received PTP message came (R274): its domain, whether over Ethernet, and whether to a multicast address. -/
structure PtpHdr where
  domain : BitVec 8
  ethernet : Bool
  multicast : Bool
  msg : PtpMsg
  seq : BitVec 16
  deriving DecidableEq, Repr

/-- An egress queue: queue q of fronthaul port p, or of Zelic link z (R328). -/
inductive EqId where
  | fh (p : Fin 8) (q : Fin 2048)
  | zl (z : Fin 36) (q : Fin 256)
  deriving DecidableEq, Repr

/-- An egress: port p and sub-port k (k = 0 for an unsplit port), or link z. -/
inductive EgId where
  | fh (p : Fin 8) (k : Fin 4)
  | zl (z : Fin 36)
  deriving DecidableEq, Repr

/-- A fronthaul frame to send (R317, R324): a PTP frame of TD_PTP_PORT index q, or a C-plane or U-plane frame of
transmit stream s for a symbol; a U-plane frame carries n PRBs from startPrb on of the symbol's buffer in RD SRAM
(R211, log 21). -/
inductive FhTx where
  | ptp (q : Fin 32)
  | uplinkC (s : Fin 2048) (frame : Nat) (slot : Fin 20) (sym : Fin 14)
  | downlinkC (s : Fin 2048) (frame : Nat) (slot : Fin 20) (sym : Fin 14)
  | downlinkU (s : Fin 2048) (frame : Nat) (slot : Fin 20) (sym : Fin 14) (buf : PAddr) (startPrb : Fin 273) (n : Fin 274)
  deriving DecidableEq, Repr

/-- A Zelic message as it arrives: its 32-byte header and its data (R290). -/
structure ZlFrame where
  hdr : BitVec 256
  data : List Byte
  deriving DecidableEq, Repr

/-- Who issues a fabric request: a Pilot core acting for VF v or for the module (v = 0), or the Harbourmaster toward
the peer of a slot record, CKPT_PEER where ckpt holds (R293). -/
inductive ZlAgent where
  | core (k : Fin 44) (v : Fin 513)
  | harbour (slot : Fin 16) (ckpt : Bool)
  deriving DecidableEq, Repr

/-- A fabric request that is no copy (R291). -/
inductive ZlOp where
  | load (qaddr : BitVec 48) (len : Fin 257)
  | store (qaddr : BitVec 48) (data : List Byte)
  | atomic (subop : BitVec 4) (qaddr : BitVec 48) (operand cmp : DWord)
  | trigger (index : Fin 1024) (arg : BitVec 384)
  deriving DecidableEq, Repr

/-- What the checks of a slot's weight package found (R140, R141): whether its weights fit, and what the package sets: the
parts of it that are placed in memory (destination, offset in the package, bytes), the sizes of a context, and the bank groups
that hold its weights. -/
structure SlotLoad where
  fits : Bool
  parts : List (PAddr × Nat × Nat)
  scratch : BitVec 30
  extent : BitVec 30
  groups : List (Fin 499)
  specExact : Bool
  deriving DecidableEq, Repr

/-- A tensor assembled for a dump (R449): manifest, entry of the table, and what the package says of it;
data holds the rows and then the scale plane. -/
structure DumpData where
  man : Fin 262144
  entry : Fin 64
  fmt : BitVec 8
  rows : Nat
  rowBytes : Nat
  scaleBytes : Nat
  layer : BitVec 16
  op : BitVec 16
  data : List Byte
  deriving DecidableEq, Repr

/-- What an image's DATA sections define (R400, R421): routines with their BT_RTN_INFO and BT_RTN_LAYOUT words, and the
neural receiver packages.  The spec gives the sections no format. -/
structure ImageInfo where
  rtn : List (Fin 64 × Word × Word) := []
  nrx : List (Fin 256) := []
  deriving DecidableEq, Repr

/-- A margin monitor (R422): droop or slack of a logical die, or the optical power of lane l of link z. -/
inductive MonitorId where
  | droop (d : Fin 10) | slack (d : Fin 10) | optical (z : Fin 36) (l : Fin 4)
  deriving DecidableEq, Repr

/-- What a monitor has recorded: its current value and the least since the last evaluation, signed. -/
structure MonSample where
  mon : MonitorId
  now : BitVec 16
  least : BitVec 16
  deriving DecidableEq, Repr

/-- HBM errors of one stack since the last evaluation (R423). -/
structure HbmErr where
  stack : Fin 8
  corr : Word
  unc : Word
  deriving DecidableEq, Repr

end Sys2Proof.Machine
end

