-- ==== Sys2Proof/Syntax.lean ====
section
/-! DEFINITION.  The commands of the block: one constructor for every row of spec/opcode_table.json, in
the table's order, with the row's operands.  A command is something that reaches the module or one of
its units from outside the model (a register write, a packet, an edge on a pin), or a moment of one of
its engines that the table gives a row.  Values that only the world supplies (a measured power, a
packet's contents, a logit, whether an access had to wait) are operands. -/

namespace Sys2Proof

/-- R-rules are those of the table's rows; the docstring of each meaning cites the rules it follows. -/
inductive Instr where
  /-- RING_TRANSFER_INJECT (R16). -/
  | ringTransferInject (src dst : Machine.Die) (use : Machine.RingUse) (payload : List Byte)
  /-- RING_TRANSFER_DELIVER (R18). -/
  | ringTransferDeliver (src dst : Machine.Die) (cls : Machine.RingClass) (corrected : List (Fin 10))
  /-- BRIDGE_DOWN (R19). -/
  | bridgeDown (p : Fin 10)
  /-- CLOCK_DOMAIN_STOP (R25). -/
  | clockDomainStop (d : Machine.ClkDomain)
  /-- OCXO_STABLE (R26). -/
  | ocxoStable
  /-- ES_CTRL_ENABLE (R70). -/
  | esCtrlEnable (m : Machine.Agent) (g : Fin 84) (on : Bool) (irqCore : BitVec 2)
  /-- ES_CTRL_STOP (R73). -/
  | esCtrlStop (m : Machine.Agent) (g : Fin 84)
  /-- ES_CTRL_UNSTOP (R73). -/
  | esCtrlUnstop (m : Machine.Agent) (g : Fin 84)
  /-- ES_CTRL_ABORT (R73). -/
  | esCtrlAbort (m : Machine.Agent) (a : Machine.EsAbort)
  /-- ES_ABORT_SETTLE (R73). -/
  | esAbortSettle (g : Fin 84)
  /-- ES_CTRL_RESUME (R73). -/
  | esCtrlResume (m : Machine.Agent) (g : Fin 84)
  /-- ES_CTRL_CLR_CNT (R75). -/
  | esCtrlClrCnt (m : Machine.Agent) (g : Fin 84)
  /-- ES_S_PUSH (R71). -/
  | esSPush (m : Machine.Agent) (g : Fin 84)
  /-- ES_P_PUSH (R71). -/
  | esPPush (m : Machine.Agent) (g : Fin 84)
  /-- ES_STAGE_FETCH (R65). -/
  | esStageFetch (g : Fin 84)
  /-- ES_STAGE_DATA_ARRIVE (R65). -/
  | esStageDataArrive (g : Fin 84)
  /-- ES_SHADOW_VALID (R65). -/
  | esShadowValid (g : Fin 84)
  /-- ES_SWAP_BEGIN (R65). -/
  | esSwapBegin (g : Fin 84) (waited : Nat)
  /-- ES_PASS_START (R71). -/
  | esPassStart (g : Fin 84) (waits : Option (Fin 65536))
  /-- ES_OPERAND_ARRIVE (R71). -/
  | esOperandArrive (g : Fin 84) (a : Machine.EsArrival)
  /-- ES_ROW_WRITE (R64). -/
  | esRowWrite (w : Machine.EsStore)
  /-- ES_PASS_DONE (R64). -/
  | esPassDone (g : Fin 84)
  /-- ES_PASS_ERROR (R72). -/
  | esPassError (g : Fin 84)
  /-- ES_CNT_LO_READ (R75). -/
  | esCntLoRead (m : Machine.Agent) (g : Fin 84) (c : Fin 4)
  /-- DL_CTRL_ENABLE (R86). -/
  | dlCtrlEnable (m : Machine.Agent) (n : Fin 4) (on : Bool) (irqCore : BitVec 1)
  /-- DL_CTRL_STOP (R86). -/
  | dlCtrlStop (m : Machine.Agent) (n : Fin 4)
  /-- DL_CTRL_UNSTOP (R86). -/
  | dlCtrlUnstop (m : Machine.Agent) (n : Fin 4)
  /-- DL_CTRL_ABORT (R86). -/
  | dlCtrlAbort (m : Machine.Agent) (n : Fin 4)
  /-- DL_CTRL_RESUME (R86). -/
  | dlCtrlResume (m : Machine.Agent) (n : Fin 4)
  /-- DL_CTRL_CLR_CNT (R86). -/
  | dlCtrlClrCnt (m : Machine.Agent) (n : Fin 4)
  /-- DL_J_PUSH (R86). -/
  | dlJPush (m : Machine.Agent) (n : Fin 4)
  /-- DL_ACT_LOAD (R85). -/
  | dlActLoad (n : Fin 4)
  /-- DL_JOB_START (R87). -/
  | dlJobStart (n : Fin 4) (waited : Nat)
  /-- DL_JOB_DONE (R85). -/
  | dlJobDone (n : Fin 4)
  /-- DL_JOB_ERROR (R87). -/
  | dlJobError (n : Fin 4)
  /-- DL_CNT_LO_READ (R86). -/
  | dlCntLoRead (m : Machine.Agent) (n : Fin 4) (c : Fin 2)
  /-- BANK_ACCESS (R93). -/
  | bankAccess (q : Machine.BankReq) (addr : PAddr) (rival : Option Machine.BankReq) (others : List Machine.BankReq) (flips : DWord) (checkFlips : BitVec 8)
  /-- ECC_WRITEBACK (R110). -/
  | eccWriteback (d : Machine.Die) (bank : Fin 12288) (word : Fin 32768)
  /-- BANK_ATOMIC (R103). -/
  | bankAtomic (q : Machine.BankReq) (addr : PAddr) (opc : BitVec 4) (operand : DWord) (rival : Option Machine.BankReq) (others : List Machine.BankReq) (upset : BitVec 72)
  /-- HBM_ATOMIC (R486). -/
  | hbmAtomic (m : Fin 512) (addr : PAddr) (opc : BitVec 4) (operand : DWord) (upset : Bool)
  /-- BK_CTRL_CLR_ECC (R98). -/
  | bkCtrlClrEcc (m : Machine.Agent) (d : Machine.Die)
  /-- BK_CTRL_CLR_CONF (R98). -/
  | bkCtrlClrConf (m : Machine.Agent) (d : Machine.Die)
  /-- BK_RULE_WRITE (R100). -/
  | bkRuleWrite (m : Machine.Agent) (d : Machine.Die) (i : Fin 192) (v : Word)
  /-- BK_DR_ENABLE_WRITE (R115). -/
  | bkDrEnableWrite (m : Machine.Agent) (d : Machine.Die) (on : Bool)
  /-- DREDGE_REGION_START (R114). -/
  | dredgeRegionStart (d : Machine.Die)
  /-- DREDGE_COPY_DONE (R114). -/
  | dredgeCopyDone (d : Machine.Die)
  /-- DREDGE_MARCH_DONE (R114). -/
  | dredgeMarchDone (d : Machine.Die) (fails : List Machine.MarchFail)
  /-- DREDGE_REGION_DONE (R114). -/
  | dredgeRegionDone (d : Machine.Die)
  /-- DESC_GEMM (R120). -/
  | descGemm (d : Machine.Die) (vf : Fin 513) (slot : Fin 16) (desc : BitVec 512) (r90 : Bool)
  /-- DESC_GEMM_BATCHED (R120). -/
  | descGemmBatched (d : Machine.Die) (vf : Fin 513) (slot : Fin 16) (desc : BitVec 512)
  /-- DESC_CONV1D (R120). -/
  | descConv1d (d : Machine.Die) (vf : Fin 513) (slot : Fin 16) (desc : BitVec 512)
  /-- DESC_CONVERT (R487). -/
  | descConvert (d : Machine.Die) (vf : Fin 513) (slot : Fin 16) (desc : BitVec 512)
  /-- DESC_GATHER_GEMM (R120). -/
  | descGatherGemm (d : Machine.Die) (vf : Fin 513) (slot : Fin 16) (desc : BitVec 512)
  /-- DESC_ROUTINE (R120). -/
  | descRoutine (d : Machine.Die) (vf : Fin 513) (slot : Fin 16) (desc : BitVec 512)
  /-- DESC_BAD_OPCODE (R123). -/
  | descBadOpcode (d : Machine.Die) (vf : Fin 513) (slot : Fin 16) (desc : BitVec 512)
  /-- SPAN_SCAN (R129). -/
  | spanScan (d : Machine.Die) (c : Fin 8) (block : Nat)
  /-- TILE_CLAIM (R131). -/
  | tileClaim (d : Machine.Die) (c : Fin 8) (g : Fin 84)
  /-- OPERAND_STAGE_COPY (R118). -/
  | operandStageCopy (d : Machine.Die) (c : Fin 8)
  /-- TILE_DONE (R133). -/
  | tileDone (d : Machine.Die) (c : Fin 8) (g : Fin 84)
  /-- TILE_HANDBACK (R132). -/
  | tileHandback (d : Machine.Die) (c : Fin 8) (g : Fin 84) (next : BitVec 16)
  /-- HANDBACK_TAKE (R132). -/
  | handbackTake (d : Machine.Die) (c : Fin 8) (k : Fin 16) (g : Fin 84)
  /-- DESCRIPTOR_ABORT (R123). -/
  | descriptorAbort (d : Machine.Die) (c : Fin 8)
  /-- SUBMIT (R151). -/
  | submit (f : Fin 513) (sq : Fin 8) (entry : BitVec 512)
  /-- PAUSE (R146). -/
  | pause (f : Fin 513) (sq : Fin 8) (entry : BitVec 512)
  /-- RESUME (R161). -/
  | resume (f : Fin 513) (sq : Fin 8) (entry : BitVec 512)
  /-- CANCEL (R146). -/
  | cancel (f : Fin 513) (sq : Fin 8) (entry : BitVec 512)
  /-- TOUCH (R160). -/
  | touch (f : Fin 513) (sq : Fin 8) (entry : BitVec 512)
  /-- SQ_BAD_OPCODE (R142). -/
  | sqBadOpcode (f : Fin 513) (sq : Fin 8) (entry : BitVec 512)
  /-- PROMPT_READ_DONE (R151). -/
  | promptReadDone (i : Fin 262144)
  /-- PREFILL_PLACE (R152). -/
  | prefillPlace (i : Fin 262144) (peer : List Byte)
  /-- PREFILL_DONE (R152). -/
  | prefillDone (rid : BitVec 24) (logits : List Word) (dumps : List Machine.DumpData)
  /-- DECODE_STEP_BOUNDARY (R153). -/
  | decodeStepBoundary (dumps : List Machine.DumpData)
  /-- DECODE_STEP_START (R158). -/
  | decodeStepStart
  /-- BERTH_SLICE_ARRIVE (R154). -/
  | berthSliceArrive (rid : BitVec 24) (berth : Fin 2048) (slice : Fin 4) (layer : Fin 1024) (data : List Byte)
  /-- PULL_SOURCE_ERROR (R155). -/
  | pullSourceError (rid : BitVec 24) (peer : Bool)
  /-- MIRROR_COPY_DONE (R157). -/
  | mirrorCopyDone (rid : BitVec 24) (berth : Fin 2048)
  /-- CHECKPOINT_COMMIT (R157). -/
  | checkpointCommit (rid : BitVec 24)
  /-- CHECKPOINT_FAIL (R158). -/
  | checkpointFail (rid : BitVec 24)
  /-- PAUSE_COMPLETE (R159). -/
  | pauseComplete (i : Fin 262144)
  /-- EXPIRY_SWEEP (R160). -/
  | expirySweep
  /-- MANIFEST_QUIET_END (R138). -/
  | manifestQuietEnd (i : Fin 262144)
  /-- BT_REBUILD_START (R162). -/
  | btRebuildStart
  /-- HM_BT_START (R164). -/
  | hmBtStart (m : Machine.Agent)
  /-- BT_REBUILD_PASS_END (R162). -/
  | btRebuildPassEnd
  /-- BT_FLIP (R162). -/
  | btFlip
  /-- BT_REBUILD_RESTART (R162). -/
  | btRebuildRestart
  /-- HM_SLOT_LOAD (R141). -/
  | hmSlotLoad (m : Machine.Agent) (k : Fin 16)
  /-- SLOT_LOAD_DONE (R141). -/
  | slotLoadDone (k : Fin 16) (r : Machine.SlotLoad)
  /-- HM_SLOT_UNLOAD (R141). -/
  | hmSlotUnload (m : Machine.Agent) (k : Fin 16)
  /-- HM_SLOT_UNLOAD_FORCE (R141). -/
  | hmSlotUnloadForce (m : Machine.Agent) (k : Fin 16)
  /-- SLOT_DRAIN_DONE (R141). -/
  | slotDrainDone (k : Fin 16)
  /-- HM_CKPT_WRITE (R164). -/
  | hmCkptWrite (m : Machine.Agent) (v : Word)
  /-- HM_QUIET_WRITE (R164). -/
  | hmQuietWrite (m : Machine.Agent) (v : Word)
  /-- RAKE_SELECT (R168). -/
  | rakeSelect (rid : BitVec 24) (logits : List Word)
  /-- SIEVE_SELECT (R175). -/
  | sieveSelect (rid : BitVec 24) (logits : List Word)
  /-- SPEC_DRAFT (R179). -/
  | specDraft (rid : BitVec 24) (logits : List (List Word))
  /-- SPEC_VERIFY (R179). -/
  | specVerify (rid : BitVec 24) (logits : List (List Word))
  /-- SIEVE_IMAGE_LOAD (R177). -/
  | sieveImageLoad (i : Fin 262144)
  /-- SV_STORE_START (R182). -/
  | svStoreStart (m : Machine.Agent)
  /-- SV_REBUILD_START (R177). -/
  | svRebuildStart
  /-- SV_REBUILD_PASS_END (R177). -/
  | svRebuildPassEnd
  /-- SV_STORE_FLIP (R177). -/
  | svStoreFlip
  /-- SV_REBUILD_RESTART (R177). -/
  | svRebuildRestart
  /-- QUANTUM_BOUNDARY (R187). -/
  | quantumBoundary
  /-- CONTEXT_STOP (R190). -/
  | contextStop (d : Machine.Die) (c : Fin 8)
  /-- CONTEXT_STOP_DONE (R190). -/
  | contextStopDone (d : Machine.Die) (c : Fin 8) (nexts : List (BitVec 16))
  /-- CONTEXT_SAVE_BEGIN (R192). -/
  | contextSaveBegin (n : Fin 4) (c : Fin 8)
  /-- CONTEXT_SAVE_END (R192). -/
  | contextSaveEnd (n : Fin 4) (c : Fin 8)
  /-- CONTEXT_RESTORE_BEGIN (R193). -/
  | contextRestoreBegin (k : Fin 64)
  /-- CONTEXT_RESTORE_END (R192). -/
  | contextRestoreEnd (n : Fin 4) (c : Fin 8)
  /-- CX_QUANTUM_WRITE (R203). -/
  | cxQuantumWrite (m : Machine.Agent) (v : Word)
  /-- CX_MARGIN_WRITE (R203). -/
  | cxMarginWrite (m : Machine.Agent) (v : Word)
  /-- CX_VF_WRITE (R203). -/
  | cxVfWrite (m : Machine.Agent) (f : Fin 513) (v : Word)
  /-- TT_ENTRY_SUBMIT (R196). -/
  | ttEntrySubmit (m : Machine.Agent) (n : Fin 4) (i : Fin 64) (v : Word)
  /-- TT_ENTRY_CANCEL (R202). -/
  | ttEntryCancel (m : Machine.Agent) (n : Fin 4) (i : Fin 64)
  /-- TT_STOP_DUE (R198). -/
  | ttStopDue (n : Fin 4)
  /-- TT_RELEASE_DUE (R198). -/
  | ttReleaseDue (n : Fin 4) (i : Fin 64)
  /-- TT_READY (R199). -/
  | ttReady (n : Fin 4) (i : Fin 64)
  /-- TT_START (R199). -/
  | ttStart (n : Fin 4) (i : Fin 64)
  /-- TT_LATE_ARRAY_FREE (R199). -/
  | ttLateArrayFree (n : Fin 4) (i : Fin 64)
  /-- TT_END (R201). -/
  | ttEnd (n : Fin 4) (i : Fin 64)
  /-- TT_RING_DOORBELL (R200). -/
  | ttRingDoorbell (m : Machine.Agent) (n : Fin 4) (v : Word)
  /-- FH_CPLANE_RX (R208). -/
  | fhCplaneRx (port : Fin 8) (sub : Option (Fin 4)) (h : Machine.FhHdr) (eaxc : BitVec 16) (sec : Machine.FhSection) (ext : Bool)
  /-- FH_UPLANE_RX (R209). -/
  | fhUplaneRx (port : Fin 8) (sub : Option (Fin 4)) (h : Machine.FhHdr) (eaxc : BitVec 16) (comp : Machine.FhComp) (width : Option (Fin 17)) (frame : Nat) (slot : Fin 20) (sym : Fin 14) (arrival : Nat) (startPrb : Fin 273) (prbs : List Machine.PrbData) (buf : PAddr)
  /-- AGC_SYMBOL_UPDATE (R213). -/
  | agcSymbolUpdate (i : Fin 2048) (frame : Nat) (slot : Fin 20) (sym : Fin 14) (side : PAddr)
  /-- AGC_FREEZE_END (R215). -/
  | agcFreezeEnd (c : Fin 512)
  /-- FH_AGC_REL (R215). -/
  | fhAgcRel (m : Machine.Agent) (c : Fin 512)
  /-- FH_AGC_CFG_WRITE (R241). -/
  | fhAgcCfgWrite (m : Machine.Agent) (v : Word)
  /-- FH_PORT_CFG_WRITE (R207). -/
  | fhPortCfgWrite (m : Machine.Agent) (p : Fin 8) (v : Word)
  /-- PRACH_OCCASION (R216). -/
  | prachOccasion (c : Fin 512) (frame : Nat) (slot : Fin 20) (core : Fin 4) (reps : List Machine.PrachRep)
  /-- FFT_JOB_QUEUE (R219). -/
  | fftJobQueue (e : Fin 8) (src dst : PAddr) (size : Fin 4097) (mode : Machine.FftMode)
  /-- FFT_JOB_DONE (R219). -/
  | fftJobDone (e : Fin 8) (radices : List (Fin 6))
  /-- DIBBER_SYM_IRQ (R222). -/
  | dibberSymIrq (c : Fin 48)
  /-- DIBBER_SLOT_IRQ (R222). -/
  | dibberSlotIrq (c : Fin 48) (sym : Bool)
  /-- DIBBER_RETI (R222). -/
  | dibberReti (c : Fin 48)
  /-- DIBBER_CMAC (R53). -/
  | dibberCmac (c : Fin 48) (acc : Fin 8) (a b : Fin 32) (conj neg : Bool) (lanes : BitVec 32)
  /-- DIBBER_STORE (R54). -/
  | dibberStore (c : Fin 48) (acc : Fin 8) (sh : Fin 32) (rnd : Machine.StoreRound) (wide symm : Bool) (dst : Machine.DbDst) (lanes : BitVec 32)
  /-- DIBBER_LANE_OP (R223). -/
  | dibberLaneOp (c : Fin 48) (op : Machine.LaneOp) (lanes : BitVec 32)
  /-- DB_CTRL_RESET (R224). -/
  | dbCtrlReset (m : Machine.Agent) (c : Fin 48) (v : Word)
  /-- DB_CTRL_RUN (R224). -/
  | dbCtrlRun (m : Machine.Agent) (c : Fin 48) (v : Word)
  /-- SLOT_CONFIG_RX (R225). -/
  | slotConfigRx (c : Fin 512) (frame : Nat) (slot : Fin 20) (dirs : Machine.SlotDirs) (at_ : PAddr)
  /-- UL_CONFIG_LATE (R229). -/
  | ulConfigLate (c : Fin 512) (frame : Nat) (slot : Fin 20)
  /-- DL_CONFIG_LATE (R229). -/
  | dlConfigLate (c : Fin 512) (frame : Nat) (slot : Fin 20)
  /-- NRX_COMPLETION_WORD (R231). -/
  | nrxCompletionWord (src dst word : PAddr) (n : Fin 65536) (alloc : Machine.LlrAlloc) (passes : List (Fin 84 × BitVec 16)) (bookings : List (Fin 4 × Fin 64))
  /-- FH_PLAN_LOAD (R237). -/
  | fhPlanLoad (m : Machine.Agent)
  /-- FH_PLAN_UNLOAD (R239). -/
  | fhPlanUnload (m : Machine.Agent)
  /-- FH_PLAN_CANCEL (R239). -/
  | fhPlanCancel (m : Machine.Agent)
  /-- FH_PLAN_ACTIVATE (R239). -/
  | fhPlanActivate
  /-- CELL_SHED (R240). -/
  | cellShed
  /-- DS_SQ_DOORBELL (R243). -/
  | dsSqDoorbell (m : Machine.Agent) (c : Fin 4) (tail : BitVec 16)
  /-- DS_CQ_HEAD_WRITE (R243). -/
  | dsCqHeadWrite (m : Machine.Agent) (c : Fin 4) (head : BitVec 16)
  /-- DS_JOB_COPY (R245). -/
  | dsJobCopy (c : Fin 4)
  /-- DS_LDPC_DEC (R250). -/
  | dsLdpcDec (c : Fin 4) (i : Fin 256)
  /-- DS_LDPC_ENC (R248). -/
  | dsLdpcEnc (c : Fin 4) (i : Fin 256)
  /-- DS_POLAR_DEC (R253). -/
  | dsPolarDec (c : Fin 4) (i : Fin 256)
  /-- DS_POLAR_ENC (R252). -/
  | dsPolarEnc (c : Fin 4) (i : Fin 256)
  /-- DS_TB_ENC (R257). -/
  | dsTbEnc (c : Fin 4) (i : Fin 256)
  /-- DS_TB_DEC (R256). -/
  | dsTbDec (c : Fin 4) (i : Fin 256)
  /-- DS_NSEL_READ (R247). -/
  | dsNselRead (c : Fin 4) (i : Fin 256)
  /-- DS_JOB_LATE (R246). -/
  | dsJobLate (c : Fin 4) (i : Fin 256)
  /-- DS_CTRL_ABORT (R262). -/
  | dsCtrlAbort (m : Machine.Agent) (c : Fin 4) (v : Word)
  /-- DS_CTRL_ENABLE (R263). -/
  | dsCtrlEnable (m : Machine.Agent) (c : Fin 4) (v : Word)
  /-- DS_HARQ_FREE (R262). -/
  | dsHarqFree (m : Machine.Agent) (h : BitVec 14)
  /-- DS_HARQ_PREFETCH (R263). -/
  | dsHarqPrefetch (m : Machine.Agent) (h : BitVec 14)
  /-- HARQ_SPILL (R260). -/
  | harqSpill
  /-- HARQ_SPILL_DONE (R260). -/
  | harqSpillDone (h : BitVec 14)
  /-- TD_RAW_LO_READ (R267). -/
  | tdRawLoRead (m : Machine.Agent)
  /-- TD_ADJ_RATE (R268). -/
  | tdAdjRate (m : Machine.Agent)
  /-- TD_ADJ_STEP (R268). -/
  | tdAdjStep (m : Machine.Agent)
  /-- TD_ADJ_SET (R268). -/
  | tdAdjSet (m : Machine.Agent)
  /-- TD_ADJ_APPLY (R268). -/
  | tdAdjApply
  /-- TD_SRC_WRITE (R277). -/
  | tdSrcWrite (m : Machine.Agent) (v : Word)
  /-- TD_FRAME_OFS_WRITE (R280). -/
  | tdFrameOfsWrite (m : Machine.Agent) (v : Word)
  /-- PTP_RX (R275). -/
  | ptpRx (q : Fin 32) (h : Machine.PtpHdr) (phase : BitVec 6)
  /-- PTP_SYNC_TX (R275). -/
  | ptpSyncTx (q : Fin 32) (phase : BitVec 6) (seq : BitVec 16) (corr : Int)
  /-- PTP_TC_FORWARD (R276). -/
  | ptpTcForward (q : Fin 32) (msg : Machine.PtpMsg) (rIn : BitVec 70) (phase : BitVec 6) (key : BitVec 104) (seq : BitVec 16) (corr : Int)
  /-- TC_ENTRY_EXPIRE (R276). -/
  | tcEntryExpire (p : Fin 8) (i : Fin 64)
  /-- ZL_TIME_FLIT (R277). -/
  | zlTimeFlit (z : Fin 36) (t1 t2 t3 t4 : BitVec 70)
  /-- SERVO_SOURCE_LOST (R278). -/
  | servoSourceLost (announce : Fin 8)
  /-- SERVO_SOURCE_RETURN (R278). -/
  | servoSourceReturn (step : Bool) (v : BitVec 96) (rate : Word)
  /-- STROBE_FIRE (R279). -/
  | strobeFire (i : Fin 64)
  /-- TD_STB_CFG_WRITE (R280). -/
  | tdStbCfgWrite (m : Machine.Agent) (i : Fin 64) (v : Word)
  /-- PPS_OUT_PULSE (R281). -/
  | ppsOutPulse (j : Fin 2)
  /-- TD_PPS_CFG_WRITE (R281). -/
  | tdPpsCfgWrite (m : Machine.Agent) (j : Fin 2) (v : Word)
  /-- CAPTURE_EDGE (R282). -/
  | captureEdge (i : Fin 6) (falling : Bool) (phase : BitVec 6)
  /-- BARRIER_ARM (R283). -/
  | barrierArm (m : Machine.Agent) (v : Word)
  /-- BARRIER_FIRE (R283). -/
  | barrierFire
  /-- ZL_LINK_CTRL_WRITE (R288). -/
  | zlLinkCtrlWrite (m : Machine.Agent) (z : Fin 36) (v : Word)
  /-- LINK_TRAINED (R288). -/
  | linkTrained (z : Fin 36) (peerModule : BitVec 8) (peerLink : BitVec 8) (delay : BitVec 16)
  /-- LINK_LOSS (R288). -/
  | linkLoss (z : Fin 36)
  /-- LINK_FLIT_REPLAY (R287). -/
  | linkFlitReplay (z : Fin 36) (ok : Bool)
  /-- LINK_REPLAY_LIMIT (R287). -/
  | linkReplayLimit (z : Fin 36)
  /-- ZL_REQUEST_ISSUE (R293). -/
  | zlRequestIssue (i : Machine.ZlAgent) (cls : Fin 4) (dst : BitVec 8) (r : Machine.ZlOp)
  /-- ZL_FORWARD (R289). -/
  | zlForward (z : Fin 36) (f : Machine.ZlFrame)
  /-- ZL_LOAD_REQ (R295). -/
  | zlLoadReq (via : Option (Fin 36)) (f : Machine.ZlFrame)
  /-- ZL_LOAD_RSP (R291). -/
  | zlLoadRsp (via : Option (Fin 36)) (f : Machine.ZlFrame)
  /-- ZL_STORE (R297). -/
  | zlStore (via : Option (Fin 36)) (f : Machine.ZlFrame) (lost : List (Fin 513))
  /-- ZL_STORE_ACK (R291). -/
  | zlStoreAck (via : Option (Fin 36)) (f : Machine.ZlFrame)
  /-- ZL_ATOMIC_REQ (R298). -/
  | zlAtomicReq (via : Option (Fin 36)) (f : Machine.ZlFrame)
  /-- ZL_ATOMIC_RSP (R308). -/
  | zlAtomicRsp (via : Option (Fin 36)) (f : Machine.ZlFrame)
  /-- ZL_PUT_DATA (R300). -/
  | zlPutData (via : Option (Fin 36)) (f : Machine.ZlFrame) (lost : List (Fin 513))
  /-- ZL_PUT_ACK (R291). -/
  | zlPutAck (via : Option (Fin 36)) (f : Machine.ZlFrame)
  /-- ZL_GET_REQ (R291). -/
  | zlGetReq (via : Option (Fin 36)) (f : Machine.ZlFrame)
  /-- ZL_GET_DATA (R300). -/
  | zlGetData (via : Option (Fin 36)) (f : Machine.ZlFrame)
  /-- ZL_TRIGGER (R301). -/
  | zlTrigger (via : Option (Fin 36)) (f : Machine.ZlFrame)
  /-- ZL_TRIG_ACK (R291). -/
  | zlTrigAck (via : Option (Fin 36)) (f : Machine.ZlFrame)
  /-- ZL_BAD_TYPE (R291). -/
  | zlBadType (z : Fin 36) (f : Machine.ZlFrame)
  /-- ZL_COPY_PUT (R299). -/
  | zlCopyPut (i : Machine.ZlAgent) (cls : Fin 4) (dst : BitVec 8) (src : PAddr) (q : BitVec 48) (len : Fin 4294967297) (index : Fin 4096)
  /-- ZL_COPY_GET (R299). -/
  | zlCopyGet (i : Machine.ZlAgent) (cls : Fin 4) (dst : BitVec 8) (dest : PAddr) (q : BitVec 48) (len : Fin 4294967297) (index : Fin 4096)
  /-- ZL_FENCE (R303). -/
  | zlFence (i : Machine.ZlAgent) (classes : BitVec 4)
  /-- ZL_REQUEST_TIMEOUT (R305). -/
  | zlRequestTimeout (tag : Fin 131072)
  /-- ZL_ATOMIC_RETRY (R308). -/
  | zlAtomicRetry (tag : Fin 131072)
  /-- ZL_ATOMIC_FINAL (R308). -/
  | zlAtomicFinal (tag : Fin 131072)
  /-- ZL_RC_EXPIRE (R308). -/
  | zlRcExpire (z : Fin 36)
  /-- ZL_TAG_RELEASE (R307). -/
  | zlTagRelease (tag : Fin 131072)
  /-- LOCK_FLUSH (R311). -/
  | lockFlush (i : Fin 65536) (fence : Bool)
  /-- ZL_QT_INV (R296). -/
  | zlQtInv (m : Machine.Agent) (v : Word)
  /-- ZL_QT_INV_DONE (R296). -/
  | zlQtInvDone
  /-- ZL_QT_SWEEP (R296). -/
  | zlQtSweep
  /-- ZL_ENABLE (R309). -/
  | zlEnable (m : Machine.Agent) (v : Word)
  /-- ZL_BUSY_WINDOW_END (R309). -/
  | zlBusyWindowEnd
  /-- ZL_TIMEOUT_WRITE (R315). -/
  | zlTimeoutWrite (m : Machine.Agent) (v : Word)
  /-- FH_TX_ENQUEUE (R317). -/
  | fhTxEnqueue (f : Machine.FhTx) (bytes : List Byte)
  /-- ZL_TX_ENQUEUE (R318). -/
  | zlTxEnqueue (i : Fin 65536)
  /-- FH_TX_RELEASE (R324). -/
  | fhTxRelease (p : Fin 8) (q : Fin 2048)
  /-- FH_TX_DEADLINE (R324). -/
  | fhTxDeadline (p : Fin 8) (q : Fin 2048) (i : Fin 16384)
  /-- EGRESS_SELECT (R321). -/
  | egressSelect (e : Machine.EgId)
  /-- EGRESS_TX_END (R323). -/
  | egressTxEnd (e : Machine.EgId)
  /-- EGRESS_SAMPLE (R325). -/
  | egressSample (q : Machine.EqId)
  /-- EQ_CFG_WRITE (R322). -/
  | eqCfgWrite (m : Machine.Agent) (q : Machine.EqId) (v : Word)
  /-- EQ_RATE_WRITE (R323). -/
  | eqRateWrite (m : Machine.Agent) (q : Machine.EqId) (v : Word)
  /-- EQ_HICRED_WRITE (R323). -/
  | eqHicredWrite (m : Machine.Agent) (q : Machine.EqId) (v : Word)
  /-- PCIE_LINK_TRAINED (R348). -/
  | pcieLinkTrained (x16 : Bool) (gt64 : Bool) (flit : Bool)
  /-- PCIE_LINK_DOWN (R347). -/
  | pcieLinkDown
  /-- PERST_ASSERT (R478). -/
  | perstAssert
  /-- PF_FLR (R347). -/
  | pfFlr
  /-- VF_FLR (R346). -/
  | vfFlr (v : Fin 512)
  /-- VF_ENABLE_CLEAR (R346). -/
  | vfEnableClear
  /-- VF_FLR_COMPLETE (R346). -/
  | vfFlrComplete (v : Fin 512)
  /-- BAR0_BAD_ACCESS (R331). -/
  | bar0BadAccess (f : Fin 513) (write : Bool)
  /-- BAR2_READ (R332). -/
  | bar2Read (o : BitVec 36) (n : Fin 4097)
  /-- BAR2_WRITE (R332). -/
  | bar2Write (o : BitVec 36) (data : List Byte) (lost : List PAddr)
  /-- SQ_TAIL_DOORBELL (R336). -/
  | sqTailDoorbell (f : Fin 513) (q : Fin 8) (tail : BitVec 16)
  /-- SQ_ENTRY_FETCH (R336). -/
  | sqEntryFetch (f : Fin 513) (q : Fin 8) (n : Fin 4097)
  /-- CQ_HEAD_WRITE (R337). -/
  | cqHeadWrite (f : Fin 513) (q : Fin 8) (head : BitVec 16)
  /-- CQ_MOD_TIMER (R338). -/
  | cqModTimer (f : Fin 513) (q : Fin 8)
  /-- QUEUE_ENABLE (R334). -/
  | queueEnable (m : Machine.Agent) (f : Fin 513) (i : Fin 8) (cq : Bool) (v : Word)
  /-- QUEUE_DISABLE (R339). -/
  | queueDisable (m : Machine.Agent) (f : Fin 513) (i : Fin 8) (cq : Bool)
  /-- CUSTOMS_TRANSLATE (R342). -/
  | customsTranslate (fn : Fin 513) (pasid : BitVec 20) (addr : DWord) (write : Bool)
  /-- CUSTOMS_WALK_READ_DONE (R343). -/
  | customsWalkReadDone (i : Fin 1024) (ok : Bool)
  /-- CU_INV_RANGE (R344). -/
  | cuInvRange (m : Machine.Agent) (fn : Fin 1024) (order : BitVec 6)
  /-- CU_INV_INSTANCE (R344). -/
  | cuInvInstance (m : Machine.Agent) (fn : Fin 1024)
  /-- CU_INV_FUNCTION (R344). -/
  | cuInvFunction (m : Machine.Agent) (fn : Fin 1024)
  /-- CU_INV_ALL (R344). -/
  | cuInvAll (m : Machine.Agent)
  /-- CU_INV_DONE (R344). -/
  | cuInvDone
  /-- CU_CACHE_SWEEP (R345). -/
  | cuCacheSweep
  /-- CU_CTRL_WRITE (R353). -/
  | cuCtrlWrite (m : Machine.Agent) (v : Word)
  /-- FATAL_ERROR (R349). -/
  | fatalError (cause : BitVec 8) (die : Option Machine.Die)
  /-- HM_DET_WRITE (R354). -/
  | hmDetWrite (m : Machine.Agent) (mode : Bool)
  /-- DET_PROPAGATED (R354). -/
  | detPropagated
  /-- HM_PROV_CFG_WRITE (R366). -/
  | hmProvCfgWrite (m : Machine.Agent) (f : Fin 513) (v : Word)
  /-- ISLAND_PF_REQ (R367). -/
  | islandPfReq (m : Machine.Agent) (i : Fin 499) (req : Fin 4)
  /-- ISLAND_FW_REQ (R367). -/
  | islandFwReq (m : Machine.Agent) (i : Fin 499) (req : Fin 4)
  /-- ISLAND_ENTRY_BEGIN (R370). -/
  | islandEntryBegin (i : Fin 499)
  /-- ISLAND_ENTRY_DONE (R371). -/
  | islandEntryDone (i : Fin 499)
  /-- ISLAND_EXIT_BEGIN (R372). -/
  | islandExitBegin (i : Fin 499)
  /-- ISLAND_EXIT_DONE (R371). -/
  | islandExitDone (i : Fin 499)
  /-- ISLAND_RELEASE (R373). -/
  | islandRelease (m : Machine.Agent) (i : Fin 499)
  /-- ISLAND_SHORT (R374). -/
  | islandShort (i : Fin 499)
  /-- SLUICE_TICK (R379). -/
  | sluiceTick (mw : BitVec 24)
  /-- OPERATING_POINT_CHANGE (R375). -/
  | operatingPointChange (k : Fin 8)
  /-- INPUT_LIMIT_EMERGENCY (R381). -/
  | inputLimitEmergency
  /-- EMERGENCY_CLEAR (R381). -/
  | emergencyClear
  /-- THERMAL_TICK (R383). -/
  | thermalTick (temps : List (BitVec 16))
  /-- THERMAL_TRIP (R384). -/
  | thermalTrip (d : Machine.Die)
  /-- BOOST_HOUR (R385). -/
  | boostHour
  /-- SITE_PWR_CHANGE (R387). -/
  | sitePwrChange (v : Fin 4)
  /-- THROTTLE_ASSERT (R389). -/
  | throttleAssert (lowNs : Word)
  /-- THROTTLE_RELEASE (R389). -/
  | throttleRelease
  /-- POWER_ON (R392). -/
  | powerOn
  /-- BT_RESET_WARM (R392). -/
  | btResetWarm (m : Machine.Agent)
  /-- BT_RESET_COLD (R392). -/
  | btResetCold (m : Machine.Agent)
  /-- ROM_START (R394). -/
  | romStart (strapLow : Bool)
  /-- CONFIG_RECORD_DONE (R398). -/
  | configRecordDone
  /-- ROM_BOOT (R401). -/
  | romBoot (m : Machine.Agent)
  /-- ROM_BOOT_DONE (R401). -/
  | romBootDone (info : Machine.ImageInfo)
  /-- ROM_RECORD (R406). -/
  | romRecord (m : Machine.Agent)
  /-- ROM_RECORD_DONE (R406). -/
  | romRecordDone (flashOk : Bool)
  /-- ROM_EXIT (R406). -/
  | romExit (m : Machine.Agent)
  /-- BOOT_OK_WRITE (R404). -/
  | bootOkWrite (m : Machine.Agent)
  /-- BOOT_WATCHDOG (R403). -/
  | bootWatchdog
  /-- SALVAGE_REQ_WRITE (R405). -/
  | salvageReqWrite (m : Machine.Agent)
  /-- UPD_STAGE (R407). -/
  | updStage (m : Machine.Agent)
  /-- UPD_STAGE_DONE (R407). -/
  | updStageDone (info : Machine.ImageInfo)
  /-- UPD_DISCARD (R407). -/
  | updDiscard (m : Machine.Agent)
  /-- UPD_ARM (R408). -/
  | updArm (m : Machine.Agent)
  /-- UPD_DISARM (R408). -/
  | updDisarm (m : Machine.Agent)
  /-- UPD_SWITCH (R409). -/
  | updSwitch
  /-- HELM_GIVE (R413). -/
  | helmGive (m : Machine.Agent) (epoch : Word)
  /-- UPD_ABANDON (R410). -/
  | updAbandon
  /-- HELM_BEAT (R414). -/
  | helmBeat (m : Machine.Agent) (epoch : Word)
  /-- HELM_BEAT_TIMEOUT (R414). -/
  | helmBeatTimeout
  /-- LC_REQUEST (R416). -/
  | lcRequest (m : Machine.Agent) (req : BitVec 4)
  /-- LC_EXIT_DEBUG (R416). -/
  | lcExitDebug (m : Machine.Agent)
  /-- TAMPER_EVENT (R417). -/
  | tamperEvent (src : Fin 4)
  /-- MARGIN_EVAL (R423). -/
  | marginEval (mons : List Machine.MonSample) (hbm : List Machine.HbmErr)
  /-- MARGIN_MIN_RESET (R437). -/
  | marginMinReset (m : Machine.Agent) (r : Machine.MonitorId)
  /-- HM_ADOPT (R427). -/
  | hmAdopt (m : Machine.Agent) (v : Word)
  /-- HM_ADOPT_DONE (R427). -/
  | hmAdoptDone
  /-- STBY_ARM (R429). -/
  | stbyArm (m : Machine.Agent) (v : Word)
  /-- STBY_DISARM (R439). -/
  | stbyDisarm (m : Machine.Agent) (v : Word)
  /-- HEARTBEAT_SEND (R430). -/
  | heartbeatSend (t : BitVec 64)
  /-- STANDBY_CHECK (R431). -/
  | standbyCheck (w : Fin 4) (t : BitVec 64)
  /-- OBS_SAMPLE (R443). -/
  | obsSample (u : Fin 132) (pc : BitVec 18) (stall : Fin 9) (layer op : BitVec 16) (fn : BitVec 10)
  /-- HM_TRC_RD_WRITE (R446). -/
  | hmTrcRdWrite (m : Machine.Agent) (v : Word)
  /-- HM_TRC_CFG_WRITE (R455). -/
  | hmTrcCfgWrite (m : Machine.Agent) (v : Word)
  /-- GS_ARM (R450). -/
  | gsArm (m : Machine.Agent) (v : Word)
  /-- GS_FIRE (R450). -/
  | gsFire
  /-- GS_CAPTURE_CLOSE (R452). -/
  | gsCaptureClose
  /-- GS_RELEASE (R453). -/
  | gsRelease (m : Machine.Agent)
  /-- SMB_STATUS (R473). -/
  | smbStatus (inlet outlet : BitVec 16)
  /-- SMB_MODULE (R473). -/
  | smbModule
  /-- SMB_DIE_SEL (R473). -/
  | smbDieSel (d : BitVec 8)
  /-- SMB_DIE_ID (R473). -/
  | smbDieId
  /-- SMB_FW_DIGEST (R473). -/
  | smbFwDigest
  /-- SMB_STBY_DIGEST (R473). -/
  | smbStbyDigest
  /-- SMB_MARGIN (R473). -/
  | smbMargin
  /-- SMB_WARM_RESET (R473). -/
  | smbWarmReset
  /-- SMB_COLD_RESET (R473). -/
  | smbColdReset
  /-- SMB_INVALID_COMMAND (R473). -/
  | smbInvalidCommand (code : BitVec 8) (data : List Byte)
  /-- INPUT_DIP (R476). -/
  | inputDip
  /-- INPUT_INVALID (R479). -/
  | inputInvalid
  /-- INPUT_OVERVOLTAGE (R475). -/
  | inputOvervoltage
  /-- REGISTER_WRITE (R8). -/
  | registerWrite (m : Machine.Agent) (o : BitVec 28) (v : Word)
  /-- TIDE_PLL_LOCK (R394). -/
  | tidePllLock
  /-- PERST_DEASSERT (R478). -/
  | perstDeassert
  /-- PCI_PM_STATE_WRITE (R329). -/
  | pciPmStateWrite (f : Fin 513) (d3 : Bool)
  /-- VF_ENABLE_SET (R348). -/
  | vfEnableSet
  /-- LID_CLOSE (R417). -/
  | lidClose
  /-- UART_RX (R469). -/
  | uartRx (c : Byte)
  /-- FH_RX_WINDOW_CLOSE (R209). -/
  | fhRxWindowClose (i : Fin 2048) (frame : Nat) (slot : Fin 20) (sym : Fin 14) (buf : PAddr)
  deriving DecidableEq, Repr

end Sys2Proof
end

