-- ==== Sys2Proof/Config.lean ====
section
/-! DEFINITION.  What the spec leaves open and what manufacture fixes: constants with no body, so no
proof can see a value of them. -/

namespace Sys2Proof.Config

/-- A free value: the n-th value the spec leaves open (log 6).  State.free counts them. -/
opaque freeValue : Nat → Nat

/-! Tables of 3GPP TS 38.211 that R216 cites and the spec does not contain, and what the spec leaves open of the PRACH
detector (log 18). -/

/-- The row of prach-ConfigurationIndex, by numerology, whether the cell is FDD, and the index: the preamble format as the
detector numbers it (PrachFormat.ofCode), and the occasions in 160 ms; none where the index is reserved. -/
opaque prachConfig : Nat → Bool → Nat → Option (Nat × Nat)

/-- A preamble of an occasion: format, restricted set, logical root index, zeroCorrelationZoneConfig and preamble give its
root sequence number, and the first sample and the length of its cyclic-shift window after the inverse FFT. -/
opaque prachWindow : Nat → Bool → Nat → Nat → Nat → Nat × Nat × Nat

/-- The energy after the inverse FFT of N points that full scale is, which the spec does not give. -/
opaque prachUnit : Nat → Nat

/-- The report ring in RD SRAM (R217): its place in units of 16 bytes, and its entries less one. -/
opaque prachRing : Nat × Nat

/-! Tables and constructions of 3GPP TS 38.212 that R248 and R252 cite and the spec does not contain
(log 24). -/

/-- The shift value of a base graph (0: graph 1, 1: graph 2) at a set index, row and column; none where the
entry is zero. -/
opaque ldpcShift : Nat → Nat → Nat → Nat → Option Nat

/-- The polar reliability sequence: the position of the i-th least reliable of 1,024 bits. -/
opaque polarOrder : Nat → Nat

/-- The interleaving pattern of 164 bits before the polar code of DCI and PBCH. -/
opaque polarIlMax : Nat → Nat

/-- SHA3-256 of FIPS 202, byte 0 of the digest least significant (log 34). -/
opaque sha3 : List Byte → BitVec 256

/-- SHA-384 of FIPS 180-4 (log 57). -/
opaque sha384 : List Byte → BitVec 384

/-- ECDSA P-384 of FIPS 186-5: public key X then Y, hash, signature r then s (log 57). -/
opaque ecdsaOk : List Byte → BitVec 384 → List Byte → Bool

end Sys2Proof.Config
end

