-- ==== Sys2Proof/Machine/RegMap.lean ====
section
/-! DEFINITION.  The register space (R460, R461): which offsets hold a register, which of its bits a
write sets, clears or counts, and what it reads as after reset.  Written from the register tables of
the chapters; a row that answers `own` belongs to a register whose write is a command of its own. -/

namespace Sys2Proof.Machine

/-- Registers at base + i·s1 + j·s2, i below n1, j below n2. -/
structure RegRow where
  base : Nat
  n1 : Nat := 1
  s1 : Nat := 4
  n2 : Nat := 1
  s2 : Nat := 4
  /-- RW, RWS and WO bits that hold a value -/
  rw : Nat := 0
  w1c : Nat := 0
  w1s : Nat := 0
  /-- a COUNT register: a write of any value clears it -/
  count : Bool := false
  reset : Nat := 0
  own : Bool := false
  deriving DecidableEq, Repr

/-- Does the row hold the register at this offset? -/
def RegRow.has (r : RegRow) (o : Nat) : Bool :=
  decide (r.base ≤ o) &&
  ((List.range r.n2).any (fun j =>
    let b := r.base + j * r.s2
    decide (b ≤ o) && (o - b) % r.s1 == 0 && decide ((o - b) / r.s1 < r.n1)))

def esBlock : Nat := 0x400000
def dlBlock : Nat := 0x2B0000
def bkBlock : Nat := 0x500000
def pwBlock : Nat := 0x220000
def hiBlock : Nat := 0x000000
def cuBlock : Nat := 0x200000
def btBlock : Nat := 0x210000
def tdBlock : Nat := 0x230000
def hmBlock : Nat := 0x240000
def cxBlock : Nat := 0x260000
def ttBlock : Nat := 0x270000
def rkBlock : Nat := 0x280000
def svBlock : Nat := 0x290000
def lkBlock : Nat := 0x2A0000
def dsBlock : Nat := 0x2C0000
def dbBlock : Nat := 0x2D0000
def zlBlock : Nat := 0x300000
def fhBlock : Nat := 0x380000

/-- R70: the page of array g. -/
def esRegs : List RegRow := [
  { base := esBlock, n1 := 84, s1 := 0x1000, rw := 0x35, own := true },
  { base := esBlock + 0x010, n1 := 84, s1 := 0x1000, n2 := 2, s2 := 8, rw := 0xFFFFFFC0 },
  { base := esBlock + 0x014, n1 := 84, s1 := 0x1000, n2 := 2, s2 := 8, rw := 0xFFFF },
  { base := esBlock + 0x020, n1 := 84, s1 := 0x1000, rw := 0x3FFFFF, reset := 0x208001 },
  { base := esBlock + 0x028, n1 := 84, s1 := 0x1000, rw := 0xFFFFFFFF },
  { base := esBlock + 0x040, n1 := 84, s1 := 0x1000, n2 := 3, s2 := 8, rw := 0xFFFFFFC0 },
  { base := esBlock + 0x044, n1 := 84, s1 := 0x1000, n2 := 3, s2 := 8, rw := 0xFFFF },
  { base := esBlock + 0x058, n1 := 84, s1 := 0x1000, rw := 0xFFFFF },
  { base := esBlock + 0x05C, n1 := 84, s1 := 0x1000, rw := 0xFFFFFFFF },
  { base := esBlock + 0x060, n1 := 84, s1 := 0x1000, rw := 0xFF03FFFF, reset := 0x151 },
  { base := esBlock + 0x064, n1 := 84, s1 := 0x1000, rw := 0x7F },
  { base := esBlock + 0x068, n1 := 84, s1 := 0x1000, rw := 0xFFFFFFFF } ]

/-- R86: the page of GDn. -/
def dlRegs : List RegRow := [
  { base := dlBlock, n1 := 4, s1 := 0x1000, rw := 0x15, own := true },
  { base := dlBlock + 0x010, n1 := 4, s1 := 0x1000, rw := 0xFF7F7F, reset := 0x800100 },
  { base := dlBlock + 0x014, n1 := 4, s1 := 0x1000, rw := 0xFFFF77FF, reset := 0x00011040 },
  { base := dlBlock + 0x018, n1 := 4, s1 := 0x1000, rw := 0x7FFF7FFF },
  { base := dlBlock + 0x01C, n1 := 4, s1 := 0x1000, rw := 0x1FF3FFF, reset := 0x533 },
  { base := dlBlock + 0x020, n1 := 4, s1 := 0x1000, rw := 0xFFFFFFC0 },
  { base := dlBlock + 0x024, n1 := 4, s1 := 0x1000, rw := 0xFFFF },
  { base := dlBlock + 0x028, n1 := 4, s1 := 0x1000, rw := 0xFFFFFFFF },
  { base := dlBlock + 0x02C, n1 := 4, s1 := 0x1000, rw := 0xFFFFFFC0 },
  { base := dlBlock + 0x030, n1 := 4, s1 := 0x1000, rw := 0xFFFF },
  { base := dlBlock + 0x034, n1 := 4, s1 := 0x1000, rw := 0xFFFFFFFF },
  { base := dlBlock + 0x040, n1 := 4, s1 := 0x1000, n2 := 3, rw := 0xFFFFFFFF, reset := 0xFFFFFFFF } ]

/-- R98, R100, R107, R115: the page of die d. -/
def bkRegs : List RegRow := [
  { base := bkBlock, n1 := 10, s1 := 0x10000, rw := 0x30 },
  { base := bkBlock + 0x0004, n1 := 10, s1 := 0x10000, w1c := 0x6 },
  { base := bkBlock + 0x010C, n1 := 10, s1 := 0x10000, w1c := 0x80000000 },
  { base := bkBlock + 0x0300, n1 := 3, n2 := 10, s2 := 0x10000, reset := 0 },
  { base := bkBlock + 0x0200, n1 := 10, s1 := 0x10000, rw := 1, reset := 1, own := true },
  { base := bkBlock + 0x0204, n1 := 4, s1 := 0x10000, rw := 0xFFFF, reset := 0x2AE4 },
  { base := bkBlock + 0x40204, n1 := 4, s1 := 0x10000, rw := 0xFFFF, reset := 0x0AB4 },
  { base := bkBlock + 0x80204, rw := 0xFFFF, reset := 0x2AE4 },
  { base := bkBlock + 0x90204, rw := 0xFFFF, reset := 0x80B6 },
  { base := bkBlock + 0x0214, n1 := 10, s1 := 0x10000, w1c := 0x80000000 },
  { base := bkBlock + 0x42000, n1 := 384, s1 := 4, n2 := 4, s2 := 0x10000, rw := 0xFFFFFFFF },
  { base := bkBlock + 0x2000, n1 := 4, s1 := 0x10000, rw := 0xFFFFFF },
  { base := bkBlock + 0x82000, rw := 0xFFFFFF },
  { base := bkBlock + 0x92000, rw := 0xFF },
  { base := bkBlock + 0x4000, n1 := 192, n2 := 4, s2 := 0x10000, rw := 0xFFFFFFFF, reset := 0xAAAAAAAA, own := true },
  { base := bkBlock + 0x84000, n1 := 192, rw := 0xFFFFFFFF, reset := 0xAAAAAAAA, own := true },
  { base := bkBlock + 0x94000, n1 := 64, rw := 0xFFFFFFFF, reset := 0xAAAAAAAA, own := true } ]

/-- R420, R425: BT registers that hold a value; the others are State's own. -/
def btRegs : List RegRow := [
  { base := btBlock + 0x00C, rw := 0x7FFFFFF },
  { base := btBlock + 0x014, w1c := 0xF },
  { base := btBlock + 0x038, n1 := 2, rw := 0xFFFFFFFF },
  { base := btBlock + 0x300, reset := 0xFF0000, own := true } ]

/-- R391: PW registers that hold a value; PW_ISL and the status words are State's own. -/
def pwRegs : List RegRow := [
  { base := pwBlock, w1c := 0x140 },
  { base := pwBlock + 0x020, n1 := 4, count := true },
  { base := pwBlock + 0x200, w1c := 0x7F },
  { base := pwBlock + 0x210, n1 := 10, reset := 0x7FFF, own := true },
  { base := pwBlock + 0x240, n1 := 10, reset := 0x7FFF, own := true },
  { base := pwBlock + 0x280, n1 := 16, count := true },
  { base := pwBlock + 0x400, n1 := 144, reset := 0x7FFF, own := true } ]

/-- R352: HI registers. -/
def hiRegs : List RegRow := [
  { base := hiBlock + 0x008, rw := 0xFFF },
  { base := hiBlock + 0x00C, w1c := 0x1FF },
  { base := hiBlock + 0x010, rw := 0x1FF, reset := 0x180 },
  { base := hiBlock + 0x020, n1 := 2, count := true },
  { base := hiBlock + 0x1004, n1 := 512, rw := 0x1F },
  { base := hiBlock + 0x100000, n1 := 513, s1 := 0x200, n2 := 8, s2 := 0x20, rw := 0xFFFFF000 },
  { base := hiBlock + 0x100004, n1 := 513, s1 := 0x200, n2 := 8, s2 := 0x20, rw := 0xFFFFFFFF },
  { base := hiBlock + 0x100008, n1 := 513, s1 := 0x200, n2 := 8, s2 := 0x20, rw := 0x80FFFFFF, reset := 0x400000 },
  { base := hiBlock + 0x10000C, n1 := 513, s1 := 0x200, n2 := 8, s2 := 0x20, rw := 0xFFFFFFF0 },
  { base := hiBlock + 0x100010, n1 := 513, s1 := 0x200, n2 := 8, s2 := 0x20, rw := 0xFFFFFFFF },
  { base := hiBlock + 0x100100, n1 := 513, s1 := 0x200, n2 := 8, s2 := 0x20, rw := 0xFFFFF000 },
  { base := hiBlock + 0x100104, n1 := 513, s1 := 0x200, n2 := 8, s2 := 0x20, rw := 0xFFFFFFFF },
  { base := hiBlock + 0x100108, n1 := 513, s1 := 0x200, n2 := 8, s2 := 0x20, rw := 0x80FFFFFF, reset := 0x400000 },
  { base := hiBlock + 0x10010C, n1 := 513, s1 := 0x200, n2 := 8, s2 := 0x20, rw := 0xFFFFFFF0 },
  { base := hiBlock + 0x100110, n1 := 513, s1 := 0x200, n2 := 8, s2 := 0x20, rw := 0xFFFFFFFF },
  { base := hiBlock + 0x100114, n1 := 513, s1 := 0x200, n2 := 8, s2 := 0x20, rw := 0xFFFFFFFF, reset := 0x1000 } ]

/-- R353: CU registers. -/
def cuRegs : List RegRow := [
  { base := cuBlock, rw := 1, own := true },
  { base := cuBlock + 0x008, rw := 0xFFFFF000 },
  { base := cuBlock + 0x00C, rw := 0xFFFFFFFF },
  { base := cuBlock + 0x014, rw := 0xFFFFF },
  { base := cuBlock + 0x018, rw := 0xFFFFF000 },
  { base := cuBlock + 0x01C, rw := 0xFFFFFFFF },
  { base := cuBlock + 0x020, w1c := 0x80000000 },
  { base := cuBlock + 0x030, count := true } ]

/-- R285: TD registers. -/
def tdRegs : List RegRow := [
  { base := tdBlock, rw := 0x71 },
  { base := tdBlock + 0x004, w1c := 0x2 },
  { base := tdBlock + 0x008, rw := 0x13F07, own := true },
  { base := tdBlock + 0x00C, rw := 0xFFFFFFFF, own := true },
  { base := tdBlock + 0x030, rw := 0xFFFFFFFF },
  { base := tdBlock + 0x034, rw := 0xFFFF },
  { base := tdBlock + 0x040, rw := 0xFFFFFFFF },
  { base := tdBlock + 0x048, n1 := 5, rw := 0xFFFFFFFF },
  { base := tdBlock + 0x060, n1 := 4, count := true },
  { base := tdBlock + 0x080, rw := 1, w1c := 6, own := true },
  { base := tdBlock + 0x084, n1 := 4, rw := 0xFFFFFFFF },
  { base := tdBlock + 0x094, rw := 0xFFFFFF },
  { base := tdBlock + 0x0A0, n1 := 4, rw := 0x7FFFF, reset := 0x1FF },
  { base := tdBlock + 0x0B0, n1 := 2, rw := 0xFFFFFFFF, reset := 0xFFFFFFFF },
  { base := tdBlock + 0x100, n1 := 2, s1 := 0x20, rw := 7, own := true },
  { base := tdBlock + 0x104, n1 := 2, s1 := 0x20, n2 := 2, rw := 0xFFFFFFFF },
  { base := tdBlock + 0x10C, n1 := 2, s1 := 0x20, rw := 0xFFFFFFFF, reset := 0x3B9ACA00 },
  { base := tdBlock + 0x110, n1 := 2, s1 := 0x20, rw := 0xFFFFFFFF, reset := 0x05F5E100 },
  { base := tdBlock + 0x214, n1 := 6, s1 := 0x20, w1c := 0xC0000000 },
  { base := tdBlock + 0x238, rw := 0x1FFFFFF, reset := 0x989680 },
  { base := tdBlock + 0x218, n1 := 6, s1 := 0x20, rw := 0x1FFFFFF, reset := 1 },
  { base := tdBlock + 0x400, n1 := 32, rw := 0x7F07 },
  { base := tdBlock + 0x480, n1 := 32, rw := 0xFFFFFFFF },
  { base := tdBlock + 0x500, n1 := 36, rw := 0xFFFFFFFF },
  { base := tdBlock + 0x800, n1 := 64, s1 := 0x20, rw := 0x3FFF000F, reset := 0x3FFF0000, own := true },
  { base := tdBlock + 0x804, n1 := 64, s1 := 0x20, n2 := 4, rw := 0xFFFFFFFF },
  { base := tdBlock + 0x1000, rw := 3, w1c := 0xA0, own := true },
  { base := tdBlock + 0x1004, n1 := 2, rw := 0xFFFFFFFF },
  { base := tdBlock + 0x100C, rw := 0xFFFFFFC0 },
  { base := tdBlock + 0x1010, rw := 0xFFFF },
  { base := tdBlock + 0x1014, rw := 0xFFFF } ]

/-- R241: FH registers. -/
def fhRegs : List RegRow := [
  { base := fhBlock + 0x004, rw := 0xFFFFFFC0 },
  { base := fhBlock + 0x008, rw := 0xFFFF },
  { base := fhBlock + 0x020, n1 := 8, rw := 3, own := true },
  { base := fhBlock + 0x040, rw := 0xFFFFFF, reset := 0x0610B8, own := true },
  { base := fhBlock + 0x070, rw := 0x800000FF },
  { base := fhBlock + 0x074, rw := 0xFFFFFFFF },
  { base := fhBlock + 0x078, rw := 0xFFFF },
  { base := fhBlock + 0x100, n1 := 11, count := true },
  { base := fhBlock + 0x1000, n1 := 2048, count := true } ]

/-- R328: FH registers of the egress queues. -/
def fhEgRegs : List RegRow := [
  { base := fhBlock + 0x6000, n1 := 2048, rw := 0x7FF, reset := 1 },
  { base := fhBlock + 0x30000, n1 := 8, rw := 0x800000FF, reset := 0x14 },
  { base := fhBlock + 0x30040, rw := 0xFFFF, reset := 0x3E8 },
  { base := fhBlock + 0x30044, rw := 0xFFFFFFC0 },
  { base := fhBlock + 0x30048, rw := 0xFFFF },
  { base := fhBlock + 0x40000, n1 := 2048, s1 := 0x10, n2 := 8, s2 := 0x8000, rw := 0x3FFFF, reset := 1, own := true },
  { base := fhBlock + 0x40004, n1 := 2048, s1 := 0x10, n2 := 8, s2 := 0x8000, rw := 0xFFFFFFFF, own := true },
  { base := fhBlock + 0x40008, n1 := 2048, s1 := 0x10, n2 := 8, s2 := 0x8000, rw := 0xFFFFFF, reset := 0x4000, own := true } ]

/-- R315, R328: ZL registers. -/
def zlRegs : List RegRow := [
  { base := zlBlock, rw := 0x8000FFFF, own := true },
  { base := zlBlock + 0x004, rw := 0x3FF, reset := 0x28, own := true },
  { base := zlBlock + 0x008, w1c := 1 },
  { base := zlBlock + 0x010, w1c := 0x80000000 },
  { base := zlBlock + 0x020, n1 := 8, count := true },
  { base := zlBlock + 0x400, n1 := 256, rw := 0x3F, reset := 0x3F },
  { base := zlBlock + 0x800, n1 := 36, s1 := 0x10, rw := 3, own := true },
  { base := zlBlock + 0x808, n1 := 36, s1 := 0x10, count := true },
  { base := zlBlock + 0x1000, n1 := 513, rw := 0xFFFFF, reset := 0xFFFFF },
  { base := zlBlock + 0x2000, n1 := 513, rw := 0x3F },
  { base := zlBlock + 0x30000, n1 := 36, rw := 0x800000FF, reset := 0x10 },
  { base := zlBlock + 0x30100, rw := 0xFFFF, reset := 0x3E8 },
  { base := zlBlock + 0x30104, rw := 0xFFFFFFC0 },
  { base := zlBlock + 0x30108, rw := 0xFFFF },
  { base := zlBlock + 0x40000, n1 := 256, s1 := 0x10, n2 := 36, s2 := 0x1000, rw := 0x3FFFF, reset := 1, own := true },
  { base := zlBlock + 0x40004, n1 := 256, s1 := 0x10, n2 := 36, s2 := 0x1000, rw := 0xFFFFFFFF, own := true },
  { base := zlBlock + 0x40008, n1 := 256, s1 := 0x10, n2 := 36, s2 := 0x1000, rw := 0xFFFFFF, reset := 0x4000, own := true } ]

/-- R316: LK registers. -/
def lkRegs : List RegRow := [
  { base := lkBlock, rw := 0x80FFFFFF, reset := 0xA0000 },
  { base := lkBlock + 0x010, n1 := 2, count := true },
  { base := lkBlock + 0x400, n1 := 256, rw := 0x3F, reset := 0x3F } ]

/-- R224: DB registers of the 48 Dibbers. -/
def dbRegs : List RegRow := [
  { base := dbBlock, n1 := 48, s1 := 0x100, rw := 0xFFFF19, own := true },
  { base := dbBlock + 0x08, n1 := 48, s1 := 0x100, w1c := 0x3F },
  { base := dbBlock + 0x0C, n1 := 48, s1 := 0x100, w1c := 0xFFFFFFFF },
  { base := dbBlock + 0x10, n1 := 48, s1 := 0x100, n2 := 2, count := true } ]

/-- R263: DS registers of the four clusters. -/
def dsRegs : List RegRow := [
  { base := dsBlock, n1 := 4, s1 := 0x1000, rw := 0x31, own := true },
  { base := dsBlock + 0x004, n1 := 4, s1 := 0x1000, w1c := 8 },
  { base := dsBlock + 0x008, n1 := 4, s1 := 0x1000, n2 := 2, s2 := 0x10, rw := 0xFFFFFFC0 },
  { base := dsBlock + 0x00C, n1 := 4, s1 := 0x1000, n2 := 2, s2 := 0x10, rw := 0xFFFF },
  { base := dsBlock + 0x010, n1 := 4, s1 := 0x1000, n2 := 2, s2 := 0x10, rw := 0xF, reset := 4 },
  { base := dsBlock + 0x014, n1 := 4, s1 := 0x1000, n2 := 2, s2 := 0x10, rw := 0xFFFF, own := true },
  { base := dsBlock + 0x100, n1 := 6, n2 := 4, s2 := 0x1000, count := true } ]

/-- R164, R366, R455: HM registers. -/
def hmRegs : List RegRow := [
  { base := hmBlock, rw := 0x1FF, reset := 0x20, own := true },
  { base := hmBlock + 0x004, rw := 0xFFFF, reset := 4, own := true },
  { base := hmBlock + 0x010, rw := 0xFFFFFFC0 },
  { base := hmBlock + 0x014, rw := 0xFFFF },
  { base := hmBlock + 0x040, n1 := 5, count := true },
  { base := hmBlock + 0x064, n1 := 2, count := true },
  { base := hmBlock + 0x078, n1 := 2, s1 := 8, rw := 0xFFFFFFC0 },
  { base := hmBlock + 0x07C, n1 := 2, s1 := 8, rw := 0xFFFF },
  { base := hmBlock + 0x088, rw := 0xFFFFFFFF },
  { base := hmBlock + 0x3000, n1 := 513, s1 := 0x10, rw := 0xFFFFFF80 },
  { base := hmBlock + 0x3004, n1 := 513, s1 := 0x10, rw := 0xFFFFFFFF },
  { base := hmBlock + 0x3008, n1 := 513, s1 := 0x10, rw := 0x80FFFFFF, reset := 0x400000, own := true },
  { base := hmBlock + 0x6000, rw := 0xFFFF000F, reset := 0x64000C },
  { base := hmBlock + 0x6004, rw := 0xFFFFC07F, reset := 0x10FFC000, own := true },
  { base := hmBlock + 0x6008, rw := 0xFFFFFFC0 },
  { base := hmBlock + 0x600C, rw := 0xFFFF },
  { base := hmBlock + 0x6014, rw := 0xFFFFFFFF, own := true },
  { base := hmBlock + 0x6018, count := true },
  { base := hmBlock + 0x6020, n1 := 4, rw := 0xFFFFFFFF },
  { base := hmBlock + 0x6030, rw := 0xF },
  { base := hmBlock + 0x7000, n1 := 513, s1 := 0x10, rw := 0xFFFFFFC0 },
  { base := hmBlock + 0x7004, n1 := 513, s1 := 0x10, rw := 0xFFFFFFFF },
  { base := hmBlock + 0x7008, n1 := 513, s1 := 0x10, rw := 0x83FFFFFF } ]

/-- R203: CX registers. -/
def cxRegs : List RegRow := [
  { base := cxBlock, rw := 0xFFFF, reset := 0x3E8, own := true },
  { base := cxBlock + 0x004, rw := 0x7FF, reset := 0x64, own := true },
  { base := cxBlock + 0x010, n1 := 3, count := true },
  { base := cxBlock + 0x1000, n1 := 513, rw := 0x1FFFFF, reset := 0x1F0001, own := true } ]

/-- R204: TT registers. -/
def ttRegs : List RegRow := [ { base := ttBlock + 0x010, n1 := 5, count := true } ]

/-- R182: RK and SV registers. -/
def rkRegs : List RegRow := [
  { base := rkBlock + 0x008, n1 := 6, count := true },
  { base := svBlock + 0x010, n1 := 3, count := true } ]

/-- Every register that holds a value. -/
def regRows : List RegRow :=
  esRegs ++ dlRegs ++ bkRegs ++ pwRegs ++ hiRegs ++ cuRegs ++ tdRegs ++ fhRegs ++ dbRegs ++ dsRegs ++
  hmRegs ++ cxRegs ++ ttRegs ++ rkRegs ++ zlRegs ++ lkRegs ++ fhEgRegs ++ btRegs

/-- The row of the register at an offset. -/
def regRow (o : Nat) : Option RegRow := regRows.find? (fun r => r.has o)

/-- What the register at an offset reads as after reset; an unassigned offset reads 0 (R8). -/
def regReset (o : Nat) : Word :=
  match regRow o with
  | some r => BitVec.ofNat 32 r.reset
  | none => 0

end Sys2Proof.Machine
end

