-- ==== Sys2Proof/Machine/Parts/Boot.lean ====
section
/-! DEFINITION.  State of boot, configuration, live update, the helm and the life cycle (chapter 18), and of the
SMBus target (chapter 22). -/

namespace Sys2Proof.Machine

/-- R415: the fused life-cycle states. -/
inductive LcBase where
  | manufacture | provisioned | deployed | scrapped
  deriving DecidableEq, Repr

/-- R415: codes. -/
def LcBase.code : LcBase → Nat
  | .manufacture => 0 | .provisioned => 1 | .deployed => 2 | .scrapped => 4

/-- R420: PHASE. -/
inductive BootPhase where
  | record | wait | verify | running | salvage
  deriving DecidableEq, Repr

def BootPhase.code : BootPhase → Nat
  | .record => 0 | .wait => 1 | .verify => 2 | .running => 3 | .salvage => 4

/-- R420: states of a live update. -/
inductive UpdSt where
  | idle | staging | staged | armed | handover | done | refused | abandoned
  deriving DecidableEq, Repr

def UpdSt.code : UpdSt → Nat
  | .idle => 0 | .staging => 1 | .staged => 2 | .armed => 3 | .handover => 4 | .done => 5 | .refused => 6
  | .abandoned => 7

/-- What a loaded image brings (R400): digest, header fields, sections as loaded, and what its DATA sections
define: the routine table (R421) and the neural receiver packages. -/
structure Image where
  digest : BitVec 256 := 0
  secVer : Nat := 0
  revoke : Nat := 0
  hover : Nat := 0
  /-- TARGET and bytes of each section -/
  sects : List (Nat × List Byte) := []
  rtn : List (Nat × Nat × Nat) := []
  nrx : List Nat := []
  deriving DecidableEq, Repr

/-- What the fuses hold (R29 to R31, R396, R400, R404, R415). -/
structure Fuses where
  /-- SHA-384 of the public key of each image-key slot, where programmed, and the revocation bits -/
  key : List (Option (BitVec 384)) := [none, none, none, none]
  keyRev : Nat := 0
  owner : List (Option (BitVec 384)) := [none, none, none, none]
  ownerRev : Nat := 0
  sv : Nat := 0
  lc : LcBase := .manufacture
  serial : Nat := 0
  /-- GRADE: true for KMU-7236-X -/
  gradeX : Bool := false
  /-- BT_DIEID words: 4 · die + word -/
  dieId : Table Word := []
  deriving DecidableEq, Repr

/-- A live update (R407 to R410). -/
structure Update where
  st : UpdSt := .idle
  result : Nat := 0
  late : Bool := false
  /-- S, T in ns of the subframe boundary -/
  s : Int := 0
  /-- after an abandoned update, T in ns of the boundary at which the units return to the old bank (R410) -/
  back : Option Int := none
  deriving DecidableEq, Repr

/-- The last answer of the SMBus target (R473). -/
inductive SmbReply where
  | none | nack
  /-- a write or a reset command acknowledged -/
  | ack
  | data (bytes : List Byte)
  deriving DecidableEq, Repr

/-- The private memories of a Pilot core (R116): the two banks of its instruction memory (R407), 128 KiB, and its data memory,
256 KiB, as an image's section filled them (R400). -/
structure CoreMem where
  imem : List Byte := []
  imemB : List Byte := []
  dmem : List Byte := []
  deriving DecidableEq, Repr

structure Boot where
  fuses : Fuses := {}
  /-- record copies 0 and 1 of the flash (R395) -/
  flash : List (List Byte) := [[], []]
  /-- the wear log of the flash: boost seconds by hour, newest first (R385); none where missing -/
  wear : Option (List Nat) := none
  /-- PRODUCT_REV of BT_MODULE (R31) -/
  rev : Nat := 0
  /-- the 48 V input is valid (R476) -/
  powered : Bool := true
  /-- the ROM has started (R394) -/
  rom : Bool := false
  phase : BootPhase := .record
  /-- RESULT of the last ROM command (R401) -/
  result : Nat := 0
  /-- the ROM command that runs: 0 BOOT, 1 RECORD -/
  busy : Option Nat := none
  /-- the record in force (R398): valid, copy, whether the newer copy failed -/
  recValid : Bool := false
  recCopy : Bool := false
  recFallback : Bool := false
  blankDie : Bool := false
  warm : Bool := false
  /-- BOOT_FAILS, and whether the boot in progress has been counted (R403) -/
  fails : Nat := 0
  failed : Bool := false
  salvage : Nat := 0
  salvageReq : Bool := false
  bootOk : Bool := false
  /-- raw count at which the image started (R403) -/
  startedAt : Nat := 0
  /-- SHA3-256 of the running operational image; the default where none runs -/
  fwDigest : BitVec 256 := 0
  bootedSv : Nat := 0
  bootedRevoke : Nat := 0
  /-- the private memories of the Pilot cores, by master identifier (R97) -/
  cores : Table CoreMem := []
  /-- the operational image runs -/
  running : Bool := false
  /-- the running image, and the staged one -/
  img : Image := {}
  stby : Option Image := none
  /-- half of the image data area that the running image uses, and the instruction bank of the dies -/
  bank : Bool := false
  /-- live updates that have taken effect -/
  updates : Nat := 0
  upd : Update := {}
  /-- HOLDER and EPOCH of the helm, FENCED, and the raw count of the last beat or GIVE (R413, R414) -/
  holderB : Bool := false
  epoch : Nat := 1
  fenced : Nat := 0
  beatAt : Nat := 0
  /-- DEBUG is held over the fused base (R415) -/
  debug : Bool := false
  /-- WIPES and REFUSED of BT_LC -/
  wipes : Nat := 0
  lcRefused : Bool := false
  /-- the lid is open now (R417) -/
  lidOpen : Bool := false
  /-- a fatal error holds (R349), from its cause to the next module reset -/
  fatalNow : Bool := false
  /-- die selected by DIE_SEL, and the last answer (R473) -/
  dieSel : Nat := 0
  smb : SmbReply := .none
  /-- characters the console has accepted, newest last (R469) -/
  uart : List Byte := []
  deriving DecidableEq, Repr

end Sys2Proof.Machine
end

