-- ==== Sys2Proof/Machine/Parts/Cfg.lean ====
section
/-! DEFINITION.  The applied configuration record (R397). -/

namespace Sys2Proof.Machine

/-- One entry of item MEMORY: tiling scratch, SRAM berth region, HBM berth region and context save area,
in MiB. -/
structure CfgMem where
  scratch : Nat := 0
  berthSram : Nat := 0
  berthHbm : Nat := 0
  save : Nat := 0
  deriving DecidableEq, Repr

/-- The values of the configuration record's items that the device uses; what a module without a record
has stands as default. -/
structure Cfg where
  loaded : Bool := false
  subsys : Nat := 0
  mem : List CfgMem := []
  /-- BK_RETMASK of GD0 to GD3, then BK_RETSEG of PD0 to PD3, RD and HD, as words -/
  retain : List Nat := []
  /-- PW_SITE_CAP[0–3] then PW_THR_CAP (R387, R389 defaults) -/
  power : List Nat := [0x10000, 0x10000, 900, 0, 1200]
  planCells : Nat := 0
  planUnits : Nat := 0
  planCodes : Nat := 0
  radio : Bool := false
  winMax : List Nat := [0, 0, 0, 0]
  harqRd : Nat := 0
  harqStack : Nat := 0
  harqHbm : Nat := 0
  fabric : List Byte := []
  time : List Byte := []
  hist : List Nat := []
  wdt : Nat := 120
  deriving DecidableEq, Repr

end Sys2Proof.Machine
end

