-- ==== Sys2Proof/Machine/Parts/Coding.lean ====
section
/-! DEFINITION.  State of the channel-coding cluster (chapter 11). -/

namespace Sys2Proof.Machine

/-- A job in a job table (R243): as copied, with its neural selection once made. -/
structure DsJob where
  job : BitVec 512
  /-- R247: true where the neural set was selected -/
  sel : Option Bool := none
  deriving DecidableEq, Repr

/-- One cluster. -/
structure DsCluster where
  sqHead : Nat := 0
  cqTail : Nat := 0
  /-- jobs in copy order -/
  jobs : List DsJob := []
  deriving DecidableEq, Repr

/-- A HARQ record on the move (R260). -/
structure HarqMove where
  handle : Nat
  toHbm : Bool
  dst : Nat
  deriving DecidableEq, Repr

/-- The cluster's shared state; the handle table itself is memory (R258). -/
structure Coding where
  cluster : Table DsCluster := []
  moves : List HarqMove := []
  /-- handles in HBM that are to be brought back once the RD pool has room (R260) -/
  wants : List Nat := []
  /-- handles that become EMPTY once no table job names them (R262) -/
  freeing : List Nat := []
  deriving DecidableEq, Repr

end Sys2Proof.Machine
end

