-- ==== Sys2Proof/Machine/Parts/Det.lean ====
section
/-! DEFINITION.  State of the DETERMINISTIC mode and of provenance (chapter 16). -/

namespace Sys2Proof.Machine

/-- HM_DET (R354, R366): MODE as written, PENDING while it propagates, EPOCH, and the value the units
use. -/
structure Det where
  mode : Bool := false
  pending : Bool := false
  epoch : Nat := 0
  active : Bool := false
  deriving DecidableEq, Repr

end Sys2Proof.Machine
end

