-- ==== Sys2Proof/Machine/Parts/Egress.lean ====
section
/-! DEFINITION.  State of the egress schedulers (chapter 14). -/

namespace Sys2Proof.Machine

/-- What a queue holds. -/
inductive EqBody where
  | frame (bytes : List Byte)
  | zelic (o : ZlOut)
  deriving DecidableEq, Repr

/-- A descriptor: charged length in 2⁻¹⁶ byte (R320), T at enqueue, and for a fronthaul frame its release and its
deadline in units of 1/3,072 ns (R324). -/
structure EqItem where
  len : Nat
  enq : Nat
  rel : Option Int := none
  dead : Option Int := none
  /-- of a downlink U-plane frame: its cell, frame, slot and symbol (R229) -/
  sym : Option (Nat × Nat × Nat × Nat) := none
  body : EqBody
  deriving DecidableEq, Repr

/-- A queue: its descriptors, head first, its tags (R322), and its credit in units of 2⁻¹⁶/3 byte as of a raw
count (R323). -/
structure EqQueue where
  items : List EqItem := []
  s : Nat := 0
  f : Nat := 0
  credit : Int := 0
  at_ : Nat := 0
  deriving DecidableEq, Repr

/-- The head of a queue is being sent since a raw count. -/
structure Sending where
  queue : Nat
  since : Nat
  deriving DecidableEq, Repr

/-- All egress queues: 2,048p + q of port p, 16,384 + 256z + q of link z.  Egresses: 4p + k of port p and
sub-port k (k = 0 for an unsplit port), 32 + z of link z. -/
structure Egress where
  queues : Table EqQueue := []
  /-- virtual time of level p of egress e by 4e + p -/
  v : Table Nat := []
  sending : Table (Option Sending) := []
  /-- fronthaul frames that wait for a descriptor, with their queue, oldest first (R319) -/
  wait : List (Nat × EqItem) := []
  /-- fronthaul frames sent, with their queue, newest last -/
  sent : List (Nat × List Byte) := []
  deriving DecidableEq, Repr

end Sys2Proof.Machine
end

