-- ==== Sys2Proof/Machine/Parts/Fabric.lean ====
section
/-! DEFINITION.  State of the package (chapters 01, 03, 04, 05): clocks, the Mooring ring, the Espalier
sequencers, the Drip sequencers, and what the banks hold beside their data. -/

namespace Sys2Proof.Machine

/-- Clocks (R25, R26). -/
structure Clocks where
  /-- domains running, AON from the 48 V input on -/
  running : List ClkDomain := [.aon]
  /-- the OCXO has reported stable, so AON runs from OCXO ÷ 16 -/
  ocxo : Bool := false
  /-- the TIDE PLL has locked -/
  tideLock : Bool := false
  /-- REF10M_OUT is driven -/
  refOut : Bool := false
  deriving DecidableEq, Repr

/-- One transfer on the Mooring ring (R16, R17). -/
structure Transfer where
  src : Die
  dst : Die
  /-- R97: the identifier of its issuer -/
  master : Nat
  cls : RingClass
  clockwise : Bool
  hops : Nat
  /-- hops made so far -/
  made : Nat := 0
  payload : List Byte
  deriving DecidableEq, Repr

/-- The Mooring ring (R14 to R19). -/
structure Ring where
  /-- transfers on the ring, oldest first -/
  flight : List Transfer := []
  /-- transfers delivered at their target stop, oldest first -/
  arrived : List Transfer := []
  /-- whose turn it is at a stop, direction and class where transit and local injection contend: 0 a local transfer's, 1
  a transit one's (R17) -/
  turn : Table Nat := []
  /-- corrected-error count of each bridge; bridge p joins positions p and p + 1 -/
  corrected : Table Nat := []
  /-- bridges declared down -/
  down : List Nat := []
  deriving DecidableEq, Repr

/-- A stage as pushed (R70). -/
structure EsStage where
  wsrc : Nat
  wscl : Nat
  nAct : Nat
  kAct : Nat
  conj : Bool
  wFmt : Nat
  pitch : Nat
  spitch : Nat
  deriving DecidableEq, Repr

/-- A staged weight tile: what the words of R61 held when the stage's data arrived. -/
structure EsTile where
  stage : EsStage
  /-- element runs of columns 0 to N_ACT − 1 -/
  cols : List (List Byte)
  /-- block-FP4 scale bytes of each column -/
  scales : List (List Byte)
  /-- an uncorrectable error was met reading it -/
  ecc : Bool
  /-- an address of it lies beyond the die's span (R21) -/
  beyond : Bool
  deriving DecidableEq, Repr

/-- A pass as pushed (R70). -/
structure EsPass where
  asrc : Nat
  ascl : Nat
  dst : Nat
  acc : Bool
  irq : Bool
  wAction : Nat
  m : Nat
  dpitch : Nat
  apitch : Nat
  aspitch : Nat
  eMin : Nat
  exact : Bool
  oFmt : Nat
  aFmt : Nat
  sym : Bool
  trunc : Bool
  sh : Nat
  op : Nat
  layer : Nat
  /-- value PUSHED took -/
  seq : Nat := 0
  deriving DecidableEq, Repr

/-- One activation row as read. -/
structure ActRow where
  elems : List Byte
  scales : List Byte
  ecc : Bool
  beyond : Bool
  deriving DecidableEq, Repr

/-- A started pass, from its first injection to its last row written. -/
structure EsRun where
  pass : EsPass
  tile : EsTile
  rows : List ActRow
  /-- rows injected so far; while it is below the pass's M, the pass waits for the operand data of that row (R71) -/
  upto : Nat
  /-- rows written so far -/
  written : Nat := 0
  deriving DecidableEq, Repr

/-- Where an ABORT or an error has left the sequencer (R72, R73). -/
inductive EsHalt where
  | none
  /-- an ABORT is settling; the record is the oldest uncounted pass that ran or waited -/
  | aborting (rec : Option (Nat × Nat))
  /-- STOPPED after an ABORT, until ENABLE is written 1 -/
  | aborted
  | error
  deriving DecidableEq, Repr

/-- One Espalier array's sequencer and weight buffers (R65 to R75). -/
structure EsArray where
  sfifo : List EsStage := []
  sStall : List EsStage := []
  pfifo : List EsPass := []
  pStall : List EsPass := []
  /-- the head stage's fetch has begun -/
  fetching : Bool := false
  port : Option EsTile := none
  shadow : Option EsTile := none
  active : Option EsTile := none
  /-- a swap has begun and its pass has not yet injected -/
  swapping : Bool := false
  /-- stages of tiles that were lost with the island before a pass used them: they are fetched again, before the stage FIFO's
  (R74; DESIGN CHOICE, log 137) -/
  again : List EsStage := []
  runs : List EsRun := []
  halt : EsHalt := .none
  errCode : Nat := 0
  errRow : Nat := 0
  errSeq : Nat := 0
  /-- the failed pass selects an interrupt for when it is counted in DONE (R70) -/
  errIrq : Bool := false
  pushed : Nat := 0
  done : Nat := 0
  cntBusy : Nat := 0
  cntSwap : Nat := 0
  cntOper : Nat := 0
  /-- saturations of the store stage (R442) -/
  cntSat : Nat := 0
  /-- HI halves latched by the last reads of the LO registers, in the order of the counters -/
  latch : List Nat := [0, 0, 0, 0]
  deriving DecidableEq, Repr

/-- A Drip job as pushed (R86). -/
structure DlJob where
  first : Nat
  count : Nat
  lanes : Nat
  ks : Nat
  v : Nat
  cols : Nat
  word : Nat
  sword : Nat
  wFmt : Nat
  aFmt : Nat
  oFmt : Nat
  acc : Bool
  irq : Bool
  eMin : Nat
  asrc : Nat
  dst : Nat
  apitch : Nat
  dpitch : Nat
  op : Nat
  layer : Nat
  seq : Nat := 0
  deriving DecidableEq, Repr

/-- One generation die's Drip sequencer (R80 to R87). -/
structure DripSeq where
  jfifo : List DlJob := []
  jStall : List DlJob := []
  /-- vectors of the head job in the loading slot set -/
  loaded : Option (List ActRow) := none
  /-- the running job and its slot set -/
  run : Option (DlJob × List ActRow) := none
  halt : EsHalt := .none
  errCode : Nat := 0
  errGroup : Nat := 0
  errSeq : Nat := 0
  pushed : Nat := 0
  done : Nat := 0
  cntBusy : Nat := 0
  cntWait : Nat := 0
  /-- R108: the first bank group of the running job that has left ON since the job started -/
  lost : Option Nat := none
  latch : List Nat := [0, 0]
  deriving DecidableEq, Repr

/-- Phases of a Dredge region test (R113). -/
inductive DredgePhase where
  | idle | copy | march | restore
  deriving DecidableEq, Repr

/-- One die's Dredge (R112 to R115).  A word under test is in one of two places, the bank or the shadow; the byte memory of
State holds its value wherever it is, and `shadow` says which words of the active region are in the shadow. -/
structure Dredge where
  phase : DredgePhase := .idle
  bank : Nat := 0
  region : Nat := 0
  /-- words of the active region, 0 to 511, that the shadow holds (R113) -/
  shadow : List Nat := []
  /-- regions whose test an island interrupted: they are tested again when it is next ON (R114) -/
  owed : List (Nat × Nat) := []
  /-- where the cursor goes on after the test of an owed region -/
  back : Option (Nat × Nat) := none
  /-- raw Tide count of the last region start -/
  lastStart : Nat := 0
  started : Bool := false
  deriving DecidableEq, Repr

/-- The answer of a bank access (R93, R101). -/
structure BankRsp where
  status : BankStatus := .ok
  data : DWord := 0
  deriving DecidableEq, Repr

/-- What the banks hold beside data: stored bits that differ from the code word, each die's Dredge, and the
last answer each master received. -/
structure Banks where
  /-- storage word key → the stored bits 0 to 71 that are in error (R109) -/
  err : Table (BitVec 72) := []
  /-- words with a pending writeback of corrected data (R110) -/
  writeback : List Nat := []
  dredge : Table Dredge := []
  /-- the master that port B of a bank served last in a class, plus 1 (R95): key 4 · (16384 · die + bank) + class -/
  turn : Table Nat := []
  /-- the values of BK_RULE that HD firmware last set, by register offset (R108) -/
  fwRule : Table Word := []
  /-- HBM stacks that have failed (R13) -/
  hbmDown : List Nat := []
  rsp : Table BankRsp := []
  /-- cores whose sticky COLLIDE flag is set (R102) -/
  coreCollide : List Nat := []
  /-- banks in which a march test has failed, and the uncorrectable errors met, with their raw counts (R423); a bank is
  16384 · die + bank -/
  failBanks : List Nat := []
  ueLog : List (Nat × Nat) := []
  deriving DecidableEq, Repr

/-- R367: the states of an island. -/
inductive IslState where
  | on | entering | ret | off | exiting | latched | failedShort
  deriving DecidableEq, Repr

/-- R367: a request or target, in order of depth. -/
inductive IslReq where
  | on | ret | off
  deriving DecidableEq, Repr

/-- One power island (R367 to R374). -/
structure Island where
  st : IslState := .off
  pfReq : IslReq := .on
  fwReq : IslReq := .off
  refused : Bool := false
  /-- where the entry in progress ends -/
  goal : IslReq := .off
  /-- whether the exit in progress began from RET -/
  fromRet : Bool := false
  /-- retention mask latched at entry (R107): banks of a group or segments of a die -/
  kept : Nat := 0
  deriving DecidableEq, Repr

/-- R391: PI.HD.BASE and PI.HD.AON are ON at power-up with FW_REQ ON. -/
def Island.atReset (i : Nat) : Island :=
  if 497 ≤ i then { st := .on, fwReq := .on } else {}

/-- The Sluice and the thermal and site limits (R375 to R390). -/
structure Sluice where
  powerLevel : Nat := 0
  thermCeil : Nat := 11
  /-- park steps taken for power (R380) and by the thermal rule (R383) -/
  parked : Nat := 0
  thermParked : Nat := 0
  /-- consecutive ticks with p above B -/
  above : Nat := 0
  /-- milliwatts of the last 20,000 ticks, newest first -/
  window : List Nat := []
  /-- ticks since the last change of level and of parking -/
  sinceLevel : Nat := 20
  sincePark : Nat := 200
  /-- consecutive 1 ms thermal ticks with every die below 97 °C -/
  cool : Nat := 0
  /-- junction temperatures by die, 0.125 °C (R382) -/
  therm : Table Int := []
  /-- the emergency of R381 holds -/
  emerg : Bool := false
  /-- ticks of 50 µs with the effective level at 10 or above: the current hour first, then the previous 719 (R385) -/
  boost : List Nat := []
  site : Nat := 3
  throttle : Bool := false
  /-- B of the last tick; none before the first -/
  lastB : Option Nat := none
  /-- p > B in the last tick, and above B with every step parked -/
  overNow : Bool := false
  floorLimited : Bool := false
  /-- operating points in force: PDA0–PDA3 by 0–3 and GDC0–GDC3 by 4–7, MHz (R375) -/
  points : Table Nat := []
  deriving DecidableEq, Repr

/-- A history of an error counter (R423): its value at the last evaluation, and what each evaluation of the last 24 h
added, newest first. -/
structure ErrHist where
  last : Nat := 0
  adds : List Nat := []
  deriving DecidableEq, Repr

/-- What helm-bank firmware keeps between evaluations of the margin monitors (R423). -/
structure Margin where
  /-- raw count of the last evaluation -/
  evalT : Nat := 0
  /-- for each evaluation of the last 24 h, newest first: whether the droop and slack minima lay below RETIRE's value -/
  droop : List Bool := []
  slack : List Bool := []
  /-- evaluations in a row with the lane below −10.0 dBm, by 4z + l -/
  optical : Table Nat := []
  /-- corrected SRAM errors by die, and corrected HBM errors by stack -/
  ce : Table ErrHist := []
  hbm : Table ErrHist := []
  deriving DecidableEq, Repr

/-- Power islands by index, the Sluice and the margins. -/
structure Power where
  isl : List Island := (List.range 499).map Island.atReset
  sl : Sluice := {}
  mg : Margin := {}
  deriving DecidableEq, Repr

end Sys2Proof.Machine
end

