-- ==== Sys2Proof/Machine/Parts/HostIf.lean ====
section
/-! DEFINITION.  State of the host interface and of Customs (chapter 15). -/

namespace Sys2Proof.Machine

/-- A submission queue (R334 to R339); ENABLE, size, PASID and addresses are its registers. -/
structure SubQueue where
  head : Nat := 0
  tail : Nat := 0
  fault : Nat := 0
  deriving DecidableEq, Repr

/-- A completion queue (R334 to R339). -/
structure CompQueue where
  head : Nat := 0
  tail : Nat := 0
  fault : Nat := 0
  /-- entries written since the last interrupt (R338) -/
  unsignalled : Nat := 0
  /-- raw count when the first of them was written -/
  since : Nat := 0
  /-- entries that wait for room, oldest first (R145) -/
  held : List (BitVec 256) := []
  deriving DecidableEq, Repr

/-- One MSI-X vector: its table entry, its pending bit, and how often it was sent. -/
structure MsixVec where
  addrLo : Word := 0
  addrHi : Word := 0
  data : Word := 0
  masked : Bool := true
  pending : Bool := false
  sent : Nat := 0
  deriving DecidableEq, Repr

/-- A cached leaf translation (R344); size is the page's log2. -/
structure Leaf where
  fn : Nat
  pasid : Nat
  vpage : Nat
  size : Nat
  host : Nat
  writable : Bool
  deriving DecidableEq, Repr

/-- A cached context or PASID entry, tagged with its instance (R344); value is the whole entry. -/
structure TabEntry where
  fn : Nat
  pasid : Nat
  isContext : Bool
  value : Nat
  deriving DecidableEq, Repr

/-- Which table read a walk waits for (R341, R342). -/
inductive WalkAt where
  | context | pasid | level (l : Nat)
  deriving DecidableEq, Repr

/-- A walk in progress (R343, R344). -/
structure Walk where
  fn : Nat
  pasid : Nat
  addr : Nat
  write : Bool
  at_ : WalkAt
  /-- host address of the entry being read -/
  entry : Nat
  /-- every level so far allows writes -/
  writable : Bool := true
  /-- the result may be cached (R347, R351) -/
  cache : Bool := true
  deriving DecidableEq, Repr

/-- What a translation answered: a host bus address, or a reason code of R343. -/
structure XlateDone where
  fn : Nat
  pasid : Nat
  addr : Nat
  write : Bool
  host : Nat
  reason : Nat
  deriving DecidableEq, Repr

/-- Customs (R341 to R345, R353). -/
structure Customs where
  leaves : List Leaf := []
  tabs : List TabEntry := []
  walks : List Walk := []
  /-- the last translation answered to a requester -/
  last : Option XlateDone := none
  /-- an invalidation is in progress -/
  invBusy : Bool := false
  /-- raw count of the last sweep (R345) -/
  sweepT : Nat := 0
  deriving DecidableEq, Repr

/-- Power state of a function (R329). -/
inductive FnPower where
  | d0 | d3hot
  deriving DecidableEq, Repr

/-- The PCIe link and its functions (R329 to R340). -/
structure HostIf where
  linkUp : Bool := false
  width : Nat := 0
  flit : Bool := false
  degraded : Bool := false
  retrains : Nat := 0
  /-- PERST_N is high -/
  perstHigh : Bool := false
  /-- VF Enable of the SR-IOV capability -/
  vfEnable : Bool := false
  /-- functions in D3hot -/
  d3 : List Nat := []
  /-- functions whose FLR is in progress (R346) -/
  flr : List Nat := []
  /-- raw count when the last of them was written -/
  flrT : Nat := 0
  sq : Table SubQueue := []
  cq : Table CompQueue := []
  msix : Table MsixVec := []
  /-- ERR_FATAL messages sent -/
  errFatal : Nat := 0
  /-- the last BAR read completion: data, and status 0 success, 1 UR, 2 CA, 3 poisoned -/
  barRsp : Option (Nat × Nat) := none
  /-- 64-bit counters of R441: 16 · function + place -/
  counts : Table Nat := []
  deriving DecidableEq, Repr

end Sys2Proof.Machine
end

