-- ==== Sys2Proof/Machine/Parts/Obs.lean ====
section
/-! DEFINITION.  State of observation and of the global stop (chapter 20). -/

namespace Sys2Proof.Machine

/-- What was captured during a stop (R452): a ring transfer, or a Zelic message with the link it came on. -/
inductive Capture where
  | ring (t : Transfer)
  | zelic (via : Option Nat) (m : ZlMsg)
  deriving DecidableEq, Repr

/-- Trace ring and global stop. -/
structure Obs where
  /-- HM_TRC_WR -/
  wr : Nat := 0
  /-- records lost since the previous 0x3F record -/
  lost : Nat := 0
  /-- raw count of the last sample (R443) -/
  sampleT : Nat := 0
  /-- samples taken since sampling began: the units take turns (R443) -/
  sampleIx : Nat := 0
  stopped : Bool := false
  /-- the variant in force: false FULL, true INFERENCE -/
  inference : Bool := false
  captured : Bool := false
  /-- raw count at which the stop fired -/
  since : Nat := 0
  captures : List Capture := []
  /-- bytes captured, and captures dropped -/
  used : Nat := 0
  dropped : Nat := 0
  /-- HI halves as their LO registers' last reads latched them (R75, R182, R203, R263, R335, R441) -/
  latch : Table Word := []
  deriving DecidableEq, Repr

end Sys2Proof.Machine
end

