-- ==== Sys2Proof/Machine/Parts/Radio.lean ====
section
/-! DEFINITION.  State of the radio receive and transmit path (chapter 10). -/

namespace Sys2Proof.Machine

/-- A cell entry of a plan (R236). -/
structure Cell where
  cell : Nat
  config : Nat
  port : Nat
  sub : Option Nat
  prbs : Nat
  vlan : Nat
  prio : Nat
  eaxcDl : Nat
  eaxcUl : Nat
  eaxcPrach : Nat
  iqwDl : Nat
  iqwUl : Nat
  nrx : Nat
  tdd : Nat
  period : Nat
  split : Nat
  prachCfg : Nat
  restricted : Bool
  prachStreams : Nat
  root : Nat
  thresh : Nat
  zcz : Nat
  freeze : Nat
  nrxDline : Nat
  t1aCpDl : Nat
  t1aCpUl : Nat
  t1aMaxUp : Nat
  t1aMinUp : Nat
  ta4Min : Nat
  ta4Max : Nat
  deriving DecidableEq, Repr

/-- A plan (R235). -/
structure Plan where
  tAct : Nat
  cells : List Cell
  deriving DecidableEq, Repr

/-- A symbol of a receive stream (R209, R214). -/
structure RxSym where
  frame : Nat
  slot : Nat
  sym : Nat
  /-- the gain code of its samples -/
  g : Int := 0
  prbs : List Nat := []
  clipped : Bool := false
  /-- PRBs marked as erased when the window closed -/
  erased : List Nat := []
  /-- where its side record was written, once its loop update has run -/
  side : Option Nat := none
  /-- sum of re² + im² after gain, over count samples -/
  power : Nat := 0
  count : Nat := 0
  deriving DecidableEq, Repr

/-- A receive stream context (R205, R212). -/
structure RxStream where
  gain : Int := 0
  seq : Option Nat := none
  syms : List RxSym := []
  deriving DecidableEq, Repr

/-- The freeze of a cell's gain loops (R215). -/
inductive Freeze where
  | none
  /-- lasts until FH_AGC_REL -/
  | held
  /-- FREEZE_SYMS, and the received symbols counted so far: frame, slot and symbol -/
  | symbols (n : Nat) (seen : List (Nat × Nat × Nat))
  deriving DecidableEq, Repr

/-- A job of an FFT engine (R219). -/
structure FftJob where
  src : Nat
  dst : Nat
  size : Nat
  inverse : Bool
  /-- its control cycle is started by a strobe -/
  strobe : Bool
  deriving DecidableEq, Repr

/-- An FFT engine. -/
structure FftEngine where
  jobs : List FftJob := []
  done : Nat := 0
  halvings : Nat := 0
  deriving DecidableEq, Repr

/-- The results of a slot (R225, R226, R229), as the radio message rings carry them to the host: status LATE_CFG where its
uplink was not processed. -/
structure SlotNote where
  cell : Nat
  frame : Nat
  slot : Nat
  uplink : Bool
  late : Bool
  /-- downlink symbols that were not ready in time (R229) -/
  lost : List Nat := []
  /-- allocations that were not decoded (R233) -/
  undecoded : Nat := 0
  /-- the results are not withheld by a muted standby (R429) -/
  posted : Bool := true
  deriving DecidableEq, Repr

/-- Register sets of a Dibber (R221). -/
inductive DbSet where
  | main | set1 | set2
  deriving DecidableEq, Repr

/-- One register set (R221). -/
structure DbRegs where
  /-- CI16 of lane l of Vv by 32v + l -/
  v : Table Word := []
  /-- components of lane l of Aa by 32a + l -/
  a : Table (Int × Int) := []
  s : Table Word := []
  p : Table Word := []
  pc : Nat := 0
  flags : Nat := 0
  deriving DecidableEq, Repr

/-- A load on its way: the set it was issued in, its register, and what it read (R221). -/
structure DbLoad where
  set : DbSet
  reg : DbLoadReg
  lanes : BitVec 32
  bytes : List Byte
  /-- what it read was uncorrectable -/
  bad : Bool
  deriving DecidableEq, Repr

/-- A Dibber (R220 to R224). -/
structure Dibber where
  main : DbRegs := {}
  set1 : DbRegs := {}
  set2 : DbRegs := {}
  cur : DbSet := .main
  held1 : Bool := false
  symPend : Bool := false
  slotPend : Bool := false
  halted : Bool := true
  /-- local data memory, 256 KiB -/
  dmem : Table Byte := []
  /-- wrong bits of the stored 72-bit words of local data memory, by word (R220) -/
  dmemErr : Table (BitVec 72) := []
  /-- loads on their way, oldest first -/
  loads : List DbLoad := []
  /-- the two banks of instruction memory, 64 KiB each, as loaded, and the bank that runs (R409) -/
  imem : List Byte := []
  imemB : List Byte := []
  bankB : Bool := false
  /-- saturation counts of the lanes (R54) -/
  laneSat : Table Nat := []
  deriving DecidableEq, Repr

/-- R439: states of a watched primary. -/
inductive StbySt where
  | idle | armed | taken
  deriving DecidableEq, Repr

/-- A watched primary (R429, R431). -/
structure Standby where
  st : StbySt := .idle
  result : Nat := 0
  primary : Nat := 0
  /-- GRACE, µs -/
  grace : Nat := 15
  /-- its armed cells that are still muted, by cell index -/
  muted : List Nat := []
  /-- T_m of the last check -/
  checked : Nat := 0
  deriving DecidableEq, Repr

/-- Log-likelihood ratios of a classical set that Dibbers have written: the start of the set, SFN, slot, and how many. -/
structure LlrRun where
  addr : Nat
  sfn : Nat
  slot : Nat
  count : Nat
  deriving DecidableEq, Repr

/-- A neural buffer in use (R231): its cell, frame and slot, where it lies, and its bytes. -/
structure NrxBuf where
  cell : Nat
  frame : Nat
  slot : Nat
  addr : Nat
  len : Nat
  deriving DecidableEq, Repr

/-- The radio path. -/
structure Radio where
  active : Option Plan := none
  next : Option Plan := none
  /-- T at which an accepted UNLOAD ends the active plan -/
  unload : Option Nat := none
  result : Nat := 0
  shedCount : Nat := 0
  /-- cells shed or stopped while the plan stays active (R240) -/
  stopped : List Nat := []
  /-- NRX packages of the running image -/
  nrxKnown : List Nat := []
  rx : Table RxStream := []
  /-- the last eCPRI sequence identifier of each transmit stream, plus 1 -/
  txSeq : Table Nat := []
  freeze : Table Freeze := []
  /-- reports written to the PRACH report ring (R217) -/
  reports : Nat := 0
  /-- when the PRACH detector is free again, in units of 1/3,072 ns (R218) -/
  prachFree : Int := 0
  fft : Table FftEngine := []
  db : Table Dibber := []
  notes : List SlotNote := []
  llrs : List LlrRun := []
  nrx : List NrxBuf := []
  /-- watched primaries by index -/
  stby : Table Standby := []
  /-- when an armed cell was taken over, T in ns, by cell (R431) -/
  taken : Table Int := []
  /-- heartbeats sent, and T_m of the last (R430) -/
  hbSeq : Nat := 0
  hbSent : Nat := 0
  deriving DecidableEq, Repr

end Sys2Proof.Machine
end

