-- ==== Sys2Proof/Machine/Parts/Serving.lean ====
section
/-! DEFINITION.  State of the Harbourmaster, the berth table, Rake and Sieve (chapters 07 and 08). -/

namespace Sys2Proof.Machine

/-- R146: states of a manifest. -/
inductive ManSt where
  | free | quiet | admitted | prefill | ready | decode | pausing | paused | resuming | ending
  deriving DecidableEq, Repr

/-- R146: the code of a state. -/
def ManSt.code : ManSt → Nat
  | .free => 0 | .quiet => 1 | .admitted => 2 | .prefill => 3 | .ready => 4 | .decode => 5
  | .pausing => 6 | .paused => 7 | .resuming => 8 | .ending => 9

/-- R149: the tiers of a berth. -/
inductive Tier where
  | pdSram (n : Nat) | pdHbm (n : Nat) | gd | coldLocal | coldPeer
  deriving DecidableEq, Repr

def Tier.code : Tier → Nat
  | .pdSram _ => 1 | .pdHbm _ => 2 | .gd => 3 | .coldLocal => 4 | .coldPeer => 5

/-- The prompt die of a PD tier. -/
def Tier.die : Tier → Nat
  | .pdSram n | .pdHbm n => n
  | _ => 0

/-- R150: a berth-table entry. -/
structure Berth where
  valid : Bool := false
  rid : Nat := 0
  berth : Nat := 0
  fill : Nat := 0
  tier : Tier := .gd
  frame : Nat := 0
  mirrored : Bool := false
  pulled : Nat := 0
  /-- frame of the mirror copy at CKPT_PEER -/
  peer : Nat := 0xFFFFF
  deriving DecidableEq, Repr

/-- A state of an automaton (R173). -/
structure AutState where
  first : Nat
  count : Nat
  accept : Bool
  deriving DecidableEq, Repr

/-- An edge of an automaton (R173). -/
structure AutEdge where
  lo : Nat
  hi : Nat
  next : Nat
  deriving DecidableEq, Repr

/-- A loaded automaton (R173, R174). -/
structure Automaton where
  start : Nat := 0
  states : List AutState := []
  edges : List AutEdge := []
  deriving DecidableEq, Repr

/-- What a request in ADMITTED or RESUMING waits for. -/
inductive Phase where
  /-- its buffers are being read (R151) -/
  | reading
  /-- space in the automaton store (R177) -/
  | store
  /-- a prompt die (R152) -/
  | place
  /-- the prefill runs -/
  | running
  deriving DecidableEq, Repr

/-- What happens to a request at the next step boundary (R141, R146, R155). -/
inductive Leave where
  | none | pause | cancel | unload | flr
  /-- FAILED with this status -/
  | fail (status : Nat)
  deriving DecidableEq, Repr

/-- An entry of the dump table bound to a request (R448). -/
structure DumpBind where
  entry : Nat
  tag : Nat
  name : Nat
  step : Nat
  dst : Nat
  maxLen : Nat
  deriving DecidableEq, Repr

/-- R157: a copy of a berth's positions to CKPT_PEER that is under way: up to which position it reaches, and whether a decode
step wrote the last of them. -/
structure MirrorCopy where
  berth : Nat
  fill : Nat
  byStep : Bool
  deriving DecidableEq, Repr

/-- A manifest (R147), with what else the Harbourmaster, Rake and Sieve hold of its request. -/
structure Manifest where
  st : ManSt := .free
  gen : Nat := 0
  /-- FLAGS bits 3:0 of the SUBMIT -/
  flags : Nat := 0
  fn : Nat := 0
  sq : Nat := 0
  cq : Nat := 0
  slot : Nat := 0
  pd : Nat := 0
  inBatch : Bool := false
  pend : Nat := 0
  selp : Nat := 0
  tag : Nat := 0
  seed : Nat := 0
  step : Nat := 0
  ctx : Nat := 0
  endAt : Nat := 0
  ckpt : Nat := 0xFFFFFFFF
  expiry : Nat := 0
  ttl : Nat := 0
  /-- used extents: first entry and count -/
  ext : List (Nat × Nat) := []
  /-- MODEL: the entry being carried out, or the pending RESUME -/
  entry : BitVec 512 := 0
  phase : Phase := .reading
  /-- the context's tokens, oldest first -/
  toks : List Nat := []
  /-- tokens emitted since admission -/
  out : List Nat := []
  /-- tokens that COALESCE holds back -/
  held : List Nat := []
  /-- the parameter block -/
  param : List Byte := []
  /-- parameter record held -/
  hasRec : Bool := false
  auto : Automaton := {}
  /-- place and size in the automaton store, in 8-byte words -/
  store : Option (Nat × Nat) := none
  /-- image or allow-list as read, for the store -/
  svBytes : List Byte := []
  autSt : Nat := 0
  drafts : List Nat := []
  /-- this step's selection has finished -/
  selected : Bool := false
  /-- why the turn has ended (R156) -/
  turnEnd : Option Nat := none
  leave : Leave := .none
  /-- tokens of the prefill that waits or runs -/
  pre : Nat := 0
  /-- context positions written to berths -/
  written : Nat := 0
  /-- the spare GD frame for growth -/
  spare : Option Nat := none
  /-- portions of a pull or of a pause's moves that are still to arrive, in the order they are fetched: slice, layer and
  berth (R154, R159) -/
  pulls : List (Nat × Nat × Nat) := []
  /-- copies to CKPT_PEER under way, oldest first, and positions of each berth that its mirror holds (R157) -/
  copies : List MirrorCopy := []
  mirrored : Table Nat := []
  /-- GD frames allocated at the join, by berth -/
  frames : List Nat := []
  /-- REASON or status the pause ends with -/
  reason : Nat := 0
  /-- berths that PAUSING moves, with the tier and frame each goes to -/
  moves : List (Nat × Tier × Nat) := []
  /-- STEP that a checkpoint in flight covers, and whether its record has been written to the peer -/
  ckptFlight : Option Nat := none
  ckptSent : Bool := false
  /-- raw count at which QUIET ends -/
  quietUntil : Nat := 0
  /-- the registers of HM_NO_DIE, HM_NOFRAME and HM_BT_HOLD in which the wait it is in has been counted -/
  counted : List Nat := []
  /-- completion records posted before its prefill became the first of its context (R144) -/
  recMark : Nat := 0
  dumps : List DumpBind := []
  /-- TURN, and STEP of the turn's first token (R361) -/
  turn : Nat := 0
  stepFirst : Nat := 0
  seeded : Bool := false
  /-- input digest H_k and the image digest at admission (R362) -/
  hIn : BitVec 256 := 0
  fw : BitVec 256 := 0
  /-- DET_HELD so far, EPOCH and update count at admission (R363) -/
  det : Bool := false
  epoch : Nat := 0
  updates : Nat := 0
  deriving DecidableEq, Repr

/-- Bytes put to a peer module by a copy or a record (R157, R159, R426): the peer as a slot record codes it, and the quay
address. -/
structure PeerPut where
  peer : Nat
  addr : Nat
  bytes : List Byte
  deriving DecidableEq, Repr

/-- A rebuild with a shadow copy (R162, R177): passes ended, and updates logged and not yet replayed. -/
structure Rebuild where
  passes : Nat := 0
  log : Nat := 0
  deriving DecidableEq, Repr

/-- An entry in the Harbourmaster's command queue (R336). -/
structure CmdEntry where
  fn : Nat
  sq : Nat
  entry : BitVec 512
  deriving DecidableEq, Repr

/-- HM_ADOPT and HM_ADOPT_STAT (R427, R438). -/
structure Adopt where
  busy : Bool := false
  src : Nat := 0
  dst : Nat := 0
  slot : Nat := 0
  result : Nat := 0
  count : Nat := 0
  deriving DecidableEq, Repr

/-- The Harbourmaster, the berth table and the automaton store. -/
structure Serving where
  /-- manifests by index -/
  man : Table Manifest := []
  /-- manifests never used: indices from this one on are FREE -/
  virgin : Nat := 0
  /-- manifests freed, longest FREE first -/
  freed : List Nat := []
  cmdq : List CmdEntry := []
  /-- live copy of the berth table -/
  bt : Table Berth := []
  btLive : Bool := false
  btFlips : Nat := 0
  btRetries : Nat := 0
  btRun : Option Rebuild := none
  svLive : Bool := false
  svFlips : Nat := 0
  svRetries : Nat := 0
  svRun : Option Rebuild := none
  /-- last command error and its slot (HM_SLOT_STATE) -/
  slotErr : Nat := 0
  errSlot : Nat := 0
  /-- slots in the order their first request became READY -/
  order : List Nat := []
  /-- slot whose weights are the batch's -/
  batch : Option Nat := none
  /-- a decode step runs -/
  stepping : Bool := false
  steps : Nat := 0
  /-- T at which the step in progress began -/
  stepT : Nat := 0
  /-- completion records posted before the step in progress began (R144) -/
  stepMark : Nat := 0
  /-- CADENCE as the last checkpoint boundary took it (R164) -/
  cadence : Nat := 0x20
  /-- manifests whose prefill runs, in the order they were placed -/
  prefills : List Nat := []
  /-- what has been put to peers, oldest first -/
  puts : List PeerPut := []
  /-- while a store rebuild runs: its copies in the shadow, as manifest, address and words (R177) -/
  svShadow : List (Nat × Nat × Nat) := []
  svEnd : Nat := 0
  adopt : Adopt := {}
  deriving DecidableEq, Repr

end Sys2Proof.Machine
end

