-- ==== Sys2Proof/Machine/Parts/ColRes.lean ====
section
/-! DEFINITION.  What a column of an array or a Drip job produces. -/

namespace Sys2Proof.Machine

/-- A column result: an exact integer on the grid 2^base, an FP32 value, complex components, or NaN. -/
inductive ColRes where
  | exact (i : Int) (base : Int)
  | fp32 (bits : Nat)
  | cplx (re im : Int)
  | nan
  deriving DecidableEq, Repr

end Sys2Proof.Machine
end

