-- ==== Sys2Proof/Machine/Parts/Sharing.lean ====
section
/-! DEFINITION.  State of descriptors, contexts and the tide table (chapters 06 and 09). -/

namespace Sys2Proof.Machine

/-- The results of one chunk of one output block, kept until the block is combined (R128, R133): for each
element, in row order, one column result per K-tile of the chunk, in K-tile order. -/
structure Partial where
  block : Nat
  chunk : Nat
  vals : List (List ColRes)
  deriving DecidableEq, Repr

/-- The span decision of one output block (R129, R356): for each row, E_MIN where the row runs exact, none
where it runs on the fixed-order path. -/
structure SpanRes where
  block : Nat
  rows : List (Option Nat)
  deriving DecidableEq, Repr

/-- A work tile that an array runs: its index and the K-tile within the chunk it goes on from. -/
structure TileRun where
  array : Nat
  index : Nat
  next : Nat
  deriving DecidableEq, Repr

/-- A descriptor that is queued at a context; r90 says that its die applies R90 to it. -/
structure QDesc where
  desc : BitVec 512
  r90 : Bool := false
  deriving DecidableEq, Repr

/-- A descriptor that runs (R125 to R133). -/
structure DescRun where
  desc : BitVec 512
  dseq : Nat
  path : Nat
  chunks : Nat
  tiles : Nat
  det : Bool
  lens : List Nat
  /-- every operand is in the die's SRAM or has been copied to the tiling scratch (R118) -/
  staged : Bool
  /-- what the tiling scratch holds of operands outside the die's SRAM: each range's address and its bytes (R118) -/
  copies : List (Nat × List Byte) := []
  ordered : Bool := false
  spans : List SpanRes := []
  running : List TileRun := []
  /-- interrupted tiles whose array's hand-back slot still holds an earlier one (R132) -/
  later : List TileRun := []
  /-- output blocks of which a tile has been claimed -/
  begun : List Nat := []
  parts : List Partial := []
  ran : Nat := 0
  skipped : Nat := 0
  deriving DecidableEq, Repr

/-- CX_CTX states (R203). -/
inductive CtxSt where
  | running | stopping | saving | saved | restoring
  deriving DecidableEq, Repr

/-- Why a context was stopped: to be saved for another context (R189), for bookings (R198), or as its die's arrays are parked,
where it stays in the die's SRAM (R380, R388). -/
inductive StopFor where
  | share | booking | park
  deriving DecidableEq, Repr

/-- A context (R183). -/
structure Ctx where
  /-- MODEL: which context it is, whatever number it has -/
  id : Nat := 0
  st : CtxSt := .running
  vf : Nat
  slot : Nat
  arrays : List Nat := []
  /-- device addresses and lengths of the scratch portion and of the extent -/
  scratch : Nat
  scratchLen : Nat
  extent : Nat
  extentLen : Nat
  run : Option DescRun := none
  queue : List QDesc := []
  dseq : Nat := 0
  /-- arrays to be released at their next pass boundary, and the target of R187 -/
  rel : List Nat := []
  target : Nat := 0
  /-- the stop of R190 is complete -/
  stopped : Bool := false
  stopFor : StopFor := .share
  /-- the arrays it held when it was stopped -/
  held : List Nat := []
  /-- where the image lies that is being restored -/
  restoreFrom : Nat := 0
  deriving DecidableEq, Repr

/-- A saved context image in HBM (R191); ctx is the context as it was stopped. -/
structure SavedCtx where
  die : Nat
  ctx : Ctx
  addr : Nat
  /-- arrays it held when it was stopped, and its number then -/
  held : List Nat
  num : Nat
  deriving DecidableEq, Repr

/-- A completion record of a descriptor (R124), with its die, VF and IRQ flag. -/
structure DescRec where
  die : Nat
  vf : Nat
  slot : Nat
  irq : Bool
  record : BitVec 128
  deriving DecidableEq, Repr

/-- A descriptor that waits for a context (R189). -/
structure WaitDesc where
  die : Nat
  vf : Nat
  slot : Nat
  desc : QDesc
  deriving DecidableEq, Repr

/-- Contexts, their descriptors and accounts. -/
structure Sharing where
  /-- contexts by 8 · die + number -/
  ctx : List (Nat × Ctx) := []
  saved : List SavedCtx := []
  recs : List DescRec := []
  wait : List WaitDesc := []
  /-- CX_ACCT of VF v; 513 is the radio account -/
  acct : Table Nat := []
  /-- usage U of R187 -/
  usage : Table Nat := []
  /-- MODEL: T up to which array time has been charged -/
  acctT : Nat := 0
  /-- CX_VF of each VF as the last quantum boundary took it (R187) -/
  eff : Table Nat := []
  /-- MODEL: contexts created so far -/
  made : Nat := 0
  /-- T of the last quantum boundary -/
  quantumT : Nat := 0
  deriving DecidableEq, Repr

/-- States of a tide-table entry (R195). -/
inductive TtSt where
  | free | accepted | clearing | ready | active | late | done | refused | cancelled
  deriving DecidableEq, Repr

/-- A tide-table entry (R195). -/
structure TtEntry where
  st : TtSt := .free
  /-- VALID as last written -/
  valid : Bool := false
  start : Nat := 0
  dur : Nat := 0
  arrays : Nat := 0
  rwin : Nat := 0
  core : Nat := 0
  reason : Nat := 0
  nsaved : Nat := 0
  tReady : Nat := 0
  saved4k : Nat := 0
  /-- CX_MARGIN at acceptance, µs -/
  margin : Nat := 0
  /-- contexts of the affected set, by identity, fixed at acceptance (R197) -/
  affected : List Nat := []
  /-- contexts that only lose arrays, by identity -/
  losing : List Nat := []
  /-- arrays that have passed to a LATE booking -/
  taken : List Nat := []
  deriving DecidableEq, Repr

/-- The tide table and the pass lists (R195 to R204). -/
structure TideTable where
  /-- entry i of PDn by 64n + i -/
  entries : Table TtEntry := []
  /-- records taken from PDn's pass list -/
  taken : Table Nat := []
  /-- TT_RING[n] -/
  written : Table Nat := []
  deriving DecidableEq, Repr

end Sys2Proof.Machine
end

