-- ==== Sys2Proof/Machine/Parts/Slots.lean ====
section
/-! DEFINITION.  State of the model slots (R140, R141). -/

namespace Sys2Proof.Machine

/-- R141: states of a model slot. -/
inductive SlotSt where
  | empty | loading | ready | draining
  deriving DecidableEq, Repr

/-- A model slot: its state, the fields of its slot record, and what its weight package sets. -/
structure Slot where
  st : SlotSt := .empty
  shards : Nat := 0
  layers : Nat := 0
  kvb : Nat := 0
  vocab : Nat := 0
  maxCtx : Nat := 0
  ttlDef : Nat := 0
  pdFrames : Nat := 0
  hbmFrames : Nat := 0
  gdFrames : Nat := 0
  coldFrames : Nat := 0
  peerFrames : Nat := 0
  coldPeer : Nat := 0xFFFFFFFF
  ckptPeer : Nat := 0xFFFFFFFF
  peerBase : Nat := 0
  wpkgAddr : Nat := 0
  wpkgLen : Nat := 0
  wdigest : BitVec 256 := 0
  /-- bytes of a context's scratch portion and extent, set by the weight package (R183) -/
  scratch : Nat := 0
  extent : Nat := 0
  /-- GD bank groups that hold its weights, as island indexes (R374, R388) -/
  groups : List Nat := []
  /-- device addresses of its frame pools: PD SRAM 0–3, PD HBM 0–3, GD slices 0–3, cold shards 0–3 -/
  bases : List Nat := []
  /-- block-FP4 weight planes as they were when the slot was loaded, from which its summaries are made (R129) -/
  sums : List (Nat × List Byte) := []
  /-- the package carries a draft model and is marked SPEC_EXACT (R178) -/
  specExact : Bool := false
  deriving DecidableEq, Repr

end Sys2Proof.Machine
end

