-- ==== Sys2Proof/Machine/Parts/Tide.lean ====
section
/-! DEFINITION.  State of the Tide time base (chapter 12). -/

namespace Sys2Proof.Machine

/-- What a read of TD_RAW_LO latched for a master (R267). -/
structure TdLatch where
  raw : Nat := 0
  c : Nat := 0
  deriving DecidableEq, Repr

/-- A staged adjustment (R268); op is 0 RATE, 1 STEP, 2 SET. -/
structure TdAdj where
  at_ : Nat
  op : Nat
  v : Nat
  rate : Int
  deriving DecidableEq, Repr

/-- A PTP frame, as received or as sent, with its timestamp (R275, R276). -/
structure PtpFrame where
  /-- TD_PTP_PORT index: port or sub-port -/
  q : Nat
  /-- raw position of the timestamp, and its C corrected by TD_PORT_LAT -/
  r : Nat
  c : Nat
  msg : PtpMsg
  seq : Nat
  /-- originTimestamp as sent: seconds and nanoseconds -/
  sec : Nat := 0
  ns : Nat := 0
  /-- correctionField as sent, in 2⁻¹⁶ ns -/
  corr : Int := 0
  /-- twoStepFlag -/
  twoStep : Bool := false
  deriving DecidableEq, Repr

/-- A PTP message as forwarded (R276). -/
structure PtpFwd where
  /-- where it arrived and where it left, as TD_PTP_PORT indices -/
  src : Nat
  dst : Nat
  /-- correctionField as sent, in 2⁻¹⁶ ns -/
  corr : Int
  deriving DecidableEq, Repr

/-- A residence held for a Follow_Up (R276); key joins sourcePortIdentity, domainNumber and
sequenceId; q is the port or sub-port on which the Sync arrived. -/
structure TcEntry where
  q : Nat
  key : Nat
  /-- in 2⁻¹⁶ ns, with both ports' TD_PORT_LAT -/
  residence : Int
  /-- raw count at which the Sync left -/
  since : Nat
  deriving DecidableEq, Repr

/-- A capture input's record (R282). -/
structure CapRec where
  /-- selected edges since the last recorded one -/
  edges : Nat := 0
  r : Nat := 0
  c : Nat := 0
  deriving DecidableEq, Repr

/-- A pulse of a pin (R281): PPS_OUT 0 and 1, then TRIG_OUT 0 to 3; the raw count at its leading edge, its length in TIDE
cycles or, for a PPS_OUT, in ns, and whether it is active low. -/
structure TdPulse where
  pin : Nat
  raw : Nat
  width : Nat
  low : Bool
  deriving DecidableEq, Repr

/-- The Tide time base (R264 to R285). -/
structure TideState where
  /-- the raw counter, modulo 2⁶⁴ -/
  raw : Nat := 0
  base : Nat := 0
  anchor : Nat := 0
  rate : Int := 0
  adj : Option TdAdj := none
  /-- the RATEs that came into force, newest first, each with its tick -/
  rates : List (Nat × Int) := []
  /-- raw counts of the last PPS_IN edge and of the last valid Sync of the selected port (R278) -/
  ppsSeen : Nat := 0
  syncSeen : Nat := 0
  /-- latches of the PF (key 0) and of each Pilot core (its identifier) -/
  latch : Table TdLatch := []
  /-- for each strobe, the index of the next target it can fire for (R280) -/
  stb : Table Int := []
  /-- the same for each PPS_OUT -/
  pps : Table Int := []
  /-- pulses made, newest last -/
  pulses : List TdPulse := []
  /-- strobe signals not yet taken: 2 · Dibber for SYM, 2 · Dibber + 1 for SLOT -/
  signals : List Nat := []
  /-- strobe starts of each FFT engine's control cycle (R219) -/
  fftStart : Table Nat := []
  cap : Table CapRec := []
  /-- PTP frames delivered to the engine, newest last -/
  ptpIn : List PtpFrame := []
  /-- PTP management messages passed to the host, by the index they came in on (R274) -/
  ptpHost : List Nat := []
  /-- Sync frames sent; two-step ones are the egress-timestamp rings -/
  ptpOut : List PtpFrame := []
  /-- frames forwarded by transparent forwarding -/
  ptpFwd : List PtpFwd := []
  tc : List TcEntry := []
  /-- offset to the peer of link z, in 2⁻¹⁷ ns (R277) -/
  zlOfs : Table Int := []
  deriving DecidableEq, Repr

end Sys2Proof.Machine
end

