-- ==== Sys2Proof/Machine/State.lean ====
section
/-! DEFINITION.  The state of the module: plain data, one component for each part of the spec, the
commands that wait, and State.reset. -/

namespace Sys2Proof.Machine

/-- The block never stops with a fault: every command of the table has an effect the spec gives, and a
command whose occasion does not hold leaves the state as it is (log 1).  The one constructor is for a
host that asks for the type; nothing raises it. -/
inductive Fault where
  /-- raised by nothing; safe -/
  | none
  deriving DecidableEq, Repr

/-- Why a command is refused by the model. -/
inductive Refusal where
  /-- raised by exec's arm of a command that has no meaning yet; safe: the model stops -/
  | notModelled (mnemonic : String)
  deriving DecidableEq, Repr

structure State where
  clk : Clocks := {}
  ring : Ring := {}
  /-- Espalier sequencers by global array index (R24) -/
  es : Table EsArray := []
  /-- Drip sequencers by generation die -/
  dl : Table DripSeq := []
  bk : Banks := {}
  pw : Power := {}
  td : TideState := {}
  det : Det := {}
  cfg : Cfg := {}
  sh : Sharing := {}
  tt : TideTable := {}
  fh : Radio := {}
  ds : Coding := {}
  zl : Zelic := {}
  eg : Egress := {}
  /-- model slots 0 to 15 (R140) -/
  slots : Table Slot := []
  /-- routine table of the running image: BT_RTN_INFO and BT_RTN_LAYOUT words (R421) -/
  rtn : Table (Nat × Nat) := []
  hm : Serving := {}
  obs : Obs := {}
  boot : Boot := {}
  hi : HostIf := {}
  cu : Customs := {}
  /-- software-written registers and event counts, by register-space offset (R461) -/
  regs : Table Word := []
  /-- device memory by storage key: SRAM and HBM bytes -/
  mem : Memory := []
  /-- host memory by host bus address -/
  host : Memory := []
  /-- interrupts taken by each Pilot core: key 32 · core identifier + source -/
  irq : Table Nat := []
  /-- MODEL: how many free values have been drawn -/
  free : Nat := 0
  /-- the commands that wait, first in first out -/
  pending : List Instr := []
  deriving DecidableEq, Repr

/-- The module at power-on: every register at its reset value, memory with nothing listed. -/
def State.reset : State := {}

end Sys2Proof.Machine
end

