-- ==== Sys2Proof/Machine/Ops.lean ====
section
/-! DEFINITION.  The named operations over registers, islands, memory, interrupts and host memory that
the meanings are written with. -/

namespace Sys2Proof.Machine

/-- What a meaning answers. -/
abbrev Out := Host.Outcome State Fault Refusal

/-- The command had its effect if its occasion held; otherwise nothing changes (log 1). -/
def onlyIf (p : Bool) (s t : State) : Out := .next (if p then t else s)

/-! ### Registers -/

/-- The stored value of a register; an unlisted one reads its reset value. -/
def State.reg (s : State) (o : Nat) : Word := tget (regReset o) s.regs o

/-- The stored value as a number. -/
def State.regN (s : State) (o : Nat) : Nat := (s.reg o).toNat

/-- Bits hi:lo of a register. -/
def State.regB (s : State) (o hi lo : Nat) : Nat := bitsOf (s.regN o) hi lo

/-- One bit of a register. -/
def State.regBit (s : State) (o i : Nat) : Bool := bitOf (s.regN o) i

/-- Write the stored value of a register. -/
def State.setReg (s : State) (o : Nat) (v : Nat) : State :=
  { s with regs := tset (regReset o) s.regs o (BitVec.ofNat 32 v) }

/-- Replace bits hi:lo of a register. -/
def State.setRegB (s : State) (o hi lo v : Nat) : State :=
  s.setReg o (withBits (s.regN o) hi lo v)

/-- R413: the core belongs to the HD bank that does not hold the helm. -/
def State.fenced (s : State) (m : Agent) : Bool :=
  match m with
  | .core .hd k => decide (8 ≤ k.val) != s.boot.holderB
  | _ => false

/-- R413: a write of a fenced core is discarded and counted in BT_HELM.FENCED. -/
def State.countFenced (s : State) : State :=
  { s with boot := { s.boot with fenced := min 0xFFFF (s.boot.fenced + 1) } }

/-! ### What a global stop halts (R451) -/

/-- The classes of units that R451 distinguishes. -/
inductive StopUnit where
  /-- arrays, Drip lanes and cores of the prompt and generation dies, the Harbourmaster, Rake, Sieve, queue
  fetch, Dredge -/
  | inference
  /-- the units of RD and fronthaul -/
  | radio
  deriving DecidableEq, Repr

/-- R451: the unit is halted. -/
def State.halted (s : State) (u : StopUnit) : Bool :=
  s.obs.stopped && (u == .inference || !s.obs.inference)

/-- A halted unit does nothing (R450): the command of one leaves the state as it is. -/
def unlessHalted (s : State) (u : StopUnit) (o : Out) : Out := if s.halted u then .next s else o

/-- R24, R451: the class of an array: those of RD run with the radio. -/
def arrayUnit (g : Nat) : StopUnit := if 80 ≤ g then .radio else .inference

/-- R451: the class of a die's units. -/
def dieUnit : Die → StopUnit
  | .rd => .radio
  | _ => .inference


/-- R451: a master's unit is halted: the PF's accesses, the Zelic target and the harbour die's helm tasks run, and so do
those of the Locks. -/
def State.masterHalted (s : State) (m : Nat) : Bool :=
  if m = 0x120 ∨ m = 0x122 ∨ m = 0x123 ∨ (0x09C ≤ m ∧ m ≤ 0x0AB) then false
  else if m < 0x054 then s.halted (arrayUnit m)
  else if (0x098 ≤ m ∧ m ≤ 0x09B) ∨ isRadioEngine m then s.halted .radio
  else s.halted .inference

/-- Add to a COUNT register, which saturates at 0xFFFF_FFFF. -/
def State.count (s : State) (o n : Nat) : State := s.setReg o (satAdd (s.reg o) n).toNat

/-- A 48-bit or 64-bit value held in a LO and a HI register. -/
def State.reg64 (s : State) (lo hi : Nat) : Nat := s.regN lo + s.regN hi * 2 ^ 32

/-- Remove the stored values of every register with offset in lo to hi − 1: they read their reset
values again. -/
def State.resetRegs (s : State) (lo hi : Nat) : State :=
  { s with regs := tdrop (fun o => decide (lo ≤ o) && decide (o < hi)) s.regs }

/-! ### Free values -/

/-- The next free value (log 6). -/
def State.freeNat (s : State) : Nat := Config.freeValue s.free

/-- Count one free value as drawn. -/
def State.drew (s : State) (n : Nat) : State := { s with free := s.free + n }

/-- n free bytes, drawn one after the other. -/
def freeBytes : Nat → Nat → List Byte
  | _, 0 => []
  | k, n + 1 => BitVec.ofNat 8 (Config.freeValue k) :: freeBytes (k + 1) n

/-! ### Islands -/

/-- Island i (R27). -/
def State.isl (s : State) (i : Nat) : Island := s.pw.isl.getD i { st := .failedShort }

/-- R367: only ON is ON. -/
def State.islOn (s : State) (i : Nat) : Bool := (s.isl i).st == .on

/-- Change island i. -/
def State.modIsl (s : State) (i : Nat) (f : Island → Island) : State :=
  { s with pw := { s.pw with isl := lmod s.pw.isl i f } }

/-- R461, R462: the home die's BASE island is ON, so its register blocks answer. -/
def State.dieOn (s : State) (d : Die) : Bool := s.islOn (baseIsland d)

/-- R27, R451: the agent is a Pilot core that does nothing: a stop halts it (the harbour die's helm tasks run), or the BASE
island that holds it is not ON. -/
def State.agentHalted (s : State) (m : Agent) : Bool :=
  match m with
  | .core .hd _ => !s.dieOn .hd
  | .core d _ => s.halted (dieUnit d) || !s.dieOn d
  | _ => false

/-- A register write by an agent: none comes from a halted core (R451) or from one whose BASE island is not ON (R27); discarded and counted where the agent is fenced,
otherwise as onlyIf. -/
def agentIf (m : Agent) (p : Bool) (s t : State) : Out :=
  if s.agentHalted m then .next s else if s.fenced m then .next s.countFenced else onlyIf p s t

/-- R69, R86: a Pilot core of the die writes its engine pages; the PF's writes are ignored and VFs have
no access; nothing is written while the die's BASE island is not ON (R462). -/
def State.coreMayWrite (s : State) (m : Agent) (d : Die) : Bool :=
  match m with
  | .core d' k => d' == d && decide (k.val < dieCores d) && s.dieOn d
  | _ => false

/-- An HD Pilot core. -/
def Agent.isHd : Agent → Bool
  | .core .hd _ => true
  | _ => false

/-- An RD Pilot core (R241). -/
def Agent.isRd : Agent → Bool
  | .core .rd k => decide (k.val < 4)
  | _ => false

/-- R4, R239: a cell plan is loaded, active or accepted. -/
def State.planLoaded (s : State) : Bool := s.fh.active.isSome || s.fh.next.isSome

/-- R388: the current site state carries RADIO_ONLY. -/
def State.radioOnly (s : State) : Bool := bitOf (s.cfg.power.getD s.pw.sl.site 0) 16

/-! ### Places in memory -/

/-- The ranges of n bytes at a and of m bytes at b meet. -/
def rangesMeet (a n b m : Nat) : Bool := decide (a < b + m) && decide (b < a + n)

/-- R78: the storage key of an offset of GDn's SRAM: bank · 256 KiB + word · 8 + byte. -/
def gdKey (stripe : Bool) (off : Nat) : Nat :=
  let j := off / 0x2000000
  let o := off % 0x2000000
  if stripe then (128 * j + o / 8 % 128) * 0x40000 + o / 1024 * 8 + o % 8
  else j * 0x2000000 + o

/-- R86: bit i of DL_BGMODEm is the mode of group 32m + i. -/
def State.bgStripe (s : State) (n j : Nat) : Bool :=
  s.regBit (dlBlock + 0x1000 * n + 0x040 + 4 * (j / 32)) (j % 32)

/-- The storage key of a device address: the address itself, but for GD SRAM, where it names the bank,
the word and the byte that the group's address mode selects. -/
def State.key (s : State) (a : Nat) : Nat :=
  match place a with
  | .sram (.gd n) off => sramBase (.gd n) + gdKey (s.bgStripe n (off / 0x2000000)) off
  | _ => a

/-- R77, R92: the die, bank and word of a storage key in SRAM. -/
def bankOf (k : Nat) : Option (Die × Nat × Nat) :=
  match place k with
  | .sram (.gd n) off => some (.gd n, off / 0x40000, off / 8 % 0x8000)
  | .sram d off => some (d, 128 * (off / 0x2000000) + off / 8 % 128, off % 0x2000000 / 1024)
  | _ => none

/-- R77, R92, inverted: the storage key of a bank's word. -/
def wordKey (d : Die) (bank word : Nat) : Nat :=
  match d with
  | .gd n => sramBase (.gd n) + bank * 0x40000 + word * 8
  | d => sramBase d + bank / 128 * 0x2000000 + word * 1024 + bank % 128 * 8

/-- The island whose state decides whether a storage key can be reached (R23, R101). -/
def keyIsland (k : Nat) : Nat :=
  match place k with
  | .sram (.gd n) off => bgIsland n (off / 0x2000000)
  | .sram d _ => baseIsland d
  | .hbm h _ => 17 * (h / 2) + 16
  | _ => 497

/-! ### The Bonded store (R20, R418) -/

def bondedLo : Nat := 0x03800F000000
def bondedHi : Nat := 0x038010000000

/-- The address lies in the Bonded store or the HD Dredge's shadow. -/
def bonded (a : Nat) : Bool := decide (bondedLo ≤ a) && decide (a < bondedHi)

/-- R13, R21, R23, R101, R458: whether the place that an address names can be reached; the memory of a failed stack cannot
(log 127). -/
def State.placeStatus (s : State) (a : Nat) : BankStatus :=
  match place a with
  | .hbm h _ => if s.islOn (keyIsland a) && !s.bk.hbmDown.contains h then .ok else .address
  | .sram _ _ => if s.islOn (keyIsland (s.key a)) then .ok else .island
  | _ => .address

/-- R101, R418: whether an access by any master but those of the Bonded store can be performed. -/
def State.addrStatus (s : State) (a : Nat) : BankStatus := if bonded a then .address else s.placeStatus a

/-! ### Who reaches the Bonded store (R417, R418) -/

/-- R417: while the lid is open outside MANUFACTURE the store stays inaccessible. -/
def State.bondedOpen (s : State) : Bool := !(s.boot.lidOpen && s.boot.fuses.lc != .manufacture)

/-- R418: the master reaches the Bonded store: helm-bank HD cores, among them HD.A0 that runs the ROM, and the Dredge
of HD. -/
def State.mayBonded (s : State) (m : Nat) : Bool :=
  let lo := if s.boot.holderB then 0x0A4 else 0x09C
  s.bondedOpen && (m == 0x1F9 || (decide (lo ≤ m) && decide (m < lo + 8)))

/-- R101, R418: whether a master's access at an address can be performed. -/
def State.accessStatus (s : State) (m a : Nat) : BankStatus :=
  if bonded a && s.mayBonded m then s.placeStatus a else s.addrStatus a

/-- R413: the tables of R147, R294, R300 and R301, and the Bonded store. -/
def fencedArea (a : Nat) : Bool :=
  (decide (0x038000000000 ≤ a) && decide (a < 0x038003000000)) || (decide (0x03800E000000 ≤ a) && decide (a < 0x03800E228000)) ||
  bonded a

/-- R413: an access of a fenced HD core to what a fenced bank may not touch. -/
def State.fencedAccess (s : State) (m a : Nat) : Bool :=
  let lo := if s.boot.holderB then 0x09C else 0x0A4
  decide (lo ≤ m) && decide (m < lo + 8) && fencedArea a

/-! ### ECC (R109 to R111) -/

/-- R109: the column value of data bit i: the (i + 1)-th number from 3 on that is no power of two. -/
def eccColumn (i : Nat) : Nat :=
  if i = 0 then 3 else if i < 4 then i + 4 else if i < 11 then i + 5
  else if i < 26 then i + 6 else if i < 57 then i + 7 else i + 8

/-- R109: the syndrome of a word whose stored bits differ from its code word in the bits of p. -/
def eccSyndrome (p : BitVec 72) : Nat :=
  let data := (List.range 64).foldl (fun x i => if p.getLsbD i then x ^^^ eccColumn i else x) 0
  let chk := (List.range 7).foldl (fun x j => if p.getLsbD (64 + j) then x ^^^ 2 ^ j else x) data
  chk + popCount p.toNat 72 % 2 * 128

/-- The stored bits in error of the word that holds a storage key. -/
def State.wordErr (s : State) (k : Nat) : BitVec 72 := tget 0 s.bk.err (k / 8 * 8)

/-- R109, R111: two or more errors in the word. -/
def State.wordBad (s : State) (k : Nat) : Bool := decide (1 < popCount (s.wordErr k).toNat 72)

def State.setErr (s : State) (k : Nat) (p : BitVec 72) : State :=
  { s with bk := { s.bk with err := tset 0 s.bk.err (k / 8 * 8) p } }

/-! ### Interrupts to Pilot cores and to the host -/

def IrqSrc.code : IrqSrc → Nat
  | .es => 0 | .dl => 1 | .ecc => 2 | .dredge => 3 | .tideTable => 4 | .ds => 5 | .barrier => 6
  | .shed => 7 | .trigger => 8 | .radio => 9 | .capture => 10 | .adopt => 11 | .other => 12 | .detFault => 13

/-- Interrupt a Pilot core. -/
def State.irqTo (s : State) (core : Nat) (src : IrqSrc) : State :=
  { s with irq := tmod 0 s.irq (32 * core + src.code) (· + 1) }

/-- The MSI-X vector v of function f, by key. -/
def msixKey (f v : Nat) : Nat := f * 2048 + v

/-- R349: a fatal error holds, until a module reset. -/
def State.fatal (s : State) : Bool := s.boot.fatalNow

/-- R329, R346, R349: the function answers memory requests: the link is up, it exists, is in D0 and not in a
reset, and no fatal error holds. -/
def State.fnLive (s : State) (f : Nat) : Bool :=
  s.hi.linkUp && !s.fatal && !(s.hi.flr.contains f) && !(s.hi.d3.contains f) && (f == 0 || s.hi.vfEnable)

/-- The agent is the PF and its accesses reach the module. -/
def State.isPf (s : State) (m : Agent) : Bool := m == .pf && s.fnLive 0

/-- R391, R352: the PF and HD Pilot cores. -/
def State.hdOrPf (s : State) (m : Agent) : Bool := s.isPf m || m.isHd

/-- R340: the vector is held pending: its entry is masked, or a VF has left it unprogrammed, which an address of 0 shows
(DEDUCED, log 126). -/
def MsixVec.holds (x : MsixVec) (f : Nat) : Bool := x.masked || (decide (0 < f) && x.addrLo == 0 && x.addrHi == 0)

/-- Send an MSI-X vector: one that is held sets its pending bit (R338, R340). -/
def State.sendVec (s : State) (f v : Nat) : State :=
  if s.fatal || !s.hi.linkUp then s
  else { s with hi := { s.hi with msix := tmod {} s.hi.msix (msixKey f v) (fun x =>
    if x.holds f then { x with pending := true } else { x with sent := x.sent + 1 }) } }

/-- R340: set a bit of HI_ERR_CAUSE, and send PF vector 0 unless HI_ERR_MASK keeps it off. -/
def State.hiErr (s : State) (bit : Nat) : State :=
  let t := s.setReg (hiBlock + 0x00C) (s.regN (hiBlock + 0x00C) ||| 2 ^ bit)
  if s.regBit (hiBlock + 0x010) bit then t else t.sendVec 0 0

/-- R340: a management event on PF vector 1. -/
def State.mgmtEvent (s : State) : State := s.sendVec 0 1

/-! ### Fatal errors (R349, R403, R425) -/

/-- R403: a boot that fails before BOOT_OK counts once. -/
def State.bootFailed (s : State) : State :=
  if s.boot.running && !s.boot.bootOk && !s.boot.failed then
    { s with boot := { s.boot with fails := min 3 (s.boot.fails + 1), failed := true } }
  else s

/-- R349, R425: a fatal cause.  The first after a module reset is latched in BT_FATAL; host traffic, fronthaul and
Zelic end because they ask State.fatal; ERR_FATAL goes out; a staged image is lost (R419), and so is the cut of a
global stop (R454). -/
def State.raiseFatal (s : State) (cause die : Nat) : State :=
  if s.boot.fatalNow then s
  else
    let t := (s.setReg (btBlock + 0x300) (2 ^ 31 + die % 256 * 2 ^ 16 + cause % 256)).bootFailed
    let t := t.setRegB (tdBlock + 0x1000) 0 0 0
    { t with
      boot := { t.boot with fatalNow := true, stby := none }
      obs := { t.obs with stopped := false, captures := [] }
      hi := { t.hi with errFatal := t.hi.errFatal + b2n t.hi.linkUp } }

/-! ### Per-function counters (R441) -/

/-- R441: the counters of a function, by their place in the list. -/
inductive FnCount where
  | tokens | prefilled | admitted | refused | failed | cqHeld | xlate | notFound | passes | saves
  | dumps | dumpFail | specProp | specAcc
  deriving DecidableEq, Repr

def FnCount.code : FnCount → Nat
  | .tokens => 0 | .prefilled => 1 | .admitted => 2 | .refused => 3 | .failed => 4 | .cqHeld => 5
  | .xlate => 6 | .notFound => 7 | .passes => 8 | .saves => 9 | .dumps => 10 | .dumpFail => 11
  | .specProp => 12 | .specAcc => 13

/-- R441: add to a 64-bit counter of function f, which wraps. -/
def State.fnCount (s : State) (f : Nat) (c : FnCount) (n : Nat) : State :=
  { s with hi := { s.hi with counts := tmod 0 s.hi.counts (16 * f + c.code) (fun x => (x + n) % 2 ^ 64) } }

/-! ### ECC reports -/

/-- R110, R111: count and log one error found at a storage key of SRAM by a master. -/
def State.eccReport (s : State) (m k : Nat) (bad : Bool) : State :=
  match bankOf k with
  | none => s
  | some (d, bank, word) =>
    let b := bkBlock + 0x10000 * d.index
    let log1 := s.regN (b + 0x010C)
    let free := !bitOf log1 31 || (bad && !bitOf log1 30)
    let s := s.count (if bad then b + 0x0104 else b + 0x0100) 1
    let s := if free then
        (s.setReg (b + 0x0108) (bank * 0x8000 + word)).setReg (b + 0x010C)
          (2 ^ 31 + b2n bad * 2 ^ 30 + m % 512 * 2 ^ 16 + eccSyndrome (s.wordErr k))
      else s
    if bad then
      let s := { s with bk := { s.bk with ueLog := s.bk.ueLog ++ [(16384 * d.index + bank, s.td.raw)] } }
      ((s.setReg (b + 0x0004) (s.regN (b + 0x0004) ||| 2)).irqTo
        (irqCore d (s.regB b 5 4)) .ecc).hiErr 0
    else s

/-- R110, R111: report every error among the words of a range of addresses, and arm the writeback of
single-bit errors. -/
def State.noteReads (s : State) (m a n : Nat) : State :=
  let ks := (List.range (ceilDiv (a % 8 + n) 8)).map (fun i => s.key (a / 8 * 8 + 8 * i))
  (ks.filter (fun k => s.wordErr k ≠ 0)).foldl (fun s k =>
    let s := s.eccReport m k (s.wordBad k)
    if s.wordBad k then s else { s with bk := { s.bk with writeback := k :: s.bk.writeback } }) s

/-! ### Reading and writing device memory -/

/-- One byte as a master reads it: 0 where the island is not ON or the address does not exist. -/
def State.byteAt (s : State) (a : Nat) : Byte :=
  if s.addrStatus a == .ok then rdByte s.mem (s.key a) else 0

/-- n bytes from an address. -/
def State.load (s : State) (a : Nat) : Nat → List Byte
  | 0 => []
  | n + 1 => s.byteAt a :: s.load (a + 1) n

/-- A little-endian number of n bytes. -/
def State.loadNat (s : State) (a n : Nat) : Nat := leNat (s.load a n)

/-- Every byte of the range exists and its island is ON. -/
def State.rangeOk (s : State) (a n : Nat) : Bool :=
  (List.range (ceilDiv (a % 8 + n) 8)).all (fun i => s.addrStatus (a / 8 * 8 + 8 * i) == .ok)

/-- An uncorrectable word lies in the range (R111). -/
def State.rangeBad (s : State) (a n : Nat) : Bool :=
  (List.range (ceilDiv (a % 8 + n) 8)).any (fun i => s.wordBad (s.key (a / 8 * 8 + 8 * i)))

/-- R111: a byte of a write of n bytes at a is performed where its address is, unless its word is
uncorrectable and the write does not replace the whole word. -/
def State.writes (s : State) (a n b : Nat) : Bool :=
  s.addrStatus b == .ok &&
  (!s.wordBad (s.key b) || (decide (a ≤ b / 8 * 8) && decide (b / 8 * 8 + 8 ≤ a + n)))

/-- The bytes of a write of n bytes at a, from address b on. -/
def State.putBytes (s : State) (a n : Nat) : Nat → List Byte → Memory → Memory
  | _, [], m => m
  | b, x :: xs, m => s.putBytes a n (b + 1) xs (if s.writes a n b then wrByte m (s.key b) x else m)

/-- Write bytes at a device address: bytes at addresses that do not exist or whose island is not ON are
discarded (R101, R458); words written get fresh check bits (R109). -/
def State.store (s : State) (a : Nat) (bs : List Byte) : State :=
  { s with
    mem := s.putBytes a bs.length a bs s.mem
    bk := { s.bk with err := tdrop (fun k =>
      (List.range (ceilDiv (a % 8 + bs.length) 8)).any (fun i =>
        let b := max a (a / 8 * 8 + 8 * i)
        k == s.key (a / 8 * 8 + 8 * i) && s.writes a bs.length b)) s.bk.err } }

/-- Write a little-endian number of n bytes. -/
def State.storeNat (s : State) (a n x : Nat) : State := s.store a (leBytes n x)

/-- Remove the contents of every storage key that p holds of (cleared with valid check bits, R108). -/
def State.clearMem (s : State) (p : Nat → Bool) : State :=
  { s with mem := tdrop p s.mem, bk := { s.bk with err := tdrop p s.bk.err } }

/-! ### Per-unit tables -/

def State.esOf (s : State) (g : Nat) : EsArray := tget {} s.es g
def State.setEs (s : State) (g : Nat) (e : EsArray) : State := { s with es := tset {} s.es g e }
def State.dlOf (s : State) (n : Nat) : DripSeq := tget {} s.dl n
def State.setDl (s : State) (n : Nat) (e : DripSeq) : State := { s with dl := tset {} s.dl n e }

/-! ### Time -/

/-- Microseconds as raw Tide cycles, rounded up: the raw counter runs at 983.04 MHz (R25). -/
def rawUs (us : Nat) : Nat := ceilDiv (us * 98304) 100

/-! ### Atomics (R103) -/

/-- IEEE 754 binary32 addition of the bank's ADD_F32: to nearest even, overflow to infinity, NaN stored
as 0x7FC0_0000. -/
def ieeeAdd (a b : Nat) : Nat :=
  match FloatFmt.fp32.value a, FloatFmt.fp32.value b with
  | .nan, _ | _, .nan => 0x7FC00000
  | .inf x, .inf y => if x = y then (if x then 0xFF800000 else 0x7F800000) else 0x7FC00000
  | .inf x, _ | _, .inf x => if x then 0xFF800000 else 0x7F800000
  | .fin _ _ _, .fin _ _ _ =>
    let r := fp32Add a b
    if r.2 then r.1 + 1 else r.1

/-- R103: the operation of an atomic on the prior value; none for a reserved opcode. -/
def atomicOp (opc prior x : Nat) : Option (Nat × Nat) :=
  match opc with
  | 1 => some (4, (prior + x) % 2 ^ 32)
  | 2 => some (8, (prior + x) % 2 ^ 64)
  | 3 => some (4, ieeeAdd prior (x % 2 ^ 32))
  | 4 => some (4, x % 2 ^ 32)
  | 5 => some (8, x % 2 ^ 64)
  | _ => none

/-- R103: operand bytes of an atomic opcode. -/
def atomicBytes (opc : Nat) : Nat := if opc = 2 ∨ opc = 5 then 8 else 4

end Sys2Proof.Machine
end

