-- ==== Sys2Proof/Machine/Time.lean ====
section
/-! DEFINITION.  Corrected Tide time (R264 to R271): how C and T follow from the raw counter, when a
time is reached, and the radio frame grid. -/

namespace Sys2Proof.Machine

/-- R265: C before it is taken modulo 2⁹⁶, at raw position r = 64 · count + φ. -/
def cExact (base anchor : Nat) (rate : Int) (r : Nat) : Int :=
  base + ((r : Int) - 64 * anchor) * 3125 * (2 ^ 48 + rate) / (3 * 2 ^ 48)

/-- R265: corrected time C at a raw position, under the parameters in force. -/
def State.cAt (s : State) (r : Nat) : Nat :=
  (cExact s.td.base s.td.anchor s.td.rate r % 2 ^ 96).toNat

/-- C now; a read has phase 0. -/
def State.now (s : State) : Nat := s.cAt (64 * s.td.raw)

/-- R266: bits 79:16 of C. -/
def tOf (c : Nat) : Nat := c / 2 ^ 16 % 2 ^ 64

/-- R266: corrected Tide time in ns, T. -/
def State.T (s : State) : Nat := tOf s.now

/-- R268: a count before the tick of a pending adjustment, which only its application reaches. -/
def State.beforeAdj (s : State) (n : Nat) : Nat :=
  match s.td.adj with
  | some a => min n (a.at_ - 1)
  | none => n

/-- The raw counter is taken to a later count, where it runs at all.  DESIGN CHOICE (log 17): a command
that is the arrival of a time takes the counter there, but not past a pending adjustment of time. -/
def State.reachRaw (s : State) (n : Nat) : State :=
  if s.clk.tideLock && decide (s.td.raw < s.beforeAdj n) then { s with td := { s.td with raw := s.beforeAdj n } } else s

/-- R265, inverted: the least raw count at which C is at least c. -/
def State.rawOf (s : State) (c : Int) : Nat :=
  let d := 64 * 3125 * (2 ^ 48 + s.td.rate)
  let n := (c - s.td.base) * (3 * 2 ^ 48)
  ((s.td.anchor : Int) - (-n) / d).toNat

/-- The counter is taken to the first count at which C is at least c. -/
def State.reachC (s : State) (c : Int) : State :=
  if (s.now : Int) < c then s.reachRaw (s.rawOf c) else s

/-- The counter is taken to the first count at which T is at least t ns. -/
def State.reachNs (s : State) (t : Int) : State := s.reachC (t * 2 ^ 16)

/-- C is at or after c. -/
def State.past (s : State) (c : Int) : Bool := decide (c ≤ (s.now : Int))

/-- T is at or after t ns. -/
def State.pastNs (s : State) (t : Int) : Bool := s.past (t * 2 ^ 16)

/-- R407, R409, R410: the bank of the running image: during a handover and after an abandoned update the old one. -/
def State.homeBank (s : State) : Bool :=
  if s.boot.upd.back.isSome || s.boot.upd.st == .handover then !s.boot.bank else s.boot.bank

/-- R409, R410: the instruction bank that units take at their next interrupt or boundary: after an abandoned update the old
one from the next subframe boundary on. -/
def State.bankNow (s : State) : Bool :=
  match s.boot.upd.back with
  | some t => if s.pastNs t then !s.boot.bank else s.boot.bank
  | none => s.boot.bank

/-- One TIDE cycle: the counter runs where the TIDE PLL has locked (R264). -/
def State.tick (s : State) : State :=
  if s.clk.tideLock then { s with td := { s.td with raw := (s.td.raw + 1) % 2 ^ 64 } } else s

/-! ### The radio frame grid (R271) -/

/-- R271: the GPS epoch on the PTP timescale, ns. -/
def gps0 : Int := 315964819 * 10 ^ 9

/-- TD_FRAME_OFS as a signed number. -/
def State.frameOfs (s : State) : Int := ofBits 32 (s.regN (tdBlock + 0x00C))

/-- The start of radio frame n since GPS0, ns. -/
def State.frameStart (s : State) (n : Int) : Int := gps0 + s.frameOfs + n * 10 ^ 7

/-- R271: ns of a slot of numerology μ. -/
def slotNs (mu : Nat) : Nat := if mu = 0 then 1000000 else 500000

/-- R271: slots of numerology μ in a frame. -/
def slotsPerFrame (mu : Nat) : Nat := if mu = 0 then 10 else 20

/-- R271: TIDE cycles from a slot's start to symbol l. -/
def symCycles (mu l : Nat) : Nat :=
  if mu = 0 then
    l * 70144 + (if l = 0 then 0 else 512) + (if 7 < l then 512 else 0)
  else l * 35072 + (if l = 0 then 0 else 512)

/-- Times on the grid, in units of 1/3,072 ns: exact multiples of a nominal TIDE cycle (R271). -/
def fine (ns : Int) : Int := ns * 3072

/-- T_sym: symbol l of slot k of frame n, in units of 1/3,072 ns. -/
def State.tSym (s : State) (mu : Nat) (n : Int) (k l : Nat) : Int :=
  fine (s.frameStart n + k * slotNs mu) + symCycles mu l * 3125

/-- C in units of 2⁻¹⁶/3,072 ns beside a fine time: C is at or after the fine time x. -/
def cPast (c : Nat) (x : Int) : Bool := decide (x * 2 ^ 16 ≤ (c : Int) * 3072)

/-- The least C at or after a fine time. -/
def cOfFine (x : Int) : Int := -((-(x * 2 ^ 16)) / 3072)

/-- T is a 10 ms radio-frame boundary (R271). -/
def State.isFrame (s : State) (t : Nat) : Bool := ((t : Int) - gps0 - s.frameOfs) % 10 ^ 7 == 0

/-- The first frame boundary at or after t ns. -/
def State.frameAt (s : State) (t : Int) : Int :=
  s.frameStart (-((-(t - gps0 - s.frameOfs)) / 10 ^ 7))

end Sys2Proof.Machine
end

