-- ==== Sys2Proof/Machine/Bank.lean ====
section
/-! DEFINITION.  Chapter 05: what a bank does with accesses and atomics, ECC, and the Dredge. -/

namespace Sys2Proof.Machine

/-- R98: offset of a register of die d's BK page. -/
def bkReg (d : Die) (o : Nat) : Nat := bkBlock + 0x10000 * d.index + o

/-- R98, R462: that die's Pilot cores, HD Pilot cores and the PF may write the page while it answers. -/
def State.bkMayWrite (s : State) (m : Agent) (d : Die) : Bool :=
  s.coreMayWrite m d || (s.hdOrPf m && s.dieOn d)

/-- R92: banks of a die. -/
def bankCount : Die → Nat
  | .gd _ => 12288 | .hd => 1024 | _ => 3072

/-- R100: the collision rule of a bank; GD has none, and no write collision can occur there. -/
def State.bankRule (s : State) (d : Die) (bank : Nat) : Nat :=
  s.regB (bkReg d (0x4000 + 4 * (bank / 16))) (2 * (bank % 16) + 1) (2 * (bank % 16))

/-- R99, R100: whether the access of master m on its port wins over the rival's. -/
def portWins (rule : Nat) (p : Port) (m r : Nat) : Bool :=
  match rule with
  | 0 => p == .a
  | 1 => p == .b
  | _ => if m = r then p == .a else decide (m < r)

/-! ### Port B (R94, R95) -/

/-- R79, R94: the access is the read of the bank's own Drip lane. -/
def BankOp.isLane : BankOp → Bool
  | .laneRead => true
  | _ => false

/-- R94: the port a request uses on a die's banks. -/
def BankReq.port (q : BankReq) (d : Die) : Port := portOf d q.master q.op.isLane

/-- R95: a request's class: the one it came over the ring in, or a local master's own; 3 is the Dredge. -/
def BankReq.cls (q : BankReq) (d : Die) : Nat :=
  if q.master = 0x1F0 + d.index then 3
  else if masterDie q.master ≠ d then q.ring.code
  else if isRadioEngine q.master then 0
  else if isCore q.master then 1 else 2

/-- The key of a bank's turn in a class. -/
def turnKey (d : Die) (bank cls : Nat) : Nat := 4 * (16384 * d.index + bank) + cls

/-- How far a master is from the one whose turn it is. -/
def turnDist (turn m : Nat) : Nat := (m + 512 - turn) % 512

/-- R95: the request that port B of a bank serves among those that wait: a Dredge request that has waited 16 cycles, else
one of the highest class; within one class round-robin, which goes up the master identifiers from the one served last
(log 129). -/
def State.portBPick (s : State) (d : Die) (bank : Nat) (qs : List BankReq) : Option BankReq :=
  match qs.find? (fun q => q.cls d == 3 && decide (16 ≤ q.waited)) with
  | some q => some q
  | none =>
    ([0, 1, 2, 3].find? (fun c => qs.any (fun q => q.cls d == c))).bind (fun c =>
      let turn := tget 0 s.bk.turn (turnKey d bank c)
      (qs.filter (fun q => q.cls d == c)).foldl (fun best q =>
        match best with
        | none => some q
        | some b => if turnDist turn q.master < turnDist turn b.master then some q else best) none)

/-- The request is accepted in this bank cycle: port A takes it, and port B where it is the one to serve among those that
wait beside it. -/
def State.granted (s : State) (d : Die) (bank : Nat) (q : BankReq) (port : Port) (others : List BankReq) : Bool :=
  port == .a || s.portBPick d bank (q :: others) == some q

/-- Record the answer a master received. -/
def State.answer (s : State) (m : Nat) (st : BankStatus) (data : DWord) : State :=
  { s with bk := { s.bk with rsp := tset {} s.bk.rsp m { status := st, data := data } } }

/-- R110: arm the writeback of a word's corrected data. -/
def State.armWriteback (s : State) (k : Nat) : State :=
  { s with bk := { s.bk with writeback := k :: s.bk.writeback.filter (· ≠ k) } }

/-- The 64-bit word at a storage key. -/
def State.wordAt (s : State) (k : Nat) : DWord := BitVec.ofNat 64 (leNat (rdBytes s.mem k 8))

/-- R425: an uncorrectable error in the Bonded store, which is HD's, is fatal. -/
def State.bondedError (s : State) (k : Nat) : State := if bonded k then s.raiseFatal 8 9 else s

/-- R110, R111: read a word: corrected data with one bit in error; unspecified data (free) and a report
with two or more. -/
def State.readWord (s : State) (m k : Nat) : State × BankStatus × DWord :=
  if s.wordErr k = 0 then (s, .ok, s.wordAt k)
  else if s.wordBad k then
    (((s.eccReport m k true).drew 1).bondedError k, .ecc, BitVec.ofNat 64 s.freeNat)
  else ((s.eccReport m k false).armWriteback k, .corrected, s.wordAt k)

/-- A word with the bytes that a mask enables replaced (R93). -/
def mergeWord (old new : DWord) (mask : BitVec 8) : DWord :=
  BitVec.ofNat 64 (leNat ((List.range 8).map (fun i =>
    if mask.getLsbD i then BitVec.ofNat 8 (new.toNat / 256 ^ i) else BitVec.ofNat 8 (old.toNat / 256 ^ i))))

/-- Store a word with fresh check bits (R109). -/
def State.putWord (s : State) (k : Nat) (v : DWord) : State :=
  { s with
    mem := wrBytes s.mem k (leBytes 8 v.toNat)
    bk := { s.bk with err := tset 0 s.bk.err k 0, writeback := s.bk.writeback.filter (· ≠ k) } }

/-- R93, R111: write a word: a partial write reads first, and fails on an uncorrectable word. -/
def State.writeWord (s : State) (m k : Nat) (mask : BitVec 8) (data : DWord) : State × BankStatus :=
  if mask = 0xFF then (s.putWord k data, .ok)
  else
    let r := s.readWord m k
    if r.2.1 = .ecc then (r.1, .ecc) else (r.1.putWord k (mergeWord r.2.2 data mask), r.2.1)

/-- R102: what a discarded write does beside its COLLIDE status. -/
def State.collided (s : State) (d : Die) (m : Nat) : State :=
  let s := s.count (bkReg d (0x8800 + 4 * m)) 1
  let s := if m = 0x120 then s.count (hiBlock + 0x020) 1 else s
  if 0x080 ≤ m ∧ m ≤ 0x0AB then
    { s with bk := { s.bk with coreCollide := m :: s.bk.coreCollide.filter (· ≠ m) } }
  else s

/-- The parts of a write of n bytes at a that fall into each 64-bit word. -/
def wordChunks (a : Nat) (bs : List Byte) : List (Nat × List Byte) :=
  (List.range (ceilDiv (a % 8 + bs.length) 8)).map (fun i =>
    let lo := max a (a / 8 * 8 + 8 * i)
    let hi := min (a + bs.length) (a / 8 * 8 + 8 * i + 8)
    (lo, (bs.drop (lo - a)).take (hi - lo)))

/-- R94, R99: a word of a write that starts at c, named in `lost`, can lose a collision: none can on a GD bank, nor on HBM. -/
def losable (lost : List PAddr) (c : Nat) : Bool :=
  lost.any (fun w => w.toNat / 8 == c / 8) &&
  match place c with
  | .sram (.gd _) _ => false
  | .sram _ _ => true
  | _ => false

/-- Some word of a write loses its collision. -/
def losesWord (a : Nat) (bs : List Byte) (lost : List PAddr) : Bool := (wordChunks a bs).any (fun c => losable lost c.1)

/-- R99, R102: a write by master m of which the words in `lost` have lost a collision: each is discarded by itself and
counted. -/
def State.storeLost (s : State) (m a : Nat) (bs : List Byte) (lost : List PAddr) : State :=
  if lost.isEmpty then s.store a bs
  else (wordChunks a bs).foldl (fun s c =>
    match losable lost c.1, place c.1 with
    | true, .sram d _ => s.collided d m
    | _, _ => s.store c.1 c.2) s

/-- One access to a word, answered. -/
def State.doAccess (s : State) (m k : Nat) (op : BankOp) : State :=
  match op with
  | .read | .laneRead => let r := s.readWord m k; r.1.answer m r.2.1 r.2.2
  | .write mask data => let r := s.writeWord m k mask data; r.1.answer m r.2 0

/-- R99: two accesses of different ports to one word in one bank cycle. -/
def State.meet (s : State) (d : Die) (bank k : Nat) (q r : BankReq) : State :=
  match q.op, r.op with
  | .write _ _, .write _ _ =>
    if portWins (s.bankRule d bank) (q.port d) q.master r.master then
      ((s.doAccess q.master k q.op).answer r.master .collide 0).collided d r.master
    else ((s.doAccess r.master k r.op).answer q.master .collide 0).collided d q.master
  | .write _ _, _ => (s.doAccess r.master k r.op).doAccess q.master k q.op
  | _, _ => (s.doAccess q.master k q.op).doAccess r.master k r.op

/-- R106: an access that waited at least one bank cycle. -/
def State.waitedAt (s : State) (d : Die) (m : Nat) (waited : Bool) : State :=
  if waited then s.count (bkReg d (0x8000 + 4 * m)) 1 else s

/-- Stored bits of a word that flipped since its last access. -/
def State.upset (s : State) (k : Nat) (u : BitVec 72) : State := s.setErr k (s.wordErr k ^^^ u)

/-- R413, R418: an access of a fenced core: a write is discarded and counted, a read returns 0; the Bonded store answers
ADDRESS. -/
def State.answerFenced (s : State) (m a : Nat) (write : Bool) : State :=
  (if write then s.countFenced else s).answer m (if bonded a then .address else .ok) 0

/-- R93: the access writes. -/
def BankOp.isWrite : BankOp → Bool
  | .read | .laneRead => false
  | .write _ _ => true

/-! ### The Dredge's shadow (R112, R113) -/

def State.dredgeOf (s : State) (d : Die) : Dredge := tget {} s.bk.dredge d.index

def State.setDredge (s : State) (d : Die) (x : Dredge) : State :=
  { s with bk := { s.bk with dredge := tset {} s.bk.dredge d.index x } }

/-- R113: word i of the active region is copied to the shadow: the Dredge reads it, and a word with one bit in error has
correct check bits from then on. -/
def State.copyWord (s : State) (d : Die) (i : Nat) : State :=
  let x := s.dredgeOf d
  let k := wordKey d x.bank (512 * x.region + i)
  let t := s.setDredge d { x with shadow := i :: x.shadow }
  if s.wordErr k = 0 then t
  else
    let t := t.eccReport (0x1F0 + d.index) k (s.wordBad k)
    if s.wordBad k then t.bondedError k else t.setErr k 0

/-- R113: an access to a word of the active region that is not copied yet copies it first, and is served from the shadow. -/
def State.redirect (s : State) (d : Die) (bank word : Nat) : State :=
  let x := s.dredgeOf d
  if x.phase = .copy ∧ x.bank = bank ∧ x.region = word / 512 ∧ x.shadow.contains (word % 512) = false then
    s.copyWord d (word % 512)
  else s

/-- R113: the word that holds a storage key is in the shadow of its die's Dredge. -/
def State.inShadow (s : State) (k : Nat) : Bool :=
  match bankOf k with
  | some (d, bank, word) =>
    let x := s.dredgeOf d
    x.phase != .idle && x.bank == bank && x.region == word / 512 && x.shadow.contains (word % 512)
  | none => false

/-- The storage key lies in HD's SRAM. -/
def inHd (k : Nat) : Bool := match place k with
  | .sram .hd _ => true
  | _ => false

/-! ### Accesses (R93 to R106) -/

/-- A master that issues nothing: a stop halts its unit (R451), or it is a Pilot core whose BASE island is not ON (R27). -/
def State.masterDown (s : State) (m : Nat) : Bool := s.masterHalted m || (isCore m && !s.dieOn (masterDie m))

/-- A bank accepts a request: its wait is counted (R106), port B's turn passes on (R95), and a word under test is copied
first (R113). -/
def State.accept (s : State) (d : Die) (bank word : Nat) (q : BankReq) (port : Port) : State :=
  let t := s.waitedAt d q.master (decide (0 < q.waited))
  let t := if port = .b then
      { t with bk := { t.bk with turn := tset 0 t.bk.turn (turnKey d bank (q.cls d)) ((q.master.val + 1) % 512) } }
    else t
  t.redirect d bank word

/-- R101, R413: the request reaches a bank word. -/
def State.performs (s : State) (q : BankReq) (a : Nat) : Bool :=
  !s.fencedAccess q.master a && s.accessStatus q.master a == .ok

/-- A request on its own: a fenced core's is answered as R413 says, one that cannot be performed with its status (R101),
one that port B does not serve goes on waiting, and any other is performed by f. -/
def State.alone (s : State) (q : BankReq) (port : Die → Port) (others : List BankReq) (a : Nat) (write : Bool)
    (f : Die → State → State) : State :=
  if s.fencedAccess q.master a then s.answerFenced q.master a write
  else match s.accessStatus q.master a, bankOf (s.key (a / 8 * 8)) with
  | .ok, some (d, bank, word) =>
    if s.granted d bank q (port d) others then f d (s.accept d bank word q (port d)) else s
  | .ok, none => s
  | st, _ => s.answer q.master st 0

/-- A plain access on its own. -/
def State.access (s : State) (q : BankReq) (others : List BankReq) (a : Nat) : State :=
  s.alone q q.port others a q.op.isWrite (fun _ t => t.doAccess q.master (s.key (a / 8 * 8)) q.op)

/-- R93 to R106: a bank port accepts one 64-bit access.  `rival` is another request to the same word in the same cycle,
`others` are the requests that wait at port B of the bank, and the flips say which stored data and check bits of the word
have flipped since its last access. -/
def execBankAccess (q : BankReq) (addr : PAddr) (rival : Option BankReq) (others : List BankReq)
    (flips : DWord) (checkFlips : BitVec 8) (s : State) : Out :=
  let upset : BitVec 72 := checkFlips ++ flips
  let a := addr.toNat
  let k := s.key (a / 8 * 8)
  if s.masterDown q.master then .next s
  else
    let t := if s.performs q a && (bankOf k).isSome then s.upset k upset else s
    .next (match rival.filter (fun r => !s.masterDown r.master) with
      | none => t.access q others a
      | some r =>
        match t.performs q a && t.performs r a, bankOf k with
        | true, some (d, bank, word) =>
          if q.port d = r.port d then t.access q (r :: others) a
          else if t.granted d bank q (q.port d) others && t.granted d bank r (r.port d) others then
            ((t.accept d bank word q (q.port d)).accept d bank word r (r.port d)).meet d bank k q r
          else (t.access q others a).access r others a
        | _, _ => (t.access q others a).access r others a)

/-- R110: the corrected word is written back, unless another write reached it first. -/
def execEccWriteback (d : Die) (bank : Fin 12288) (word : Fin 32768) (s : State) : Out :=
  let k := wordKey d bank word
  onlyIf (decide (bank.val < bankCount d) && s.bk.writeback.contains k) s
    { s with bk := { s.bk with
      err := if s.wordBad k then s.bk.err else tset 0 s.bk.err k 0
      writeback := s.bk.writeback.filter (· ≠ k) } }

/-- R103, R104, R111: an atomic on the word at a key; `a` is its address.  Answers the state, the status
and the prior value.  A misaligned ADD_F32 under DETERMINISTIC is REFUSED: the spec does not say which of its two checks
comes first (DESIGN CHOICE, log 130).  On HBM, d is the prompt die that owns the stack: R486 does not say which die's
BK_ATOM_FAULT counts the refusal (DESIGN CHOICE, log 131). -/
def State.doAtomic (s : State) (d : Die) (m k a opc : Nat) (x : DWord) : State × BankStatus × DWord :=
  let half := a / 4 % 2
  let n := atomicBytes opc
  if opc = 0 ∨ 5 < opc ∨ a % n ≠ 0 then (s, .refused, 0)
  else if opc = 3 ∧ s.det.active = true then (s.count (bkReg d 0x0008) 1, .detFault, 0)
  else
    let r := s.readWord m k
    if r.2.1 = .ecc then (r.1, .ecc, 0)
    else
      let prior := if n = 8 then r.2.2.toNat else r.2.2.toNat / 2 ^ (32 * half) % 2 ^ 32
      match atomicOp opc prior x.toNat with
      | none => (s, .refused, 0)
      | some (_, v) =>
        let w := if n = 8 then v else withBits r.2.2.toNat (32 * half + 31) (32 * half) v
        (r.1.putWord k (BitVec.ofNat 64 w), r.2.1, BitVec.ofNat 64 prior)

/-- An atomic, answered; R104: a Pilot core takes DET_FAULT as a fault exception. -/
def State.atomicAnswered (s : State) (d : Die) (m k a opc : Nat) (x : DWord) : State :=
  let r := s.doAtomic d m k a opc x
  let t := r.1.answer m r.2.1 r.2.2
  if r.2.1 = .detFault ∧ isCore m = true then t.irqTo m .detFault else t

/-- R99, R103 to R105: a bank performs an atomic on port B, beside a rival access on port A. -/
def execBankAtomic (q : BankReq) (addr : PAddr) (opc : BitVec 4) (operand : DWord)
    (rival : Option BankReq) (others : List BankReq) (upset : BitVec 72) (s : State) : Out :=
  let a := addr.toNat
  let k := s.key (a / 8 * 8)
  let atom (d : Die) (s : State) : State := s.atomicAnswered d q.master k a opc.toNat operand
  let single (s : State) (others : List BankReq) : State := s.alone q (fun _ => .b) others a true atom
  if s.masterDown q.master then .next s
  else
    let t := if s.performs q a && (bankOf k).isSome then s.upset k upset else s
    .next (match rival.filter (fun r => !s.masterDown r.master) with
      | none => single t others
      | some r =>
        match t.performs q a && t.performs r a, bankOf k with
        | true, some (d, bank, word) =>
          if r.port d = .b then single t (r :: others)
          else if t.granted d bank q .b others then
            let u := (t.accept d bank word q .b).accept d bank word r .a
            if r.op.isWrite && portWins (s.bankRule d bank) .b q.master r.master then (atom d u).doAccess r.master k r.op
            else atom d (u.doAccess r.master k r.op)
          else t.access r others a
        | _, _ => (single t others).access r others a)

/-- R486: the atomic unit of the owning prompt die performs an atomic on an HBM word; `upset` says that
its read meets an uncorrectable error. -/
def execHbmAtomic (m : Fin 512) (addr : PAddr) (opc : BitVec 4) (operand : DWord) (upset : Bool)
    (s : State) : Out :=
  let a := addr.toNat
  match place a with
  | .hbm h _ =>
    if s.masterDown m then .next s
    else if s.addrStatus a = .ok then
      let d := Die.ofIndex (h / 2)
      if upset ∧ 0 < opc.toNat ∧ opc.toNat < 6 ∧ a % atomicBytes opc.toNat = 0 ∧
          ¬ (opc.toNat = 3 ∧ s.det.active = true) then
        .next (((s.count (pwBlock + 0x284 + 8 * h) 1).hiErr 0).answer m .ecc 0)
      else .next (s.atomicAnswered d m (a / 8 * 8) a opc.toNat operand)
    else .next (s.answer m .address 0)
  | _ => .next s

/-- R98: CLR_ECC clears BK_ECC_CORR and BK_ECC_UNC. -/
def execBkCtrlClrEcc (m : Agent) (d : Die) (s : State) : Out :=
  agentIf m (s.bkMayWrite m d) s (s.resetRegs (bkReg d 0x0100) (bkReg d 0x0108))

/-- R98, R442: CLR_CONF clears every BK_CONF and BK_COLL register, BK_ATOM_FAULT, BK_FP4_FB, BK_SAT_DRIP and
BK_SAT_VEC. -/
def execBkCtrlClrConf (m : Agent) (d : Die) (s : State) : Out :=
  agentIf m (s.bkMayWrite m d) s
    (((s.resetRegs (bkReg d 0x8000) (bkReg d 0x9000)).resetRegs (bkReg d 0x0008) (bkReg d 0x000C)).resetRegs
      (bkReg d 0x0300) (bkReg d 0x030C))

/-- R100: each 2-bit field takes the written rule; a field written 0b11 keeps its prior value. -/
def mergeRules (old new : Nat) : Nat → Nat
  | 0 => 0
  | n + 1 => mergeRules old new n +
      4 ^ n * (if new / 4 ^ n % 4 = 3 then old / 4 ^ n % 4 else new / 4 ^ n % 4)

/-- R100: BK_RULE registers of a die. -/
def ruleRegs : Die → Nat
  | .gd _ => 0 | .hd => 64 | _ => 192

/-- R100: a write of BK_RULE[i]; R108: HD firmware keeps what it wrote last. -/
def execBkRuleWrite (m : Agent) (d : Die) (i : Fin 192) (v : Word) (s : State) : Out :=
  let o := bkReg d (0x4000 + 4 * i)
  let t := s.setReg o (mergeRules (s.regN o) v.toNat 16)
  agentIf m (s.bkMayWrite m d && decide (i.val < ruleRegs d)) s
    (if m.isHd then { t with bk := { t.bk with fwRule := tput (some (t.reg o)) t.bk.fwRule o } } else t)

/-- R115: ENABLE = 0 lets the active region finish, then stops. -/
def execBkDrEnableWrite (m : Agent) (d : Die) (on : Bool) (s : State) : Out :=
  agentIf m (s.bkMayWrite m d) s (s.setReg (bkReg d 0x0200) (b2n on))

/-- R112: the region after this one; the Bool says that a pass over the die is complete.  After the test of an owed region
the cursor goes back to where it was (R114). -/
def Dredge.advance (x : Dredge) (d : Die) : Dredge × Bool :=
  match x.back with
  | some b => ({ x with bank := b.1, region := b.2, back := none }, false)
  | none =>
  if x.region < 63 then ({ x with region := x.region + 1 }, false)
  else if x.bank + 1 < bankCount d then ({ x with region := 0, bank := x.bank + 1 }, false)
  else ({ x with region := 0, bank := 0 }, true)

/-- R112: storage keys of the words of the region at the cursor. -/
def Dredge.keys (x : Dredge) (d : Die) : List Nat :=
  (List.range 512).map (fun i => wordKey d x.bank (512 * x.region + i))

/-- R112, R418: the region at the cursor can be tested: its island is ON, and it lies outside the Bonded store while that
is inaccessible. -/
def State.dredgeable (s : State) (d : Die) (x : Dredge) : Bool :=
  let k := wordKey d x.bank (512 * x.region)
  s.islOn (keyIsland k) && (s.bondedOpen || !bonded k)

/-- R114: a region that is owed a test is taken first once its island is ON. -/
def State.dredgeNext (s : State) (d : Die) : Dredge :=
  let x := s.dredgeOf d
  match x.owed.find? (fun r => s.dredgeable d { x with bank := r.1, region := r.2 }) with
  | some r => { x with bank := r.1, region := r.2, back := some (x.back.getD (x.bank, x.region)) }
  | none => x

/-- R112, R114: the next region is redirected to the shadow and its copy begins, no sooner than
BK_DR_PACE after the last start (log 17); a region that cannot be tested is skipped and counted. -/
def execDredgeRegionStart (d : Die) (s : State) : Out :=
  unlessHalted s .inference <|
  let x := s.dredgeOf d
  let due := x.lastStart + ceilDiv (s.regB (bkReg d 0x0204) 15 0 * 98304) 10
  let r := if x.started then s.reachRaw due else s
  let go := s.dieOn d && s.regBit (bkReg d 0x0200) 0 && x.phase == .idle &&
    (!x.started || decide (due ≤ r.td.raw))
  let n := s.dredgeNext d
  if s.dredgeable d n then
    onlyIf go s (r.setDredge d { n with phase := .copy, shadow := [], started := true, lastStart := r.td.raw })
  else
    let y := n.advance d
    let t := (r.setDredge d y.1).count (bkReg d 0x0210) 1
    onlyIf go s (if y.2 then t.count (bkReg d 0x020C) 1 else t)

/-- R113: every word that no access has copied is copied now. -/
def execDredgeCopyDone (d : Die) (s : State) : Out :=
  unlessHalted s .inference <|
  let x := s.dredgeOf d
  let t := ((List.range 512).filter (fun i => !x.shadow.contains i)).foldl (fun s i => s.copyWord d i) s
  onlyIf (x.phase == .copy) s (t.setDredge d { t.dredgeOf d with phase := .march })

/-- R115: count one failing word, log it if no failure is logged, and report it. -/
def State.marchFailed (s : State) (d : Die) (x : Dredge) (f : MarchFail) : State :=
  let s := s.count (bkReg d 0x021C) 1
  let bank := 16384 * d.index + x.bank
  let s := { s with bk := { s.bk with failBanks := if s.bk.failBanks.contains bank then s.bk.failBanks else s.bk.failBanks ++ [bank] } }
  let s := if s.regBit (bkReg d 0x0214) 31 then s
    else (s.setReg (bkReg d 0x0214) (2 ^ 31 + x.bank * 0x8000 + 512 * x.region + f.word)).setReg
      (bkReg d 0x0218) (b2n f.expect * 128 + f.bit)
  ((s.setReg (bkReg d 0x0004) (s.regN (bkReg d 0x0004) ||| 4)).irqTo
    (irqCore d (s.regB (bkReg d 0) 5 4)) .dredge).hiErr 1

/-- The march reads that failed, one for each word: its first. -/
def failedWords (fails : List MarchFail) : List MarchFail :=
  fails.foldl (fun l f => if l.any (fun g => g.word == f.word) then l else l ++ [f]) []

/-- R113, R115: the march test ends with the failing words it found, and the restore begins. -/
def execDredgeMarchDone (d : Die) (fails : List MarchFail) (s : State) : Out :=
  unlessHalted s .inference <|
  let x := s.dredgeOf d
  onlyIf (x.phase == .march) s
    ((failedWords fails).foldl (fun s f => s.marchFailed d x f) (s.setDredge d { x with phase := .restore }))

/-- R112, R113: every word is restored, the redirect is removed, and the cursor moves on. -/
def execDredgeRegionDone (d : Die) (s : State) : Out :=
  unlessHalted s .inference <|
  let x := s.dredgeOf d
  let y := { x with phase := .idle, shadow := [], owed := x.owed.filter (· ≠ (x.bank, x.region)) : Dredge }.advance d
  let t := s.setDredge d y.1
  onlyIf (x.phase == .restore) s (if y.2 then t.count (bkReg d 0x020C) 1 else t)

end Sys2Proof.Machine
end

