-- ==== Sys2Proof/Machine/Trace.lean ====
section
/-! DEFINITION.  The trace ring (R444 to R446) and which units a global stop halts (R451). -/

namespace Sys2Proof.Machine

/-- HM_TRC_CFG. -/
def trcCfg : Nat := hmBlock + 0x6004

/-- R444: a 32-byte record of an event that happens now. -/
def State.traceRec (s : State) (kind unit layer op fn arg : Nat) : List Byte :=
  leBytes 8 s.td.raw ++ leBytes 8 s.T ++ leBytes 1 kind ++ [0] ++ leBytes 2 unit ++ leBytes 2 layer ++
  leBytes 2 op ++ leBytes 2 fn ++ leBytes 6 arg

/-- R455: records of the ring. -/
def State.traceSize (s : State) : Nat := 2 ^ (min 12 (s.regB (hmBlock + 0x6000) 3 0) + 8)

/-- R446: there is room in the ring; WRAP overwrites.  DEDUCED (log 29): a STOP ring is full at the number
of records HM_OBS_CTRL gives it. -/
def State.traceRoom (s : State) : Bool :=
  !s.regBit trcCfg 29 ||
  decide ((s.obs.wr + 2 ^ 32 - s.regN (hmBlock + 0x6014)) % 2 ^ 32 < s.traceSize)

/-- Write one record at HM_TRC_WR. -/
def State.tracePut (s : State) (r : List Byte) : State :=
  let base := s.reg64 (hmBlock + 0x6008) (hmBlock + 0x600C)
  let t := s.store (base + 32 * (s.obs.wr % s.traceSize)) r
  { t with obs := { t.obs with wr := (s.obs.wr + 1) % 2 ^ 32 } }

/-- R446: a record finds no room. -/
def State.traceLost (s : State) : State :=
  let t := s.count (hmBlock + 0x6018) 1
  { t with obs := { t.obs with lost := t.obs.lost + 1 } }

/-- R446: the record is written, preceded by a 0x3F record after a loss, or lost. -/
def State.traceWrite (s : State) (r : List Byte) : State :=
  if !s.traceRoom then s.traceLost
  else
    let t := if s.obs.lost = 0 then s
      else
        let u := s.tracePut (s.traceRec 0x3F 0x121 0xFFFF 0xFFFF 0x3FF (min 0xFFFFFFFF s.obs.lost))
        { u with obs := { u.obs with lost := 0 } }
    if t.traceRoom then t.tracePut r else t.traceLost

/-- R455: the bit of HM_TRC_CFG.KINDS that selects a kind. -/
def kindBit (kind : Nat) : Nat :=
  match kind with
  | 1 | 2 => 0 | 3 => 1 | 4 => 2 | 5 | 6 | 7 => 3 | 8 => 4 | 0x10 | 0x11 => 5 | _ => 6

/-- R445: a trace record of a selected kind and function. -/
def State.trace (s : State) (kind unit layer op fn arg : Nat) : State :=
  let f := s.regB trcCfg 23 14
  let anyFn := kind == 4 || kind == 8 || kind == 0x10 || kind == 0x11 || kind == 0x30
  if s.regBit trcCfg 31 && s.regBit trcCfg (kindBit kind) && (anyFn || f == 0x3FF || f == fn) then
    s.traceWrite (s.traceRec kind unit layer op fn arg)
  else s

/-- R445, R455: a Zelic message with this tag is traced. -/
def State.traceTag (s : State) (tag : Nat) : Bool := tag % 2 ^ min 17 (s.regB trcCfg 28 24) == 0

/-! ### What arrives during a stop (R452) -/

/-- TD_GS_CTRL. -/
def gsCtrl : Nat := tdBlock + 0x1000

/-- R452: one capture: a 16-byte header and the transfer or message, written to the buffer, or dropped where it does
not fit. -/
def State.capture (s : State) (c : Capture) (zelic : Bool) (src cls : Nat) (bs : List Byte) : State :=
  let n := 16 + bs.length
  if s.regB (tdBlock + 0x1014) 15 0 * 2 ^ 20 < s.obs.used + n then
    let t := s.setReg gsCtrl (s.regN gsCtrl ||| 0x80)
    { t with obs := { t.obs with dropped := min 0xFFFF (t.obs.dropped + 1) } }
  else
    let hdr := leBytes 1 (b2n zelic) ++ leBytes 1 src ++ leBytes 1 cls ++ [0] ++ leBytes 4 bs.length ++ leBytes 8 s.td.raw
    let t := s.store (s.reg64 (tdBlock + 0x100C) (tdBlock + 0x1010) + s.obs.used) (hdr ++ bs)
    { t with obs := { t.obs with used := t.obs.used + n, captures := t.obs.captures ++ [c] } }

end Sys2Proof.Machine
end

