-- ==== Sys2Proof/Machine/EqOps.lean ====
section
/-! DEFINITION.  The queues of the egress schedulers: charged length, tags, credit (R317 to R323). -/

namespace Sys2Proof.Machine

/-! ### Queues and egresses by key -/

def EqId.key : EqId → Nat
  | .fh p q => 2048 * p.val + q.val
  | .zl z q => 16384 + 256 * z.val + q.val

def EgId.key : EgId → Nat
  | .fh p k => 4 * p.val + k.val
  | .zl z => 32 + z.val

/-- FH_PORT_CFG.SPLIT (R207). -/
def State.split (s : State) (p : Nat) : Bool := s.regBit (fhBlock + 0x020 + 4 * p) 1

/-- The egress a queue sends on: with SPLIT, queue q belongs to sub-port q div 512 (R317). -/
def State.egOf (s : State) (key : Nat) : Nat :=
  if key < 16384 then 4 * (key / 2048) + (if s.split (key / 2048) then key % 2048 / 512 else 0)
  else 32 + (key - 16384) / 256

/-- The block of EQ registers of a queue (R328). -/
def eqReg (key o : Nat) : Nat :=
  (if key < 16384 then fhBlock + 0x40000 + 0x8000 * (key / 2048) + 0x10 * (key % 2048)
   else zlBlock + 0x40000 + 0x1000 * ((key - 16384) / 256) + 0x10 * ((key - 16384) % 256)) + o

def State.eqOf (s : State) (key : Nat) : EqQueue := tget {} s.eg.queues key
def State.setEq (s : State) (key : Nat) (x : EqQueue) : State :=
  { s with eg := { s.eg with queues := tset {} s.eg.queues key x } }

/-- R322: a queue's level and weight. -/
def State.eqPrio (s : State) (key : Nat) : Nat := s.regB (eqReg key 0) 17 16
def State.eqWeight (s : State) (key : Nat) : Nat := s.regB (eqReg key 0) 15 0

def State.sendingOf (s : State) (e : Nat) : Option Sending := tget none s.eg.sending e
def State.setSending (s : State) (e : Nat) (x : Option Sending) : State :=
  { s with eg := { s.eg with sending := tset none s.eg.sending e x } }

/-! ### Charged length (R320) -/

/-- R320: charged length of a fronthaul frame, in 2⁻¹⁶ byte. -/
def State.fhLen (s : State) (p bytes : Nat) : Nat := (bytes + s.regB (fhBlock + 0x30000 + 4 * p) 7 0) * 2 ^ 16

/-- R320: charged length of a Zelic message of a body, in 2⁻¹⁶ byte. -/
def State.zlLen (s : State) (z body : Nat) : Nat :=
  body * 2 ^ 16 + body * s.regB (zlBlock + 0x30000 + 4 * z) 7 0 * 2 ^ 8

/-- Body bytes of a message: its header and its data. -/
def ZlMsg.body (m : ZlMsg) : Nat := 32 + m.data.length

/-- The charged length held in a queue, the frame being sent included. -/
def EqQueue.depth (x : EqQueue) : Nat := (x.items.map (·.len)).sum

/-- Line rate of an egress in half bytes per ns (R320). -/
def State.line2 (s : State) (e : Nat) : Nat := if 32 ≤ e then 200 else if s.split (e / 4) then 25 else 100

/-! ### The credit shaper (R323) -/

/-- EQ_RATE in Mb/s. -/
def State.eqRate (s : State) (key : Nat) : Nat := s.regN (eqReg key 4)

/-- HICREDIT in units of 2⁻¹⁶/3 byte. -/
def State.eqHi (s : State) (key : Nat) : Int := (s.regN (eqReg key 8) * 3 * 2 ^ 16 : Nat)

/-- R323: unshaped: RATE is 0, or at or above the line rate. -/
def State.unshaped (s : State) (key : Nat) : Bool :=
  s.eqRate key == 0 || decide (4000 * s.line2 (s.egOf key) ≤ s.eqRate key)

/-- The queue's head is being sent. -/
def State.isSending (s : State) (key : Nat) : Bool :=
  match s.sendingOf (s.egOf key) with
  | some x => x.queue == key
  | none => false

/-- R323: the credit now: a TIDE cycle adds 25 · RATE units (DESIGN CHOICE, log 47: the egress clock is counted in
TIDE cycles).  While the queue's head is being sent the credit stands; the end of the frame settles it. -/
def State.creditNow (s : State) (key : Nat) : EqQueue :=
  let x := s.eqOf key
  if s.isSending key then x
  else
    let gain : Int := ((s.td.raw - x.at_) * s.eqRate key * 25 : Nat)
    let c : Int :=
      if s.eqRate key = 0 then x.credit
      else if !x.items.isEmpty then min (x.credit + gain) (s.eqHi key)
      else if 0 < x.credit then 0
      else min (x.credit + gain) 0
    { x with credit := c, at_ := s.td.raw }

/-- Bring a queue's credit up to now. -/
def State.creditUp (s : State) (key : Nat) : State := s.setEq key (s.creditNow key)

/-! ### Tags (R322) -/

/-- R322: virtual time of the level of a queue. -/
def State.vTime (s : State) (key : Nat) : Nat := tget 0 s.eg.v (4 * s.egOf key + s.eqPrio key)

/-- Tags are compared modulo 2⁶⁴: a is before b. -/
def tagBefore (a b : Nat) : Bool := decide (2 ^ 63 ≤ (a + 2 ^ 64 - b) % 2 ^ 64)

/-- The later of two tags. -/
def tagMax (a b : Nat) : Nat := if tagBefore a b then b else a

/-- R322: a frame reaches the head of a queue; waking says that the queue held none before it. -/
def State.tagHead (s : State) (key : Nat) (waking : Bool) : State :=
  let x := s.eqOf key
  match x.items.head? with
  | none => s
  | some i =>
    let st := if waking then tagMax (s.vTime key) x.f else x.f
    s.setEq key { x with s := st, f := (st + i.len / s.eqWeight key) % 2 ^ 64 }

/-- A descriptor enters a queue. -/
def State.eqPush (s : State) (key : Nat) (i : EqItem) : State :=
  let s := s.creditUp key
  let x := s.eqOf key
  let t := s.setEq key { x with items := x.items ++ [i] }
  if x.items.isEmpty then t.tagHead key true else t

/-- The descriptor at position i leaves a queue; the frame behind a head becomes the head. -/
def State.eqDrop (s : State) (key i : Nat) : State :=
  let s := s.creditUp key
  let x := s.eqOf key
  let t := s.setEq key { x with items := x.items.eraseIdx i }
  if i = 0 then t.tagHead key false else t

/-- R327: a queue is emptied: its credit is 0 and f is v. -/
def State.eqClear (s : State) (key : Nat) : State :=
  let x := s.eqOf key
  s.setEq key { x with items := [], credit := 0, f := s.vTime key, at_ := s.td.raw }

/-- The queues of an egress that hold something, lowest first. -/
def State.eqBusy (s : State) (e : Nat) : List Nat :=
  (s.eg.queues.filter (fun q => s.egOf q.1 == e && !q.2.items.isEmpty)).map (·.1)

/-- The queues of an egress that have held something since reset. -/
def State.eqAll (s : State) (e : Nat) : List Nat := (s.eg.queues.filter (fun q => s.egOf q.1 == e)).map (·.1)

/-- The queues of a port, with its sub-ports, that hold something. -/
def State.portQueues (s : State) (p : Nat) : List Nat :=
  (s.eg.queues.filter (fun q => decide (q.1 < 16384) && q.1 / 2048 == p && !q.2.items.isEmpty)).map (·.1)

/-! ### Fronthaul frames -/

/-- R319: frame descriptors in use on a port. -/
def State.fhDescs (s : State) (p : Nat) : Nat := ((s.portQueues p).map (fun k => (s.eqOf k).items.length)).sum

/-- R319: producers that wait get descriptors, oldest first. -/
def State.fhAdmit (s : State) (p : Nat) : State :=
  let room := 16384 - s.fhDescs p
  let mine := s.eg.wait.filter (fun x => x.1 / 2048 == p)
  let go := mine.take room
  let t := { s with eg := { s.eg with wait := s.eg.wait.filter (fun x => x.1 / 2048 != p) ++ mine.drop room } }
  go.foldl (fun t x => t.eqPush x.1 x.2) t

/-- R324: the frame's release time has come. -/
def State.released (s : State) (i : EqItem) : Bool :=
  match i.rel with
  | some x => cPast s.now x
  | none => true

/-- R324: the frame's deadline has come. -/
def State.late (s : State) (i : EqItem) : Bool :=
  match i.dead with
  | some x => cPast s.now x
  | none => false

/-! ### Cells (R234) -/

/-- One row of R234: numerology, PRB_max, transmit and receive streams, units in hundredths, and
fronthaul in hundredths of Gb/s. -/
structure CellConfig where
  mu : Nat
  prbMax : Nat
  tx : Nat
  rx : Nat
  units : Nat
  rate : Nat
  deriving DecidableEq, Repr

/-- R234. -/
def CellConfig.ofCode (c : Nat) : Option CellConfig :=
  match c with
  | 1 => some ⟨1, 273, 4, 4, 100, 690⟩
  | 2 => some ⟨1, 273, 4, 4, 145, 690⟩
  | 3 => some ⟨1, 273, 8, 8, 250, 1380⟩
  | 4 => some ⟨1, 273, 8, 8, 220, 1380⟩
  | 5 => some ⟨1, 273, 16, 16, 550, 2760⟩
  | 6 => some ⟨0, 106, 4, 4, 20, 135⟩
  | 7 => some ⟨0, 106, 2, 2, 10, 68⟩
  | 8 => some ⟨0, 106, 4, 4, 30, 135⟩
  | _ => none

/-- The configuration of an admitted cell. -/
def Cell.conf (c : Cell) : CellConfig := (CellConfig.ofCode c.config).getD ⟨1, 273, 0, 0, 0, 0⟩

def Cell.mu (c : Cell) : Nat := c.conf.mu

/-! ### Results of slots (R229) -/

/-- R429: the cell is armed and has not been taken. -/
def State.muted (s : State) (cell : Nat) : Bool := s.fh.stby.any (fun (e : Nat × Standby) => e.2.muted.contains cell)

/-- R431: a slot of the cell says nothing to the outside: the cell is armed and not taken, or the slot began before it was
taken. -/
def State.silent (s : State) (cell frame slot : Nat) : Bool :=
  s.muted cell || match s.fh.active with
    | some p => (p.cells.find? (fun c => c.cell == cell)).any (fun c =>
        decide (s.frameStart frame + slot * slotNs c.mu < tget 0 s.fh.taken cell))
    | none => false

/-- R229: the note of a slot and direction. -/
def State.noteOf (s : State) (cell frame slot : Nat) (up : Bool) : Option SlotNote :=
  s.fh.notes.find? (fun n => n.cell == cell && n.frame == frame && n.slot == slot && n.uplink == up)

/-- R229: a note of a slot and direction, where there is none yet. -/
def State.addNote (s : State) (cell frame slot : Nat) (up late : Bool) : State :=
  if (s.noteOf cell frame slot up).isSome then s
  else
    let n : SlotNote := { cell := cell, frame := frame, slot := slot, uplink := up, late := late }
    { s with fh := { s.fh with notes := s.fh.notes ++ [{ n with posted := !s.silent cell frame slot }] } }

/-- R229: the result of the slot tells the host of a downlink symbol that was not sent. -/
def State.symbolLost (s : State) (k : Option (Nat × Nat × Nat × Nat)) : State :=
  match k with
  | none => s
  | some (c, f, n, l) =>
    let t := s.addNote c f n false false
    { t with fh := { t.fh with notes := t.fh.notes.map (fun x =>
        if x.cell = c ∧ x.frame = f ∧ x.slot = n ∧ x.uplink = false ∧ ¬ x.lost.contains l then { x with lost := x.lost ++ [l] }
        else x) } }

/-- FH_TX_LATE. -/
def fhTxLate : Nat := fhBlock + 0x114

/-- R324: the frames of a queue that are late, the one being sent excepted, leave it and are counted. -/
def State.dropLate (s : State) (key : Nat) : State :=
  let x := s.eqOf key
  let keep (i : EqItem × Nat) : Bool := (i.2 == 0 && s.isSending key) || !s.late i.1
  let kept := (x.items.zipIdx.filter keep).map (·.1)
  let n := x.items.length - kept.length
  if n = 0 then s
  else
    let s := s.creditUp key
    let t := s.setEq key { s.eqOf key with items := kept }
    let t := if kept.head? = x.items.head? then t else t.tagHead key false
    let gone := (x.items.zipIdx.filter (fun i => !keep i)).map (·.1.sym)
    (gone.foldl State.symbolLost (t.count fhTxLate n)).fhAdmit (key / 2048)

/-- R324, R268: after a step, every queued frame that has become late. -/
def State.dropAllLate (s : State) : State :=
  ((s.eg.queues.filter (fun q => decide (q.1 < 16384))).map (·.1)).foldl State.dropLate s

/-- R327: a port-pair island leaves ON: the frames of its ports are discarded and counted. -/
def State.portsOff (s : State) (pair : Nat) : State :=
  let one (s : State) (p : Nat) : State :=
    let waits := (s.eg.wait.filter (fun x => x.1 / 2048 == p)).map (·.2)
    let gone := (s.portQueues p).flatMap (fun k => (s.eqOf k).items) ++ waits
    let n := gone.length
    let all := (s.eg.queues.filter (fun q => decide (q.1 < 16384) && q.1 / 2048 == p)).map (·.1)
    let t := (gone.map (·.sym)).foldl State.symbolLost (all.foldl State.eqClear s)
    let t := { t with eg := { t.eg with
      wait := t.eg.wait.filter (fun x => x.1 / 2048 != p)
      sending := tdrop (fun e => decide (e < 32) && e / 4 == p) t.eg.sending } }
    t.count fhTxLate n
  one (one s (2 * pair)) (2 * pair + 1)

end Sys2Proof.Machine
end

