-- ==== Sys2Proof/Machine/ArrayMath.lean ====
section
/-! DEFINITION.  What an array pass or a Drip job computes (R38 to R49, R52, R55, R62, R64, R68, R82): a
column result from operand elements, and the store of a result in an output format. -/

namespace Sys2Proof.Machine

/-- Bytes of a run of n elements (R37, R61). -/
def runBytes (f : Fmt) (n : Nat) : Nat := if f = .fp4 then ceilDiv n 2 else n * f.bytes

/-- R37, R61: element k of a run. -/
def elemAt (f : Fmt) (bs : List Byte) (k : Nat) : Nat :=
  match f with
  | .fp4 => fieldAt bs (k / 2) 1 / 16 ^ (k % 2) % 16
  | f => fieldAt bs (k * f.bytes) f.bytes

/-- R36, R37: the value of element k of a run with its block scales; zero at and beyond n (R62). -/
def elemValue (f : Fmt) (bs scales : List Byte) (n k : Nat) : Num :=
  if n ≤ k then .fin false 0 0
  else match f with
    | .fp4 => fp4BlockValue (fieldAt scales (k / 16) 1) (elemAt f bs k)
    | f => f.value (elemAt f bs k)

/-- R38: the exact sum of products on a grid; none where a product is NaN (R46). -/
def exactSum (g : Int) : List (Num × Num) → Option Int
  | [] => some 0
  | (a, b) :: r => match (a.mul b).onGrid g, exactSum g r with
    | some x, some y => some (x + y)
    | _, _ => none

/-- R43: the exponent base of an LPS tile. -/
def lpsBase (f : Fmt) (eMin : Nat) : Int :=
  match f with
  | .int8 => 0
  | .fp4 => (eMin : Int) - 256
  | _ => -32

/-- R43: SRC_FMT; a mix of E4M3 and E5M2 is 0x2. -/
def srcFmt (a w : Fmt) : Nat := if a.isFp8 && w.isFp8 && a != w then 2 else a.code

/-- R41: one FP32 addition of a chain, counting saturations. -/
def chainAdd (acc : Nat × Nat) (x : Nat × Bool) : Nat × Nat :=
  let r := fp32Add acc.1 x.1
  (r.1, acc.2 + b2n r.2 + b2n x.2)

/-- R41: the exact sum of one block pair's products, rounded to FP32; NaN gives the canonical NaN.  An exact sum of zero is
+0, even when every product was −0: R41 and R48 leave its sign open (DESIGN CHOICE, log 133). -/
def blockFp32 (ps : List (Num × Num)) : Nat × Bool :=
  match exactSum (-600) ps with
  | some i => FloatFmt.fp32.round (.ofInt i (-600))
  | none => (0x7FC00000, false)

/-- Slice a list into the n-element piece i. -/
def piece {α : Type} (l : List α) (n i : Nat) : List α := (l.drop (n * i)).take n

/-- R41: the FP32 chain of one K-tile of block FP4: 32 cell rows, each the sum of its two blocks.  A rounding of b0 or b1
that saturates is counted beside the additions, though R49 speaks of stores and additions (DESIGN CHOICE, log 134). -/
def fp4Chain (ps : List (Num × Num)) : Nat × Nat :=
  (List.range 32).foldl (fun acc r =>
    let b0 := blockFp32 (piece ps 16 (2 * r))
    let b1 := blockFp32 (piece ps 16 (2 * r + 1))
    let c := fp32Add b0.1 b1.1
    let n := b2n b0.2 + b2n b1.2 + b2n c.2
    if r = 0 then (c.1, n)
    else let t := chainAdd acc (c.1, false); (t.1, t.2 + n)) (0, 0)

/-- R42: one BF16 product formed in FP32 with one rounding. -/
def bf16Product (p : Num × Num) : Nat × Bool := FloatFmt.fp32.round (p.1.mul p.2)

/-- R42: the FP32 chain of one K-tile of BF16: 32 cells of 32 products in element order. -/
def bf16Chain (ps : List (Num × Num)) : Nat × Nat :=
  (List.range 32).foldl (fun acc r =>
    let cell := match (piece ps 32 r).map bf16Product with
      | [] => (0, 0)
      | x :: xs => xs.foldl chainAdd (x.1, b2n x.2)
    if r = 0 then cell
    else let t := chainAdd acc (cell.1, false); (t.1, t.2 + cell.2)) (0, 0)

/-- The operand pairs of one dot product, padded with zeros to n elements (R62). -/
def dotPairs (fa fw : Fmt) (act acts wgt wgts : List Byte) (k n : Nat) : List (Num × Num) :=
  (List.range n).map (fun i => (elemValue fa act acts k i, elemValue fw wgt wgts k i))

/-- R58, R68: one column result of one activation row, and how many FP32 additions saturated. -/
def colResult (fa fw : Fmt) (exact : Bool) (eMin : Nat) (conj : Bool)
    (act acts wgt wgts : List Byte) (k : Nat) : ColRes × Nat :=
  match fa with
  | .ci16 =>
    let t := (List.range k).foldl (fun (t : Int × Int) i =>
      let p := cmul conj false (ci16 (elemAt .ci16 act i)) (ci16 (elemAt .ci16 wgt i))
      (t.1 + p.1, t.2 + p.2)) (0, 0)
    (.cplx t.1 t.2, 0)
  | .bf16 =>
    let ps := dotPairs fa fw act acts wgt wgts k 1024
    let r := bf16Chain ps
    if ps.any (fun p => p.1.mul p.2 == .nan) then (.nan, r.2) else (.fp32 r.1, r.2)
  | _ =>
    let ps := dotPairs fa fw act acts wgt wgts k 1024
    let b := lpsBase fa eMin
    if fa = .fp4 ∧ exact = false then
      let r := fp4Chain ps
      if ps.any (fun p => p.1.mul p.2 == .nan) then (.nan, r.2) else (.fp32 r.1, r.2)
    else match exactSum b ps with
      | some i => (.exact i b, 0)
      | none => (.nan, 0)

/-- The exact value of a real column result. -/
def ColRes.num : ColRes → Num
  | .exact i b => .ofInt i b
  | .fp32 x => FloatFmt.fp32.value x
  | _ => .nan

/-- R49, R54, R55, R68: a plain store of a column result: the element's bytes and saturations. -/
def ColRes.plain (r : ColRes) (o : Fmt) (b : Int) (sh : Nat) (rnd : StoreRound) (symm : Bool) :
    List Byte × Nat :=
  match r, o with
  | .cplx re im, .ci16 =>
    let x := cstore sh rnd 16 symm re
    let y := cstore sh rnd 16 symm im
    (leBytes 4 (toBits 16 x.1 + toBits 16 y.1 * 2 ^ 16), b2n x.2 + b2n y.2)
  | .cplx re im, _ =>
    let x := clampInt (-(2 ^ 31)) (2 ^ 31 - 1) re
    let y := clampInt (-(2 ^ 31)) (2 ^ 31 - 1) im
    (leBytes 8 (toBits 32 x.1 + toBits 32 y.1 * 2 ^ 32), b2n x.2 + b2n y.2)
  | .fp32 x, .fp32 => (leBytes 4 x, 0)
  | r, o =>
    let x := r.num.store o b
    (leBytes o.bytes x.1, b2n x.2)

/-- R64: a store that adds onto the destination's bytes. -/
def ColRes.accum (r : ColRes) (o : Fmt) (b : Int) (prior : List Byte) : List Byte × Nat :=
  let p := leNat prior
  match r, o with
  | .cplx re im, _ =>
    let x := clampInt (-(2 ^ 31)) (2 ^ 31 - 1) (ofBits 32 p + re)
    let y := clampInt (-(2 ^ 31)) (2 ^ 31 - 1) (ofBits 32 (p / 2 ^ 32) + im)
    (leBytes 8 (toBits 32 x.1 + toBits 32 y.1 * 2 ^ 32), b2n x.2 + b2n y.2)
  | .exact i _, .int32 =>
    let x := clampInt (-(2 ^ 31)) (2 ^ 31 - 1) (ofBits 32 p + i)
    (leBytes 4 (toBits 32 x.1), b2n x.2)
  | r, .lps =>
    let x := r.num.store .lps b
    let y := lpsAdd p x.1
    (leBytes 16 y.1, b2n y.2)
  | r, _ =>
    let c := match r with
      | .fp32 x => (x, false)
      | r => r.num.store .fp32 b
    let y := fp32Add p c.1
    (leBytes 4 y.1, b2n c.2 + b2n y.2)

/-- R40: a block pair is excluded from span checks where a block is all zero or a scale is 0xFF. -/
def pairExcluded (act wgt : List Byte) (sa sw j : Nat) : Bool :=
  let zero (bs : List Byte) : Bool :=
    (List.range 16).all (fun i => elemAt .fp4 bs (16 * j + i) % 8 == 0)
  sa == 0xFF || sw == 0xFF || zero act || zero wgt

/-- R39, R72: some block pair of the row and column has E − E_MIN outside 0 to 40. -/
def spanFails (eMin k : Nat) (act acts wgt wgts : List Byte) : Bool :=
  (List.range (k / 16)).any (fun j =>
    let sa := fieldAt acts j 1
    let sw := fieldAt wgts j 1
    !pairExcluded act wgt sa sw j && (decide (sa + sw < eMin) || decide (eMin + 40 < sa + sw)))

/-- R43: the header of an LPS tile. -/
def lpsHeader (base : Int) (src : Nat) (flags : Nat) : List Byte :=
  leBytes 2 (toBits 16 base) ++ leBytes 1 src ++ leBytes 1 flags ++ leBytes 12 0

end Sys2Proof.Machine
end

