-- ==== Sys2Proof/Machine/Espalier.lean ====
section
/-! DEFINITION.  Chapter 03: the Espalier arrays' sequencers. -/

namespace Sys2Proof.Machine

/-- R69: offset of a register of array g's page. -/
def esReg (g o : Nat) : Nat := esBlock + 0x1000 * g + o

/-- R70: the stage staging registers. -/
def esStageRegs (s : State) (g : Nat) : EsStage :=
  { wsrc := s.reg64 (esReg g 0x010) (esReg g 0x014)
    wscl := s.reg64 (esReg g 0x018) (esReg g 0x01C)
    nAct := s.regB (esReg g 0x020) 21 16
    kAct := s.regB (esReg g 0x020) 15 5
    conj := s.regBit (esReg g 0x020) 4
    wFmt := s.regB (esReg g 0x020) 3 0
    pitch := s.regB (esReg g 0x028) 15 0
    spitch := s.regB (esReg g 0x028) 31 16 }

/-- R70: the pass staging registers. -/
def esPassRegs (s : State) (g : Nat) : EsPass :=
  { asrc := s.reg64 (esReg g 0x040) (esReg g 0x044)
    ascl := s.reg64 (esReg g 0x048) (esReg g 0x04C)
    dst := s.reg64 (esReg g 0x050) (esReg g 0x054)
    acc := s.regBit (esReg g 0x058) 19
    irq := s.regBit (esReg g 0x058) 18
    wAction := s.regB (esReg g 0x058) 17 16
    m := s.regB (esReg g 0x058) 15 0
    dpitch := s.regB (esReg g 0x05C) 31 16
    apitch := s.regB (esReg g 0x05C) 15 0
    aspitch := s.regB (esReg g 0x060) 31 24
    eMin := s.regB (esReg g 0x060) 17 9
    exact := s.regBit (esReg g 0x060) 8
    oFmt := s.regB (esReg g 0x060) 7 4
    aFmt := s.regB (esReg g 0x060) 3 0
    sym := s.regBit (esReg g 0x064) 6
    trunc := s.regBit (esReg g 0x064) 5
    sh := s.regB (esReg g 0x064) 4 0
    op := s.regB (esReg g 0x068) 31 16
    layer := s.regB (esReg g 0x068) 15 0 }

def State.esEnable (s : State) (g : Nat) : Bool := s.regBit (esReg g 0) 0
def State.esStop (s : State) (g : Nat) : Bool := s.regBit (esReg g 0) 2

/-- R71: stalled stores complete while entries are free; a pass takes its push value when it enters.  A store that waited
at a full FIFO enters also where the sequencer has gone to ERROR since, or an ABORT has emptied the FIFO: R71 discards
entries pushed in ERROR and says nothing of one that waits (DESIGN CHOICE, log 138). -/
def EsArray.refill (e : EsArray) : EsArray :=
  let ns := 2 - e.sfifo.length
  let np := 8 - e.pfifo.length
  let enter := e.pStall.take np
  { e with
    sfifo := e.sfifo ++ e.sStall.take ns
    sStall := e.sStall.drop ns
    pfifo := e.pfifo ++ enter.mapIdx (fun i p => { p with seq := (e.pushed + 1 + i) % 65536 })
    pStall := e.pStall.drop np
    pushed := (e.pushed + enter.length) % 65536 }

/-- R200: the highest 1 MiB of PDn's context area. -/
def passList (n : Nat) : Nat := sramBase (Die.ofIndex n) + sramSpan (Die.ofIndex n) - 2 ^ 20

/-- R200: the driving core copies ES_SEQ of a booked array to the pass-list area. -/
def State.copySeq (s : State) (g : Nat) : State :=
  if g < 64 ∧ s.tt.entries.any (fun b => b.1 / 64 == g / 16 && b.2.st == .active && bitOf b.2.arrays (g % 16)) = true then
    let e := s.esOf g
    s.storeNat (passList (g / 16) + 0x80000 + 4 * (g % 16)) 4 (e.done * 2 ^ 16 + e.pushed)
  else s

/-- The sequencer's new state; a change of ES_SEQ of a booked array is copied (R200). -/
def State.putEs (s : State) (g : Nat) (e : EsArray) : State :=
  let t := s.setEs g e
  if e.done = (s.esOf g).done ∧ e.pushed = (s.esOf g).pushed then t else t.copySeq g

/-- Operand data of a row of the pass is awaited (R71). -/
def EsRun.waiting (r : EsRun) : Bool := decide (r.upto < r.pass.m)

/-- R73, R74: the sequencer may start queued work. -/
def State.esGoes (s : State) (g : Nat) : Bool :=
  let e := s.esOf g
  s.islOn (arrayIsland g) && s.esEnable g && !s.esStop g && e.halt == .none

/-- Interrupt the core that ES_CTRL.IRQ_CORE names (R70). -/
def State.esIrq (s : State) (g : Nat) : State :=
  s.irqTo (irqCore (arrayDie g) (s.regB (esReg g 0) 5 4)) .es

/-- R70, R73: ENABLE and IRQ_CORE are written; ENABLE = 1 after an ABORT clears ERR_CODE and returns to
IDLE. -/
def execEsCtrlEnable (m : Agent) (g : Fin 84) (on : Bool) (irqCore : BitVec 2) (s : State) : Out :=
  let e := s.esOf g
  let left := on && (e.halt == .aborted || (e.halt == .error && e.errCode == 7))
  let t := (s.setRegB (esReg g 0) 0 0 (b2n on)).setRegB (esReg g 0) 5 4 irqCore.toNat
  agentIf m (s.coreMayWrite m (arrayDie g)) s
    (if left then t.setEs g { e with halt := .none, errCode := 0 } else t)

/-- R73: STOP = 1: the sequencer enters STOPPED before it starts another pass. -/
def execEsCtrlStop (m : Agent) (g : Fin 84) (s : State) : Out :=
  agentIf m (s.coreMayWrite m (arrayDie g)) s (s.setRegB (esReg g 0) 2 2 1)

/-- R73: STOP = 0 resumes. -/
def execEsCtrlUnstop (m : Agent) (g : Fin 84) (s : State) : Out :=
  agentIf m (s.coreMayWrite m (arrayDie g)) s (s.setRegB (esReg g 0) 2 2 0)

/-- R73: the oldest pass pushed and not yet counted that runs or waits, with its first row unwritten.  A SWAP pass whose
swap has begun waits like one whose stage is not valid yet, but not while STOP keeps it from starting (log 139). -/
def EsArray.oldest (e : EsArray) (going : Bool) : Option (Nat × Nat) :=
  match e.runs, e.pfifo with
  | r :: _, _ => some (r.pass.seq, r.written)
  | [], p :: _ => if going && p.wAction == 1 then some (p.seq, 0) else none
  | [], [] => none

/-- R73: ABORT stops injection, discards partial sums, both FIFOs and the port buffer, clears both
buffer-valid bits, sets PUSHED to DONE and clears ERR_CODE. -/
def State.esAbort (s : State) (g : Nat) : State :=
  let e := s.esOf g
  s.putEs g ({ e with
    sfifo := [], pfifo := [], again := [], fetching := false, port := none, shadow := none, active := none
    swapping := false, runs := [], halt := .aborting (e.oldest (s.esGoes g)), errCode := 0
    pushed := e.done : EsArray }).refill

/-- R75: cycles for which operand data, or the stage of a SWAP pass, has held injection until now. -/
def EsArray.held (e : EsArray) (going : Bool) (waited : Nat) : EsArray :=
  if e.runs.any (·.waiting) then { e with cntOper := (e.cntOper + waited) % 2 ^ 64 }
  else match e.pfifo with
    | p :: _ => if going && p.wAction == 1 && !e.swapping then { e with cntSwap := (e.cntSwap + waited) % 2 ^ 64 } else e
    | [] => e

/-- R73, R75: a write of ES_CTRL with ABORT. -/
def execEsCtrlAbort (m : Agent) (a : EsAbort) (s : State) : Out :=
  agentIf m (s.coreMayWrite m (arrayDie a.array)) s
    ((s.setEs a.array ((s.esOf a.array).held (s.esGoes a.array) a.waited)).esAbort a.array)

/-- R73: within 100 cycles of the ABORT: STOPPED, or ERROR with ABORTED and the oldest uncounted pass. -/
def execEsAbortSettle (g : Fin 84) (s : State) : Out :=
  unlessHalted s (arrayUnit g.val) <|
  let e := s.esOf g
  match e.halt with
  | .aborting none => .next (s.setEs g { e with halt := .aborted })
  | .aborting (some (seq, row)) =>
    .next ((s.setEs g { e with halt := .error, errCode := 7, errSeq := seq, errRow := row }).esIrq g)
  | _ => .next s

/-- R441: a pass counted in DONE counts for the function whose context holds the array. -/
def State.countPass (s : State) (g : Nat) : State :=
  match s.sh.ctx.find? (fun e => e.2.arrays.contains g) with
  | some e => s.fnCount e.2.vf .passes 1
  | none => s

/-- R70, R73: RESUME in ERROR counts the failed pass in DONE (not after an ABORT), with its interrupt, and goes on. -/
def execEsCtrlResume (m : Agent) (g : Fin 84) (s : State) : Out :=
  let e := s.esOf g
  let t := s.putEs g { e with
    halt := .none, errCode := 0
    done := if e.errCode = 7 then e.done else (e.done + 1) % 65536 }
  let u := if e.errCode = 7 then t else if e.errIrq then (t.countPass g).esIrq g else t.countPass g
  agentIf m (s.coreMayWrite m (arrayDie g) && e.halt == .error) s u

/-- R75, R442: all counters of the array are cleared. -/
def execEsCtrlClrCnt (m : Agent) (g : Fin 84) (s : State) : Out :=
  agentIf m (s.coreMayWrite m (arrayDie g)) s
    (s.setEs g { s.esOf g with cntBusy := 0, cntSwap := 0, cntOper := 0, cntSat := 0 })

/-- R71: a stage is pushed; into a full FIFO the store waits; in ERROR it is discarded. -/
def execEsSPush (m : Agent) (g : Fin 84) (s : State) : Out :=
  let e := s.esOf g
  agentIf m (s.coreMayWrite m (arrayDie g) && e.halt != .error) s
    (s.setEs g ({ e with sStall := e.sStall ++ [esStageRegs s g] } : EsArray).refill)

/-- R372: a pass pushed for an array makes the FW_REQ of its island ON (DEDUCED, log 122); a locked island ignores it. -/
def State.wakeArray (s : State) (g : Nat) : State :=
  let i := arrayIsland g
  if (s.isl i).st == .failedShort then s else s.modIsl i (fun x => { x with fwReq := .on })

/-- R71: a pass is pushed and PUSHED advances; into a full FIFO the store waits; in ERROR it is
discarded. -/
def execEsPPush (m : Agent) (g : Fin 84) (s : State) : Out :=
  let e := s.esOf g
  agentIf m (s.coreMayWrite m (arrayDie g) && e.halt != .error) s
    ((s.putEs g ({ e with pStall := e.pStall ++ [esPassRegs s g] } : EsArray).refill).wakeArray g)

/-- The stage to be fetched: one that has to be fetched again (R74), else the head of the stage FIFO. -/
def EsArray.headStage (e : EsArray) : Option EsStage := (e.again ++ e.sfifo).head?

/-- That stage is taken off. -/
def EsArray.dropStage (e : EsArray) : EsArray :=
  if e.again.isEmpty then { e with sfifo := e.sfifo.drop 1 } else { e with again := e.again.drop 1 }

/-- R65 item 1: the head stage's fetch begins once the weight port buffer is empty. -/
def execEsStageFetch (g : Fin 84) (s : State) : Out :=
  unlessHalted s (arrayUnit g.val) <|
  let e := s.esOf g
  onlyIf (s.esGoes g && !e.fetching && e.port.isNone && e.headStage.isSome) s
    (s.setEs g { e with fetching := true })

/-- R60: bytes of the SRAM window that surrounds a die's SRAM (R457). -/
def windowSize : Die → Nat
  | .gd _ => 0x100000000
  | _ => 0x40000000

/-- R60: the range lies in the SRAM window of the die. -/
def inDieWindow (d : Die) (a n : Nat) : Bool :=
  decide (sramBase d ≤ a) && decide (a + n ≤ sramBase d + windowSize d)

/-- R21: part of the range lies beyond the die's span. -/
def beyondSpan (d : Die) (a n : Nat) : Bool := decide (sramBase d + sramSpan d < a + n)

/-- R61: the ranges a stage reads: its columns, and for block FP4 their scale bytes. -/
def EsStage.ranges (t : EsStage) (f : Fmt) : List (Nat × Nat) :=
  (List.range t.nAct).map (fun c => (t.wsrc + c * t.pitch * 16, runBytes f t.kAct)) ++
  (if f = .fp4 then (List.range t.nAct).map (fun c => (t.wscl + c * t.spitch * 16, t.kAct / 16)) else [])

/-- R61, R67: the tile that a stage's words hold now. -/
def State.readTile (s : State) (g : Nat) (t : EsStage) : EsTile :=
  match Fmt.ofCode t.wFmt with
  | none => { stage := t, cols := [], scales := [], ecc := false, beyond := false }
  | some f =>
    { stage := t
      cols := (List.range t.nAct).map (fun c => s.load (t.wsrc + c * t.pitch * 16) (runBytes f t.kAct))
      scales := if f = .fp4 then
          (List.range t.nAct).map (fun c => s.load (t.wscl + c * t.spitch * 16) (t.kAct / 16))
        else []
      ecc := (t.ranges f).any (fun r => s.rangeBad r.1 r.2)
      beyond := (t.ranges f).any (fun r => beyondSpan (arrayDie g) r.1 r.2) }

/-- R110, R111: report the errors met in a list of ranges. -/
def State.noteRanges (s : State) (m : Nat) (rs : List (Nat × Nat)) : State :=
  rs.foldl (fun s r => s.noteReads m r.1 r.2) s

/-- R65: the stage's data is in the port buffer.  In ERROR, as under STOP (R73), a stage whose fetch has begun goes on to
its valid shadow set; R72 says only that no queued stage executes (DESIGN CHOICE, log 140). -/
def execEsStageDataArrive (g : Fin 84) (s : State) : Out :=
  unlessHalted s (arrayUnit g.val) <|
  let e := s.esOf g
  match e.headStage with
  | some t =>
    let rs := match Fmt.ofCode t.wFmt with
      | some f => t.ranges f
      | none => []
    onlyIf (s.islOn (arrayIsland g) && e.fetching) s
      ((s.noteRanges g rs).setEs g { e with fetching := false, port := some (s.readTile g t) })
  | none => .next s

/-- R65 items 2 and 3: the 32 shadow rows are written once the shadow buffers are free, the shadow set is
valid, the port buffer is empty, and the stage leaves the FIFO.  They are free again when the 32 cycles of a swap have
passed, which its pass's first injection shows, or a STOP that came in between. -/
def execEsShadowValid (g : Fin 84) (s : State) : Out :=
  unlessHalted s (arrayUnit g.val) <|
  let e := s.esOf g
  onlyIf (s.islOn (arrayIsland g) && e.port.isSome && e.shadow.isNone && !(e.swapping && s.esGoes g)) s
    (s.setEs g ({ e with shadow := e.port, port := none } : EsArray).dropStage.refill)

/-- R65 item 4, R66: the head pass's swap begins with the valid shadow set, once the previous pass injects no more; its
wait and the 32 swap cycles count in ES_CNT_SWAP. -/
def execEsSwapBegin (g : Fin 84) (waited : Nat) (s : State) : Out :=
  unlessHalted s (arrayUnit g.val) <|
  let e := s.esOf g
  match e.pfifo with
  | p :: _ =>
    onlyIf (s.esGoes g && p.wAction == 1 && !e.swapping && e.shadow.isSome && !(e.runs.any (·.waiting))) s
      (s.setEs g { e with
        active := e.shadow, shadow := none, swapping := true
        cntSwap := (e.cntSwap + waited + 32) % 2 ^ 64 })
  | [] => .next s

/-- R58: injection cycles c for M rows. -/
def injectCycles (f : Fmt) (m : Nat) : Nat :=
  match f with
  | .fp4 => ceilDiv m 2
  | .bf16 => 4 * m
  | .ci16 => 8 * m
  | _ => m

/-- R64: outputs that may be accumulated onto. -/
def accOk (o : Fmt) : Bool := o == .fp32 || o == .int32 || o == .ci32 || o == .lps

/-- R72, code FORMAT, for the pass's own fields. -/
def EsPass.formatBad (p : EsPass) : Bool :=
  match Fmt.ofCode p.aFmt, Fmt.ofCode p.oFmt with
  | some a, some o =>
    !a.arrayOperand || !Fmt.outOk a o || p.m == 0 || decide (1 < p.wAction) ||
    (p.acc && !accOk o) || (a == .fp4 && !p.exact && o == .lps)
  | _, _ => true

/-- R72, code FORMAT, for the fields of the tile the pass will use. -/
def EsPass.tileBad (p : EsPass) (t : EsStage) : Bool :=
  match Fmt.ofCode p.aFmt, Fmt.ofCode t.wFmt with
  | some a, some w =>
    !Fmt.pairOk a w || t.kAct == 0 || decide ((if w = .ci16 then 512 else 1024) < t.kAct) ||
    (w == .fp4 && t.kAct % 16 != 0) || t.nAct == 0 || decide (32 < t.nAct) ||
    (t.pitch == 0 && decide (1 < t.nAct))
  | _, _ => true

/-- R61: the ranges of a pass's activation row. -/
def EsPass.rowRanges (p : EsPass) (a : Fmt) (k m : Nat) : List (Nat × Nat) :=
  (p.asrc + m * p.apitch * 16, runBytes a k) ::
  (if a = .fp4 then [(p.ascl + m * p.aspitch * 16, k / 16)] else [])

/-- R43, R61: the destination range of a row. -/
def EsPass.dstRange (p : EsPass) (o : Fmt) (n m : Nat) : Nat × Nat :=
  if o = .lps then (p.dst + 16 + 512 * m, 512) else (p.dst + m * p.dpitch * 16, n * o.bytes)

/-- R60, R71: every operand range of the pass and of its stage lies in the die's window. -/
def EsPass.inWindow (p : EsPass) (g : Nat) (t : EsStage) (a w o : Fmt) : Bool :=
  let d := arrayDie g
  (t.ranges w).all (fun r => inDieWindow d r.1 r.2) &&
  (List.range p.m).all (fun m =>
    (p.rowRanges a t.kAct m).all (fun r => inDieWindow d r.1 r.2) &&
    inDieWindow d (p.dstRange o t.nAct m).1 (p.dstRange o t.nAct m).2) &&
  (o != .lps || inDieWindow d p.dst 16)

/-- R45, R64: the header at the destination carries another BASE or SRC_FMT. -/
def State.lpsMismatch (s : State) (dst : Nat) (base : Int) (src : Nat) : Bool :=
  s.loadNat dst 2 != toBits 16 base || s.loadNat (dst + 2) 1 != src

/-- R71, R72: the code with which a pass fails at its start; 0 where it starts.  The header of an LPS destination with ACC
is read here, so an uncorrectable word of it is met here. -/
def State.passStartCode (s : State) (g : Nat) (p : EsPass) (tile : Option EsTile) : Nat :=
  let own := p.formatBad
  match tile with
  | none => if own then 2 else 3
  | some t =>
    if own || p.tileBad t.stage then 2
    else match Fmt.ofCode p.aFmt, Fmt.ofCode t.stage.wFmt, Fmt.ofCode p.oFmt with
      | some a, some w, some o =>
        if !p.inWindow g t.stage a w o then 1
        else if p.acc && o == .lps && s.rangeBad p.dst 16 then 6
        else if p.acc && o == .lps && s.lpsMismatch p.dst (lpsBase a p.eMin) (srcFmt a w) then 5
        else 0
      | _, _, _ => 2

/-- R61: the activation rows lo to hi − 1 of a pass as they are in memory now. -/
def State.readRows (s : State) (g : Nat) (p : EsPass) (k lo hi : Nat) : List ActRow :=
  match Fmt.ofCode p.aFmt with
  | none => []
  | some a => (List.range (hi - lo)).map (fun i =>
      let m := lo + i
      let rs := p.rowRanges a k m
      { elems := s.load (p.asrc + m * p.apitch * 16) (runBytes a k)
        scales := if a = .fp4 then s.load (p.ascl + m * p.aspitch * 16) (k / 16) else []
        ecc := rs.any (fun r => s.rangeBad r.1 r.2)
        beyond := rs.any (fun r => beyondSpan (arrayDie g) r.1 r.2) })

/-- The ranges of activation rows lo to hi − 1 of a pass. -/
def EsPass.allRanges (p : EsPass) (k lo hi : Nat) : List (Nat × Nat) :=
  match Fmt.ofCode p.aFmt with
  | none => []
  | some a => (List.range (hi - lo)).flatMap (fun i => p.rowRanges a k (lo + i))

/-- R58, R75: cycles in which rows lo to hi − 1 of a pass are injected. -/
def EsPass.injects (p : EsPass) (lo hi : Nat) : Nat :=
  match Fmt.ofCode p.aFmt with
  | some a => injectCycles a hi - injectCycles a lo
  | none => 0

/-- R71: the row at which a pass's injection waits for operand data; its M where it does not. -/
def EsPass.waitRow (p : EsPass) (waits : Option (Fin 65536)) : Nat :=
  match waits with
  | some r => min r.val p.m
  | none => p.m

/-- R110: the words that the check of an LPS header reads report their errors. -/
def State.noteHeader (s : State) (g : Nat) (p : EsPass) (code : Nat) : State :=
  if p.acc ∧ Fmt.ofCode p.oFmt = some .lps ∧ (code = 0 ∨ code = 5 ∨ code = 6) then s.noteReads g p.dst 16 else s

/-- R71: the head pass starts: checks in order, then injects its rows, up to one whose operand data it has to wait for; a
failure at a check writes nothing and stops the sequencer in ERROR (R72).  A SWAP pass starts after its swap (R65
item 5). -/
def execEsPassStart (g : Fin 84) (waits : Option (Fin 65536)) (s : State) : Out :=
  unlessHalted s (arrayUnit g.val) <|
  let e := s.esOf g
  match e.pfifo with
  | [] => .next s
  | p :: rest =>
    let code := s.passStartCode g p e.active
    let e' : EsArray := { e with pfifo := rest, swapping := false }
    let ready := s.esGoes g && (p.wAction != 1 || e.swapping) && !(e.runs.any (·.waiting))
    let t := s.noteHeader g p code
    match e.active, code with
    | some tile, 0 =>
      let k := tile.stage.kAct
      let hi := p.waitRow waits
      onlyIf ready s
        ((t.noteRanges g (p.allRanges k 0 hi)).putEs g ({ e' with
          runs := e.runs ++ [{ pass := p, tile := tile, rows := s.readRows g p k 0 hi, upto := hi }]
          cntBusy := (e.cntBusy + p.injects 0 hi) % 2 ^ 64 } : EsArray).refill)
    | _, code =>
      onlyIf ready s
        ((t.putEs g ({ e' with
          halt := .error, errCode := code, errRow := 0, errSeq := p.seq, errIrq := p.irq } : EsArray).refill).esIrq g)

/-- R71: the awaited operand data arrives and injection resumes, to the pass's end or to the next row it has to wait for;
the wait counts in ES_CNT_OPER. -/
def execEsOperandArrive (g : Fin 84) (a : EsArrival) (s : State) : Out :=
  unlessHalted s (arrayUnit g.val) <|
  let e := s.esOf g
  match e.runs.find? (·.waiting) with
  | none => .next s
  | some r =>
    let k := r.tile.stage.kAct
    let hi := if r.upto < r.pass.waitRow a.waits then r.pass.waitRow a.waits else r.pass.m
    onlyIf (s.islOn (arrayIsland g)) s ((s.noteRanges g (r.pass.allRanges k r.upto hi)).setEs g { e with
      runs := lmodFirst (·.waiting)
        (fun q => { q with upto := hi, rows := q.rows ++ s.readRows g q.pass k q.upto hi }) e.runs
      cntBusy := (e.cntBusy + r.pass.injects r.upto hi) % 2 ^ 64
      cntOper := (e.cntOper + a.cycles) % 2 ^ 64 })

/-- R67: the destination overlaps the pass's own activation or scale source, so that its result is unspecified. -/
def EsPass.overlaps (p : EsPass) (t : EsStage) : Bool :=
  match Fmt.ofCode p.oFmt with
  | none => false
  | some o =>
    let src := p.allRanges t.kAct 0 p.m
    let dst := (List.range p.m).map (p.dstRange o t.nAct) ++ (if o = .lps then [(p.dst, 16)] else [])
    dst.any (fun d => src.any (fun x => rangesMeet d.1 d.2 x.1 x.2))

/-- R63, R72: rows presented and written together: pairs in block FP4. -/
def EsRun.group (r : EsRun) : List Nat :=
  let n := if Fmt.ofCode r.pass.aFmt = some .fp4 then 2 else 1
  (List.range n).map (r.written + ·) |>.filter (· < r.pass.m)

/-- The operands of column c of row m of a running pass. -/
def EsRun.operands (r : EsRun) (m c : Nat) : List Byte × List Byte × List Byte × List Byte :=
  let row := r.rows.getD m { elems := [], scales := [], ecc := false, beyond := false }
  (row.elems, row.scales, r.tile.cols.getD c [], r.tile.scales.getD c [])

/-- R72: the error that row m of a running pass meets, if any: an address beyond the span, an
uncorrectable word, a block pair outside the span, or a destination that cannot be written.
DEDUCED (log 12): in this order within one row. -/
def State.rowError (s : State) (g : Nat) (r : EsRun) (m : Nat) : Option Nat :=
  let t := r.tile.stage
  match Fmt.ofCode r.pass.aFmt, Fmt.ofCode r.pass.oFmt with
  | some a, some o =>
    let row := r.rows.getD m { elems := [], scales := [], ecc := false, beyond := false }
    let d := r.pass.dstRange o t.nAct m
    if r.tile.beyond || row.beyond then some 1
    else if r.tile.ecc || row.ecc then some 6
    else if a = .fp4 ∧ r.pass.exact = true ∧ (List.range t.nAct).any (fun c =>
        let x := r.operands m c
        spanFails r.pass.eMin t.kAct x.1 x.2.1 x.2.2.1 x.2.2.2) then some 4
    else if beyondSpan (arrayDie g) d.1 d.2 || (o == .lps && beyondSpan (arrayDie g) r.pass.dst 16) then
      some 1
    else if r.pass.acc && s.rangeBad d.1 d.2 then some 6
    else none
  | _, _ => none

/-- R62, R64: the bytes a row writes, how many saturations it counts, and the FLAGS it sets. -/
def State.rowBytes (s : State) (r : EsRun) (a w o : Fmt) (m : Nat) : List Byte × Nat × Nat :=
  let t := r.tile.stage
  let p := r.pass
  let b := lpsBase a p.eMin
  let dst := (p.dstRange o t.nAct m).1
  let rnd : StoreRound := if p.trunc then .truncate else .nearestEven
  let cols := if o = .lps then 32 else t.nAct
  (List.range cols).foldl (fun acc c =>
    let x := r.operands m c
    let y : ColRes × Nat :=
      if c < t.nAct then colResult a w p.exact p.eMin t.conj x.1 x.2.1 x.2.2.1 x.2.2.2 t.kAct
      else (.exact 0 b, 0)
    let z := if p.acc then y.1.accum o b (s.load (dst + c * o.bytes) o.bytes)
      else y.1.plain o b p.sh rnd p.sym
    let nan := o = .lps ∧ leNat z.1 = lpsNan ∧ c < t.nAct
    let flags := acc.2.2 ||| (if nan then 1 else 0) ||| (if o = .lps ∧ 0 < z.2 then 2 else 0)
    (acc.1 ++ z.1, acc.2.1 + y.2 + z.2, flags)) ([], 0, 0)

/-- R43, R62, R64: write one row of a pass, but for the words that lose a collision (R102); a plain LPS pass writes its
header with its first row, and FLAGS bits are set as its elements and additions require.  R67: where the destination
overlaps the pass's own source the row takes free bytes; its saturations are those of the operands as read (log 8). -/
def State.writeRow (s : State) (g : Nat) (r : EsRun) (m : Nat) (lost : List PAddr) : State × Nat :=
  match Fmt.ofCode r.pass.aFmt, Fmt.ofCode r.tile.stage.wFmt, Fmt.ofCode r.pass.oFmt with
  | some a, some w, some o =>
    let x := s.rowBytes r a w o m
    let d := r.pass.dstRange o r.tile.stage.nAct m
    if r.pass.overlaps r.tile.stage then
      let n := if o = .lps then 16 else 0
      let t := (s.store d.1 (freeBytes s.free d.2)).store r.pass.dst (freeBytes (s.free + d.2) n)
      (t.drew (d.2 + n), x.2.1)
    else
    let s := if r.pass.acc then s.noteReads g d.1 d.2 else s
    let t := s.storeLost g d.1 x.1 lost
    if o = .lps then
      let old := if m = 0 ∧ r.pass.acc = false then 0 else s.loadNat (r.pass.dst + 3) 1
      (t.storeLost g r.pass.dst (lpsHeader (lpsBase a r.pass.eMin) (srcFmt a w) (old ||| x.2.2)) lost, x.2.1)
    else (t, x.2.1)
  | _, _, _ => (s, 0)

/-- The oldest running pass that has rows left to write. -/
def EsArray.writer (e : EsArray) : Option EsRun :=
  e.runs.find? (fun r => decide (r.written < r.pass.m))

/-- R63, R64: the store stage writes the next presented row (in block FP4 the next pair) of the oldest running pass. -/
def execEsRowWrite (w : EsStore) (s : State) : Out :=
  let g := w.array
  unlessHalted s (arrayUnit g.val) <|
  let e := s.esOf g
  match e.writer with
  | none => .next s
  | some r =>
    let rows := r.group
    let x := rows.foldl (fun (y : State × Nat) m => let z := y.1.writeRow g r m w.lost; (z.1, y.2 + z.2)) (s, 0)
    onlyIf (s.islOn (arrayIsland g) && rows.all (fun m => decide (m < r.upto) && (s.rowError g r m).isNone)) s
      (x.1.setEs g { e with
        runs := lmodFirst (fun q => decide (q.written < q.pass.m))
          (fun q => { q with written := q.written + rows.length }) e.runs
        cntSat := min (2 ^ 64 - 1) (e.cntSat + x.2) })

/-- R64, R70: the oldest pass's last row is written: DONE counts it, and IRQ interrupts the core. -/
def execEsPassDone (g : Fin 84) (s : State) : Out :=
  unlessHalted s (arrayUnit g.val) <|
  let e := s.esOf g
  match e.runs with
  | r :: rest =>
    let t := (s.putEs g { e with runs := rest, done := (e.done + 1) % 65536 }).countPass g
    onlyIf (decide (r.pass.m ≤ r.written)) s (if r.pass.irq then t.esIrq g else t)
  | [] => .next s

/-- R72: the running pass meets SPAN, ADDRESS beyond a span or ECC at its next row: the sequencer stops in
ERROR with the first unwritten row recorded, and IRQ_CORE is interrupted. -/
def execEsPassError (g : Fin 84) (s : State) : Out :=
  unlessHalted s (arrayUnit g.val) <|
  let e := s.esOf g
  match e.writer with
  | none => .next s
  | some r =>
    match (r.group.filterMap (s.rowError g r)).head? with
    | none => .next s
    | some code =>
      onlyIf (r.group.all (fun m => decide (m < r.upto)) && e.halt == .none) s
        ((s.setEs g { e with
          runs := lrmFirst (fun q => decide (q.written < q.pass.m)) e.runs
          halt := .error, errCode := code, errRow := r.written, errSeq := r.pass.seq, errIrq := r.pass.irq }).esIrq g)

/-- R75: a counter of the array: BUSY, SWAP, OPER, SAT. -/
def EsArray.counter (e : EsArray) (c : Nat) : Nat :=
  match c with
  | 0 => e.cntBusy | 1 => e.cntSwap | 2 => e.cntOper | _ => e.cntSat

/-- R75: a read of a LO register latches the matching HI register. -/
def execEsCntLoRead (m : Agent) (g : Fin 84) (c : Fin 4) (s : State) : Out :=
  let e := s.esOf g
  onlyIf (s.isPf m || s.coreMayWrite m (arrayDie g)) s
    (s.setEs g { e with latch := lmod e.latch c (fun _ => e.counter c / 2 ^ 32) })

/-- R74: the array's island leaves ON: both weight buffers are lost, and a stage whose tile no pass has used yet is fetched
again: that of a valid shadow set, and that of a swap whose pass has not started. -/
def EsArray.leaveOn (e : EsArray) : EsArray :=
  let lost (t : Option EsTile) : List EsStage := (t.map (·.stage)).toList
  { e with
    again := (if e.swapping then lost e.active else []) ++ lost e.shadow ++ e.again
    fetching := false, port := none, shadow := none, active := none, swapping := false, runs := [] }

end Sys2Proof.Machine
end

