-- ==== Sys2Proof/Machine/Operands.lean ====
section
/-! DEFINITION.  The records that commands carry, field by field. -/

namespace Sys2Proof.Machine

/-- A command descriptor (R119). -/
structure Desc where
  opcode : Nat
  flags : Nat
  layer : Nat
  op : Nat
  aFmt : Nat
  wFmt : Nat
  oFmt : Nat
  wLayout : Nat
  m : Nat
  n : Nat
  k : Nat
  a : Nat
  w : Nat
  d : Nat
  aPitch : Nat
  wPitch : Nat
  dPitch : Nat
  aSoff : Nat
  wSoff : Nat
  aSpitch : Nat
  wSpitch : Nat
  aux : Nat
  batch : Nat
  store : Nat
  ragged : Nat
  perSeq : Bool
  taps : Nat
  wStride : Nat
  deriving DecidableEq, Repr

/-- R119: the fields of a descriptor. -/
def Desc.parse (x : BitVec 512) : Desc :=
  let b := leBytes 64 x.toNat
  { opcode := fieldAt b 0 1, flags := fieldAt b 1 1, layer := fieldAt b 2 2, op := fieldAt b 4 2
    aFmt := fieldAt b 6 1 % 16, wFmt := fieldAt b 6 1 / 16
    oFmt := fieldAt b 7 1 % 16, wLayout := fieldAt b 7 1 / 16
    m := fieldAt b 8 4, n := fieldAt b 12 4, k := fieldAt b 16 4
    a := fieldAt b 20 6, w := fieldAt b 26 6, d := fieldAt b 32 6
    aPitch := fieldAt b 38 2, wPitch := fieldAt b 40 2, dPitch := fieldAt b 42 2
    aSoff := fieldAt b 44 2, wSoff := fieldAt b 46 2, aSpitch := fieldAt b 48 2, wSpitch := fieldAt b 50 2
    aux := fieldAt b 52 6, batch := fieldAt b 58 2, store := fieldAt b 60 1
    ragged := fieldAt b 61 1 % 4, perSeq := bitOf (fieldAt b 61 1) 2, taps := fieldAt b 61 1 / 8
    wStride := fieldAt b 62 2 }

def Desc.irq (x : Desc) : Bool := bitOf x.flags 0
def Desc.acc (x : Desc) : Bool := bitOf x.flags 1
def Desc.exact (x : Desc) : Bool := bitOf x.flags 2
def Desc.splitK (x : Desc) : Bool := bitOf x.flags 3
/-- R120: opcode CONVERT. -/
def Desc.isConvert (x : Desc) : Bool := x.opcode == 5
/-- R120: opcodes ROUTINE. -/
def Desc.isRoutine (x : Desc) : Bool := decide (0x40 ≤ x.opcode) && decide (x.opcode < 0x80)
/-- The operand formats, where they are formats. -/
def Desc.fa (x : Desc) : Fmt := (Fmt.ofCode x.aFmt).getD .int8
def Desc.fw (x : Desc) : Fmt := (Fmt.ofCode x.wFmt).getD .int8
def Desc.fo (x : Desc) : Fmt := (Fmt.ofCode x.oFmt).getD .fp32

/-- R125: K-tile and M_B of an operand format. -/
def kTile (a : Fmt) : Nat := if a = .ci16 then 512 else 1024
def blockRows (a : Fmt) : Nat :=
  match a with
  | .fp4 => 4096 | .bf16 => 512 | .ci16 => 256 | _ => 2048

/-- R125: K-tiles, column blocks, row blocks and output blocks. -/
def Desc.tk (x : Desc) : Nat := ceilDiv x.k (kTile x.fa)
def Desc.nb (x : Desc) : Nat := ceilDiv x.n 32
def Desc.mb (x : Desc) : Nat := ceilDiv x.m (blockRows x.fa)
def Desc.blocks (x : Desc) : Nat := x.batch * x.mb * x.nb

/-- R127: what a work-tile index names: sequence, row block, column block, chunk. -/
def Desc.tileOf (x : Desc) (i : Nat) : Nat × Nat × Nat × Nat :=
  let q := x.batch * x.mb
  (i % q / x.mb, i % q % x.mb, i / q % x.nb, i / (q * x.nb))

/-- R126: the K-tiles of chunk c of s: the first, and how many. -/
def chunkTiles (tk s c : Nat) : Nat × Nat :=
  (c * (tk / s) + min c (tk % s), tk / s + b2n (decide (c < tk % s)))

end Sys2Proof.Machine
end

