-- ==== Sys2Proof/Machine/ShareOps.lean ====
section
/-! DEFINITION.  Shares, rank and accounts of the engines (R185 to R188). -/

namespace Sys2Proof.Machine

/-- R187: CX_VF of VF v as the last quantum boundary took it: a change of weight or die mask takes effect at the next. -/
def State.cxVf (s : State) (v : Nat) : Nat := tget 0x1F0001 s.sh.eff v

/-- R187: the share weight of VF v (0 for the PF). -/
def State.weight (s : State) (v : Nat) : Nat := bitsOf (s.cxVf v) 15 0

/-- R187, R203: the VF may use PDn. -/
def State.mayPd (s : State) (v n : Nat) : Bool := bitOf (s.cxVf v) (16 + n)

/-- R187, R203: the VF may use RD arrays. -/
def State.mayRd (s : State) (v : Nat) : Bool := bitOf (s.cxVf v) 20

/-- R187: the quantum boundary takes CX_VF as it stands. -/
def State.takeCxVf (s : State) : State :=
  let o := cxBlock + 0x1000
  let rs := s.regs.filter (fun e => decide (o ≤ e.1) && decide (e.1 < o + 4 * 513) && e.1 % 4 == 0)
  { s with sh := { s.sh with eff := rs.foldl (fun t e => tset 0x1F0001 t ((e.1 - o) / 4) e.2.toNat) [] } }

def State.usage (s : State) (v : Nat) : Nat := tget 0 s.sh.usage v

/-- R187: VF a ranks ahead of VF b. -/
def State.ahead (s : State) (a b : Nat) : Bool :=
  decide (s.usage a * s.weight b < s.usage b * s.weight a) ||
  (decide (s.usage a * s.weight b = s.usage b * s.weight a) && decide (a < b))

/-- R187: a context with a descriptor started or queued. -/
def Ctx.runnable (c : Ctx) : Bool := c.st == .running && (c.run.isSome || !c.queue.isEmpty)

/-- R185, R186: charge an account, and U where it is a VF's. -/
def State.charge (s : State) (v n : Nat) : State :=
  { s with sh := { s.sh with
    acct := tmod 0 s.sh.acct v (fun x => (x + n) % 2 ^ 64)
    usage := if v = 513 then s.sh.usage else tmod 0 s.sh.usage v (· + n) } }

/-! ### Parking (R380, R383, R388) -/

/-- R380: the array is named by a READY or ACTIVE booking. -/
def State.bookedNow (s : State) (g : Nat) : Bool :=
  decide (g < 64) && s.tt.entries.any (fun (e : Nat × TtEntry) => e.1 / 64 == g / 16 &&
    (e.2.st == .ready || e.2.st == .active) && bitOf e.2.arrays (g % 16))

/-- R380: the park step that takes an array: PD3's first, the generation dies' last. -/
def parkStep (g : Nat) : Nat := if g < 64 then 4 - g / 16 else 5

/-- Park steps in force. -/
def State.parkSteps (s : State) : Nat := max s.pw.sl.parked s.pw.sl.thermParked

/-- R380: the array is parked for power or temperature. -/
def State.parkedPower (s : State) (g : Nat) : Bool :=
  decide (g < 80) && decide (parkStep g ≤ s.parkSteps) && !s.bookedNow g

/-- R380, R388: the array is parked. -/
def State.parkedArray (s : State) (g : Nat) : Bool :=
  if 80 ≤ g then s.radioOnly && !s.planLoaded else s.radioOnly || s.parkedPower g

/-- R367: the Sluice's park of island i. -/
def State.parkReq (s : State) (i : Nat) : IslReq :=
  match islKind i with
  | .array g => if s.parkedArray g then .off else .on
  | .bankGroup _ _ => if s.radioOnly then .ret else .on
  | _ => .on

/-- R185: arrays that bookings hold from READY to their end, each counted once. -/
def State.bookedArrays (s : State) : Nat :=
  ((List.range 64).filter (fun g => s.tt.entries.any (fun e =>
    e.1 / 64 == g / 16 && (e.2.st == .ready || e.2.st == .active) && bitOf e.2.arrays (g % 16)))).length

/-- R185: charge the array time since the last charge.  A context that is stopping, saved or restoring is
charged nothing, and neither are the generation dies' arrays, which decode charges by step. -/
def State.settle (s : State) : State :=
  let dt := s.T - s.sh.acctT
  let t := if dt = 0 then s
    else
      let u := s.sh.ctx.foldl (fun s e =>
        if e.2.st = .running ∧ (e.1 / 8 < 4 ∨ e.1 / 8 = 8) then s.charge e.2.vf (dt * e.2.arrays.length) else s) s
      u.charge 513 (dt * s.bookedArrays)
  { t with sh := { t.sh with acctT := s.T } }

/-- R188: the ratio U ÷ w of a VF that is already runnable is the least of those. -/
def State.leastRunnable (s : State) (v : Nat) : Option Nat :=
  let vs := ((s.sh.ctx.filter (fun e => e.2.runnable && e.2.vf != v)).map (·.2.vf))
  vs.find? (fun a => vs.all (fun b => decide (s.usage a * s.weight b ≤ s.usage b * s.weight a)))

/-- R188: a VF that becomes runnable on the module after having been idle starts level with the
least-served runnable VF; the product is taken down to an integer (log 32). -/
def State.wakeVf (s : State) (v : Nat) : State :=
  if s.sh.ctx.any (fun e => e.2.vf == v && e.2.runnable) then s
  else
    match s.leastRunnable v with
    | none => s
    | some a =>
      { s with sh := { s.sh with
        usage := tset 0 s.sh.usage v (max (s.usage v) (s.weight v * s.usage a / s.weight a)) } }

end Sys2Proof.Machine
end

