-- ==== Sys2Proof/Machine/Tiling.lean ====
section
/-! DEFINITION.  Chapter 06: descriptors, work tiles, and how they complete. -/

namespace Sys2Proof.Machine

def State.slotOf (s : State) (k : Nat) : Slot := tget {} s.slots k

/-! ### Contexts as a table -/

/-- The key of context c of a die. -/
def ctxKey (d : Die) (c : Nat) : Nat := 8 * d.index + c

def State.ctxOf (s : State) (k : Nat) : Option Ctx := (s.sh.ctx.find? (fun e => e.1 == k)).map (·.2)

/-- A context changes or goes; the array time up to now is charged first (R185). -/
def State.setCtx (s : State) (k : Nat) (c : Option Ctx) : State :=
  let s := s.settle
  { s with sh := { s.sh with ctx := tput c s.sh.ctx k } }

/-- Contexts a die can hold (R183); a generation die runs its descriptors in one (log 13). -/
def maxCtx : Die → Nat
  | .pd _ => 8 | .rd => 4 | .gd _ => 1 | .hd => 0

/-- R24: the arrays of a die. -/
def dieArrays : Die → List Nat
  | .pd n => (List.range 16).map (16 * n.val + ·)
  | .gd n => (List.range 4).map (64 + 4 * n.val + ·)
  | .rd => (List.range 4).map (80 + ·)
  | .hd => []

/-- Arrays of a die named by a booking between its acceptance and its end (R197). -/
def State.named? (s : State) (g : Nat) : Bool :=
  decide (g < 64) && s.tt.entries.any (fun b => b.1 / 64 == g / 16 && bitOf b.2.arrays (g % 16) &&
    (b.2.st == .accepted || b.2.st == .clearing || b.2.st == .ready || b.2.st == .active || b.2.st == .late))

/-- R187, R201: the idle arrays of a die that may be given: ON, not named, held by no context, and past the last pass of a
booking that has ended. -/
def State.idleArrays (s : State) (d : Die) : List Nat :=
  (dieArrays d).filter (fun g => s.islOn (arrayIsland g) && !s.parkedArray g && !s.named? g && (s.esOf g).runs.isEmpty &&
    !(s.sh.ctx.any (fun e => e.2.arrays.contains g)))

/-- R187: the runnable contexts of a die, first in rank first; the contexts of one VF by number. -/
def State.ranked (s : State) (d : Die) : List (Nat × Ctx) :=
  (s.sh.ctx.filter (fun e => e.1 / 8 == d.index && e.2.runnable)).mergeSort (fun a b =>
    if a.2.vf = b.2.vf then decide (a.1 ≤ b.1) else s.ahead a.2.vf b.2.vf)

/-- R187: idle arrays go, lowest index first, to contexts below their target, in rank order, usages being those of now. -/
def State.giveIdle (s : State) (d : Die) : State :=
  let s := s.settle
  (s.ranked d).foldl (fun s e =>
    match s.ctxOf e.1 with
    | none => s
    | some c =>
      let more := (s.idleArrays d).take (c.target - c.arrays.length)
      if more.isEmpty then s else s.setCtx e.1 (some { c with arrays := c.arrays ++ more })) s

/-- R116: the Pilot core that drives array g. -/
def arrayCore (g : Nat) : Nat :=
  if g < 64 then coreId (arrayDie g) (g % 16 / 4) else if g < 80 then coreId (arrayDie g) (g % 4 / 2) else coreId .rd (g - 80)

/-- R116: the arrays that core k of a die drives; those of GDn.P0 beside its Drip sequencer. -/
def coreArrays (d : Die) (k : Nat) : List Nat := (dieArrays d).filter (fun g => arrayCore g == coreId d k)

/-- R131: the number of an array within its die. -/
def arrayInDie (g : Nat) : Nat := if g < 64 then g % 16 else g % 4

/-- Bytes of a die's tiling scratch (R118, R397). -/
def State.scratchBytes (s : State) (d : Die) : Nat := (s.cfg.mem.getD d.index {}).scratch * 2 ^ 20

/-! ### Checks (R123) -/

/-- The contiguous span of memory that holds an address (R20, R22). -/
def spanOf (a : Nat) : Option (Nat × Nat) :=
  match place a with
  | .hbm _ _ => some (0, 0x006000000000)
  | .sram d _ => some (sramBase d, sramBase d + sramSpan d)
  | _ => none

/-- R123: every byte of the range lies in a span and outside the Bonded store. -/
def spanOk (a n : Nat) : Bool :=
  n == 0 || match spanOf a with
    | some (_, hi) => decide (a + n ≤ hi) && !(decide (a < bondedHi) && decide (bondedLo < a + n))
    | none => false

/-- Bytes of a run of n elements of a format in memory, LPS elements included. -/
def rowBytesOf (f : Fmt) (n : Nat) : Nat := runBytes f n

/-- R122: bytes of the space of one LPS output block. -/
def lpsBlockBytes (mB : Nat) : Nat := 16 + 512 * mB

/-- R487: M_B of an LPS source, from the SRC_FMT of its first tile's header. -/
def State.lpsRows (s : State) (a : Nat) : Nat := if s.loadNat (a + 2) 1 = 3 then 4096 else 2048

/-- R487: bytes of the LPS planes of a CONVERT. -/
def State.lpsPlane (s : State) (x : Desc) : Nat :=
  let mB := s.lpsRows x.a
  ceilDiv x.m mB * ceilDiv x.n 32 * lpsBlockBytes mB

/-- R120, R130: the row index vector of GATHER_GEMM. -/
def State.gatherIdx (s : State) (x : Desc) (m : Nat) : Nat := s.loadNat (x.aux + 4 * m) 4

/-- R120, R122: where the weight planes of sequence b start. -/
def Desc.wBase (x : Desc) (b : Nat) : Nat := x.w + (if x.perSeq then b * x.wStride * 65536 else 0)

/-- Rows of equal length at a pitch: an operand plane. -/
structure Plane where
  base : Nat
  rows : Nat
  pitch : Nat
  bytes : Nat
  deriving DecidableEq, Repr

/-- A plane from its first byte to its last. -/
def Plane.range (p : Plane) : Nat × Nat := (p.base, (p.rows - 1) * p.pitch + p.bytes)

/-- The rows of a plane. -/
def Plane.each (p : Plane) : List (Nat × Nat) := (List.range p.rows).map (fun i => (p.base + i * p.pitch, p.bytes))

/-- Two ranges share a byte. -/
def shareByte (a b : Nat × Nat) : Bool :=
  decide (0 < a.2) && decide (0 < b.2) && decide (a.1 < b.1 + b.2) && decide (b.1 < a.1 + a.2)

/-- Two planes share a byte of some row. -/
def Plane.meets (p q : Plane) : Bool :=
  shareByte p.range q.range && p.each.any (fun a => q.each.any (shareByte a))

/-- R120: RAGGED applies to the array products that leave AUX_ADDR to it. -/
def Desc.isRagged (x : Desc) : Bool := x.ragged != 0 && (x.opcode == 1 || x.opcode == 2 || x.opcode == 4)

/-- R120: the history of a CONV1D lies at addresses that exist. -/
def Desc.historyOk (x : Desc) : Bool :=
  x.opcode != 4 || (decide ((x.taps - 1) * x.aPitch * 16 ≤ x.a) &&
    (x.fa != .fp4 || decide ((x.taps - 1) * x.aSpitch * 16 ≤ x.a + x.aSoff * 65536)))

/-- R122, R487: the planes a descriptor reads: activations, weights, scales, row indices.  Row m of a CONV1D is the run of K
elements that starts TAPS − 1 rows before it. -/
def State.srcPlanes (s : State) (x : Desc) : List Plane :=
  let conv := x.isConvert
  let ka := if conv then x.n else x.k
  let rows := if x.opcode = 8 then
      (List.range x.m).foldl (fun t m => max t (s.gatherIdx x m + 1)) 0 else x.batch * x.m
  let back := if x.opcode = 4 then x.taps - 1 else 0
  let a : Plane :=
    if x.fa = .lps then { base := x.a, rows := 1, pitch := 0, bytes := s.lpsPlane x }
    else {
      base := x.a - back * x.aPitch * 16, rows := rows
      pitch := x.aPitch * 16, bytes := runBytes x.fa ka }
  let as_ : List Plane := if x.fa = .fp4 then
      [{ base := x.a + x.aSoff * 65536 - back * x.aSpitch * 16, rows := rows
         pitch := x.aSpitch * 16, bytes := ka / 16 }] else []
  let w : List Plane := if conv then [] else (List.range x.batch).flatMap (fun b =>
    if b = 0 ∨ x.perSeq = true then
      (if x.wLayout = 1 then
        { base := x.wBase b, rows := x.k, pitch := x.wPitch * 16, bytes := runBytes x.fw x.n }
       else { base := x.wBase b, rows := x.n, pitch := x.wPitch * 16, bytes := runBytes x.fw x.k }) ::
      (if x.fw = .fp4 then
        [{ base := x.wBase b + x.wSoff * 65536, rows := x.n, pitch := x.wSpitch * 16, bytes := x.k / 16 }] else [])
    else [])
  let aux : List Plane := if x.opcode = 8 then [{ base := x.aux, rows := 1, pitch := 0, bytes := 4 * x.m }] else []
  a :: (as_ ++ w ++ aux)

/-- R122, R487: the planes of D. -/
def State.dstPlanes (s : State) (x : Desc) : List Plane :=
  if x.fo = .lps then
    [{ base := x.d, rows := 1, pitch := 0
       bytes := if x.isConvert then s.lpsPlane x else x.blocks * lpsBlockBytes (blockRows x.fa) }]
  else { base := x.d, rows := x.batch * x.m, pitch := x.dPitch * 16, bytes := runBytes x.fo x.n } ::
    (if x.fo = .fp4 then
      [{ base := x.d + x.wSoff * 65536, rows := x.m, pitch := x.wSpitch * 16, bytes := x.n / 16 }] else [])

/-- R118, R123: the ranges a descriptor's operands occupy, each from its first byte to its last. -/
def State.descRanges (s : State) (x : Desc) : List (Nat × Nat) :=
  (s.srcPlanes x ++ s.dstPlanes x).map Plane.range

/-- R134: D shares a byte with A, W, a scale plane or an AUX vector. -/
def State.selfOverlap (s : State) (x : Desc) : Bool :=
  let lens : List Plane := if x.isRagged then [{ base := x.aux, rows := 1, pitch := 0, bytes := 4 * x.batch }] else []
  (s.dstPlanes x).any (fun d => (s.srcPlanes x ++ lens).any d.meets)

/-- R126: the K-chunk count; avail is the number of the die's arrays available to the context. -/
def Desc.chunks (x : Desc) (d : Die) (det : Bool) (avail : Nat) : Nat :=
  let target := if det then 4 * (dieArrays d).length else max 4 (4 * avail)
  if x.splitK = false ∨ x.tk ≤ 1 ∨ x.fa = .ci16 ∨ target ≤ x.blocks then 1
  else min x.tk (ceilDiv target x.blocks)

/-- R128: the accumulation path; drip says that R125 runs the product as Drip jobs. -/
def Desc.path (x : Desc) (s : Nat) (det drip : Bool) : Nat :=
  if x.isConvert || x.isRoutine then 6
  else if drip then 5
  else if x.tk ≤ 1 then 0
  else if x.fa = .bf16 then 4
  else if x.fo = .lps ∨ (x.exact = true ∧ x.fa ≠ .ci16) ∨ x.fa = .int8 ∨ (det = true ∧ 1 < s) then 2
  else if s = 1 then 1
  else 3

/-- R128: scratch of a path, from the shape alone.  DESIGN CHOICE (log 14): every accumulator and partial
of the descriptor at once, as the count of R135's example takes it. -/
def Desc.scratch (x : Desc) (s path : Nat) (det : Bool) : Nat :=
  let rows := min x.m (blockRows x.fa)
  let el := rows * 32
  match path with
  | 1 => x.blocks * el * (if x.fa = .ci16 then 8 else 4)
  | 2 => x.blocks * s * (el * 16 + (if x.fa = .fp4 ∧ det = true then 16 * rows else 16))
  | 3 => x.blocks * s * el * 4
  | 4 => x.blocks * el * 4 * (1 + x.tk - (chunkTiles x.tk s 0).2)
  | _ => 0

/-- R121, R123: code BAD_FORMAT. -/
def Desc.badFormat (x : Desc) : Bool :=
  match Fmt.ofCode x.aFmt, Fmt.ofCode x.wFmt, Fmt.ofCode x.oFmt with
  | some a, some w, some o =>
    (x.acc && !accOk o) ||
    (if x.isConvert then !Fmt.convertOk a o
     else !Fmt.pairOk a w || !Fmt.outOk a o || decide (1 < x.wLayout) ||
       (x.wLayout == 1 && (a == .fp4 || a == .ci16)))
  | some a, none, some o => !x.isConvert || (x.acc && !accOk o) || !Fmt.convertOk a o
  | _, _, _ => true

/-- R123: code BAD_SHAPE, but for the ragged vector. -/
def Desc.badShape (x : Desc) (s : Nat) : Bool :=
  let dim (v : Nat) : Bool := v == 0 || decide (0x7FFFFFFF < v)
  x.batch == 0 || (x.opcode != 2 && x.batch != 1) ||
  (!x.isRoutine && (dim x.m || dim x.n || dim x.k)) ||
  (!x.isRoutine && !x.isConvert && x.fa == .fp4 && x.k % 16 != 0) ||
  (x.isConvert && (x.fa == .fp4 || x.fo == .fp4) && x.n % 16 != 0) ||
  (if x.opcode = 4 then x.taps == 0 || decide (8 < x.taps) || x.k % x.taps != 0
   else !x.isConvert && x.taps != 0) ||
  (!x.isRoutine && !x.isConvert && decide (0x7FFFFFFF < x.blocks * s))

/-- R123: code BAD_PITCH. -/
def Desc.badPitch (x : Desc) : Bool :=
  let conv := x.isConvert
  let ka := if conv then x.n else if x.opcode = 4 then x.k / x.taps else x.k
  (x.fa != .lps && decide (x.aPitch * 16 < runBytes x.fa ka)) ||
  (x.opcode == 4 && x.aPitch * 16 != runBytes x.fa ka) ||
  (x.fo != .lps && decide (x.dPitch * 16 < runBytes x.fo x.n)) ||
  (!conv && decide (x.wPitch * 16 < if x.wLayout = 1 then runBytes x.fw x.n else runBytes x.fw x.k)) ||
  decide (255 < x.aSpitch) ||
  (x.fa == .fp4 && decide (x.aSpitch * 16 < ka / 16)) ||
  (!conv && x.fw == .fp4 && decide (x.wSpitch * 16 < x.k / 16)) ||
  (conv && x.fo == .fp4 && decide (x.wSpitch * 16 < x.n / 16))

/-- The routine number of a ROUTINE descriptor (R120). -/
def Desc.routine (x : Desc) : Nat := x.opcode - 0x40

/-- R123: the checks before a ragged vector is read.  DESIGN CHOICE (log 135): the format codes of a ROUTINE are not looked
at. -/
def State.checkHead (s : State) (x : Desc) (chunks : Nat) : Nat × Nat :=
  let rtn := (tget (0, 0) s.rtn x.routine).1
  let known := x.opcode == 1 || x.opcode == 2 || x.opcode == 4 || x.opcode == 5 || x.opcode == 8 ||
    (x.isRoutine && bitOf rtn 31)
  if !known || decide (16 ≤ x.flags) then (1, 0)
  else if !x.isRoutine && x.badFormat then (2, 0)
  else if x.badShape chunks then (3, 0)
  else if x.isRagged && !spanOk x.aux (4 * x.batch) then (4, 0)
  else (0, 0)

/-- R123: the checks in their order: status and subcode. -/
def State.checkDesc (s : State) (d : Die) (x : Desc) (chunks path : Nat) : Nat × Nat :=
  let head := s.checkHead x chunks
  let limit := match x.ragged with
    | 1 => x.m | 2 => x.n | _ => x.k
  if head.1 ≠ 0 then head
  else if x.isRagged && s.rangeBad x.aux (4 * x.batch) then (8, 6)
  else if x.isRagged && (List.range x.batch).any (fun b => decide (limit < s.loadNat (x.aux + 4 * b) 4)) then
    (3, 0)
  else if x.isRoutine then
    if x.aux % 64 ≠ 0 ∨ ¬ spanOk x.aux 64 then (4, 0)
    else if s.det.active && !bitOf (tget (0, 0) s.rtn x.routine).1 30 then (7, 0) else (0, 0)
  else if x.a % 64 ≠ 0 ∨ x.d % 64 ≠ 0 ∨ (x.isConvert = false ∧ x.w % 64 ≠ 0) then (4, 0)
  else if !x.historyOk || !(s.descRanges x).all (fun r => spanOk r.1 r.2) then (4, 0)
  else if x.badPitch then (5, 0)
  else if s.scratchBytes d < x.scratch chunks path s.det.active then (6, 0)
  else (0, 0)

/-! ### The operands of a work tile -/

/-- R118: n bytes of an operand: of its copy in the tiling scratch where the descriptor has one, else of memory. -/
def State.opLoad (s : State) (r : DescRun) (a n : Nat) : List Byte :=
  match r.copies.find? (fun c => decide (c.1 ≤ a) && decide (a + n ≤ c.1 + c.2.length)) with
  | some c => (c.2.drop (a - c.1)).take n
  | none => s.load a n

/-- R130: the rows, columns and reduction length of sequence b that are not beyond its length. -/
def DescRun.dims (r : DescRun) (x : Desc) (b : Nat) : Nat × Nat × Nat :=
  let l := r.lens.getD b 0
  if !x.isRagged then (x.m, x.n, x.k)
  else match x.ragged with
    | 1 => (l, x.n, x.k) | 2 => (x.m, l, x.k) | _ => (x.m, x.n, l)

/-- R125, R130: rows and columns of an output block that are computed. -/
def DescRun.blockDims (r : DescRun) (x : Desc) (b i j : Nat) : Nat × Nat :=
  let e := r.dims x b
  (min (blockRows x.fa) (e.1 - i * blockRows x.fa), min 32 (e.2.1 - 32 * j))

/-- R130: K_ACT of K-tile t of sequence b; a block-FP4 length is rounded up to 16. -/
def DescRun.kAct (r : DescRun) (x : Desc) (b t : Nat) : Nat :=
  let k := (r.dims x b).2.2
  let left := min (kTile x.fa) (k - t * kTile x.fa)
  if x.fa = .fp4 then ceilDiv left 16 * 16 else left

/-- R120, R122: where row m of sequence b of the activations starts, and its scale bytes; the row of a GATHER_GEMM is the
entry of its index vector. -/
def State.aRow (s : State) (r : DescRun) (x : Desc) (b m : Nat) : Nat × Nat :=
  let i := if x.opcode = 8 then leNat (s.opLoad r (x.aux + 4 * m) 4) else b * x.m + m
  let back := if x.opcode = 4 then x.taps - 1 else 0
  (x.a + i * x.aPitch * 16 - back * x.aPitch * 16,
   x.a + x.aSoff * 65536 + i * x.aSpitch * 16 - back * x.aSpitch * 16)

/-- R61, R122: elements and scales of activation row m at K-tile t. -/
def State.aSlice (s : State) (r : DescRun) (x : Desc) (b m t k : Nat) : List Byte × List Byte :=
  let p := s.aRow r x b m
  let k0 := t * kTile x.fa
  (s.opLoad r (p.1 + runBytes x.fa k0) (runBytes x.fa k),
   if x.fa = .fp4 then s.opLoad r (p.2 + k0 / 16) (k / 16) else [])

/-- R122: elements and scales of weight column c at K-tile t; a transposed layout is gathered. -/
def State.wSlice (s : State) (r : DescRun) (x : Desc) (b c t k : Nat) : List Byte × List Byte :=
  let w := x.wBase b
  let k0 := t * kTile x.fa
  if x.wLayout = 1 then
    ((List.range k).flatMap (fun i =>
      s.opLoad r (w + (k0 + i) * x.wPitch * 16 + c * x.fw.bytes) x.fw.bytes), [])
  else
    (s.opLoad r (w + c * x.wPitch * 16 + runBytes x.fw k0) (runBytes x.fw k),
     if x.fw = .fp4 then s.opLoad r (w + x.wSoff * 65536 + c * x.wSpitch * 16 + k0 / 16) (k / 16) else [])

/-- The K-tiles of a sequence that are issued (R130). -/
def DescRun.issued (r : DescRun) (x : Desc) (b : Nat) (ts : List Nat) : List Nat :=
  ts.filter (fun t => decide (t * kTile x.fa < (r.dims x b).2.2))

/-! ### Span decisions (R129, R356) -/

/-- R129: n bytes of a weight plane as the span check sees them: as a resident slot's summaries were made where the range
lies in its weight region, else as they are scanned now. -/
def State.weightLoad (s : State) (r : DescRun) (a n : Nat) : List Byte :=
  let hold (c : Nat × List Byte) : Bool := decide (c.1 ≤ a) && decide (a + n ≤ c.1 + c.2.length)
  match (s.slots.filter (fun e => e.2.st == .ready || e.2.st == .draining)).findSome? (fun e => e.2.sums.find? hold) with
  | some c => (c.2.drop (a - c.1)).take n
  | none => s.opLoad r a n

/-- R122, R129: elements and scales of weight column c at K-tile t of a block-FP4 product, for the span check. -/
def State.wSummary (s : State) (r : DescRun) (x : Desc) (b c t k : Nat) : List Byte × List Byte :=
  let w := x.wBase b
  let k0 := t * kTile x.fa
  (s.weightLoad r (w + c * x.wPitch * 16 + runBytes x.fw k0) (runBytes x.fw k),
   s.weightLoad r (w + x.wSoff * 65536 + c * x.wSpitch * 16 + k0 / 16) (k / 16))

/-- The least and greatest combined exponent of a row set and a block's columns; none where every block
pair is excluded. -/
def State.spanOfRows (s : State) (r : DescRun) (x : Desc) (b j : Nat) (rows : List Nat) :
    Option (Nat × Nat) :=
  let cols := (List.range (r.blockDims x b 0 j).2).map (32 * j + ·)
  let ts := r.issued x b (List.range x.tk)
  ts.foldl (fun acc t =>
    let k := r.kAct x b t
    let as_ := rows.map (fun m => s.aSlice r x b m t k)
    let ws := cols.map (fun c => s.wSummary r x b c t k)
    (List.range (k / 16)).foldl (fun acc q =>
      let zero (bs : List Byte) : Bool := (List.range 16).all (fun i => elemAt .fp4 bs (16 * q + i) % 8 == 0)
      let live (p : List Byte × List Byte) : Option Nat :=
        let sc := fieldAt p.2 q 1
        if sc = 0xFF ∨ zero p.1 = true then none else some sc
      match as_.filterMap live, ws.filterMap live with
      | a0 :: al, w0 :: wl =>
        let lo := al.foldl min a0 + wl.foldl min w0
        let hi := al.foldl max a0 + wl.foldl max w0
        match acc with
        | some (x0, y0) => some (min x0 lo, max y0 hi)
        | none => some (lo, hi)
      | _, _ => acc) acc) none

/-- R40: E_MIN where the rows run exact, none where they do not; E_MIN 0 where no pair remains. -/
def spanDecision (r : Option (Nat × Nat)) : Option Nat :=
  match r with
  | none => some 0
  | some (lo, hi) => if hi - lo ≤ 40 then some lo else none

/-- R129, R356: the decision of one reduction group, row by row, and whether it was split; a group whose span is exceeded is
split into its rows under DETERMINISTIC. -/
def State.decideGroup (s : State) (r : DescRun) (x : Desc) (b j : Nat) (rows : List Nat) : List (Option Nat) × Bool :=
  match spanDecision (s.spanOfRows r x b j rows) with
  | some e => (rows.map (fun _ => some e), false)
  | none =>
    if r.det && decide (1 < rows.length) then (rows.map (fun m => spanDecision (s.spanOfRows r x b j [m])), true)
    else (rows.map (fun _ => none), false)

/-- A list cut into pieces of four; the number bounds the pieces. -/
def foursOf : Nat → List Nat → List (List Nat)
  | 0, _ => []
  | _, [] => []
  | n + 1, l => l.take 4 :: foursOf n (l.drop 4)

/-- R125, R129, R356: the decision of an output block, row by row, the groups that were split, and those of which a row goes to the
fixed-order path, a split one by its rows.  The block is one group; where it runs as Drip jobs, each four rows are. -/
def State.decideSpan (s : State) (r : DescRun) (x : Desc) (block : Nat) : List (Option Nat) × Nat × Nat :=
  let p := x.tileOf block
  let n := (r.blockDims x p.1 p.2.1 p.2.2.1).1
  let rows := (List.range n).map (p.2.1 * blockRows x.fa + ·)
  let gs := (if r.path = 5 then foursOf n rows else [rows]).map (s.decideGroup r x p.1 p.2.2.1)
  (gs.flatMap (·.1), (gs.filter (·.2)).length,
   (gs.map (fun g => let k := (g.1.filter (·.isNone)).length; if g.2 then k else min 1 k)).sum)

/-! ### Results of a chunk and of a block (R128) -/

/-- R128: the results of one element of a chunk, one for each K-tile issued. -/
def State.chunkElems (s : State) (r : DescRun) (x : Desc) (i : Nat) : List (List ColRes) × Nat :=
  let p := x.tileOf i
  let dims := r.blockDims x p.1 p.2.1 p.2.2.1
  let ct := chunkTiles x.tk r.chunks p.2.2.2
  let ts := r.issued x p.1 ((List.range ct.2).map (ct.1 + ·))
  let spans := ((r.spans.find? (fun q => q.block == i % x.blocks)).map (·.rows)).getD []
  let cells := (List.range dims.1).flatMap (fun m => (List.range dims.2).map (fun c => (m, c)))
  let rs := cells.map (fun mc =>
    ts.map (fun t =>
      let k := r.kAct x p.1 t
      let a := s.aSlice r x p.1 (p.2.1 * blockRows x.fa + mc.1) t k
      let w := s.wSlice r x p.1 (32 * p.2.2.1 + mc.2) t k
      let e := spans.getD mc.1 (some 0)
      colResult x.fa x.fw e.isSome (e.getD 0) false a.1 a.2 w.1 w.2 k))
  (rs.map (fun l => l.map (·.1)), (rs.map (fun l => (l.map (·.2)).sum)).sum)

/-- Add two exact results (R45). -/
def ColRes.addExact : ColRes → ColRes → ColRes
  | .exact a b, .exact c _ => .exact (a + c) b
  | _, _ => .nan

/-- A result as FP32 bits (R49). -/
def ColRes.toFp32 : ColRes → Nat × Bool
  | .fp32 x => (x, false)
  | r => FloatFmt.fp32.round r.num

/-- R41, R64: a chain of FP32 additions over results, in order; the count is of saturations. -/
def foldFp32 : List ColRes → ColRes × Nat
  | [] => (.fp32 0, 0)
  | r :: rs =>
    let x := rs.foldl (fun (acc : Nat × Nat) y =>
      let c := y.toFp32; let z := fp32Add acc.1 c.1; (z.1, acc.2 + b2n c.2 + b2n z.2))
      (r.toFp32.1, b2n r.toFp32.2)
    (.fp32 x.1, x.2)

/-- R45: the exact sum of results. -/
def foldExact : List ColRes → ColRes
  | [] => .exact 0 0
  | r :: rs => rs.foldl ColRes.addExact r

/-- R68, R128: a chain of passes onto CI32, each saturating once. -/
def foldCi32 (l : List ColRes) : ColRes × Nat :=
  let x := l.foldl (fun (acc : Int × Int × Nat) y => match y with
    | .cplx re im =>
      let a := clampInt (-(2 ^ 31)) (2 ^ 31 - 1) (acc.1 + re)
      let b := clampInt (-(2 ^ 31)) (2 ^ 31 - 1) (acc.2.1 + im)
      (a.1, b.1, acc.2.2 + b2n a.2 + b2n b.2)
    | _ => acc) (0, 0, 0)
  (.cplx x.1 x.2.1, x.2.2)

/-- R128, R442: the saturations that the store stage counts for one element of a chunk: those of a chain of passes onto FP32
or CI32, or on the fixed-order path of the roundings of the single results of a later chunk. -/
def chainSat (path : Nat) (a : Fmt) (exact : Bool) (chunk : Nat) (l : List ColRes) : Nat :=
  if a = .ci16 then (if path = 0 then 0 else (foldCi32 l).2)
  else if exact = false ∨ a = .bf16 then
    (if path = 0 then 0 else if chunk = 0 then (foldFp32 l).2 else (l.map (fun y => b2n y.toFp32.2)).sum)
  else if path = 1 ∨ path = 3 then (foldFp32 l).2 else 0

/-- R41, R133: FP32 results added in order to the first of them; the count is of saturated additions. -/
def addFp32 : List ColRes → ColRes × Nat
  | [] => (.fp32 0, 0)
  | r :: rs =>
    let x := rs.foldl (fun (acc : Nat × Nat) y =>
      let z := fp32Add acc.1 y.toFp32.1; (z.1, acc.2 + b2n z.2)) (r.toFp32.1, 0)
    (.fp32 x.1, x.2)

/-- R128: combine one element's results, given for each chunk in the order the chunks finished, with the chunk numbers, and
the saturations that the vector unit counts; exact says that the element's row runs exact.  A chunk of which nothing was
issued takes no part (R130). -/
def combine (path : Nat) (a : Fmt) (exact : Bool) (chunks : List (Nat × List ColRes)) : ColRes × Nat :=
  let some_ := chunks.filter (fun q => !q.2.isEmpty)
  let inOrder := (some_.mergeSort (fun p q => decide (p.1 ≤ q.1))).flatMap (·.2)
  let first := (some_.filter (fun q => q.1 == 0)).flatMap (·.2)
  let later := ((some_.filter (fun q => q.1 != 0)).mergeSort (fun p q => decide (p.1 ≤ q.1))).flatMap (·.2)
  if a = .ci16 then
    match path with
    | 0 => (inOrder.headD (.cplx 0 0), 0)
    | _ => ((foldCi32 inOrder).1, 0)
  else if exact = false ∨ a = .bf16 then
    addFp32 ((if first.isEmpty then [] else [(foldFp32 first).1]) ++ later)
  else match path with
    | 1 => ((foldFp32 inOrder).1, 0)
    | 3 => addFp32 (some_.map (fun c => (foldFp32 c.2).1))
    | _ => (foldExact inOrder, 0)

/-- R122: the LPS tile of an output block. -/
def Desc.lpsTile (x : Desc) (b i j : Nat) : Nat :=
  x.d + (b * x.mb + i + x.batch * x.mb * j) * lpsBlockBytes (blockRows x.fa)

/-- R122, R124, R128: write a combined output block to D.  Answers the state, the saturations, and
whether an LPS header did not match (R45). -/
def State.writeBlock (s : State) (r : DescRun) (x : Desc) (block : Nat)
    (chunks : List Partial) : State × Nat × Bool :=
  let p := x.tileOf block
  let dims := r.blockDims x p.1 p.2.1 p.2.2.1
  let spans := ((r.spans.find? (fun q => q.block == block)).map (·.rows)).getD []
  let o := x.fo
  let eMin := (spans.headD (some 0)).getD 0
  let base := lpsBase x.fa eMin
  let tile := x.lpsTile p.1 p.2.1 p.2.2.1
  let none_ := chunks.all (fun c => c.vals.all (·.isEmpty))
  if x.acc ∧ none_ = true then (s, 0, false)
  else if o = .lps ∧ x.acc = true ∧ s.lpsMismatch tile base (srcFmt x.fa x.fw) then (s, 0, true)
  else
    let rnd : StoreRound := if bitOf x.store 5 then .truncate else .nearestEven
    let width := if o = .lps then 32 else dims.2
    let go := (List.range dims.1).foldl (fun (acc : State × Nat × Nat) m =>
      let start := if o = .lps then tile + 16 + 512 * m
        else x.d + (p.1 * x.m + p.2.1 * blockRows x.fa + m) * x.dPitch * 16 + runBytes o (32 * p.2.2.1)
      let exact := (spans.getD m (some 0)).isSome
      let row := (List.range width).foldl (fun (t : List Byte × Nat × Nat) c =>
        let z : ColRes × Nat :=
          if c < dims.2 then
            combine r.path x.fa exact (chunks.map (fun q => (q.chunk, q.vals.getD (m * dims.2 + c) [])))
          else (.exact 0 base, 0)
        let y := if x.acc then z.1.accum o base (s.load (start + c * o.bytes) o.bytes)
          else z.1.plain o base (x.store % 32) rnd (bitOf x.store 6)
        let nan := o = .lps ∧ leNat y.1 = lpsNan ∧ c < dims.2
        (t.1 ++ y.1, t.2.1 + z.2 + y.2,
          t.2.2 ||| (if nan then 1 else 0) ||| (if o = .lps ∧ 0 < y.2 then 2 else 0))) ([], 0, 0)
      (acc.1.store start row.1, acc.2.1 + row.2.1, acc.2.2 ||| row.2.2)) (s, 0, 0)
    if o = .lps then
      let old := if x.acc then s.loadNat (tile + 3) 1 else 0
      (go.1.store tile (lpsHeader base (srcFmt x.fa x.fw) (old ||| go.2.2)), go.2.1, false)
    else (go.1, go.2.1, false)

/-! ### CONVERT (R487) and ROUTINE -/

/-- R64 applied to an element code of an accumulating CONVERT: the code and the saturations (R49). -/
def accCode (o : Fmt) (prior c : Nat) : Nat × Nat :=
  match o with
  | .fp32 => let z := fp32Add prior c; (z.1, b2n z.2)
  | .int32 =>
    let z := clampInt (-(2 ^ 31)) (2 ^ 31 - 1) (ofBits 32 prior + ofBits 32 c)
    (toBits 32 z.1, b2n z.2)
  | .ci32 =>
    let re := clampInt (-(2 ^ 31)) (2 ^ 31 - 1) (ofBits 32 prior + ofBits 32 c)
    let im := clampInt (-(2 ^ 31)) (2 ^ 31 - 1) (ofBits 32 (prior / 2 ^ 32) + ofBits 32 (c / 2 ^ 32))
    (toBits 32 re.1 + toBits 32 im.1 * 2 ^ 32, b2n re.2 + b2n im.2)
  | .lps => let z := lpsAdd prior c; (z.1, b2n z.2)
  | _ => (c, 0)

/-- R487: the LPS tile, row and column of element (m, n): the tile's address and the element's. -/
def State.lpsElem (s : State) (x : Desc) (start m n : Nat) : Nat × Nat :=
  let mB := s.lpsRows x.a
  let tile := start + (m / mB + ceilDiv x.m mB * (n / 32)) * lpsBlockBytes mB
  (tile, tile + 16 + (m % mB * 32 + n % 32) * 16)

/-- R50, R487: the value of source element (m, n) and its code. -/
def State.convSource (s : State) (x : Desc) (m n : Nat) : Num × Nat :=
  match x.fa with
  | .lps =>
    let p := s.lpsElem x x.a m n
    let c := s.loadNat p.2 16
    (lpsValue (ofBits 16 (s.loadNat p.1 2)) c, c)
  | .fp4 =>
    let row := x.a + m * x.aPitch * 16
    let c := s.loadNat (row + n / 2) 1 / 16 ^ (n % 2) % 16
    let sc := s.loadNat (x.a + x.aSoff * 65536 + m * x.aSpitch * 16 + n / 16) 1
    (fp4BlockValue sc c, c)
  | f =>
    let c := s.loadNat (x.a + m * x.aPitch * 16 + n * f.bytes) f.bytes
    (f.value c, c)

/-- R50: the code of one element in a format other than block FP4, and whether it saturated. -/
def convertCode (src dst : Fmt) (v : Num) (c : Nat) : Nat × Nat :=
  if src = dst then (c, 0)
  else match src, dst with
    | .ci16, .ci32 => (toBits 32 (ofBits 16 c) + toBits 32 (ofBits 16 (c / 2 ^ 16)) * 2 ^ 32, 0)
    | .ci32, .ci16 =>
      let re := ci32ToCi16 c
      let im := ci32ToCi16 (c / 2 ^ 32)
      (re.1 + im.1 * 2 ^ 16, b2n re.2 + b2n im.2)
    | s, d => let r := v.convert s d; (r.1, b2n r.2)

/-- R45, R121: an LPS tile of D whose BASE or SRC_FMT differs from that of its source tile, onto which an
accumulating CONVERT adds. -/
def State.convMismatch (s : State) (x : Desc) (src dst : Nat) : Bool := x.acc && s.load src 3 != s.load dst 3

/-- R51, R487: one row of a CONVERT as writes (address, bytes), with saturations; an LPS tile that does not
match is not written (R45). -/
def State.convRow (s : State) (x : Desc) (m : Nat) : List (Nat × List Byte) × Nat :=
  match x.fo with
  | .fp4 =>
    let cols := List.range (x.n / 16)
    let bs := cols.map (fun j =>
      if x.fa = .fp4 then
        (s.loadNat (x.a + x.aSoff * 65536 + m * x.aSpitch * 16 + j) 1,
          (List.range 16).map (fun i => (s.convSource x m (16 * j + i)).2), 0)
      else fp4Block ((List.range 16).map (fun i => (s.convSource x m (16 * j + i)).1)))
    let nibs := bs.flatMap (·.2.1)
    let elems := (List.range (x.n / 2)).map (fun i =>
      BitVec.ofNat 8 (nibs.getD (2 * i) 0 + 16 * nibs.getD (2 * i + 1) 0))
    ([(x.d + m * x.dPitch * 16, elems),
      (x.d + x.wSoff * 65536 + m * x.wSpitch * 16, bs.map (fun b => BitVec.ofNat 8 b.1))],
     (bs.map (·.2.2)).sum)
  | .lps =>
    let cs := (List.range x.n).map (fun n =>
      let p := s.lpsElem x x.a m n
      let q := s.lpsElem x x.d m n
      let c := (s.convSource x m n).2
      let z := if x.acc then accCode .lps (s.loadNat q.2 16) c else (c, 0)
      if s.convMismatch x p.1 q.1 then (([] : List (Nat × List Byte)), 0) else ([(q.2, leBytes 16 z.1)], z.2))
    (cs.flatMap (·.1), (cs.map (·.2)).sum)
  | o =>
    let cs := (List.range x.n).map (fun n =>
      let v := s.convSource x m n
      let r := convertCode x.fa o v.1 v.2
      let a := x.d + m * x.dPitch * 16 + n * o.bytes
      let z := if x.acc then accCode o (s.loadNat a o.bytes) r.1 else (r.1, 0)
      (leBytes o.bytes z.1, r.2 + z.2))
    ([(x.d + m * x.dPitch * 16, cs.flatMap (·.1))], (cs.map (·.2)).sum)

/-- R487: the LPS tiles of a CONVERT from a start address: each tile's address, first row, rows, first
column and columns. -/
def State.convTiles (s : State) (x : Desc) (start : Nat) : List (Nat × Nat × Nat × Nat × Nat) :=
  let mB := s.lpsRows x.a
  let mb := ceilDiv x.m mB
  (List.range (mb * ceilDiv x.n 32)).map (fun t =>
    (start + t * lpsBlockBytes mB, t % mb * mB, min mB (x.m - t % mb * mB), t / mb * 32, min 32 (x.n - t / mb * 32)))

/-- R43, R44, R487: the header writes of an LPS to LPS CONVERT: the source tile's header, with FLAGS that
gather those of both tiles and of the additions where it accumulates. -/
def State.convHeads (s : State) (x : Desc) : List (Nat × List Byte) :=
  ((s.convTiles x x.a).zip (s.convTiles x x.d)).flatMap (fun e =>
    let zs := (List.range e.1.2.2.1).flatMap (fun i => (List.range e.1.2.2.2.2).map (fun j =>
      accCode .lps (s.loadNat (e.2.1 + 16 + (32 * i + j) * 16) 16) (s.loadNat (e.1.1 + 16 + (32 * i + j) * 16) 16)))
    let flags := s.loadNat (e.1.1 + 3) 1 ||| s.loadNat (e.2.1 + 3) 1 |||
      b2n (zs.any (·.1 == lpsNan)) ||| 2 * b2n (zs.any (0 < ·.2))
    if s.convMismatch x e.1.1 e.2.1 then []
    else [(e.2.1, if x.acc then s.load e.1.1 3 ++ leBytes 1 flags ++ s.load (e.1.1 + 4) 12 else s.load e.1.1 16)])

/-- R487: the ranges a CONVERT reads: its source, and D where it accumulates. -/
def State.convReads (s : State) (x : Desc) : List (Nat × Nat) :=
  let tiles (a : Nat) := (s.convTiles x a).map (fun e => (e.1, 16 + 512 * e.2.2.1))
  (if x.fa = .lps then tiles x.a else (s.srcPlanes x).flatMap Plane.each) ++
  (if x.acc = false then [] else if x.fo = .lps then tiles x.d else (s.dstPlanes x).flatMap Plane.each)

/-- Write free values where the given writes go. -/
def State.loseWrites (s : State) (ws : List (Nat × List Byte)) : State :=
  ws.foldl (fun s w => (s.store w.1 (freeBytes s.free w.2.length)).drew w.2.length) s

/-- R487: the whole conversion, with its status and subcode; saturations count in BK_SAT_VEC of the die
(R442).  DEDUCED (log 70, 71): an uncorrectable word among what it reads, or an LPS tile it may not add
onto, ends it with EXEC_ERROR.  Where D overlaps the source the result is free (R134). -/
def State.doConvert (s : State) (d : Die) (x : Desc) : State × Nat × Nat :=
  let rows := (List.range x.m).map (s.convRow x)
  let ws := rows.flatMap (·.1) ++ (if x.fo = .lps then s.convHeads x else [])
  let reads := s.convReads x
  let t := s.noteRanges (coreId d 0) reads
  if reads.any (fun r => s.rangeBad r.1 r.2) then (t.loseWrites ws, 8, 6)
  else if x.fo = .lps ∧ ((s.convTiles x x.a).zip (s.convTiles x x.d)).any
      (fun e => s.convMismatch x e.1.1 e.2.1) = true then (t.loseWrites ws, 8, 5)
  else
    let u := ws.foldl (fun t w => t.store w.1 w.2) t
    let u := if s.selfOverlap x then u.loseWrites ws else u
    (u.count (bkBlock + 0x10000 * d.index + 0x0308) (rows.map (·.2)).sum, 0, 0)

/-- R120: a routine of the image writes what its parameter block says; the image's routines are not part
of the spec, so the bytes and where they go are free (log 15). -/
def State.doRoutine (s : State) : State :=
  (s.store (Config.freeValue s.free % 2 ^ 48) (freeBytes (s.free + 2) (Config.freeValue (s.free + 1) % 2 ^ 16))).drew
    (Config.freeValue (s.free + 1) % 2 ^ 16 + 2)

/-! ### Running and completing -/

/-- R124: the completion record. -/
def recordOf (x : Desc) (status sub path chunks ran skipped : Nat) : BitVec 128 :=
  BitVec.ofNat 128 (leNat (leBytes 1 status ++ leBytes 1 sub ++ leBytes 2 x.layer ++ leBytes 2 x.op ++
    leBytes 1 path ++ leBytes 1 chunks ++ leBytes 4 ran ++ leBytes 4 skipped))

/-- R444: the trace record of a descriptor that starts or completes, by the die's lead core (log 33). -/
def State.traceDesc (s : State) (kind : Nat) (d : Die) (vf : Nat) (x : Desc) (arg : Nat) : State :=
  s.trace kind (coreId d 0) x.layer x.op vf arg

/-- R121, R124: post a completion record to the descriptor's source.  IRQ interrupts it: for a request, core 0 of the helm
holder's bank, where the Harbourmaster runs; for the PF's own context its vector of management events (log 16). -/
def State.postRecord (s : State) (d : Die) (vf slot dseq : Nat) (x : Desc) (r : BitVec 128) : State :=
  let s := s.traceDesc 2 d vf x (dseq + r.toNat % 256 * 2 ^ 32)
  let t := { s with sh := { s.sh with recs := s.sh.recs ++ [{
    die := d.index, vf := vf, slot := slot, irq := x.irq, record := r }] } }
  if !x.irq then t
  else if vf = 0 then t.mgmtEvent
  else t.irqTo (coreId .hd (if s.boot.holderB then 8 else 0)) .other

/-- R131: the tally, the done count and the hand-back slots of a context. -/
def Ctx.tally (c : Ctx) : Nat := c.scratch
def Ctx.done (c : Ctx) : Nat := c.scratch + 0x40
def Ctx.handback (c : Ctx) (k : Nat) : Nat := c.scratch + 0x80 + 8 * k

/-- R118: the rows of operands that lie outside the die's own SRAM, and the ranges of the planes they belong to. -/
def State.outside (s : State) (d : Die) (x : Desc) : List Plane :=
  (s.srcPlanes x).filter (fun p => decide (0 < p.range.2) && !inDieWindow d p.range.1 p.range.2)

/-- R118: operands are to be copied into the tiling scratch. -/
def State.needsStaging (s : State) (d : Die) (x : Desc) : Bool := !(s.outside d x).isEmpty

/-- R118: beyond the control words the contents of a context's portion are unspecified: free bytes. -/
def State.loseScratch (s : State) (c : Ctx) : State :=
  let n := c.scratchLen - 0x100
  (s.store (c.scratch + 0x100) (freeBytes s.free n)).drew n

/-- R153: requests in the decode batch. -/
def State.batchSize (s : State) : Nat := (s.hm.man.filter (fun e => e.2.st == .decode && e.2.inBatch)).length

/-- R90, R125: on a generation die, a GEMM whose weights lie in LANE-mode groups runs as Drip jobs: always with at most four
rows, and beyond them unless the die applies R90 to it, which it may for a batch above 16; r90 is firmware's choice there. -/
def State.runsDrip (s : State) (d : Die) (x : Desc) (r90 : Bool) : Bool :=
  match d, place x.w with
  | .gd n, .sram (.gd n') off =>
    n == n' && x.opcode == 1 && !s.bgStripe n (off / 0x2000000) &&
    (decide (x.m ≤ 4) || !(r90 && decide (16 < s.batchSize))) &&
    (x.fa == .int8 || x.fa == .fp4 || x.fa.isFp8)
  | _, _ => false

/-- R126: the arrays of a die available to the context of key k when a descriptor starts: those ON, not parked, not named by a
booking, and held by no other context (log 67). -/
def State.availArrays (s : State) (d : Die) (k : Nat) : Nat :=
  ((dieArrays d).filter (fun g => s.islOn (arrayIsland g) && !s.parkedArray g && !s.named? g &&
    !(s.sh.ctx.any (fun e => e.1 != k && e.2.arrays.contains g)))).length

/-- R123, R131: the lead core takes the next descriptors of a context's queue: a refused one, a CONVERT
and a ROUTINE complete at once; an array product starts, with its tally, done count and hand-back slots
set.  With nothing left the context is destroyed (R183). -/
def State.runQueue (s : State) (d : Die) (key : Nat) (c : Ctx) : List QDesc → State
  | [] => s.setCtx key none
  | q :: qs =>
    let x := Desc.parse q.desc
    let drip := s.runsDrip d x q.r90
    let avail := s.availArrays d key
    let chunks := if x.isConvert || x.isRoutine || drip then 1 else x.chunks d s.det.active avail
    let path := x.path chunks s.det.active drip
    let chk := s.checkDesc d x chunks path
    let s := if x.isRagged && (s.checkHead x chunks).1 == 0 then s.noteReads (coreId d 0) x.aux (4 * x.batch) else s
    if chk.1 ≠ 0 then
      (s.postRecord d c.vf c.slot c.dseq x (recordOf x chk.1 chk.2 path chunks 0 0)).runQueue d key c qs
    else if x.isConvert then
      let t := (s.traceDesc 1 d c.vf x (c.dseq + 6 * 2 ^ 32 + 2 ^ 40)).doConvert d x
      (t.1.postRecord d c.vf c.slot c.dseq x (recordOf x t.2.1 t.2.2 6 1 0 0)).runQueue d key c qs
    else if x.isRoutine then
      ((s.traceDesc 1 d c.vf x (c.dseq + 6 * 2 ^ 32 + 2 ^ 40)).doRoutine.postRecord d c.vf c.slot c.dseq x (recordOf x 0 0 6 1 0 0)).runQueue d key c qs
    else
      let seq := (c.dseq + 1) % 2 ^ 32
      let t := (s.storeNat c.tally 8 (seq * 2 ^ 32)).storeNat c.done 4 0
      let t := t.store (c.handback 0) (leBytes (8 * (dieArrays d).length) 0)
      let t := t.traceDesc 1 d c.vf x (seq + path * 2 ^ 32 + chunks % 256 * 2 ^ 40)
      t.setCtx key (some { c with
        dseq := seq, queue := qs
        run := some {
          desc := q.desc, dseq := seq, path := path, chunks := chunks, tiles := x.blocks * chunks
          det := s.det.active
          lens := if x.isRagged then (List.range x.batch).map (fun b => s.loadNat (x.aux + 4 * b) 4) else []
          staged := !s.needsStaging d x } })

/-- R118, R124, R133: the running descriptor of a context ends with a status, its scratch is left unspecified, and the queue
goes on. -/
def State.endDesc (s : State) (d : Die) (key : Nat) (c : Ctx) (r : DescRun) (status sub : Nat) : State :=
  let x := Desc.parse r.desc
  let path := if r.ordered then 4 else r.path
  ((s.loseScratch c).postRecord d c.vf c.slot c.dseq x (recordOf x status sub path r.chunks r.ran r.skipped)).runQueue d key
    { c with run := none, queue := [] } c.queue

/-- An output block of D takes free values. -/
def State.loseBlock (s : State) (r : DescRun) (x : Desc) (block : Nat) : State :=
  let p := x.tileOf block
  let dims := r.blockDims x p.1 p.2.1 p.2.2.1
  s.loseWrites (
    if x.fo = .lps then [(x.lpsTile p.1 p.2.1 p.2.2.1, leBytes (16 + 512 * dims.1) 0)]
    else (List.range dims.1).map (fun m =>
      (x.d + (p.1 * x.m + p.2.1 * blockRows x.fa + m) * x.dPitch * 16 + runBytes x.fo (32 * p.2.2.1),
       leBytes (runBytes x.fo dims.2) 0)))

/-- R123: after EXEC_ERROR or ABORTED, D is unspecified for every block the descriptor had begun. -/
def State.loseBlocks (s : State) (r : DescRun) : State :=
  r.begun.foldl (fun s block => s.loseBlock r (Desc.parse r.desc) block) s

/-- R45: the same, but for a block whose LPS tile did not match, which is left as it is. -/
def State.loseOthers (s : State) (r : DescRun) (block : Nat) : State :=
  s.loseBlocks { r with begun := r.begun.filter (· ≠ block) }

/-- Every descriptor of a context ends ABORTED, and the context goes; its arrays are charged up to then (R185). -/
def State.abortCtx (s : State) (d : Die) (key : Nat) : State :=
  let s := s.settle
  match s.ctxOf key with
  | none => s
  | some c =>
    let t := match c.run with
      | some r =>
        let x := Desc.parse r.desc
        ((s.loseBlocks r).loseScratch c).postRecord d c.vf c.slot c.dseq x
          (recordOf x 9 0 (if r.ordered then 4 else r.path) r.chunks r.ran r.skipped)
      | none => s
    let t := c.queue.foldl (fun t q =>
      let x := Desc.parse q.desc
      t.postRecord d c.vf c.slot c.dseq x (recordOf x 9 0 0 0 0 0)) t
    t.setCtx key none

/-- The lowest free context number of a die (R183, R189); RD has none while a cell plan is loaded. -/
def State.freeCtx (s : State) (d : Die) : Option Nat :=
  if d == .rd && s.planLoaded then none
  else (List.range (maxCtx d)).find? (fun c => (s.ctxOf (ctxKey d c)).isNone)

/-- R184: the parts of a die's SRAM: tiling scratch, then the berth region, then the context area. -/
def State.contextArea (s : State) (d : Die) : Nat × Nat :=
  let m := s.cfg.mem.getD d.index {}
  (sramBase d + (m.scratch + m.berthSram) * 2 ^ 20, sramBase d + sramSpan d)

/-- R183: first fit from the bottom among the used (start, length) ranges. -/
def firstFit (lo hi len : Nat) (used : List (Nat × Nat)) : Option Nat :=
  let starts := (lo :: used.map (fun u => u.1 + u.2)).mergeSort (· ≤ ·)
  starts.find? (fun a => decide (lo ≤ a) && decide (a + len ≤ hi) &&
    used.all (fun u => decide (a + len ≤ u.1) || decide (u.1 + u.2 ≤ a)))

/-- R201: passes of an ended booking still run on arrays it named. -/
def State.stillRuns (s : State) (n : Nat) (e : TtEntry) : Bool :=
  (e.st == .done || e.st == .cancelled) &&
  (List.range 16).any (fun k => bitOf e.arrays k && !(s.esOf (16 * n + k)).runs.isEmpty)

/-- R197, R201: the window of the bookings of PDn that have been accepted and hold it still, as the lowest address it
reaches. -/
def State.windowLow (s : State) (d : Die) : Nat :=
  match d with
  | .pd n =>
    let es := (List.range 64).map (fun i => tget {} s.tt.entries (64 * n.val + i))
    let w := (es.filter (fun e => (e.st != .free && e.st != .done && e.st != .refused && e.st != .cancelled) ||
      s.stillRuns n e)).foldl (fun m e => max m e.rwin) 0
    sramBase d + sramSpan d - w * 2 ^ 20
  | _ => sramBase d + sramSpan d

/-- The resident contexts of a die, for their portions and extents; those of a saved context are free for others (R189,
R193). -/
def State.dieCtxs (s : State) (d : Die) : List Ctx := (s.sh.ctx.filter (fun e => e.1 / 8 == d.index)).map (·.2)

/-- R183: a context for a VF and slot, where a number, a portion and an extent are free. -/
def State.newCtx (s : State) (d : Die) (vf slot : Nat) : Option (Nat × Ctx) :=
  let sl := s.slotOf slot
  let round (n : Nat) : Nat := max (2 ^ 20) (ceilDiv n (2 ^ 20) * 2 ^ 20)
  let cs := s.dieCtxs d
  let area := s.contextArea d
  match s.freeCtx d,
    firstFit (sramBase d) (sramBase d + s.scratchBytes d) (round sl.scratch) (cs.map (fun c => (c.scratch, c.scratchLen))),
    firstFit area.1 (min area.2 (s.windowLow d)) (round sl.extent) (cs.map (fun c => (c.extent, c.extentLen))) with
  | some n, some p, some e =>
    let c : Ctx :=
      { id := s.sh.made, vf := vf, slot := slot, scratch := p, scratchLen := round sl.scratch
        extent := e, extentLen := round sl.extent
        arrays := (match d with | .gd _ => dieArrays d | _ => []) }
    some (ctxKey d n, c)
  | _, _, _ => none

/-- R190: a context is being stopped: its arrays get STOP, and claiming ends. -/
def State.stopCtx (s : State) (key : Nat) (why : StopFor) : State :=
  match s.ctxOf key with
  | none => s
  | some c =>
    let t := c.arrays.foldl (fun s g => s.setRegB (esReg g 0) 2 2 1) s
    t.setCtx key (some { c with st := .stopping, rel := [], target := 0, held := c.arrays, stopFor := why })

/-- The booking has been accepted and has not ended. -/
def TtEntry.live (e : TtEntry) : Bool :=
  e.st == .accepted || e.st == .clearing || e.st == .ready || e.st == .active || e.st == .late

/-- R197: the context is in the affected set of a booking of its die. -/
def State.inAffected (s : State) (d : Nat) (c : Ctx) : Bool :=
  s.tt.entries.any (fun b => b.1 / 64 == d && b.2.live && b.2.affected.contains c.id)

/-- R189: a ninth context is needed on a prompt die: the lowest-ranked VF that holds a context there and is in no booking's
affected set gives one up, if the waiting VF ranks ahead.  While a context of the die is on its way out, no further one is
stopped for this.  Contexts of RD are never saved (R191), so that there the descriptor waits (log 145). -/
def State.evict (s : State) (d : Die) (v : Nat) : State :=
  let s := s.settle
  let here := s.sh.ctx.filter (fun e => e.1 / 8 == d.index)
  let cs := here.filter (fun e => e.2.st == .running && !s.inAffected d.index e.2)
  if 4 ≤ d.index ∨ (s.freeCtx d).isSome = true ∨ here.any (fun e => e.2.st == .stopping || e.2.st == .saving) = true then s
  else match cs.find? (fun e => cs.all (fun q => q.2.vf == e.2.vf || s.ahead q.2.vf e.2.vf)) with
    | none => s
    | some e => if s.ahead v e.2.vf then s.stopCtx e.1 .share else s

/-- R193, R197: a range meets that of a context resident on a die. -/
def State.clashes (s : State) (n : Nat) (a len : Nat) (f : Ctx → Nat × Nat) : Bool :=
  s.sh.ctx.any (fun e => e.1 / 8 == n && rangesMeet a len (f e.2).1 (f e.2).2)

/-- R189, R193: a saved context may be restored: a number, its portion and its extent are free, and no part of the extent lies
in a live booking's window; nor is it restored while every array it held is booked. -/
def State.restorable (s : State) (e : SavedCtx) : Bool :=
  (s.freeCtx (Die.ofIndex e.die)).isSome &&
  !s.clashes e.die e.ctx.scratch e.ctx.scratchLen (fun c => (c.scratch, c.scratchLen)) &&
  !s.clashes e.die e.ctx.extent e.ctx.extentLen (fun c => (c.extent, c.extentLen)) &&
  decide (e.ctx.extent + e.ctx.extentLen ≤ s.windowLow (Die.ofIndex e.die)) &&
  (e.held.isEmpty || !(e.held.all s.named?))

/-- R189: a saved context whose VF ranks ahead is to be restored before a new context of VF v. -/
def State.savedFirst (s : State) (d : Die) (v : Nat) : Bool :=
  s.sh.saved.any (fun e => e.die == d.index && s.ahead e.ctx.vf v && s.restorable e)

/-- R183, R189: the new context for a VF and slot, where one can be made now. -/
def State.canMake (s : State) (d : Die) (vf slot : Nat) : Option (Nat × Ctx) :=
  if s.savedFirst d vf then none else s.newCtx d vf slot

/-- R183, R189: a descriptor arrives at a die for a VF and slot: it joins the context's queue, or starts in a new context, or
waits for one, for which a lower-ranked VF may have to give one up. -/
def State.placeDesc (s : State) (d : Die) (vf slot : Nat) (q : QDesc) : State :=
  let s := s.settle
  match s.sh.ctx.find? (fun e => e.1 / 8 == d.index && e.2.vf == vf && e.2.slot == slot) with
  | some (key, c) =>
    if c.run.isNone ∧ c.st = .running then
      (s.wakeVf vf).runQueue d key { c with queue := [] } (c.queue ++ [q])
    else s.setCtx key (some { c with queue := c.queue ++ [q] })
  | none =>
    match s.canMake d vf slot with
    | some (key, c) =>
      let t := s.wakeVf vf
      { t with sh.made := t.sh.made + 1 }.runQueue d key c [q]
    | none =>
      let w : WaitDesc := { die := d.index, vf := vf, slot := slot, desc := q }
      let t := s.evict d vf
      { t with sh.wait := t.sh.wait ++ [w] }

/-- A context goes on: what runs in it goes on from its hand-back entries, and otherwise its queue starts. -/
def State.goOn (s : State) (d : Die) (key : Nat) (c : Ctx) : State :=
  let s := s.settle.wakeVf c.vf
  let c := { c with st := .running, stopped := false, restoreFrom := 0 }
  if c.run.isNone then s.runQueue d key { c with queue := [] } c.queue else s.setCtx key (some c)

/-- R189: descriptors that wait for a context of a die are tried again, in their order. -/
def State.serveWait (s : State) (d : Die) : State :=
  let ws := s.sh.wait.filter (fun w => w.die == d.index)
  ws.foldl (fun s w => s.placeDesc d w.vf w.slot w.desc)
    { s with sh.wait := s.sh.wait.filter (fun w => w.die != d.index) }

/-- R120: a descriptor with the given opcode reaches a die that carries arrays. -/
def State.descCmd (s : State) (op : Nat → Bool) (d : Die) (vf : Fin 513) (slot : Fin 16)
    (q : BitVec 512) (r90 : Bool) : Out :=
  onlyIf (op (Desc.parse q).opcode && s.dieOn d && decide (0 < maxCtx d)) s (s.placeDesc d vf slot { desc := q, r90 := r90 })

/-- R120: GEMM. -/
def execDescGemm (d : Die) (vf : Fin 513) (slot : Fin 16) (desc : BitVec 512) (r90 : Bool) (s : State) : Out :=
  unlessHalted s (dieUnit d) <|
  s.descCmd (· == 1) d vf slot desc r90

/-- R120, R130: GEMM_BATCHED. -/
def execDescGemmBatched (d : Die) (vf : Fin 513) (slot : Fin 16) (desc : BitVec 512) (s : State) : Out :=
  unlessHalted s (dieUnit d) <|
  s.descCmd (· == 2) d vf slot desc false

/-- R120: CONV1D, which runs as a GEMM with K = TAPS × C over overlapping rows. -/
def execDescConv1d (d : Die) (vf : Fin 513) (slot : Fin 16) (desc : BitVec 512) (s : State) : Out :=
  unlessHalted s (dieUnit d) <|
  s.descCmd (· == 4) d vf slot desc false

/-- R487: CONVERT. -/
def execDescConvert (d : Die) (vf : Fin 513) (slot : Fin 16) (desc : BitVec 512) (s : State) : Out :=
  unlessHalted s (dieUnit d) <|
  s.descCmd (· == 5) d vf slot desc false

/-- R120: GATHER_GEMM. -/
def execDescGatherGemm (d : Die) (vf : Fin 513) (slot : Fin 16) (desc : BitVec 512) (s : State) : Out :=
  unlessHalted s (dieUnit d) <|
  s.descCmd (· == 8) d vf slot desc false

/-- R120: ROUTINE. -/
def execDescRoutine (d : Die) (vf : Fin 513) (slot : Fin 16) (desc : BitVec 512) (s : State) : Out :=
  unlessHalted s (dieUnit d) <|
  s.descCmd (fun o => decide (0x40 ≤ o) && decide (o < 0x80)) d vf slot desc false

/-- R123: a reserved opcode or reserved FLAGS are refused with BAD_OPCODE. -/
def execDescBadOpcode (d : Die) (vf : Fin 513) (slot : Fin 16) (desc : BitVec 512) (s : State) : Out :=
  unlessHalted s (dieUnit d) <|
  let x := Desc.parse desc
  let known := x.opcode == 1 || x.opcode == 2 || x.opcode == 4 || x.opcode == 5 || x.opcode == 8 || x.isRoutine
  onlyIf ((!known || decide (16 ≤ x.flags)) && s.dieOn d && decide (0 < maxCtx d)) s
    (s.postRecord d vf slot 0 x (recordOf x 1 0 0 0 0 0))

/-- A state of a die's contexts in which one may have gone: descriptors that wait are tried again (R189). -/
def State.afterDesc (s : State) (d : Die) : State := s.serveWait d

/-- R129, R356: a scan unit is scanned: the block's FP4_EXACT and E_MIN are set; a block sent to the fixed-order path counts in
BK_FP4_FB (R40) and one split row by row in HM_DET_SPLIT; with an LPS output such a block ends the descriptor with
EXEC_ERROR, SUBCODE 0x04, before its first pass. -/
def execSpanScan (d : Die) (c : Fin 8) (block : Nat) (s : State) : Out :=
  unlessHalted s (dieUnit d) <|
  let key := ctxKey d c
  match s.ctxOf key with
  | none => .next s
  | some cx =>
    match cx.run with
    | none => .next s
    | some r =>
      let x := Desc.parse r.desc
      let dec := s.decideSpan r x block
      let fixed := dec.1.any (·.isNone)
      let t := (s.count (bkBlock + 0x10000 * d.index + 0x0300) dec.2.2).count (hmBlock + 0x064) dec.2.1
      let t := if x.fo = .lps ∧ (fixed = true ∨ 0 < dec.2.1) then ((t.loseBlocks r).endDesc d key cx r 8 4).afterDesc d
        else t.setCtx key (some { cx with run := some { r with
          spans := r.spans ++ [{ block := block, rows := dec.1 }], ordered := r.ordered || fixed } })
      onlyIf (cx.st == .running && r.staged && x.fa == .fp4 && decide (block < x.blocks) &&
        !(r.spans.any (fun q => q.block == block))) s t

/-- R118, R123: the code with which the copies of a descriptor's operands fail: ADDRESS where a source cannot be reached,
ECC for an uncorrectable word; 0 where they succeed. -/
def State.copyCode (s : State) (d : Die) (x : Desc) : Nat :=
  let rows := (s.outside d x).flatMap Plane.each
  if rows.any (fun r => !s.rangeOk r.1 r.2) then 1
  else if rows.any (fun r => s.rangeBad r.1 r.2) then 6 else 0

/-- R118: firmware copies operands that lie outside the die's SRAM into the context's tiling scratch, whose contents beyond
the control words are unspecified from then on; a copy that fails ends the descriptor with EXEC_ERROR (R123). -/
def execOperandStageCopy (d : Die) (c : Fin 8) (s : State) : Out :=
  unlessHalted s (dieUnit d) <|
  let key := ctxKey d c
  match s.ctxOf key with
  | none => .next s
  | some cx =>
    match cx.run with
    | none => .next s
    | some r =>
      let x := Desc.parse r.desc
      let t := s.noteRanges (coreId d 0) ((s.outside d x).flatMap Plane.each)
      let code := s.copyCode d x
      onlyIf (cx.st == .running && !r.staged) s
        (if code ≠ 0 then ((t.loseBlocks r).endDesc d key cx r 8 code).afterDesc d
         else (t.loseScratch cx).setCtx key (some { cx with run := some { r with
           staged := true
           copies := (s.outside d x).map (fun p => (p.range.1, s.load p.range.1 p.range.2)) } }))

/-- R130: the work tile lies wholly beyond its sequence's length. -/
def DescRun.tileSkipped (r : DescRun) (x : Desc) (i : Nat) : Bool :=
  let p := x.tileOf i
  let dims := r.blockDims x p.1 p.2.1 p.2.2.1
  dims.1 == 0 || dims.2 == 0

/-- R133: one more tile is done; at T the completion record is posted. -/
def State.countDone (s : State) (d : Die) (key : Nat) (c : Ctx) (r : DescRun) : State :=
  let n := s.loadNat c.done 4 + 1
  let t := (s.storeNat c.done 4 n).setCtx key (some { c with run := some r })
  if r.tiles ≤ n then t.endDesc d key c r 0 0 else t

/-- R119, R129: firmware fills the staging registers of an array for the passes of a work tile: the tag of the descriptor, the
activation format and the block's span decision; the rest is where firmware has placed things, which R118 leaves open. -/
def State.stageTile (s : State) (g : Nat) (r : DescRun) (x : Desc) (block : Nat) : State :=
  let os : List Nat := [0x010, 0x014, 0x018, 0x01C, 0x020, 0x028, 0x040, 0x044, 0x048, 0x04C, 0x050, 0x054, 0x058, 0x05C,
    0x060, 0x064]
  let t := os.zipIdx.foldl (fun (t : State) o =>
    let r := (regRow (esReg g o.1)).getD { base := 0 }
    t.setReg (esReg g o.1) (Config.freeValue (s.free + o.2) &&& r.rw)) (s.drew os.length)
  let e := ((r.spans.find? (fun q => q.block == block)).map (fun q => q.rows.headD (some 0))).getD (some 0)
  let t := (t.setRegB (esReg g 0x060) 17 8 (e.getD 0 * 2 + b2n e.isSome)).setRegB (esReg g 0x060) 3 0 x.aFmt
  t.setReg (esReg g 0x068) (x.op * 2 ^ 16 + x.layer)

/-- R119, R125: the same for the Drip jobs of a work tile. -/
def State.stageJob (s : State) (n : Nat) (r : DescRun) (x : Desc) (block : Nat) : State :=
  let reg (o : Nat) : Nat := dlBlock + 0x1000 * n + o
  let os : List Nat := [0x010, 0x014, 0x018, 0x01C, 0x020, 0x024, 0x028, 0x02C, 0x030]
  let t := os.zipIdx.foldl (fun (t : State) o =>
    let r := (regRow (reg o.1)).getD { base := 0 }
    t.setReg (reg o.1) (Config.freeValue (s.free + o.2) &&& r.rw)) (s.drew os.length)
  let e := ((r.spans.find? (fun q => q.block == block)).map (fun q => q.rows.headD (some 0))).getD (some 0)
  let t := (t.setRegB (reg 0x01C) 24 16 (e.getD 0)).setRegB (reg 0x01C) 11 0 (x.oFmt * 2 ^ 8 + x.aFmt * 2 ^ 4 + x.wFmt)
  t.setReg (reg 0x034) (x.op * 2 ^ 16 + x.layer)

/-- R119: the staging registers that a work tile's passes or jobs use. -/
def State.stageFor (s : State) (d : Die) (g : Nat) (r : DescRun) (x : Desc) (block : Nat) : State :=
  if r.path = 5 then s.stageJob (d.index - 4) r x block else s.stageTile g r x block

/-- R131: the array can take a tile: its pass FIFO of 8 entries, beside the pass that runs, holds at least one pass of each
tile that it has not finished. -/
def DescRun.roomFor (r : DescRun) (g : Nat) : Bool := decide ((r.running.filter (fun q => q.array == g)).length < 9)

/-- R131: some hand-back slot of the context holds an entry, which a core takes before it claims. -/
def State.handedBack (s : State) (d : Die) (c : Ctx) : Bool :=
  (List.range (dieArrays d).length).any (fun k => bitOf (s.loadNat (c.handback k) 8) 63)

/-- R131: a core adds 1 to the tally for an array of the context that can take a tile, no hand-back entry waiting, and runs
the tile it claims, or counts it as skipped. -/
def execTileClaim (d : Die) (c : Fin 8) (g : Fin 84) (s : State) : Out :=
  unlessHalted s (dieUnit d) <|
  let key := ctxKey d c
  match s.ctxOf key with
  | none => .next s
  | some cx =>
    match cx.run with
    | none => .next s
    | some r =>
      let x := Desc.parse r.desc
      let old := s.loadNat cx.tally 8
      let i := old % 2 ^ 32
      let t := s.storeNat cx.tally 8 ((old + 1) % 2 ^ 64)
      let free := (r.path == 5 && !r.running.any (fun q => q.array == g.val)) ||
        (r.path != 5 && cx.arrays.contains g.val && !cx.rel.contains g.val && s.islOn (arrayIsland g) && r.roomFor g)
      let scanned := x.fa != .fp4 || r.spans.any (fun q => q.block == i % x.blocks)
      onlyIf (cx.st == .running && r.staged && free && !s.handedBack d cx && (scanned || decide (r.tiles ≤ i))) s
        (if r.tiles ≤ i then t
         else if r.tileSkipped x i then (t.countDone d key cx { r with skipped := r.skipped + 1 }).afterDesc d
         else (t.stageFor d g r x (i % x.blocks)).setCtx key (some { cx with run := some { r with
           running := r.running ++ [{ array := g, index := i, next := 0 }]
           begun := if r.begun.contains (i % x.blocks) then r.begun else i % x.blocks :: r.begun } }))

/-- R61, R122: the ranges that the passes of a work tile read. -/
def State.tileRanges (s : State) (r : DescRun) (x : Desc) (i : Nat) : List (Nat × Nat) :=
  let p := x.tileOf i
  let dims := r.blockDims x p.1 p.2.1 p.2.2.1
  let ct := chunkTiles x.tk r.chunks p.2.2.2
  let rows := (List.range dims.1).map (p.2.1 * blockRows x.fa + ·)
  let cols := (List.range dims.2).map (32 * p.2.2.1 + ·)
  (if x.opcode = 8 then rows.map (fun m => (x.aux + 4 * m, 4)) else []) ++
  (r.issued x p.1 ((List.range ct.2).map (ct.1 + ·))).flatMap (fun t =>
    let k := r.kAct x p.1 t
    let k0 := t * kTile x.fa
    let w := x.wBase p.1
    rows.map (fun m => ((s.aRow r x p.1 m).1 + runBytes x.fa k0, runBytes x.fa k)) ++
    (if x.fa = .fp4 then rows.map (fun m => ((s.aRow r x p.1 m).2 + k0 / 16, k / 16)) else []) ++
    (if x.wLayout = 1 then
      (List.range k).map (fun q => (w + (k0 + q) * x.wPitch * 16 + 32 * p.2.2.1 * x.fw.bytes, dims.2 * x.fw.bytes))
     else cols.map (fun c => (w + c * x.wPitch * 16 + runBytes x.fw k0, runBytes x.fw k))) ++
    (if x.fw = .fp4 then
      cols.map (fun c => (w + x.wSoff * 65536 + c * x.wSpitch * 16 + k0 / 16, k / 16)) else []))

/-- R72, R134: a row that runs exact meets a block pair outside its span, its operands having been written
since the scan. -/
def State.tileSpan (s : State) (r : DescRun) (x : Desc) (i : Nat) : Bool :=
  let p := x.tileOf i
  let dims := r.blockDims x p.1 p.2.1 p.2.2.1
  let ct := chunkTiles x.tk r.chunks p.2.2.2
  let spans := ((r.spans.find? (fun q => q.block == i % x.blocks)).map (·.rows)).getD []
  x.fa == .fp4 && (r.issued x p.1 ((List.range ct.2).map (ct.1 + ·))).any (fun t =>
    let k := r.kAct x p.1 t
    (List.range dims.1).any (fun m =>
      match spans.getD m (some 0) with
      | none => false
      | some e =>
        let a := s.aSlice r x p.1 (p.2.1 * blockRows x.fa + m) t k
        (List.range dims.2).any (fun c =>
          let w := s.wSlice r x p.1 (32 * p.2.2.1 + c) t k
          spanFails e k a.1 a.2 w.1 w.2)))

/-- R78, R87: the bank groups that hold the weights of a work tile that runs as Drip jobs. -/
def DescRun.tileGroups (r : DescRun) (x : Desc) (i : Nat) : List (Fin 4 × Nat) :=
  let p := x.tileOf i
  let cols := (List.range (r.blockDims x p.1 p.2.1 p.2.2.1).2).map (32 * p.2.2.1 + ·)
  cols.filterMap (fun c => match place (x.wBase p.1 + c * x.wPitch * 16) with
    | .sram (.gd n) off => some (n, off / 0x2000000)
    | _ => none)

/-- R72, R87, R123: the code with which a pass or a Drip job of a work tile fails: for a job a group in STRIPE mode or not ON;
an uncorrectable word among its operands that are not copies; SPAN; 0 where it does not. -/
def State.tileCode (s : State) (r : DescRun) (x : Desc) (i : Nat) : Nat :=
  let copied (q : Nat × Nat) : Bool := r.copies.any (fun c => decide (c.1 ≤ q.1) && decide (q.1 + q.2 ≤ c.1 + c.2.length))
  if r.path = 5 ∧ (r.tileGroups x i).any (fun g => s.bgStripe g.1 g.2) = true then 8
  else if r.path = 5 ∧ (r.tileGroups x i).any (fun g => !s.islOn (bgIsland g.1 g.2)) = true then 9
  else if (s.tileRanges r x i).any (fun q => !copied q && s.rangeBad q.1 q.2) then 6
  else if s.tileSpan r x i then 4 else 0

/-- The master that reads a work tile's operands: its array, or the Drip sequencer of the die (R109). -/
def tileMaster (d : Die) (path g : Nat) : Nat :=
  match d with
  | .gd n => if path = 5 then 0x060 + n.val else g
  | _ => g

/-- R125: the K-tiles of a work tile's chunk that are issued, as passes. -/
def DescRun.passes (r : DescRun) (x : Desc) (i : Nat) : Nat :=
  let p := x.tileOf i
  let ct := chunkTiles x.tk r.chunks p.2.2.2
  (r.issued x p.1 ((List.range ct.2).map (ct.1 + ·))).length

/-- R70, R75, R441, R442: n passes of a work tile have run on an array: pushed, counted in DONE, their rows injected, their
function's PASSES advanced, and the saturations of their store stage counted. -/
def State.ranPasses (s : State) (g vf : Nat) (a : Fmt) (rows n sat : Nat) : State :=
  let e := s.esOf g
  (s.setEs g { e with
    pushed := (e.pushed + n) % 65536, done := (e.done + n) % 65536
    cntBusy := (e.cntBusy + n * injectCycles a rows) % 2 ^ 64
    cntSat := min (2 ^ 64 - 1) (e.cntSat + sat) }).fnCount vf .passes n

/-- R86, R125: the Drip jobs of a work tile have run, in groups of four rows. -/
def State.ranJobs (s : State) (n rows : Nat) : State :=
  let e := s.dlOf n
  s.setDl n { e with pushed := (e.pushed + ceilDiv rows 4) % 65536, done := (e.done + ceilDiv rows 4) % 65536 }

/-- R133: a work tile's last pass is counted in DONE: its passes or jobs are counted, its results are kept, the last chunk of a
block combines and writes it (R128), and the done count moves on.  A pass or job that fails ends the descriptor with
EXEC_ERROR (R123); so does an LPS header that does not match, whose tile stays as it is (R45).  Where D overlaps an operand
the block's result is free (R134). -/
def execTileDone (d : Die) (c : Fin 8) (g : Fin 84) (s : State) : Out :=
  unlessHalted s (dieUnit d) <|
  let key := ctxKey d c
  match s.ctxOf key with
  | none => .next s
  | some cx =>
    match cx.run with
    | none => .next s
    | some r =>
      match r.running.find? (fun q => q.array == g.val) with
      | none => .next s
      | some tr =>
        let x := Desc.parse r.desc
        let block := tr.index % x.blocks
        let chunk := tr.index / x.blocks
        let p := x.tileOf tr.index
        let dims := r.blockDims x p.1 p.2.1 p.2.2.1
        let spans := ((r.spans.find? (fun q => q.block == block)).map (·.rows)).getD []
        let res := s.chunkElems r x tr.index
        let sat := res.2 + (res.1.zipIdx.map (fun e =>
          chainSat r.path x.fa ((spans.getD (e.2 / dims.2) (some 0)).isSome) chunk e.1)).sum
        let parts := r.parts ++ [{ block := block, chunk := chunk, vals := res.1 }]
        let mine := parts.filter (fun q => q.block == block)
        let r1 := { r with running := lrmFirst (fun q => q.array == g.val) r.running, ran := r.ran + 1 }
        let s0 := s.noteRanges (tileMaster d r.path g) (s.tileRanges r x tr.index)
        let s1 := if r.path = 5 then s0.ranJobs (d.index - 4) dims.1
          else s0.ranPasses g cx.vf x.fa dims.1 (r.passes x tr.index - tr.next) sat
        let code := s.tileCode r x tr.index
        if code ≠ 0 then .next (((s0.loseBlocks r).endDesc d key cx r1 8 code).afterDesc d)
        else if mine.length = r.chunks then
          let w := s1.writeBlock r x block mine
          if w.2.2 then .next (((s1.loseOthers r block).endDesc d key cx r1 8 5).afterDesc d)
          else
            let t := if r.path = 0 then
                w.1.setEs g { w.1.esOf g with cntSat := min (2 ^ 64 - 1) ((w.1.esOf g).cntSat + w.2.1) }
              else if r.path = 5 then w.1.count (bkBlock + 0x10000 * d.index + 0x0304) w.2.1
              else w.1.count (bkBlock + 0x10000 * d.index + 0x0308) w.2.1
            let t := if s.selfOverlap x then t.loseBlock r x block else t
            .next ((t.countDone d key cx { r1 with parts := parts.filter (fun q => q.block != block) }).afterDesc d)
        else .next ((s1.countDone d key cx { r1 with parts := parts }).afterDesc d)

/-- R132: the word of a hand-back slot. -/
def handbackWord (i next : Nat) : Nat := 2 ^ 63 + next % 2 ^ 16 * 2 ^ 32 + i

/-- R132: the interrupted tiles of a context's arrays go to the hand-back slots, each with the K-tile to go on from; one whose
slot holds an earlier tile waits for it (log 149). -/
def State.handBack (s : State) (cx : Ctx) (r : DescRun) (ts : List TileRun) : State × DescRun :=
  ts.foldl (fun acc q =>
    let slot := cx.handback (arrayInDie q.array)
    if bitOf (acc.1.loadNat slot 8) 63 then (acc.1, { acc.2 with later := acc.2.later ++ [q] })
    else (acc.1.storeNat slot 8 (handbackWord q.index q.next), acc.2)) (s, r)

/-- R190, R132: what the tiles that an array runs have done when it stops: the oldest of them goes on from K-tile next, the passes
before which are counted; the others have not begun.  The K-tile lies within the chunk, at or after the one the array went
on from. -/
def State.stopTiles (s : State) (cx : Ctx) (r : DescRun) (g next : Nat) : State × List TileRun :=
  match r.running.filter (fun q => q.array == g) with
  | [] => (s, [])
  | q :: qs =>
    let x := Desc.parse r.desc
    let p := x.tileOf q.index
    let n := max q.next (min next (r.passes x q.index))
    (s.ranPasses g cx.vf x.fa (r.blockDims x p.1 p.2.1 p.2.2.1).1 (n - q.next) 0, { q with next := n } :: qs)

/-- R132: an array leaves its context at a pass boundary: its tiles go to the hand-back slots, and it is released. -/
def execTileHandback (d : Die) (c : Fin 8) (g : Fin 84) (next : BitVec 16) (s : State) : Out :=
  unlessHalted s (dieUnit d) <|
  let key := ctxKey d c
  match s.ctxOf key with
  | none => .next s
  | some cx =>
    let cx' := { cx with arrays := cx.arrays.filter (· ≠ g.val), rel := cx.rel.filter (· ≠ g.val) }
    match cx.run with
    | none => onlyIf (cx.arrays.contains g.val) s ((s.setCtx key (some cx')).giveIdle d)
    | some r =>
      let t := s.stopTiles cx r g next.toNat
      let u := t.1.handBack cx { r with running := r.running.filter (fun q => q.array != g.val) } t.2
      onlyIf (cx.arrays.contains g.val) s ((u.1.setCtx key (some { cx' with run := some u.2 })).giveIdle d)

/-- R132: a core takes the entry of slot k with SWAP_64 of 0 and goes on with the tile on array g; a tile that waited for the slot
takes its place there. -/
def execHandbackTake (d : Die) (c : Fin 8) (k : Fin 16) (g : Fin 84) (s : State) : Out :=
  unlessHalted s (dieUnit d) <|
  let key := ctxKey d c
  match s.ctxOf key with
  | none => .next s
  | some cx =>
    match cx.run with
    | none => .next s
    | some r =>
      let x := Desc.parse r.desc
      let e := s.loadNat (cx.handback k) 8
      let i := e % 2 ^ 32
      let mine (q : TileRun) : Bool := arrayInDie q.array == k.val
      let t := (s.storeNat (cx.handback k) 8 0).stageFor d g r x (i % x.blocks)
      let r1 : DescRun := { r with
        running := r.running ++ [{ array := g, index := i, next := bitsOf e 47 32 }], later := lrmFirst mine r.later }
      let u := t.handBack cx r1 (r.later.find? mine).toList
      onlyIf (cx.st == .running && bitOf e 63 && cx.arrays.contains g.val && !cx.rel.contains g.val &&
          s.islOn (arrayIsland g) && decide (k.val < (dieArrays d).length) && r.roomFor g) s
        (u.1.setCtx key (some { cx with run := some u.2 }))

/-- R123: the source or the PF aborts the running descriptor: ABORTED, D unspecified for begun blocks. -/
def execDescriptorAbort (d : Die) (c : Fin 8) (s : State) : Out :=
  unlessHalted s (dieUnit d) <|
  let key := ctxKey d c
  match s.ctxOf key with
  | none => .next s
  | some cx =>
    match cx.run with
    | none => .next s
    | some r => .next (((s.loseBlocks r).endDesc d key cx r 9 0).afterDesc d)

end Sys2Proof.Machine
end

