-- ==== Sys2Proof/Machine/Customs.lean ====
section
/-! DEFINITION.  Customs (R341 to R345, R353): translation of tenant addresses through the tables in host
memory, its caches, and transfers to and from tenant memory. -/

namespace Sys2Proof.Machine

/-! ### Translation -/

/-- What a translation comes to: a host bus address, a reason of R343, or a table read. -/
inductive XStep where
  | done (host log2 : Nat) (writable : Bool)
  | fail (reason : Nat)
  | read (at_ : WalkAt) (entry : Nat) (writable : Bool)
  deriving DecidableEq, Repr

/-- R353: CU_CTXT. -/
def State.ctxTable (s : State) : Nat := s.reg64 (cuBlock + 0x008) (cuBlock + 0x00C)

/-- R342: the index of an address at a level, 4 to 1. -/
def levelIndex (l addr : Nat) : Nat := addr / 2 ^ (12 + 9 * (l - 1)) % 512

/-- R341, R343 step 4: a PASID entry; the walk goes on at the root. -/
def judgePasid (addr v : Nat) : XStep :=
  if bitOf v 0 = false then .fail 2
  else if bitsOf v 11 1 ≠ 0 then .fail 5
  else .read (.level 4) (v / 4096 * 4096 + 8 * levelIndex 4 addr) true

/-- R341, R343 steps 3 and 4: a context entry of 16 bytes; the walk goes on at the PASID entry. -/
def judgeContext (pasid v : Nat) : XStep :=
  let log2 := bitsOf v 68 64
  if bitOf v 0 = false then .fail 1
  else if bitsOf v 11 1 ≠ 0 ∨ bitsOf v 127 69 ≠ 0 ∨ 20 < log2 then .fail 5
  else if 2 ^ log2 ≤ pasid then .fail 2
  else .read .pasid (v % 2 ^ 64 / 4096 * 4096 + 8 * pasid) true

/-- R342, R343 step 5: an entry at level l, where every level so far allows writes as w says. -/
def judgeLevel (l addr v : Nat) (write w : Bool) : XStep :=
  let leaf := l == 1 || bitOf v 7
  let base := bitsOf v 51 12 * 4096
  let log2 := 12 + 9 * (l - 1)
  if bitOf v 0 = false then .fail 3
  else if leaf = true ∧ (l = 4 ∨ base % 2 ^ log2 ≠ 0) then .fail 5
  else if write = true ∧ bitOf v 1 = false then .fail 4
  else if leaf then .done (base + addr % 2 ^ log2) log2 (w && bitOf v 1)
  else .read (.level (l - 1)) (base + 8 * levelIndex (l - 1) addr) (w && bitOf v 1)

/-- R344: a cached table entry of an instance. -/
def State.cachedTab (s : State) (fn pasid : Nat) (ctx : Bool) : Option Nat :=
  (s.cu.tabs.find? (fun e => e.fn == fn && e.pasid == pasid && e.isContext == ctx)).map (·.value)

/-- R344: go on past table entries that are cached. -/
def State.viaCache (s : State) (fn pasid addr : Nat) (x : XStep) : XStep :=
  match x with
  | .read .context _ _ =>
    match s.cachedTab fn pasid true with
    | some v =>
      match judgeContext pasid v with
      | .read .pasid e w =>
        match s.cachedTab fn pasid false with
        | some p => judgePasid addr p
        | none => .read .pasid e w
      | y => y
    | none => x
  | .read .pasid _ _ =>
    match s.cachedTab fn pasid false with
    | some p => judgePasid addr p
    | none => x
  | y => y

/-- R343, R344: the start of a translation: ENABLE, the address form, the cached leaf, or a walk from the
root.  A write that finds a leaf without the right walks again. -/
def State.xlateStart (s : State) (fn pasid addr : Nat) (write : Bool) : XStep :=
  if s.regBit cuBlock 0 = false then .fail 1
  else if 2 ^ 48 ≤ addr then .fail 6
  else
    match s.cu.leaves.find? (fun e => e.fn == fn && e.pasid == pasid && addr / 2 ^ e.size == e.vpage) with
    | some e =>
      if write = true ∧ e.writable = false then s.viaCache fn pasid addr (.read .context (s.ctxTable + 16 * fn) true)
      else .done (e.host + addr % 2 ^ e.size) e.size e.writable
    | none => s.viaCache fn pasid addr (.read .context (s.ctxTable + 16 * fn) true)

/-- Bytes of the entry a walk reads. -/
def WalkAt.bytes : WalkAt → Nat
  | .context => 16
  | _ => 8

/-- R343: what a walk comes to once the entry it waits for has been read. -/
def State.walkOn (s : State) (fn pasid addr : Nat) (write : Bool) (at_ : WalkAt) (v : Nat) (w : Bool) : XStep :=
  match at_ with
  | .context => s.viaCache fn pasid addr (judgeContext pasid v)
  | .pasid => judgePasid addr v
  | .level l => judgeLevel l addr v write w

/-- R344: keep a leaf; a full cache loses an entry that the spec leaves open (a free value, log 6). -/
def State.cacheLeaf (s : State) (fn pasid addr host log2 : Nat) (w : Bool) : State :=
  let leaf : Leaf :=
    { fn := fn, pasid := pasid, vpage := addr / 2 ^ log2, size := log2, host := host / 2 ^ log2 * 2 ^ log2
      writable := w }
  let rest := s.cu.leaves.filter (fun e =>
    !(e.fn == fn && e.pasid == pasid && addr / 2 ^ e.size == e.vpage))
  if rest.length < 16384 then { s with cu := { s.cu with leaves := leaf :: rest } }
  else { s with cu := { s.cu with leaves := leaf :: rest.eraseIdx (s.freeNat % 16384) }, free := s.free + 1 }

/-- R344: keep a table entry that was judged valid. -/
def State.cacheTab (s : State) (fn pasid : Nat) (at_ : WalkAt) (v : Nat) (x : XStep) : State :=
  match at_, x with
  | .level _, _ => s
  | _, .fail _ => s
  | a, _ =>
    let e : TabEntry := { fn := fn, pasid := pasid, isContext := a == .context, value := v }
    { s with cu := { s.cu with tabs := e :: s.cu.tabs.filter (fun t =>
      !(t.fn == fn && t.pasid == pasid && t.isContext == e.isContext)) } }

/-- R343: a fault is counted, logged if none is held, and raised. -/
def State.xlateFault (s : State) (fn pasid addr : Nat) (write : Bool) (reason : Nat) : State :=
  let t := (s.count (cuBlock + 0x030) 1).fnCount fn .xlate 1
  let t := if t.regBit (cuBlock + 0x020) 31 then t
    else ((t.setReg (cuBlock + 0x020) (2 ^ 31 + b2n write * 2 ^ 30 + reason * 2 ^ 27 + fn * 2 ^ 10)).setReg
      (cuBlock + 0x024) pasid).setReg (cuBlock + 0x028) (bitsOf addr 47 16)
  t.hiErr 8

/-- A whole walk whose reads all succeed: what firmware's own transfers use (log 27). -/
def State.walkAll (s : State) (fn pasid addr : Nat) (write : Bool) : Nat → XStep → State × XStep
  | 0, x => (s, x)
  | n + 1, .read a e w =>
    let v := leNat (rdBytes s.host e a.bytes)
    let x := s.walkOn fn pasid addr write a v w
    (s.cacheTab fn pasid a v x).walkAll fn pasid addr write n x
  | _ + 1, x => (s, x)

/-- Translate one address now: the host bus address, or the reason of the fault. -/
def State.xlate (s : State) (fn pasid addr : Nat) (write : Bool) : State × Except Nat Nat :=
  let start := s.xlateStart fn pasid addr write
  let r := s.walkAll fn pasid addr write 7 start
  match r.2 with
  | .done h l w =>
    ((match start with
      | .read _ _ _ => r.1.cacheLeaf fn pasid addr h l w
      | _ => r.1), .ok h)
  | .fail n => (r.1.xlateFault fn pasid addr write n, .error n)
  | .read _ _ _ => (r.1, .error 7)

/-! ### Transfers to and from tenant memory, page by page (R343) -/

/-- Read n bytes at a tenant address; none where Customs refuses a page. -/
def State.hostRead (s : State) (fn pasid : Nat) : Nat → Nat → Nat → State × Option (List Byte)
  | 0, _, n => (s, if n = 0 then some [] else none)
  | k + 1, addr, n =>
    if n = 0 then (s, some [])
    else
      let m := min n (4096 - addr % 4096)
      match s.xlate fn pasid addr false with
      | (t, .error _) => (t, none)
      | (t, .ok h) =>
        match t.hostRead fn pasid k (addr + m) (n - m) with
        | (u, some bs) => (u, some (rdBytes t.host h m ++ bs))
        | (u, none) => (u, none)

/-- Write bytes at a tenant address; false where Customs refuses a page, and earlier pages have then been
written (log 28).  After a fatal error, or with the link down, nothing reaches host memory (R349, R351). -/
def State.hostWrite (s : State) (fn pasid : Nat) : Nat → Nat → List Byte → State × Bool
  | 0, _, bs => (s, bs.isEmpty)
  | k + 1, addr, bs =>
    if bs.isEmpty then (s, true)
    else
      let m := min bs.length (4096 - addr % 4096)
      match s.xlate fn pasid addr true with
      | (t, .error _) => (t, false)
      | (t, .ok h) =>
        let u := if t.fatal || !t.hi.linkUp then t else { t with host := wrBytes t.host h (bs.take m) }
        u.hostWrite fn pasid k (addr + m) (bs.drop m)

/-- Read n bytes of tenant memory. -/
def State.tenantRead (s : State) (fn pasid addr n : Nat) : State × Option (List Byte) :=
  s.hostRead fn pasid (n / 4096 + 2) addr n

/-- Write bytes to tenant memory. -/
def State.tenantWrite (s : State) (fn pasid addr : Nat) (bs : List Byte) : State × Bool :=
  s.hostWrite fn pasid (bs.length / 4096 + 2) addr bs

/-! ### Commands -/

/-- Answer a requester. -/
def State.xlateAnswer (s : State) (fn pasid addr : Nat) (write : Bool) (host reason : Nat) : State :=
  let d : XlateDone := { fn := fn, pasid := pasid, addr := addr, write := write, host := host, reason := reason }
  { s with cu := { s.cu with last := some d } }

/-- R342 to R344: a tenant address is translated from the cache, or faults at once, or a walk starts and
waits for a table read. -/
def execCustomsTranslate (fn : Fin 513) (pasid : BitVec 20) (addr : DWord) (write : Bool) (s : State) : Out :=
  .next (match s.xlateStart fn pasid.toNat addr.toNat write with
    | .done h _ _ => s.xlateAnswer fn pasid.toNat addr.toNat write h 0
    | .fail r => (s.xlateFault fn pasid.toNat addr.toNat write r).xlateAnswer fn pasid.toNat addr.toNat write 0 r
    | .read a e w =>
      let k : Walk := { fn := fn, pasid := pasid.toNat, addr := addr.toNat, write := write, at_ := a, entry := e, writable := w }
      { s with cu := { s.cu with walks := s.cu.walks ++ [k] } })

/-- R343, R344: the table read of walk i returns, with ok false for an error or poison: the walk goes on,
ends with its leaf, which is cached unless an invalidation or reset covered the walk, or faults. -/
def execCustomsWalkReadDone (i : Fin 1024) (ok : Bool) (s : State) : Out :=
  match s.cu.walks[i.val]? with
  | none => .next s
  | some k =>
    let v := leNat (rdBytes s.host k.entry k.at_.bytes)
    let x := if ok then s.walkOn k.fn k.pasid k.addr k.write k.at_ v k.writable else .fail 7
    let s := if k.cache then s.cacheTab k.fn k.pasid k.at_ v x else s
    let rest := s.cu.walks.eraseIdx i
    .next (match x with
      | .done h l w =>
        let t := { s with cu := { s.cu with walks := rest } }
        (if k.cache then t.cacheLeaf k.fn k.pasid k.addr h l w else t).xlateAnswer k.fn k.pasid k.addr k.write h 0
      | .fail r =>
        let t := { s with cu := { s.cu with walks := rest } }
        (t.xlateFault k.fn k.pasid k.addr k.write r).xlateAnswer k.fn k.pasid k.addr k.write 0 r
      | .read a e w =>
        { s with cu := { s.cu with walks := lmod s.cu.walks i (fun q => { q with at_ := a, entry := e, writable := w }) } })

/-- Remove cached entries: a leaf or table entry that is covered goes, and the walks covered are not
cached (R351). -/
def State.dropCached (s : State) (leaf : Leaf → Bool) (tab : TabEntry → Bool) (walk : Walk → Bool) : State :=
  { s with cu := { s.cu with
    leaves := s.cu.leaves.filter (fun e => !leaf e)
    tabs := s.cu.tabs.filter (fun e => !tab e)
    walks := s.cu.walks.map (fun w => if walk w then { w with cache := false } else w) } }

/-- R353: CU_INV with GO: ignored while INV_BUSY; otherwise INV_BUSY sets and the entries go. -/
def State.invalidate (s : State) (m : Agent) (leaf : Leaf → Bool) (tab : TabEntry → Bool) (walk : Walk → Bool) : Out :=
  let t := s.dropCached leaf tab walk
  agentIf m (s.hdOrPf m && !s.cu.invBusy) s { t with cu := { t.cu with invBusy := true } }

/-- R344: RANGE removes the leaf entries of one instance, of any page size, that overlap 4 KiB · 2^ORDER
bytes at CU_INV_ADDR; a walk is covered where a page of its address could overlap. -/
def execCuInvRange (m : Agent) (fn : Fin 1024) (order : BitVec 6) (s : State) : Out :=
  let p := s.regN (cuBlock + 0x014)
  let a := s.reg64 (cuBlock + 0x018) (cuBlock + 0x01C)
  let n := 4096 * 2 ^ order.toNat
  s.invalidate m
    (fun e => e.fn == fn.val && e.pasid == p && rangesMeet (e.vpage * 2 ^ e.size) (2 ^ e.size) a n)
    (fun _ => false)
    (fun w => w.fn == fn.val && w.pasid == p && rangesMeet (w.addr / 2 ^ 30 * 2 ^ 30) (2 ^ 30) a n)

/-- R344: INSTANCE. -/
def execCuInvInstance (m : Agent) (fn : Fin 1024) (s : State) : Out :=
  let p := s.regN (cuBlock + 0x014)
  s.invalidate m (fun e => e.fn == fn.val && e.pasid == p) (fun e => e.fn == fn.val && e.pasid == p)
    (fun w => w.fn == fn.val && w.pasid == p)

/-- R344: FUNCTION. -/
def execCuInvFunction (m : Agent) (fn : Fin 1024) (s : State) : Out :=
  s.invalidate m (fun e => e.fn == fn.val) (fun e => e.fn == fn.val) (fun w => w.fn == fn.val)

/-- R344: ALL. -/
def execCuInvAll (m : Agent) (s : State) : Out :=
  s.invalidate m (fun _ => true) (fun _ => true) (fun _ => true)

/-- R344, R351: the invalidation finishes once the walks it covered have ended; affected writes have been
flushed. -/
def execCuInvDone (s : State) : Out :=
  onlyIf (s.cu.invBusy && !(s.cu.walks.any (fun w => !w.cache))) s
    { s with cu := { s.cu with invBusy := false } }

/-- R345: every 2.0 ms the cache is emptied. -/
def execCuCacheSweep (s : State) : Out :=
  let u := s.reachRaw (s.cu.sweepT + rawUs 2000)
  onlyIf (decide (s.cu.sweepT + rawUs 2000 ≤ u.td.raw)) s
    { u with cu := { u.cu with leaves := [], tabs := [], sweepT := u.td.raw } }

/-- R353: CU_CTRL.ENABLE. -/
def execCuCtrlWrite (m : Agent) (v : Word) (s : State) : Out :=
  agentIf m (s.hdOrPf m) s (s.setReg cuBlock (v.toNat % 2))

end Sys2Proof.Machine
end

