-- ==== Sys2Proof/Machine/HostQueues.lean ====
section
/-! DEFINITION.  Submission and completion queues (R334 to R340, R145). -/

namespace Sys2Proof.Machine

/-- R352: the registers of SQ i and CQ i of function f. -/
def sqReg (f i o : Nat) : Nat := hiBlock + 0x100000 + 0x200 * f + 0x20 * i + o
def cqReg (f i o : Nat) : Nat := hiBlock + 0x100100 + 0x200 * f + 0x20 * i + o

def State.sqOf (s : State) (f i : Nat) : SubQueue := tget {} s.hi.sq (8 * f + i)
def State.setSq (s : State) (f i : Nat) (q : SubQueue) : State :=
  { s with hi := { s.hi with sq := tset {} s.hi.sq (8 * f + i) q } }
def State.cqOf (s : State) (f i : Nat) : CompQueue := tget {} s.hi.cq (8 * f + i)
def State.setCq (s : State) (f i : Nat) (q : CompQueue) : State :=
  { s with hi := { s.hi with cq := tset {} s.hi.cq (8 * f + i) q } }

def State.sqOn (s : State) (f i : Nat) : Bool := s.regBit (sqReg f i 8) 31
def State.cqOn (s : State) (f i : Nat) : Bool := s.regBit (cqReg f i 8) 31
/-- R334: entries of a queue. -/
def State.sqSize (s : State) (f i : Nat) : Nat := 2 ^ s.regB (sqReg f i 8) 23 20
def State.cqSize (s : State) (f i : Nat) : Nat := 2 ^ s.regB (cqReg f i 8) 23 20
def State.sqPasid (s : State) (f i : Nat) : Nat := s.regB (sqReg f i 8) 19 0
def State.cqPasid (s : State) (f i : Nat) : Nat := s.regB (cqReg f i 8) 19 0

/-- R339: the error vector of a function with ERR_EN, and HI_ERR_CAUSE.QUEUE. -/
def State.queueError (s : State) (f : Nat) : State :=
  let c := s.regN (hiBlock + 0x1000 + 4 * f)
  (if 1 ≤ f ∧ bitOf c 4 = true then s.sendVec f (c % 16) else s).hiErr 7

/-- R339: a submission queue faults; a fault already held stands. -/
def State.sqFault (s : State) (f i code : Nat) : State :=
  let q := s.sqOf f i
  if q.fault = 0 then (s.setSq f i { q with fault := code }).queueError f else s

/-- R339: a completion queue faults. -/
def State.cqFault (s : State) (f i code : Nat) : State :=
  let q := s.cqOf f i
  if q.fault = 0 then (s.setCq f i { q with fault := code }).queueError f else s

/-- Completion slots the tenant has released, less those in use (R337). -/
def State.cqRoom (s : State) (f i : Nat) : Nat :=
  let q := s.cqOf f i
  if s.cqOn f i && q.fault == 0 then s.cqSize f i - (q.tail + 2 ^ 16 - q.head) % 2 ^ 16 else 0

/-- R145: the queue holds its requests out: it has no room, or events wait for room. -/
def State.cqFull (s : State) (f i : Nat) : Bool := s.cqRoom f i == 0 || !(s.cqOf f i).held.isEmpty

/-- R338, R352: send the vector of a completion queue; other values act as IRQ_EN = 0. -/
def State.cqSignal (s : State) (f i : Nat) : State :=
  let m := s.regN (cqReg f i 0x14)
  let v := bitsOf m 10 0
  let s := s.setCq f i { s.cqOf f i with unsignalled := 0 }
  if bitOf m 11 && (if f = 0 then decide (16 ≤ v) else decide (v < 16)) then s.sendVec f v else s

/-- R338: after the tail write-back, moderation. -/
def State.cqModerate (s : State) (f i : Nat) : State :=
  let m := s.regN (cqReg f i 0x14)
  let q := s.cqOf f i
  let s := s.setCq f i { q with
    unsignalled := q.unsignalled + 1, since := if q.unsignalled = 0 then s.td.raw else q.since }
  if bitsOf m 31 20 = 0 ∨ max 1 (bitsOf m 19 12) ≤ (s.cqOf f i).unsignalled then s.cqSignal f i else s

/-- R441: what an event entry counts for its function. -/
def State.countEvent (s : State) (f : Nat) (e : BitVec 256) : State :=
  let b := leBytes 32 e.toNat
  match fieldAt b 3 1 with
  | 1 => s.fnCount f .admitted 1
  | 2 => s.fnCount f .tokens (fieldAt b 9 1)
  | 8 => s.fnCount f .failed 1
  | 9 => s.fnCount f .refused 1
  | _ => s

/-- R337: write an entry at the tail, then the tail to CQ_WB, then moderation; false where Customs refused
the entry. -/
def State.cqWrite (s : State) (f i : Nat) (e : BitVec 256) : State × Bool :=
  let q := s.cqOf f i
  let p := s.cqPasid f i
  let a := s.reg64 (cqReg f i 0) (cqReg f i 4) + 32 * (q.tail % s.cqSize f i)
  match s.tenantWrite f p a (leBytes 32 e.toNat) with
  | (t, false) => (t.cqFault f i 2, false)
  | (t, true) =>
    let tail := (q.tail + 1) % 2 ^ 16
    let t := (t.setCq f i { t.cqOf f i with tail := tail }).countEvent f e
    match t.tenantWrite f p (t.reg64 (cqReg f i 0xC) (cqReg f i 0x10)) (leBytes 4 tail) with
    | (u, true) => (u.cqModerate f i, true)
    | (u, false) => (u.cqFault f i 2, true)

/-- R145, R337: post an event; it waits behind earlier ones where there is no room. -/
def State.postCq (s : State) (f i : Nat) (e : BitVec 256) : State :=
  if s.cqFull f i then s.setCq f i { s.cqOf f i with held := (s.cqOf f i).held ++ [e] }
  else
    match s.cqWrite f i e with
    | (t, true) => t
    | (t, false) => t.setCq f i { t.cqOf f i with held := (t.cqOf f i).held ++ [e] }

/-- R145: post the events that wait, while there is room. -/
def State.cqFlush (s : State) (f i : Nat) : Nat → State
  | 0 => s
  | n + 1 =>
    match (s.cqOf f i).held with
    | [] => s
    | e :: es =>
      if s.cqRoom f i = 0 then s
      else
        match s.cqWrite f i e with
        | (t, true) => (t.setCq f i { t.cqOf f i with held := es }).cqFlush f i n
        | (t, false) => t

/-- The byte that names the completion queue of a submission entry (R142). -/
def entryCq (e : BitVec 512) : Nat := bitsOf e.toNat 26 24

/-- R336: entries fetched in ring order; an entry naming a queue that is not enabled, or a refused ring
address, stops the group with a fault and is not counted as fetched (log 30). -/
def State.fetchEntries (s : State) (f i : Nat) : Nat → State × Nat
  | 0 => (s, 0)
  | n + 1 =>
    let q := s.sqOf f i
    let a := s.reg64 (sqReg f i 0) (sqReg f i 4) + 64 * (q.head % s.sqSize f i)
    match s.tenantRead f (s.sqPasid f i) a 64 with
    | (t, none) => (t, 2)
    | (t, some bs) =>
      let e : BitVec 512 := BitVec.ofNat 512 (leNat bs)
      if !t.cqOn f (entryCq e) then (t, 3)
      else
        let c : CmdEntry := { fn := f, sq := i, entry := e }
        let u := t.setSq f i { q with head := (q.head + 1) % 2 ^ 16 }
        { u with hm := { u.hm with cmdq := u.hm.cmdq ++ [c] } }.fetchEntries f i n

/-! ### Commands -/

/-- R336, R339: a write of SQ_TAIL.  DEDUCED (log 31): a disabled or faulted queue ignores it. -/
def execSqTailDoorbell (f : Fin 513) (q : Fin 8) (tail : BitVec 16) (s : State) : Out :=
  let r := s.sqOf f q
  let t := if s.sqSize f q < (tail.toNat + 2 ^ 16 - r.head) % 2 ^ 16 then s.sqFault f q 1
    else s.setSq f q { r with tail := tail.toNat }
  onlyIf (s.fnLive f && s.sqOn f q && r.fault == 0) s t

/-- R336: the device fetches a group of n entries, then writes the head to SQ_WB; between S and GIVE of a live update no
bank fetches (R409). -/
def execSqEntryFetch (f : Fin 513) (q : Fin 8) (n : Fin 4097) (s : State) : Out :=
  let r := s.sqOf f q
  let g := s.fetchEntries f q n
  let h := (g.1.sqOf f q).head
  let w := if h = r.head then (g.1, true)
    else g.1.tenantWrite f (s.sqPasid f q) (s.reg64 (sqReg f q 0xC) (sqReg f q 0x10)) (leBytes 4 h)
  let t := if g.2 ≠ 0 then w.1.sqFault f q g.2 else if w.2 then w.1 else w.1.sqFault f q 2
  unlessHalted s .inference
    (onlyIf (s.fnLive f && s.boot.upd.st != .handover && s.sqOn f q && r.fault == 0 && decide (0 < n.val) &&
      decide (n.val ≤ (r.tail + 2 ^ 16 - r.head) % 2 ^ 16)) s t)

/-- R337, R145: a write of CQ_HEAD releases slots, and the events that wait are posted. -/
def execCqHeadWrite (f : Fin 513) (q : Fin 8) (head : BitVec 16) (s : State) : Out :=
  let r := s.cqOf f q
  let t := if (r.tail + 2 ^ 16 - r.head) % 2 ^ 16 < (head.toNat + 2 ^ 16 - r.head) % 2 ^ 16 then s.cqFault f q 1
    else (s.setCq f q { r with head := head.toNat }).cqFlush f q r.held.length
  onlyIf (s.fnLive f && s.cqOn f q && r.fault == 0) s t

/-- R338: USEC passes since the first entry not yet signalled. -/
def execCqModTimer (f : Fin 513) (q : Fin 8) (s : State) : Out :=
  let due := (s.cqOf f q).since + rawUs (s.regB (cqReg f q 0x14) 31 20)
  let t := s.reachRaw due
  onlyIf (decide (0 < (s.cqOf f q).unsignalled) && s.cqOn f q && decide (due ≤ t.td.raw)) s (t.cqSignal f q)

/-- The bits of SQ_CFG and CQ_CFG that hold a value; LOG2SIZE outside 4 to 12 is not taken (R352). -/
def cfgValue (old v : Nat) : Nat :=
  let l := bitsOf v 23 20
  v % 2 ^ 20 + (if 4 ≤ l ∧ l ≤ 12 then l else bitsOf old 23 20) * 2 ^ 20

/-- R334: a write of SQ_CFG or CQ_CFG that sets ENABLE from 0 to 1: size and PASID are taken, head and tail
become 0 and FAULT clears. -/
def execQueueEnable (m : Agent) (f : Fin 513) (i : Fin 8) (cq : Bool) (v : Word) (s : State) : Out :=
  let r := if cq then cqReg f i 8 else sqReg f i 8
  let t := s.setReg r (2 ^ 31 + cfgValue (s.regN r) v.toNat)
  let t := if cq then
      (t.setCq f i { t.cqOf f i with head := 0, tail := 0, fault := 0, unsignalled := 0 }).cqFlush f i (t.cqOf f i).held.length
    else t.setSq f i {}
  agentIf m (s.hdOrPf m && bitOf v.toNat 31 && !s.regBit r 31) s t

/-- R339: a request names the completion queue. -/
def State.cqNamed (s : State) (f i : Nat) : Bool :=
  !(s.cqOf f i).held.isEmpty ||
  s.hm.man.any (fun e => e.2.fn == f && e.2.cq == i && e.2.st != .free && e.2.st != .quiet)

/-- R339: ENABLE is written 0; the queue stops, and faults with DISABLED if entries are unfetched or requests
name it.  Writes of the other fields with ENABLE still 1 in the register are ignored (R352). -/
def execQueueDisable (m : Agent) (f : Fin 513) (i : Fin 8) (cq : Bool) (s : State) : Out :=
  let r := if cq then cqReg f i 8 else sqReg f i 8
  let t := s.setReg r (s.regN r % 2 ^ 31)
  let t := if cq then (if s.cqNamed f i then t.cqFault f i 4 else t)
    else (if (s.sqOf f i).head ≠ (s.sqOf f i).tail then t.sqFault f i 4 else t)
  agentIf m (s.hdOrPf m && s.regBit r 31) s t

end Sys2Proof.Machine
end

