-- ==== Sys2Proof/Machine/TokenMath.lean ====
section
/-! DEFINITION.  What Rake and Sieve compute (R166 to R175): the parameter block, the FP32 and integer
selection of Rake, and the automata of Sieve. -/

namespace Sys2Proof.Machine

/-! ### IEEE 754 binary32 (R168, R169): to nearest even, overflow to infinity -/

def fpNan : Nat := 0x7FC00000
def fpInf (neg : Bool) : Nat := if neg then 0xFF800000 else 0x7F800000

/-- Round a finite exact value. -/
def ieeeRound (x : Num) : Nat :=
  let r := FloatFmt.fp32.round x
  if r.2 then r.1 + 1 else r.1

def ieeeMul (a b : Nat) : Nat :=
  match FloatFmt.fp32.value a, FloatFmt.fp32.value b with
  | .fin x m e, .fin y n f => ieeeRound (.fin (x != y) (m * n) (e + f))
  | .inf x, .fin y n _ | .fin y n _, .inf x => if n = 0 then fpNan else fpInf (x != y)
  | .inf x, .inf y => fpInf (x != y)
  | _, _ => fpNan

/-- Division by a finite value other than zero. -/
def ieeeDiv (a b : Nat) : Nat :=
  match FloatFmt.fp32.value a, FloatFmt.fp32.value b with
  | .fin x m e, .fin y n f =>
    let q := m * 2 ^ 60 / n
    let sticky := b2n (m * 2 ^ 60 % n != 0)
    ieeeRound (.fin (x != y) (2 * q + sticky) (e - f - 61))
  | .inf x, .fin y _ _ => fpInf (x != y)
  | _, _ => fpNan

/-- R169: the difference of two values; equal values give +0. -/
def ieeeSub (a b : Nat) : Nat := ieeeAdd a (if b < 2 ^ 31 then b + 2 ^ 31 else b - 2 ^ 31)

/-- The order of FP32 values that are not NaN: the two zeros are equal. -/
def fpKey (a : Nat) : Int := if a < 2 ^ 31 then (a : Int) else -((a : Int) - 2 ^ 31)

def isNan (a : Nat) : Bool := FloatFmt.fp32.value a == .nan

/-! ### The parameter block (R166, R167) -/

/-- A stop token of the block. -/
def stopTokens (p : List Byte) : List Nat :=
  (List.range (min 8 (fieldAt p 3 1))).map (fun i => fieldAt p (24 + 4 * i) 4)

/-- R167: the block is accepted. -/
def paramOk (p : List Byte) (sel spec : Bool) (vocab : Nat) : Bool :=
  let mode := fieldAt p 1 1
  let temp := fieldAt p 4 4
  let pen := fieldAt p 12 4
  fieldAt p 0 1 == 1 &&
  (if sel then mode == 1 || mode == 2 else mode == 0) &&
  (!spec || (decide (1 ≤ fieldAt p 2 1) && decide (fieldAt p 2 1 ≤ 8))) &&
  decide (fieldAt p 3 1 ≤ 8) &&
  (sel || ((temp == 0 || (decide (0x3B800000 ≤ temp) && decide (temp ≤ 0x43800000))) &&
    decide (fieldAt p 8 2 ≤ 1024) &&
    decide (0x3D800000 ≤ pen) && decide (pen ≤ 0x41800000) &&
    decide (fieldAt p 16 2 ≤ 128))) &&
  fieldAt p 18 6 == 0 && fieldAt p 72 56 == 0 &&
  (stopTokens p).all (fun t => decide (t < vocab) && decide (t < 2 ^ 18))

/-! ### Rake (R168 to R171) -/

/-- Bits of floor(x^(1/1024)) from bit n − 1 down, added to r. -/
def rootBits (x : Nat) : Nat → Nat → Nat
  | 0, r => r
  | n + 1, r => rootBits x n (if (r + 2 ^ n) ^ 1024 ≤ x then r + 2 ^ n else r)

/-- R169: t[j], 2^(31 + j/1024) to the nearest integer. -/
def weightTable (j : Nat) : Nat := (rootBits (2 ^ (32 * 1024 + j)) 34 0 + 1) / 2

/-- R169: the weight of a candidate with value s beside candidate 0's. -/
def rakeWeight (s0 s : Nat) : Nat :=
  let x := if fpKey s = fpKey s0 then 0 else ieeeSub s s0
  let y := ieeeMul x 0x3FB8AA3B
  match FloatFmt.fp32.value y with
  | .fin neg m e =>
    if neg = true ∧ fpKey y < fpKey 0xC2000000 then 0
    else
      let q : Int := -(gridRne m (e + 10) 0 : Int)
      let n : Int := q / 1024
      weightTable (q - 1024 * n).toNat / 2 ^ (-n).toNat
  | _ => 0

/-- R171. -/
def mix64 (z : Nat) : Nat :=
  let z := (z ^^^ z / 2 ^ 31) * 0xB3C51D2794E60A5B % 2 ^ 64
  let z := (z ^^^ z / 2 ^ 29) * 0x8F146A3DC27B9E61 % 2 ^ 64
  z ^^^ z / 2 ^ 32

/-- R171: the generator, a function of seed, token index and draft position. -/
def generator (seed n d : Nat) : Nat :=
  let c := d * 2 ^ 32 ||| n
  let z := mix64 (c ^^^ 0x5A17C3E90D4B2F86)
  let z := mix64 (z ^^^ seed)
  mix64 ((z + 0x9D2C56807A3FE1B5) % 2 ^ 64)

/-- Running sums of a list of weights. -/
def runningSums : Nat → List Nat → List Nat
  | _, [] => []
  | a, w :: ws => (a + w) :: runningSums (a + w) ws

/-- R168: the logit after penalty and temperature. -/
def rakeScore (p : List Byte) (window : List Nat) (tok l : Nat) : Nat :=
  let pen := fieldAt p 12 4
  let temp := fieldAt p 4 4
  let l := if pen = 0x3F800000 ∨ isNan l = true ∨ window.contains tok = false then l
    else if 0 < fpKey l then ieeeDiv l pen else ieeeMul l pen
  if temp = 0 then l else ieeeMul l (ieeeDiv 0x3F800000 temp)

/-- R168: candidates in order: (token, score), cut to K. -/
def rakeCandidates (p : List Byte) (context : List Nat) (logits : List Nat) : List (Nat × Nat) :=
  let win := context.drop (context.length - fieldAt p 16 2)
  let all := (logits.zipIdx.map (fun x => (x.2, rakeScore p win x.2 x.1))).filter (fun x => !isNan x.2)
  let sorted := all.mergeSort (fun a b =>
    decide (fpKey b.2 < fpKey a.2) || (decide (fpKey a.2 = fpKey b.2) && decide (a.1 ≤ b.1)))
  let k := fieldAt p 8 2
  sorted.take (if k = 0 then 1024 else k)

/-- R168 to R170: the token Rake selects; none where every logit is NaN. -/
def rakeSelect (p : List Byte) (context logits : List Nat) (seed n d : Nat) : Option Nat :=
  match rakeCandidates p context logits with
  | [] => none
  | c0 :: cs =>
    if fieldAt p 4 4 = 0 then some c0.1
    else
      let cands := c0 :: cs
      let sums : List Nat := runningSums 0 (cands.map (fun c => rakeWeight c0.2 c.2))
      let w := sums.getLastD 0
      let pv := if fieldAt p 10 2 = 0 then 65536 else fieldAt p 10 2
      let kept := (sums.find? (fun c => decide (pv * w ≤ c * 65536))).getD w
      let t := generator seed n d * kept / 2 ^ 64
      ((cands.zip sums).find? (fun (x : (Nat × Nat) × Nat) => decide (t < x.2))).map (fun x => x.1.1)

/-! ### Sieve (R173 to R175) -/

/-- R174: the edges of one state are in ascending order and do not overlap. -/
def edgesRise : List AutEdge → Bool
  | a :: b :: r => decide (a.hi < b.lo) && edgesRise (b :: r)
  | _ => true

/-- R173, R174: an automaton image. -/
def parseImage (b : List Byte) (len start vocab : Nat) (stops : List Nat) : Option Automaton :=
  let ns := fieldAt b 8 4
  let ne := fieldAt b 12 4
  if fieldAt b 0 4 ≠ 0x56454953 ∨ fieldAt b 4 2 ≠ 1 ∨ fieldAt b 6 2 ≠ 0 ∨ fieldAt b 16 16 ≠ 0 ∨
      ns = 0 ∨ 65536 < ns ∨ 1048576 < ne ∨ len ≠ 32 + 8 * ns + 8 * ne ∨ b.length < len ∨ ns ≤ start then none
  else
    let states := (List.range ns).map (fun z => fieldAt b (32 + 8 * z) 8)
    let edges := (List.range ne).map (fun e => fieldAt b (32 + 8 * ns + 8 * e) 8)
    let es : List AutEdge := edges.map (fun e => { lo := bitsOf e 17 0, hi := bitsOf e 35 18, next := bitsOf e 51 36 })
    let sts : List AutState := states.map (fun z => { first := bitsOf z 31 0, count := bitsOf z 47 32, accept := bitOf z 48 })
    let good :=
      states.all (fun z => bitsOf z 63 49 == 0) && edges.all (fun e => bitsOf e 63 52 == 0) &&
      es.all (fun e => decide (e.lo ≤ e.hi) && decide (e.hi < vocab) && decide (e.next < ns) &&
        !(stops.any (fun t => decide (e.lo ≤ t) && decide (t ≤ e.hi)))) &&
      sts.all (fun z => z.count == 0 ||
        (decide (z.first + z.count ≤ ne) && edgesRise ((es.drop z.first).take z.count)))
    if good then some { start := start, states := sts, edges := es } else none

/-- R174: the maximal runs of consecutive identifiers of a strictly ascending list. -/
def runsOf : List Nat → List (Nat × Nat)
  | [] => []
  | x :: xs =>
    match runsOf xs with
    | (a, b) :: r => if a = x + 1 then (x, b) :: r else (x, x) :: (a, b) :: r
    | [] => [(x, x)]

def strictlyRising : List Nat → Bool
  | a :: b :: r => decide (a < b) && strictlyRising (b :: r)
  | _ => true

/-- R174: an allow-list of n entries, as the one-state automaton it is loaded as. -/
def parseAllow (b : List Byte) (n vocab : Nat) (stops : List Nat) : Option Automaton :=
  let ts := (List.range n).map (fun i => fieldAt b (4 * i) 4)
  if n = 0 ∨ 65536 < n ∨ strictlyRising ts = false ∨
      ts.any (fun t => decide (vocab ≤ t) || decide (2 ^ 18 ≤ t) || stops.contains t) = true then none
  else
    let es : List AutEdge := (runsOf ts).map (fun r => { lo := r.1, hi := r.2, next := 0 })
    some { start := 0, states := [{ first := 0, count := es.length, accept := true }], edges := es }

/-- R173: the stored bytes of an automaton. -/
def Automaton.bytes (a : Automaton) : List Byte :=
  leBytes 4 0x56454953 ++ leBytes 2 1 ++ leBytes 2 0 ++ leBytes 4 a.states.length ++ leBytes 4 a.edges.length ++
  leBytes 16 0 ++
  a.states.flatMap (fun z => leBytes 4 z.first ++ leBytes 2 z.count ++ leBytes 2 (b2n z.accept)) ++
  a.edges.flatMap (fun e => leBytes 8 (e.lo + e.hi * 2 ^ 18 + e.next * 2 ^ 36))

/-- R177: the 8-byte words of an automaton in the store. -/
def Automaton.words (a : Automaton) : Nat := 4 + a.states.length + a.edges.length

/-- R175: the token Sieve selects in a state; none where no allowed token has a logit. -/
def sieveSelect (a : Automaton) (z : Nat) (stops logits : List Nat) : Option Nat :=
  match a.states[z]? with
  | none => none
  | some st =>
    let es := (a.edges.drop st.first).take st.count
    let ok (t : Nat) : Bool :=
      es.any (fun e => decide (e.lo ≤ t) && decide (t ≤ e.hi)) || (st.accept && stops.contains t)
    (logits.zipIdx.foldl (fun (best : Option (Nat × Nat)) x =>
      if isNan x.1 || !ok x.2 then best
      else match best with
        | none => some (x.2, x.1)
        | some y => if fpKey y.2 < fpKey x.1 then some (x.2, x.1) else best) none).map (·.1)

/-- R175: the state entered after a token. -/
def sieveNext (a : Automaton) (z t : Nat) : Nat :=
  match a.states[z]? with
  | none => z
  | some st =>
    ((((a.edges.drop st.first).take st.count).find? (fun e => decide (e.lo ≤ t) && decide (t ≤ e.hi))).map
      (·.next)).getD z

end Sys2Proof.Machine
end

