-- ==== Sys2Proof/Machine/Harbour.lean ====
section
/-! DEFINITION.  The Harbourmaster's operations: manifests, the berth table, frames, events, provenance,
dumps, and the ends of turns and requests (R137 to R163, R360 to R363, R448, R449). -/

namespace Sys2Proof.Machine

/-! ### Manifests (R147) -/

def State.manOf (s : State) (i : Nat) : Manifest := tget {} s.hm.man i

/-- R137: the RID of manifest i. -/
def Manifest.rid (m : Manifest) (i : Nat) : Nat := i + m.gen * 2 ^ 18

def Manifest.sel (m : Manifest) : Bool := bitOf m.flags 0
def Manifest.spec (m : Manifest) : Bool := bitOf m.flags 1
def Manifest.pauseAtEnd (m : Manifest) : Bool := bitOf m.flags 2
def Manifest.coalesce (m : Manifest) : Bool := bitOf m.flags 3

/-- R147: the 64 bytes of a manifest. -/
def Manifest.image (m : Manifest) : List Byte :=
  leBytes 1 (m.st.code + m.flags % 16 * 16) ++ leBytes 1 m.gen ++
  leBytes 2 (m.fn + m.sq * 2 ^ 10 + m.cq * 2 ^ 13) ++
  leBytes 1 (m.slot + m.pd * 16 + b2n m.coalesce * 64 + b2n m.inBatch * 128) ++ leBytes 1 m.pend ++
  leBytes 2 m.selp ++ leBytes 4 m.tag ++ leBytes 8 m.seed ++ leBytes 4 m.step ++ leBytes 4 m.ctx ++
  leBytes 4 m.endAt ++ leBytes 4 m.ckpt ++ leBytes 8 m.expiry ++ leBytes 4 m.ttl ++
  (List.range 4).flatMap (fun k => let e := m.ext.getD k (0, 0); leBytes 4 (e.1 + e.2 * 2 ^ 20))

/-- R147, R459. -/
def manBase : Nat := 0x038000000000

/-- Rewrite a manifest, in State and in the manifest table in memory. -/
def State.setMan (s : State) (i : Nat) (m : Manifest) : State :=
  let t := s.store (manBase + 64 * i) m.image
  { t with hm := { t.hm with man := tset {} t.hm.man i m } }

def State.modMan (s : State) (i : Nat) (f : Manifest → Manifest) : State := s.setMan i (f (s.manOf i))

/-- Manifests of a live request, by ascending index. -/
def State.liveMen (s : State) : List (Nat × Manifest) :=
  s.hm.man.filter (fun e => e.2.st != .free && e.2.st != .quiet)

/-! ### Berths (R148 to R150) -/

/-- R150: the 16 bytes of an entry. -/
def Berth.image (b : Berth) : List Byte :=
  if b.valid then
    leBytes 4 b.rid ++ leBytes 2 b.berth ++ leBytes 1 (b.fill + 128) ++
    leBytes 1 (b.tier.code + b.tier.die * 16 + b2n b.mirrored * 64) ++ leBytes 3 b.frame ++
    leBytes 1 b.pulled ++ leBytes 4 b.peer
  else leBytes 16 0

/-- R147: the live copy, and the shadow. -/
def State.btBase (s : State) (live : Bool) : Nat :=
  if s.hm.btLive == live then 0x038002000000 else 0x038001000000

def State.berthOf (s : State) (k : Nat) : Berth := tget {} s.hm.bt k

/-- R162: update an entry of the live copy; a rebuild that runs logs it. -/
def State.setBerth (s : State) (k : Nat) (b : Berth) : State :=
  let t := s.store (s.btBase true + 16 * k) b.image
  { t with hm := { t.hm with
    bt := tset {} t.hm.bt k b
    btRun := t.hm.btRun.map (fun r => { r with log := r.log + 1 }) } }

/-- R150: the table entries of a request, in berth order. -/
def Manifest.entries (m : Manifest) : List Nat :=
  m.ext.flatMap (fun e => (List.range e.2).map (e.1 + ·))

/-- The lowest key from n on that a table does not list. -/
def firstGap {α : Type} : Nat → Table α → Nat
  | n, [] => n
  | n, (k, _) :: t => if k = n then firstGap (n + 1) t else if k < n then firstGap n t else n

/-- R150: the next entry of a request: the last extent grows if the next table entry is free; otherwise the
next unused extent opens at the lowest free entry (log 35); none where all four are in use. -/
def State.nextEntry (s : State) (m : Manifest) : Option (Nat × List (Nat × Nat)) :=
  let grow := match m.ext.getLast? with
    | some (f, c) =>
      if c < 2048 ∧ f + c < 2 ^ 20 ∧ (s.berthOf (f + c)).valid = false then
        some (f + c, m.ext.dropLast ++ [(f, c + 1)])
      else none
    | none => none
  match grow with
  | some x => some x
  | none =>
    let k := firstGap 0 s.hm.bt
    if m.ext.length < 4 ∧ k < 2 ^ 20 then some (k, m.ext ++ [(k, 1)]) else none

/-- The first n entries of the extents. -/
def takeExt : Nat → List (Nat × Nat) → List (Nat × Nat)
  | _, [] => []
  | n, (f, c) :: l => if n = 0 then [] else if n < c then [(f, n)] else (f, c) :: takeExt (n - c) l

/-- R162: a rebuild starts unless one runs. -/
def State.btStart (s : State) : State :=
  { s with hm := { s.hm with btRun := s.hm.btRun.orElse (fun _ => some {}) } }

/-- A wait begins, for which the register at o counts a request once (R150, R152, R153). -/
def State.waitOnce (s : State) (i o : Nat) : State :=
  let m := s.manOf i
  if m.counted.contains o then s else (s.count o 1).setMan i { m with counted := o :: m.counted }

/-- R150: a request is held until the table has been rebuilt. -/
def State.btHold (s : State) (i : Nat) : State := (s.waitOnce i (hmBlock + 0x044)).btStart

/-- Open a new berth of a request in a frame; false where the table gives no entry. -/
def State.addBerth (s : State) (i : Nat) (tier : Tier) (frame : Nat) : State × Bool :=
  let m := s.manOf i
  match s.nextEntry m with
  | none => (s, false)
  | some (k, ext) =>
    let b : Berth :=
      { valid := true, rid := m.rid i, berth := m.entries.length, fill := 0, tier := tier, frame := frame }
    ((s.setBerth k b).setMan i { m with ext := ext }, true)

/-- R148: fill of berth j when n positions have been written. -/
def fillOf (n j : Nat) : Nat := min 64 (n - 64 * j)

/-- Positions 0 to n − 1 of the context have been written: the fills follow; the mirror of a berth that has taken a position
holds them all no longer (R157). -/
def State.setWritten (s : State) (i n : Nat) : State :=
  let m := s.manOf i
  let t := m.entries.zipIdx.foldl (fun s e =>
    let b := s.berthOf e.1
    if b.fill = fillOf n e.2 then s else s.setBerth e.1 { b with fill := fillOf n e.2, mirrored := false }) s
  t.modMan i (fun m => { m with written := n })

/-! ### Frames (R140, R149) -/

/-- Frames of a tier of a slot. -/
def Slot.cap (r : Slot) : Tier → Nat
  | .pdSram _ => r.pdFrames
  | .pdHbm _ => r.hbmFrames
  | .gd => r.gdFrames
  | .coldLocal => r.coldFrames
  | .coldPeer => if r.coldPeer = 0xFFFFFFFF then 0 else r.peerFrames

/-- Berths of a slot's requests. -/
def State.slotBerths (s : State) (slot : Nat) : List Berth :=
  (s.hm.bt.filter (fun e => (s.manOf (e.2.rid % 2 ^ 18)).slot == slot)).map (·.2)

/-- R150: frames at CKPT_PEER that hold mirrors. -/
def State.mirrorFrames (s : State) (slot : Nat) : List Nat :=
  ((s.slotBerths slot).filter (fun b => b.peer != 0xFFFFF)).map (·.peer)

/-- Frames of a tier in use or promised. -/
def State.usedFrames (s : State) (slot : Nat) (t : Tier) : List Nat :=
  let r := s.slotOf slot
  let men := (s.liveMen.filter (fun e => e.2.slot == slot)).map (·.2)
  ((s.slotBerths slot).filter (fun b => b.tier == t)).map (·.frame) ++
  men.flatMap (fun m => (m.moves.filter (fun x => x.2.1 == t)).map (·.2.2)) ++
  (if t = .gd then men.flatMap (fun m => m.spare.toList ++ m.frames) else []) ++
  (if t = .coldPeer ∧ r.coldPeer = r.ckptPeer then s.mirrorFrames slot else [])

/-- The free frames of a tier, lowest first. -/
def State.freeFrames (s : State) (slot : Nat) (t : Tier) : List Nat :=
  let used := s.usedFrames slot t
  (List.range ((s.slotOf slot).cap t)).filter (fun f => !used.contains f)

/-- A free frame at CKPT_PEER, or 0xFFFFF. -/
def State.mirrorFrame (s : State) (slot : Nat) : Nat :=
  let r := s.slotOf slot
  let used := s.mirrorFrames slot ++ (if r.coldPeer = r.ckptPeer then s.usedFrames slot .coldPeer else [])
  if r.ckptPeer = 0xFFFFFFFF then 0xFFFFF
  else (((List.range r.peerFrames).find? (fun f => !used.contains f))).getD 0xFFFFF

/-- R148: bytes of a slice. -/
def Slot.sliceBytes (r : Slot) : Nat := 64 * r.kvb / r.shards

/-- R149, R426: the quay address of frame f of the slot's region at a peer, whose slices are consecutive. -/
def Slot.peerFrame (r : Slot) (f : Nat) : Nat :=
  r.peerBase + ceilDiv (0x1000000 + r.peerFrames * 8) 0x10000 * 0x10000 + f * 64 * r.kvb

/-- R149: the device address of slice k of a frame; none where it is at a peer (`Slot.peerFrame`). -/
def Slot.sliceAddr (r : Slot) (t : Tier) (f k : Nat) : Option Nat :=
  match t with
  | .pdSram n => some (r.bases.getD n 0 + f * 64 * r.kvb + k * r.sliceBytes)
  | .pdHbm n => some (r.bases.getD (4 + n) 0 + f * 64 * r.kvb + k * r.sliceBytes)
  | .gd => some (r.bases.getD (8 + k) 0 + f * r.sliceBytes)
  | .coldLocal => some (r.bases.getD (12 + k) 0 + f * r.sliceBytes)
  | .coldPeer => none

/-- Put bytes to a peer of a slot record, in the order of the puts (R157, R159). -/
def State.putPeer (s : State) (peer a : Nat) (bs : List Byte) : State :=
  { s with hm := { s.hm with puts := s.hm.puts ++ [{ peer := peer, addr := a, bytes := bs }] } }

/-- R148, R154: bytes of one layer's portion of a slice. -/
def Slot.portion (r : Slot) : Nat := r.sliceBytes / r.layers

/-- The n bytes at offset o of slice k of a frame; got is what a copy from a peer brings. -/
def State.sliceLoad (s : State) (r : Slot) (t : Tier) (f k o n : Nat) (got : List Byte) : List Byte :=
  match r.sliceAddr t f k with
  | some a => s.load (a + o) n
  | none => got.take n

/-- Write bytes at offset o of slice k of a frame; one at COLD_PEER is put to the peer. -/
def State.sliceStore (s : State) (r : Slot) (t : Tier) (f k o : Nat) (bs : List Byte) : State :=
  match r.sliceAddr t f k with
  | some a => s.store (a + o) bs
  | none => s.putPeer r.coldPeer (r.peerFrame f + k * r.sliceBytes + o) bs

/-- Move the bytes of a berth from one frame to another; got holds them where they come from a peer. -/
def State.copyBerth (s : State) (r : Slot) (t : Tier) (f : Nat) (t' : Tier) (f' : Nat) (got : List Byte) : State :=
  (List.range r.shards).foldl (fun s k =>
    s.sliceStore r t' f' k 0 (s.sliceLoad r t f k 0 r.sliceBytes (got.drop (k * r.sliceBytes)))) s

/-- R157, R164: checkpointing is active for a slot, under CADENCE as the last checkpoint boundary took it. -/
def State.ckptActive (s : State) (slot : Nat) : Bool :=
  s.hm.cadence != 0 && (s.slotOf slot).ckptPeer != 0xFFFFFFFF

/-- Open a berth in the spare GD frame and take a new spare (R148). -/
def State.growBerth (s : State) (i : Nat) : State × Bool :=
  let m := s.manOf i
  match m.spare with
  | none => (s, false)
  | some f =>
    match s.addBerth i .gd f with
    | (t, false) => (t, false)
    | (t, true) =>
      let t := t.modMan i (fun m => { m with spare := none })
      (t.modMan i (fun m => { m with spare := (t.freeFrames m.slot .gd).head? }), true)

/-! ### Mirrors and checkpoints (R157, R158, R426) -/

/-- R157: the positions of a request's berths that are neither mirrored nor on their way are copied to CKPT_PEER, each berth
into its frame there; the bytes of the whole frame go with them (log 36). -/
def State.issueMirror (s : State) (i : Nat) (byStep : Bool) : State :=
  let m := s.manOf i
  let r := s.slotOf m.slot
  if s.ckptActive m.slot = false then s
  else m.entries.zipIdx.foldl (fun s e =>
    let m := s.manOf i
    let b := s.berthOf e.1
    let sent := ((m.copies.filter (fun c => c.berth == e.2)).map (·.fill)).foldl max (tget 0 m.mirrored e.2)
    let f := if b.peer = 0xFFFFF then s.mirrorFrame m.slot else b.peer
    if b.fill ≤ sent ∨ f = 0xFFFFF then s
    else
      let bs := (List.range r.shards).flatMap (fun k => s.sliceLoad r b.tier b.frame k 0 r.sliceBytes [])
      ((s.setBerth e.1 { b with peer := f }).putPeer r.ckptPeer (r.peerFrame f) bs).setMan i
        { m with copies := m.copies ++ [{ berth := e.2, fill := b.fill, byStep := byStep }] }) s

/-- R157, R158: what the mirrors of a request's berths hold, or the copies of its steps on their way will bring, is every
written position; copies of a prefill leave it out until they have ended. -/
def State.willMirror (s : State) (m : Manifest) : Bool :=
  m.copies.all (·.byStep) && m.entries.zipIdx.all (fun e =>
    (s.berthOf e.1).mirrored || m.copies.any (fun c => c.berth == e.2 && c.fill == (s.berthOf e.1).fill))

/-- R157: the copies up to a checkpoint have completed: its 64-byte record is put to the peer, the manifest's image with STATE
PAUSED, and with the STEP it covers in CKPT (log 146). -/
def State.sendRecord (s : State) (i : Nat) : State :=
  let m := s.manOf i
  let r := s.slotOf m.slot
  match m.ckptFlight with
  | some n =>
    if m.ckptSent = false ∧ m.copies.isEmpty = true then
      (s.setMan i { m with ckptSent := true }).putPeer r.ckptPeer (r.peerBase + 64 * i)
        ({ m with st := .paused, ckpt := n } : Manifest).image
    else s
  | none => s

/-- R157: a checkpoint of a request is taken, unless it is left out. -/
def State.takeCkpt (s : State) (i : Nat) : State :=
  let t := s.issueMirror i true
  let m := t.manOf i
  if t.ckptActive m.slot ∧ t.willMirror m = true then
    (t.setMan i { m with ckptFlight := some m.step, ckptSent := false }).sendRecord i
  else t

/-- Take a spare GD frame where the request has none. -/
def State.takeSpare (s : State) (i : Nat) : State :=
  let m := s.manOf i
  if m.spare.isSome then s else s.setMan i { m with spare := (s.freeFrames m.slot .gd).head? }

/-- R150: free every entry and frame of a request. -/
def State.releaseBerths (s : State) (i : Nat) : State :=
  let m := s.manOf i
  (m.entries.foldl (fun s k => s.setBerth k {}) s).modMan i (fun m =>
    { m with ext := [], spare := none, frames := [], moves := [], pulls := [], copies := [], mirrored := [] })

/-! ### Events (R143, R145) -/

/-- R143: a completion entry. -/
def eventEntry (rid event tag status ntok reason step : Nat) (toks : List Nat) : BitVec 256 :=
  BitVec.ofNat 256 (leNat (leBytes 3 rid ++ leBytes 1 event ++ leBytes 4 tag ++ leBytes 1 status ++ leBytes 1 ntok ++
    leBytes 1 reason ++ leBytes 1 0 ++ leBytes 4 step ++ toks.flatMap (leBytes 4)))

/-- Post an event of request i. -/
def State.postEvent (s : State) (i event status reason step : Nat) : State :=
  let m := s.manOf i
  s.postCq m.fn m.cq (eventEntry (m.rid i) event m.tag status 0 reason step [])

/-- R143: TOKENS entries of up to four tokens each, in order; n bounds their number. -/
def State.postTokens (s : State) (i first : Nat) : List Nat → Nat → State
  | [], _ => s
  | _, 0 => s
  | ts, n + 1 =>
    let m := s.manOf i
    (s.postCq m.fn m.cq (eventEntry (m.rid i) 2 m.tag 0 (min 4 ts.length) 0 first (ts.take 4))).postTokens
      i (first + 4) (ts.drop 4) n

/-- R143: tokens selected in a step, STEP already moved past them; COALESCE holds them until there are
four. -/
def State.emitTokens (s : State) (i : Nat) (ts : List Nat) : State :=
  let m := s.manOf i
  let all := m.held ++ ts
  let n := if m.coalesce then all.length / 4 * 4 else all.length
  ((s.modMan i (fun m => { m with held := all.drop n, out := m.out ++ ts })).postTokens i
    (m.step - all.length) (all.take n) n)

/-- R143: a pause or an end posts the tokens held. -/
def State.flushTokens (s : State) (i : Nat) : State :=
  let m := s.manOf i
  (s.postTokens i (m.step - m.held.length) m.held m.held.length).modMan i (fun m => { m with held := [] })

/-! ### Provenance (R360 to R363) -/

def provReg (v o : Nat) : Nat := hmBlock + 0x3000 + 0x10 * v + o

/-- R362. -/
def State.provDigest (s : State) (m : Manifest) : BitVec 256 :=
  Config.sha3 (leBytes 32 m.fw.toNat ++ leBytes 32 (s.slotOf m.slot).wdigest.toNat ++ leBytes 32 m.hIn.toNat ++
    leBytes 8 m.seed)

/-- R363: DET_HELD. -/
def State.detHeld (s : State) (m : Manifest) : Bool :=
  m.det && s.det.epoch == m.epoch && !s.det.pending && s.boot.updates == m.updates

/-- R361: the record of the turn of request i that an event ends; partial says that a PAUSE command, CANCEL or
FAILED ended it. -/
def State.provRecord (s : State) (i seq event : Nat) (part : Bool) : List Byte :=
  let m := s.manOf i
  leBytes 4 seq ++ leBytes 3 (m.rid i) ++ leBytes 1 event ++ leBytes 4 m.tag ++
  leBytes 1 (b2n (s.detHeld m) + b2n m.seeded * 2 + b2n m.spec * 4 + b2n m.sel * 8 +
    b2n (s.boot.updates != m.updates) * 16 + b2n part * 32) ++
  leBytes 1 s.boot.rev ++ leBytes 1 m.slot ++ leBytes 1 (min 255 m.turn) ++ leBytes 4 m.stepFirst ++
  leBytes 4 (m.step - m.stepFirst) ++ leBytes 8 m.seed ++ leBytes 32 (s.provDigest m).toNat ++
  leBytes 32 m.hIn.toNat ++ leBytes 32 (Config.sha3 (m.out.flatMap (leBytes 4))).toNat

/-- R360: the record of a turn that emitted tokens is written to the function's ring before the event; one that
Customs refuses is dropped and counted. -/
def State.writeProv (s : State) (i event : Nat) (part : Bool) : State :=
  let m := s.manOf i
  let cfg := s.regN (provReg m.fn 8)
  if m.step ≤ m.stepFirst ∨ bitOf cfg 31 = false then s
  else
    let seq := s.regN (provReg m.fn 0xC)
    let a := s.reg64 (provReg m.fn 0) (provReg m.fn 4) + 128 * (seq % 2 ^ bitsOf cfg 23 20)
    match s.tenantWrite m.fn (bitsOf cfg 19 0) a (s.provRecord i seq event part) with
    | (t, true) => t.setReg (provReg m.fn 0xC) ((seq + 1) % 2 ^ 32)
    | (t, false) => t.count (hmBlock + 0x068) 1

/-! ### Tensor dumps (R448, R449) -/

def dumpReg (f o : Nat) : Nat := hmBlock + 0x7000 + 0x10 * f + o

/-- R449: the device's bytes of a dump entry: DONE, STATUS and LEN. -/
def State.dumpStatus (s : State) (f entry tag status len : Nat) : State :=
  let p := s.regB (dumpReg f 8) 19 0
  let a := s.reg64 (dumpReg f 0) (dumpReg f 4) + 64 * entry
  let t := (s.tenantWrite f p (a + 28) (leBytes 4 len)).1
  let t := (t.tenantWrite f p (a + 8) (leBytes 4 tag ++ [3] ++ leBytes 1 status ++ [0, 0])).1
  if status = 0 then t else t.fnCount f .dumpFail 1

/-- R448: the dump table is read whole when a request is admitted or a RESUME is accepted: each entry with VALID,
without DONE and with a matching TAG that no other request holds is bound; one with reserved bytes set, or with
a DST or MAX_LEN out of range, ends with BAD_ENTRY. -/
def State.bindDumps (s : State) (i : Nat) : State :=
  let m := s.manOf i
  let cfg := s.regN (dumpReg m.fn 8)
  if bitOf cfg 31 = false then s
  else
    let n := 2 ^ min 6 (bitsOf cfg 25 20)
    match s.tenantRead m.fn (bitsOf cfg 19 0) (s.reg64 (dumpReg m.fn 0) (dumpReg m.fn 4)) (64 * n) with
    | (t, none) => t
    | (t, some bs) =>
      (List.range n).foldl (fun s k =>
        let e := (bs.drop (64 * k)).take 64
        let tag := fieldAt e 8 4
        let flags := fieldAt e 12 1
        let taken := s.liveMen.any (fun q => q.2.fn == m.fn && q.2.dumps.any (·.entry == k))
        if bitOf flags 0 = false ∨ bitOf flags 1 = true ∨ taken = true ∨ (tag ≠ m.tag ∧ tag ≠ 0xFFFFFFFF) then s
        else if fieldAt e 14 2 ≠ 0 ∨ fieldAt e 32 32 ≠ 0 ∨ 4 ≤ flags ∨ fieldAt e 16 8 % 64 ≠ 0 ∨ fieldAt e 24 4 < 64 then
          s.dumpStatus m.fn k tag 5 0
        else
          let b : DumpBind :=
            { entry := k, tag := tag, name := fieldAt e 0 4, step := fieldAt e 4 4, dst := fieldAt e 16 8, maxLen := fieldAt e 24 4 }
          s.modMan i (fun m => { m with dumps := m.dumps ++ [b] })) t

/-- R449: write one dump: the data, the header, then the entry's bytes; without data the name was not found. -/
def State.writeDump (s : State) (i : Nat) (b : DumpBind) (d : Option DumpData) : State :=
  let m := s.manOf i
  match d with
  | none => s.dumpStatus m.fn b.entry b.tag 2 0
  | some d =>
    let p := s.regB (dumpReg m.fn 8) 19 0
    let data := d.data.take (b.maxLen - 64)
    let cut := decide (data.length < d.data.length)
    let head := leBytes 4 b.name ++ leBytes 4 b.step ++ leBytes 3 (m.rid i) ++ leBytes 1 d.fmt.toNat ++ leBytes 4 d.rows ++
      leBytes 4 d.rowBytes ++ leBytes 4 d.scaleBytes ++ leBytes 2 d.layer.toNat ++ leBytes 2 d.op.toNat ++
      leBytes 1 (b2n cut) ++ leBytes 35 0
    match s.tenantWrite m.fn p (b.dst + 64) data with
    | (t, false) => t.dumpStatus m.fn b.entry b.tag 3 0
    | (t, true) =>
      match t.tenantWrite m.fn p b.dst head with
      | (u, false) => u.dumpStatus m.fn b.entry b.tag 3 0
      | (u, true) => (u.dumpStatus m.fn b.entry b.tag (b2n cut) (64 + data.length)).fnCount m.fn .dumps 1

/-- R449: the dumps whose step has been selected are written. -/
def State.dueDumps (s : State) (i : Nat) (ds : List DumpData) : State :=
  let m := s.manOf i
  let due := m.dumps.filter (fun b => decide (b.step < m.step))
  due.foldl (fun s b => s.writeDump i b (ds.find? (fun d => d.man.val == i && d.entry.val == b.entry)))
    (s.setMan i { m with dumps := m.dumps.filter (fun b => !decide (b.step < m.step)) })

/-- R449: the turn ends before the step of these entries. -/
def State.dropDumps (s : State) (i : Nat) : State :=
  let m := s.manOf i
  m.dumps.foldl (fun s b => s.dumpStatus m.fn b.entry b.tag 4 0) (s.setMan i { m with dumps := [] })

/-! ### Parameter records and the automaton store (R165, R177) -/

/-- R165: the free record with the lowest index. -/
def State.freeRec (s : State) (sel : Bool) : Option Nat :=
  let used := (s.hm.man.filter (fun e => e.2.hasRec && e.2.sel == sel)).map (·.2.selp)
  (List.range (min 65536 (used.length + 1))).find? (fun k => !used.contains k)

/-- Runs of words in use in the live store. -/
def State.svUsed (s : State) : List (Nat × Nat) := s.hm.man.filterMap (fun e => e.2.store)

def svWords : Nat := 0x400000

/-- R459: the live copy of the store, and the shadow. -/
def State.svBase (s : State) (live : Bool) : Nat := if s.hm.svLive == live then 0x03800A000000 else 0x038008000000

/-- R182: free words of the live store. -/
def State.svFree (s : State) : Nat := svWords - (s.svUsed.map (·.2)).sum

/-- R177: the automata live now, packed in ascending order of their live address: manifest, address and words; and the words in
use. -/
def State.svLayout (s : State) : List (Nat × Nat × Nat) × Nat :=
  let live := (s.hm.man.filterMap (fun e => e.2.store.map (fun p => (e.1, p.1, p.2)))).mergeSort
    (fun a b => decide (a.2.1 ≤ b.2.1))
  live.foldl (fun (acc : List (Nat × Nat × Nat) × Nat) e => (acc.1 ++ [(e.1, acc.2, e.2.2)], acc.2 + e.2.2)) ([], 0)

/-- R177: a change of the store is logged where a rebuild runs, and replayed into the layout of the pass; the first one after
the end of a pass begins another pass, over the automata live then. -/
def State.svLog (s : State) (f : List (Nat × Nat × Nat) → Nat → List (Nat × Nat × Nat)) (words : Nat) : State :=
  match s.hm.svRun with
  | none => s
  | some r =>
    let l := if r.log = 0 ∧ 0 < r.passes then s.svLayout else (s.hm.svShadow, s.hm.svEnd)
    { s with hm := { s.hm with
      svRun := some { r with log := r.log + 1 }, svShadow := f l.1 l.2, svEnd := l.2 + words } }

/-- R177: free a request's automaton. -/
def State.svRelease (s : State) (i : Nat) : State :=
  match (s.manOf i).store with
  | none => s
  | some _ => (s.svLog (fun l _ => l.filter (fun e => e.1 != i)) 0).modMan i (fun m => { m with store := none })

/-- R177: a rebuild starts: its first pass packs the live automata. -/
def State.svPack (s : State) : State :=
  { s with hm := { s.hm with svRun := some {}, svShadow := s.svLayout.1, svEnd := s.svLayout.2 } }

/-- R177: a rebuild starts unless one runs. -/
def State.svStart (s : State) : State := if s.hm.svRun.isSome then s else s.svPack

/-! ### Ends (R138, R146, R156, R159) -/

/-- R138: a manifest is freed: the generation moves on, and QUIET lasts HM_QUIET. -/
def State.freeMan (s : State) (i : Nat) : State :=
  let m := s.manOf i
  s.setMan i { gen := (m.gen + 1) % 64, st := .quiet
               quietUntil := s.td.raw + rawUs (1000 * s.regN (hmBlock + 0x004)) }

/-- Prefills of one context run one at a time, in the order they were placed (log 37): whether that of request i is the one
whose descriptors the context holds. -/
def State.prefillFirst (s : State) (i : Nat) : Bool :=
  let m := s.manOf i
  (s.hm.prefills.find? (fun k => let q := s.manOf k
    q.pd == m.pd && q.fn == m.fn && q.slot == m.slot)) == some i

/-- The prefill of request i is over, and the next one of its context has its turn. -/
def State.prefillOver (s : State) (i : Nat) : State :=
  let m := s.manOf i
  let t := { s with hm := { s.hm with prefills := s.hm.prefills.filter (· != i) } }
  match t.hm.prefills.find? (fun k => let q := t.manOf k
      q.pd == m.pd && q.fn == m.fn && q.slot == m.slot) with
  | some k => if s.prefillFirst i then t.modMan k (fun q => { q with recMark := s.sh.recs.length }) else t
  | none => t

/-- R146: the descriptors of a request's prefill are aborted, those of its context and those that wait for one. -/
def State.abortPrefill (s : State) (i : Nat) : State :=
  let m := s.manOf i
  let d := Die.ofIndex m.pd
  let mine (w : WaitDesc) : Bool := w.die == m.pd && w.vf == m.fn && w.slot == m.slot
  if s.prefillFirst i = false then s.prefillOver i
  else
    let t := match s.sh.ctx.find? (fun e => e.1 / 8 == m.pd && e.2.vf == m.fn && e.2.slot == m.slot) with
      | some e => s.abortCtx d e.1
      | none => s
    let t := (s.sh.wait.filter mine).foldl (fun t w =>
      let x := Desc.parse w.desc.desc
      t.postRecord d w.vf w.slot 0 x (recordOf x 9 0 0 0 0 0)) t
    ({ t with sh := { t.sh with wait := t.sh.wait.filter (fun w => !mine w) } }.serveWait d).prefillOver i

/-- R191: the running prefill of a request is placed again, from its start: its descriptors are aborted, and the berths it opened
are given back. -/
def State.placeAgain (s : State) (i : Nat) : State :=
  let m := s.manOf i
  let keep := ceilDiv m.written 64
  let t := ((m.entries.drop keep).foldl (fun s k => s.setBerth k {}) (s.abortPrefill i))
  t.modMan i (fun m => { m with
    phase := .place, ext := takeExt keep m.ext, st := if m.st = .prefill then .admitted else m.st })

/-- R426: the record of a checkpointed request that reaches its terminal event is written with STATE FREE. -/
def State.freeRecord (s : State) (i : Nat) : State :=
  let m := s.manOf i
  let r := s.slotOf m.slot
  if r.ckptPeer ≠ 0xFFFFFFFF ∧ (m.ckpt ≠ 0xFFFFFFFF ∨ m.ckptSent = true) then
    s.putPeer r.ckptPeer (r.peerBase + 64 * i) ({ m with st := .free } : Manifest).image
  else s

/-- R146: the request's prefill is aborted, and in ENDING its berths, record and automaton are given back; then its manifest is
freed. -/
def State.reclaim (s : State) (i : Nat) : State :=
  ((((s.abortPrefill i).freeRecord i).modMan i (fun m => { m with st := .ending })).releaseBerths i |>.svRelease i).freeMan i

/-- R145, R360: a request's terminal event: held tokens, dumps not reached, the provenance record, the event, and
then the berths are reclaimed. -/
def State.endRequest (s : State) (i event status reason : Nat) : State :=
  let t := (s.flushTokens i).dropDumps i
  let t := if event = 6 then t else t.writeProv i event (event != 3)
  (t.postEvent i event status reason 0).reclaim i

/-- READY: the slot takes its place among those that alternate (R153). -/
def State.makeReady (s : State) (i : Nat) : State :=
  let m := s.manOf i
  let t := s.setMan i { m with st := .ready, counted := [], pre := 0 }
  if t.hm.order.contains m.slot then t else { t with hm := { t.hm with order := t.hm.order ++ [m.slot] } }

/-- R159: where each berth of a pausing request goes: one already cold stays; a mirror at a CKPT_PEER equal to
COLD_PEER becomes its home; the others go to COLD_LOCAL where it has frames for all of them, or else to COLD_PEER
(log 38); none where neither has. -/
def State.coldPlan (s : State) (m : Manifest) : Option (List (Nat × Tier × Nat)) :=
  let r := s.slotOf m.slot
  let bs := m.entries.zipIdx.map (fun e => (e.2, s.berthOf e.1))
  let hot := bs.filter (fun b => b.2.tier != .coldLocal && b.2.tier != .coldPeer)
  let same (b : Berth) : Bool :=
    r.coldPeer != 0xFFFFFFFF && r.coldPeer == r.ckptPeer && b.mirrored && b.peer != 0xFFFFF
  let mine := (hot.filter (fun b => same b.2)).map (fun b => (b.1, Tier.coldPeer, b.2.peer))
  let rest := (hot.filter (fun b => !same b.2)).map (·.1)
  let loc := s.freeFrames m.slot .coldLocal
  let far := s.freeFrames m.slot .coldPeer
  if rest.length ≤ loc.length then some (mine ++ (rest.zip loc).map (fun x => (x.1, Tier.coldLocal, x.2)))
  else if rest.length ≤ far.length then some (mine ++ (rest.zip far).map (fun x => (x.1, Tier.coldPeer, x.2)))
  else none

/-- R154, R159: the portions of the berths whose moves copy something, in layer-major order. -/
def Slot.portions (r : Slot) (berths : List Nat) : List (Nat × Nat × Nat) :=
  (List.range r.layers).flatMap (fun l => berths.flatMap (fun b => (List.range r.shards).map (fun k => (k, l, b))))

/-- R157, R159: with its last berth in the cold frame a pausing request is checkpointed. -/
def State.pauseLanded (s : State) (i : Nat) : State :=
  if (s.manOf i).moves.isEmpty then s.takeCkpt i else s

/-- R150, R159: the position that the last step selected needs a berth for which the table has no entry. -/
def State.pauseHeld (s : State) (m : Manifest) : Bool :=
  m.st == .decode && decide (m.entries.length * 64 < m.ctx) && m.spare.isSome && (s.nextEntry m).isNone

/-- R159: the berths of a pausing request set out for the cold frame; one whose mirror there becomes its home is rewritten at
once. -/
def State.pauseMoves (s : State) (i : Nat) (mv : List (Nat × Tier × Nat)) : State :=
  let m := s.manOf i
  let r := s.slotOf m.slot
  let home (x : Nat × Tier × Nat) : Bool := match m.entries[x.1]? with
    | some k => let b := s.berthOf k
      x.2.1 == .coldPeer && b.mirrored && b.peer == x.2.2 && r.coldPeer == r.ckptPeer
    | none => false
  let t := (mv.filter home).foldl (fun s x =>
    match m.entries[x.1]? with
    | some k => s.setBerth k { s.berthOf k with tier := x.2.1, frame := x.2.2, pulled := 0 }
    | none => s) s
  let rest := mv.filter (fun x => !home x)
  (t.modMan i (fun m => { m with moves := rest, pulls := r.portions (rest.map (·.1)) })).pauseLanded i

/-- R159: a pause begins, with its REASON; cmd says that a PAUSE command caused it.  A request that decodes has the position of
its last token written; without an entry for that position's berth it is held at the boundary (R150).  Without cold frames
the request ends with NO_BERTHS. -/
def State.pauseBegin (s : State) (i reason : Nat) (cmd : Bool) : State :=
  let m0 := s.manOf i
  if s.pauseHeld m0 then (s.modMan i (fun m => { m with inBatch := false })).btHold i
  else
    let s := (s.flushTokens i).dropDumps i
    let s := if m0.st = .decode ∧ m0.entries.length * 64 < m0.ctx then (s.growBerth i).1 else s
    let s := if m0.st = .decode then s.setWritten i (min m0.ctx ((s.manOf i).entries.length * 64)) else s
    let s := s.issueMirror i true
    let m := s.manOf i
    match s.coldPlan m with
    | none => if cmd then s.endRequest i 8 0x0C 0 else s.endRequest i 3 0x0C reason
    | some mv =>
      (s.setMan i { m with
        st := .pausing, inBatch := false, reason := reason, turnEnd := none, leave := .none, counted := []
        spare := none, frames := [], pend := if m.pend = 2 then 0 else m.pend }).pauseMoves i mv

/-- R156: a turn ends. -/
def State.turnEnds (s : State) (i reason : Nat) : State :=
  if (s.manOf i).pauseAtEnd then s.pauseBegin i reason false else s.endRequest i 3 0 reason

/-! ### Selection (R156, R168, R175) -/

/-- Count positions selected by Rake. -/
def State.countSel (s : State) : State :=
  let n := (s.reg64 (rkBlock + 0x008) (rkBlock + 0x00C) + 1) % 2 ^ 64
  (s.setReg (rkBlock + 0x008) (n % 2 ^ 32)).setReg (rkBlock + 0x00C) (n / 2 ^ 32)

/-- One selection of a request's unit: the token, whether it is a stop token, and the automaton's next state. -/
def Manifest.choose (m : Manifest) (toks : List Nat) (z : Nat) (logits : List Nat) (n d : Nat) :
    Option (Nat × Bool × Nat) :=
  let stops := (stopTokens m.param).map (· % 2 ^ 18)
  if m.sel then
    (sieveSelect m.auto z stops logits).map (fun t => (t, stops.contains t, if stops.contains t then z else sieveNext m.auto z t))
  else (rakeSelect m.param toks logits m.seed n d).map (fun t => (t, stops.contains t, z))

/-- R156: a selected token joins the context; the turn may end, checked in this order. -/
def State.acceptToken (s : State) (i tok : Nat) (stop : Bool) (z : Nat) : State :=
  let m := s.manOf i
  let m' := { m with toks := m.toks ++ [tok], step := m.step + 1, ctx := m.ctx + 1, autSt := z }
  let e := if stop then some 0
    else if m.endAt ≤ m.step + 1 then some 1
    else if (s.slotOf m.slot).maxCtx ≤ m.ctx + 1 then some 2
    else none
  s.setMan i { m' with turnEnd := e }

/-- R168, R175: a selection found no token. -/
def State.noToken (s : State) (i : Nat) : State :=
  s.count (if (s.manOf i).sel then svBlock + 0x014 else rkBlock + 0x014) 1

/-- The manifests in the batch, by ascending index. -/
def State.inBatch (s : State) : List Nat := (s.liveMen.filter (fun e => e.2.inBatch)).map (·.1)

end Sys2Proof.Machine
end

