-- ==== Sys2Proof/Machine/Package.lean ====
section
/-! DEFINITION.  Chapter 01: the Mooring ring and the clock domains. -/

namespace Sys2Proof.Machine

/-- R14: hops clockwise from a to b. -/
def hopsClockwise (a b : Die) : Nat := (b.position + 10 - a.position) % 10

/-- R16: the fixed route: the direction with fewer hops; at five hops, clockwise from an even position. -/
def ringClockwise (a b : Die) : Bool :=
  let h := hopsClockwise a b
  if h < 5 then true else if 5 < h then false else a.position % 2 == 0

/-- R16: hops of the route. -/
def ringHops (a b : Die) : Nat := min (hopsClockwise a b) (10 - hopsClockwise a b)

/-- R16: the positions of the bridges the route crosses; bridge p joins positions p and p + 1. -/
def ringBridges (a b : Die) : List Nat :=
  (List.range (ringHops a b)).map (fun i =>
    if ringClockwise a b then (a.position + i) % 10 else (a.position + 9 - i) % 10)

/-- R18: unloaded latency in MOOR cycles, to ±1. -/
def ringLatency (a b : Die) : Nat := 24 + 10 * ringHops a b

/-- R16, R17, R97: a transfer enters the ring at its source's stop on its fixed route, in the class of its kind and with
its issuer's identifier, behind every earlier one of its class and pair.  MOOR must run (R25), the BASE islands that hold
the two stops must be ON (R27), the unit must run (R451), and no bridge of the route may be down (R19: the ring has no
spare path). -/
def execRingTransferInject (src dst : Die) (use : RingUse) (payload : List Byte) (s : State) : Out :=
  onlyIf (src ≠ dst && s.clk.running.contains .moor && s.dieOn src && s.dieOn dst && !s.masterHalted use.master &&
      !(ringBridges src dst).any (fun b => s.ring.down.contains b)) s
    { s with ring := { s.ring with flight := s.ring.flight ++ [{
        src := src, dst := dst, master := use.master, cls := use.kind.cls, clockwise := ringClockwise src dst,
        hops := ringHops src dst, payload := payload }] } }

/-- Is the transfer of this class and pair? -/
def Transfer.isOf (src dst : Die) (cls : RingClass) (t : Transfer) : Bool :=
  t.src == src && t.dst == dst && t.cls == cls

/-! ### Arbitration at the stops (R17) -/

/-- The position of the stop at which a transfer is. -/
def Transfer.at (t : Transfer) : Nat :=
  if t.clockwise then (t.src.position + t.made) % 10 else (t.src.position + 10 - t.made) % 10

/-- The transfer waits at a stop to leave it in a direction; it is transit traffic or a local injection there. -/
def Transfer.waits (p : Nat) (cw transit : Bool) (cls : RingClass) (t : Transfer) : Bool :=
  decide (t.made < t.hops) && t.clockwise == cw && t.at == p && decide (0 < t.made) == transit && t.cls == cls

/-- R17: the transfer of one class that leaves a stop next, by its place in flight, and whether it is a transit one:
transit traffic and local injection take turns. -/
def Ring.pickOf (r : Ring) (p : Nat) (cw : Bool) (cls : RingClass) : Option (Nat × Bool) :=
  let key := 6 * p + 3 * b2n cw + cls.code
  let t := r.flight.findIdx? (Transfer.waits p cw true cls)
  let l := r.flight.findIdx? (Transfer.waits p cw false cls)
  match t, l with
  | some i, some j => if tget 0 r.turn key = 1 then some (i, true) else some (j, false)
  | some i, none => some (i, true)
  | none, some j => some (j, false)
  | none, none => none

/-- One grant at a stop and direction: RADIO before CONTROL before BULK.  The transfer makes a hop, and the turn of its
class there passes on. -/
def Ring.grant (r : Ring) (p : Nat) (cw : Bool) : Ring :=
  match [RingClass.radio, .control, .bulk].findSome? (fun c => (r.pickOf p cw c).map (fun x => (c, x))) with
  | none => r
  | some (c, i, transit) => { r with
      flight := lmod r.flight i (fun t => { t with made := t.made + 1 })
      turn := tset 0 r.turn (6 * p + 3 * b2n cw + c.code) (b2n !transit) }

/-- One grant at every stop and direction. -/
def Ring.round (r : Ring) : Ring :=
  (List.range 20).foldl (fun r k => r.grant (k / 2) (k % 2 == 1)) r

/-- The ring goes on until the oldest transfer of a class and pair is at its target's stop. -/
def Ring.carry (src dst : Die) (cls : RingClass) : Nat → Ring → Ring
  | 0, r => r
  | n + 1, r =>
    if r.flight.any (fun t => t.isOf src dst cls && decide (t.made = t.hops)) then r else Ring.carry src dst cls n r.round

/-- Hops that transfers in flight have still to make: an upper bound of the rounds that any of them needs. -/
def Ring.due (r : Ring) : Nat := (r.flight.map (fun t => t.hops - t.made)).sum

/-- A transfer is delivered at its target stop. -/
def State.ringArrive (s : State) (t : Transfer) : State := { s with ring := { s.ring with arrived := s.ring.arrived ++ [t] } }

/-- R17, R18: the oldest transfer of the class and pair reaches its target, and every other one has by then made the hops
that the stops granted it; R19: each bridge of its route on which a flit was corrected counts it.  R452: one that arrives
during a stop is captured. -/
def execRingTransferDeliver (src dst : Die) (cls : RingClass) (corrected : List (Fin 10)) (s : State) :
    Out :=
  match s.ring.flight.find? (Transfer.isOf src dst cls) with
  | none => .next s
  | some x =>
    let t := { x with made := x.hops }
    let r := Ring.carry src dst cls s.ring.due s.ring
    let u := { s with ring := { r with
      flight := lrmFirst (Transfer.isOf src dst cls) r.flight
      corrected := corrected.foldl (fun c (b : Fin 10) =>
        if (ringBridges src dst).contains b.val then tmod 0 c b.val (· + 1) else c) s.ring.corrected } }
    .next (if s.obs.stopped && !s.obs.captured then u.capture (.ring t) false src.position cls.code t.payload
      else u.ringArrive t)

/-- R25: the islands a domain clocks. -/
def ClkDomain.clocks (d : ClkDomain) (k : IslKind) : Bool :=
  match d, k with
  | .pda n, .array g => decide (g / 16 = n.val) && decide (g < 64)
  | .gdc n, .array g => decide (64 ≤ g) && decide (g < 80) && decide ((g - 64) / 4 = n.val)
  | .gdc n, .bankGroup m _ => decide (m = n.val)
  | .rdc, .array g => decide (80 ≤ g)
  | .rdf, .coding _ => true
  | .hbmc, .base (.pd _) => true
  | .zel, .optics _ => true
  | .fh, .ports _ => true
  | _, _ => false

/-- R25: some island the domain clocks is ON, or has been woken and is on its way there. -/
def State.domainUsed (s : State) (d : ClkDomain) : Bool :=
  (List.range 499).any (fun i => d.clocks (islKind i) &&
    ((s.isl i).st == .on || (s.isl i).st == .exiting || (s.isl i).st == .latched))

/-- R25: a domain that does not run starts. -/
def State.startClock (s : State) (d : ClkDomain) : State :=
  if s.clk.running.contains d then s else { s with clk := { s.clk with running := s.clk.running ++ [d] } }

/-- R25: an on-demand domain stops once no island it clocks is ON; RDC runs on while a plan is loaded. -/
def execClockDomainStop (d : ClkDomain) (s : State) : Out :=
  onlyIf (!d.always && !s.domainUsed d && !(d == .rdc && s.planLoaded)) s
    { s with clk := { s.clk with running := s.clk.running.filter (· ≠ d) } }

/-- R26: AON switches from the internal oscillator to OCXO ÷ 16. -/
def execOcxoStable (s : State) : Out :=
  .next { s with clk := { s.clk with ocxo := true } }

end Sys2Proof.Machine
end

