-- ==== Sys2Proof/Machine/RadioMath.lean ====
section
/-! DEFINITION.  Chapter 10: the arithmetic of the FFT engines (R219), of the gain loops' power (R213) and of the PRACH
detector (R216 to R218). -/

namespace Sys2Proof.Machine

/-! ### FFT engines (R219) -/

/-- Powers of two, threes and fives taken out of a number. -/
def stripFactor (p : Nat) : Nat → Nat → Nat
  | 0, n => n
  | k + 1, n => if n % p = 0 ∧ 0 < n then stripFactor p k (n / p) else n

/-- R219: the sizes: powers of two from 128 to 4,096, and 12 · 2^a · 3^b · 5^c up to 3,276. -/
def fftSizeOk (n : Nat) : Bool :=
  (decide (128 ≤ n) && decide (n ≤ 4096) && stripFactor 2 12 n == 1) ||
  (n % 12 == 0 && decide (0 < n) && decide (n ≤ 3276) &&
    stripFactor 5 12 (stripFactor 3 12 (stripFactor 2 12 (n / 12))) == 1)

/-- 2⁹⁶, the scale of the trigonometric values below. -/
def trigOne : Int := 2 ^ 96

/-- π · 2⁹⁶, to nearest. -/
def trigPi : Int := 248902613312231085230521944622

/-- The terms of a Taylor series with the terms x^(2i+k)/(2i+k)! of alternating sign. -/
def taylor (x2 : Int) : Nat → Nat → Int → Int
  | 0, _, _ => 0
  | n + 1, k, term => term + taylor x2 n (k + 2) (-(term * x2 / trigOne) / ((k + 1) * (k + 2)))

/-- cos and sin of 2πk/n, scaled by 2⁹⁶; exact at the multiples of a quarter turn. -/
def twiddle (k n : Nat) : Int × Int :=
  let q := 4 * (k % n) / n
  let r := 4 * (k % n) % n
  let x : Int := trigPi * r / (2 * n)
  let x2 := x * x / trigOne
  let c := if r = 0 then trigOne else taylor x2 30 0 trigOne
  let s := if r = 0 then 0 else taylor x2 30 1 x
  match q with
  | 0 => (c, s) | 1 => (-s, c) | 2 => (-c, -s) | _ => (s, -c)

/-- A value scaled by 2⁹⁶, divided by 2^h and rounded to nearest with ties to even; the last 32 bits,
which the series does not fix, are rounded away first (log 22). -/
def trigRound (h : Nat) (v : Int) : Int :=
  let m := shrRne (shrRne v.natAbs 32) (64 + h)
  if v < 0 then -m else m

/-- Output k of a transform of n points, scaled by 2⁹⁶. -/
def dftAt (inverse : Bool) (n : Nat) (xs : List (Int × Int)) (k : Nat) : Int × Int :=
  (xs.zipIdx).foldl (fun (a : Int × Int) e =>
    let w := twiddle (k * e.2 % n) n
    let wi := if inverse then w.2 else -w.2
    (a.1 + e.1.1 * w.1 - e.1.2 * wi, a.2 + e.1.1 * wi + e.1.2 * w.1)) (0, 0)

/-- R219: the exact transform × 2^(−h), rounded. -/
def dft (inverse : Bool) (h : Nat) (xs : List (Int × Int)) : List (Int × Int) :=
  (List.range xs.length).map (fun k =>
    let acc := dftAt inverse xs.length xs k
    (trigRound h acc.1, trigRound h acc.2))

/-- The radix stages of a transform of n points (R219): radices of 2 to 5 whose product is n.  The spec does not say which an
engine takes, nor their order (log 22). -/
def fftRadices (radices : List (Fin 6)) (n : Nat) : Bool :=
  radices.all (fun r => decide (2 ≤ r.val)) && radices.foldl (fun m r => m * r.val) 1 == n

/-- R219: every output of a stage that has built transforms of m points, at 2^(−h), is a CI16. -/
def stageFits (inverse : Bool) (xs : List (Int × Int)) (m h : Nat) : Bool :=
  let d := xs.length / m
  (List.range d).all (fun r =>
    (dft inverse h ((List.range m).map (fun i => xs.getD (r + d * i) (0, 0)))).all (fun z =>
      !(clampInt (-32768) 32767 z.1).2 && !(clampInt (-32768) 32767 z.2).2))

/-- R219: the halvings of a transform: one for each stage whose output would exceed CI16. -/
def fftHalvings (inverse : Bool) (radices : List (Fin 6)) (xs : List (Int × Int)) : Nat :=
  (radices.foldl (fun (a : Nat × Nat) r =>
    let m := a.1 * r.val
    (m, if stageFits inverse xs m a.2 then a.2 else a.2 + 1)) (1, 0)).2

/-! ### Decibels -/

/-- k · log10(a ÷ b) rounded to nearest, for a above 0: the greatest p with b^2k · 10^(2p − 1) ≤ a^2k, found bit by bit
among the 2^n values from lo on. -/
def logRound (k : Nat) (lo : Int) (n a b : Nat) : Int :=
  let fits (p : Int) : Bool :=
    decide (b ^ (2 * k) * 10 ^ (2 * p - 1).toNat ≤ a ^ (2 * k) * 10 ^ (1 - 2 * p).toNat)
  (List.range n).foldl (fun p i => if fits (p + 2 ^ (n - 1 - i)) then p + 2 ^ (n - 1 - i) else p) lo

/-- R213: round(40 · log10(mean ÷ 2³⁰)) of a mean power sum ÷ n; −480 if it is 0. -/
def powerDb (sum n : Nat) : Int := if sum = 0 then -480 else logRound 40 (-640) 10 sum (n * 2 ^ 30)

/-! ### The PRACH detector (R216 to R218) -/

/-- A preamble format: whether it is long (L = 839), its repetitions, and its subcarrier spacing in Hz at μ = 0. -/
structure PrachFormat where
  long : Bool
  reps : Nat
  scs : Nat
  deriving DecidableEq, Repr

/-- R216: the formats the detector supports, 0 to 3 and then A1, A2, A3, B1, B2, B3, B4, C0 and C2.  PRESUMED (log 18): the
repetitions of every format but B4, and the spacings, are those of 3GPP TS 38.211. -/
def PrachFormat.ofCode (c : Nat) : Option PrachFormat :=
  match c with
  | 0 => some ⟨true, 1, 1250⟩ | 1 => some ⟨true, 2, 1250⟩ | 2 => some ⟨true, 4, 1250⟩ | 3 => some ⟨true, 4, 5000⟩
  | 4 => some ⟨false, 2, 15000⟩ | 5 => some ⟨false, 4, 15000⟩ | 6 => some ⟨false, 6, 15000⟩
  | 7 => some ⟨false, 2, 15000⟩ | 8 => some ⟨false, 4, 15000⟩ | 9 => some ⟨false, 6, 15000⟩
  | 10 => some ⟨false, 12, 15000⟩ | 11 => some ⟨false, 1, 15000⟩ | 12 => some ⟨false, 4, 15000⟩
  | _ => none

/-- R216: L. -/
def PrachFormat.len (f : PrachFormat) : Nat := if f.long then 839 else 139

/-- R216: points of the inverse FFT. -/
def PrachFormat.points (f : PrachFormat) : Nat := if f.long then 1024 else 256

/-- R218: what one repetition on one stream counts. -/
def PrachFormat.weight (f : PrachFormat) : Nat := if f.long then 6 else 1

/-- Root sequence u of length L, scaled by 2⁹⁶.  PRESUMED (log 18): that of 3GPP TS 38.211. -/
def prachRoot (u len : Nat) : List (Int × Int) :=
  (List.range len).map (fun i => let w := twiddle (u * (i * (i + 1) / 2) % len) len; (w.1, -w.2))

/-- R216, steps 1 and 2: a repetition's samples times the conjugate of a root sequence in the frequency domain, after the
inverse FFT: |·|² of each point. -/
def prachCorr (f : PrachFormat) (root : List (Int × Int)) (xs : List (Int × Int)) : List Nat :=
  let ys := (List.range f.len).map (fun k => let z := dftAt false f.len root k; (z.1 / trigOne, z.2 / trigOne))
  let ps := (xs.zip ys).map (fun p => (p.1.1 * p.2.1 + p.1.2 * p.2.2, p.1.2 * p.2.1 - p.1.1 * p.2.2))
  (List.range f.points).map (fun t =>
    let z := dftAt true f.points ps t
    (z.1 / trigOne).natAbs ^ 2 + (z.2 / trigOne).natAbs ^ 2)

/-- Lists added point by point. -/
def addLists (n : Nat) (xss : List (List Nat)) : List Nat :=
  (List.range n).map (fun t => (xss.map (fun xs => xs.getD t 0)).sum)

/-- R216, step 3: |·|² summed over repetitions and streams, each referred to its samples before gain F (R217), scaled by
2²²⁰. -/
def prachSum (f : PrachFormat) (u : Nat) (reps : List (Nat × List (Int × Int))) : List Nat :=
  let root := prachRoot u f.len
  addLists f.points (reps.map (fun r => (prachCorr f root r.2).map (fun e => e * 2 ^ 56 / (r.1 * r.1))))

/-- The points of a window of n points from first on, modulo the points of the transform. -/
def windowPoints (f : PrachFormat) (first n : Nat) : List Nat := (List.range n).map (fun k => (first + k) % f.points)

/-- The place and the value of the greatest element. -/
def peakOf (xs : List Nat) : Nat × Nat :=
  (xs.zipIdx).foldl (fun b x => if b.2 < x.1 then (x.2, x.1) else b) (0, 0)

/-- R216, steps 4 and 5, and R217: preamble v of an occasion, where the peak of its window exceeds the mean outside every
window of its root by THRESH.  Where no point lies outside, the floor is the free value given.  DESIGN CHOICE (log 18): the
timing advance is rounded to nearest. -/
def prachPreamble (f : PrachFormat) (code : Nat) (restricted : Bool) (root zcz thresh mu streams : Nat)
    (reps : List (Nat × List (Int × Int))) (noFloor : Nat) (v : Fin 64) : Option PrachDet :=
  let win (k : Nat) := Config.prachWindow code restricted root zcz k
  let w : Nat × Nat × Nat := win v.val
  let es := prachSum f w.1 reps
  let inside := (((List.range 64).map win).filter (fun x => x.1 == w.1)).flatMap (fun x => windowPoints f x.2.1 x.2.2)
  let outside := (List.range f.points).filter (fun t => !inside.contains t)
  let floor : Nat := if outside.isEmpty then noFloor else (outside.map (fun t => es.getD t 0)).sum
  let n : Nat := max 1 outside.length
  let pk : Nat × Nat := peakOf ((windowPoints f w.2.1 w.2.2).map (fun t => es.getD t 0))
  let level : Nat := floor ^ 40 * 10 ^ thresh
  let top : Nat := (pk.2 * n) ^ 40
  if level < top then
    let at_ := w.2.1 + pk.1
    let e := es.getD ((at_ + f.points - 1) % f.points) 0 + pk.2 + es.getD ((at_ + 1) % f.points) 0
    let unit := f.len * f.reps * streams * Config.prachUnit f.points * 2 ^ 220
    let den := f.points * (if f.long then f.scs else f.scs * 2 ^ mu)
    let ta := (2 * pk.1 * 1920000 * 2 ^ mu + den) / (2 * den)
    some { preamble := v, ta := ⟨min ta 3846, by omega⟩
           power := if e = 0 then -32768 else (clampInt (-32768) 0 (logRound 100 (-32768) 16 e unit)).1 }
  else none

end Sys2Proof.Machine
end

