-- ==== Sys2Proof/Machine/Radio.lean ====
section
/-! DEFINITION.  Chapter 10: fronthaul reception, gain loops, PRACH, FFT engines, slots, and cell
plans. -/

namespace Sys2Proof.Machine

/-! ### Cell plans (R234 to R240) -/

/-- R228: a timing field; 0 selects the default. -/
def orDefault (v d : Nat) : Nat := if v = 0 then d else v

/-- R236: a cell entry's fields; the Bool says that its reserved fields are 0. -/
def Cell.parse (bs : List Byte) : Cell × Bool :=
  let f (a n : Nat) : Nat := fieldAt bs a n
  let port := f 3 1
  let pr := f 26 2
  ({ cell := f 0 2 % 512, config := f 2 1, port := port % 8
     sub := if bitOf port 5 then some (bitsOf port 4 3) else none
     prbs := f 4 2, vlan := f 6 2 % 4096, prio := bitsOf (f 6 2) 15 13
     eaxcDl := f 8 2, eaxcUl := f 10 2, eaxcPrach := f 12 2
     iqwDl := f 14 1 % 16, iqwUl := f 14 1 / 16, nrx := f 15 1
     tdd := f 16 8, period := f 24 1, split := f 25 1
     prachCfg := pr % 256, restricted := bitOf pr 8, prachStreams := bitsOf pr 10 9 + 1
     root := f 28 2 % 1024, thresh := f 30 1, zcz := f 31 1 % 16, freeze := f 32 2
     nrxDline := f 34 2, t1aCpDl := f 36 2, t1aCpUl := f 38 2, t1aMaxUp := f 40 2
     t1aMinUp := f 42 2, ta4Min := f 44 2, ta4Max := f 46 2 },
   bitsOf (f 0 2) 15 9 == 0 && bitsOf port 7 6 == 0 && !bitOf (f 6 2) 12 &&
     bitsOf pr 15 11 == 0 && bitsOf (f 28 2) 15 10 == 0 && bitsOf (f 31 1) 7 4 == 0 &&
     f 48 16 == 0)

def Cell.ta4MinUs (c : Cell) : Nat := c.ta4Min
def Cell.ta4MaxUs (c : Cell) : Nat := orDefault c.ta4Max 150
def Cell.maxUpUs (c : Cell) : Nat := orDefault c.t1aMaxUp 345
def Cell.minUpUs (c : Cell) : Nat := orDefault c.t1aMinUp 150
def Cell.nrxUs (c : Cell) : Nat := orDefault c.nrxDline 90

/-- R226, R227: lead of a slot configuration, µs. -/
def Cell.leadUs (c : Cell) : Nat := if c.mu = 0 then 2000 else 1000

/-- R234: units of a cell, in hundredths. -/
def Cell.units (c : Cell) : Nat := ceilDiv (c.conf.units * c.prbs) c.conf.prbMax

/-- R236: the direction of a slot by TDD_MAP: 0 downlink, 1 uplink, 2 special; FDD slots are both. -/
def Cell.slotKind (c : Cell) (n : Nat) : Option Nat :=
  if c.period = 0 then none else some (bitsOf c.tdd (2 * (n % c.period) + 1) (2 * (n % c.period)))

/-- R216, R236: the preamble format of a cell's prach-ConfigurationIndex and its occasions in 160 ms; none where the detector
does not support it. -/
def Cell.prach (c : Cell) : Option (PrachFormat × Nat) :=
  match Config.prachConfig c.mu (c.period == 0) c.prachCfg with
  | some (k, n) => (PrachFormat.ofCode k).map (fun f => (f, n))
  | none => none

/-- R218: short-sequence repetition-streams of a cell in 160 ms. -/
def Cell.prachLoad (c : Cell) : Nat :=
  match c.prach with
  | some (f, n) => n * f.reps * f.weight * c.prachStreams
  | none => 0

/-- R237: code BAD_CONFIG. -/
def State.badCell (s : State) (c : Cell) : Bool :=
  match CellConfig.ofCode c.config with
  | none => true
  | some k =>
    let out (v lo hi : Nat) : Bool := decide (v < lo) || decide (hi < v)
    (c.nrx != 0 && !s.fh.nrxKnown.contains c.nrx) ||
    out c.prbs 1 k.prbMax || out c.iqwDl 8 14 || out c.iqwUl 8 14 ||
    decide (32 < c.period) || decide (14 < c.split % 16 + c.split / 16) || decide (1023 < c.freeze) ||
    (List.range c.period).any (fun i => bitsOf c.tdd (2 * i + 1) (2 * i) == 3) ||
    out c.nrxUs 60 200 || out (orDefault c.t1aCpDl 470) 100 900 || out (orDefault c.t1aCpUl 470) 100 900 ||
    out c.maxUpUs 50 600 || out c.minUpUs 20 (c.maxUpUs - 20) ||
    out c.ta4MaxUs 20 400 || decide (c.ta4MaxUs < c.ta4MinUs) ||
    c.prach.isNone

/-- R238: capacity, in hundredths of a unit. -/
def State.radioCap (s : State) : Nat :=
  let whole (i : Nat) : Bool := (s.isl i).st != .failedShort
  let dc := ((List.range 6).filter (fun c => whole (476 + c))).length
  let fc := ((List.range 4).filter (fun c => whole (482 + c))).length
  min (32000 * dc / 6) (8000 * fc)

/-- Units of the cells of a plan that run. -/
def Plan.units (p : Plan) (stopped : List Nat) : Nat :=
  ((p.cells.filter (fun c => !stopped.contains c.cell)).map Cell.units).sum

/-- R238: the radio floor of a plan, W. -/
def Plan.floor (p : Plan) (stopped : List Nat) : Nat := ceilDiv (36000 + 7 * p.units stopped) 1000

/-- R4, R238, R239: the radio floor in force, W. -/
def State.radioFloor (s : State) : Nat :=
  max ((s.fh.active.map (fun p => p.floor s.fh.stopped)).getD 0) ((s.fh.next.map (fun p => p.floor [])).getD 0)

/-- The interface of a cell: port, and sub-port where it has one. -/
def Cell.iface (c : Cell) : Nat := 8 * c.port + (match c.sub with | some k => k + 1 | none => 0)

/-- R208, R234: the receive streams of a cell, PRACH streams last, by eAxC. -/
def Cell.rxIds (c : Cell) : List Nat :=
  (List.range c.conf.rx).map (fun i => (c.eaxcUl + i) % 2 ^ 16) ++
  (List.range c.prachStreams).map (fun i => (c.eaxcPrach + i) % 2 ^ 16)

/-- R208: the transmit streams of a cell, by eAxC. -/
def Cell.txIds (c : Cell) : List Nat := (List.range c.conf.tx).map (fun i => (c.eaxcDl + i) % 2 ^ 16)

/-- No value occurs twice. -/
def allDistinct [DecidableEq α] : List α → Bool
  | [] => true
  | x :: xs => !xs.contains x && allDistinct xs

/-- R237: fronthaul of an interface in hundredths of Gb/s, times 273 · 106. -/
def ifaceLoad (cells : List Cell) (i : Nat) : Nat :=
  ((cells.filter (fun c => c.iface == i)).map
    (fun c => c.conf.rate * c.prbs * (273 * 106 / c.conf.prbMax))).sum

/-- R237: the checks of a plan's cells, in order, UNITS against a sum of units; 0 where every one passes. -/
def State.checkCells (s : State) (cells : List Cell) (sum : Nat) : Nat :=
  let ids (f : Cell → List Nat) : List (Nat × Nat × Nat) :=
    cells.flatMap (fun c => (f c).map (fun e => (c.iface, c.vlan, e)))
  let units := (cells.map Cell.units).sum
  let split (c : Cell) : Bool := s.regBit (fhBlock + 0x020 + 4 * c.port) 1
  let load := (cells.map Cell.prachLoad).sum
  if cells.any s.badCell then 2
  else if cells.any (fun c => (split c != c.sub.isSome) ||
      (s.isl (486 + c.port / 2)).st == .failedShort ||
      decide ((if c.sub.isSome then 9000 else 36000) * (273 * 106) < ifaceLoad cells c.iface)) then 3
  else if 2048 < (ids Cell.txIds).length ∨ 2048 < (ids Cell.rxIds).length ∨
      !allDistinct (ids Cell.txIds ++ ids Cell.rxIds) then 4
  else if 6144 * 160 < load then 5
  else if s.radioCap < sum then 6
  else if !s.cfg.radio ∨ s.cfg.planCells < cells.length ∨ s.cfg.planUnits < units ∨
      cells.any (fun c => !bitOf s.cfg.planCodes c.config) then 7
  else 0

/-- R237: every check of a plan that LOAD names. -/
def State.checkPlan (s : State) (cells : List Cell) (tAct : Nat) : Nat :=
  let code := s.checkCells cells (cells.map Cell.units).sum
  if code ≠ 0 then code
  else if !s.isFrame tAct ∨ (tAct : Int) < s.T + 100000000 then 8
  else if s.fh.next.isSome then 9
  else 0

/-- R235: a plan record read from device memory; none where it is a BAD_RECORD. -/
def State.readPlan (s : State) (a : Nat) : Option Plan :=
  let n := s.loadNat (a + 6) 2
  if s.loadNat a 4 ≠ 0x4E414C50 ∨ s.loadNat (a + 4) 2 ≠ 1 ∨ n = 0 ∨ 512 < n ∨
      s.loadNat (a + 16) 4 ≠ 64 + 64 * n ∨ s.loadNat (a + 20) 44 ≠ 0 then none
  else
    let cs := (List.range n).map (fun i => Cell.parse (s.load (a + 64 + 64 * i) 64))
    if cs.all (·.2) && allDistinct (cs.map (·.1.cell)) then
      some { tAct := s.loadNat (a + 8) 8, cells := cs.map (·.1) }
    else none

/-- R191: every descriptor of the RD contexts ends ABORTED and the contexts go; the prefills whose descriptors they held are placed
again on prompt dies, from their start. -/
def State.abortRd (s : State) : State :=
  let cs := (s.sh.ctx.filter (fun e => e.1 / 8 == Die.rd.index)).map (·.2)
  let t := (List.range 4).foldl (fun s c => s.abortCtx .rd (ctxKey .rd c)) s
  (t.hm.prefills.filter (fun i => cs.any (fun c => c.vf == (t.manOf i).fn && c.slot == (t.manOf i).slot))).foldl
    State.placeAgain t

/-- R237, R239: FH_PLAN_CMD LOAD, written by the PF: the record is read and checked; an accepted plan
aborts the RD contexts and waits for its T_ACT.  R340: the result is a management event. -/
def execFhPlanLoad (m : Agent) (s : State) : Out :=
  let a := s.reg64 (fhBlock + 0x004) (fhBlock + 0x008)
  let t := match s.readPlan a with
    | none => { s with fh := { s.fh with result := 1 } }
    | some p =>
      let code := s.checkPlan p.cells p.tAct
      if code = 0 then
        let u := s.abortRd.startClock .rdc
        { u with fh := { u.fh with next := some p, result := 0, shedCount := 0 } }
      else { s with fh := { s.fh with result := code } }
  agentIf m (s.isPf m && s.dieOn .rd) s t.mgmtEvent

/-- R239: FH_PLAN_CMD UNLOAD: its T_ACT is the frame boundary at or after 100 ms from now.  DEDUCED
(log 19): with no plan active it does nothing. -/
def execFhPlanUnload (m : Agent) (s : State) : Out :=
  agentIf m (s.isPf m && s.dieOn .rd && s.fh.active.isSome) s
    ({ s with fh := { s.fh with unload := some (s.frameAt (s.T + 100000000)).toNat } }).mgmtEvent

/-- R239: FH_PLAN_CMD CANCEL withdraws an accepted plan before its T_ACT. -/
def execFhPlanCancel (m : Agent) (s : State) : Out :=
  agentIf m (s.isPf m && s.dieOn .rd && s.fh.next.isSome) s
    ({ s with fh := { s.fh with next := none } }).mgmtEvent

/-- Receive streams of a plan in the order of its cells: cell and eAxC (log 20). -/
def Plan.rxStreams (p : Plan) : List (Cell × Nat) := p.cells.flatMap (fun c => c.rxIds.map (fun e => (c, e)))

/-- The number of the receive stream context of an interface, VLAN and eAxC (R208). -/
def Plan.rxFind (p : Plan) (iface vlan eaxc : Nat) : Option Nat :=
  p.rxStreams.findIdx? (fun x => x.1.iface == iface && x.1.vlan == vlan && x.2 == eaxc)

/-- Transmit streams of a plan in the order of its cells (log 20). -/
def Plan.txStreams (p : Plan) : List (Cell × Nat) := p.cells.flatMap (fun c => c.txIds.map (fun e => (c, e)))

/-- The number of the transmit stream context of an interface, VLAN and eAxC (R208). -/
def Plan.txFind (p : Plan) (iface vlan eaxc : Nat) : Option Nat :=
  p.txStreams.findIdx? (fun x => x.1.iface == iface && x.1.vlan == vlan && x.2 == eaxc)

/-- R429: the armed cells, which run beside those of the active plan. -/
def State.armedCells (s : State) : List Cell :=
  match s.fh.active with
  | some p => p.cells.filter (fun c => s.muted c.cell)
  | none => []

/-- The cells that run become those of p: the receive streams of cells with identical entries go on, every other one
starts afresh (R239). -/
def State.usePlan (s : State) (p : Plan) : State :=
  let old := s.fh.active
  let kept (c : Cell) : Bool := match old with
    | some q => q.cells.contains c && !s.fh.stopped.contains c.cell
    | none => false
  let carry {α : Type} (d : α) (t : Table α) (x : Cell × Nat) (find : Plan → Nat → Nat → Nat → Option Nat) : α :=
    match old with
    | some q => if kept x.1 then
        match find q x.1.iface x.1.vlan x.2 with
        | some i => tget d t i
        | none => d
      else d
    | none => d
  let rx := p.rxStreams.map (fun x => carry {} s.fh.rx x Plan.rxFind)
  let tx := p.txStreams.map (fun x => carry 0 s.fh.txSeq x Plan.txFind)
  { s with
    fh := { s.fh with
      active := if p.cells = [] then none else some p
      rx := (rx.zipIdx).foldl (fun t e => tset {} t e.2 e.1) []
      txSeq := (tx.zipIdx).foldl (fun t e => tset 0 t e.2 e.1) []
      freeze := tdrop (fun c => !(p.cells.any (fun x => x.cell == c && kept x))) s.fh.freeze } }

/-- R239: at T_ACT the new plan takes the old one's place; armed cells stay (R429), but for one whose index the plan uses. -/
def State.activatePlan (s : State) (p : Plan) : State :=
  let armed := s.armedCells.filter (fun c => p.cells.all (fun x => x.cell != c.cell))
  let t := s.usePlan { p with cells := p.cells ++ armed }
  { t with fh := { t.fh with
    stby := t.fh.stby.map (fun (e : Nat × Standby) =>
      (e.1, { e.2 with muted := e.2.muted.filter (fun c => p.cells.all (fun x => x.cell != c)) }))
    next := none
    stopped := t.fh.stopped.filter (fun c => armed.any (fun x => x.cell == c)) } }

/-- R239: UNLOAD at its T_ACT: no cell but the armed ones runs any more. -/
def State.endPlan (s : State) : State :=
  let armed := s.armedCells
  let t := s.usePlan { tAct := 0, cells := armed }
  { t with fh := { t.fh with
    unload := none
    stopped := t.fh.stopped.filter (fun c => armed.any (fun x => x.cell == c)) } }

/-- R240: the cells to shed: those on ports of a failed pair, then descending cell index until the rest
fit CAP. -/
def shedCells (cap : Nat) : List Cell → Nat → List Nat
  | [], _ => []
  | c :: cs, units => if cap < units then c.cell :: shedCells cap cs (units - c.units) else []

def State.toShed (s : State) (p : Plan) : List Nat :=
  let run := p.cells.filter (fun c => !s.fh.stopped.contains c.cell)
  let dead := run.filter (fun c => (s.isl (486 + c.port / 2)).st == .failedShort)
  let rest := (run.filter (fun c => !dead.contains c)).mergeSort (fun a b => decide (b.cell ≤ a.cell))
  dead.map (·.cell) ++ shedCells s.radioCap rest ((rest.map Cell.units).sum)

/-- The start of the first slot of numerology μ after T. -/
def State.slotAfter (s : State) (mu : Nat) : Int :=
  let n : Int := slotNs mu
  let o := gps0 + s.frameOfs
  o + (((s.T : Int) - o) / n + 1) * n

/-- R240: the cells shed after a loss of capacity stop at their next slot boundary, the earliest of which the command is; they
are counted, and the PF is interrupted. -/
def execCellShed (s : State) : Out :=
  match s.fh.active with
  | none => .next s
  | some p =>
    let v := p.cells.filter (fun c => (s.toShed p).contains c.cell)
    match v with
    | [] => .next s
    | c :: cs =>
      let due := cs.foldl (fun b x => min b (s.slotAfter x.mu)) (s.slotAfter c.mu)
      let t := s.reachNs due
      let now := v.filter (fun x => s.slotAfter x.mu == due)
      onlyIf (t.pastNs due) s
        (({ t with fh := { t.fh with
            stopped := t.fh.stopped ++ now.map Cell.cell
            shedCount := min 255 (t.fh.shedCount + now.length) } }).hiErr 6)

/-! ### Fronthaul reception (R206 to R210) -/

/-- R207: the port runs: its pair island is ON and FH_PORT_CFG enables it. -/
def State.portUp (s : State) (p : Nat) : Bool := s.islOn (486 + p / 2) && s.regBit (fhBlock + 0x020 + 4 * p) 0

/-- The interface number of a frame's port and sub-port. -/
def ifaceOf (p : Fin 8) (sub : Option (Fin 4)) : Nat :=
  8 * p.val + (match sub with | some k => k.val + 1 | none => 0)

/-- The range lies in RD SRAM. -/
def inRd (a n : Nat) : Bool := decide (sramBase .rd ≤ a) && decide (a + n ≤ sramBase .rd + sramSpan .rd)

/-- TD_PTP_PORT index of a port: q = 4p + s (R285). -/
def portQ (p : Fin 8) (sub : Option (Fin 4)) : Nat := 4 * p.val + (match sub with | some k => k.val | none => 0)

/-- R272: C of a receive timestamp, corrected by TD_PORT_LAT ingress (1/16 ns). -/
def State.rxTime (s : State) (q r : Nat) : Int :=
  (s.cAt r : Int) - bitsOf (s.regN (tdBlock + 0x480 + 4 * q)) 15 0 * 2 ^ 12

/-- R240: a cell of the active plan runs: it has not stopped, and its port pair has not failed. -/
def State.cellUp (s : State) (c : Cell) : Bool :=
  !s.fh.stopped.contains c.cell && (s.isl (486 + c.port / 2)).st != .failedShort

/-- The cells of the active plan that run. -/
def State.runCells (s : State) : List Cell :=
  match s.fh.active with
  | some p => p.cells.filter s.cellUp
  | none => []

/-- The stream of a frame in the active plan, by number, and its cell, where the cell runs. -/
def State.streamMatch (s : State) (find : Plan → Nat → Nat → Nat → Option Nat) (all : Plan → List (Cell × Nat))
    (iface vlan eaxc : Nat) : Option (Nat × Cell) :=
  match s.fh.active with
  | none => none
  | some p =>
    match find p iface vlan eaxc with
    | none => none
    | some i =>
      match (all p)[i]? with
      | some x => if s.cellUp x.1 then some (i, x.1) else none
      | none => none

/-- R208: the receive stream of a frame. -/
def State.rxMatch (s : State) (iface vlan eaxc : Nat) : Option (Nat × Cell) :=
  s.streamMatch Plan.rxFind Plan.rxStreams iface vlan eaxc

/-- R208: the transmit stream of a frame. -/
def State.txMatch (s : State) (iface vlan eaxc : Nat) : Option (Nat × Cell) :=
  s.streamMatch Plan.txFind Plan.txStreams iface vlan eaxc

/-- R208: a gap in a stream's eCPRI sequence identifiers is counted. -/
def State.seqCheck (s : State) (i : Nat) (seq : BitVec 8) : State :=
  let x := tget {} s.fh.rx i
  let gap := match x.seq with
    | some q => (q + 1) % 256 != seq.toNat
    | none => false
  let t := { s with fh := { s.fh with rx := tset {} s.fh.rx i { x with seq := some seq.toNat } } }
  if gap then t.count (fhBlock + 0x110) 1 else t

/-- R208: the same of a transmit stream. -/
def State.txSeqCheck (s : State) (i : Nat) (seq : BitVec 8) : State :=
  let q := tget 0 s.fh.txSeq i
  let t := { s with fh := { s.fh with txSeq := tset 0 s.fh.txSeq i (seq.toNat + 1) } }
  if q ≠ 0 ∧ q % 256 ≠ seq.toNat then t.count (fhBlock + 0x110) 1 else t

/-- R206: the transport and the eCPRI message type are supported. -/
def FhHdr.supported (h : FhHdr) (typ : Nat) : Bool :=
  h.transport == .ethernet && h.tagged && decide (h.len ≤ 9216) && h.typ.toNat == typ

/-- R206: the C-plane sections are supported: type 1, or type 3 with a PRACH or NR subcarrier spacing. -/
def FhSection.supported (x : FhSection) : Bool :=
  x.typ == 1 || (x.typ == 3 && [1250, 5000, 15000, 30000].contains x.scs)

/-- R206: the U-plane compression is supported; a section that carries udCompHdr names its iqWidth. -/
def FhComp.supported (x : FhComp) (width : Option (Fin 17)) : Bool :=
  x == .blockFloat && match width with
    | .some w => decide (8 ≤ w.val) && decide (w.val ≤ 14)
    | .none => true

/-- R208: a received C-plane frame is matched, or dropped and counted; unsupported options, a section
extension among them, do not match (R206). -/
def execFhCplaneRx (port : Fin 8) (sub : Option (Fin 4)) (h : FhHdr) (eaxc : BitVec 16) (sec : FhSection) (ext : Bool)
    (s : State) : Out :=
  unlessHalted s .radio <|
  let o := ifaceOf port sub
  onlyIf (s.portUp port) s
    (if !(h.supported 2 && sec.supported && !ext) then s.count (fhBlock + 0x100) 1
     else match s.rxMatch o h.vlan.toNat eaxc.toNat with
      | some (i, _) => s.seqCheck i h.seq
      | none => match s.txMatch o h.vlan.toNat eaxc.toNat with
        | some (i, _) => s.txSeqCheck i h.seq
        | none => s.count (fhBlock + 0x100) 1)

/-- R212: F[G] = round(2¹⁴ · 10^(G/80)): the greatest n with (2n − 1)^80 ≤ 2^80 · 2^(14·80) · 10^G, found
bit by bit. -/
def gainFactor (g : Int) : Nat :=
  let fits (n : Nat) : Bool :=
    decide ((2 * n - 1) ^ 80 * 10 ^ (-g).toNat ≤ 2 ^ (15 * 80) * 10 ^ g.toNat)
  (List.range 20).foldl (fun n i => if fits (n + 2 ^ (19 - i)) then n + 2 ^ (19 - i) else n) 0

/-- R210: a mantissa times 2^e, saturated to CI16. -/
def bfpExpand (e : Nat) (m : Int) : Int × Bool := clampInt (-32768) 32767 (m * 2 ^ e)

/-- A component divided by 2^e and rounded to nearest with ties to even. -/
def rneShift (e : Nat) (x : Int) : Int := if x < 0 then -(shrRne x.natAbs e : Int) else shrRne x.natAbs e

/-- R211: every component of the PRB, divided by 2^e and rounded, lies within w bits. -/
def bfpFits (w : Nat) (xs : List Int) (e : Nat) : Bool :=
  xs.all (fun x => decide (-(2 ^ (w - 1) : Int) ≤ rneShift e x) && decide (rneShift e x ≤ 2 ^ (w - 1) - 1))

/-- R211: downlink compression of a PRB's 24 components: the least exponent from 0 to 15 that fits, and the mantissas. -/
def bfpCompress (w : Nat) (xs : List Int) : Nat × List Int :=
  let e := ((List.range 16).find? (bfpFits w xs)).getD 15
  (e, xs.map (rneShift e))

/-- R211: a compressed PRB as the frame carries it.  PRESUMED (log 68): the exponent byte, then the mantissas in order,
each most significant bit first. -/
def bfpPack (w : Nat) (p : Nat × List Int) : List Byte :=
  let bits := p.2.foldl (fun acc m => acc * 2 ^ w + toBits w m) 0
  let n := ceilDiv (w * p.2.length) 8
  let v := bits * 2 ^ (8 * n - w * p.2.length)
  leBytes 1 p.1 ++ (leBytes n v).reverse

/-- The 24 components of a PRB in a sample buffer. -/
def State.prbSamples (s : State) (a : Nat) : List Int :=
  (List.range 12).flatMap (fun k => let z := ci16 (s.loadNat (a + 4 * k) 4); [z.1, z.2])

/-- R211: the compressed PRBs of a downlink U-plane frame. -/
def State.uplaneBody (s : State) (w buf start n : Nat) : List Byte :=
  (List.range n).flatMap (fun k => bfpPack w (bfpCompress w (s.prbSamples (buf + 48 * (start + k)))))

/-- R212: a component after gain, saturated to ±32,767. -/
def gainApply (f : Nat) (x : Int) : Int × Bool :=
  let p := x * f
  clampInt (-32767) 32767 (if p < 0 then -(shrRne p.natAbs 14 : Int) else shrRne p.natAbs 14)

/-- R210, R212: one PRB of w-bit mantissas expanded and scaled: its 24 components, how many saturated in the expansion, and
whether any saturated at all. -/
def prbValues (w f : Nat) (p : PrbData) : List Int × Nat × Bool :=
  let xs := p.m.map (fun m => bfpExpand p.exp.val (ofBits w (toBits w m)))
  let ys := xs.map (fun x => gainApply f x.1)
  (ys.map (·.1), (xs.filter (·.2)).length, xs.any (·.2) || ys.any (·.2))

/-- R209: symbol k's acceptance window: 0 inside, 1 early, 2 late. -/
def windowOf (c : Cell) (tsym : Int) (arr : Int) : Nat :=
  if arr * 3072 < (tsym + fine (c.ta4MinUs * 1000)) * 2 ^ 16 then 1
  else if (tsym + fine (c.ta4MaxUs * 1000)) * 2 ^ 16 < arr * 3072 then 2
  else 0

/-- The open symbol of a stream, or a new one with the stream's present gain. -/
def RxStream.symOf (x : RxStream) (frame slot sym : Nat) : RxSym :=
  (x.syms.find? (fun y => y.frame == frame && y.slot == slot && y.sym == sym)).getD
    { frame := frame, slot := slot, sym := sym, g := x.gain }

def RxStream.putSym (x : RxStream) (y : RxSym) : RxStream :=
  { x with syms := x.syms.filter (fun z => !(z.frame == y.frame && z.slot == y.slot && z.sym == y.sym)) ++ [y] }

/-- R226, R227: when a slot's configuration is due, T_n less its lead, ns. -/
def State.configDue (s : State) (c : Cell) (frame slot : Nat) : Int :=
  s.frameStart frame + slot * slotNs c.mu - c.leadUs * 1000

/-- R229: the slot has no configuration of the direction in time: it came late, or is overdue. -/
def State.slotOff (s : State) (c : Cell) (frame slot : Nat) (up : Bool) : Bool :=
  match s.noteOf c.cell frame slot up with
  | some n => n.late
  | none => s.pastNs (s.configDue c frame slot)

/-- R209, R210, R212: an uplink U-plane packet: matched, checked against its window and against PRBs
already received, expanded, scaled and placed; buf is the symbol's sample buffer in RD SRAM (log 21).  R229: the packets of
a slot without its configuration are not processed. -/
def execFhUplaneRx (port : Fin 8) (sub : Option (Fin 4)) (h : FhHdr) (eaxc : BitVec 16) (comp : FhComp)
    (width : Option (Fin 17)) (frame : Nat) (slot : Fin 20) (sym : Fin 14) (arrival : Nat) (startPrb : Fin 273) (prbs : List PrbData) (buf : PAddr) (s : State) : Out :=
  unlessHalted s .radio <|
  let s0 := s.reachRaw (arrival / 64)
  let o := ifaceOf port sub
  onlyIf (s.portUp port) s
    (if !(h.supported 0 && comp.supported width) then s0.count (fhBlock + 0x100) 1
     else match s.rxMatch o h.vlan.toNat eaxc.toNat with
      | none => match s.txMatch o h.vlan.toNat eaxc.toNat with
        | some (i, _) => s0.txSeqCheck i h.seq
        | none => s0.count (fhBlock + 0x100) 1
      | some (i, c) =>
        let s1 := s0.seqCheck i h.seq
        let x := tget {} s1.fh.rx i
        let y := x.symOf frame slot sym
        let ids := (List.range prbs.length).map (startPrb.val + ·)
        match windowOf c (s1.tSym c.mu frame slot sym) (s1.rxTime (portQ port sub) arrival) with
        | 1 => s1.count (fhBlock + 0x104) 1
        | 2 => s1.count (fhBlock + 0x108) 1
        | _ =>
          if s1.slotOff c frame slot true then s1
          else if ids.any (fun p => y.prbs.contains p) then s1.count (fhBlock + 0x10C) 1
          else
            let w := match width with
              | some w => w.val
              | none => c.iqwUl
            let vs := prbs.map (prbValues w (gainFactor y.g))
            let comps := vs.flatMap (·.1)
            let y := { y with
              prbs := y.prbs ++ ids
              clipped := y.clipped || vs.any (·.2.2)
              power := y.power + (comps.map (fun v => v.natAbs * v.natAbs)).sum
              count := y.count + comps.length / 2 }
            let s2 := s1.store (buf.toNat + 48 * startPrb.val) (comps.flatMap (fun v => leBytes 2 (toBits 16 v)))
            let s3 := s2.count (fhBlock + 0x118) ((vs.map (·.2.1)).sum)
            { s3 with fh := { s3.fh with rx := tset {} s3.fh.rx i (x.putSym y) } })

/-- R214: byte 2 of a side record. -/
def sideFlags (y : RxSym) (frozen : Bool) : Nat := b2n y.clipped + 2 * b2n (!y.erased.isEmpty) + 4 * b2n frozen

/-- R209: the window closes: PRBs of a scheduled symbol with no accepted packet are marked as erased and read as zero; a side
record already written shows it (R214). -/
def execFhRxWindowClose (i : Fin 2048) (frame : Nat) (slot : Fin 20) (sym : Fin 14) (buf : PAddr)
    (s : State) : Out :=
  unlessHalted s .radio <|
  match s.fh.active with
  | none => .next s
  | some p =>
    match p.rxStreams[i.val]? with
    | none => .next s
    | some e =>
      let c := e.1
      let close := s.tSym c.mu frame slot sym + fine (c.ta4MaxUs * 1000)
      let s0 := s.reachC (cOfFine close)
      let x := tget {} s.fh.rx i.val
      let y := x.symOf frame slot sym
      let miss := (List.range c.prbs).filter (fun p => !y.prbs.contains p)
      let s1 := miss.foldl (fun t p => t.store (buf.toNat + 48 * p) (leBytes 48 0)) s0
      let s2 := match y.side with
        | some a => if miss.isEmpty then s1
          else s1.storeNat (a + 2) 1 ((s1.loadNat (a + 2) 1) ||| 2)
        | none => s1
      let z := if miss.isEmpty then x else x.putSym { y with erased := miss }
      onlyIf (s.cellUp c && cPast s0.now close && !s0.slotOff c frame slot true) s
        { s2 with fh := { s2.fh with rx := tset {} s2.fh.rx i.val z } }

/-- R209: a resource element of a cell is erased: on one of its receive streams, PRACH aside, its PRB is.  DEDUCED (log 153). -/
def State.reErased (s : State) (c : Cell) (frame slot sym prb : Nat) : Bool :=
  match s.fh.active with
  | none => false
  | some p =>
    (List.range c.conf.rx).any (fun k =>
      match p.rxFind c.iface c.vlan ((c.eaxcUl + k) % 2 ^ 16) with
      | some i => ((tget {} s.fh.rx i).symOf frame slot sym).erased.contains prb
      | none => false)

/-- The data symbols of an allocation. -/
def LlrAlloc.symbols (a : LlrAlloc) : List Nat := (List.range 14).filter (fun l => a.syms.getLsbD l)

/-- R209, R230: value k of an allocation is drawn from an erased resource element. -/
def State.llrErased (s : State) (a : LlrAlloc) (k : Nat) : Bool :=
  let re := k / a.per.val
  let row := 12 * a.prbs.val
  match s.runCells.find? (fun c => c.cell == a.cell.val), a.symbols[re / row]? with
  | some c, some l => s.reErased c a.frame a.slot l (a.startPrb.val + re % row / 12)
  | _, _ => false

/-! ### Gain loops (R213 to R215) -/

/-- R215: the symbol's loop updates are frozen: it is one of those the freeze counts, or the next one. -/
def Freeze.holds (f : Freeze) (k : Nat × Nat × Nat) : Bool :=
  match f with
  | .none => false
  | .held => true
  | .symbols n seen => seen.contains k || decide (seen.length < n)

/-- R215: a received symbol of a frozen cell is counted once, whatever the streams it came on. -/
def Freeze.count (f : Freeze) (k : Nat × Nat × Nat) : Freeze :=
  match f with
  | .symbols n seen => if seen.contains k || decide (n ≤ seen.length) then f else .symbols n (seen ++ [k])
  | f => f

/-- A symbol by frame, slot and number. -/
def RxSym.key (y : RxSym) : Nat × Nat × Nat := (y.frame, y.slot, y.sym)

/-- R215: the receive streams of a cell, by number. -/
def State.cellStreams (s : State) (c : Nat) : List Nat :=
  match s.fh.active with
  | some p => ((p.rxStreams.zipIdx).filter (fun e => e.1.1.cell == c)).map (·.2)
  | none => []

/-- R215: a loop update of the stream in a symbol that the freeze counts is still to come. -/
def State.updateOwed (s : State) (seen : List (Nat × Nat × Nat)) (i : Nat) : Bool :=
  (tget {} s.fh.rx i).syms.any (fun y => seen.contains y.key && decide (0 < y.count) && y.side.isNone)

/-- R215, R241: the stream's loop is frozen. -/
def State.streamFrozen (s : State) (c i : Nat) : Bool :=
  match tget .none s.fh.freeze c with
  | .none => false
  | .held => true
  | .symbols n seen => decide (seen.length < n) || s.updateOwed seen i

/-- When a symbol ends: the start of the next one, in units of 1/3,072 ns. -/
def State.symEnd (s : State) (mu frame slot sym : Nat) : Int :=
  if sym = 13 then s.tSym mu frame (slot + 1) 0 else s.tSym mu frame slot (sym + 1)

/-- R213, R214: at a symbol's end the stream's side record is written and its gain updated, once. -/
def execAgcSymbolUpdate (i : Fin 2048) (frame : Nat) (slot : Fin 20) (sym : Fin 14) (side : PAddr)
    (s : State) : Out :=
  unlessHalted s .radio <|
  let x := tget {} s.fh.rx i.val
  match s.fh.active with
  | none => .next s
  | some p =>
    match p.rxStreams[i.val]?, x.syms.find? (fun y => y.frame == frame && y.slot == slot.val && y.sym == sym.val) with
    | some e, some y =>
      let due := s.symEnd e.1.mu frame slot sym
      let s0 := s.reachC (cOfFine due)
      let cfg := s.regN (fhBlock + 0x040)
      let target := ofBits 8 (cfg % 256)
      let p0 := powerDb y.power y.count
      let p1 := if y.clipped then max p0 (target + 24) else p0
      let fz := tget .none s.fh.freeze e.1.cell
      let frozen := fz.holds y.key
      let err := p1 - target
      let g := if frozen then x.gain
        else if (bitsOf cfg 23 16 : Int) < err then x.gain - min err (bitsOf cfg 15 8)
        else if err < -(bitsOf cfg 23 16 : Int) then x.gain + 1
        else x.gain
      let side4 := leBytes 1 (toBits 8 y.g) ++ leBytes 1 (toBits 8 (clampInt (-128) 127 p1).1) ++
        leBytes 2 (sideFlags y frozen)
      let t := s0.store side.toNat side4
      onlyIf (0 < y.count && y.side.isNone && s.cellUp e.1 && cPast s0.now due) s
        { t with
          fh.rx := tset {} t.fh.rx i.val
            { x.putSym { y with side := some side.toNat } with gain := (clampInt (-128) 127 g).1 }
          fh.freeze := tset .none t.fh.freeze e.1.cell (fz.count y.key) }
    | _, _ => .next s

/-- R215: a cell's freeze ends after FREEZE_SYMS received symbols, once the loop updates of the last one have run. -/
def execAgcFreezeEnd (c : Fin 512) (s : State) : Out :=
  unlessHalted s .radio <|
  match tget .none s.fh.freeze c.val with
  | .symbols n seen =>
    onlyIf (decide (n ≤ seen.length) && (s.cellStreams c.val).all (fun i => !s.updateOwed seen i)) s
      { s with fh := { s.fh with freeze := tset .none s.fh.freeze c.val .none } }
  | _ => .next s

/-- R215: FH_AGC_REL, written by RD Pilot cores, releases a cell. -/
def execFhAgcRel (m : Agent) (c : Fin 512) (s : State) : Out :=
  agentIf m (m.isRd && s.dieOn .rd) s
    { s with fh := { s.fh with freeze := tset .none s.fh.freeze c.val .none } }

/-- R241: FH_AGC_CFG, written by the PF; an ATTACK_MAX outside 1 to 32 is ignored. -/
def execFhAgcCfgWrite (m : Agent) (v : Word) (s : State) : Out :=
  let o := fhBlock + 0x040
  let a := bitsOf v.toNat 15 8
  let n := v.toNat % 2 ^ 24
  agentIf m (s.isPf m && s.dieOn .rd) s
    (s.setReg o (if 1 ≤ a ∧ a ≤ 32 then n else withBits n 15 8 (s.regB o 15 8)))

/-- R207: FH_PORT_CFG, written by the PF; SPLIT keeps its value while a cell of the active or accepted
plan uses the port. -/
def execFhPortCfgWrite (m : Agent) (p : Fin 8) (v : Word) (s : State) : Out :=
  let o := fhBlock + 0x020 + 4 * p.val
  let uses (q : Option Plan) : Bool := match q with
    | some q => q.cells.any (fun c => c.port == p.val)
    | none => false
  let used := uses s.fh.active || uses s.fh.next
  agentIf m (s.isPf m && s.dieOn .rd) s
    (s.setReg o (if used then withBits (v.toNat % 4) 1 1 (s.regB o 1 1) else v.toNat % 4))

/-! ### PRACH (R216 to R218) -/

/-- R217: the report of a detected preamble. -/
def prachReport (tOcc cell : Nat) (restricted : Bool) (d : PrachDet) : BitVec 128 :=
  BitVec.ofNat 128 (tOcc % 2 ^ 64 + cell * 2 ^ 64 + d.preamble.val * 2 ^ 80 +
    (b2n restricted + 2) * 2 ^ 88 + d.ta.val * 2 ^ 96 +
    toBits 16 (clampInt (-32768) 0 d.power).1 * 2 ^ 112)

/-- R217: where report k of the ring in RD SRAM lies (log 18). -/
def prachSlot (k : Nat) : Nat :=
  sramBase .rd + (Config.prachRing.1 + k % (Config.prachRing.2 + 1)) * 16 % sramSpan .rd

/-- R226: frame and slot of the slot that comes k after another. -/
def slotPlus (mu frame slot k : Nat) : Nat × Nat := (frame + (slot + k) / (10 * 2 ^ mu), (slot + k) % (10 * 2 ^ mu))

/-- R216, R217: the samples of a repetition of an occasion that begins in a slot, and the factor of the gain they carry. -/
def State.prachSamples (s : State) (len mu frame slot : Nat) (r : PrachRep) : Nat × List (Int × Int) :=
  let k := slotPlus mu frame slot r.after
  (gainFactor ((tget {} s.fh.rx r.rx.val).symOf k.1 k.2 r.sym).g,
    (List.range len).map (fun k => ci16 (s.loadNat (r.buf.toNat + 4 * k) 4)))

/-- R217: one report: written to the ring, counted, the serving RD core interrupted and the cell frozen.  R429: a muted
standby posts none. -/
def State.prachReported (s : State) (c : Cell) (core : Fin 4) (tOcc : Nat) (d : PrachDet) : State :=
  let t := (s.count (fhBlock + 0x11C) 1).irqTo (coreId .rd core) .radio
  let t := if s.muted c.cell then t
    else
      let u := t.storeNat (prachSlot t.fh.reports) 16 (prachReport tOcc c.cell c.restricted d).toNat
      { u with fh := { u.fh with reports := u.fh.reports + 1 } }
  let f : Freeze := if c.freeze = 0 then .held else .symbols c.freeze []
  { t with fh := { t.fh with freeze := tset .none t.fh.freeze c.cell f } }

/-- R216, R217, R218: once the window of an occasion's last symbol has closed, its repetitions are correlated and the
preambles found are reported, in rising order; an occasion whose work is not done 200 µs later is skipped.  The repetitions
are those of the cell's PRACH streams, each one of the format's on each stream; the occasion begins in the slot named. -/
def execPrachOccasion (c : Fin 512) (frame : Nat) (slot : Fin 20) (core : Fin 4) (reps : List PrachRep) (s : State) : Out :=
  unlessHalted s .radio <|
  match s.runCells.find? (fun x => x.cell == c.val) with
  | none => .next s
  | some x =>
    match x.prach, reps with
    | some (f, _), r0 :: rs =>
      let at_ (r : PrachRep) : Int := s.tSym x.mu frame (slot.val + r.after.val) r.sym
      let first := rs.foldl (fun b r => min b (at_ r)) (at_ r0)
      let close := rs.foldl (fun b r => max b (at_ r)) (at_ r0) + fine (x.ta4MaxUs * 1000)
      let t := s.reachC (cOfFine close)
      let work : Int := f.reps * f.weight * x.prachStreams * 500000
      let done := max close s.fh.prachFree + work
      let ours := (s.cellStreams c.val).drop x.conf.rx
      let det := (List.finRange 64).filterMap (fun v =>
        prachPreamble f ((Config.prachConfig x.mu (x.period == 0) x.prachCfg).getD (0, 0)).1 x.restricted x.root x.zcz
          x.thresh x.mu x.prachStreams (reps.map (t.prachSamples f.len x.mu frame slot)) (Config.freeValue (s.free + v.val)) v)
      onlyIf (reps.length == f.reps * x.prachStreams && reps.all (fun r => ours.contains r.rx.val) && allDistinct reps &&
          cPast t.now close) s
        (if close + fine 200000 < done then t.count (fhBlock + 0x120) 1
         else det.foldl (fun u d => u.prachReported x core (first / 3072).toNat d)
          { t.drew 64 with fh := { t.fh with prachFree := done } })
    | _, _ => .next s

/-! ### FFT engines (R219) -/

/-- R219: a Dibber, an RD Pilot core or a strobe queues a job on an engine. -/
def execFftJobQueue (e : Fin 8) (src dst : PAddr) (size : Fin 4097) (mode : FftMode) (s : State) : Out :=
  unlessHalted s .radio <|
  let j : FftJob := { src := src.toNat, dst := dst.toNat, size := size.val, inverse := mode.inverse, strobe := mode.strobe }
  onlyIf (fftSizeOk size.val && s.dieOn .rd) s
    { s with fh := { s.fh with fft := tmod {} s.fh.fft e.val (fun x => { x with jobs := x.jobs ++ [j] }) } }

/-- R219: the oldest job of an engine completes, with the halvings its radix stages took; one that a strobe starts waits for the
strobe (R281). -/
def execFftJobDone (e : Fin 8) (radices : List (Fin 6)) (s : State) : Out :=
  unlessHalted s .radio <|
  let x := tget {} s.fh.fft e.val
  match x.jobs with
  | [] => .next s
  | j :: js =>
    let xs := (List.range j.size).map (fun i => ci16 (s.loadNat (j.src + 4 * i) 4))
    let h := fftHalvings j.inverse radices xs
    let sat (v : Int) : Nat := toBits 16 (clampInt (-32768) 32767 v).1
    let t := s.store j.dst ((dft j.inverse h xs).flatMap (fun y => leBytes 2 (sat y.1) ++ leBytes 2 (sat y.2)))
    let y : FftEngine := { jobs := js, done := x.done + 1, halvings := h }
    let n := tget 0 s.td.fftStart e.val
    onlyIf (fftRadices radices j.size && (!j.strobe || decide (0 < n))) s
      { t with
        fh := { t.fh with fft := tset {} t.fh.fft e.val y }
        td := { t.td with fftStart := tset 0 t.td.fftStart e.val (if j.strobe then n - 1 else n) } }

/-! ### Slots (R225 to R231) -/

/-- R226, R227, R229: a slot's configuration of one direction: taken, unless its lead has passed, when it is counted late. -/
def State.configIn (s : State) (c : Cell) (frame slot : Nat) (up : Bool) : State :=
  if (s.noteOf c.cell frame slot up).isSome then s
  else if s.pastNs (s.configDue c frame slot) then (s.addNote c.cell frame slot up true).count (fhBlock + 0x128) 1
  else s.addNote c.cell frame slot up false

/-- R225, R226, R227: RD firmware receives a slot's configuration, uplink or downlink or both, from the message ring at
address a of HD SRAM, whose message the spec gives no format (log 154). -/
def execSlotConfigRx (c : Fin 512) (frame : Nat) (slot : Fin 20) (dirs : SlotDirs) (a : PAddr) (s : State) : Out :=
  unlessHalted s .radio <|
  match s.runCells.find? (fun x => x.cell == c.val) with
  | none => .next s
  | some x =>
    let t := if dirs.up then s.configIn x frame slot true else s
    onlyIf (s.dieOn .rd && inHd (s.key a.toNat) && s.rangeOk a.toNat 8) s (if dirs.down then t.configIn x frame slot false else t)

/-- R229: the lead of a slot passes with no configuration of the direction. -/
def State.configLate (s : State) (c frame slot : Nat) (up : Bool) : Out :=
  match s.runCells.find? (fun x => x.cell == c) with
  | none => .next s
  | some x =>
    let due := s.configDue x frame slot
    let t := s.reachNs due
    onlyIf ((s.noteOf c frame slot up).isNone && t.pastNs due) s
      ((t.addNote c frame slot up true).count (fhBlock + 0x128) 1)

/-- R229: the uplink is not processed; its results carry LATE_CFG. -/
def execUlConfigLate (c : Fin 512) (frame : Nat) (slot : Fin 20) (s : State) : Out :=
  unlessHalted s .radio <|
  s.configLate c frame slot true

/-- R229: the downlink is not transmitted. -/
def execDlConfigLate (c : Fin 512) (frame : Nat) (slot : Fin 20) (s : State) : Out :=
  unlessHalted s .radio <|
  s.configLate c frame slot false

/-- R230: LLR8 of an FP32 value λ: clamp(round(4λ), −127, 127); none for NaN. -/
def llr8 (bits : Nat) : Option Int :=
  match FloatFmt.fp32.value bits with
  | .nan => none
  | .inf neg => some (if neg then -127 else 127)
  | .fin neg m e =>
    let v := gridRne m (e + 2) 0
    some (clampInt (-127) 127 (if neg then -(v : Int) else v)).1

/-- R231, R233: a booking that the firmware cannot use: REFUSED, CANCELLED or LATE, or with an array that FAILED_SHORT. -/
def State.bookingBad (s : State) (b : Fin 4 × Fin 64) : Bool :=
  let e : TtEntry := tget {} s.tt.entries (64 * b.1.val + b.2.val)
  e.st == .refused || e.st == .cancelled || e.st == .late ||
  (List.range 16).any (fun k => bitOf e.arrays k && (s.isl (arrayIsland (16 * b.1.val + k))).st == .failedShort)

/-- R231: a pass that wrote the outputs, by its array and the DONE that counts it, is counted. -/
def State.passCounted (s : State) (p : Fin 84 × BitVec 16) : Bool :=
  decide (((s.esOf p.1.val).done + 2 ^ 16 - p.2.toNat) % 2 ^ 16 < 2 ^ 15)

/-- R231: a pass that wrote the outputs will not be counted: its sequencer is in ERROR, or was aborted before it. -/
def State.passLost (s : State) (p : Fin 84 × BitVec 16) : Bool :=
  let e := s.esOf p.1.val
  !s.passCounted p && (e.errCode != 0 || (e.runs.isEmpty && e.pfifo.isEmpty && e.pStall.isEmpty))

/-- R231: neural buffers rotate over four slots: another slot of the last four does not use the range. -/
def State.nrxFree (s : State) (b : NrxBuf) : Bool :=
  s.fh.nrx.all (fun x => (x.cell == b.cell && x.frame == b.frame && x.slot == b.slot) ||
    decide (x.addr + x.len ≤ b.addr) || decide (b.addr + b.len ≤ x.addr))

/-- R231: the buffers of a slot go in use, and those of the slot four before it and of earlier ones end. -/
def State.nrxUse (s : State) (mu : Nat) (bs : List NrxBuf) : State :=
  let idx (x : NrxBuf) : Nat := x.frame * slotsPerFrame mu + x.slot
  { s with fh := { s.fh with nrx := (s.fh.nrx.filter (fun x =>
      bs.all (fun b => x.cell != b.cell || decide (idx b < idx x + 4)))) ++ bs } }

/-- R230, R231: firmware converts n FP32 outputs of an allocation to LLR8, waits until every pass that wrote them is counted in
DONE, and writes the allocation's completion word; a NaN, an ECC error or an aborted pass sets ERROR.  The LLR8 of a NaN is a
free value.  R232, R233: an allocation that a bad booking keeps from ending is skipped, and counted in FB_NOBOOK. -/
def execNrxCompletionWord (src dst word : PAddr) (n : Fin 65536) (alloc : LlrAlloc) (passes : List (Fin 84 × BitVec 16))
    (bookings : List (Fin 4 × Fin 64)) (s : State) : Out :=
  unlessHalted s .radio <|
  match s.runCells.find? (fun x => x.cell == alloc.cell.val) with
  | none => .next s
  | some c =>
    let buf (a len : Nat) : NrxBuf := { cell := c.cell, frame := alloc.frame, slot := alloc.slot, addr := a, len := len }
    let bufs := [buf dst.toNat n.val, buf word.toNat 8]
    let open_ := passes.filter (fun p => !s.passCounted p)
    let ls := (List.range n.val).map (fun i => llr8 (s.loadNat (src.toNat + 4 * i) 4))
    let err := !open_.isEmpty || ls.any (·.isNone) || s.rangeBad src.toNat (4 * n.val)
    let bs := ((ls.zip (freeBytes s.free n.val)).zipIdx).map (fun e =>
      if s.llrErased alloc e.2 then 0
      else match e.1.1 with
        | some v => BitVec.ofNat 8 (toBits 8 v)
        | none => e.1.2)
    let t := (((s.nrxUse c.mu bufs).store dst.toNat bs).drew n.val).storeNat word.toNat 8
      (alloc.frame % 1024 + alloc.slot.val * 2 ^ 10 + 2 ^ 16 + b2n err * 2 ^ 17)
    onlyIf (s.dieOn .rd && c.nrx != 0 && inRd dst.toNat n.val && inRd word.toNat 8) s
      (if !open_.isEmpty && bookings.any s.bookingBad then s.count (fhBlock + 0x1008 + 16 * c.cell) 1
       else if open_.all s.passLost && bufs.all s.nrxFree then t
       else s)

end Sys2Proof.Machine
end

