-- ==== Sys2Proof/Machine/Dibber.lean ====
section
/-! DEFINITION.  Chapter 10, R220 to R224: the Dibbers. -/

namespace Sys2Proof.Machine

/-- The page of Dibber c (R224). -/
def dbReg (c : Fin 48) (o : Nat) : Nat := dbBlock + 0x100 * c.val + o

def State.dbOf (s : State) (c : Fin 48) : Dibber := tget {} s.fh.db c.val

def State.setDb (s : State) (c : Fin 48) (x : Dibber) : State :=
  { s with fh := { s.fh with db := tset {} s.fh.db c.val x } }

/-- R27: the island of a Dibber's cluster of eight is ON. -/
def State.dbOn (s : State) (c : Fin 48) : Bool := s.islOn (476 + c.val / 8)

/-- The register set in use (R221). -/
def Dibber.regs (x : Dibber) : DbRegs :=
  match x.cur with
  | .main => x.main | .set1 => x.set1 | .set2 => x.set2

def Dibber.setRegs (x : Dibber) (r : DbRegs) : Dibber :=
  match x.cur with
  | .main => { x with main := r } | .set1 => { x with set1 := r } | .set2 => { x with set2 := r }

/-! ### Interrupts (R222) -/

/-- The core leaves MAIN for a pending interrupt, SLOT first, at an instruction boundary; a SLOT is taken in the
instruction bank b of the image in force (R409). -/
def Dibber.take (b : Bool) (x : Dibber) : Dibber :=
  if x.halted then x
  else if x.slotPend ∧ x.cur ≠ .set2 then
    { x with slotPend := false, held1 := x.held1 || x.cur == .set1, cur := .set2, bankB := b }
  else if x.symPend ∧ x.cur = .main then { x with symPend := false, cur := .set1 }
  else x

/-- R222: raise SYM or SLOT; one already pending is lost. -/
def State.dbRaise (s : State) (c : Fin 48) (slot : Bool) : State :=
  let x := s.dbOf c
  let en := s.regBit (dbReg c 0) (if slot then 4 else 3)
  let busy := if slot then x.slotPend else x.symPend
  let k := 2 * c.val + b2n slot
  let s := { s with td := { s.td with signals := lrmFirst (· == k) s.td.signals } }
  if !en || !s.dbOn c then s
  else if busy then
    (s.setReg (dbReg c 0x08) (s.regN (dbReg c 0x08) ||| (if slot then 16 else 8))).count (dbReg c 0x14) 1
  else s.setDb c (if slot then { x with slotPend := true } else { x with symPend := true })

/-- R222: the strobe that DB_CTRL names has fired for the Dibber and has not been taken. -/
def State.dbStrobed (s : State) (c : Fin 48) (slot : Bool) : Bool := s.td.signals.contains (2 * c.val + b2n slot)

/-- R222: a SYM strobe. -/
def execDibberSymIrq (c : Fin 48) (s : State) : Out :=
  unlessHalted s .radio <|
  let t := s.dbRaise c false
  onlyIf (s.dbStrobed c false) s (t.setDb c ((t.dbOf c).take s.bankNow))

/-- R222, R409: a SLOT strobe, with a SYM in the same cycle where sym holds: SET2 is taken and the SYM stays pending. -/
def execDibberSlotIrq (c : Fin 48) (sym : Bool) (s : State) : Out :=
  unlessHalted s .radio <|
  let t := (if sym then s.dbRaise c false else s).dbRaise c true
  onlyIf (s.dbStrobed c true && (!sym || s.dbStrobed c false)) s (t.setDb c ((t.dbOf c).take s.bankNow))

/-- R222: RETI: a pending SLOT, then a held SET1, then a pending SYM, then MAIN. -/
def Dibber.reti (b : Bool) (x : Dibber) : Dibber :=
  if x.slotPend then { x with slotPend := false, cur := .set2, bankB := b }
  else if x.held1 then { x with held1 := false, cur := .set1 }
  else if x.symPend then { x with symPend := false, cur := .set1 }
  else { x with cur := .main }

/-- R222: RETI leaves the current set. -/
def execDibberReti (c : Fin 48) (s : State) : Out :=
  unlessHalted s .radio <|
  let x := s.dbOf c
  onlyIf (s.dbOn c && !x.halted && x.cur != .main) s (s.setDb c (x.reti s.bankNow))

/-! ### Lanes (R52 to R54, R223) -/

def DbRegs.vec (r : DbRegs) (v : Fin 32) (l : Nat) : Nat := (tget 0 r.v (32 * v.val + l)).toNat
def DbRegs.setVec (r : DbRegs) (v : Fin 32) (l x : Nat) : DbRegs :=
  { r with v := tset 0 r.v (32 * v.val + l) (BitVec.ofNat 32 x) }
def DbRegs.acc (r : DbRegs) (a : Fin 8) (l : Nat) : Int × Int := tget (0, 0) r.a (32 * a.val + l)
def DbRegs.setAcc (r : DbRegs) (a : Fin 8) (l : Nat) (x : Int × Int) : DbRegs :=
  { r with a := tset (0, 0) r.a (32 * a.val + l) x }
def DbRegs.setPred (r : DbRegs) (p : Fin 4) (l : Nat) (b : Bool) : DbRegs :=
  { r with p := tmod 0 r.p p.val (fun w => BitVec.ofNat 32 (withBits w.toNat l l (b2n b))) }

/-- What one lane did. -/
structure LaneOut where
  regs : DbRegs
  ovf : Bool := false
  sat : Bool := false
  divz : Bool := false
  deriving DecidableEq, Repr

/-- A CI16 word from its components. -/
def ci16Word (re im : Int) : Nat := toBits 16 re + toBits 16 im * 2 ^ 16

/-- A CI16 component saturated, to the symmetric range where selected (R54, R223). -/
def ci16Sat (symm : Bool) (x : Int) : Int × Bool := clampInt (if symm then -32767 else -32768) 32767 x

/-- R223: write a CI16 result of a lane, saturated. -/
def LaneOut.ci16 (r : DbRegs) (symm : Bool) (d : Fin 32) (l : Nat) (z : Int × Int) : LaneOut :=
  let a := ci16Sat symm z.1
  let b := ci16Sat symm z.2
  { regs := r.setVec d l (ci16Word a.1 b.1), sat := a.2 || b.2 }

/-- R223: reciprocal of a 32-bit value as mantissa and exponent of m · 2^e, to nearest even. -/
def recipOf (x : Nat) : Nat × Int :=
  let n := bitLen x
  let num := 2 ^ (14 + n)
  let q := num / x
  let r := num % x
  let m := if x < 2 * r then q + 1 else if 2 * r = x then q + q % 2 else q
  if 0x8000 ≤ m then (m / 2, 2 - n) else (m, 1 - n)

/-- R223: reciprocal square root; x = 2^(2k) · y with y in [1, 4). -/
def recipSqrtOf (x : Nat) : Nat × Int :=
  let k := (bitLen x - 1) / 2
  let fits (n : Nat) : Bool := decide ((2 * n - 1) * (2 * n - 1) * x ≤ 2 ^ (32 + 2 * k))
  let m := (List.range 16).foldl (fun n i => if fits (n + 2 ^ (15 - i)) then n + 2 ^ (15 - i) else n) 0
  if 0x8000 ≤ m then (m / 2, 1 - k) else (m, -k)

/-- The word of a mantissa and exponent: bits 15:0 and 21:16 (log 23). -/
def mantWord (m : Nat × Int) : Nat := m.1 + toBits 6 m.2 * 2 ^ 16

def relHolds (r : Ordering) (a b : Int) : Bool := compare a b == r

/-- R223: one lane's operation. -/
def LaneOp.lane (op : LaneOp) (r : DbRegs) (l : Nat) : LaneOut :=
  let v (x : Fin 32) : Int × Int := Machine.ci16 (r.vec x l)
  match op with
  | .addSub sub symm d a b =>
    let y := v b
    LaneOut.ci16 r symm d l (if sub then ((v a).1 - y.1, (v a).2 - y.2) else ((v a).1 + y.1, (v a).2 + y.2))
  | .negate symm d a => LaneOut.ci16 r symm d l (-(v a).1, -(v a).2)
  | .conjugate symm d a => LaneOut.ci16 r symm d l ((v a).1, -(v a).2)
  | .power acc a =>
    let z := v a
    let old := r.acc acc l
    let n := acc40 old.1 (z.1 * z.1 + z.2 * z.2)
    { regs := r.setAcc acc l (n.1, old.2), ovf := n.2 }
  | .minMax mx d a b =>
    let pick (x y : Int) : Int := if mx then max x y else min x y
    LaneOut.ci16 r false d l (pick (v a).1 (v b).1, pick (v a).2 (v b).2)
  | .compare imag rel p a b =>
    { regs := r.setPred p l (if imag then relHolds rel (v a).2 (v b).2 else relHolds rel (v a).1 (v b).1) }
  | .accMinMax mx d a b =>
    let x := r.acc a l
    let y := r.acc b l
    { regs := r.setAcc d l (if mx then max x.1 y.1 else min x.1 y.1, (r.acc d l).2) }
  | .accCompare rel p a b => { regs := r.setPred p l (relHolds rel (r.acc a l).1 (r.acc b l).1) }
  | .shiftLeft symm k d a => LaneOut.ci16 r symm d l ((v a).1 * 2 ^ k.val, (v a).2 * 2 ^ k.val)
  | .load _ _ | .arrive => { regs := r }
  | .reciprocal d a =>
    let x := r.vec a l
    if x = 0 then { regs := r.setVec d l (0x7FFF + 63 * 2 ^ 16), divz := true }
    else { regs := r.setVec d l (mantWord (recipOf x)) }
  | .recipSqrt d a =>
    let x := r.vec a l
    if x = 0 then { regs := r.setVec d l (0x7FFF + 63 * 2 ^ 16), divz := true }
    else { regs := r.setVec d l (mantWord (recipSqrtOf x)) }

/-- The lanes a mask selects. -/
def lanesOf (m : BitVec 32) : List Nat := (List.range 32).filter (fun l => m.getLsbD l)

/-- Run one operation on the selected lanes, in order: the registers, the lanes whose accumulator
saturated, those whose result saturated, and whether a reciprocal of 0 was met. -/
def runLanes (f : DbRegs → Nat → LaneOut) (r : DbRegs) (ls : List Nat) :
    DbRegs × List Nat × List Nat × Bool :=
  ls.foldl (fun acc l =>
    let o := f acc.1 l
    (o.regs, if o.ovf then l :: acc.2.1 else acc.2.1, if o.sat then l :: acc.2.2.1 else acc.2.2.1,
      acc.2.2.2 || o.divz)) (r, [], [], false)

/-- R223: flags and counts of an operation's saturations. -/
def State.dbFlags (s : State) (c : Fin 48) (ovf sat : List Nat) (divz : Bool) : State :=
  let x := s.dbOf c
  let s := s.setDb c { x with laneSat := sat.foldl (fun t l => tmod 0 t l (· + 1)) x.laneSat }
  let s := s.setReg (dbReg c 0x08) (s.regN (dbReg c 0x08) ||| (b2n (!ovf.isEmpty) + 2 * b2n (!sat.isEmpty) + 4 * b2n divz))
  let s := s.setReg (dbReg c 0x0C) (ovf.foldl (fun w l => w ||| 2 ^ l) (s.regN (dbReg c 0x0C)))
  s.count (dbReg c 0x10) sat.length

/-- R221: the program counter of the set in use goes past one instruction.  DESIGN CHOICE (log 155): it counts instructions,
since the spec gives Dibber code no encoding. -/
def Dibber.stepPc (x : Dibber) : Dibber := x.setRegs { x.regs with pc := (x.regs.pc + 1) % 2 ^ 16 }

/-- A lane operation of a running Dibber. -/
def State.dbLanes (s : State) (c : Fin 48) (f : DbRegs → Nat → LaneOut) (lanes : BitVec 32) : Out :=
  let x := (s.dbOf c).stepPc
  let o := runLanes f x.regs (lanesOf lanes)
  onlyIf (s.dbOn c && !x.halted) s
    ((s.setDb c (x.setRegs o.1)).dbFlags c o.2.1 o.2.2.1 o.2.2.2)

/-! ### Memory (R220, R221) -/

/-- R220: the master of Dibber c on port A of RD SRAM. -/
def dbMaster (c : Fin 48) : Nat := 0x0E0 + c.val

/-- R220: the words of local data memory that n bytes at an offset lie in. -/
def dmemWords (off n : Nat) : List Nat := (List.range (ceilDiv (off % 8 + n) 8)).map (fun i => (off / 8 + i) % 0x8000)

/-- R220: an uncorrectable word lies among n bytes of local data memory. -/
def Dibber.dmemBad (x : Dibber) (off n : Nat) : Bool :=
  (dmemWords off n).any (fun k => decide (1 < popCount (tget 0 x.dmemErr k).toNat 72))

def Dibber.dmemLoad (x : Dibber) (off n : Nat) : List Byte :=
  (List.range n).map (fun i => tget 0 x.dmem ((off + i) % 0x40000))

/-- Words written get fresh check bits. -/
def Dibber.dmemStore (x : Dibber) (off : Nat) (bs : List Byte) : Dibber :=
  { x with
    dmem := (bs.zipIdx).foldl (fun m e => tset 0 m ((off + e.2) % 0x40000) e.1) x.dmem
    dmemErr := tdrop (fun k => (dmemWords off bs.length).contains k) x.dmemErr }

/-- R224: an uncorrectable error in local memory sets DB_FLAG.ECC. -/
def State.dbEcc (s : State) (c : Fin 48) (bad : Bool) : State :=
  if bad then s.setReg (dbReg c 0x08) (s.regN (dbReg c 0x08) ||| 32) else s

/-- R221: a load is issued in the set in use; single-bit errors of what it reads are corrected.  The data of an uncorrectable
word is a free value. -/
def State.dbLoad (s : State) (c : Fin 48) (d : DbLoadReg) (src : DbSrc) (lanes : BitVec 32) : State :=
  let x := (s.dbOf c).stepPc
  let n := match d with
    | .v _ => 4 * (lanesOf lanes).length
    | _ => 4
  let (bs, bad, t) : List Byte × Bool × State := match src with
    | .dmem o =>
      let bad := x.dmemBad o.toNat n
      (x.dmemLoad o.toNat n, bad, s.dbEcc c bad)
    | .device a =>
      if inRd a.toNat n then (s.load a.toNat n, s.rangeBad a.toNat n, s.noteReads (dbMaster c) a.toNat n)
      else (List.replicate n 0, false, s)
  let l : DbLoad := { set := x.cur, reg := d, lanes := lanes, bytes := if bad then freeBytes s.free n else bs, bad := bad }
  (t.drew n).setDb c { x with loads := x.loads ++ [l] }

/-- A loaded register. -/
def DbRegs.loaded (r : DbRegs) (d : DbLoadReg) (lanes : BitVec 32) (bs : List Byte) : DbRegs :=
  match d with
  | .v v => ((lanesOf lanes).zipIdx).foldl (fun r e => r.setVec v e.1 (leNat ((bs.drop (4 * e.2)).take 4))) r
  | .s i => { r with s := tset 0 r.s i.val (BitVec.ofNat 32 (leNat bs)) }
  | .p i => { r with p := tset 0 r.p i.val (BitVec.ofNat 32 (leNat bs)) }

/-- R221: the oldest load arrives, in the set it was issued in. -/
def Dibber.arrive (x : Dibber) : Dibber :=
  match x.loads with
  | [] => x
  | l :: ls =>
    let y := { x with loads := ls }
    match l.set with
    | .main => { y with main := y.main.loaded l.reg l.lanes l.bytes }
    | .set1 => { y with set1 := y.set1.loaded l.reg l.lanes l.bytes }
    | .set2 => { y with set2 := y.set2.loaded l.reg l.lanes l.bytes }

/-- R52, R53: complex multiply-accumulate of the selected lanes. -/
def execDibberCmac (c : Fin 48) (acc : Fin 8) (a b : Fin 32) (conj neg : Bool) (lanes : BitVec 32)
    (s : State) : Out :=
  unlessHalted s .radio <|
  s.dbLanes c (fun r l =>
    let p := cmul conj neg (ci16 (r.vec a l)) (ci16 (r.vec b l))
    let old := r.acc acc l
    let re := acc40 old.1 p.1
    let im := acc40 old.2 p.2
    { regs := r.setAcc acc l (re.1, im.1), ovf := re.2 || im.2 }) lanes

/-- R223: the lane operations; R221: loads and their arrival, which a halted core awaits too. -/
def execDibberLaneOp (c : Fin 48) (op : LaneOp) (lanes : BitVec 32) (s : State) : Out :=
  unlessHalted s .radio <|
  match op with
  | .load d src => onlyIf (s.dbOn c && !(s.dbOf c).halted) s (s.dbLoad c d src lanes)
  | .arrive => onlyIf (s.dbOn c) s (s.setDb c (s.dbOf c).arrive)
  | _ => s.dbLanes c op.lane lanes

/-- R54: one lane's accumulator as a store converts it: its components, and whether one saturated. -/
def DbRegs.stored (r : DbRegs) (acc : Fin 8) (sh : Fin 32) (rnd : StoreRound) (w : Nat) (symm : Bool) (l : Nat) :
    Int × Int × Bool :=
  let a := r.acc acc l
  let re := cstore sh.val rnd w symm a.1
  let im := cstore sh.val rnd w symm a.2
  (re.1, im.1, re.2 || im.2)

/-- R230: the LLR8 bytes of an allocation's values from k on; those of erased resource elements are 0 (R209). -/
def State.llrBytes (s : State) (a : LlrAlloc) (k : Nat) (vs : List Int) : List Byte :=
  (vs.zipIdx).map (fun e =>
    BitVec.ofNat 8 (toBits 8 (if s.llrErased a (k + e.2) then 0 else (clampInt (-127) 127 e.1).1)))

/-- R233: log-likelihood ratios of a classical set written for a slot. -/
def State.llrRun (s : State) (a : Nat) (al : LlrAlloc) (n : Nat) : State :=
  let r : LlrRun := { addr := a, sfn := al.frame % 1024, slot := al.slot, count := n }
  let old := s.fh.llrs.find? (fun x => x.addr == a && x.sfn == r.sfn && x.slot == r.slot)
  let n' := match old with
    | some x => x.count + n
    | none => n
  { s with fh := { s.fh with llrs := s.fh.llrs.filter (fun x => x.addr != a) ++ [{ r with count := n' }] } }

/-- R54: a store converts the accumulator components of the selected lanes: shift, round, saturate to
CI16 or CI32; a vector register takes CI16 only.  DESIGN CHOICE (log 136): with lanes masked, the words of the selected
lanes go to memory without gaps, in ascending lane order.  R220: device memory is RD SRAM, elsewhere nothing is written.
DESIGN CHOICE (log 153): the log-likelihood ratios of the classical path are stored as LLR8, real before imaginary, the value
shifted and rounded to nearest with ties to even being 4λ. -/
def execDibberStore (c : Fin 48) (acc : Fin 8) (sh : Fin 32) (rnd : StoreRound) (wide symm : Bool)
    (dst : DbDst) (lanes : BitVec 32) (s : State) : Out :=
  unlessHalted s .radio <|
  let x := (s.dbOf c).stepPc
  let w := if wide then 32 else 16
  let vs := (lanesOf lanes).map (fun l => (l, x.regs.stored acc sh rnd w symm l))
  let word (v : Int × Int × Bool) : Nat := toBits w v.1 + toBits w v.2.1 * 2 ^ w
  let bytes : List Byte := vs.flatMap (fun v => leBytes (if wide then 8 else 4) (word v.2))
  let s1 := s.setDb c x
  let t : State := match dst with
    | .vreg d => s.setDb c (x.setRegs (vs.foldl (fun r v => r.setVec d v.1 (word v.2)) x.regs))
    | .dmem off => s.setDb c (x.dmemStore off.toNat bytes)
    | .device a => if inRd a.toNat bytes.length then s1.store a.toNat bytes else s1
    | .llr a al k =>
      let es := (lanesOf lanes).flatMap (fun l =>
        let v := x.regs.stored acc sh .nearestEven 40 false l
        [v.1, v.2.1])
      if inRd (a.toNat + k) es.length then (s1.store (a.toNat + k) (s.llrBytes al k es)).llrRun a.toNat al es.length
      else s1
  let sat := match dst with
    | .llr _ _ _ => []
    | _ => (vs.filter (·.2.2.2)).map (·.1)
  onlyIf (s.dbOn c && !x.halted && !(wide && (match dst with | .vreg _ => true | _ => false))) s
    (t.dbFlags c [] sat false)

/-! ### Control (R224) -/

/-- R224: DB_CTRL as written; HALTED follows RUN, and pending interrupts are then taken. -/
def State.dbControl (s : State) (c : Fin 48) (v : Word) (x : Dibber) : State :=
  (s.setReg (dbReg c 0) (v.toNat &&& 0xFFFF19)).setDb c (Dibber.take s.bankNow { x with halted := !v.getLsbD 0 })

/-- R224: DB_CTRL with RESET = 1, written by RD Pilot cores: the three sets, pending bits and held state
are cleared. -/
def execDbCtrlReset (m : Agent) (c : Fin 48) (v : Word) (s : State) : Out :=
  let x := s.dbOf c
  agentIf m (m.isRd && s.dieOn .rd) s
    (s.dbControl c v { dmem := x.dmem, dmemErr := x.dmemErr, loads := x.loads, imem := x.imem, imemB := x.imemB, bankB := x.bankB, laneSat := x.laneSat })

/-- R224: DB_CTRL with RESET = 0: RUN starts execution or halts it. -/
def execDbCtrlRun (m : Agent) (c : Fin 48) (v : Word) (s : State) : Out :=
  agentIf m (m.isRd && s.dieOn .rd) s (s.dbControl c v (s.dbOf c))

end Sys2Proof.Machine
end

