-- ==== Sys2Proof/Machine/Drip.lean ====
section
/-! DEFINITION.  Chapter 04: the Drip sequencers of the generation dies. -/

namespace Sys2Proof.Machine

/-- R86: offset of a register of GDn's page. -/
def dlReg (n o : Nat) : Nat := dlBlock + 0x1000 * n + o

/-- R86: the job staging registers. -/
def dlJobRegs (s : State) (n : Nat) : DlJob :=
  { first := s.regB (dlReg n 0x010) 6 0
    count := s.regB (dlReg n 0x010) 14 8
    lanes := s.regB (dlReg n 0x010) 23 16
    ks := s.regB (dlReg n 0x014) 10 0
    v := s.regB (dlReg n 0x014) 14 12
    cols := s.regB (dlReg n 0x014) 31 16
    word := s.regB (dlReg n 0x018) 14 0
    sword := s.regB (dlReg n 0x018) 30 16
    wFmt := s.regB (dlReg n 0x01C) 3 0
    aFmt := s.regB (dlReg n 0x01C) 7 4
    oFmt := s.regB (dlReg n 0x01C) 11 8
    acc := s.regBit (dlReg n 0x01C) 12
    irq := s.regBit (dlReg n 0x01C) 13
    eMin := s.regB (dlReg n 0x01C) 24 16
    asrc := s.reg64 (dlReg n 0x020) (dlReg n 0x024)
    dst := s.reg64 (dlReg n 0x02C) (dlReg n 0x030)
    apitch := s.regB (dlReg n 0x028) 15 0
    dpitch := s.regB (dlReg n 0x028) 31 16
    op := s.regB (dlReg n 0x034) 31 16
    layer := s.regB (dlReg n 0x034) 15 0 }

/-- R71 with jobs in place of passes: stalled stores complete while entries are free. -/
def DripSeq.refill (e : DripSeq) : DripSeq :=
  let enter := e.jStall.take (8 - e.jfifo.length)
  { e with
    jfifo := e.jfifo ++ enter.mapIdx (fun i p => { p with seq := (e.pushed + 1 + i) % 65536 })
    jStall := e.jStall.drop (8 - e.jfifo.length)
    pushed := (e.pushed + enter.length) % 65536 }

/-- The sequencer of GDn may start queued work (R86, R73). -/
def State.dlGoes (s : State) (n : Fin 4) : Bool :=
  s.dieOn (.gd n) && s.regBit (dlReg n 0) 0 && !s.regBit (dlReg n 0) 2 && (s.dlOf n).halt == .none

/-- Interrupt the core that DL_CTRL.IRQ_CORE names. -/
def State.dlIrq (s : State) (n : Fin 4) : State :=
  s.irqTo (irqCore (.gd n) (s.regB (dlReg n 0) 4 4)) .dl

/-- R86: ENABLE and IRQ_CORE are written; ENABLE = 1 after an ABORT returns to IDLE (R73). -/
def execDlCtrlEnable (m : Agent) (n : Fin 4) (on : Bool) (irqCore : BitVec 1) (s : State) : Out :=
  let e := s.dlOf n
  let left := on && (e.halt == .aborted || (e.halt == .error && e.errCode == 7))
  let t := (s.setRegB (dlReg n 0) 0 0 (b2n on)).setRegB (dlReg n 0) 4 4 irqCore.toNat
  agentIf m (s.coreMayWrite m (.gd n)) s
    (if left then t.setDl n { e with halt := .none, errCode := 0 } else t)

/-- R86: STOP = 1 stops after the running job is counted in DONE. -/
def execDlCtrlStop (m : Agent) (n : Fin 4) (s : State) : Out :=
  agentIf m (s.coreMayWrite m (.gd n)) s (s.setRegB (dlReg n 0) 2 2 1)

/-- R86: STOP = 0 resumes. -/
def execDlCtrlUnstop (m : Agent) (n : Fin 4) (s : State) : Out :=
  agentIf m (s.coreMayWrite m (.gd n)) s (s.setRegB (dlReg n 0) 2 2 0)

/-- R84: the destination range of one vector of a job. -/
def DlJob.dstRange (j : DlJob) (o : Fmt) (v : Nat) : Nat × Nat :=
  (j.dst + v * j.dpitch * 16, if o = .lps then 16 + 16 * j.cols else j.cols * o.bytes)

/-- R87: the destination of a failed job holds unspecified contents: free bytes. -/
def State.loseOutput (s : State) (j : DlJob) : State :=
  match Fmt.ofCode j.oFmt with
  | none => s
  | some o => (List.range j.v).foldl (fun s v =>
      let d := j.dstRange o v
      (s.store d.1 (freeBytes s.free d.2)).drew d.2) s

/-- R86, R73: ABORT on the job FIFO and both slot sets; a running job's output is lost (R87).  DESIGN CHOICE (log 142):
ABORTED is recorded for a running job alone, as R87 has it; with a job that only waits for its slot load the sequencer
stops with no code. -/
def execDlCtrlAbort (m : Agent) (n : Fin 4) (s : State) : Out :=
  let e := s.dlOf n
  let s' := match e.run with
    | some (j, _) => s.loseOutput j
    | none => s
  let rec' : DripSeq := { e with
    jfifo := [], loaded := none, run := none, pushed := e.done, errCode := 0, lost := none
    halt := .aborted }
  let fin : DripSeq := match e.run with
    | some (j, _) => { rec' with halt := .error, errCode := 7, errSeq := j.seq, errGroup := j.first }
    | none => rec'
  let t := s'.setDl n fin.refill
  agentIf m (s.coreMayWrite m (.gd n)) s (if e.run.isSome then t.dlIrq n else t)

/-- R86, R73: RESUME in ERROR counts the failed job in DONE (not after an ABORT) and goes on. -/
def execDlCtrlResume (m : Agent) (n : Fin 4) (s : State) : Out :=
  let e := s.dlOf n
  agentIf m (s.coreMayWrite m (.gd n) && e.halt == .error) s
    (s.setDl n { e with
      halt := .none, errCode := 0
      done := if e.errCode = 7 then e.done else (e.done + 1) % 65536 })

/-- R86: the DL_CNT counters are cleared. -/
def execDlCtrlClrCnt (m : Agent) (n : Fin 4) (s : State) : Out :=
  agentIf m (s.coreMayWrite m (.gd n)) s (s.setDl n { s.dlOf n with cntBusy := 0, cntWait := 0 })

/-- R71, R86: a job is pushed and PUSHED advances; into a full FIFO the store waits; in ERROR it is
discarded. -/
def execDlJPush (m : Agent) (n : Fin 4) (s : State) : Out :=
  let e := s.dlOf n
  agentIf m (s.coreMayWrite m (.gd n) && e.halt != .error) s
    (s.setDl n ({ e with jStall := e.jStall ++ [dlJobRegs s n] } : DripSeq).refill)

/-- R81: the reduction length of a job. -/
def DlJob.k (j : DlJob) : Nat := j.count * j.lanes * j.ks

/-- R83: the ranges of one activation vector: its elements, and for block FP4 its scale bytes at the next
64-byte boundary. -/
def DlJob.vecRanges (j : DlJob) (a : Fmt) (v : Nat) : List (Nat × Nat) :=
  let st := j.asrc + v * j.apitch * 16
  let n := runBytes a j.k
  (st, n) :: (if a = .fp4 then [((st + n + 63) / 64 * 64, j.k / 16)] else [])

/-- R83: the V vectors of a job as they are in memory now. -/
def State.readVecs (s : State) (n : Fin 4) (j : DlJob) : List ActRow :=
  match Fmt.ofCode j.aFmt with
  | none => []
  | some a => (List.range j.v).map (fun v =>
      let rs := j.vecRanges a v
      let r0 := rs.getD 0 (0, 0)
      let r1 := rs.getD 1 (0, 0)
      { elems := s.load r0.1 r0.2, scales := s.load r1.1 r1.2
        ecc := rs.any (fun r => s.rangeBad r.1 r.2)
        beyond := rs.any (fun r => beyondSpan (.gd n) r.1 r.2) })

/-- R83, R85: the activation broadcast loads the head job's vectors into the loading slot set. -/
def execDlActLoad (n : Fin 4) (s : State) : Out :=
  unlessHalted s .inference <|
  let e := s.dlOf n
  match e.jfifo with
  | j :: _ =>
    let rs := match Fmt.ofCode j.aFmt with
      | some a => (List.range j.v).flatMap (j.vecRanges a)
      | none => []
    onlyIf (s.dlGoes n && e.loaded.isNone) s
      ((s.noteRanges (0x060 + n) rs).setDl n { e with loaded := some (s.readVecs n j) })
  | [] => .next s

/-- R80, R84, R86, R87: code FORMAT; E_MIN counts for block FP4 alone. -/
def DlJob.formatBad (j : DlJob) : Bool :=
  match Fmt.ofCode j.aFmt, Fmt.ofCode j.wFmt, Fmt.ofCode j.oFmt with
  | some a, some w, some o =>
    !((a.isFp8 && w.isFp8) || (a == w && (a == .int8 || a == .fp4))) || !Fmt.outOk a o ||
    (j.acc && !(o == .fp32 || o == .int32 || o == .lps)) ||
    j.lanes == 0 || decide (128 < j.lanes) || j.count == 0 || decide (96 < j.first + j.count) ||
    j.cols == 0 || j.v == 0 || decide (4 < j.v) || decide (j.ks < 8) || decide (1024 < j.ks) ||
    j.ks % (if a = .fp4 then 16 else 8) != 0 || (a == .fp4 && decide (508 < j.eMin))
  | _, _, _ => true

/-- The bank groups of a job. -/
def DlJob.groups (j : DlJob) : List Nat := (List.range j.count).map (j.first + ·)

/-- R81: words per column in each bank. -/
def DlJob.wordsPerCol (j : DlJob) (a : Fmt) : Nat := if a = .fp4 then j.ks / 16 else j.ks / 8

/-- R81, R83, R87: code ADDRESS. -/
def DlJob.addressBad (j : DlJob) (n : Fin 4) (a o : Fmt) : Bool :=
  let ok (r : Nat × Nat) : Bool := inDieWindow (.gd n) r.1 r.2 && !beyondSpan (.gd n) r.1 r.2
  (List.range j.v).any (fun v => !((j.vecRanges a v).all ok && ok (j.dstRange o v))) ||
  decide (0x8000 < j.word + j.cols * j.wordsPerCol a) ||
  (a == .fp4 && decide (0x40000 < 8 * j.sword + j.cols * (j.ks / 16)))

/-- R87: the code a job fails with at its start and the group it names; 0 where it starts.  DESIGN CHOICE (log 143): an
error that no bank group met names the job's first group. -/
def State.jobStartCode (s : State) (n : Fin 4) (j : DlJob) : Nat × Nat :=
  if j.formatBad then (2, j.first)
  else match j.groups.find? (s.bgStripe n) with
    | some g => (8, g)
    | none => match j.groups.find? (fun g => !s.islOn (bgIsland n g)) with
      | some g => (9, g)
      | none => match Fmt.ofCode j.aFmt, Fmt.ofCode j.wFmt, Fmt.ofCode j.oFmt with
        | some a, some w, some o =>
          if j.addressBad n a o then (1, j.first)
          else if j.acc && o == .lps && (List.range j.v).any (fun v =>
              s.lpsMismatch (j.dstRange o v).1 (lpsBase a j.eMin) (srcFmt a w)) then (5, j.first)
          else (0, 0)
        | _, _, _ => (2, j.first)

/-- R85: GDC cycles of a job's lane reads. -/
def DlJob.readCycles (j : DlJob) : Nat :=
  if Fmt.ofCode j.aFmt = some .fp4 then ceilDiv (j.cols * 9 * j.ks) 128 else j.cols * j.ks / 8

/-- R87: the head job starts: checks in order, then its lanes read; a failed check stops the sequencer with the
destination's contents unspecified, but for LPS_MISMATCH, which leaves the destination as it is (R45). -/
def execDlJobStart (n : Fin 4) (waited : Nat) (s : State) : Out :=
  unlessHalted s .inference <|
  let e := s.dlOf n
  match e.jfifo, e.loaded with
  | j :: rest, some vs =>
    let code := s.jobStartCode n j
    let e' : DripSeq := { e with
      jfifo := rest, loaded := none, lost := none, cntWait := (e.cntWait + waited) % 2 ^ 64 }
    let t := if code.1 = 0 then
        s.setDl n ({ e' with
          run := some (j, vs), cntBusy := (e.cntBusy + j.readCycles) % 2 ^ 64 } : DripSeq).refill
      else
        ((if code.1 = 5 then s else s.loseOutput j).setDl n ({ e' with
          halt := .error, errCode := code.1, errGroup := code.2, errSeq := j.seq } : DripSeq).refill).dlIrq n
    onlyIf (s.dlGoes n && e.run.isNone) s t
  | _, _ => .next s

/-- R81: the storage key of column c's element run in lane i of group g. -/
def DlJob.runKey (j : DlJob) (n : Fin 4) (a : Fmt) (g i c : Nat) : Nat :=
  wordKey (.gd n) (128 * g + i) (j.word + c * j.wordsPerCol a)

/-- R81: the storage key of column c's scale bytes in lane i of group g. -/
def DlJob.scaleKey (j : DlJob) (n : Fin 4) (g i c : Nat) : Nat :=
  wordKey (.gd n) (128 * g + i) j.sword + c * (j.ks / 16)

/-- R81: column c's K-slice in lane i of group g. -/
def State.laneRun (s : State) (n : Fin 4) (j : DlJob) (a : Fmt) (g i c : Nat) : List Byte × List Byte :=
  (rdBytes s.mem (j.runKey n a g i c) (runBytes a j.ks),
   if a = .fp4 then rdBytes s.mem (j.scaleKey n g i c) (j.ks / 16) else [])

/-- R81: every lane of a job: its group, its lane and its slice number. -/
def DlJob.laneList (j : DlJob) : List (Nat × Nat × Nat) :=
  (List.range j.count).flatMap (fun g =>
    (List.range j.lanes).map (fun i => (j.first + g, i, g * j.lanes + i)))

/-- R81: a vector's slice of KS elements, and its scales. -/
def ActRow.slice (r : ActRow) (a : Fmt) (ks i : Nat) : List Byte × List Byte :=
  ((r.elems.drop (runBytes a (i * ks))).take (runBytes a ks), (r.scales.drop (i * ks / 16)).take (ks / 16))

/-- R82: column c of vector v: lane sums added exactly. -/
def State.dripColumn (s : State) (n : Fin 4) (j : DlJob) (a w : Fmt) (v : ActRow) (c : Nat) : ColRes :=
  let b := lpsBase a j.eMin
  let sum := j.laneList.foldl (fun (acc : Option Int) l =>
    let x := v.slice a j.ks l.2.2
    let y := s.laneRun n j w l.1 l.2.1 c
    match acc, exactSum b (dotPairs a w x.1 x.2 y.1 y.2 j.ks j.ks) with
    | some p, some q => some (p + q)
    | _, _ => none) (some 0)
  match sum with
  | some i => .exact i b
  | none => .nan

/-- R87, R108: a group of the running job that is not ON, or that has left ON since the job started. -/
def State.jobIsland (s : State) (n : Fin 4) (j : DlJob) : Option Nat :=
  match (s.dlOf n).lost with
  | some g => some g
  | none => j.groups.find? (fun g => !s.islOn (bgIsland n g))

/-- R87: the error a running job meets, with its group: a group that is or was not ON, an uncorrectable word, or a block
pair outside the span.  DEDUCED (log 12): in this order. -/
def State.jobError (s : State) (n : Fin 4) (j : DlJob) (vs : List ActRow) : Option (Nat × Nat) :=
  match s.jobIsland n j with
  | some g => some (9, g)
  | none => match Fmt.ofCode j.aFmt, Fmt.ofCode j.wFmt with
    | some a, some w =>
      let bad (l : Nat × Nat × Nat) : Bool := (List.range j.cols).any (fun c =>
        let words (k len : Nat) : Bool :=
          (List.range (ceilDiv (k % 8 + len) 8)).any (fun i => s.wordBad (k / 8 * 8 + 8 * i))
        words (j.runKey n w l.1 l.2.1 c) (runBytes w j.ks) ||
        (w == .fp4 && words (j.scaleKey n l.1 l.2.1 c) (j.ks / 16)))
      let span (l : Nat × Nat × Nat) : Bool := a == .fp4 && (List.range j.cols).any (fun c =>
        vs.any (fun v =>
          let x := v.slice a j.ks l.2.2
          let y := s.laneRun n j w l.1 l.2.1 c
          spanFails j.eMin j.ks x.1 x.2 y.1 y.2))
      if vs.any (·.ecc) then some (6, j.first)
      else match j.laneList.find? bad with
        | some l => some (6, l.1)
        | none => match j.laneList.find? span with
          | some l => some (4, l.1)
          | none => none
    | _, _ => none

/-- R84: write one vector's outputs; answers the state and the saturations. -/
def State.writeVec (s : State) (n : Fin 4) (j : DlJob) (a w o : Fmt) (v : ActRow) (i : Nat) :
    State × Nat :=
  let b := lpsBase a j.eMin
  let d := (j.dstRange o i).1
  let e0 := if o = .lps then d + 16 else d
  let x := (List.range j.cols).foldl (fun (acc : List Byte × Nat × Nat) c =>
    let y := s.dripColumn n j a w v c
    let z := if j.acc then y.accum o b (s.load (e0 + c * o.bytes) o.bytes)
      else y.plain o b 0 .nearestEven false
    let nan := o = .lps ∧ leNat z.1 = lpsNan
    (acc.1 ++ z.1, acc.2.1 + z.2,
      acc.2.2 ||| (if nan then 1 else 0) ||| (if o = .lps ∧ 0 < z.2 then 2 else 0))) ([], 0, 0)
  let t := s.store e0 x.1
  if o = .lps then
    let old := if j.acc then s.loadNat (d + 3) 1 else 0
    (t.store d (lpsHeader b (srcFmt a w) (old ||| x.2.2)), x.2.1)
  else (t, x.2.1)

/-- R84, R85: the job's outputs are written and visible, DONE counts it, and IRQ interrupts the core. -/
def execDlJobDone (n : Fin 4) (s : State) : Out :=
  unlessHalted s .inference <|
  let e := s.dlOf n
  match e.run with
  | none => .next s
  | some (j, vs) =>
    match s.jobError n j vs, Fmt.ofCode j.aFmt, Fmt.ofCode j.wFmt, Fmt.ofCode j.oFmt with
    | none, some a, some w, some o =>
      let x := vs.zipIdx.foldl (fun (y : State × Nat) v =>
        let z := y.1.writeVec n j a w o v.1 v.2; (z.1, y.2 + z.2)) (s, 0)
      let t := (x.1.setDl n { e with run := none, lost := none, done := (e.done + 1) % 65536 }).count
        (bkBlock + 0x10000 * (4 + n) + 0x0304) x.2
      let fn := ((s.sh.ctx.find? (fun c => c.1 / 8 == 4 + n.val)).map (·.2.vf)).getD 0x3FF
      let t := t.trace 3 (0x060 + n) j.layer j.op fn (j.seq + j.first * 2 ^ 16 + j.count * 2 ^ 23)
      .next (if j.irq then t.dlIrq n else t)
    | _, _, _, _ => .next s

/-- R87: the running job meets ISLAND, ECC or SPAN: ERROR with the group and the job recorded, the
destination's contents unspecified, and IRQ_CORE interrupted. -/
def execDlJobError (n : Fin 4) (s : State) : Out :=
  unlessHalted s .inference <|
  let e := s.dlOf n
  match e.run with
  | none => .next s
  | some (j, vs) =>
    match s.jobError n j vs with
    | none => .next s
    | some (code, g) =>
      .next (((s.loseOutput j).setDl n { e with
        run := none, lost := none, halt := .error, errCode := code, errGroup := g, errSeq := j.seq }).dlIrq n)

/-- R87, R108: group j of GDn leaves ON: a running job that uses it has lost it. -/
def State.groupLeaves (s : State) (n j : Nat) : State :=
  let e := s.dlOf n
  match e.run with
  | some (q, _) => if q.groups.contains j ∧ e.lost = none then s.setDl n { e with lost := some j } else s
  | none => s

/-- R75, R86: a read of a LO register latches the matching HI register. -/
def execDlCntLoRead (m : Agent) (n : Fin 4) (c : Fin 2) (s : State) : Out :=
  let e := s.dlOf n
  onlyIf (s.isPf m || s.coreMayWrite m (.gd n)) s
    (s.setDl n { e with
      latch := lmod e.latch c (fun _ => (if c.val = 0 then e.cntBusy else e.cntWait) / 2 ^ 32) })

end Sys2Proof.Machine
end

