-- ==== Sys2Proof/Machine/ZelicOps.lean ====
section
/-! DEFINITION.  Shared operations of the Zelic fabric: messages, routes, tags, issue and completion (R289 to
R293, R299, R302 to R307). -/

namespace Sys2Proof.Machine

/-! ### Messages (R290, R291) -/

/-- R290: the fields of a header. -/
def ZlFrame.parse (f : ZlFrame) : ZlMsg :=
  let h := f.hdr.toNat
  { typ := bitsOf h 5 0, cls := bitsOf h 7 6, dst := bitsOf h 15 8, src := bitsOf h 23 16, gen := bitsOf h 27 24
    retry := bitsOf h 29 28, err := bitOf h 30, tag := bitsOf h 48 32, subop := bitsOf h 59 56, job := bitsOf h 83 64
    status := bitsOf h 87 84, len := bitsOf h 108 96, age := bitsOf h 127 112, qaddr := bitsOf h 175 128
    index := bitsOf h 191 176, operand := bitsOf h 255 192
    rsvd := bitOf h 31 || bitsOf h 55 49 != 0 || bitsOf h 63 60 != 0 || bitsOf h 95 88 != 0 || bitsOf h 111 109 != 0
    data := f.data }

/-- R290: a message as bytes. -/
def ZlMsg.bytes (m : ZlMsg) : List Byte :=
  leBytes 32 (m.typ + m.cls * 2 ^ 6 + m.dst * 2 ^ 8 + m.src * 2 ^ 16 + m.gen * 2 ^ 24 + m.retry * 2 ^ 28 +
    b2n m.err * 2 ^ 30 + m.tag * 2 ^ 32 + m.subop * 2 ^ 56 + m.job * 2 ^ 64 + m.status % 16 * 2 ^ 84 + m.len * 2 ^ 96 +
    m.age * 2 ^ 112 + m.qaddr * 2 ^ 128 + m.index * 2 ^ 176 + m.operand * 2 ^ 192) ++ m.data

/-- R291: the data bytes a message carries. -/
def ZlMsg.carried (m : ZlMsg) : Nat := if m.typ = 1 ∨ m.typ = 9 then 0 else m.len

/-- R291: requests have odd type codes, their responses the next. -/
def ZlMsg.isRequest (m : ZlMsg) : Bool := m.typ % 2 == 1

/-- The memory bytes a request acts on. -/
def ZlMsg.span (m : ZlMsg) : Nat :=
  if m.typ = 5 then (if m.subop % 16 ∈ [2, 5, 7, 9, 11, 13, 15] then 8 else 4) else m.len

/-- No arrival counter (R311).  DESIGN CHOICE (log 48): INDEX 0xFFFF says so. -/
def noCounter : Nat := 0xFFFF

/-- R291, R295 step 2: the reserved fields and the length its type allows. -/
def ZlMsg.valid (m : ZlMsg) : Bool :=
  !m.rsvd && match m.typ with
  | 1 => decide (1 ≤ m.len) && decide (m.qaddr % 256 + m.len ≤ 256)
  | 3 => decide (1 ≤ m.len) && decide (m.qaddr % 4096 + m.len ≤ 4096)
  | 5 => m.len == (if m.subop = 6 ∨ m.subop = 7 then 8 else 0)
  | 7 | 9 => decide (1 ≤ m.len) && decide (m.qaddr % 4096 + m.len ≤ 4096) &&
      (decide (m.index < 4096) || m.index == noCounter)
  | 11 => m.len == 48 && decide (m.index < 1024)
  | _ => true

/-- R445: the ARG of kinds 0x10 and 0x11. -/
def ZlMsg.traceArg (m : ZlMsg) (peer : Nat) : Nat :=
  m.typ + m.cls * 2 ^ 6 + peer * 2 ^ 8 + m.tag * 2 ^ 16 + m.gen * 2 ^ 33 + m.retry * 2 ^ 37

/-- R445: a request or response leaves or arrives. -/
def State.traceZl (s : State) (kind : Nat) (m : ZlMsg) (peer : Nat) : State :=
  if s.traceTag m.tag then s.trace kind 0x122 0xFFFF 0xFFFF 0x3FF (m.traceArg peer) else s

/-! ### Links, modules and routes (R288, R289) -/

def State.linkOf (s : State) (z : Nat) : ZlLink := tget {} s.zl.links z
def State.setLink (s : State) (z : Nat) (x : ZlLink) : State :=
  { s with zl := { s.zl with links := tset {} s.zl.links z x } }
def State.linkUp (s : State) (z : Nat) : Bool := (s.linkOf z).st == .up

def linkReg (z o : Nat) : Nat := zlBlock + 0x800 + 0x10 * z + o

/-- ZL_LINK_CTRL.LOCK_SIDE: the link faces a Lock's far domain (R315). -/
def State.lockSide (s : State) (z : Nat) : Bool := s.regBit (linkReg z 0) 1

/-- The domain a message belongs to: the far one where it came on a LOCK_SIDE link. -/
def State.sideOf (s : State) (via : Option Nat) : Bool :=
  match via with
  | some z => s.lockSide z
  | none => false

/-- R289, R316: this module's MODULE in its own domain or, far, in the far one. -/
def State.moduleId (s : State) (far : Bool) : Nat := s.regB (if far then lkBlock else zlBlock) 7 0

/-- R289, R310: the link toward a module: ZL_ROUTE, or LK_ROUTE, which must name LOCK_SIDE links only. -/
def State.route (s : State) (far : Bool) (dst : Nat) : Option Nat :=
  let r := s.regB ((if far then lkBlock else zlBlock) + 0x400 + 4 * dst) 5 0
  if r < 36 ∧ (far = true → s.lockSide r = true) then some r else none

/-- ZL_CFG.ENABLE. -/
def State.zlOn (s : State) : Bool := s.regBit zlBlock 31 && !s.fatal

/-- Counters of the ZL block (R315). -/
def zlStale : Nat := zlBlock + 0x020
def zlAgeDrop : Nat := zlBlock + 0x024
def zlTimeouts : Nat := zlBlock + 0x028
def zlUnknown : Nat := zlBlock + 0x02C
def zlRcBusy : Nat := zlBlock + 0x030
def zlRouteDrop : Nat := zlBlock + 0x034
def zlRcHit : Nat := zlBlock + 0x038
def zlQtRefuse : Nat := zlBlock + 0x03C

/-- R318: the queue of a request by its issuer and class. -/
def State.issQueue (s : State) (i : ZlIss) (cls : Nat) : Nat :=
  match i with
  | .fw _ v =>
    let g := s.regB (zlBlock + 0x2000 + 4 * v.val) 5 0
    4 + 4 * (if g < 61 then g else 0) + cls
  | .harbour _ => 4 + 4 * 61 + cls
  | .lock _ _ => 4 + 4 * 62 + cls

/-- A message gets its link and waits for room in its queue. -/
def State.zlSend (s : State) (o : ZlOut) : State := { s with zl := { s.zl with out := s.zl.out ++ [o] } }

/-- R289: a response of this module: toward its requester, or dropped where no link leads there. -/
def State.zlRespond (s : State) (via : Option Nat) (m : ZlMsg) : State :=
  match via with
  | none => { s with zl := { s.zl with loop := s.zl.loop ++ [m] } }
  | some z =>
    match s.route (s.lockSide z) m.dst with
    | some r =>
      if s.linkUp r then s.zlSend { link := r, queue := m.cls, msg := m } else s.count zlRouteDrop 1
    | none => s.count zlRouteDrop 1

/-- R291: the response to a request: DST and SRC exchanged, TAG, GEN, JOB and CLASS kept; ERR where the status is not
OK (log 49). -/
def State.zlReply (s : State) (via : Option Nat) (q : ZlMsg) (status : Nat) : ZlMsg :=
  { typ := q.typ + 1, cls := q.cls, dst := q.src, src := s.moduleId (s.sideOf via), gen := q.gen, tag := q.tag, job := q.job
    status := status, err := status != 0, index := if q.typ = 9 then q.index else 0 }

/-! ### Tags (R307) -/

def State.tagOf (s : State) (t : Nat) : ZlTag := tget {} s.zl.tags t
def State.setTag (s : State) (t : Nat) (x : ZlTag) : State :=
  { s with zl := { s.zl with tags := tset {} s.zl.tags t x } }

/-- The tag is outstanding or quarantined. -/
def ZlTag.busy (x : ZlTag) : Bool := x.req.isSome || x.quar.isSome

/-- The lowest number that is no busy key, from lo on. -/
def lowestFree : Nat → Table ZlTag → Nat
  | lo, [] => lo
  | lo, (k, x) :: t => if x.busy ∧ k = lo then lowestFree (lo + 1) t else if k < lo then lowestFree lo t
    else if x.busy then lo else lowestFree lo t

/-- R307: a free tag: the lowest (DESIGN CHOICE, log 50); none while 131,072 are outstanding or quarantined. -/
def State.freeTag (s : State) : Option Nat :=
  let n := lowestFree 0 s.zl.tags
  if n < 131072 then some n else none

/-- R305: ZL_TIMEOUT in raw Tide counts. -/
def State.deadTarget (s : State) : Nat := rawUs (s.regB (zlBlock + 0x004) 9 0)

/-- R307: raw counts of a tag's quarantine. -/
def State.quarantine (s : State) (typ : Nat) : Nat :=
  if typ = 5 ∨ typ = 11 then max (2 * s.deadTarget) (rawUs 256) else 2 * s.deadTarget

/-! ### Completion -/

/-- A completion at its issuer. -/
def State.zlDone (s : State) (d : ZlDone) : State := { s with zl := { s.zl with done := s.zl.done ++ [d] } }

/-- R299: one chunk of a copy is answered; the last completes the copy with the status of the first that failed. -/
def State.copyAnswer (s : State) (id status : Nat) : State :=
  match tget none s.zl.copies id with
  | none => s
  | some c =>
    let c' := { c with left := c.left - 1, status := if c.status = 0 then status else c.status }
    if c'.left = 0 then
      { s with zl := { s.zl with copies := tset none s.zl.copies id none } }.zlDone
        { iss := c'.iss, typ := if c'.get then 9 else 7, status := c'.status }
    else { s with zl := { s.zl with copies := tset none s.zl.copies id (some c') } }

/-- R307: a request has its final status: its tag is quarantined. -/
def State.releaseTag (s : State) (t : Nat) (r : ZlReq) : State :=
  s.setTag t { s.tagOf t with req := none, quar := some (s.td.raw + s.quarantine r.msg.typ) }

/-- R305, R306, R308: a request ends at its issuer without a response.  A Lock does not answer for its far leg, so the
request's own issuer times out (R310, log 51). -/
def State.zlFail (s : State) (t : Nat) (r : ZlReq) (status : Nat) : State :=
  let u := s.releaseTag t r
  match r.iss, r.copy with
  | .lock _ _, _ => u
  | _, some id => u.copyAnswer id status
  | _, none =>
    u.zlDone { iss := r.iss, typ := r.msg.typ, tag := t, status := status, err := r.msg.typ == 1
               data := if r.msg.typ = 1 then List.replicate r.msg.len 0xFF else [] }

/-! ### Issue (R293, R299, R303) -/

def ZlHeld.iss : ZlHeld → ZlIss
  | .req i _ _ => i
  | .fence i _ => i
  | .chunks i _ _ _ _ _ _ _ _ => i

def ZlIss.isLock : ZlIss → Bool
  | .lock _ _ => true
  | _ => false

/-- R302: the two stand for one issuer: one Pilot core whatever VF it acts for, the Harbourmaster under any job, one Lock
segment. -/
def ZlIss.same : ZlIss → ZlIss → Bool
  | .fw k _, .fw k' _ => k == k'
  | .harbour _, .harbour _ => true
  | .lock g _, .lock g' _ => g == g'
  | _, _ => false

/-- R293: the job identifier stamped for an issuer. -/
def State.jobOf (s : State) (i : ZlIss) : Nat :=
  match i with
  | .fw _ v => s.regB (zlBlock + 0x1000 + 4 * v.val) 19 0
  | .harbour j => j
  | .lock _ j => j

/-- A request that never goes out completes with NO_JOB, LINK_DOWN or NO_ROUTE. -/
def State.zlUnsent (s : State) (i : ZlIss) (m : ZlMsg) (copy : Option Nat) (status : Nat) : State :=
  match i, copy with
  | .lock _ _, _ => s
  | _, some id => s.copyAnswer id status
  | _, none => s.zlDone { iss := i, typ := m.typ, status := status }

/-- R293, R306, R307: one request at the head of its issuer: it gets its job, its link and its tag; none where it must
wait for a tag. -/
def State.zlGo (s : State) (i : ZlIss) (m : ZlMsg) (copy : Option Nat) (dst : Nat) (origs : List ZlOrig) : Option State :=
  let far := i.isLock
  let job := s.jobOf i
  let own := s.moduleId far
  let r := s.route far m.dst
  if job = 0xFFFFF ∧ far = false then some (s.zlUnsent i m copy 0x14)
  else if m.dst ≠ own ∧ r.isNone then some (s.zlUnsent i m copy 0x13)
  else if m.dst ≠ own ∧ r.any (fun z => !s.linkUp z) then some (s.zlUnsent i m copy 0x12)
  else
    match s.freeTag with
    | none => none
    | some t =>
      let gen := ((s.tagOf t).gen + 1) % 16
      let m := { m with src := own, gen := gen, tag := t, job := job, age := 0 }
      let q : ZlReq := { iss := i, msg := m, link := if m.dst = own then none else r, copy := copy, dst := dst, origs := origs }
      match q.link with
      | none =>
        let u := s.setTag t { gen := gen, req := some { q with t0 := some s.td.raw, sent := 1 } }
        some { u with zl := { u.zl with loop := u.zl.loop ++ [m] } }
      | some z =>
        let u := s.setTag t { gen := gen, req := some q }
        some (u.zlSend { link := z, queue := s.issQueue i m.cls, msg := m })

/-- R299: the next chunk of a copy: it never crosses a 4 KiB boundary of the remote quay address. -/
def chunkLen (qaddr left : Nat) : Nat := min left (4096 - qaddr % 4096)

/-- R299: chunks of a copy. -/
def chunkCount (qaddr len : Nat) : Nat := ceilDiv (qaddr % 4096 + len) 4096

/-- R299: the chunks of a copy go out while tags are free; what is left of it waits. -/
def State.zlChunks (s : State) (i : ZlIss) (get : Bool) (cls dst addr qaddr left index copy : Nat) :
    Nat → State × Option ZlHeld
  | 0 => (s, none)
  | fuel + 1 =>
    if left = 0 then (s, none)
    else
      let n := chunkLen qaddr left
      let m : ZlMsg :=
        { typ := if get then 9 else 7, cls := cls, dst := dst, qaddr := qaddr, len := n, index := index
          data := if get then [] else s.load addr n }
      let u := if get then s else s.noteReads 0x122 addr n
      match u.zlGo i m (some copy) addr [] with
      | some u => u.zlChunks i get cls dst (addr + n) (qaddr + n) (left - n) index copy fuel
      | none => (s, some (.chunks i get cls dst addr qaddr left index copy))

/-- R303: an earlier request of the issuer in one of the classes has no final status. -/
def State.fenceWaits (s : State) (i : ZlIss) (classes : Nat) : Bool :=
  s.zl.tags.any (fun e => match e.2.req with
    | some r => r.iss.same i && bitOf classes r.msg.cls
    | none => false)

/-- One entry in hand: what is left of it. -/
def State.zlTry (s : State) (h : ZlHeld) : State × Option ZlHeld :=
  match h with
  | .req i m origs =>
    match s.zlGo i m none 0 origs with
    | some u => (u, none)
    | none => (s, some h)
  | .fence i classes => if s.fenceWaits i classes then (s, some h) else (s, none)
  | .chunks i get cls dst addr qaddr left index copy =>
    s.zlChunks i get cls dst addr qaddr left index copy (chunkCount qaddr left + 1)

/-- R302, R303: everything in hand goes out in the order of each issuer, as far as fences and tags allow. -/
def State.zlPump (s : State) : State :=
  let r := s.zl.held.foldl (fun (x : State × List ZlHeld) h =>
    if x.2.any (fun w => w.iss.same h.iss) then (x.1, x.2 ++ [h])
    else
      match x.1.zlTry h with
      | (u, some w) => (u, x.2 ++ [w])
      | (u, none) => (u, x.2)) ({ s with zl := { s.zl with held := [] } }, [])
  { r.1 with zl := { r.1.zl with held := r.1.zl.held ++ r.2 } }

/-- An issuer takes something in hand. -/
def State.zlHold (s : State) (h : ZlHeld) : State :=
  { s with zl := { s.zl with held := s.zl.held ++ [h] } }.zlPump

/-! ### A link that leaves UP (R306, R327) -/

/-- R306: what becomes of a message that has a link and is not yet transmitted. -/
def State.zlDropOut (s : State) (o : ZlOut) : State :=
  if o.fwd.isSome ∨ o.msg.isRequest = false then s.count zlRouteDrop 1
  else if 0 < o.msg.retry then s
  else
    match (s.tagOf o.msg.tag).req with
    | some r => s.zlFail o.msg.tag r 0x12
    | none => s

/-- Messages in the queues of a link that are not being sent. -/
def State.zlQueued (s : State) (z : Nat) : List ZlOut :=
  (s.eqBusy (32 + z)).flatMap (fun k =>
    ((if s.isSending k then (s.eqOf k).items.drop 1 else (s.eqOf k).items).filterMap (fun i =>
      match i.body with
      | .zelic o => some o
      | .frame _ => none)))

/-- R288, R306, R310, R327: the link leaves UP for the state given. -/
def State.linkLost (s : State) (z : Nat) (st : ZlLinkSt) : State :=
  let gone := s.zlQueued z ++ s.zl.out.filter (fun o => o.link == z)
  let keys := s.eqAll (32 + z)
  let t := s.setLink z { s.linkOf z with st := st, fails := 0 }
  let t := keys.foldl State.eqClear t
  let t := t.setSending (32 + z) none
  let t := { t with zl := { t.zl with
    out := t.zl.out.filter (fun o => o.link != z)
    bufs := t.zl.bufs.filter (fun b => t.route true b.farModule != some z) } }
  (gone.foldl State.zlDropOut t).zlPump

/-- R288: a transition to DOWN is counted. -/
def State.countDown (s : State) (z : Nat) : State :=
  s.setRegB (linkReg z 8) 31 16 (min 0xFFFF (s.regB (linkReg z 8) 31 16 + 1))

/-- R288: DOWN; training restarts at once. -/
def State.linkDown (s : State) (z : Nat) : State := (s.linkLost z .training).countDown z

/-- R288: the optical-engine island of links 6k to 6k + 5 leaves ON. -/
def State.opticsOff (s : State) (k : Nat) : State :=
  (List.range 6).foldl (fun s j => s.linkLost (6 * k + j) .disabled) s

/-- R288: the island is ON again: enabled links train. -/
def State.opticsOn (s : State) (k : Nat) : State :=
  (List.range 6).foldl (fun s j =>
    let z := 6 * k + j
    if s.regBit (linkReg z 0) 0 ∧ (s.linkOf z).st = .disabled then s.setLink z { s.linkOf z with st := .training } else s) s

/-! ### A stop (R453) -/

/-- R453: the time stopped is excluded from the times of R305, R307 and R308. -/
def Zelic.shift (z : Zelic) (d : Nat) : Zelic :=
  { z with
    busyFrom := z.busyFrom.map (· + d)
    tags := z.tags.map (fun (e : Nat × ZlTag) => (e.1, { e.2 with
      quar := e.2.quar.map (· + d)
      req := e.2.req.map (fun r => { r with t0 := r.t0.map (· + d) }) }))
    rc := z.rc.map (fun (e : Nat × List ZlReply) => (e.1, e.2.map (fun r => { r with made := r.made + d }))) }

end Sys2Proof.Machine
end

