-- ==== Sys2Proof/Machine/Tide.lean ====
section
/-! DEFINITION.  Chapter 12: the Tide time base: reads, adjustment, PTP, strobes, pulses, captures and the
barrier.  What an adjustment does when it applies stands in TideStep. -/

namespace Sys2Proof.Machine

/-- R285: the PF or an HD Pilot core. -/
def State.tdWriter (s : State) (m : Agent) : Bool := s.isPf m || m.isHd

/-- R285: an HD or RD Pilot core. -/
def State.stbWriter (s : State) (m : Agent) : Bool := m.isHd || (m.isRd && s.dieOn .rd)

/-- R270: with SERVO = 1 the PF's writes of TD_RATE and TD_ADJ_* are ignored. -/
def State.mayAdjust (s : State) (m : Agent) : Bool := m.isHd || (s.isPf m && !s.regBit tdBlock 0)

/-! ### Reads (R267) -/

/-- R267: the latch of a master: the PF has key 0, a Pilot core its identifier. -/
def latchKey : Agent → Option Nat
  | .pf => some 0
  | .vf _ => none
  | .core d k => if k.val < dieCores d then some (coreId d k) else none

/-- R267: a read of TD_RAW_LO latches the raw count and C for that master. -/
def execTdRawLoRead (m : Agent) (s : State) : Out :=
  match latchKey m with
  | none => .next s
  | some k =>
    onlyIf ((m != .pf || s.fnLive 0) && !s.agentHalted m && !s.fenced m) s
      { s with td := { s.td with latch := tset {} s.td.latch k { raw := s.td.raw, c := s.now } } }

/-! ### Staging an adjustment (R268) -/

/-- R268: GO stages an adjustment for the later of TD_ADJ_AT and the count at GO plus 8; one pending stands
(R284).  V and TD_RATE are taken as they stand at GO (log 44). -/
def State.stageAdj (s : State) (op v : Nat) (rate : Int) : State :=
  if s.td.adj.isSome then s
  else { s with td := { s.td with adj := some {
    at_ := max (s.reg64 (tdBlock + 0x054) (tdBlock + 0x058)) (s.td.raw + 8)
    op := op
    v := v
    rate := rate } } }

/-- TD_ADJ_V. -/
def State.adjV (s : State) : Nat :=
  s.regN (tdBlock + 0x048) + s.regN (tdBlock + 0x04C) * 2 ^ 32 + s.regN (tdBlock + 0x050) * 2 ^ 64

/-- TD_RATE as a signed number. -/
def State.tdRate (s : State) : Int := ofBits 32 (s.regN (tdBlock + 0x040))

/-- R268: TD_ADJ_CMD with GO and OP RATE. -/
def execTdAdjRate (m : Agent) (s : State) : Out :=
  agentIf m (s.mayAdjust m) s (s.stageAdj 0 s.adjV s.tdRate)

/-- R268: OP STEP. -/
def execTdAdjStep (m : Agent) (s : State) : Out :=
  agentIf m (s.mayAdjust m) s (s.stageAdj 1 s.adjV s.tdRate)

/-- R268: OP SET. -/
def execTdAdjSet (m : Agent) (s : State) : Out :=
  agentIf m (s.mayAdjust m) s (s.stageAdj 2 s.adjV s.tdRate)

/-! ### Sources and the servo (R277, R278) -/

/-- R277: TD_SRC selects the servo's source; a change during holdover leaves the holdover as it is (R284). -/
def execTdSrcWrite (m : Agent) (v : Word) (s : State) : Out :=
  agentIf m (s.tdWriter m) s (s.setReg (tdBlock + 0x008) (v.toNat &&& 0x13F07))

/-- R285: KIND of TD_SRC; 4 to 7 act as 0. -/
def State.srcKind (s : State) : Nat :=
  if s.regB (tdBlock + 0x008) 2 0 < 4 then s.regB (tdBlock + 0x008) 2 0 else 0

/-- R278: RATE's mean over the previous 1,000 s, or since the lock where that is less, rounded down; rates are those that
came into force, newest first, and stop is the end of the stretch still to count. -/
def rateArea (start : Nat) : Nat → List (Nat × Int) → Int
  | _, [] => 0
  | stop, (k, r) :: rest => r * ((stop - max start k : Nat) : Int) + rateArea start (min stop (max start k)) rest

def State.meanRate (s : State) : Int :=
  let start := s.td.raw - rawUs 1000000000
  let n := s.td.raw - start
  if n = 0 then s.td.rate else rateArea start s.td.raw s.td.rates / (n : Int)

/-- R278: the source is lost: no valid Sync for 3 Announce intervals of 125 ms times a power of two (R274, log 45), no PPS_IN
edge for 2 s, or link z down. -/
def State.sourceLost (s : State) (announce : Nat) : Bool :=
  match s.srcKind with
  | 1 => decide (s.td.syncSeen + rawUs (375000 * 2 ^ announce) ≤ s.td.raw)
  | 2 => decide (s.td.ppsSeen + rawUs 2000000 ≤ s.td.raw)
  | 3 => (s.linkOf (s.regB (tdBlock + 0x008) 13 8)).st != .up
  | _ => false

/-- R278: the source is lost: STATE is HOLDOVER and RATE is held at its mean over the previous 1,000 s. -/
def execServoSourceLost (announce : Fin 8) (s : State) : Out :=
  let t := (s.setRegB tdBlock 6 4 3).setReg (tdBlock + 0x040) (toBits 32 s.meanRate)
  onlyIf (s.regBit tdBlock 0 && s.sourceLost announce && s.regB tdBlock 6 4 != 3) s (t.stageAdj 0 0 t.tdRate)

/-- R270: while a cell plan is active the servo corrects errors below 1.1 µs by rate alone; v is two's complement. -/
def State.mayStep (s : State) (v : Nat) : Bool := s.fh.active.isNone || decide (1100 * 2 ^ 16 ≤ (ofBits 96 v).natAbs)

/-- R278: the source returns: the servo removes the accumulated error, by a step or by rate (R270), and reports
LOCKED. -/
def execServoSourceReturn (step : Bool) (v : BitVec 96) (rate : Word) (s : State) : Out :=
  let t := (s.setRegB tdBlock 6 4 2).setReg (tdBlock + 0x040) rate.toNat
  onlyIf (s.regBit tdBlock 0 && s.srcKind != 0 && s.regB tdBlock 6 4 == 3 && !s.sourceLost 0 && (!step || s.mayStep v.toNat)) s
    (t.stageAdj (b2n step) v.toNat t.tdRate)

/-! ### PTP (R275, R276) -/

/-- The port of a TD_PTP_PORT index passes frames; sub-ports other than 0 exist on a split port only (R207, R285). -/
def State.ptpUp (s : State) (q : Nat) : Bool :=
  s.portUp (q / 4) && (q % 4 == 0 || s.regBit (fhBlock + 0x020 + 4 * (q / 4)) 1)

def tdPort (q : Nat) : Nat := tdBlock + 0x400 + 4 * q
def tdLat (q : Nat) : Nat := tdBlock + 0x480 + 4 * q

/-- R272: C of an egress timestamp, corrected by TD_PORT_LAT egress (1/16 ns). -/
def State.txTime (s : State) (q r : Nat) : Int := (s.cAt r : Int) + s.regB (tdLat q) 31 16 * 2 ^ 12

/-- C as an unsigned 96-bit value. -/
def c96 (x : Int) : Nat := (x % 2 ^ 96).toNat

/-- R275: a received PTP frame is delivered to the engine with the C of its receive timestamp. -/
def State.ptpDeliver (s : State) (q r : Nat) (msg : PtpMsg) (seq : Nat) : State :=
  { s with td := { s.td with
    ptpIn := s.td.ptpIn ++ [{ q := q, r := r, c := c96 (s.rxTime q r), msg := msg, seq := seq }] } }

/-- R274: a message the ports support: over Ethernet to a multicast address, in a domain of the profile. -/
def PtpHdr.supported (h : PtpHdr) : Bool :=
  h.ethernet && h.multicast && decide (24 ≤ h.domain.toNat) && decide (h.domain.toNat ≤ 43)

/-- R277, R278: a Sync on the port that TD_SRC selects is the source's. -/
def State.syncNoted (s : State) (q : Nat) (msg : PtpMsg) : State :=
  if (msg = .syncOneStep ∨ msg = .syncTwoStep) ∧ s.srcKind = 1 ∧ s.regB (tdBlock + 0x008) 13 8 = q then
    { s with td := { s.td with syncSeen := s.td.raw } }
  else s

/-- R274, R275: ingress, where the local engine runs on q: a management message is passed to the host, any other that is
supported to the engine; the rest is dropped. -/
def execPtpRx (q : Fin 32) (h : PtpHdr) (phase : BitVec 6) (s : State) : Out :=
  let r := 64 * s.td.raw + phase.toNat
  let t : State := match h.msg with
    | .pdelay => s
    | .management => ({ s with td := { s.td with ptpHost := s.td.ptpHost ++ [q.val] } }).mgmtEvent
    | _ => (s.ptpDeliver q r h.msg h.seq.toNat).syncNoted q.val h.msg
  unlessHalted s .radio (onlyIf (s.ptpUp q && s.regBit (tdPort q) 0 && h.supported) s t)

/-- R275: a Sync leaves: one-step with its own egress time in originTimestamp and the fraction added to
correctionField, or two-step with twoStepFlag and its C and sequenceId in the port's egress-timestamp ring. -/
def execPtpSyncTx (q : Fin 32) (phase : BitVec 6) (seq : BitVec 16) (corr : Int) (s : State) : Out :=
  let r := 64 * s.td.raw + phase.toNat
  let c := c96 (s.txTime q r)
  let one := s.regBit (tdPort q) 2
  let f : PtpFrame :=
    if one then
      { q := q, r := r, c := c, msg := .syncOneStep, seq := seq.toNat, sec := c / 2 ^ 16 / 10 ^ 9 % 2 ^ 48, ns := c / 2 ^ 16 % 10 ^ 9
        corr := corr + (c % 2 ^ 16 : Nat) }
    else { q := q, r := r, c := c, msg := .syncTwoStep, seq := seq.toNat, corr := corr, twoStep := true }
  unlessHalted s .radio (onlyIf (s.ptpUp q && s.regBit (tdPort q) 0) s
    { s with td := { s.td with ptpOut := s.td.ptpOut ++ [f] } })

/-- R276: the residence time of dr raw positions, in 2⁻¹⁶ ns, at the RATE in force. -/
def State.residence (s : State) (dr : Nat) : Int := (dr : Int) * 3125 * (2 ^ 48 + s.td.rate) / (3 * 2 ^ 48)

/-- R276: both ports' TD_PORT_LAT values, in 2⁻¹⁶ ns. -/
def State.tcLat (s : State) (q fwd : Nat) : Int :=
  ((s.regB (tdLat q) 15 0 + s.regB (tdLat fwd) 31 16) * 2 ^ 12 : Nat)

/-- The entries of the 64-entry table of a port (R276). -/
def State.tcOf (s : State) (p : Nat) : List TcEntry := s.td.tc.filter (fun e => e.q / 4 == p)

/-- R276: transparent forwarding of a message that arrived at raw position rIn and leaves now; key joins
sourcePortIdentity, domainNumber and sequenceId.  A table that is full holds no further entry, and a FWD_Q that names no port
forwards nothing (log 46). -/
def execPtpTcForward (q : Fin 32) (msg : PtpMsg) (rIn : BitVec 70) (phase : BitVec 6) (key : BitVec 104) (seq : BitVec 16)
    (corr : Int) (s : State) : Out :=
  let fwd := s.regB (tdPort q) 13 8
  let r := 64 * s.td.raw + phase.toNat
  let extra := s.residence (r - rIn.toNat) + s.tcLat q fwd
  let send (t : State) (c : Int) : State := { t with td := { t.td with ptpFwd := t.td.ptpFwd ++ [{ src := q, dst := fwd, corr := c }] } }
  let mine (e : TcEntry) : Bool := e.q == q.val && e.key == key.toNat
  let t : State := match msg with
    | .delayReq | .syncOneStep => send s (corr + extra)
    | .syncTwoStep =>
      let e : TcEntry := { q := q, key := key.toNat, residence := extra, since := s.td.raw }
      send (if (s.tcOf (q / 4)).length < 64 then { s with td := { s.td with tc := s.td.tc ++ [e] } } else s) corr
    | .followUp =>
      match s.td.tc.find? mine with
      | some e => send { s with td := { s.td with tc := lrmFirst mine s.td.tc } } (corr + e.residence)
      | none => (send s corr).count (tdBlock + 0x068) 1
    | _ => send s corr
  let t := if s.regBit (tdPort q) 0 then t.ptpDeliver q rIn.toNat msg seq.toNat else t
  unlessHalted s .radio
    (onlyIf (s.ptpUp q && decide (fwd < 32) && s.ptpUp fwd && s.regBit (tdPort q) 1 && s.regBit (tdPort q) 14 && decide (rIn.toNat ≤ r)) s t)

/-- R276: entry i of a port's table has stood unmatched for 1 s: it is discarded and counted. -/
def execTcEntryExpire (p : Fin 8) (i : Fin 64) (s : State) : Out :=
  match (s.tcOf p)[i.val]? with
  | none => .next s
  | some e =>
    let t := s.reachRaw (e.since + rawUs 1000000)
    onlyIf (decide (e.since + rawUs 1000000 ≤ t.td.raw)) s
      ({ t with td := { t.td with tc := lrmFirst (· == e) t.td.tc } }.count (tdBlock + 0x068) 1)

/-! ### Strobes and pulses (R279 to R281) -/

/-- The targets of a generator in units of 1/3,072 ns: those of each period after org, or org's alone where
per is none; bounded ones do not reach back before org. -/
structure Targets where
  org : Int
  per : Option Nat
  offs : List Nat
  bounded : Bool

/-- The number of targets at or before x. -/
def Targets.upTo (g : Targets) (x : Int) : Int :=
  match g.per with
  | none => if g.org ≤ x then 1 else 0
  | some p =>
    let n := (x - g.org) / p
    let i := n * g.offs.length + ((g.offs.filter (fun (f : Nat) => decide ((f : Int) ≤ x - g.org - n * p))).length : Nat)
    if g.bounded then max i 0 else i

/-- Target i, counted from 0; none beyond the last. -/
def Targets.at (g : Targets) (i : Int) : Option Int :=
  match g.per with
  | none => if i ≤ 0 then some g.org else none
  | some p =>
    if g.offs.isEmpty then none
    else some (g.org + i / (g.offs.length : Int) * p + (g.offs.getD (i % (g.offs.length : Int)).toNat 0 : Nat))

def stbReg (i o : Nat) : Nat := tdBlock + 0x800 + 0x20 * i + o
def ppsReg (j o : Nat) : Nat := tdBlock + 0x100 + 0x20 * j + o

/-- R285: MODE; 6 and 7 are treated as 0. -/
def State.stbMode (s : State) (i : Nat) : Nat :=
  if s.regB (stbReg i 0) 2 0 < 6 then s.regB (stbReg i 0) 2 0 else 0

/-- TD_PPS_CFG.MODE; 3 is treated as 0. -/
def State.ppsMode (s : State) (j : Nat) : Nat :=
  if s.regB (ppsReg j 0) 1 0 < 3 then s.regB (ppsReg j 0) 1 0 else 0

/-- ONE_SHOT and PERIODIC targets: T0 in ns and the period, 0 for one target. -/
def simpleTargets (t0 per : Nat) : Targets :=
  { org := fine t0, per := if per = 0 then none else some (per * 3072), offs := [0], bounded := true }

/-- R271: offsets of grid points from the frame's start, in units of 1/3,072 ns, with mask selecting symbols. -/
def gridOffs (mu mask : Nat) : List Nat :=
  (List.range (slotsPerFrame mu)).flatMap (fun k =>
    ((List.range 14).filter (fun l => bitOf mask l)).map (fun l => k * slotNs mu * 3072 + symCycles mu l * 3125))

/-- R279: the targets of strobe i in its mode. -/
def State.stbTargets (s : State) (i : Nat) : Targets :=
  let mu := s.regB (stbReg i 0) 3 3
  let grid (offs : List Nat) : Targets :=
    { org := fine (gps0 + s.frameOfs), per := some (10 ^ 7 * 3072), offs := offs, bounded := false }
  match s.stbMode i with
  | 1 => simpleTargets (s.reg64 (stbReg i 8) (stbReg i 12)) 0
  | 2 => simpleTargets (s.reg64 (stbReg i 8) (stbReg i 12)) (s.regN (stbReg i 16))
  | 3 => grid (gridOffs mu (s.regB (stbReg i 0) 29 16))
  | 4 => grid (gridOffs mu 1)
  | _ => grid [0]

/-- R281: the targets of a PPS_OUT. -/
def State.ppsTargets (s : State) (j : Nat) : Targets :=
  simpleTargets (s.reg64 (ppsReg j 4) (ppsReg j 8)) (if s.ppsMode j = 2 then s.regN (ppsReg j 12) else 0)

/-- ADV in units of 1/3,072 ns. -/
def State.stbAdv (s : State) (i : Nat) : Int := fine (ofBits 32 (s.regN (stbReg i 4)))

/-- The last fine time that C has reached. -/
def State.fineNow (s : State) : Int := ((s.now * 3072 / 2 ^ 16 : Nat) : Int)

/-- R280: targets of strobe i whose fire time lies at or before now. -/
def State.stbPassed (s : State) (i : Nat) : Int := (s.stbTargets i).upTo (s.fineNow + s.stbAdv i)

def State.setStb (s : State) (i : Nat) (k : Int) : State := { s with td := { s.td with stb := tset 0 s.td.stb i k } }
def State.setPps (s : State) (j : Nat) (k : Int) : State := { s with td := { s.td with pps := tset 0 s.td.pps j k } }

/-- R281: pin k pulses: WIDTH ns of a PPS_OUT, WIDTH TIDE cycles of a TRIG_OUT, of which 0 acts as 1. -/
def State.pulse (s : State) (k : Nat) : State :=
  let w := tdBlock + 0x0A0 + 4 * (k - 2)
  let x : TdPulse :=
    if k < 2 then { pin := k, raw := s.td.raw, width := s.regN (ppsReg k 16), low := s.regBit (ppsReg k 0) 2 }
    else { pin := k, raw := s.td.raw, width := max 1 (s.regB w 15 8), low := s.regBit w 17 }
  { s with td := { s.td with pulses := s.td.pulses ++ [x] } }

/-- R279, R281: a strobe reaches each unit that selects it: Dibbers, FFT engines and TRIG_OUT pins in output
mode. -/
def State.strobe (s : State) (i : Nat) : State :=
  let sigs := (List.range 48).flatMap (fun c =>
    let w := dbBlock + 0x100 * c
    (if s.regB w 15 8 = i then [2 * c] else []) ++ (if s.regB w 23 16 = i then [2 * c + 1] else []))
  let ffts := (List.range 8).filter (fun e => s.regB (tdBlock + 0x0B0 + 4 * (e / 4)) (8 * (e % 4) + 7) (8 * (e % 4)) == i)
  let pins := (List.range 4).filter (fun k =>
    let w := tdBlock + 0x0A0 + 4 * k
    s.regBit w 18 && !s.regBit w 16 && s.regB w 7 0 == i)
  let t := { s with td := { s.td with
    signals := s.td.signals ++ sigs
    fftStart := ffts.foldl (fun x e => tmod 0 x e (· + 1)) s.td.fftStart } }
  pins.foldl (fun s k => s.pulse (2 + k)) t

/-- R279, R280: the generator fires at target − ADV, for the next of its targets. -/
def execStrobeFire (i : Fin 64) (s : State) : Out :=
  let k := tget 0 s.td.stb i
  match (s.stbTargets i).at k with
  | none => .next s
  | some x =>
    let t := s.reachC (cOfFine (x - s.stbAdv i))
    onlyIf (s.stbMode i != 0 && cPast t.now (x - s.stbAdv i)) s ((t.setStb i (k + 1)).strobe i)

/-- R280: a write of TD_STB_CFG.  MU and SYMMASK are taken only while MODE is OFF; a generator that changes its
mode skips the targets already passed, and a ONE_SHOT that is enabled too late counts once. -/
def execTdStbCfgWrite (m : Agent) (i : Fin 64) (v : Word) (s : State) : Out :=
  let old := s.stbMode i
  let t := if old = 0 then s.setReg (stbReg i 0) (v.toNat &&& 0x3FFF000F) else s.setRegB (stbReg i 0) 2 0 (v.toNat % 8)
  let t' := t.setStb i (t.stbPassed i)
  let late := old == 0 && (t.stbTargets i).per.isNone && t.stbPassed i == 1
  agentIf m (s.stbWriter m) s
    (if t.stbMode i = 0 ∨ t.stbMode i = old then t
     else if late then t'.count (tdBlock + 0x064) 1 else t')

/-- R280: a write of TD_FRAME_OFS moves the grid, and every NR generator restarts from the write; ignored out
of range and while a cell plan is active or pending (R284). -/
def execTdFrameOfsWrite (m : Agent) (v : Word) (s : State) : Out :=
  let x := v.toInt
  let t := s.setReg (tdBlock + 0x00C) v.toNat
  let u := (List.range 64).foldl (fun u i => if 3 ≤ t.stbMode i then u.setStb i (t.stbPassed i) else u) t
  agentIf m (s.tdWriter m && !s.planLoaded && decide (-5000000 ≤ x) && decide (x ≤ 4999999)) s u

/-- R281: a PPS_OUT pin pulses at START, or at START + n × PERIOD. -/
def execPpsOutPulse (j : Fin 2) (s : State) : Out :=
  let k := tget 0 s.td.pps j
  match (s.ppsTargets j).at k with
  | none => .next s
  | some x =>
    let t := s.reachC (cOfFine x)
    onlyIf (s.ppsMode j != 0 && cPast t.now x) s ((t.setPps j (k + 1)).pulse j)

/-- R281: a write of TD_PPS_CFG; a generator that is enabled skips what has passed, uncounted. -/
def execTdPpsCfgWrite (m : Agent) (j : Fin 2) (v : Word) (s : State) : Out :=
  let t := s.setReg (ppsReg j 0) (v.toNat % 8)
  agentIf m (s.tdWriter m) s
    (if t.ppsMode j = 0 ∨ t.ppsMode j = s.ppsMode j then t else t.setPps j ((t.ppsTargets j).upTo t.fineNow))

/-! ### Captures (R282) -/

def capReg (i o : Nat) : Nat := tdBlock + 0x200 + 0x20 * i + o

/-- R282: the edge is the selected one of capture input i. -/
def State.capSelected (s : State) (i : Nat) (falling : Bool) : Bool :=
  if i < 2 then s.regBit (capReg i 0x18) 24 == falling
  else
    let w := tdBlock + 0x0A0 + 4 * (i - 2)
    s.regBit w 18 && s.regBit w 16 && s.regBit w 17 == falling

/-- R282: every DIV-th selected edge is recorded as a raw position and as C; a record not yet taken is
overwritten. -/
def execCaptureEdge (i : Fin 6) (falling : Bool) (phase : BitVec 6) (s : State) : Out :=
  let x := tget {} s.td.cap i
  let div := max 1 (s.regB (capReg i 0x18) 23 0)
  let r := 64 * s.td.raw + phase.toNat
  let st := s.regN (capReg i 0x14)
  let lostOne := bitOf st 31
  let t := { s with td := { s.td with cap := tset {} s.td.cap i { edges := 0, r := r, c := s.cAt r } } }
  let t := t.setReg (capReg i 0x14) (2 ^ 31 + (if lostOne ∨ bitOf st 30 then 2 ^ 30 else 0) + phase.toNat)
  let t := if lostOne then t.count (tdBlock + 0x06C) 1 else t
  let t := if i = 0 then { t with td := { t.td with ppsSeen := s.td.raw } } else t
  onlyIf (s.capSelected i falling) s
    (if x.edges + 1 < div then { s with td := { s.td with
      cap := tset {} s.td.cap i { x with edges := x.edges + 1 }
      ppsSeen := if i = 0 then s.td.raw else s.td.ppsSeen } }
     else t)

/-! ### The barrier (R283) -/

def barCtrl : Nat := tdBlock + 0x080

/-- TD_BAR_T in units of C. -/
def State.barC (s : State) : Int := s.reg64 (tdBlock + 0x084) (tdBlock + 0x088) * 2 ^ 16

/-- ES_CTRL.ENABLE is set as by a write (R70, R73). -/
def State.esEnableSet (s : State) (g : Nat) : State :=
  let e := s.esOf g
  let t := s.setRegB (esReg g 0) 0 0 1
  if e.halt = .aborted ∨ (e.halt = .error ∧ e.errCode = 7) then t.setEs g { e with halt := .none, errCode := 0 } else t

/-- DL_CTRL.ENABLE is set as by a write (R86). -/
def State.dlEnableSet (s : State) (n : Nat) : State :=
  let e := s.dlOf n
  let t := s.setRegB (dlBlock + 0x1000 * n) 0 0 1
  if e.halt = .aborted ∨ (e.halt = .error ∧ e.errCode = 7) then t.setDl n { e with halt := .none, errCode := 0 } else t

/-- Every Pilot core (R97). -/
def allCores : List Nat := (List.range 44).map (0x080 + ·)

/-- R283: ENABLE is set on every masked sequencer, every Pilot core is interrupted, ARM clears and FIRED is set;
LATE as well where the time had passed. -/
def State.barFire (s : State) (late : Bool) : State :=
  let masked (b : Nat) : Bool := s.regBit (tdBlock + 0x08C + 4 * (b / 32)) (b % 32)
  let t := ((List.range 84).filter masked).foldl State.esEnableSet s
  let t := ((List.range 4).filter (fun n => masked (84 + n))).foldl State.dlEnableSet t
  let t := allCores.foldl (fun t c => t.irqTo c .barrier) t
  t.setReg barCtrl ((s.regN barCtrl &&& 4) ||| (2 + 4 * b2n late))

/-- R283: a write of TD_BAR_CTRL with ARM; a barrier whose time has passed fires at once and late. -/
def execBarrierArm (m : Agent) (v : Word) (s : State) : Out :=
  let t := s.setReg barCtrl ((s.regN barCtrl &&& (6 - (v.toNat &&& 6))) + v.toNat % 2)
  agentIf m (s.stbWriter m) s (if v.toNat % 2 = 1 ∧ s.barC < s.now then t.barFire true else t)

/-- R283: T reaches TD_BAR_T. -/
def execBarrierFire (s : State) : Out :=
  let t := s.reachC s.barC
  onlyIf (s.regBit barCtrl 0 && t.past s.barC) s (t.barFire false)

end Sys2Proof.Machine
end

