-- ==== Sys2Proof/Machine/Zelic.lean ====
section
/-! DEFINITION.  Chapter 13: the Zelic fabric: links, requests at their target, responses at their issuer, Locks. -/

namespace Sys2Proof.Machine

/-! ### The quay table (R294 to R296) -/

/-- R294: fields of a quay entry. -/
structure QtEntry where
  job : Nat
  r : Bool
  w : Bool
  a : Bool
  valid : Bool
  src : Nat
  any : Bool
  far : Bool
  len : Nat
  base : Nat
  farJob : Nat
  farModule : Nat
  deriving DecidableEq, Repr

def QtEntry.parse (x : Nat) : QtEntry :=
  { job := bitsOf x 19 0, r := bitOf x 28, w := bitOf x 29, a := bitOf x 30, valid := bitOf x 31, src := bitsOf x 39 32
    any := bitOf x 40, far := bitOf x 41, len := bitsOf x 127 64, base := bitsOf x 175 128, farJob := bitsOf x 211 192
    farModule := bitsOf x 219 212 }

/-- R296: the entry that serves a segment for a job: the cached copy of that job, else the table, which is then cached
where it serves the job; the oldest of 1,024 gives way (log 52). -/
def State.quay (s : State) (seg job : Nat) : State × Option QtEntry :=
  match s.zl.qt.find? (fun c => c.seg == seg && (QtEntry.parse c.raw).job == job) with
  | some c => (s, some (QtEntry.parse c.raw))
  | none =>
    let raw := s.loadNat (0x03800E000000 + 32 * seg) 32
    let e := QtEntry.parse raw
    if e.valid ∧ e.job = job then
      let others := s.zl.qt.filter (fun c => c.seg != seg)
      let kept := if others.length < 1024 then others else others.drop 1
      ({ s with zl := { s.zl with qt := kept ++ [{ seg := seg, raw := raw }] } }, some e)
    else (s, none)

/-- R300: the address of an arrival counter. -/
def counterAt (i : Nat) : Nat := 0x03800E200000 + 32 * i

/-- R300: counter i is VALID and belongs to the job. -/
def State.counterOk (s : State) (i job : Nat) : Bool :=
  let w := s.loadNat (counterAt i) 4
  i == noCounter || (bitOf w 31 && bitsOf w 19 0 == job)

/-- R294: the right a request needs. -/
def QtEntry.grants (e : QtEntry) (typ : Nat) : Bool :=
  if typ = 1 ∨ typ = 9 then e.r else if typ = 5 then e.a else e.w

/-- Where a request leads that passes R295: a device address here, or a FAR segment. -/
inductive QtGo where
  | refuse (status : Nat)
  | here (a : Nat)
  | far (e : QtEntry) (off : Nat)
  deriving DecidableEq, Repr

/-- R295 steps 5 to 10, for requests that name a segment; the counter of a GET is checked by its issuer (R300), and that of
a request that crosses a Lock at its final destination (R311). -/
def State.quayCheck (s : State) (m : ZlMsg) : State × QtGo :=
  let off := m.qaddr % 2 ^ 32
  match s.quay (m.qaddr / 2 ^ 32) m.job with
  | (s, none) => (s, .refuse 1)
  | (s, some e) =>
    (s, if !e.any && e.src != m.src then .refuse 2
      else if !e.grants m.typ then .refuse 2
      else if e.len < off + m.span then .refuse 3
      else if e.far then .far e off
      else if m.typ = 7 ∧ s.counterOk m.index m.job = false then .refuse 2
      else
        let a := e.base / 64 * 64 + off
        if spanOk a m.span then .here a else .refuse 4)

/-- R297: an island of the range is not ON. -/
def State.rangeOff (s : State) (a n : Nat) : Bool := !s.rangeOk a n

/-! ### Arrival counters (R300) -/

/-- R300: bytes are counted; the counter fires once when VALUE reaches THRESH while ARMED. -/
def State.countArrival (s : State) (i n : Nat) : State :=
  if i = noCounter then s
  else
    let a := counterAt i
    let v := (s.loadNat (a + 8) 8 + n) % 2 ^ 64
    let t := s.storeNat (a + 8) 8 v
    let w := t.loadNat a 4
    if bitOf w 30 ∧ t.loadNat (a + 16) 8 ≤ v then
      let act := t.loadNat (a + 4) 4
      let u := (t.storeNat a 4 (withBits w 30 30 0)).storeNat (a + 24) 8 t.T
      let u := if bitOf act 8 ∧ bitsOf act 5 0 < 44 then u.irqTo (0x080 + bitsOf act 5 0) .other else u
      if bitOf act 9 then u.mgmtEvent else u
    else t

/-! ### Requests at the target (R295 to R301) -/

/-- A refusal is counted (R295). -/
def State.zlRefuse (s : State) (via : Option Nat) (m : ZlMsg) (status : Nat) : State :=
  (s.count zlQtRefuse 1).zlRespond via (s.zlReply via m status)

/-- R297: the status of a write that would leave part of an uncorrectable word. -/
def State.partBad (s : State) (a n : Nat) : Bool :=
  (a % 8 != 0 && s.wordBad (s.key (a / 8 * 8))) ||
  ((a + n) % 8 != 0 && s.wordBad (s.key ((a + n) / 8 * 8)))

/-- R99, R297: a write whose words numbered in `lost` lose a collision, and whether one of them is not written. -/
def State.zlStoreLost (s : State) (a : Nat) (bs : List Byte) (lost : List (Fin 513)) : State × Bool :=
  let ws := lost.map (fun l => (BitVec.ofNat 48 (a / 8 * 8 + 8 * l.val) : PAddr))
  (s.storeLost 0x122 a bs ws, losesWord a bs ws)

/-- R297: a STORE or PUT_DATA is performed: its state and its status. -/
def State.zlWrite (s : State) (a : Nat) (bs : List Byte) (lost : List (Fin 513)) : State × Nat :=
  if s.rangeOff a bs.length then (s, 0xB)
  else
    let ecc := s.partBad a bs.length
    let s := if ecc then (s.noteReads 0x122 a 1).noteReads 0x122 (a + bs.length - 1) 1 else s
    let r := s.zlStoreLost a bs lost
    (r.1, if ecc then 5 else if r.2 then 0xA else 0)

/-- R297: a LOAD_REQ or GET_REQ is performed: its state, its status and the bytes. -/
def State.zlRead (s : State) (a n : Nat) : State × Nat × List Byte :=
  if s.rangeOff a n then (s, 0xB, List.replicate n 0xFF)
  else
    let t := s.noteReads 0x122 a n
    if s.rangeBad a n then (t, 5, List.replicate n 0xFF) else (t, 0, s.load a n)

/-- R298: the operations from 0x6 on: the value stored, none where a compare fails. -/
def zlAtomicOp (subop prior operand cmp : Nat) : Option Nat :=
  let w := if subop ∈ [7, 9, 11, 13, 15] then 64 else 32
  let x := operand % 2 ^ w
  let less (a b : Nat) : Bool := if subop < 12 then decide (ofBits w a < ofBits w b) else decide (a < b)
  match subop with
  | 6 | 7 => if prior = cmp % 2 ^ w then some x else none
  | 8 | 9 | 12 | 13 => if less x prior then some x else none
  | _ => if less prior x then some x else none

/-- R298: an atomic at the target: its state, its status and the prior value. -/
def State.zlAtomic (s : State) (a : Nat) (m : ZlMsg) : State × Nat × Nat :=
  let k := s.key (a / 8 * 8)
  let d := match place a with
    | .hbm h _ => Die.ofIndex (h / 2)
    | .sram d _ => d
    | _ => .hd
  if m.subop = 0 ∨ a % m.span ≠ 0 then (s, 8, 0)
  else if s.addrStatus a ≠ .ok then (s, 0xB, 0)
  else if m.subop < 6 then
    let r := s.doAtomic d 0x122 k a m.subop (BitVec.ofNat 64 m.operand)
    match r.2.1 with
    | .ok | .corrected => (r.1, 0, r.2.2.toNat)
    | .detFault => (r.1, 7, 0)
    | .ecc => (r.1, 5, 0)
    | _ => (r.1, 8, 0)
  else
    let r := s.readWord 0x122 k
    if r.2.1 = .ecc then (r.1, 5, 0)
    else
      let lo := if m.span = 8 then 0 else 32 * (a / 4 % 2)
      let prior := bitsOf r.2.2.toNat (lo + 8 * m.span - 1) lo
      match zlAtomicOp m.subop prior m.operand (leNat m.data) with
      | some v => (r.1.putWord k (BitVec.ofNat 64 (withBits r.2.2.toNat (lo + 8 * m.span - 1) lo v)), 0, prior)
      | none => (r.1, 0, prior)

/-! ### Locks (R310 to R312) -/

def lkRefused : Nat := lkBlock + 0x010
def lkFlushes : Nat := lkBlock + 0x014

/-- R311: the buffer goes out as one PUT_DATA with no counter. -/
def State.flushBuf (s : State) (b : ZlBuf) : State :=
  let m : ZlMsg :=
    { typ := 7, cls := b.cls, dst := b.farModule, qaddr := b.start, len := b.data.length, index := noCounter, data := b.data }
  let t := { s with zl := { s.zl with bufs := lrmFirst (· == b) s.zl.bufs } }
  (t.count lkFlushes 1).zlHold (.req (.lock b.seg b.farJob) m b.stores)

/-- R311: the buffer of an issuer and segment.  DEDUCED (log 53): a Lock tells issuers apart by their module, job and
link. -/
def ZlBuf.isOf (via : Option Nat) (m : ZlMsg) (b : ZlBuf) : Bool :=
  b.via == via && b.src == m.src && b.job == m.job && b.seg == m.qaddr / 2 ^ 32

/-- Flush what an issuer has gathered for a segment. -/
def State.flushOf (s : State) (via : Option Nat) (m : ZlMsg) : State :=
  (s.zl.bufs.filter (ZlBuf.isOf via m)).foldl State.flushBuf s

/-- R311: a store is gathered, piece by piece within the 4 KiB blocks of the far quay address; a buffer that is full or not
contiguous is sent.  The store is answered with the buffer that holds its last byte. -/
def State.gather (s : State) (via : Option Nat) (m : ZlMsg) (e : QtEntry) (far : Nat) (bs : List Byte) : Nat → State
  | 0 => s
  | fuel + 1 =>
    if bs.isEmpty then s
    else
      let old := s.zl.bufs.find? (ZlBuf.isOf via m)
      let s := match old with
        | some b => if b.start + b.data.length = far ∧ b.cls = m.cls then s else s.flushBuf b
        | none => s
      let b := (s.zl.bufs.find? (ZlBuf.isOf via m)).getD
        { via := via, src := m.src, job := m.job, seg := m.qaddr / 2 ^ 32, cls := m.cls, farModule := e.farModule
          farJob := e.farJob, start := far, since := s.td.raw }
      let n := min bs.length (4096 - far % 4096)
      let b' := { b with
        data := b.data ++ bs.take n
        stores := if n = bs.length then b.stores ++ [{ via := via, msg := m }] else b.stores }
      let t := { s with zl := { s.zl with bufs := lrmFirst (ZlBuf.isOf via m) s.zl.bufs ++ [b'] } }
      let full := decide (4096 ≤ b'.data.length) || (far + n) % 4096 == 0
      (if full then t.flushBuf b' else t).gather via m e (far + n) (bs.drop n) fuel

/-- R310 to R312, R316: a request that hits a FAR segment. -/
def State.zlFar (s : State) (via : Option Nat) (m : ZlMsg) (e : QtEntry) (off : Nat) : State :=
  let far := (e.base + off) % 2 ^ 48
  let iss : ZlIss := .lock (m.qaddr / 2 ^ 32) e.farJob
  if !s.regBit lkBlock 31 then s.zlRefuse via m 0x13
  else if m.typ = 5 then (s.count lkRefused 1).zlRespond via (s.zlReply via m 9)
  else if m.typ = 3 then s.gather via m e far m.data 4
  else
    let leg : ZlMsg :=
      { typ := if m.typ = 7 then 7 else 9, cls := m.cls, dst := e.farModule, qaddr := far, len := m.len
        index := if m.typ = 1 then noCounter else m.index, data := m.data }
    (s.flushOf via m).zlHold (.req iss leg [{ via := via, msg := m }])

/-- R310, R311: the far leg is answered: its requests are answered with its status, and with its data where they read. -/
def State.lockAnswer (s : State) (o : ZlOrig) (status : Nat) (data : List Byte) : State :=
  let r := s.zlReply o.via o.msg status
  let reads := o.msg.typ == 1 || o.msg.typ == 9
  s.zlRespond o.via (if reads then { r with len := data.length, data := data } else r)

/-! ### What each request does at its target -/

/-- LOAD_REQ and GET_REQ. -/
def State.zlReadReq (s : State) (via : Option Nat) (m : ZlMsg) : State :=
  if !m.valid then s.zlRefuse via m 8
  else
    match s.quayCheck m with
    | (s, .refuse c) => s.zlRefuse via m c
    | (s, .far e off) => s.zlFar via m e off
    | (s, .here a) =>
      let r := s.zlRead a m.len
      r.1.zlRespond via { r.1.zlReply via m r.2.1 with len := m.len, data := r.2.2 }

/-- STORE. -/
def State.zlStoreReq (s : State) (via : Option Nat) (m : ZlMsg) (lost : List (Fin 513)) : State :=
  if !m.valid then s.zlRefuse via m 8
  else
    match s.quayCheck m with
    | (s, .refuse c) => s.zlRefuse via m c
    | (s, .far e off) => s.zlFar via m e off
    | (s, .here a) =>
      let r := s.zlWrite a m.data lost
      r.1.zlRespond via (r.1.zlReply via m r.2)

/-- PUT_DATA: the chunk is written and then counted. -/
def State.zlPutReq (s : State) (via : Option Nat) (m : ZlMsg) (lost : List (Fin 513)) : State :=
  if !m.valid then s.zlRefuse via m 8
  else
    match s.quayCheck m with
    | (s, .refuse c) => s.zlRefuse via m c
    | (s, .far e off) => s.zlFar via m e off
    | (s, .here a) =>
      let r := s.zlWrite a m.data lost
      let t := if r.2 = 0 then r.1.countArrival m.index m.len else r.1
      t.zlRespond via (t.zlReply via m r.2)

/-- R308: a reply other than BUSY is cached by its arrival link. -/
def State.cacheReply (s : State) (via : Option Nat) (m r : ZlMsg) : State :=
  match via with
  | none => s
  | some z =>
    if r.status = 6 then s
    else { s with zl := { s.zl with rc := tmod [] s.zl.rc z (fun l =>
      l ++ [{ src := m.src, tag := m.tag, gen := m.gen, made := s.td.raw, reply := r }]) } }

/-- R308, R309: an atomic or trigger is answered from the reply cache, or BUSY in the window after ENABLE or where the
cache of its link is full, or else performed once and its reply cached. -/
def State.zlOnce (s : State) (via : Option Nat) (m : ZlMsg) (perform : State → State × ZlMsg) : State :=
  let cache := match via with
    | some z => tget [] s.zl.rc z
    | none => []
  if !m.valid then s.zlRefuse via m 8
  else if s.zl.busyFrom.isSome then s.zlRespond via (s.zlReply via m 6)
  else
    match cache.find? (fun c => c.src == m.src && c.tag == m.tag && c.gen == m.gen) with
    | some c => (s.count zlRcHit 1).zlRespond via c.reply
    | none =>
      if 8192 ≤ cache.length then (s.count zlRcBusy 1).zlRespond via (s.zlReply via m 6)
      else
        let r := perform s
        (r.1.cacheReply via m r.2).zlRespond via r.2

/-- ATOMIC_REQ. -/
def State.zlAtomicReq (s : State) (via : Option Nat) (m : ZlMsg) : State :=
  s.zlOnce via m (fun s =>
    match s.quayCheck m with
    | (s, .refuse c) => (s.count zlQtRefuse 1, s.zlReply via m c)
    | (s, .far _ _) =>
      if s.regBit lkBlock 31 then (s.count lkRefused 1, s.zlReply via m 9)
      else (s.count zlQtRefuse 1, s.zlReply via m 0x13)
    | (s, .here a) =>
      let r := s.zlAtomic a m
      (r.1, { r.1.zlReply via m r.2.1 with operand := r.2.2 }))

/-- R301: the entry of a routine. -/
def routineAt (i : Nat) : Nat := 0x03800E220000 + 32 * i

/-- R301: a TRIGGER that passes its checks: BUSY where the queue is full, else a record is queued and the core
interrupted. -/
def State.zlTrigger (s : State) (via : Option Nat) (m : ZlMsg) : State × ZlMsg :=
  let a := routineAt m.index
  let w := s.loadNat a 4
  let prod := s.loadNat (a + 16) 2
  let cons := s.loadNat (a + 18) 2
  let size := 2 ^ s.loadNat (a + 5) 1
  if !(bitOf w 31 && bitsOf w 19 0 == m.job) then (s.count zlQtRefuse 1, s.zlReply via m 1)
  else if size ≤ (prod + 2 ^ 16 - cons) % 2 ^ 16 then (s, s.zlReply via m 6)
  else
    let rec_ := leBytes 1 m.src ++ leBytes 3 m.job ++ leBytes 4 (m.tag + m.gen * 2 ^ 17) ++ leBytes 8 0 ++ m.data
    let t := (s.store (s.loadNat (a + 8) 8 + 64 * (prod % size)) rec_).storeNat (a + 16) 2 (prod + 1)
    (t.irqTo (0x080 + s.loadNat (a + 4) 1) .trigger, t.zlReply via m 0)

/-- TRIGGER. -/
def State.zlTriggerReq (s : State) (via : Option Nat) (m : ZlMsg) : State :=
  s.zlOnce via m (fun s => s.zlTrigger via m)

/-! ### Responses at the issuer (R291, R307) -/

/-- R307: the request that a response answers; none where it is stale. -/
def State.answers (s : State) (m : ZlMsg) : Option ZlReq :=
  match (s.tagOf m.tag).req with
  | some r => if r.msg.gen = m.gen ∧ r.msg.typ + 1 = m.typ then some r else none
  | none => none

/-- The response completes its request. -/
def State.zlComplete (s : State) (m : ZlMsg) (r : ZlReq) (status : Nat) : State :=
  let t := s.releaseTag m.tag r
  let u := match r.iss, r.copy with
    | .lock _ _, _ => r.origs.foldl (fun (t : State) o => t.lockAnswer o status m.data) t
    | _, some id => t.copyAnswer id status
    | _, none =>
      t.zlDone { iss := r.iss, typ := r.msg.typ, tag := m.tag, status := status, err := m.err, prior := m.operand
                 data := if r.msg.typ = 1 then m.data else [] }
  u.zlPump

/-- A stale response is dropped and counted (R307). -/
def State.zlResponse (s : State) (m : ZlMsg) (k : State → ZlReq → State) : State :=
  match s.answers m with
  | none => s.count zlStale 1
  | some r => k s r

/-- LOAD_RSP, STORE_ACK and PUT_ACK. -/
def State.zlAck (s : State) (m : ZlMsg) : State := s.zlResponse m (fun s r => s.zlComplete m r m.status)

/-- R308: ATOMIC_RSP and TRIG_ACK: BUSY is no final status. -/
def State.zlOnceRsp (s : State) (m : ZlMsg) : State :=
  s.zlResponse m (fun s r =>
    if m.status = 6 then s.setTag m.tag { s.tagOf m.tag with req := some { r with busy := r.busy + 1 } }
    else s.zlComplete m r m.status)

/-- R299, R300: GET_DATA: the issuer checks its counter, writes the chunk and counts it where the write succeeds (log
160). -/
def State.zlGetData (s : State) (m : ZlMsg) : State :=
  s.zlResponse m (fun s r =>
    if m.status ≠ 0 then s.zlComplete m r m.status
    else if r.iss.isLock then s.zlComplete m r 0
    else if s.counterOk m.index m.job = false then s.zlComplete m r 2
    else
      let w := s.zlWrite r.dst m.data []
      if w.2 = 0 then (w.1.countArrival m.index m.data.length).zlComplete m r 0 else w.1.zlComplete m r w.2)

/-! ### Arrival (R291, R292, R452) -/

/-- R430: a heartbeat store, which a stop lets through (R451). -/
def State.isHeartbeat (s : State) (m : ZlMsg) : Bool :=
  m.typ == 3 && m.cls == 0 &&
  match (s.quayCheck m).2 with
  | .here a => decide (0x03800E230000 ≤ a) && decide (a < 0x03800E230200)
  | _ => false

/-- What a message that has arrived for this module does. -/
def State.zlDeliver (s : State) (via : Option Nat) (m : ZlMsg) (lost : List (Fin 513)) : State :=
  match m.typ with
  | 1 | 9 => s.zlReadReq via m
  | 3 => s.zlStoreReq via m lost
  | 5 => s.zlAtomicReq via m
  | 7 => s.zlPutReq via m lost
  | 11 => s.zlTriggerReq via m
  | 6 | 12 => s.zlOnceRsp m
  | 10 => s.zlGetData m
  | _ => s.zlAck m

/-- R302: the message of this module's own is the next that it may perform: no earlier request of its issuer and class to
this module still waits; responses and retries go in any order. -/
def State.loopNext (s : State) (m : ZlMsg) : Bool :=
  let iss (x : ZlMsg) : Option ZlIss := (s.tagOf x.tag).req.map (·.iss)
  m.isRequest = false || 0 < m.retry ||
    (s.zl.loop.takeWhile (· != m)).all (fun x =>
      !(x.isRequest && x.retry == 0 && x.cls == m.cls &&
        (match iss x, iss m with
        | some a, some b => a.same b
        | _, _ => false)))

/-- R289: the message is one that can arrive: it comes on an UP link, or from this module itself in its turn, and its data
is as long as LEN says. -/
def State.zlCanArrive (s : State) (via : Option Nat) (m : ZlMsg) : Bool :=
  s.zlOn && m.data.length == m.carried &&
  match via with
  | some z => s.linkUp z
  | none => s.zl.loop.contains m && s.loopNext m

/-- R292: AGE with the delay of the link the message arrived on. -/
def State.aged (s : State) (via : Option Nat) (m : ZlMsg) : ZlMsg :=
  match via with
  | some z => { m with age := min 65535 (m.age + s.regB (linkReg z 0xC) 15 0) }
  | none => m

/-- R291, R292, R452: a message of one type reaches this module as target or issuer: it is too old, or captured by a stop,
or delivered. -/
def State.zlArrive (s : State) (via : Option (Fin 36)) (f : ZlFrame) (typ : Nat) (lost : List (Fin 513)) : Out :=
  let v := via.map (·.val)
  let bs := leBytes 32 f.hdr.toNat ++ f.data
  let m := match v with
    | some _ => f.parse
    | none => (s.zl.loop.find? (fun x => x.bytes == bs)).getD f.parse
  let a := s.aged v m
  let t := { s with zl := { s.zl with loop := if via.isNone then lrmFirst (· == m) s.zl.loop else s.zl.loop } }
  onlyIf (s.zlCanArrive v m && m.typ == typ && m.dst == s.moduleId (s.sideOf v)) s
    (if 40000 < a.age then t.count zlAgeDrop 1
     else if s.obs.stopped ∧ s.isHeartbeat m = false then
       (if s.obs.captured then t else t.capture (.zelic v a) true a.src a.cls a.bytes)
     else (if via.isSome then t.traceZl 0x11 a a.src else t).zlDeliver v a lost)

/-- R295: a LOAD_REQ is checked against the quay table and answered with LOAD_RSP. -/
def execZlLoadReq (via : Option (Fin 36)) (f : ZlFrame) (s : State) : Out := s.zlArrive via f 1 []
def execZlLoadRsp (via : Option (Fin 36)) (f : ZlFrame) (s : State) : Out := s.zlArrive via f 2 []
/-- R297: a STORE; lost names the words that lose a write collision. -/
def execZlStore (via : Option (Fin 36)) (f : ZlFrame) (lost : List (Fin 513)) (s : State) : Out := s.zlArrive via f 3 lost
def execZlStoreAck (via : Option (Fin 36)) (f : ZlFrame) (s : State) : Out := s.zlArrive via f 4 []
def execZlAtomicReq (via : Option (Fin 36)) (f : ZlFrame) (s : State) : Out := s.zlArrive via f 5 []
def execZlAtomicRsp (via : Option (Fin 36)) (f : ZlFrame) (s : State) : Out := s.zlArrive via f 6 []
def execZlPutData (via : Option (Fin 36)) (f : ZlFrame) (lost : List (Fin 513)) (s : State) : Out := s.zlArrive via f 7 lost
def execZlPutAck (via : Option (Fin 36)) (f : ZlFrame) (s : State) : Out := s.zlArrive via f 8 []
def execZlGetReq (via : Option (Fin 36)) (f : ZlFrame) (s : State) : Out := s.zlArrive via f 9 []
def execZlGetData (via : Option (Fin 36)) (f : ZlFrame) (s : State) : Out := s.zlArrive via f 10 []
def execZlTrigger (via : Option (Fin 36)) (f : ZlFrame) (s : State) : Out := s.zlArrive via f 11 []
def execZlTrigAck (via : Option (Fin 36)) (f : ZlFrame) (s : State) : Out := s.zlArrive via f 12 []

/-- R291: the type codes that a message may have. -/
def zlTypes : List Nat := [1, 2, 3, 4, 5, 6, 7, 8, 9, 10, 11, 12, 16]

/-- R291: a message with any other type code is dropped and counted. -/
def execZlBadType (z : Fin 36) (f : ZlFrame) (s : State) : Out :=
  onlyIf (s.zlOn && s.linkUp z && !zlTypes.contains f.parse.typ) s (s.count zlRouteDrop 1)

/-- R289, R292: a message for another module goes on toward it, or is dropped. -/
def execZlForward (z : Fin 36) (f : ZlFrame) (s : State) : Out :=
  let m := f.parse
  let a := s.aged (some z) m
  let far := s.lockSide z
  let t := if 40000 < a.age then s.count zlAgeDrop 1
    else match s.route far m.dst with
    | some r => if s.linkUp r then s.zlSend { link := r, queue := m.cls, msg := a, fwd := some s.td.raw }
      else s.count zlRouteDrop 1
    | none => s.count zlRouteDrop 1
  onlyIf (s.zlCanArrive (some z) m && decide (m.typ ≤ 12) && zlTypes.contains m.typ && m.dst != s.moduleId far) s t

/-! ### Links (R287, R288) -/

/-- R288, R315: a write of ZL_LINK_CTRL; LOCK_SIDE is taken only while the link is DISABLED. -/
def execZlLinkCtrlWrite (m : Agent) (z : Fin 36) (v : Word) (s : State) : Out :=
  let x := s.linkOf z
  let t := s.setRegB (linkReg z 0) 0 0 (v.toNat % 2)
  let t := if x.st = .disabled then t.setRegB (linkReg z 0) 1 1 (v.toNat / 2 % 2) else t
  agentIf m (s.tdWriter m) s
    (if v.toNat % 2 = 0 then t.linkLost z .disabled
     else if x.st = .disabled ∧ s.islOn (491 + z.val / 6) = true then t.setLink z { x with st := .training }
     else t)

/-- R288, R289: training completes: the peer's identity and the delay are recorded; a peer with the same MODULE takes the
link DOWN. -/
def execLinkTrained (z : Fin 36) (peerModule : BitVec 8) (peerLink : BitVec 8) (delay : BitVec 16) (s : State) : Out :=
  let x := s.linkOf z
  let t := s.setLink z { st := .up, peerModule := peerModule.toNat, peerLink := peerLink.toNat }
  let t := t.setReg (linkReg z 0xC) delay.toNat
  onlyIf (x.st == .training && s.regBit (linkReg z 0) 0 && s.islOn (491 + z.val / 6)) s
    (if peerModule.toNat = s.moduleId (s.lockSide z) then t.linkDown z else t)

/-- R288: loss of signal or lock. -/
def execLinkLoss (z : Fin 36) (s : State) : Out := onlyIf (s.linkUp z) s (s.linkDown z)

/-- R287: a flit is replayed; consecutive failed replays are counted. -/
def execLinkFlitReplay (z : Fin 36) (ok : Bool) (s : State) : Out :=
  let x := s.linkOf z
  let t := s.setRegB (linkReg z 8) 15 0 (min 0xFFFF (s.regB (linkReg z 8) 15 0 + 1))
  onlyIf (s.linkUp z) s (t.setLink z { x with fails := if ok then 0 else x.fails + 1 })

/-- R287: sixteen consecutive failed replays take the link DOWN. -/
def execLinkReplayLimit (z : Fin 36) (s : State) : Out :=
  onlyIf (s.linkUp z && decide (16 ≤ (s.linkOf z).fails)) s (s.linkDown z)

/-- R277: four raw timestamps of a time exchange, as raw positions: twice the offset to the peer in 2⁻¹⁶ ns, with the fibre
asymmetry of TD_ZL_ASYM taken off. -/
def execZlTimeFlit (z : Fin 36) (t1 t2 t3 t4 : BitVec 70) (s : State) : Out :=
  let d : Int := ((t2.toNat : Int) - t1.toNat) - ((t4.toNat : Int) - t3.toNat)
  let x := d * 3125 / 3 - ofBits 32 (s.regN (tdBlock + 0x500 + 4 * z.val))
  onlyIf (s.linkUp z) s { s with td := { s.td with zlOfs := tset 0 s.td.zlOfs z x } }

/-! ### Issuing (R293, R299, R303) -/

/-- R293: the issuer, with the job identifier of the slot record for the Harbourmaster. -/
def State.issuer (s : State) (i : ZlAgent) : ZlIss :=
  match i with
  | .core k v => .fw k v
  | .harbour n ckpt =>
    let x := s.slotOf n
    .harbour (bitsOf (if ckpt then x.ckptPeer else x.coldPeer) 27 8)

/-- The message of a request. -/
def ZlOp.msg (r : ZlOp) (cls : Fin 4) (dst : BitVec 8) : ZlMsg :=
  let m : ZlMsg := { typ := 0, cls := cls, dst := dst.toNat }
  match r with
  | .load q n => { m with typ := 1, qaddr := q.toNat, len := n }
  | .store q d => { m with typ := 3, qaddr := q.toNat, len := d.length % 2 ^ 13, data := d.take (d.length % 2 ^ 13) }
  | .atomic op q x c =>
    let cas := op.toNat == 6 || op.toNat == 7
    { m with typ := 5, subop := op.toNat, qaddr := q.toNat, operand := x.toNat, len := if cas then 8 else 0
             data := if cas then leBytes 8 c.toNat else [] }
  | .trigger i a => { m with typ := 11, index := i, len := 48, data := leBytes 48 a.toNat }

/-- R293, R303: a request is sent, held behind the issuer's fences, or ends at once. -/
def execZlRequestIssue (i : ZlAgent) (cls : Fin 4) (dst : BitVec 8) (r : ZlOp) (s : State) : Out :=
  unlessHalted s .inference (onlyIf s.zlOn s (s.zlHold (.req (s.issuer i) (r.msg cls dst) [])))

/-- A copy of 1 to 2³² bytes begins. -/
def State.zlCopy (s : State) (i : ZlAgent) (get : Bool) (cls : Fin 4) (dst : BitVec 8) (a : PAddr) (q : BitVec 48)
    (len : Fin 4294967297) (index : Fin 4096) : Out :=
  let c : ZlCopy := { iss := s.issuer i, get := get, left := chunkCount q.toNat len }
  let t := { s with zl := { s.zl with copies := tset none s.zl.copies s.zl.nextCopy (some c), nextCopy := s.zl.nextCopy + 1 } }
  unlessHalted s .inference (onlyIf (s.zlOn && len.val != 0) s
    (t.zlHold (.chunks c.iss get cls dst.toNat a.toNat q.toNat len index s.zl.nextCopy)))

/-- R299: a PUT copy. -/
def execZlCopyPut (i : ZlAgent) (cls : Fin 4) (dst : BitVec 8) (src : PAddr) (q : BitVec 48) (len : Fin 4294967297)
    (index : Fin 4096) (s : State) : Out :=
  s.zlCopy i false cls dst src q len index

/-- R299: a GET copy. -/
def execZlCopyGet (i : ZlAgent) (cls : Fin 4) (dst : BitVec 8) (dest : PAddr) (q : BitVec 48) (len : Fin 4294967297)
    (index : Fin 4096) (s : State) : Out :=
  s.zlCopy i true cls dst dest q len index

/-- R303: a FENCE over a set of classes. -/
def execZlFence (i : ZlAgent) (classes : BitVec 4) (s : State) : Out :=
  unlessHalted s .inference (onlyIf s.zlOn s (s.zlHold (.fence (s.issuer i) classes.toNat)))

/-! ### Timeouts and retries (R305, R307, R308) -/

/-- R97: the master identifier of an issuer. -/
def ZlIss.master : ZlIss → Nat
  | .fw k _ => 0x080 + k.val
  | .harbour _ => 0x121
  | .lock _ _ => 0x123

/-- R305: a TIMEOUT is logged where no fault is held, sets FAULT, interrupts the issuer, signals the PF and is counted. -/
def State.zlFault (s : State) (t : Nat) (r : ZlReq) : State :=
  let u := if s.regBit (zlBlock + 0x010) 31 then s
    else (s.setReg (zlBlock + 0x010) (2 ^ 31 + r.msg.dst * 2 ^ 21 + r.msg.gen * 2 ^ 17 + t)).setReg (zlBlock + 0x014)
      (r.iss.master * 2 ^ 16 + r.msg.typ * 2 ^ 8 + 0x10)
  let u := (u.setRegB (zlBlock + 0x008) 0 0 1).count zlTimeouts 1
  let u := match r.iss with
    | .fw k _ => u.irqTo (0x080 + k.val) .other
    | _ => u
  u.hiErr 2

/-- R305, R314: no response within ZL_TIMEOUT of being sent. -/
def execZlRequestTimeout (tag : Fin 131072) (s : State) : Out :=
  match (s.tagOf tag).req with
  | none => .next s
  | some r =>
    match r.t0 with
    | none => .next s
    | some t0 =>
      let u := s.reachRaw (t0 + s.deadTarget)
      let ok := r.msg.typ == 1 || r.msg.typ == 3 || r.msg.typ == 7 || r.msg.typ == 9
      onlyIf (ok && !s.obs.stopped && decide (t0 + s.deadTarget ≤ u.td.raw)) s ((u.zlFault tag r).zlFail tag r 0x10).zlPump

/-- R306, R308: RETRY 1 to 3 at t₀ + 50, 100 and 150 µs, on the link of the first copy, none while it is DOWN. -/
def execZlAtomicRetry (tag : Fin 131072) (s : State) : Out :=
  match (s.tagOf tag).req with
  | none => .next s
  | some r =>
    match r.t0 with
    | none => .next s
    | some t0 =>
      let n := r.retries + 1
      let u := s.reachRaw (t0 + rawUs (50 * n))
      let t := u.setTag tag { u.tagOf tag with req := some { r with retries := n } }
      let m := { r.msg with retry := n }
      let t := match r.link with
        | some z => if u.linkUp z then t.zlSend { link := z, queue := u.issQueue r.iss m.cls, msg := m } else t
        | none => { t.setTag tag { t.tagOf tag with req := some { r with retries := n, sent := r.sent + 1 } } with
            zl := { t.zl with loop := t.zl.loop ++ [m] } }
      onlyIf ((r.msg.typ == 5 || r.msg.typ == 11) && decide (n ≤ 3) && !s.obs.stopped &&
        decide (t0 + rawUs (50 * n) ≤ u.td.raw)) s t

/-- R308: at t₀ + 200 µs: BUSY where every copy sent drew BUSY, else OUTCOME_UNKNOWN. -/
def execZlAtomicFinal (tag : Fin 131072) (s : State) : Out :=
  match (s.tagOf tag).req with
  | none => .next s
  | some r =>
    match r.t0 with
    | none => .next s
    | some t0 =>
      let u := s.reachRaw (t0 + rawUs 200)
      let t := if r.sent ≤ r.busy then u.zlFail tag r 6 else (u.count zlUnknown 1).zlFail tag r 0x11
      onlyIf ((r.msg.typ == 5 || r.msg.typ == 11) && !s.obs.stopped && decide (t0 + rawUs 200 ≤ u.td.raw)) s t.zlPump

/-- R308: the oldest entry of a link's reply cache has been there for 250 µs. -/
def execZlRcExpire (z : Fin 36) (s : State) : Out :=
  match tget [] s.zl.rc z.val with
  | [] => .next s
  | c :: rest =>
    let u := s.reachRaw (c.made + rawUs 250)
    onlyIf (!s.obs.stopped && decide (c.made + rawUs 250 ≤ u.td.raw)) s
      { u with zl := { u.zl with rc := tset [] u.zl.rc z.val rest } }

/-- R307: a tag's quarantine ends. -/
def execZlTagRelease (tag : Fin 131072) (s : State) : Out :=
  match (s.tagOf tag).quar with
  | none => .next s
  | some q =>
    let u := s.reachRaw q
    onlyIf (!s.obs.stopped && decide (q ≤ u.td.raw)) s (u.setTag tag { u.tagOf tag with quar := none }).zlPump

/-- R311: a Lock's buffer is sent when FLUSH has passed since its first store, or at once for a FENCE held at the Lock. -/
def execLockFlush (i : Fin 65536) (fence : Bool) (s : State) : Out :=
  match s.zl.bufs[i.val]? with
  | none => .next s
  | some b =>
    let due := b.since + ceilDiv (s.regB lkBlock 23 16 * 98304) 1000
    let u := if fence then s else s.reachRaw due
    onlyIf (fence || decide (due ≤ u.td.raw)) s (u.flushBuf b)

/-! ### The ZL block (R296, R309, R315) -/

/-- R296: a write of ZL_QT_INV; ignored while one is in progress. -/
def execZlQtInv (m : Agent) (v : Word) (s : State) : Out :=
  agentIf m (s.tdWriter m && bitOf v.toNat 31 && s.zl.inv.isNone) s
    { s with zl := { s.zl with inv := some (if bitOf v.toNat 30 then none else some (bitsOf v.toNat 15 0)) } }

/-- R296: the invalidation ends. -/
def execZlQtInvDone (s : State) : Out :=
  match s.zl.inv with
  | none => .next s
  | some x =>
    .next { s with zl := { s.zl with
      inv := none
      qt := match x with
        | none => []
        | some seg => s.zl.qt.filter (fun c => c.seg != seg) } }

/-- R296: the cache is emptied every 1.0 ms. -/
def execZlQtSweep (s : State) : Out :=
  let u := s.reachRaw (s.zl.sweepT + rawUs 1000)
  onlyIf (decide (s.zl.sweepT + rawUs 1000 ≤ u.td.raw)) s { u with zl := { u.zl with qt := [], sweepT := u.td.raw } }

/-- R309, R315: a write of ZL_CFG; DOMAIN and MODULE are taken only while ENABLE is 0. -/
def execZlEnable (m : Agent) (v : Word) (s : State) : Out :=
  let on := s.zlOn
  let t := if on then s.setRegB zlBlock 31 31 (v.toNat / 2 ^ 31) else s.setReg zlBlock (v.toNat &&& 0x8000FFFF)
  agentIf m (s.tdWriter m) s
    (if on ∨ v.toNat < 2 ^ 31 then t else { t with zl := { t.zl with busyFrom := some s.td.raw } })

/-- R309: the window of 250 µs ends. -/
def execZlBusyWindowEnd (s : State) : Out :=
  match s.zl.busyFrom with
  | none => .next s
  | some b =>
    let u := s.reachRaw (b + rawUs 250)
    onlyIf (!s.obs.stopped && decide (b + rawUs 250 ≤ u.td.raw)) s { u with zl := { u.zl with busyFrom := none } }

/-- R315: a write of ZL_TIMEOUT outside 5 to 1,000 is ignored. -/
def execZlTimeoutWrite (m : Agent) (v : Word) (s : State) : Out :=
  let x := v.toNat % 2 ^ 10
  agentIf m (s.tdWriter m && decide (5 ≤ x) && decide (x ≤ 1000)) s (s.setReg (zlBlock + 0x004) x)

end Sys2Proof.Machine
end

