-- ==== Sys2Proof/Machine/Egress.lean ====
section
/-! DEFINITION.  Chapter 14: the egress schedulers. -/

namespace Sys2Proof.Machine

/-! ### Entering a queue (R317 to R319, R324) -/

/-- The cell of transmit stream i of the active plan, where it runs and is not a muted standby (R429). -/
def State.txCell (s : State) (i : Nat) : Option Cell :=
  match s.fh.active with
  | some p =>
    match p.txStreams[i]? with
    | some x => if !s.cellUp x.1 || s.muted x.1.cell then none else some x.1
    | none => none
  | none => none

/-- R317: the queue of transmit stream i: FH_TXQ, or queue 1 of its own sub-port where that names another's or the PTP
queue. -/
def State.txQueue (s : State) (i : Nat) (c : Cell) : Nat :=
  let q := s.regB (fhBlock + 0x6000 + 4 * i) 10 0
  let base := match c.sub with
    | some k => 512 * k
    | none => 0
  let other := c.sub.isSome && q / 512 * 512 != base
  2048 * c.port + (if other ∨ q = base then base + 1 else q)

/-- R324: release and deadline of a frame of a stream, in units of 1/3,072 ns. -/
def State.txWindow (s : State) (c : Cell) (kind : Nat) (frame : Nat) (slot sym : Nat) : Int × Int :=
  let t := s.tSym c.mu frame slot sym
  let us (n : Nat) : Int := fine (n * 1000 : Nat)
  match kind with
  | 0 => (t - us (orDefault c.t1aCpUl 470), t - us (orDefault c.t1aCpUl 470) + us 10)
  | 1 => (t - us (orDefault c.t1aCpDl 470), t - us (orDefault c.t1aCpDl 470) + us 10)
  | _ => (t - us c.maxUpUs, t - us c.minUpUs)

/-- R319: a frame gets a descriptor, or its producer waits for one. -/
def State.fhEnqueue (s : State) (key : Nat) (i : EqItem) : State :=
  let p := key / 2048
  if s.fhDescs p < 16384 ∧ s.eg.wait.all (fun x => x.1 / 2048 != p) then s.eqPush key i
  else { s with eg := { s.eg with wait := s.eg.wait ++ [(key, i)] } }

/-- The big-endian 16-bit field at byte a of a frame. -/
def beAt (bs : List Byte) (a : Nat) : Nat := fieldAt bs a 1 * 256 + fieldAt bs (a + 1) 1

/-- R206: the sections of a C-plane frame to send: type 1, or type 3 at a PRACH or NR subcarrier spacing, and no section
extension. -/
def cplaneOk (bs : List Byte) : Bool :=
  let n := fieldAt bs 30 1
  let ext (first len : Nat) : Bool := (List.range n).any (fun k => bitOf (fieldAt bs (first + len * k + 6) 1) 7)
  match fieldAt bs 31 1 with
  | 1 => !ext 34 8
  | 3 => [0, 1, 12, 14].contains (fieldAt bs 34 1 % 16) && !ext 38 12
  | _ => false

/-- R206, R236: a frame to send uses supported options only: at most 9,216 bytes, tagged with its cell's VLAN and priority,
eCPRI over Ethernet with the message type of its plane, and the eAxC of its stream.  PRESUMED (log 156): the places of these
fields are those of IEEE 802.1Q, eCPRI and O-RAN. -/
def txSupported (c : Cell) (eaxc kind : Nat) (bs : List Byte) : Bool :=
  decide (bs.length ≤ 9216) && beAt bs 12 == 0x8100 && beAt bs 14 % 2 ^ 12 == c.vlan && bitsOf (beAt bs 14) 15 13 == c.prio &&
  beAt bs 16 == 0xAEFE && fieldAt bs 19 1 == (if kind = 2 then 0 else 2) && beAt bs 22 == eaxc &&
  (kind == 2 || cplaneOk bs)

/-- The eAxC of transmit stream i of the active plan. -/
def State.txEaxc (s : State) (i : Nat) : Nat :=
  match s.fh.active with
  | some p => ((p.txStreams[i]?).map (·.2)).getD 0
  | none => 0

/-- A frame of a stream, where its cell runs, its port passes frames and its options are supported; none of a slot whose
downlink has no configuration in time (R229). -/
def State.fhStream (s : State) (i kind frame slot sym : Nat) (bytes : List Byte) : Option State :=
  match s.txCell i with
  | none => none
  | some c =>
    let w := s.txWindow c kind frame slot sym
    if s.portUp c.port ∧ s.silent c.cell frame slot = false ∧ txSupported c (s.txEaxc i) kind bytes = true ∧
        ¬ (kind ≠ 0 ∧ s.slotOff c frame slot false = true) then
      some (s.fhEnqueue (s.txQueue i c)
        { len := s.fhLen c.port bytes.length, enq := s.T, rel := some w.1, dead := some w.2
          sym := if kind = 2 then some (c.cell, frame, slot, sym) else none, body := .frame bytes })
    else none

/-- R211: a downlink U-plane frame: the compressed PRBs stand between its headers and its FCS. -/
def State.uplaneFrame (s : State) (i buf start n : Nat) (bytes : List Byte) : List Byte :=
  match s.txCell i with
  | none => bytes
  | some c =>
    bytes.take (bytes.length - 4) ++ s.uplaneBody c.iqwDl buf start n ++ bytes.drop (bytes.length - 4)

/-- R317, R324: a frame, its bytes from destination address to FCS, is enqueued; those of a downlink U-plane frame without
its PRBs, which the device compresses (R211). -/
def execFhTxEnqueue (f : FhTx) (bytes : List Byte) (s : State) : Out :=
  let r : Option State := match f with
    | .ptp q =>
      let p := q.val / 4
      let k := q.val % 4
      if s.portUp p ∧ (k = 0 ∨ s.split p = true) then
        some (s.fhEnqueue (2048 * p + 512 * k) { len := s.fhLen p bytes.length, enq := s.T, body := .frame bytes })
      else none
    | .uplinkC i n k l => s.fhStream i 0 n k l bytes
    | .downlinkC i n k l => s.fhStream i 1 n k l bytes
    | .downlinkU i n k l buf start m => s.fhStream i 2 n k l (s.uplaneFrame i buf.toNat start m bytes)
  unlessHalted s .radio (.next (r.getD s))

/-- R318, R319: message i of those that wait enters its queue, behind every earlier one of it, once the queue has room:
64 KiB of charged length. -/
def execZlTxEnqueue (i : Fin 65536) (s : State) : Out :=
  match s.zl.out[i.val]? with
  | none => .next s
  | some o =>
    let key := 16384 + 256 * o.link + o.queue
    let n := s.zlLen o.link o.msg.body
    let first := (s.zl.out.take i.val).all (fun x => x.link != o.link || x.queue != o.queue)
    onlyIf (first && decide ((s.eqOf key).depth + n ≤ 65536 * 65536)) s
      ({ s with zl := { s.zl with out := s.zl.out.eraseIdx i.val } }.eqPush key { len := n, enq := s.T, body := .zelic o })

/-! ### Release and deadline (R324) -/

/-- R324: the release of the head frame arrives: it is eligible from then on. -/
def execFhTxRelease (p : Fin 8) (q : Fin 2048) (s : State) : Out :=
  match (s.eqOf (EqId.fh p q).key).items.head? with
  | none => .next s
  | some i =>
    match i.rel with
    | none => .next s
    | some x => .next (s.reachC (cOfFine x))

/-- R324: frame i of a queue has not started by its deadline: it is removed and counted. -/
def execFhTxDeadline (p : Fin 8) (q : Fin 2048) (i : Fin 16384) (s : State) : Out :=
  let key := (EqId.fh p q).key
  match (s.eqOf key).items[i.val]? with
  | none => .next s
  | some x =>
    match x.dead with
    | none => .next s
    | some d =>
      let t := s.reachC (cOfFine d)
      unlessHalted s .radio (onlyIf (cPast t.now d && !(i.val == 0 && s.isSending key)) s
        ((((t.eqDrop key i.val).count fhTxLate 1).symbolLost x.sym).fhAdmit p))

/-! ### Selection (R321) -/

/-- The egress can send: its port passes frames, or its link is UP. -/
def State.egUp (s : State) (e : EgId) : Bool :=
  match e with
  | .fh p k => s.portUp p && !s.fatal && (k.val == 0 || s.split p)
  | .zl z => s.linkUp z && !s.fatal

/-- The PTP queue of a fronthaul egress (R317). -/
def EgId.ptpQueue : EgId → Option Nat
  | .fh p k => some (2048 * p.val + 512 * k.val)
  | .zl _ => none

/-- R430: a heartbeat store of this module. -/
def State.isHeartbeatOut (s : State) (m : ZlMsg) : Bool :=
  m.typ == 3 && m.cls == 0 && m.dst == s.regB (fhBlock + 0x070) 7 0 &&
  m.qaddr == s.regN (fhBlock + 0x074) + s.regB (fhBlock + 0x078) 15 0 * 2 ^ 32

/-- R451: during a stop only forwarded messages and heartbeat stores leave. -/
def State.mayLeave (s : State) (b : EqBody) : Bool :=
  !s.obs.stopped || match b with
    | .frame _ => !s.halted .radio
    | .zelic o => o.fwd.isSome || s.isHeartbeatOut o.msg

/-- R321, R324: the queue's head is present, released, not past its deadline and may leave, and the credit is at least 0. -/
def State.eligible (s : State) (ptp : Bool) (key : Nat) : Bool :=
  match (s.eqOf key).items.head? with
  | none => false
  | some i => s.released i && !s.late i && s.mayLeave i.body && (ptp || s.unshaped key || decide (0 ≤ (s.creditNow key).credit))

/-- R321: the least start tag of a list of queues in rising order; equal tags go to the lower. -/
def State.leastTag (s : State) : List Nat → Option Nat
  | [] => none
  | k :: ks =>
    match s.leastTag ks with
    | some b => if tagBefore (s.eqOf b).s (s.eqOf k).s then some b else some k
    | none => some k

/-- R321: the choice among an egress's queues; the Bool says the PTP queue. -/
def State.egChoice (s : State) (e : EgId) : Option (Nat × Bool) :=
  let ptp := match e.ptpQueue with
    | some k => if s.eligible true k then some k else none
    | none => none
  match ptp with
  | some k => some (k, true)
  | none =>
    let qs := (s.eqBusy e.key).filter (fun k => some k != e.ptpQueue && s.eligible false k)
    match (List.range 4).findSome? (fun p => s.leastTag (qs.filter (fun k => s.eqPrio k == p))) with
    | some k => some (k, false)
    | none => none

/-- ns of a number of TIDE cycles, rounded down. -/
def nsOfCycles (n : Nat) : Nat := n * 3125 / 3072

/-- R292, R305, R308: a message starts: a forwarded one has aged by its residence, and is dropped where too old; an own
request's first copy sets t₀, and each copy is counted. -/
def State.zlStart (s : State) (key : Nat) (o : ZlOut) : Option State :=
  match o.fwd with
  | some r0 =>
    let age := min 65535 (o.msg.age + nsOfCycles (s.td.raw - r0))
    if 40000 < age then none
    else
      let x := s.eqOf key
      some (s.setEq key { x with items := x.items.mapIdx (fun i y =>
        if i = 0 then { y with body := .zelic { o with msg := { o.msg with age := age } } } else y) })
  | none =>
    let t := s.traceZl 0x10 o.msg o.msg.dst
    if o.msg.isRequest = false then some t
    else
      match (t.tagOf o.msg.tag).req with
      | none => some t
      | some r =>
        some (t.setTag o.msg.tag { t.tagOf o.msg.tag with req := some { r with
          t0 := if o.msg.retry = 0 then some s.td.raw else r.t0
          sent := r.sent + 1 } })

/-- R321, R322: the free egress starts a frame. -/
def execEgressSelect (e : EgId) (s : State) : Out :=
  match s.egChoice e with
  | none => .next s
  | some (k, ptp) =>
    let t := s.creditUp k
    let t := if ptp then t
      else { t with eg := { t.eg with v := tset 0 t.eg.v (4 * e.key + t.eqPrio k) (t.eqOf k).s } }
    let go := t.setSending e.key (some { queue := k, since := t.td.raw })
    let u : State := match ((s.eqOf k).items.head?).map EqItem.body with
      | some (EqBody.zelic o) =>
        match go.zlStart k o with
        | some u => u
        | none => (s.eqDrop k 0).count zlAgeDrop 1
      | _ => go
    onlyIf (s.egUp e && (s.sendingOf e.key).isNone) s u

/-! ### The end of a frame (R322, R323) -/

/-- R320: TIDE cycles to send a charged length. -/
def State.txCycles (s : State) (e len : Nat) : Nat := ceilDiv (len * 6144) (65536 * s.line2 e * 3125)

/-- R323: what the credit is after a frame of a charged length: by exactly L less, and what the rate added back. -/
def State.creditSent (s : State) (key len : Nat) : Int :=
  let x := s.eqOf key
  if s.eqRate key = 0 then x.credit
  else x.credit + (s.eqRate key * len * 6 / (8000 * s.line2 (s.egOf key)) : Nat) - (3 * len : Nat)

/-- R322, R323: the frame has been sent; the queue's credit is settled and its next frame is the head. -/
def execEgressTxEnd (e : EgId) (s : State) : Out :=
  match s.sendingOf e.key with
  | none => .next s
  | some x =>
    match (s.eqOf x.queue).items with
    | [] => .next (s.setSending e.key none)
    | i :: rest =>
      let due := x.since + s.txCycles e.key i.len
      let t := s.reachRaw due
      let c := s.creditSent x.queue i.len
      let q := { s.eqOf x.queue with items := rest, credit := if rest.isEmpty ∧ 0 < c then 0 else c, at_ := t.td.raw }
      let t := ((t.setSending e.key none).setEq x.queue q).tagHead x.queue false
      let t : State := match i.body with
        | .frame bs => { t with eg := { t.eg with sent := t.eg.sent ++ [(x.queue, bs)] } }.fhAdmit (x.queue / 2048)
        | .zelic o => { t with zl := { t.zl with wire := t.zl.wire ++ [(o.link, o.msg)] } }
      onlyIf (decide (due ≤ t.td.raw)) s t

/-! ### Sampling (R325, R326) -/

/-- R325: the bin of a value: bin 0 below the unit, bin k from unit · 2^(k − 1) on. -/
def sampleBin (unit x : Nat) : Nat := if x < unit then 0 else min 15 (Nat.log2 (x / unit) + 1)

/-- R325: the depth bin: bin 1 starts at 64 bytes; 1 to 63 bytes, which the table leaves out, count in bin 0 (log 54). -/
def depthBin (bytes : Nat) : Nat := sampleBin 64 bytes

/-- R325: the delay bin. -/
def delayBin (ns : Nat) : Nat := sampleBin 100 ns

/-- R326: the base of the histograms: FH_EG_HIST or ZL_EG_HIST. -/
def State.histBase (s : State) (key : Nat) : Nat :=
  if key < 16384 then s.reg64 (fhBlock + 0x30044) (fhBlock + 0x30048) else s.reg64 (zlBlock + 0x30104) (zlBlock + 0x30108)

/-- SAMPLE of the queue's egress. -/
def State.sampling (s : State) (key : Nat) : Bool :=
  if key < 16384 then s.regBit (fhBlock + 0x30000 + 4 * (key / 2048)) 31
  else s.regBit (zlBlock + 0x30000 + 4 * ((key - 16384) / 256)) 31

/-- R325: the bank atomic ADD_I32 adds 1 to a bin.  DESIGN CHOICE (log 162): its master is the Zelic target, since R97 names
none for a sampler. -/
def State.addBin (s : State) (a : Nat) : State := (s.doAtomic .hd 0x122 (s.key (a / 8 * 8)) a 1 1).1

/-- R325, R326: a queue's depth and delay are sampled into its bins. -/
def execEgressSample (q : EqId) (s : State) : Out :=
  let key := q.key
  let x := s.eqOf key
  let rec_ := s.histBase key + (if key < 16384 then key else key - 16384) * 128
  let delay := match x.items.head? with
    | some i => s.T - i.enq
    | none => 0
  onlyIf (s.sampling key && s.histBase key != 0) s
    ((s.addBin (rec_ + 4 * depthBin (x.depth / 65536))).addBin (rec_ + 64 + 4 * delayBin delay))

/-! ### EQ registers (R322, R323, R328) -/

/-- R328: the PF and RD Pilot cores write the fronthaul queues, the PF and HD Pilot cores the Zelic queues. -/
def State.eqWriter (s : State) (m : Agent) (q : EqId) : Bool :=
  match q with
  | .fh _ _ => (s.isPf m || m.isRd) && s.dieOn .rd
  | .zl _ _ => s.tdWriter m

/-- R322: a write of EQ_CFG; a WEIGHT of 0 is ignored. -/
def execEqCfgWrite (m : Agent) (q : EqId) (v : Word) (s : State) : Out :=
  let w := if v.toNat % 2 ^ 16 = 0 then s.eqWeight q.key else v.toNat % 2 ^ 16
  agentIf m (s.eqWriter m q) s (s.setReg (eqReg q.key 0) (bitsOf v.toNat 17 16 * 2 ^ 16 + w))

/-- R323: a write of EQ_RATE applies from the next clock. -/
def execEqRateWrite (m : Agent) (q : EqId) (v : Word) (s : State) : Out :=
  agentIf m (s.eqWriter m q) s ((s.creditUp q.key).setReg (eqReg q.key 4) v.toNat)

/-- R323: a write of EQ_HICRED clamps the credit at once. -/
def execEqHicredWrite (m : Agent) (q : EqId) (v : Word) (s : State) : Out :=
  let t := (s.creditUp q.key).setReg (eqReg q.key 8) (v.toNat % 2 ^ 24)
  let x := t.eqOf q.key
  agentIf m (s.eqWriter m q) s (t.setEq q.key { x with credit := min x.credit (t.eqHi q.key) })

end Sys2Proof.Machine
end

