-- ==== Sys2Proof/Machine/CodingMath.lean ====
section
/-! DEFINITION.  Chapter 11: the arithmetic of the channel-coding engines.  The procedures of 3GPP that the
spec cites by section (CRC polynomials, scrambling, segmentation, rate matching) are written from
general knowledge (log 24); the base graphs and the polar construction are constants of Config. -/

namespace Sys2Proof.Machine

/-- Bits of a number, most significant of w bits first. -/
def bitsMsb : Nat → Nat → List Bool
  | 0, _ => []
  | w + 1, x => (x / 2 ^ w % 2 == 1) :: bitsMsb w x

/-- A number from bits, most significant first. -/
def msbNat (bs : List Bool) : Nat := bs.foldl (fun n b => 2 * n + b2n b) 0

/-- R245: bit i of a sequence is bit 7 − (i mod 8) of byte i div 8. -/
def unpackBits (n : Nat) (bs : List Byte) : List Bool := (bs.flatMap (fun b => bitsMsb 8 b.toNat)).take n

/-- R245, inverted; the last byte is padded with zeros. -/
def packBits : List Bool → Nat → List Byte
  | _, 0 => []
  | bs, n + 1 => BitVec.ofNat 8 (msbNat ((bs.take 8) ++ List.replicate (8 - (bs.take 8).length) false)) ::
      packBits (bs.drop 8) n

/-- A sequence of bits as bytes. -/
def bitBytes (bs : List Bool) : List Byte := packBits bs (ceilDiv bs.length 8)

/-- The CRC of w bits with the generator whose lower coefficients are poly, from a starting value. -/
def crcBits (w poly init : Nat) (bs : List Bool) : Nat :=
  bs.foldl (fun c b =>
    let top := (c / 2 ^ (w - 1) % 2 == 1) != b
    let c := c * 2 % 2 ^ w
    if top then c ^^^ poly else c) init

/-- TS 38.212 §5.1. -/
def crc24A (bs : List Bool) : Nat := crcBits 24 0x864CFB 0 bs
def crc24B (bs : List Bool) : Nat := crcBits 24 0x800063 0 bs
def crc24C (init : Nat) (bs : List Bool) : Nat := crcBits 24 0xB2B117 init bs
def crc16 (bs : List Bool) : Nat := crcBits 16 0x1021 0 bs
def crc11 (bs : List Bool) : Nat := crcBits 11 0x621 0 bs
def crc6 (bs : List Bool) : Nat := crcBits 6 0x21 0 bs

/-- Steps of a 31-bit shift register: the bits it gives, and what new bit it takes. -/
def goldRun (fb : Nat → Nat) : Nat → Nat → List Bool
  | 0, _ => []
  | n + 1, x => (x % 2 == 1) :: goldRun fb n (x / 2 + fb x % 2 * 2 ^ 30)

/-- TS 38.211 §5.2.1: n bits of the scrambling sequence. -/
def goldSeq (cInit n : Nat) : List Bool :=
  let a := goldRun (fun x => x + x / 8) (1600 + n) 1
  let b := goldRun (fun x => x + x / 2 + x / 4 + x / 8) (1600 + n) (cInit % 2 ^ 31)
  ((a.zip b).map (fun e => e.1 != e.2)).drop 1600

/-! ### LDPC (R248 to R250) -/

/-- Segmentation and rate matching of a transport block. -/
structure LdpcShape where
  bg : Nat
  /-- code blocks -/
  c : Nat
  /-- bits of a block with its CRC, and with its filler -/
  kp : Nat
  z : Nat
  k : Nat
  n : Nat
  ncb : Nat
  /-- B′ is divisible by C and a lifting size exists -/
  ok : Bool
  deriving DecidableEq, Repr

/-- TS 38.212 §5.3.2: the lifting sizes a · 2^j, up to 384, in rising order, with their set index. -/
def liftSizes : List (Nat × Nat) :=
  (List.range 385).flatMap (fun z =>
    ((List.range 8).filter (fun i =>
      (List.range 8).any (fun j => [2, 3, 5, 7, 9, 11, 13, 15].getD i 2 * 2 ^ j == z))).map (fun i => (z, i)))

/-- TS 38.212 §5.2.2 and §5.4.2.1. -/
def ldpcShape (bg a lbrm : Nat) : LdpcShape :=
  let b := a + (if 3824 < a then 24 else 16)
  let kcb := if bg = 0 then 8448 else 3840
  let c := if b ≤ kcb then 1 else ceilDiv b (kcb - 24)
  let bp := if c = 1 then b else b + 24 * c
  let kb := if bg = 0 then 22 else if 640 < b then 10 else if 560 < b then 9 else if 192 < b then 8 else 6
  let kp := bp / c
  let z := ((liftSizes.find? (fun e => decide (kp ≤ kb * e.1))).map (·.1)).getD 0
  let n := if bg = 0 then 66 * z else 50 * z
  { bg := bg, c := c, kp := kp, z := z, k := (if bg = 0 then 22 else 10) * z, n := n
    ncb := if lbrm = 0 then n else min n (lbrm * 3 / (2 * c))
    ok := bp % c == 0 && z != 0 }

/-- TS 38.212 §5.4.2.1: the rate-matched bits of block r. -/
def ldpcE (g qm nl c r : Nat) : Nat :=
  let q := g / (nl * qm)
  if r + q % c < c then nl * qm * (q / c) else nl * qm * ceilDiv q c

/-- TS 38.212 Table 5.4.2.1-2: the starting position of a redundancy version. -/
def LdpcShape.k0 (x : LdpcShape) (rv : Nat) : Nat :=
  let f := if x.bg = 0 then [0, 17, 33, 56].getD rv 0 else [0, 13, 25, 43].getD rv 0
  f * x.ncb / x.n * x.z

/-- R249: filler positions of the circular buffer. -/
def LdpcShape.filler (x : LdpcShape) (p : Nat) : Bool :=
  decide (x.kp - 2 * x.z ≤ p) && decide (p < x.k - 2 * x.z)

/-- TS 38.212 §5.4.2.1: the positions of the e selected bits, filler skipped. -/
def LdpcShape.select (x : LdpcShape) (rv e : Nat) : List Nat :=
  let ring := (List.range x.ncb).map (fun j => (x.k0 rv + j) % x.ncb)
  let live := ring.filter (fun p => !x.filler p)
  (List.range e).map (fun i => live.getD (i % live.length) 0)

/-- TS 38.212 §5.4.2.2: where bit i of the selection stands after interleaving. -/
def ldpcInter (qm e i : Nat) : Nat := i / (e / qm) + i % (e / qm) * qm

/-- R249: add received values into the buffer, saturating at ±127. -/
def addLlr (t : Table Int) (p : Nat) (v : Int) : Table Int :=
  tset 0 t p (clampInt (-127) 127 (tget 0 t p + v)).1

/-- R249: one block's received values, descrambled, dematched into its buffer; filler holds +127. -/
def LdpcShape.dematch (x : LdpcShape) (rv qm : Nat) (vals : List Int) : Table Int :=
  let e := vals.length
  let t := ((x.select rv e).zipIdx).foldl (fun t s => addLlr t s.1 (vals.getD (ldpcInter qm e s.2) 0)) []
  (List.range x.ncb).foldl (fun t p => if x.filler p then tset 0 t p 127 else t) t

/-- An LDPC decode in progress: posteriors by variable, messages by row · 2¹⁶ + check · 128 + column. -/
structure LdpcRun where
  q : Table Int
  m : Table Int
  deriving DecidableEq, Repr

/-- The columns of a base-graph row, with their shifts. -/
def LdpcShape.row (x : LdpcShape) (i : Nat) : List (Nat × Nat) :=
  let set := ((liftSizes.find? (fun e => e.1 == x.z)).map (·.2)).getD 0
  (List.range (x.n / x.z + 2)).filterMap (fun j => (Config.ldpcShift x.bg set i j).map (fun v => (j, v % x.z)))

/-- R250: one check: its inputs, its new messages, and the posteriors they give. -/
def LdpcShape.check (x : LdpcShape) (row : List (Nat × Nat)) (i c : Nat) (s : LdpcRun) : LdpcRun :=
  let key (j : Nat) : Nat := i * 2 ^ 16 + c * 128 + j
  let ins := row.map (fun e =>
    let v := e.1 * x.z + (c + e.2) % x.z
    (e.1, v, tget 0 s.q v - tget 0 s.m (key e.1)))
  ins.foldl (fun s e =>
    let others := ins.filter (fun o => o.1 != e.1)
    let mu := min 63 (others.foldl (fun m o => min m o.2.2.natAbs) 63)
    let neg := (others.filter (fun o => decide (o.2.2 < 0))).length % 2 == 1
    let mag : Int := ((3 * mu + 2) / 4 : Nat)
    let new := if neg then -mag else mag
    { q := tset 0 s.q e.2.1 (clampInt (-511) 511 (e.2.2 + new)).1, m := tset 0 s.m (key e.1) new }) s

/-- R250: every check of a layer, then every layer in rising row order. -/
def LdpcShape.iterate (x : LdpcShape) (rows : Nat) (s : LdpcRun) : LdpcRun :=
  (List.range rows).foldl (fun s i =>
    let row := x.row i
    (List.range x.z).foldl (fun s c => x.check row i c s) s) s

/-- R250: hard decisions of the first k variables. -/
def hardBits (q : Table Int) (k : Nat) : List Bool := (List.range k).map (fun v => decide (tget 0 q v < 0))

/-- R250, item 6: every check of the layers holds. -/
def LdpcShape.satisfied (x : LdpcShape) (rows : Nat) (q : Table Int) : Bool :=
  (List.range rows).all (fun i =>
    let row := x.row i
    (List.range x.z).all (fun c =>
      (row.filter (fun e => decide (tget 0 q (e.1 * x.z + (c + e.2) % x.z) < 0))).length % 2 == 0))

/-- The transport-block CRC holds over payload and CRC bits. -/
def tbCrcOk (a : Nat) (bs : List Bool) : Bool :=
  if 3824 < a then crc24A bs == 0 else crc16 bs == 0

/-- R250: iterate until the stop of item 6 or the limit: the decisions, whether the check was met, and the
iterations run. -/
def LdpcShape.decodeGo (x : LdpcShape) (a rows : Nat) : Nat → Nat → LdpcRun → List Bool × Bool × Nat
  | 0, n, s => (hardBits s.q x.kp, false, n)
  | fuel + 1, n, s =>
    let t := x.iterate rows s
    let bits := hardBits t.q x.kp
    let crc := if x.c = 1 then tbCrcOk a bits else crc24B bits == 0
    if x.satisfied rows t.q && crc then (bits, true, n + 1) else x.decodeGo a rows fuel (n + 1) t

/-- R250: decode one block from its buffer. -/
def LdpcShape.decode (x : LdpcShape) (a maxIter : Nat) (buf : Table Int) : List Bool × Bool × Nat :=
  let k0 := if x.bg = 0 then 22 else 10
  let cmax := buf.foldl (fun m e => max m (2 + e.1 / x.z)) 0
  let q := buf.map (fun e => (e.1 + 2 * x.z, e.2))
  x.decodeGo a (max 3 (cmax - k0) + 1) maxIter 0 { q := q, m := [] }

/-- R248: the blocks of a transport block's bits, with their CRCs. -/
def LdpcShape.segment (x : LdpcShape) (a : Nat) (payload : List Bool) : List (List Bool) :=
  let tb := payload ++ (if 3824 < a then bitsMsb 24 (crc24A payload) else bitsMsb 16 (crc16 payload))
  if x.c = 1 then [tb]
  else (List.range x.c).map (fun r =>
    let b := (tb.drop (r * (x.kp - 24))).take (x.kp - 24)
    b ++ bitsMsb 24 (crc24B b))

/-- A linear equation over bits: the unknowns it sums, as a mask, and the sum. -/
structure BitEq where
  mask : Nat
  sum : Bool
  deriving DecidableEq, Repr

/-- One equation added to those that contain unknown j. -/
def BitEq.clear (j : Nat) (r q : BitEq) : BitEq :=
  if q.mask.testBit j then { mask := q.mask ^^^ r.mask, sum := q.sum != r.sum } else q

/-- One unknown eliminated: the equations left, and the pivots found, by unknown. -/
def elimStep (s : List BitEq × List (Nat × BitEq)) (j : Nat) : List BitEq × List (Nat × BitEq) :=
  match s.1.find? (fun r => r.mask.testBit j) with
  | none => s
  | some r => ((s.1.erase r).map (BitEq.clear j r), (j, r) :: s.2.map (fun p => (p.1, p.2.clear j r)))

/-- n unknown bits from linear equations. -/
def solveBits (n : Nat) (es : List BitEq) : List Bool :=
  let ps := ((List.range n).foldl elimStep (es, [])).2
  (List.range n).map (fun j => ps.any (fun p => p.1 == j && p.2.sum))

/-- TS 38.212 §5.3.2: the parity bits of a block's K bits: those with which every check of the base graph, lifted, holds. -/
def LdpcShape.parity (x : LdpcShape) (c : List Bool) : List Bool :=
  let rows := x.n / x.z + 2 - x.k / x.z
  solveBits (rows * x.z) ((List.range rows).flatMap (fun i =>
    let row := x.row i
    (List.range x.z).map (fun t =>
      let vars := row.map (fun e => e.1 * x.z + (t + e.2) % x.z)
      { mask := ((vars.filter (fun v => decide (x.k ≤ v))).map (fun v => 2 ^ (v - x.k))).foldl (· ^^^ ·) 0
        sum := (vars.filter (fun v => decide (v < x.k) && c.getD v false)).length % 2 == 1 })))

/-- TS 38.212 §5.3.2: the code bits d_0 … d_(N−1) of a block's K bits, the first two columns punctured. -/
def LdpcShape.code (x : LdpcShape) (c : List Bool) : List Bool := (c ++ x.parity c).drop (2 * x.z)

/-- R248: the scrambled, rate-matched code bits of a transport block. -/
def ldpcEncodeTb (bg a g rv qm nl lbrm cInit : Nat) (payload : List Bool) : List Bool :=
  let x := ldpcShape bg a lbrm
  let blocks := (x.segment a payload).zipIdx
  let bits := blocks.flatMap (fun s =>
    let d := x.code (s.1 ++ List.replicate (x.k - x.kp) false)
    let e := ldpcE g qm nl x.c s.2
    let sel := (x.select rv e).map (fun p => d.getD p false)
    (List.range e).map (fun i => sel.getD (i % qm * (e / qm) + i / qm) false))
  (bits.zip (goldSeq cInit bits.length)).map (fun p => p.1 != p.2)

/-! ### Polar (R252, R253) -/

/-- The least n with x ≤ 2^n. -/
def clog2 (x : Nat) : Nat := ((List.range 64).find? (fun n => decide (x ≤ 2 ^ n))).getD 64

/-- R252: bits of a code block with its CRC: CRC6 or CRC11 for UCI, CRC24C otherwise. -/
def polarK (kind a : Nat) : Nat := a + (if kind ≠ 0 then 24 else if a ≤ 19 then 6 else 11)

/-- TS 38.212 §5.3.1: log₂ of the mother code length; R252: n_max is 10 for UCI and 9 otherwise. -/
def polarLog (kind a e : Nat) : Nat :=
  let k := polarK kind a
  let l := clog2 e
  let n1 := if 8 * e ≤ 9 * 2 ^ (l - 1) ∧ 16 * k < 9 * e then l - 1 else l
  max 5 (min (min n1 (clog2 (8 * k))) (if kind = 0 then 10 else 9))

/-- TS 38.212 Table 5.4.1.1-1. -/
def polarSub : List Nat := [0, 1, 2, 4, 3, 5, 6, 7, 8, 16, 9, 17, 10, 18, 11, 19, 12, 20, 13, 21, 14, 22, 15, 23, 24, 25,
  26, 28, 27, 29, 30, 31]

/-- TS 38.212 §5.4.1.1: the sub-block interleaver of n places: what place i takes. -/
def polarJ (n i : Nat) : Nat := polarSub.getD (32 * i / n) 0 * (n / 32) + i % (n / 32)

/-- TS 38.212 §5.4.1.2: fewer outputs than code bits, of which the first are punctured. -/
def polarPunctured (kind a e : Nat) : Bool := decide (16 * polarK kind a ≤ 7 * e)

/-- TS 38.212 §5.4.1.1: positions frozen by the rate matching. -/
def polarHeld (kind a e : Nat) : List Nat :=
  let n := 2 ^ polarLog kind a e
  if n ≤ e then []
  else if polarPunctured kind a e then
    (List.range (n - e)).map (polarJ n) ++
      List.range (if 3 * n ≤ 4 * e then ceilDiv (3 * n - 2 * e) 4 else ceilDiv (9 * n - 4 * e) 16)
  else (List.range (n - e)).map (fun i => polarJ n (e + i))

/-- R252: parity-check bits, for A from 12 to 19: how many, and how many of them by row weight. -/
def polarPc (kind a e : Nat) : Nat × Nat :=
  if kind = 0 ∧ 12 ≤ a ∧ a ≤ 19 then (3, if 192 < e + 3 - polarK kind a then 1 else 0) else (0, 0)

/-- TS 38.212 §5.4.1.1: the positions of information and parity-check bits, the least reliable first. -/
def polarInfo (kind a e : Nat) : List Nat :=
  let n := 2 ^ polarLog kind a e
  let held := polarHeld kind a e
  let ok := ((List.range 1024).map Config.polarOrder).filter (fun p => decide (p < n) && !held.contains p)
  ok.drop (ok.length - (polarK kind a + (polarPc kind a e).1))

/-- TS 38.212 §5.3.1.2: the positions of the parity-check bits: the least reliable, and by row weight the least among the
others, the most reliable of several. -/
def polarChecks (kind a e : Nat) : List Nat :=
  let pc := polarPc kind a e
  let info := polarInfo kind a e
  let weight (p : Nat) : Nat := popCount p 10
  let rest := (info.drop pc.1).reverse
  let least := rest.foldl (fun m p => min m (weight p)) 10
  info.take (pc.1 - pc.2) ++ ((rest.filter (fun p => weight p == least)).take pc.2)

/-- What bit i of a polar code carries: 0 frozen, 1 information, 2 parity check. -/
def polarBit (kind a e i : Nat) : Nat :=
  if (polarChecks kind a e).contains i then 2 else if (polarInfo kind a e).contains i then 1 else 0

/-- TS 38.212 §5.3.1.2: the earlier bits whose sum is the parity-check bit i. -/
def polarParity (kind a e i : Nat) : List Nat :=
  (List.range i).filter (fun j => j % 5 == i % 5 && polarBit kind a e j == 1)

/-- TS 38.212 §5.4.1.3: the triangular interleaver of e bits: what output k takes. -/
def polarTriangle (e : Nat) : List Nat :=
  let t := ((List.range 200).find? (fun t => decide (2 * e ≤ t * (t + 1)))).getD 0
  (List.range t).flatMap (fun j => (List.range (t - j)).filterMap (fun i =>
    let k := i * t - i * (i - 1) / 2 + j
    if k < e then some k else none))

/-- TS 38.212 §5.4.1: the codeword position that output bit k of the rate matching carries; R252: UCI is interleaved
(I_BIL = 1). -/
def polarOut (kind a e k : Nat) : Nat :=
  let n := 2 ^ polarLog kind a e
  let i := if kind = 0 then (polarTriangle e).getD k 0 else k
  polarJ n (if n ≤ e then i % n else if polarPunctured kind a e then i + n - e else i)

/-- TS 38.212 §5.4.1.2: positions known to be 0 by shortening. -/
def polarShort (kind a e p : Nat) : Bool :=
  let n := 2 ^ polarLog kind a e
  decide (e < n) && !polarPunctured kind a e && ((List.range (n - e)).map (fun i => polarJ n (e + i))).contains p

/-- TS 38.212 §5.3.1.1: the interleaving of k bits before the polar code of DCI and PBCH: bit i takes bit (polarIl k)[i]. -/
def polarIl (k : Nat) : List Nat :=
  ((List.range 164).map Config.polarIlMax).filterMap (fun m => if 164 ≤ m + k then some (m + k - 164) else none)

/-- R253: f and g. -/
def polarF (a b : Int) : Int :=
  let m : Int := min a.natAbs b.natAbs
  if (decide (a < 0)) != (decide (b < 0)) then -m else m
def polarG (a b : Int) (u : Bool) : Int := (clampInt (-511) 511 (b + (if u then -a else a))).1

/-- The polar transform of 2^n bits. -/
def polarX : Nat → List Bool → List Bool
  | 0, us => us
  | n + 1, us =>
    let h := 2 ^ n
    let l := polarX n (us.take h)
    let r := polarX n (us.drop h)
    ((l.zip r).map (fun e => e.1 != e.2)) ++ r

/-- The LLR of the next bit, from the codeword's LLRs and the bits decided before it. -/
def polarLlr : Nat → List Int → List Bool → Int
  | 0, ls, _ => ls.getD 0 0
  | n + 1, ls, us =>
    let h := 2 ^ n
    let ab := (ls.take h).zip (ls.drop h)
    if us.length < h then polarLlr n (ab.map (fun e => polarF e.1 e.2)) us
    else
      let x := polarX n (us.take h)
      polarLlr n ((ab.zip x).map (fun e => polarG e.1.1 e.1.2 e.2)) (us.drop h)

/-- A path of the list decoder. -/
structure PolarPath where
  us : List Bool := []
  metric : Nat := 0
  deriving DecidableEq, Repr

/-- R253: decide a bit on a path, adding |λ| where it goes against λ's sign. -/
def PolarPath.push (p : PolarPath) (l : Int) (u : Bool) : PolarPath :=
  let against := if l < 0 then !u else l != 0 && u
  { us := p.us ++ [u], metric := min 65535 (p.metric + if against then l.natAbs else 0) }

/-- R253: the 8 lowest metrics; ties to the lower parent index, then to u = 0. -/
def keepEight (ps : List PolarPath) : List PolarPath :=
  (ps.mergeSort (fun a b => decide (a.metric ≤ b.metric))).take 8

/-- R253: one bit of every path. -/
def polarStep (kind a e n : Nat) (ls : List Int) (ps : List PolarPath) (i : Nat) : List PolarPath :=
  match polarBit kind a e i with
  | 1 => keepEight (ps.flatMap (fun p =>
      let l := polarLlr n ls p.us
      [p.push l false, p.push l true]))
  | 2 => ps.map (fun p => p.push (polarLlr n ls p.us)
      (((polarParity kind a e i).filter (fun j => p.us.getD j false)).length % 2 == 1))
  | _ => ps.map (fun p => p.push (polarLlr n ls p.us) false)

/-- R252: rate recovery: repeated positions sum, saturating; shortened positions are known zeros. -/
def polarRecover (kind a e n : Nat) (vals : List Int) : List Int :=
  let t := (vals.zipIdx).foldl (fun t v =>
    let p := polarOut kind a e v.2
    tset (0 : Int) t p (clampInt (-511) 511 (tget 0 t p + v.1)).1) []
  (List.range (2 ^ n)).map (fun p => if polarShort kind a e p then 511 else tget 0 t p)

/-- R253: decode one segment of UCI: its bits, the rank of the output, and whether a CRC passed. -/
def polarDecode (a e : Nat) (vals : List Int) : List Bool × Nat × Bool :=
  let n := polarLog 0 a e
  let ls := polarRecover 0 a e n vals
  let ps := keepEight ((List.range (2 ^ n)).foldl (polarStep 0 a e n ls) [{}])
  let info (p : PolarPath) : List Bool :=
    ((p.us.zipIdx).filter (fun u => polarBit 0 a e u.2 == 1)).map (·.1)
  let pass (bs : List Bool) : Bool := if a ≤ 19 then crc6 bs == 0 else crc11 bs == 0
  let ranked := (ps.map info).zipIdx
  match ranked.find? (fun r => pass r.1) with
  | some r => (r.1.take a, r.2, true)
  | none => (((ranked.map (·.1)).getD 0 []).take a, 0, false)

/-- R252: the code bits of a DCI or PBCH payload. -/
def polarEncode (kind a e rnti : Nat) (payload : List Bool) : List Bool :=
  let crc := if kind = 1 then crc24C (crc24C 0 (List.replicate 24 true)) payload else crc24C 0 payload
  let c := payload ++ bitsMsb 24 (if kind = 1 then crc ^^^ rnti else crc)
  let ci := (List.range c.length).map (fun i => c.getD ((polarIl c.length).getD i 0) false)
  let n := polarLog kind a e
  let us := ((List.range (2 ^ n)).foldl (fun (s : List Bool × List Bool) i =>
    if polarBit kind a e i = 1 then (s.1 ++ [s.2.getD 0 false], s.2.drop 1)
    else (s.1 ++ [false], s.2)) ([], ci)).1
  let x := polarX n us
  (List.range e).map (fun k => x.getD (polarOut kind a e k) false)

/-! ### The tail-biting convolutional code (R255 to R257) -/

/-- R255: the state after input u. -/
def tbNext (s : Nat) (u : Bool) : Nat := b2n u * 32 + s / 2

/-- R255: output j: the parity of the generator and the inputs, u_k in bit 6. -/
def tbOut (g s : Nat) (u : Bool) : Bool := popCount (g &&& (b2n u * 64 + s)) 7 % 2 == 1

/-- R255: the state formed by the last six bits. -/
def tbStart (bs : List Bool) : Nat := bs.foldl tbNext 0

/-- R255: the output streams of a block. -/
def tbStreams (gens : List Nat) (bs : List Bool) : List (List Bool) :=
  let states := (bs.foldl (fun (a : List Nat × Nat) u => (a.1 ++ [a.2], tbNext a.2 u)) ([], tbStart bs)).1
  gens.map (fun g => (states.zip bs).map (fun e => tbOut g e.1 e.2))

/-- TS 36.212 Table 5.1.4-2: the column permutation of the sub-block interleaver. -/
def tbPerm : List Nat := [1, 17, 9, 25, 5, 21, 13, 29, 3, 19, 11, 27, 7, 23, 15, 31,
  0, 16, 8, 24, 4, 20, 12, 28, 2, 18, 10, 26, 6, 22, 14, 30]

/-- TS 36.212 §5.1.4.2: for each place of a stream's interleaved block, the stream's bit, or none for a
dummy. -/
def tbInter (k : Nat) : List (Option Nat) :=
  let rows := ceilDiv k 32
  let nd := 32 * rows - k
  tbPerm.flatMap (fun c => (List.range rows).map (fun r =>
    let y := 32 * r + c
    if y < nd then none else some (y - nd)))

/-- TS 36.212 §5.1.4.2: stream and bit of each of the e outputs. -/
def tbSelect (ngen k e : Nat) : List (Nat × Nat) :=
  let buf := (List.range ngen).flatMap (fun j => (tbInter k).filterMap (fun o => o.map (fun i => (j, i))))
  (List.range e).map (fun i => buf.getD (i % buf.length) (0, 0))

/-- R255: payload and CRC16 masked with RNTI. -/
def tbBlock (payload : List Bool) (rnti : Nat) : List Bool := payload ++ bitsMsb 16 (crc16 payload ^^^ rnti)

/-- R255: TB_ENC's code bits. -/
def tbEncode (gens : List Nat) (e rnti : Nat) (payload : List Bool) : List Bool :=
  let bs := tbBlock payload rnti
  let ss := tbStreams gens bs
  (tbSelect gens.length bs.length e).map (fun p => (ss.getD p.1 []).getD p.2 false)

/-- R256: rate recovery into NGEN × K values, saturating at ±511. -/
def tbRecover (ngen k : Nat) (vals : List Int) : Table Int :=
  ((tbSelect ngen k vals.length).zip vals).foldl (fun t e =>
    let p := e.1.1 * 2048 + e.1.2
    tset 0 t p (clampInt (-511) 511 (tget 0 t p + e.2)).1) []

/-- R256: the branch cost of an input bit out of a state at step k. -/
def tbCost (gens : List Nat) (t : Table Int) (k s : Nat) (u : Bool) : Nat :=
  ((gens.zipIdx).map (fun g =>
    let l := tget 0 t (g.2 * 2048 + k)
    if tbOut g.1 s u then (max l 0).toNat else (max (-l) 0).toNat)).sum

/-- R256: one add-compare-select step: the new metrics and each state's predecessor. -/
def tbAcs (gens : List Nat) (t : Table Int) (ms : List Nat) (k : Nat) : List Nat × List Nat :=
  let new := (List.range 64).map (fun s' =>
    let u := decide (32 ≤ s')
    let p0 := s' % 32 * 2
    let c0 := min (2 ^ 18 - 1) (ms.getD p0 0 + tbCost gens t k p0 u)
    let c1 := min (2 ^ 18 - 1) (ms.getD (p0 + 1) 0 + tbCost gens t k (p0 + 1) u)
    if c1 < c0 then (c1, p0 + 1) else (c0, p0))
  let least := (new.map (·.1)).foldl min (2 ^ 18)
  (new.map (fun e => e.1 - least), new.map (·.2))

/-- R256: a pass: the end metrics, and the predecessors of every step, last step first. -/
def tbPass (gens : List Nat) (t : Table Int) (k : Nat) (ms : List Nat) : List Nat × List (List Nat) :=
  (List.range k).foldl (fun (a : List Nat × List (List Nat)) i =>
    let r := tbAcs gens t a.1 i
    (r.1, r.2 :: a.2)) (ms, [])

/-- R256: trace back from an end state: the start state and the bits. -/
def tbTrace : List (List Nat) → Nat → List Bool → Nat × List Bool
  | [], s, bs => (s, bs)
  | p :: ps, s, bs => tbTrace ps (p.getD s 0) (decide (32 ≤ s) :: bs)

/-- The index of the least value of a list, the lower of two. -/
def leastIdx (ms : List Nat) : Nat :=
  ((ms.zipIdx).foldl (fun (b : Nat × Nat) e => if e.1 < b.1 then e else b) (2 ^ 20, 0)).2

/-- R256: up to n passes: the bits, whether the path is tail-biting, and the passes run. -/
def tbDecodeGo (gens : List Nat) (t : Table Int) (k : Nat) : Nat → Nat → List Nat → List Bool × Bool × Nat
  | 0, n, _ => ([], false, n)
  | fuel + 1, n, ms =>
    let p := tbPass gens t k ms
    let endSt := leastIdx p.1
    let tr := tbTrace p.2 endSt []
    if tr.1 = endSt then (tr.2, true, n + 1)
    else if fuel = 0 then (tr.2, false, n + 1)
    else tbDecodeGo gens t k fuel (n + 1) p.1

/-- R256: decode e values into K bits. -/
def tbDecode (gens : List Nat) (k passes : Nat) (vals : List Int) : List Bool × Bool × Nat :=
  tbDecodeGo gens (tbRecover gens.length k vals) k passes 0 (List.replicate 64 0)

end Sys2Proof.Machine
end

