-- ==== Sys2Proof/Machine/Coding.lean ====
section
/-! DEFINITION.  Chapter 11: jobs of the channel-coding cluster and the HARQ soft buffers. -/

namespace Sys2Proof.Machine

/-- The page of cluster c (R263). -/
def dsReg (c : Fin 4) (o : Nat) : Nat := dsBlock + 0x1000 * c.val + o

def State.dsOf (s : State) (c : Fin 4) : DsCluster := tget {} s.ds.cluster c.val
def State.setDs (s : State) (c : Fin 4) (x : DsCluster) : State :=
  { s with ds := { s.ds with cluster := tset {} s.ds.cluster c.val x } }

/-- R27: the cluster's island is ON. -/
def State.dsOn (s : State) (c : Fin 4) : Bool := s.islOn (482 + c.val)

/-- R263: the RD core of the cluster's interrupts. -/
def State.dsIrq (s : State) (c : Fin 4) : State := s.irqTo (irqCore .rd (s.regB (dsReg c 0) 5 4)) .ds

/-- R243: entries of a ring. -/
def State.dsRing (s : State) (o : Nat) : Nat := 2 ^ min 12 (max 4 (s.regB o 3 0))

/-! ### Jobs (R244) -/

/-- The fields of a job that are read more than once. -/
structure DsFields where
  opc : Nat
  flags : Nat
  cell : Nat
  tag : Nat
  deadline : Nat
  start : Nat
  src : Nat
  harq : Nat
  dst : Nat
  a : Nat
  e : Nat
  b46 : Nat
  b47 : Nat
  b48 : Nat
  b49 : Nat
  w50 : Nat
  rnti : Nat
  w56 : Nat
  nsrc : Nat
  deriving DecidableEq, Repr

def DsFields.parse (x : BitVec 512) : DsFields :=
  let b := leBytes 64 x.toNat
  { opc := fieldAt b 0 1, flags := fieldAt b 1 1, cell := fieldAt b 2 2, tag := fieldAt b 4 4
    deadline := fieldAt b 8 8, start := fieldAt b 16 8, src := fieldAt b 24 6, harq := fieldAt b 30 2
    dst := fieldAt b 32 6, a := fieldAt b 38 4, e := fieldAt b 42 4, b46 := fieldAt b 46 1
    b47 := fieldAt b 47 1, b48 := fieldAt b 48 1, b49 := fieldAt b 49 1, w50 := fieldAt b 50 4
    rnti := fieldAt b 54 2, w56 := fieldAt b 56 4, nsrc := fieldAt b 60 4 }

def DsFields.nsel (x : DsFields) : Bool := bitOf x.flags 1
def DsFields.combine (x : DsFields) : Bool := bitOf x.flags 2
def DsFields.keep (x : DsFields) : Bool := bitOf x.flags 3
def DsFields.new (x : DsFields) : Bool := bitOf x.flags 4
def DsFields.verify (x : DsFields) : Bool := bitOf x.flags 5

/-- The segmentation and rate matching of an LDPC job; with NSEL there is no limited buffer (R244). -/
def DsFields.shape (x : DsFields) : LdpcShape :=
  ldpcShape (x.b46 % 2) x.a (if x.nsel then 0 else x.w56)

/-- R252: POLAR_DEC's segments: how many, and A and E of each. -/
def DsFields.segs (x : DsFields) : Nat × Nat × Nat :=
  if 360 ≤ x.a ∧ 1088 ≤ x.e then (2, ceilDiv x.a 2, x.e / 2) else (1, x.a, x.e)

/-- R255: generators of a TB job. -/
def DsFields.gens (x : DsFields) : List Nat :=
  [x.b48, x.b49, x.w50 % 256].take (x.b46 % 4)

def DsFields.passes (x : DsFields) : Nat := if x.b46 / 16 = 0 then 3 else x.b46 / 16

/-- R244, R245, R257: reserved fields and ranges of a job. -/
def DsFields.badJob (x : DsFields) : Bool :=
  let out (v lo hi : Nat) : Bool := decide (v < lo) || decide (hi < v)
  let common := x.opc == 0 || decide (6 < x.opc) || decide (63 < x.flags) || decide (511 < x.cell) ||
    (x.opc != 1 && bitsOf x.flags 4 1 != 0) || (x.opc != 5 && x.verify) ||
    (x.opc == 1 && decide (16383 < x.harq)) || x.src % 64 != 0 || x.dst % 64 != 0
  let own :=
    if x.opc = 1 ∨ x.opc = 2 then
      out x.a 24 1277992 || out x.e 1 (2 ^ 24) || decide (7 < x.b46) ||
      !(x.b47 == 1 || x.b47 == 2 || x.b47 == 4 || x.b47 == 6 || x.b47 == 8) || out x.b48 1 4 ||
      (if x.opc = 1 then out x.b49 1 16 else x.b49 != 0) || bitOf x.w50 31 || x.rnti != 0 ||
      !x.shape.ok ||
      (if x.nsel then x.w56 % 8 != 0 || x.nsrc % 64 != 0 else x.nsrc != 0)
    else if x.opc = 3 ∨ x.opc = 4 then
      decide (2 ^ 11 ≤ x.a) || decide (2 ^ 16 ≤ x.e) || out x.e 18 8192 || x.b47 != 0 || x.b48 != 0 ||
      x.b49 != 0 || bitOf x.w50 31 || x.w56 != 0 || x.nsrc != 0 ||
      (if x.opc = 3 then x.b46 != 0 || out x.a 12 1706 || x.rnti != 0
       else out x.b46 1 2 || (x.b46 == 2 && (x.a != 32 || x.rnti != 0)) || x.a == 0)
    else
      decide (2 ^ 10 ≤ x.a) || out x.a 1 1008 || decide (2 ^ 14 ≤ x.e) || out x.e 16 12288 ||
      out (x.b46 % 4) 2 3 || bitsOf x.b46 3 2 != 0 || decide (4 < x.b46 / 16) || x.b47 != 0 ||
      decide (127 < x.w50) || x.w56 != 0 || x.nsrc != 0 ||
      x.gens.any (fun g => out g 64 127)
  common || own

/-- R245: bytes of a job's input and output. -/
def DsFields.inBytes (x : DsFields) : Nat :=
  if x.opc = 2 ∨ x.opc = 4 ∨ x.opc = 5 then ceilDiv x.a 8 else x.e
def DsFields.outBytes (x : DsFields) : Nat :=
  if x.opc = 2 ∨ x.opc = 4 ∨ x.opc = 5 then ceilDiv x.e 8 else ceilDiv x.a 8

/-- R244, R245: an operand lies outside RD SRAM. -/
def DsFields.badAddress (x : DsFields) : Bool :=
  !inRd x.src x.inBytes || !inRd x.dst x.outBytes ||
  (x.nsel && (!inRd (sramBase .rd + x.w56) 8 || !inRd (sramBase .rd + x.nsrc) x.inBytes))

/-! ### HARQ handles (R258 to R261) -/

/-- R258: the RD pool, at the top of RD SRAM (log 25). -/
def State.harqBase (s : State) : Nat := sramBase .rd + sramSpan .rd - s.cfg.harqRd * 2 ^ 20

/-- R258: the spill pool, at the top of the stack that the record names (log 25). -/
def State.spillBase (s : State) : Nat := (s.cfg.harqStack + 1) * 0x000C00000000 - s.cfg.harqHbm * 2 ^ 20

/-- A handle's table entry. -/
structure Handle where
  st : Nat
  c : Nat
  cell : Nat
  addr : Nat
  ncb64 : Nat
  lastUse : Nat
  deriving DecidableEq, Repr

def Handle.len (h : Handle) : Nat := h.c * h.ncb64 * 64

def State.handle (s : State) (h : Nat) : Handle :=
  let a := s.harqBase + 16 * h
  { st := s.loadNat a 1, c := s.loadNat (a + 1) 1, cell := s.loadNat (a + 2) 2 % 512
    addr := s.loadNat (a + 4) 6, ncb64 := s.loadNat (a + 10) 2, lastUse := s.loadNat (a + 12) 4 }

def State.setHandle (s : State) (h : Nat) (x : Handle) : State :=
  s.storeNat (s.harqBase + 16 * h) 16 (x.st + x.c * 2 ^ 8 + x.cell * 2 ^ 16 + x.addr * 2 ^ 32 +
    x.ncb64 * 2 ^ 80 + x.lastUse % 2 ^ 32 * 2 ^ 96)

/-- The handle becomes EMPTY. -/
def State.emptyHandle (s : State) (h : Nat) : State := s.storeNat (s.harqBase + 16 * h) 16 0

/-- The handle becomes LOST. -/
def State.loseHandle (s : State) (h : Nat) : State := s.setHandle h { s.handle h with st := 4 }

/-- Handles whose table entry is not EMPTY: those with a first byte listed in memory. -/
def State.handles (s : State) : List Nat :=
  (s.mem.filter (fun e => decide (s.harqBase ≤ e.1) && decide (e.1 < s.harqBase + 0x40000) &&
    (e.1 - s.harqBase) % 16 == 0)).map (fun e => (e.1 - s.harqBase) / 16)

/-- Bytes in use in the RD pool (hbm false) or in the spill pool, records on the way included. -/
def State.harqUsed (s : State) (hbm : Bool) : List (Nat × Nat) :=
  let lo := if hbm then s.spillBase else s.harqBase + 0x40000
  let hi := if hbm then (s.cfg.harqStack + 1) * 0x000C00000000 else sramBase .rd + sramSpan .rd
  let held := (s.handles.map s.handle).filter (fun h => decide (1 ≤ h.st) && decide (h.st ≤ 3))
  let moving := s.ds.moves.map (fun m => (m.dst, (s.handle m.handle).len))
  ((held.map (fun h => (h.addr, h.len))) ++ moving).filter (fun u => decide (lo ≤ u.1) && decide (u.1 < hi))

/-- Room for a record, at the lowest address where it fits (log 25). -/
def State.harqRoom (s : State) (hbm : Bool) (len : Nat) : Option Nat :=
  if hbm then firstFit s.spillBase ((s.cfg.harqStack + 1) * 0x000C00000000) len (s.harqUsed true)
  else firstFit (s.harqBase + 0x40000) (sramBase .rd + sramSpan .rd) len (s.harqUsed false)

/-- A job of any cluster's table names the handle. -/
def State.handleNamed (s : State) (h : Nat) : Bool :=
  s.ds.cluster.any (fun e => e.2.jobs.any (fun j =>
    (DsFields.parse j.job).opc == 1 && (DsFields.parse j.job).harq == h))

/-- R258: the age of a handle's LAST_USE, µs, modulo 2³². -/
def State.handleAge (s : State) (h : Nat) : Nat := (s.T / 1000 + 2 ^ 32 - (s.handle h).lastUse) % 2 ^ 32

/-- R260: the RD record with the oldest LAST_USE that no table job names. -/
def State.spillVictim (s : State) : Option Nat :=
  ((s.handles.filter (fun h => (s.handle h).st == 1 && !s.handleNamed h)).mergeSort
    (fun a b => decide (s.handleAge b ≤ s.handleAge a))).head?

/-- R260: a record in HBM is brought back: it is MOVING while the copy runs.  Where RD SRAM has no room the handle waits for
it. -/
def State.harqFetch (s : State) (h : Nat) : State :=
  let x := s.handle h
  if x.st = 2 then
    match s.harqRoom false x.len with
    | some a =>
      let mv : HarqMove := { handle := h, toHbm := false, dst := a }
      let t := s.setHandle h { x with st := 3 }
      { t with ds := { t.ds with moves := t.ds.moves ++ [mv] } }
    | none =>
      if s.ds.wants.contains h then s else { s with ds := { s.ds with wants := s.ds.wants ++ [h] } }
  else s

/-- R260: the handles that wait for room are tried again, in the order they came. -/
def State.harqRetry (s : State) : State :=
  s.ds.wants.foldl State.harqFetch { s with ds := { s.ds with wants := [] } }

/-- R262: handles waiting to become EMPTY do so once no table job names them, and records that wait for room are tried. -/
def State.settleFrees (s : State) : State :=
  let go := s.ds.freeing.filter (fun h => !s.handleNamed h)
  (go.foldl State.emptyHandle
    { s with ds := { s.ds with freeing := s.ds.freeing.filter (fun h => s.handleNamed h) } }).harqRetry

/-! ### Completion (R245) -/

/-- The outcome of a job. -/
structure DsDone where
  status : Nat
  info : Nat := 0
  hflags : Nat := 0
  cbs : Nat := 0
  cbFail : Nat := 0
  deriving DecidableEq, Repr

/-- R243: the completion ring has no room. -/
def State.dsFull (s : State) (c : Fin 4) : Bool :=
  decide (s.dsRing (dsReg c 0x020) ≤ ((s.dsOf c).cqTail + 2 ^ 16 - s.regB (dsReg c 0x024) 15 0) % 2 ^ 16)

/-- R243, R245: write a job's completion entry, count it, and interrupt where the job asks for it. -/
def State.dsComplete (s : State) (c : Fin 4) (x : DsFields) (d : DsDone) : State :=
  let k := s.dsOf c
  let a := s.reg64 (dsReg c 0x018) (dsReg c 0x01C) + k.cqTail % s.dsRing (dsReg c 0x020) * 16
  let rec16 := x.tag + d.status * 2 ^ 32 + d.info * 2 ^ 40 + d.hflags * 2 ^ 48 + d.cbs * 2 ^ 64 +
    d.cbFail * 2 ^ 80 + s.T % 2 ^ 32 * 2 ^ 96
  let jobs := s.reg64 (dsReg c 0x100) (dsReg c 0x104) + 1
  let t := (s.storeNat a 16 rec16).setDs c { k with cqTail := (k.cqTail + 1) % 2 ^ 16 }
  let t := (t.setReg (dsReg c 0x100) (jobs % 2 ^ 32)).setReg (dsReg c 0x104) (jobs / 2 ^ 32 % 2 ^ 32)
  if bitOf x.flags 0 then t.dsIrq c else t

/-- A job leaves the table, and frees that waited on it take effect. -/
def State.dsRemove (s : State) (c : Fin 4) (i : Nat) : State :=
  let k := s.dsOf c
  (s.setDs c { k with jobs := k.jobs.eraseIdx i }).settleFrees

/-- A table job ends with an outcome. -/
def State.dsEnd (s : State) (c : Fin 4) (i : Nat) (x : DsFields) (d : DsDone) : State :=
  (s.dsRemove c i).dsComplete c x d

/-- R242, R111: the cluster reads n bytes of RD SRAM as master 0x110. -/
def State.dsReads (s : State) (a n : Nat) : State := s.noteReads 0x110 a n

/-! ### Rings -/

/-- R243: the doorbell: a tail more than the ring size ahead of HEAD is ignored with BAD_PTR. -/
def execDsSqDoorbell (m : Agent) (c : Fin 4) (tail : BitVec 16) (s : State) : Out :=
  let ahead := (tail.toNat + 2 ^ 16 - (s.dsOf c).sqHead) % 2 ^ 16
  agentIf m (m.isRd && s.dieOn .rd) s
    (if s.dsRing (dsReg c 0x010) < ahead then
      (s.setReg (dsReg c 0x004) (s.regN (dsReg c 0x004) ||| 8)).dsIrq c
     else s.setReg (dsReg c 0x014) tail.toNat)

/-- R243: DS_CQ_PTR.HEAD; beyond TAIL it is ignored with BAD_PTR. -/
def execDsCqHeadWrite (m : Agent) (c : Fin 4) (head : BitVec 16) (s : State) : Out :=
  let old := s.regB (dsReg c 0x024) 15 0
  let held := ((s.dsOf c).cqTail + 2 ^ 16 - old) % 2 ^ 16
  agentIf m (m.isRd && s.dieOn .rd) s
    (if held < (head.toNat + 2 ^ 16 - old) % 2 ^ 16 then
      (s.setReg (dsReg c 0x004) (s.regN (dsReg c 0x004) ||| 8)).dsIrq c
     else s.setReg (dsReg c 0x024) head.toNat)

/-- R259: a COMBINE must match the handle's C and N_cb, which an EMPTY handle's never do, but for a LOST handle (R261); a
handle that is not EMPTY needs NEW or COMBINE.  DEDUCED (log 157): a block count that a handle cannot hold (R258) is out of
range for a job that combines or keeps. -/
def State.harqRefused (s : State) (x : DsFields) : Bool :=
  let h := s.handle x.harq
  x.opc == 1 &&
  ((x.combine && decide (h.st ≤ 3) &&
      (h.c != x.shape.c || h.ncb64 != ceilDiv x.shape.ncb 64)) ||
   (!x.combine && !x.new && h.st != 0) || ((x.combine || x.keep) && decide (255 < x.shape.c)))

/-- R243, R245, R260: the next job of the ring is copied into the table, checked, and refused at once
where a check fails. -/
def execDsJobCopy (c : Fin 4) (s : State) : Out :=
  unlessHalted s .radio <|
  let k := s.dsOf c
  let a := s.reg64 (dsReg c 0x008) (dsReg c 0x00C) + k.sqHead % s.dsRing (dsReg c 0x010) * 64
  let job := BitVec.ofNat 512 (s.loadNat a 64)
  let x := DsFields.parse job
  let s1 := (s.dsReads a 64).setDs c { k with sqHead := (k.sqHead + 1) % 2 ^ 16 }
  let refuse := x.badJob || s.harqRefused x
  onlyIf (s.dsOn c && s.regBit (dsReg c 0) 0 && decide (k.jobs.length < 256) &&
      k.sqHead != s.regB (dsReg c 0x014) 15 0 && !((refuse || x.badAddress) && s.dsFull c)) s
    (if refuse then s1.dsComplete c x { status := 3 }
     else if x.badAddress then s1.dsComplete c x { status := 4 }
     else
      let k1 := s1.dsOf c
      let s2 := s1.setDs c { k1 with jobs := k1.jobs ++ [{ job := job }] }
      if x.opc = 1 then s2.harqFetch x.harq else s2)

/-! ### Running jobs -/

/-- R246: an earlier job of the table names the same handle. -/
def State.dsBehind (s : State) (c : Fin 4) (i : Nat) (x : DsFields) : Bool :=
  ((s.dsOf c).jobs.take i).any (fun y => (DsFields.parse y.job).opc == 1 && (DsFields.parse y.job).harq == x.harq)

/-- R246: the job at place i of a table is eligible: its START has passed, its selection is made, and an LDPC_DEC has no
earlier job of its handle before it, nor a handle that moves or whose record, which it combines, is still in HBM (log 158). -/
def State.dsEligible (s : State) (c : Fin 4) (i : Nat) (j : DsJob) : Bool :=
  let x := DsFields.parse j.job
  let st := (s.handle x.harq).st
  (x.start == 0 || s.pastNs x.start) && decide (s.T ≤ x.deadline) && (!x.nsel || j.sel.isSome) &&
  (x.opc != 1 || (!s.dsBehind c i x && st != 3 && !(st == 2 && x.combine && !x.new)))

/-- R242: the kind of engine that runs an opcode. -/
def dsEngine (opc : Nat) : Nat := min opc 5

/-- R246: the eligible job for a kind of engine: the earliest DEADLINE, the one copied first of equal ones. -/
def State.dsNext (s : State) (c : Fin 4) (engine : Nat) : Option Nat :=
  let es := (((s.dsOf c).jobs.zipIdx).filter (fun e =>
    dsEngine (DsFields.parse e.1.job).opc == engine && s.dsEligible c e.2 e.1)).map
      (fun e => (e.2, (DsFields.parse e.1.job).deadline))
  (es.foldl (fun (b : Option (Nat × Nat)) e => match b with
    | some x => if e.2 < x.2 then some e else b
    | none => some e) none).map (·.1)

/-- R246: the job at place i of a table is the one a free engine of its kind takes: cluster running, completion ring free, and
the time at its START or later. -/
def State.dsJob (s : State) (c : Fin 4) (i : Nat) (opc : Nat) : Option (DsFields × DsJob × State) :=
  match (s.dsOf c).jobs[i]? with
  | none => none
  | some j =>
    let x := DsFields.parse j.job
    let t := if x.start = 0 then s else s.reachNs x.start
    if x.opc = opc ∧ s.dsOn c = true ∧ s.regBit (dsReg c 0) 0 = true ∧ s.dsFull c = false ∧
        t.dsNext c (dsEngine opc) = some i then some (x, j, t) else none

/-- n LLR8 values. -/
def State.llrs (s : State) (a n : Nat) : List Int := (s.load a n).map (fun b => b.toInt)

/-- R249: negate every value whose scrambling bit is 1. -/
def descramble (cInit : Nat) (vals : List Int) : List Int :=
  (vals.zip (goldSeq cInit vals.length)).map (fun p => if p.2 then -p.1 else p.1)

/-- The input of a job holds an uncorrectable word: it ends with ECC. -/
def State.dsEcc (s : State) (c : Fin 4) (i : Nat) (x : DsFields) : State :=
  (s.count (dsReg c 0x114) 1).dsEnd c i x { status := 5 }

/-- R250: every block of a job: for each block its bits, whether its check was met, and its iterations. -/
def decodeBlocks (x : DsFields) (bufs : List (Table Int)) : List (List Bool × Bool × Nat) :=
  bufs.map (fun b => x.shape.decode x.a x.b49 b)

/-- R249: the buffers of a job's blocks, before combining. -/
def dematchBlocks (x : DsFields) (vals : List Int) : List (Table Int) :=
  let sh := x.shape
  ((List.range sh.c).foldl (fun (a : List (Table Int) × List Int) r =>
    let e := ldpcE x.e x.b47 x.b48 sh.c r
    (a.1 ++ [sh.dematch (x.b46 / 2) x.b47 (a.2.take e)], a.2.drop e)) ([], vals)).1

/-- R259: the record's values added into the buffers. -/
def State.combineRecord (s : State) (h : Handle) (ncb : Nat) (bufs : List (Table Int)) : List (Table Int) :=
  (bufs.zipIdx).map (fun b =>
    ((s.llrs (h.addr + b.2 * h.ncb64 * 64) ncb).zipIdx).foldl (fun t v => addLlr t v.2 v.1) b.1)

/-- R258: the bytes of a record: each block's positions, then zeros. -/
def recordBytes (ncb : Nat) (bufs : List (Table Int)) : List Byte :=
  bufs.flatMap (fun t =>
    (List.range ncb).map (fun p => BitVec.ofNat 8 (toBits 8 (tget 0 t p))) ++
    List.replicate (ceilDiv ncb 64 * 64 - ncb) 0)

/-- R258, R259, R260: KEEP writes the buffers back; with no room in the RD pool the handle becomes EMPTY
and NOT_STORED is set.  The Bool says stored. -/
def State.keepRecord (s : State) (x : DsFields) (bufs : List (Table Int)) : State × Bool :=
  let sh := x.shape
  let old := s.handle x.harq
  let n64 := ceilDiv sh.ncb 64
  let reuse := old.st == 1 && old.c == sh.c && old.ncb64 == n64
  let s0 := if reuse then s else s.emptyHandle x.harq
  match (if reuse then some old.addr else s0.harqRoom false (sh.c * n64 * 64)) with
  | some a =>
    let h : Handle := { st := 1, c := sh.c, cell := x.cell, addr := a, ncb64 := n64, lastUse := s.T / 1000 }
    ((s0.store a (recordBytes sh.ncb bufs)).setHandle x.harq h, true)
  | none => (s0, false)

/-- R260: the record that a KEEP writes has no room in the RD pool. -/
def State.keepNoRoom (s : State) (x : DsFields) : Bool :=
  let h := s.handle x.harq
  let sh := x.shape
  x.keep && !(h.st == 1 && h.c == sh.c && h.ncb64 == ceilDiv sh.ncb 64) &&
    ((s.emptyHandle x.harq).harqRoom false (sh.c * ceilDiv sh.ncb 64 * 64)).isNone

/-- R260: a record can be spilled: there is a victim, and room for it in the HBM pool. -/
def State.canSpill (s : State) : Bool :=
  match s.spillVictim with
  | some v => (s.harqRoom true (s.handle v).len).isSome
  | none => false

/-- R258: the handle's LAST_USE is the completion of its last job. -/
def State.usedHandle (s : State) (h : Nat) : State :=
  let x := s.handle h
  if x.st = 0 then s else s.setHandle h { x with lastUse := s.T / 1000 }

/-- R246, R249, R250, R258 to R261: an LDPC_DEC job runs and completes; a KEEP waits for a spill that can make room.  DEDUCED
(log 69): NEW beside COMBINE discards the record first, so nothing of it is added. -/
def execDsLdpcDec (c : Fin 4) (i : Fin 256) (s : State) : Out :=
  unlessHalted s .radio <|
  match s.dsJob c i 1 with
  | none => .next s
  | some (x, j, t) =>
    let h := t.handle x.harq
    let sh := x.shape
    if t.keepNoRoom x = true ∧ t.canSpill = true then .next s
    else
      let neural := j.sel == some true
      let src := if neural then sramBase .rd + x.nsrc else x.src
      let adds := x.combine && !x.new && h.st == 1
      let recBad := adds && t.rangeBad h.addr h.len
      let bad := t.rangeBad src x.e
      let t := t.dsReads src x.e
      if bad then .next (t.dsEcc c i x)
      else
        let t := if adds then t.dsReads h.addr h.len else t
        let t := if recBad then (t.count (dsReg c 0x114) 1).loseHandle x.harq else t
        let lost := x.combine && (h.st == 4 || recBad)
        let bufs := dematchBlocks x (descramble x.w50 (t.llrs src x.e))
        let bufs := if adds && !recBad then t.combineRecord h sh.ncb bufs else bufs
        let rs := decodeBlocks x bufs
        let fail := (rs.filter (fun r => !r.2.1)).length
        let tb := rs.flatMap (fun r => if sh.c = 1 then r.1 else r.1.take (sh.kp - 24))
        let ok := fail == 0 && tbCrcOk x.a tb
        let t := t.store x.dst (bitBytes (tb.take x.a))
        let kept := if x.keep then t.keepRecord x bufs
          else ((if x.new then t.emptyHandle x.harq else t), true)
        let notStored := x.keep && !kept.2
        let t := kept.1.usedHandle x.harq
        let t := if notStored || lost then t.count (dsReg c 0x10C) (b2n notStored + b2n lost) else t
        .next (t.dsEnd c i x {
          status := if ok then 0 else 1
          info := (rs.map (·.2.2)).foldl max 0
          hflags := b2n lost + 2 * b2n notStored + 4 * b2n neural
          cbs := sh.c, cbFail := fail })

/-- R248: an LDPC_ENC job. -/
def execDsLdpcEnc (c : Fin 4) (i : Fin 256) (s : State) : Out :=
  unlessHalted s .radio <|
  match s.dsJob c i 2 with
  | none => .next s
  | some (x, _, t) =>
    let bad := t.rangeBad x.src x.inBytes
    let t := t.dsReads x.src x.inBytes
    if bad then .next (t.dsEcc c i x)
    else
      let bits := ldpcEncodeTb (x.b46 % 2) x.a x.e (x.b46 / 2) x.b47 x.b48 x.w56 x.w50
        (unpackBits x.a (t.load x.src x.inBytes))
      .next ((t.store x.dst (bitBytes bits)).dsEnd c i x { status := 0, cbs := x.shape.c })

/-- R252, R253: a POLAR_DEC job. -/
def execDsPolarDec (c : Fin 4) (i : Fin 256) (s : State) : Out :=
  unlessHalted s .radio <|
  match s.dsJob c i 3 with
  | none => .next s
  | some (x, _, t) =>
    let bad := t.rangeBad x.src x.e
    let t := t.dsReads x.src x.e
    if bad then .next (t.dsEcc c i x)
    else
      let vals := descramble x.w50 (t.llrs x.src x.e)
      let g := x.segs
      let rs := (List.range g.1).map (fun k => polarDecode g.2.1 g.2.2 ((vals.drop (k * g.2.2)).take g.2.2))
      let bits := rs.flatMap (·.1)
      let ok := rs.all (·.2.2)
      .next ((t.store x.dst (bitBytes ((bits.drop (bits.length - x.a)).take x.a))).dsEnd c i x {
        status := if ok then 0 else 1
        info := (rs.map (·.2.1)).foldl max 0
        cbs := g.1, cbFail := (rs.filter (fun r => !r.2.2)).length })

/-- R252: a POLAR_ENC job. -/
def execDsPolarEnc (c : Fin 4) (i : Fin 256) (s : State) : Out :=
  unlessHalted s .radio <|
  match s.dsJob c i 4 with
  | none => .next s
  | some (x, _, t) =>
    let bad := t.rangeBad x.src x.inBytes
    let t := t.dsReads x.src x.inBytes
    if bad then .next (t.dsEcc c i x)
    else
      let bits := polarEncode x.b46 x.a x.e x.rnti (unpackBits x.a (t.load x.src x.inBytes))
      .next ((t.store x.dst (bitBytes bits)).dsEnd c i x { status := 0, cbs := 1 })

/-- R255, R257: a TB_ENC job; with VERIFY its output is decoded again and compared. -/
def execDsTbEnc (c : Fin 4) (i : Fin 256) (s : State) : Out :=
  unlessHalted s .radio <|
  match s.dsJob c i 5 with
  | none => .next s
  | some (x, _, t) =>
    let bad := t.rangeBad x.src x.inBytes
    let t := t.dsReads x.src x.inBytes
    if bad then .next (t.dsEcc c i x)
    else
      let payload := unpackBits x.a (t.load x.src x.inBytes)
      let bits := tbEncode x.gens x.e x.rnti payload
      let r := tbDecode x.gens (x.a + 16) x.passes (bits.map (fun b => if b then -127 else 127))
      let bad := x.verify && (!r.2.1 || r.1.take x.a != payload)
      let t := t.store x.dst (bitBytes bits)
      let t := if bad then t.count (dsReg c 0x110) 1 else t
      .next (t.dsEnd c i x { status := if bad then 7 else 0, cbs := 1 })

/-- R256: a TB_DEC job. -/
def execDsTbDec (c : Fin 4) (i : Fin 256) (s : State) : Out :=
  unlessHalted s .radio <|
  match s.dsJob c i 6 with
  | none => .next s
  | some (x, _, t) =>
    let bad := t.rangeBad x.src x.e
    let t := t.dsReads x.src x.e
    if bad then .next (t.dsEcc c i x)
    else
      let r := tbDecode x.gens (x.a + 16) x.passes (t.llrs x.src x.e)
      let ok := tbBlock (r.1.take x.a) x.rnti == r.1
      .next ((t.store x.dst (bitBytes (r.1.take x.a))).dsEnd c i x {
        status := if ok then 0 else 1, info := r.2.2, hflags := 8 * b2n (!r.2.1)
        cbs := 1, cbFail := b2n (!ok) })

/-- R231, R247: the slot whose selection time a START is: SFN and slot within the frame. -/
def State.nselSlot (s : State) (c : Cell) (start : Nat) : Nat × Nat :=
  let tn : Int := (start : Int) - slotNs c.mu - (c.ta4MaxUs + c.nrxUs) * 1000
  let d := tn - gps0 - s.frameOfs
  ((d / 10 ^ 7 % 1024).toNat, (d % 10 ^ 7 / slotNs c.mu).toNat)

/-- R233: the classical set of a job is incomplete: capacity was lost, its cells are still to be shed, and Dibbers have not
written every value of it for the slot. -/
def State.setShort (s : State) (x : DsFields) (slot : Nat × Nat) : Bool :=
  (match s.fh.active with
    | some p => !(s.toShed p).isEmpty
    | none => false) &&
  !(s.fh.llrs.any (fun r => r.addr == x.src && r.sfn == slot.1 && r.slot == slot.2 && decide (x.e ≤ r.count)))

/-- R233: an allocation is reported to the host as not decoded. -/
def State.notDecoded (s : State) (cell : Nat) (slot : Nat × Nat) : State :=
  let t := s.count (fhBlock + 0x124) 1
  { t with fh := { t.fh with notes := t.fh.notes.map (fun n =>
      if n.cell = cell ∧ n.frame % 1024 = slot.1 ∧ n.slot = slot.2 ∧ n.uplink = true then
        { n with undecoded := n.undecoded + 1 } else n) } }

/-- R232, R247: at START the job's completion word is read, jobs of one START in copy order, and the neural or the classical
set is selected and counted.  A full completion ring holds back no selection. -/
def execDsNselRead (c : Fin 4) (i : Fin 256) (s : State) : Out :=
  unlessHalted s .radio <|
  let jobs := (s.dsOf c).jobs
  match jobs[i.val]? with
  | none => .next s
  | some j =>
    let x := DsFields.parse j.job
    let t := s.reachNs x.start
    let w := t.loadNat (sramBase .rd + x.w56) 8
    let slot := match s.runCells.find? (fun y => y.cell == x.cell) with
      | some y => t.nselSlot y x.start
      | none => (1024, 64)
    let fresh := w % 1024 == slot.1 && bitsOf w 15 10 == slot.2 && bitOf w 16
    let neural := fresh && !bitOf w 17
    let k := fhBlock + 0x1000 + 16 * x.cell
    let o := if neural then k else if fresh then k + 12 else k + 4
    let first := (jobs.take i.val).all (fun y =>
      let z := DsFields.parse y.job
      !(z.opc == 1 && z.nsel && z.start == x.start && y.sel.isNone))
    let u := ((t.dsReads (sramBase .rd + x.w56) 8).setDs c { t.dsOf c with
      jobs := (t.dsOf c).jobs.set i.val { j with sel := some neural } }).count o 1
    onlyIf (x.opc == 1 && x.nsel && j.sel.isNone && first && s.dsOn c && s.regBit (dsReg c 0) 0 && t.pastNs x.start) s
      (if !neural && t.setShort x slot then u.notDecoded x.cell slot else u)

/-- R246: a job that has not started by its DEADLINE completes LATE. -/
def execDsJobLate (c : Fin 4) (i : Fin 256) (s : State) : Out :=
  unlessHalted s .radio <|
  match (s.dsOf c).jobs[i.val]? with
  | none => .next s
  | some j =>
    let x := DsFields.parse j.job
    let t := s.reachNs (x.deadline + 1)
    onlyIf (s.dsOn c && s.regBit (dsReg c 0) 0 && !s.dsFull c && t.pastNs (x.deadline + 1)) s
      ((t.count (dsReg c 0x108) 1).dsEnd c i x { status := 2 })

/-- R261, R262: ABORT: every job of the table completes ABORTED, in table order; handles they name become
LOST.  A completion ring without room stops it (log 26). -/
def execDsCtrlAbort (m : Agent) (c : Fin 4) (v : Word) (s : State) : Out :=
  let t := s.setReg (dsReg c 0) (v.toNat &&& 0x31)
  agentIf m (m.isRd && s.dieOn .rd) s
    ((t.dsOf c).jobs.foldl (fun t j =>
      let x := DsFields.parse j.job
      if t.dsFull c then t
      else (if x.opc = 1 then t.loseHandle x.harq else t).dsEnd c 0 x { status := 6 }) t)

/-- R263: DS_CTRL with ABORT = 0. -/
def execDsCtrlEnable (m : Agent) (c : Fin 4) (v : Word) (s : State) : Out :=
  agentIf m (m.isRd && s.dieOn .rd) s (s.setReg (dsReg c 0) (v.toNat &&& 0x31))

/-! ### HARQ commands (R260 to R263) -/

/-- R262: FREE empties a handle once no table job names it. -/
def execDsHarqFree (m : Agent) (h : BitVec 14) (s : State) : Out :=
  agentIf m (m.isRd && s.dieOn .rd) s
    ({ s with ds := { s.ds with freeing := s.ds.freeing ++ [h.toNat] } }).settleFrees

/-- R263: PREFETCH brings an HBM record into RD SRAM. -/
def execDsHarqPrefetch (m : Agent) (h : BitVec 14) (s : State) : Out :=
  agentIf m (m.isRd && s.dieOn .rd) s (s.harqFetch h.toNat)

/-- R260: space is needed in the RD pool: a handle waits for it to come back, or a KEEP of a table job does. -/
def State.harqNeed (s : State) : Bool :=
  !s.ds.wants.isEmpty || s.ds.cluster.any (fun e => e.2.jobs.any (fun j =>
    (DsFields.parse j.job).opc == 1 && s.keepNoRoom (DsFields.parse j.job)))

/-- R260: where space is needed and no spill runs that may make it, the RD record with the oldest LAST_USE that no table job
names starts its way to the spill pool. -/
def execHarqSpill (s : State) : Out :=
  unlessHalted s .radio <|
  match s.spillVictim with
  | none => .next s
  | some h =>
    let x := s.handle h
    match s.harqRoom true x.len with
    | none => .next s
    | some a =>
      let mv : HarqMove := { handle := h, toHbm := true, dst := a }
      let t := s.setHandle h { x with st := 3 }
      onlyIf (s.harqNeed && s.ds.moves.all (fun y => !y.toHbm)) s { t with ds := { t.ds with moves := t.ds.moves ++ [mv] } }

/-- R260, R261: a spill or fetch copy ends: the record is in its new place, or LOST after an
uncorrectable error or with the stack out of reach; a handle that became LOST or EMPTY meanwhile stays so.  Handles that wait
for room are then tried again. -/
def execHarqSpillDone (h : BitVec 14) (s : State) : Out :=
  unlessHalted s .radio <|
  match s.ds.moves.find? (fun m => m.handle == h.toNat) with
  | none => .next s
  | some m =>
    let x := s.handle m.handle
    let t := { s with ds := { s.ds with moves := s.ds.moves.filter (fun y => y.handle != m.handle) } }
    let u := if x.st ≠ 3 then t
      else if s.rangeBad x.addr x.len || !s.rangeOk x.addr x.len || !s.rangeOk m.dst x.len then
        (t.dsReads x.addr x.len).loseHandle m.handle
      else
        ((t.dsReads x.addr x.len).store m.dst (s.load x.addr x.len)).setHandle m.handle
          { x with st := if m.toHbm then 2 else 1, addr := m.dst }
    .next u.settleFrees

/-- R239: at T_ACT an accepted plan takes effect, or an accepted UNLOAD ends the plan; R262: handles of
the cells that stop become EMPTY once no job names them. -/
def execFhPlanActivate (s : State) : Out :=
  unlessHalted s .radio <|
  let done (due : Nat) (f : State → State) : Out :=
    let r := s.reachNs due
    let before := s.runCells.map (·.cell)
    let t := f r
    let after := t.runCells.map (·.cell)
    let gone := before.filter (fun c => !after.contains c)
    let hs := s.handles.filter (fun h => gone.contains (s.handle h).cell)
    onlyIf (r.pastNs due) s ({ t with ds := { t.ds with freeing := t.ds.freeing ++ hs } }).settleFrees
  match s.fh.next, s.fh.unload with
  | some p, some d => if d < p.tAct then done d State.endPlan else done p.tAct (fun t => t.activatePlan p)
  | some p, none => done p.tAct (fun t => t.activatePlan p)
  | none, some d => done d State.endPlan
  | none, none => .next s

end Sys2Proof.Machine
end

