-- ==== Sys2Proof/Machine/Serving.lean ====
section
/-! DEFINITION.  Chapter 07: the commands of tenants and what the Harbourmaster does with requests, berths,
checkpoints, the berth table and the model slots. -/

namespace Sys2Proof.Machine

/-! ### Submission entries (R142) -/

/-- R142: the fields of a submission entry. -/
structure SubEntry where
  opc : Nat
  flags : Nat
  slot : Nat
  slotHi : Nat
  cq : Nat
  tag : Nat
  rid : Nat
  reserved : Bool
  ntok : Nat
  tokAddr : Nat
  paramAddr : Nat
  seed : Nat
  maxNew : Nat
  ttl : Nat
  deriving DecidableEq, Repr

def SubEntry.parse (x : BitVec 512) : SubEntry :=
  let b := leBytes 64 x.toNat
  { opc := fieldAt b 0 1, flags := fieldAt b 1 1, slot := fieldAt b 2 1 % 16, slotHi := fieldAt b 2 1 / 16
    cq := fieldAt b 3 1 % 8, tag := fieldAt b 4 4, rid := fieldAt b 8 3
    reserved := fieldAt b 11 1 != 0 || fieldAt b 48 16 != 0 || decide (8 ≤ fieldAt b 3 1)
    ntok := fieldAt b 12 4, tokAddr := fieldAt b 16 8, paramAddr := fieldAt b 24 8, seed := fieldAt b 32 8
    maxNew := fieldAt b 40 4, ttl := fieldAt b 44 4 }

/-- The entry leaves the Harbourmaster's command queue, where it is the next. -/
def State.takeCmd (s : State) (f sq : Nat) (e : BitVec 512) : State :=
  match s.hm.cmdq with
  | c :: cs =>
    if c.fn = f ∧ c.sq = sq ∧ c.entry = e then { s with hm := { s.hm with cmdq := cs } } else s
  | [] => s

/-- R145: post REFUSED to the CQ named in the entry. -/
def State.refuse (s : State) (f : Nat) (e : SubEntry) (rid status : Nat) : State :=
  let s := if status = 9 then (s.count (hmBlock + 0x040) 1).fnCount f .notFound 1 else s
  s.postCq f e.cq (eventEntry rid 9 e.tag status 0 0 0 [])

/-- R145: post ACK to the CQ named in the entry. -/
def State.ack (s : State) (f : Nat) (e : SubEntry) : State :=
  s.postCq f e.cq (eventEntry e.rid 0xA e.tag 0 0 0 0 [])

/-- R138: the manifest that has been FREE longest; of those never used, the lowest (log 39). -/
def State.nextFree (s : State) : Option Nat :=
  if s.hm.virgin < 262144 then some s.hm.virgin else s.hm.freed.head?

/-- Take the manifest that nextFree names. -/
def State.allocMan (s : State) : State :=
  if s.hm.virgin < 262144 then { s with hm := { s.hm with virgin := s.hm.virgin + 1 } }
  else { s with hm := { s.hm with freed := s.hm.freed.drop 1 } }

/-- R151: the status of the first check of a SUBMIT that fails. -/
def State.submitCheck (s : State) (e : SubEntry) : Option Nat :=
  let r := s.slotOf e.slot
  if 32 ≤ e.flags ∨ e.slotHi ≠ 0 ∨ e.reserved = true ∨ 86400 < e.ttl then some 2
  else if r.st ≠ .ready then some 3
  else if bitOf e.flags 1 = true ∧ r.specExact = false then some 2
  else if r.maxCtx < e.ntok then some 5
  else if e.ntok = 0 ∨ e.maxNew = 0 ∨ r.maxCtx < e.maxNew then some 2
  else if s.det.active = true ∧ bitOf e.flags 4 = false then some 8
  else if s.nextFree.isNone then some 4
  else none

/-- R151: SUBMIT: refused, or a manifest in ADMITTED with ADMITTED posted.  A request for which Rake or Sieve has no
parameter record ends with FAILED (R165). -/
def execSubmit (f : Fin 513) (sq : Fin 8) (entry : BitVec 512) (s : State) : Out :=
  let e := SubEntry.parse entry
  let t := s.takeCmd f sq entry
  unlessHalted s .inference (onlyIf (e.opc == 1) s
    (match t.submitCheck e, t.nextFree with
    | some st, _ => t.refuse f e 0 st
    | none, none => t.refuse f e 0 4
    | none, some i =>
      let seeded := bitOf e.flags 4
      let seed := if seeded then e.seed else t.freeNat % 2 ^ 64
      let t := if seeded then t else t.drew 1
      let sel := bitOf e.flags 0
      let rec_ := t.freeRec sel
      let m : Manifest :=
        { st := .admitted, gen := (t.manOf i).gen, flags := e.flags % 16, fn := f, sq := sq, cq := e.cq
          slot := e.slot, tag := e.tag, seed := seed, ctx := e.ntok, endAt := e.maxNew
          ttl := if e.ttl = 0 then (t.slotOf e.slot).ttlDef else e.ttl
          entry := entry, phase := .reading, selp := rec_.getD 0, hasRec := rec_.isSome, seeded := seeded
          fw := t.boot.fwDigest, det := t.det.mode && !t.det.pending, epoch := t.det.epoch, updates := t.boot.updates }
      let u := (t.allocMan.setMan i m).postEvent i 1 0 0 (seed % 2 ^ 32)
      if rec_.isSome then u
      else (u.count (if sel then svBlock + 0x010 else rkBlock + 0x010) 1).endRequest i 8 7 0))

/-- R139: the manifest that a tenant command names, if the RID is current and its own. -/
def State.named (s : State) (f rid : Nat) : Option Nat :=
  let i := rid % 2 ^ 18
  let m := s.manOf i
  if m.gen = rid / 2 ^ 18 ∧ m.st ≠ .free ∧ m.st ≠ .quiet ∧ m.fn = f then some i else none

/-- The frame of every command that names a request: reserved bits, then NOT_FOUND, then the command. -/
def State.requestCmd (s : State) (opc : Nat) (f sq : Nat) (entry : BitVec 512)
    (act : SubEntry → Nat → Manifest → State → State) : Out :=
  let e := SubEntry.parse entry
  let t := s.takeCmd f sq entry
  unlessHalted s .inference (onlyIf (e.opc == opc) s
    (if 32 ≤ e.flags ∨ e.reserved = true then t.refuse f e e.rid 2
     else match t.named f e.rid with
      | none => t.refuse f e e.rid 9
      | some i => act e i (t.manOf i) t))

/-- R146, R181: PAUSE; drafts not yet verified are discarded. -/
def execPause (f : Fin 513) (sq : Fin 8) (entry : BitVec 512) (s : State) : Out :=
  s.requestCmd 2 f sq entry (fun e i m t =>
    if m.pend ≠ 0 then t.refuse f e e.rid 0xA
    else match m.st with
      | .admitted | .prefill | .resuming => (t.setMan i { m with pend := 2 }).ack f e
      | .ready => (t.ack f e).pauseBegin i 3 true
      | .decode =>
        (t.setMan i { m with pend := 2, drafts := [], leave := if m.leave = .none then .pause else m.leave }).ack f e
      | _ => t.refuse f e e.rid 0xA)

/-- R161: RESUMED is posted, END_AT moves, and the request goes to READY or to reading its appended tokens; R362: the
input digest of a turn without appended tokens. -/
def State.doResume (s : State) (i : Nat) (entry : BitVec 512) : State :=
  let e := SubEntry.parse entry
  let t := s.postEvent i 5 0 0 0
  let m := t.manOf i
  let m' : Manifest :=
    { m with entry := entry, pend := 0, endAt := m.step + e.maxNew, ctx := m.ctx + e.ntok, autSt := m.auto.start
             turn := m.turn + 1, turnEnd := none, phase := .reading, pre := e.ntok, counted := []
             drafts := [], selected := false }
  if e.ntok = 0 then
    let h := Config.sha3 (leBytes 32 m.hIn.toNat ++ leBytes 4 (m.step - m.stepFirst))
    ((t.setMan i { m' with hIn := h, stepFirst := m.step }).bindDumps i).makeReady i
  else t.setMan i { m' with st := .resuming }

/-- R146, R160, R161: RESUME. -/
def execResume (f : Fin 513) (sq : Fin 8) (entry : BitVec 512) (s : State) : Out :=
  s.requestCmd 3 f sq entry (fun e i m t =>
    let r := t.slotOf m.slot
    let bad := if m.pend ≠ 0 ∨ ¬ (m.st = .pausing ∨ m.st = .paused) then some 0xA
      else if m.st = .paused ∧ m.expiry ≤ t.T then some 0xB
      else if r.maxCtx < m.ctx + e.ntok then some 5
      else if e.maxNew = 0 ∨ r.maxCtx < e.maxNew then some 2
      else none
    match bad with
    | some st => t.refuse f e e.rid st
    | none =>
      if m.st = .pausing then (t.setMan i { m with pend := 3, entry := entry, sq := sq }).ack f e
      else ((t.setMan i { m with sq := sq }).ack f e).doResume i entry)

/-- R146, R181: CANCEL; drafts not yet verified are discarded. -/
def execCancel (f : Fin 513) (sq : Fin 8) (entry : BitVec 512) (s : State) : Out :=
  s.requestCmd 4 f sq entry (fun e i m t =>
    match m.st with
    | .decode =>
      if m.pend ≠ 0 then t.refuse f e e.rid 0xA
      else (t.setMan i { m with pend := 4, drafts := [], leave := if m.leave = .none then .cancel else m.leave }).ack f e
    | .admitted | .prefill | .ready | .pausing | .paused | .resuming => (t.ack f e).endRequest i 7 0 0
    | _ => t.refuse f e e.rid 0xA)

/-- R160: TOUCH. -/
def execTouch (f : Fin 513) (sq : Fin 8) (entry : BitVec 512) (s : State) : Out :=
  s.requestCmd 5 f sq entry (fun e i m t =>
    let ttl := if e.ttl = 0 then (t.slotOf m.slot).ttlDef else e.ttl
    if 86400 < e.ttl then t.refuse f e e.rid 2
    else match m.st with
      | .pausing => (t.setMan i { m with ttl := ttl }).ack f e
      | .paused =>
        if m.expiry ≤ t.T then t.refuse f e e.rid 0xB
        else (t.setMan i { m with ttl := ttl, expiry := t.T + ttl * 10 ^ 9 }).ack f e
      | _ => t.refuse f e e.rid 0xA)

/-- R142: an unknown OPC is refused with BAD_OPCODE; the spec names no RID for it (a free value, log 6). -/
def execSqBadOpcode (f : Fin 513) (sq : Fin 8) (entry : BitVec 512) (s : State) : Out :=
  let e := SubEntry.parse entry
  let t := s.takeCmd f sq entry
  unlessHalted s .inference (onlyIf (e.opc == 0 || decide (5 < e.opc)) s
    ((t.drew 1).refuse f e (t.freeNat % 2 ^ 24) 1))

/-! ### Admission and prefill (R151, R152) -/

/-- R142, R151: the tokens of a buffer; none where one is at or above VOCAB or has bits 31:18 set. -/
def readTokens (bs : List Byte) (n vocab : Nat) : Option (List Nat) :=
  let ts := (List.range n).map (fun k => fieldAt bs (4 * k) 4)
  if ts.all (fun t => decide (t < vocab) && decide (t < 2 ^ 18)) then some ts else none

/-- R151, R166, R174: the prompt, the parameter block and an allow-list have been read, or a fault or refusal ends the
request with FAILED. -/
def State.promptRead (s : State) (i : Nat) (e : SubEntry) : State :=
  let m := s.manOf i
  let r := s.slotOf m.slot
  let p := s.sqPasid m.fn m.sq
  match s.tenantRead m.fn p e.tokAddr (4 * e.ntok) with
  | (t, none) => t.endRequest i 8 6 0
  | (t, some tb) =>
    match t.tenantRead m.fn p e.paramAddr 128 with
    | (u, none) => u.endRequest i 8 6 0
    | (u, some pb) =>
      match readTokens tb e.ntok r.vocab with
      | none => u.endRequest i 8 2 0
      | some toks =>
        if e.paramAddr % 64 ≠ 0 ∨ paramOk pb m.sel m.spec r.vocab = false then u.endRequest i 8 7 0
        else
          let m := { m with toks := toks, param := pb, pre := e.ntok }
          let stops := stopTokens pb
          if m.sel = false then
            (u.setMan i { m with phase := .place, hIn := Config.sha3 (pb ++ tb) }).bindDumps i
          else if fieldAt pb 1 1 = 1 then (u.setMan i { m with phase := .store, svBytes := tb }).bindDumps i
          else
            let n := fieldAt pb 64 4
            match u.tenantRead m.fn p (fieldAt pb 56 8) (4 * min n 65537) with
            | (v, none) => v.endRequest i 8 6 0
            | (v, some ab) =>
              match parseAllow ab n r.vocab stops with
              | none => v.endRequest i 8 7 0
              | some a =>
                (v.setMan i { m with phase := .store, auto := a, autSt := 0, hIn := Config.sha3 (pb ++ ab ++ tb) }).bindDumps i

/-- R161, R362: the appended tokens have been read. -/
def State.appendRead (s : State) (i : Nat) (e : SubEntry) : State :=
  let m := s.manOf i
  match s.tenantRead m.fn (s.sqPasid m.fn m.sq) e.tokAddr (4 * e.ntok) with
  | (t, none) => t.endRequest i 8 6 0
  | (t, some tb) =>
    match readTokens tb e.ntok (t.slotOf m.slot).vocab with
    | none => t.endRequest i 8 2 0
    | some toks =>
      let h := Config.sha3 (leBytes 32 m.hIn.toNat ++ leBytes 4 (m.step - m.stepFirst) ++ tb)
      (t.setMan i { m with toks := m.toks ++ toks, hIn := h, stepFirst := m.step, phase := .place }).bindDumps i

/-- R151, R161: the reads of request i are done. -/
def execPromptReadDone (i : Fin 262144) (s : State) : Out :=
  let m := s.manOf i
  let e := SubEntry.parse m.entry
  unlessHalted s .inference (onlyIf (m.phase == .reading && (m.st == .admitted || m.st == .resuming)) s
    (if m.st = .admitted then s.promptRead i e else s.appendRead i e))

/-- R152: prompt tokens queued on a prompt die. -/
def State.queuedTokens (s : State) (n : Nat) : Nat :=
  ((s.liveMen.filter (fun e => e.2.pd == n && e.2.phase == .running &&
    (e.2.st == .prefill || e.2.st == .resuming))).map (·.2.pre)).sum

/-- R152: the prompt die a prefill goes to: of those the mask allows, the one with the fewest queued tokens, ties to
the lowest. -/
def State.prefillDie (s : State) (fn : Nat) : Option Nat :=
  let ns := (List.range 4).filter (fun n => s.mayPd fn n)
  ns.find? (fun n => ns.all (fun k => decide (s.queuedTokens n < s.queuedTokens k) ||
    (decide (s.queuedTokens n = s.queuedTokens k) && decide (n ≤ k))))

/-- R152, R183, R189: a descriptor of a VF and slot would have a context on the die now; where it would wait, a lower-ranked VF
gives one up. -/
def State.contextFor (s : State) (d : Die) (vf slot : Nat) : State × Bool :=
  if s.sh.ctx.any (fun e => e.1 / 8 == d.index && e.2.vf == vf && e.2.slot == slot) then (s, true)
  else match s.settle.canMake d vf slot with
    | some _ => (s, true)
    | none => (s.evict d vf, false)

/-- Add berths of a prefill in the given frames; false where the table holds the request (R150). -/
def State.addBerths (s : State) (i : Nat) : List (Tier × Nat) → State × Bool
  | [] => (s, true)
  | (t, f) :: r =>
    match s.addBerth i t f with
    | (u, true) => u.addBerths i r
    | (u, false) => (u, false)

/-- R152: the free frames of a slot on PDn, those of its SRAM before those of its HBM. -/
def State.prefillFrames (s : State) (slot n : Nat) : List (Tier × Nat) :=
  (s.freeFrames slot (.pdSram n)).map (fun f => (Tier.pdSram n, f)) ++
    (s.freeFrames slot (.pdHbm n)).map (fun f => (Tier.pdHbm n, f))

/-- Berths that the context of a request still needs. -/
def Manifest.berthsShort (m : Manifest) : Nat := ceilDiv m.ctx 64 - m.entries.length

/-- R150, R152: new berths of a prefill on PDn, as far as frames are free; without one the prefill waits (log 147). -/
def State.growPrefill (s : State) (i n : Nat) : State :=
  let m := s.manOf i
  let fs := (s.prefillFrames m.slot n).take m.berthsShort
  if m.berthsShort = 0 then s
  else if fs.isEmpty then s.waitOnce i (hmBlock + 0x048)
  else match s.addBerths i fs with
    | (t, true) => t.modMan i (fun m => { m with counted := [] })
    | (t, false) => t.btHold i

/-- R152, R161: place the prefill of request i on PDn: a partly filled last berth moves to a frame of its SRAM; it waits where no
frame is free that it needs, or no context; got holds the moved berth's bytes where it lies at COLD_PEER. -/
def State.placePrefill (s : State) (i n : Nat) (got : List Byte) : State :=
  let m := s.manOf i
  let r := s.slotOf m.slot
  let part := if m.st = .resuming ∧ m.written % 64 ≠ 0 then m.entries.getLast? else none
  let sram := s.freeFrames m.slot (.pdSram n)
  let rest := (s.prefillFrames m.slot n).drop (b2n part.isSome)
  if (part.isSome && sram.isEmpty) || (decide (0 < m.berthsShort) && rest.isEmpty) then s.waitOnce i (hmBlock + 0x048)
  else
    match s.contextFor (Die.ofIndex n) m.fn m.slot with
    | (v, false) => v
    | (v, true) =>
      let t : State := match part, sram with
        | some k, f :: _ =>
          let b := v.berthOf k
          (v.copyBerth r b.tier b.frame (.pdSram n) f got).setBerth k { b with tier := .pdSram n, frame := f }
        | _, _ => v
      match t.addBerths i (rest.take m.berthsShort) with
      | (_, false) => s.btHold i
      | (u, true) =>
        let u := u.modMan i (fun m => { m with
          pd := n, phase := .running, counted := [], recMark := u.sh.recs.length
          st := if m.st = .admitted then .prefill else m.st })
        { u with hm := { u.hm with prefills := u.hm.prefills ++ [i] } }

/-- R152: the Harbourmaster places a waiting prefill; R388: none starts while RADIO_ONLY is in force.  A prefill that runs short
of frames goes on as they come free. -/
def execPrefillPlace (i : Fin 262144) (peer : List Byte) (s : State) : Out :=
  let m := s.manOf i
  unlessHalted s .inference
    (if m.phase = .place then
      onlyIf ((m.st == .admitted || m.st == .resuming) && !s.radioOnly) s
        (match s.prefillDie m.fn with
        | none => s.waitOnce i (hmBlock + 0x050)
        | some n => (s.modMan i (fun m => { m with counted := m.counted.filter (· != hmBlock + 0x050) })).placePrefill i n peer)
    else onlyIf (m.phase == .running && (m.st == .prefill || m.st == .resuming)) s (s.growPrefill i m.pd))

/-- R152, R156: the first token is selected from the logits of the last position, and the request goes to READY, ends its
turn, or takes a pending PAUSE. -/
def State.firstToken (s : State) (i : Nat) (logits : List Nat) (dumps : List DumpData) : State :=
  let m := s.manOf i
  match m.choose m.toks m.autSt logits m.step 0 with
  | none => (s.noToken i).endRequest i 8 0xD 0
  | some (tok, stop, z) =>
    let u := if m.sel then s else s.countSel
    let u := ((u.acceptToken i tok stop z).emitTokens i [tok]).dueDumps i dumps
    match (u.manOf i).turnEnd with
    | some why => u.turnEnds i why
    | none => if m.pend = 2 then u.pauseBegin i 3 true else u.makeReady i

/-- R144: a descriptor of the prefill has failed: a completion record of its context, posted since its turn came, with a status
other than OK. -/
def State.prefillFailed (s : State) (m : Manifest) : Bool :=
  (s.sh.recs.drop m.recMark).any (fun r => r.die == m.pd && r.vf == m.fn && r.slot == m.slot && r.record.toNat % 256 != 0)

/-- R139: the manifest an internal arrival names; a stale one is dropped and counted. -/
def State.arrival (s : State) (rid : BitVec 24) (act : Nat → Manifest → State) : State :=
  let i := rid.toNat % 2 ^ 18
  let m := s.manOf i
  if m.gen = rid.toNat / 2 ^ 18 ∧ m.st ≠ .free ∧ m.st ≠ .quiet then act i m else s.count (hmBlock + 0x040) 1

/-- R139, R144, R152, R157: the prefill of a request ends, the first of its context: a failed descriptor ends the request with
EXEC_ERROR; otherwise its positions are written, copied to CKPT_PEER, and the first token is selected. -/
def execPrefillDone (rid : BitVec 24) (logits : List Word) (dumps : List DumpData) (s : State) : Out :=
  unlessHalted s .inference (.next (s.arrival rid (fun i m =>
    let t := ((s.setWritten i m.ctx).modMan i (fun m => { m with pre := 0, phase := .reading })).fnCount m.fn .prefilled m.pre
    let t := (t.prefillOver i).issueMirror i false
    if m.phase ≠ .running ∨ ¬ (m.st = .prefill ∨ m.st = .resuming) ∨ s.prefillFirst i = false then s
    else if s.prefillFailed m then s.endRequest i 8 0xD 0
    else if 0 < m.berthsShort ∨ logits.length ≠ (s.slotOf m.slot).vocab then s
    else t.firstToken i (logits.map (·.toNat)) dumps)))

/-! ### The decode batch (R153 to R158) -/

/-- R154: every berth of a request is in the GD tier. -/
def State.pullDone (s : State) (m : Manifest) : Bool := m.entries.all (fun k => (s.berthOf k).tier == .gd)

/-- R141, R146, R155, R156, R181: what a step boundary brings one request: a failure, an unload or a CANCEL ends it; a turn that has
ended ends it or pauses it; a PAUSE pauses it (log 114). -/
def State.afterStep (s : State) (dumps : List DumpData) (i : Nat) : State :=
  let t := (s.modMan i (fun m => { m with selected := false, drafts := [], frames := [] })).dueDumps i dumps
  let m := t.manOf i
  match m.leave, m.turnEnd with
  | .fail st, _ => t.endRequest i 8 st 0
  | .flr, _ => t.reclaim i
  | .unload, _ => t.endRequest i 8 0xF 0
  | .cancel, _ => t.endRequest i 7 0 0
  | .pause, some why => if m.pauseAtEnd then t.pauseBegin i why false else t.pauseBegin i 3 true
  | .pause, none => t.pauseBegin i 3 true
  | .none, some why => if m.pauseAtEnd then t.pauseBegin i why false else t.endRequest i 3 0 why
  | .none, none =>
    let u := if m.entries.length * 64 < m.ctx - 1 then (t.growBerth i).1 else t
    u.setWritten i (max m.written (min (m.ctx - 1) ((u.manOf i).entries.length * 64)))

/-- R145, R148: a request in DECODE takes part in its slot's next step where its completion queue has room, a berth
holds its next position, and a spare frame is free. -/
def State.rejoin (s : State) (i : Nat) : State :=
  let m := s.manOf i
  if s.cqFull m.fn m.cq then s.setMan i { m with inBatch := false }
  else
    let t := s.takeSpare i
    let g := if (t.manOf i).entries.length * 64 < m.ctx then t.growBerth i else (t, true)
    let t := if g.2 then g.1.takeSpare i else g.1
    if g.2 = false ∧ (t.manOf i).spare.isSome = true then (t.btHold i).modMan i (fun m => { m with inBatch := false })
    else if (t.manOf i).spare.isNone then (t.waitOnce i (hmBlock + 0x048)).modMan i (fun m => { m with inBatch := false })
    else t.modMan i (fun m => { m with inBatch := true, counted := [] })

/-- R153: a READY request joins where a GD frame is free for every berth and one for growth; the pull begins. -/
def State.joinBatch (s : State) (i : Nat) : State :=
  let m := s.manOf i
  let n := m.entries.length
  let free := s.freeFrames m.slot .gd
  if s.cqFull m.fn m.cq then s
  else if free.length < n + 1 then s.waitOnce i (hmBlock + 0x048)
  else
    let t := s.setMan i { m with st := .decode, inBatch := true, frames := free.take n, spare := free[n]?, counted := [] }
    if n * 64 < m.ctx then (t.growBerth i).1.rejoin i else t

/-- R145, R441: the requests of a slot that sit its step out. -/
def State.sitOut (s : State) (slot : Nat) : State :=
  (s.liveMen.filter (fun e => e.2.st == .decode && e.2.slot == slot && !e.2.inBatch)).foldl (fun s e =>
    if s.cqFull e.2.fn e.2.cq then s.fnCount e.2.fn .cqHeld 1 else s) s

/-- R153: form the batch of a slot. -/
def State.formBatch (s : State) (slot : Nat) : State :=
  let men := s.liveMen.filter (fun e => e.2.slot == slot)
  let t := (men.filter (fun e => e.2.st == .decode)).foldl (fun s e => s.rejoin e.1) s
  let t := (men.filter (fun e => e.2.st == .ready)).foldl (fun s e => s.joinBatch e.1) t
  let u := if t.inBatch.isEmpty then t else t.sitOut slot
  { u with hm := { u.hm with batch := some slot } }

/-- R153: slots alternate in the order their first request became READY; the next one that can form a batch does. -/
def State.nextBatch (s : State) : List Nat → State
  | [] => { s with hm := { s.hm with batch := none } }
  | k :: ks =>
    let t := s.formBatch k
    if t.inBatch.isEmpty then t.nextBatch ks else t

/-- R153: the slots with a request in READY or DECODE, the one after the last batch's first. -/
def State.turnOrder (s : State) : List Nat :=
  let ks := s.hm.order.filter (fun k => s.liveMen.any (fun e =>
    e.2.slot == k && (e.2.st == .ready || e.2.st == .decode)))
  match s.hm.batch with
  | some b => match ks.idxOf? b with
    | some j => ks.drop (j + 1) ++ ks.take (j + 1)
    | none => ks
  | none => ks

/-- R185: the step's time is charged to its requests' VFs. -/
def State.chargeStep (s : State) (is_ : List Nat) : State :=
  is_.foldl (fun s i => s.charge (s.manOf i).fn (16 * (s.T - s.hm.stepT) / is_.length)) s.settle

/-- R144: a decode job of the step has failed: a descriptor of a generation die for the batch's slot, or a job of a Drip
sequencer that is in ERROR. -/
def State.decodeFailed (s : State) : Bool :=
  match s.hm.batch with
  | some k =>
    (s.sh.recs.drop s.hm.stepMark).any (fun r => decide (4 ≤ r.die) && decide (r.die < 8) && r.slot == k &&
      r.record.toNat % 256 != 0) ||
    (List.range (s.slotOf k).shards).any (fun n => (s.dlOf n).halt == .error)
  | none => false

/-- R157, R158, R164: a boundary at which the batch's step count is a multiple of CADENCE: every request in DECODE is checkpointed,
whether or not it was in the batch, and a change of CADENCE applies from there on; without checkpoints it applies at once. -/
def State.checkpointAll (s : State) : State :=
  if s.hm.cadence = 0 then { s with hm := { s.hm with cadence := s.regN hmBlock } }
  else if s.hm.steps % s.hm.cadence ≠ 0 then s
  else
    let t := (s.liveMen.filter (fun e => e.2.st == .decode)).foldl (fun s e => s.takeCkpt e.1) s
    { t with hm := { t.hm with cadence := t.regN hmBlock } }

/-- R153, R155, R157: the step in progress ends: its requests leave, pause, end or go on; one whose decode job has failed ends
with EXEC_ERROR (R144). -/
def State.endStep (s : State) (dumps : List DumpData) : State :=
  let is_ := s.inBatch
  let u := s.chargeStep is_
  let u : State := { u with hm := { u.hm with stepping := false, steps := u.hm.steps + 1 } }
  let u := u.trace 4 0x121 0xFFFF 0xFFFF 0x3FF (u.hm.steps % 2 ^ 32 + is_.length % 2 ^ 16 * 2 ^ 32)
  let u := if s.decodeFailed then is_.foldl (fun s i => s.modMan i (fun m => { m with leave := .fail 0xD })) u else u
  (is_.foldl (fun s i => s.afterStep dumps i) u).checkpointAll

/-- R141, R146, R150: requests in DECODE that sat the step out and are to leave do so at the boundary too. -/
def State.leaveIdle (s : State) (dumps : List DumpData) : State :=
  (s.liveMen.filter (fun e => e.2.st == .decode && !e.2.inBatch && (e.2.leave != .none || e.2.turnEnd.isSome))).foldl
    (fun s e => s.afterStep dumps e.1) s

/-- R153: the batch dissolves and the next one forms; none does while RADIO_ONLY is in force (R388). -/
def State.formNext (s : State) : State :=
  let t := { s with hm := { s.hm with order := s.turnOrder } }
  let t := t.inBatch.foldl (fun s i => s.modMan i (fun m => { m with inBatch := false })) t
  if s.radioOnly then { t with hm := { t.hm with batch := none } } else t.nextBatch t.hm.order

/-- Every request of the batch has its tokens of this step, or has failed in it (R144, R155). -/
def State.stepSelected (s : State) : Bool :=
  s.decodeFailed || s.inBatch.all (fun i => (s.manOf i).selected || match (s.manOf i).leave with
    | .fail _ => true
    | _ => false)

/-- R153: a step boundary: the step that runs ends, and the next batch forms. -/
def execDecodeStepBoundary (dumps : List DumpData) (s : State) : Out :=
  unlessHalted s .inference (onlyIf (if s.hm.stepping then s.stepSelected else s.inBatch.isEmpty) s
    ((if s.hm.stepping then s.endStep dumps else s).leaveIdle dumps).formNext)

/-- R154, R157: what a request's first and later steps set going: the pull engines fetch every portion that is not in the GD
tier, in layer-major order, as BULK traffic or, from COLD_PEER, as Zelic copies; and the positions of the step before are
copied to CKPT_PEER. -/
def State.startStep (s : State) (i : Nat) : State :=
  let m := s.manOf i
  let t := if m.inBatch = false ∨ m.frames.isEmpty = true then s
    else
      let ks := (m.entries.zipIdx.filter (fun e => (s.berthOf e.1).tier != .gd)).map (·.2)
      s.setMan i { m with pulls := (s.slotOf m.slot).portions ks }
  t.issueMirror i true

/-- R158: the next step begins once every checkpoint of the boundary before it has committed or failed. -/
def execDecodeStepStart (s : State) : Out :=
  let t := (s.liveMen.filter (fun e => e.2.st == .decode)).foldl (fun s e => s.startStep e.1) s
  unlessHalted s .inference
    (onlyIf (!s.hm.stepping && !s.inBatch.isEmpty && !s.radioOnly &&
      s.liveMen.all (fun e => e.2.ckptFlight.isNone)) s
      { t with hm := { t.hm with stepping := true, stepT := s.T, stepMark := s.sh.recs.length } })

/-- Where berth j of a request is moving: to its GD frame in a pull (R154), to the cold frame in a pause (R159). -/
def Manifest.goal (m : Manifest) (j : Nat) : Option (Tier × Nat) :=
  match m.st with
  | .decode => m.frames[j]?.map (fun f => (Tier.gd, f))
  | .pausing => (m.moves.find? (fun x => x.1 == j)).map (·.2)
  | _ => none

/-- R154, R159: the portion is one under way: of a pull the next of its slice, in layer-major order, in a step that runs; of a
pause any that has not landed. -/
def State.portionDue (s : State) (m : Manifest) (p : Nat × Nat × Nat) : Bool :=
  if m.st = .decode then s.hm.stepping && m.inBatch && m.pulls.find? (fun q => q.1 == p.1) == some p
  else m.pulls.contains p

/-- R154: every slice of berth j is at its new place: the entry is rewritten in one write and the source frame is free, but that of
a COLD_PEER frame that is kept as the mirror (R157). -/
def State.berthLands (s : State) (i j : Nat) (t : Tier) (f : Nat) : State :=
  let m := s.manOf i
  let r := s.slotOf m.slot
  match m.entries[j]? with
  | none => s
  | some k =>
    let b := s.berthOf k
    let keep := b.tier == .coldPeer && r.coldPeer == r.ckptPeer && s.ckptActive m.slot
    let b' : Berth := { b with tier := t, frame := f, pulled := 0 }
    let u := s.setBerth k (if keep then { b' with peer := b.frame, mirrored := true } else b')
    (u.modMan i (fun m => { m with
      moves := m.moves.filter (fun x => x.1 != j)
      mirrored := if keep then tset 0 m.mirrored j b.fill else m.mirrored }))

/-- R154, R155, R159: a layer portion of a slice arrives where its berth is moving to; with the last one the entry is rewritten.
data holds the portion where it comes from COLD_PEER.  An uncorrectable word in it ends the request at the boundary. -/
def execBerthSliceArrive (rid : BitVec 24) (berth : Fin 2048) (slice : Fin 4) (layer : Fin 1024) (data : List Byte)
    (s : State) : Out :=
  unlessHalted s .inference (.next (s.arrival rid (fun i m =>
    let r := s.slotOf m.slot
    let p := (slice.val, layer.val, berth.val)
    match m.entries[berth.val]?, m.goal berth.val with
    | some k, some g =>
      let b := s.berthOf k
      let n := r.portion
      let o := layer.val * n
      let bad := match r.sliceAddr b.tier b.frame slice with
        | some a => s.rangeBad (a + o) n
        | none => false
      if s.portionDue m p = false then s
      else if bad = true ∧ m.st = .decode then s.setMan i { m with leave := .fail 0xD }
      else
        let t := s.sliceStore r g.1 g.2 slice o (s.sliceLoad r b.tier b.frame slice o n data)
        let left := lrmFirst (· == p) m.pulls
        let t := t.modMan i (fun m => { m with pulls := left })
        if left.any (fun q => q.2.2 == berth.val && q.1 == slice.val) then t
        else if left.any (fun q => q.2.2 == berth.val) then t.setBerth k { b with pulled := b.pulled ||| 2 ^ slice.val }
        else
          let u := t.berthLands i berth g.1 g.2
          if m.st = .pausing then u.pauseLanded i else u
    | _, _ => s)))

/-- R155: a pull meets an uncorrectable error or a dead peer: the request fails at the boundary. -/
def execPullSourceError (rid : BitVec 24) (peer : Bool) (s : State) : Out :=
  unlessHalted s .inference (.next (s.arrival rid (fun i m =>
    if m.st = .decode then s.setMan i { m with leave := .fail (if peer then 0xE else 0xD) } else s)))

/-- R157, R426: the oldest copy of a berth's positions under way to CKPT_PEER completes: where its mirror holds every written
position, its frame tag is put and then MIRRORED set; a checkpoint that waited for it goes on. -/
def execMirrorCopyDone (rid : BitVec 24) (berth : Fin 2048) (s : State) : Out :=
  unlessHalted s .inference (.next (s.arrival rid (fun i m =>
    match m.entries[berth.val]?, m.copies.find? (fun c => c.berth == berth.val) with
    | some k, some c =>
      let r := s.slotOf m.slot
      let b := s.berthOf k
      let t := s.setMan i { m with
        copies := lrmFirst (fun q => q.berth == berth.val) m.copies, mirrored := tset 0 m.mirrored berth c.fill }
      let t := if c.fill < b.fill then t
        else (t.putPeer r.ckptPeer (r.peerBase + 0x1000000 + 8 * b.peer)
            (leBytes 3 b.rid ++ leBytes 2 b.berth ++ leBytes 1 b.fill ++ leBytes 2 0)).setBerth k { b with mirrored := true }
      t.sendRecord i
    | _, _ => s)))

/-- R157: the record's arrival counter fires at the peer. -/
def execCheckpointCommit (rid : BitVec 24) (s : State) : Out :=
  unlessHalted s .inference (.next (s.arrival rid (fun i m =>
    match m.ckptFlight with
    | some n => if m.ckptSent then s.setMan i { m with ckpt := n, ckptFlight := none, ckptSent := false } else s
    | none => s)))

/-- R158: the checkpoint fails under the dead-target rules. -/
def execCheckpointFail (rid : BitVec 24) (s : State) : Out :=
  unlessHalted s .inference (.next (s.arrival rid (fun i m =>
    if m.ckptFlight.isSome then (s.setMan i { m with ckptFlight := none, ckptSent := false }).count (hmBlock + 0x04C) 1 else s)))

/-! ### Pause, expiry and reuse (R138, R159, R160) -/

/-- R159: every berth is in the cold frame and any checkpoint has settled: PAUSED is posted, EXPIRY set, and a pending
RESUME taken. -/
def execPauseComplete (i : Fin 262144) (s : State) : Out :=
  let m := s.manOf i
  let t := (s.writeProv i 4 (m.reason == 3)).postEvent i 4 0 m.reason 0
  let t := t.modMan i (fun m => { m with st := .paused, expiry := t.T + m.ttl * 10 ^ 9 })
  unlessHalted s .inference (onlyIf (m.st == .pausing && m.moves.isEmpty && m.ckptFlight.isNone) s
    (if m.pend = 3 then t.doResume i m.entry else t))

/-- R160: the sweep reclaims the paused requests at or past EXPIRY; it takes the clock to the next 10 ms of corrected
time (log 17). -/
def execExpirySweep (s : State) : Out :=
  let t := s.reachNs ((s.T / 10 ^ 7 + 1) * 10 ^ 7 : Nat)
  unlessHalted s .inference (.next
    ((t.liveMen.filter (fun e => e.2.st == .paused && decide (e.2.expiry ≤ t.T))).foldl
      (fun s e => s.endRequest e.1 6 0 0) t))

/-- R138: HM_QUIET has passed: the manifest is FREE. -/
def execManifestQuietEnd (i : Fin 262144) (s : State) : Out :=
  let m := s.manOf i
  let t := s.reachRaw m.quietUntil
  let u := t.setMan i { m with st := .free, quietUntil := 0 }
  unlessHalted s .inference (onlyIf (m.st == .quiet && decide (m.quietUntil ≤ t.td.raw)) s
    { u with hm := { u.hm with freed := u.hm.freed ++ [i.val] } })

/-! ### Berth table rebuild (R162) -/

/-- R162: the free entries of runs of 64 or more, among the first 2²⁰. -/
def longRuns : Nat → Table Berth → Nat
  | n, [] => if 64 ≤ 2 ^ 20 - n then 2 ^ 20 - n else 0
  | n, (k, _) :: t => (if n + 64 ≤ k then k - n else 0) + longRuns (k + 1) t

/-- R162: a rebuild starts when a request is held, or when fewer than 1/16 of the free entries lie in runs of 64 or
more. -/
def execBtRebuildStart (s : State) : Out :=
  let held := s.liveMen.any (fun e => e.2.counted.contains (hmBlock + 0x044) && (s.nextEntry e.2).isNone)
  unlessHalted s .inference
    (onlyIf (held || decide (16 * longRuns 0 s.hm.bt < 2 ^ 20 - s.hm.bt.length)) s s.btStart)

/-- R164: HM_BT.START. -/
def execHmBtStart (m : Agent) (s : State) : Out := agentIf m (s.isPf m) s s.btStart

/-- R162: the rebuilt table: each live request's entries in one extent, in berth order, requests by ascending index
(log 41): the entries, and each request's first entry. -/
def State.packed (s : State) : Table Berth × List (Nat × Nat × Nat) :=
  s.liveMen.foldl (fun acc e =>
    let ks := e.2.entries
    (acc.1 ++ ks.zipIdx.map (fun k => (acc.1.length + k.2, s.berthOf k.1)),
     acc.2 ++ [(e.1, acc.1.length, ks.length)])) ([], [])

/-- Write the rebuilt table to the shadow copy in memory. -/
def State.writeShadow (s : State) : State :=
  let b := s.btBase false
  let t := s.clearMem (fun k => decide (b ≤ k) && decide (k < b + 2 ^ 24))
  s.packed.1.foldl (fun s e => s.store (b + 16 * e.1) e.2.image) t

/-- R162: a pass over the live copy ends, and the log is replayed into the shadow. -/
def execBtRebuildPassEnd (s : State) : Out :=
  match s.hm.btRun with
  | none => .next s
  | some r =>
    let t := s.writeShadow
    unlessHalted s .inference (.next { t with hm := { t.hm with btRun := some { passes := r.passes + 1, log := 0 } } })

/-- R162: with an empty log, at a step boundary or while no batch runs, LIVE toggles and every manifest's extents move to
the shadow's layout. -/
def execBtFlip (s : State) : Out :=
  let p := s.packed
  let t := { s with hm := { s.hm with
    bt := p.1, btLive := !s.hm.btLive, btFlips := (s.hm.btFlips + 1) % 2 ^ 16, btRun := none } }
  let t := p.2.foldl (fun s e => s.modMan e.1 (fun m => { m with ext := if e.2.2 = 0 then [] else [(e.2.1, e.2.2)] })) t
  let ok := match s.hm.btRun with
    | some r => decide (0 < r.passes) && r.log == 0
    | none => false
  unlessHalted s .inference (onlyIf (ok && !s.hm.stepping) s t)

/-- R162: the log has not emptied within 4 passes. -/
def execBtRebuildRestart (s : State) : Out :=
  let ok := match s.hm.btRun with
    | some r => decide (4 ≤ r.passes) && r.log != 0
    | none => false
  unlessHalted s .inference (onlyIf ok s
    { s with hm := { s.hm with btRun := some {}, btRetries := min 255 (s.hm.btRetries + 1) } })

/-! ### Model slots (R140, R141) and the HM registers (R164) -/

def State.setSlot (s : State) (k : Nat) (r : Slot) : State := { s with slots := tset {} s.slots k r }

/-- R141: a slot command's error. -/
def State.slotError (s : State) (k code : Nat) : State :=
  { s with hm := { s.hm with slotErr := code, errSlot := k } }

/-- R140: the slot record; none where it is refused. -/
def parseSlot (b : List Byte) : Option Slot :=
  let sh := fieldAt b 1 1
  let kvb := fieldAt b 4 4
  let peerOk (x : Nat) : Bool := x == 0xFFFFFFFF || decide (x < 2 ^ 28)
  if fieldAt b 0 1 = 1 ∧ (sh = 1 ∨ sh = 2 ∨ sh = 4) ∧ 1 ≤ fieldAt b 2 2 ∧ fieldAt b 2 2 ≤ 1024 ∧
      kvb % sh = 0 ∧ kvb / sh % 64 = 0 ∧ kvb / sh ≤ 65536 ∧ 2 ≤ fieldAt b 8 4 ∧ fieldAt b 8 4 ≤ 262144 ∧
      64 ≤ fieldAt b 12 4 ∧ fieldAt b 12 4 ≤ 131072 ∧ 1 ≤ fieldAt b 16 4 ∧ fieldAt b 16 4 ≤ 86400 ∧
      peerOk (fieldAt b 32 4) = true ∧ peerOk (fieldAt b 36 4) = true ∧ fieldAt b 96 32 = 0 then
    some { st := .loading, shards := sh, layers := fieldAt b 2 2, kvb := kvb, vocab := fieldAt b 8 4, maxCtx := fieldAt b 12 4
           ttlDef := fieldAt b 16 4, pdFrames := fieldAt b 20 2, hbmFrames := fieldAt b 22 2, gdFrames := fieldAt b 24 2
           coldFrames := fieldAt b 26 2, peerFrames := fieldAt b 28 4, coldPeer := fieldAt b 32 4, ckptPeer := fieldAt b 36 4
           peerBase := fieldAt b 40 8, wpkgAddr := fieldAt b 48 8, wpkgLen := fieldAt b 56 8
           wdigest := BitVec.ofNat 256 (fieldAt b 64 32) }
  else none

/-- R141: HM_SLOT_CMD LOAD, written by the PF: an EMPTY slot goes to LOADING, or stays with BAD_RECORD. -/
def execHmSlotLoad (m : Agent) (k : Fin 16) (s : State) : Out :=
  let a := s.reg64 (hmBlock + 0x010) (hmBlock + 0x014)
  agentIf m (s.isPf m) s
    (if (s.slotOf k).st ≠ .empty then (s.slotError k 4).mgmtEvent
     else match (if s.rangeOk a 128 ∧ s.rangeBad a 128 = false then parseSlot (s.load a 128) else none) with
      | some r => (s.slotError k 0).setSlot k r
      | none => (s.slotError k 1).mgmtEvent)

/-- R140, R149: bytes of each frame pool of a slot: PD SRAM 0–3, PD HBM 0–3, GD slices 0–3, cold shards 0–3. -/
def Slot.poolBytes (r : Slot) (j : Nat) : Nat :=
  if j < 4 then r.pdFrames * 64 * r.kvb
  else if j < 8 then r.hbmFrames * 64 * r.kvb
  else if r.shards ≤ j % 4 then 0
  else if j < 12 then r.gdFrames * r.sliceBytes
  else r.coldFrames * r.sliceBytes

/-- R140, R397: the berth region that a frame pool is carved out of: that of a prompt die's SRAM, of its HBM, or of a generation
die's SRAM.  DESIGN CHOICE (log 148): where in a die and in its HBM the regions lie. -/
def State.poolRegion (s : State) (j : Nat) : Nat × Nat :=
  let n := j % 4
  let sram (d : Die) : Nat × Nat :=
    let m := s.cfg.mem.getD d.index {}
    (sramBase d + m.scratch * 2 ^ 20, sramBase d + (m.scratch + m.berthSram) * 2 ^ 20)
  let hbm := 2 * n * 0x000C00000000 + 192 * 2 ^ 20
  if j < 4 then sram (Die.ofIndex n)
  else if 8 ≤ j ∧ j < 12 then sram (Die.ofIndex (4 + n))
  else (hbm, hbm + (s.cfg.mem.getD n {}).berthHbm * 2 ^ 20)

/-- R140: the frame pools of a slot, each at the lowest place of its region where it fits beside those of other slots and those
already placed; none where one does not fit (log 148). -/
def State.carve (s : State) (r : Slot) : Option (List Nat) :=
  let taken (j : Nat) : List (Nat × Nat) := s.slots.flatMap (fun e =>
    (List.range 16).filterMap (fun k =>
      if s.poolRegion k = s.poolRegion j then (e.2.bases[k]?).map (fun b => (b, e.2.poolBytes k)) else none))
  (List.range 16).foldl (fun acc j =>
    match acc with
    | none => none
    | some bs =>
      let mine := bs.zipIdx.filterMap (fun e =>
        if s.poolRegion e.2 = s.poolRegion j then some (e.1, r.poolBytes e.2) else none)
      let g := s.poolRegion j
      (firstFit g.1 g.2 (r.poolBytes j) (taken j ++ mine)).map (fun a => bs ++ [a])) (some [])

/-- R140, R141, R374: the digest, the frame carving and the weight placement have been checked: DIGEST; NO_MEMORY where a frame
pool or the weights do not fit, or a bank group they need has failed; else the weights are placed, their summaries kept
(R129), and the slot is READY. -/
def execSlotLoadDone (k : Fin 16) (r : SlotLoad) (s : State) : Out :=
  let sl := s.slotOf k
  let good := Config.sha3 (s.load sl.wpkgAddr sl.wpkgLen) = sl.wdigest
  let parts := r.parts.map (fun p => (p.1.toNat, s.load (sl.wpkgAddr + p.2.1) p.2.2))
  let lost := r.groups.any (fun g => (s.isl g).st == .failedShort)
  unlessHalted s .inference (onlyIf (sl.st == .loading && r.parts.all (fun p => decide (p.2.1 + p.2.2 ≤ sl.wpkgLen))) s
    (if ¬ good then ((s.setSlot k {}).slotError k 2).mgmtEvent
     else match (if r.fits = false ∨ lost = true then none else s.carve sl) with
      | none => ((s.setSlot k {}).slotError k 3).mgmtEvent
      | some bases =>
        let t := parts.foldl (fun t p => t.store p.1 p.2) s
        ((t.setSlot k { sl with
          st := .ready, bases := bases, scratch := r.scratch.toNat, extent := r.extent.toNat
          groups := r.groups.map (·.val), sums := parts, specExact := r.specExact }).slotError k 0).mgmtEvent))

/-- R141: UNLOAD. -/
def execHmSlotUnload (m : Agent) (k : Fin 16) (s : State) : Out :=
  let sl := s.slotOf k
  agentIf m (s.isPf m) s
    (if sl.st = .ready then (s.setSlot k { sl with st := .draining }).slotError k 0
     else (s.slotError k 4).mgmtEvent)

/-- A live manifest names the slot. -/
def State.slotNamed (s : State) (k : Nat) : Bool := s.liveMen.any (fun e => e.2.slot == k)

/-- R141: every manifest that names the slot ends with SLOT_UNLOADED, at the next boundary where it is decoding. -/
def State.unloadAll (s : State) (k : Nat) : State :=
  (s.liveMen.filter (fun e => e.2.slot == k)).foldl (fun s e =>
    if e.2.st = .decode then s.setMan e.1 { e.2 with leave := .unload } else s.endRequest e.1 8 0xF 0) s

/-- R141: UNLOAD with FORCE. -/
def execHmSlotUnloadForce (m : Agent) (k : Fin 16) (s : State) : Out :=
  let sl := s.slotOf k
  let t := (s.setSlot k { sl with st := .draining }).unloadAll k
  agentIf m (s.isPf m) s
    (if sl.st = .ready ∨ sl.st = .draining then
       (if t.slotNamed k then t else (t.setSlot k {}).mgmtEvent).slotError k 0
     else (s.slotError k 4).mgmtEvent)

/-- R141: no manifest names the draining slot any longer. -/
def execSlotDrainDone (k : Fin 16) (s : State) : Out :=
  unlessHalted s .inference
    (onlyIf ((s.slotOf k).st == .draining && !s.slotNamed k) s (s.setSlot k {}).mgmtEvent)

/-- R164: HM_CKPT.CADENCE: 0 or 8 to 256; a change applies from the next checkpoint boundary. -/
def execHmCkptWrite (m : Agent) (v : Word) (s : State) : Out :=
  let c := v.toNat % 512
  agentIf m (s.isPf m && (c == 0 || (decide (8 ≤ c) && decide (c ≤ 256)))) s (s.setReg hmBlock c)

/-- R164: HM_QUIET: a write below 4 sets 4. -/
def execHmQuietWrite (m : Agent) (v : Word) (s : State) : Out :=
  agentIf m (s.isPf m) s (s.setReg (hmBlock + 0x004) (max 4 (v.toNat % 2 ^ 16)))

end Sys2Proof.Machine
end

