-- ==== Sys2Proof/Machine/HostReset.lean ====
section
/-! DEFINITION.  Chapter 15: the link, resets of the host interface and of functions, BAR2, and fatal errors. -/

namespace Sys2Proof.Machine

/-! ### Resets of functions (R346, R347) -/

/-- R346: the requests of the functions end without an event: one in DECODE at the next step boundary, every other
one now. -/
def State.endQuietly (s : State) (p : Nat → Bool) : State :=
  (s.liveMen.filter (fun e => p e.2.fn)).foldl (fun s e =>
    if e.2.st = .decode then s.modMan e.1 (fun m => { m with leave := .flr, dumps := [] })
    else (s.modMan e.1 (fun m => { m with dumps := [] })).reclaim e.1) s

/-- The function that a register of the queue pages belongs to. -/
def pageFn (o : Nat) : Nat := (o - (hiBlock + 0x100000)) / 0x200

/-- R346: the contexts of the functions are destroyed, their saved images and the descriptors that wait for a context are
discarded; descriptors of others that wait may then get a context. -/
def State.dropContexts (s : State) (p : Nat → Bool) : State :=
  let s := (s.sh.ctx.filter (fun (e : Nat × Ctx) => p e.2.vf)).foldl (fun s e => s.abortCtx (Die.ofIndex (e.1 / 8)) e.1) s
  let t := { s with sh := { s.sh with
    saved := s.sh.saved.filter (fun e => !p e.ctx.vf)
    wait := s.sh.wait.filter (fun e => !p e.vf) } }
  [Die.pd 0, .pd 1, .pd 2, .pd 3, .rd].foldl State.serveWait t

/-- R346: the functions that p names are reset: entries of theirs that wait are dropped, their requests end, their
contexts and saved images go, their Customs entries are invalidated, their queues are disabled with registers reset,
and their counters cleared (R441).  CX_ACCT and CX_VF keep their values. -/
def State.flrFns (s : State) (p : Nat → Bool) : State :=
  let s := { s with hm := { s.hm with cmdq := s.hm.cmdq.filter (fun e => !p e.fn) } }
  let s := s.endQuietly p
  let s := s.dropContexts p
  let s := s.dropCached (fun e => p e.fn) (fun e => p e.fn) (fun w => p w.fn)
  { s with
    hi := { s.hi with
      sq := tdrop (fun k => p (k / 8)) s.hi.sq
      cq := tdrop (fun k => p (k / 8)) s.hi.cq
      msix := tdrop (fun k => p (k / 2048)) s.hi.msix
      counts := tdrop (fun k => p (k / 16)) s.hi.counts
      d3 := s.hi.d3.filter (fun f => !p f) }
    regs := tdrop (fun o => decide (hiBlock + 0x100000 ≤ o) && decide (o < hiBlock + 0x200000) && p (pageFn o)) s.regs }

/-- The functions that p names among 1 to 512 are in an FLR until it is complete. -/
def State.flrVfs (s : State) (p : Nat → Bool) : State :=
  let t := s.flrFns p
  { t with hi := { t.hi with
    flr := ((List.range 512).map (· + 1)).filter (fun f => p f || t.hi.flr.contains f)
    flrT := s.td.raw } }

/-- R347: the host interface is reset: every VF, the PF's own requests, the HI and CU registers and the Customs cache;
walks in flight are not cached. -/
def State.hiReset (s : State) : State :=
  let t := (s.flrVfs (fun f => decide (0 < f))).flrFns (fun _ => true)
  let t := (t.resetRegs hiBlock (hiBlock + 0x200000)).resetRegs cuBlock (cuBlock + 0x10000)
  let t := t.dropCached (fun _ => true) (fun _ => true) (fun _ => true)
  { t with
    hi := { t.hi with vfEnable := false, retrains := 0 }
    cu := { t.cu with invBusy := false } }

/-- R346: a VF FLR of VF v + 1. -/
def execVfFlr (v : Fin 512) (s : State) : Out :=
  onlyIf (s.hi.linkUp && s.hi.vfEnable) s (s.flrVfs (fun f => f == v.val + 1))

/-- R346: VF Enable is cleared: an FLR of every VF. -/
def execVfEnableClear (s : State) : Out :=
  let t := s.flrVfs (fun f => decide (0 < f))
  onlyIf (s.hi.linkUp && s.hi.vfEnable) s { t with hi := { t.hi with vfEnable := false } }

/-- R346: the FLR of VF v + 1 is complete, 2 ms after the last FLR was written at the earliest (log 163), once every request
of it has ended. -/
def execVfFlrComplete (v : Fin 512) (s : State) : Out :=
  let t := s.reachRaw (s.hi.flrT + rawUs 2000)
  onlyIf (decide (s.hi.flrT + rawUs 2000 ≤ t.td.raw) && !(s.liveMen.any (fun e => e.2.fn == v.val + 1))) s
    { t with hi := { t.hi with flr := t.hi.flr.filter (fun f => f != v.val + 1) } }

/-- R348: VF Enable is set. -/
def execVfEnableSet (s : State) : Out :=
  onlyIf s.hi.linkUp s { s with hi := { s.hi with vfEnable := true } }

/-- R347: a PF FLR. -/
def execPfFlr (s : State) : Out := onlyIf s.hi.linkUp s s.hiReset

/-- The link goes down. -/
def State.linkLow (s : State) : State :=
  { s with hi := { s.hi with linkUp := false, width := 0, flit := false, degraded := false } }

/-- R347: a hot reset, a link disable or a surprise link-down. -/
def execPcieLinkDown (s : State) : Out := onlyIf s.hi.linkUp s s.hiReset.linkLow

/-- R478: PERST_N goes low while the module is powered: the host interface only is reset. -/
def execPerstAssert (s : State) : Out :=
  let t := s.hiReset.linkLow
  onlyIf s.boot.powered s { t with hi := { t.hi with perstHigh := false } }

/-- R478: PERST_N goes high; the link trains once the configuration record has been applied. -/
def execPerstDeassert (s : State) : Out :=
  .next { s with hi := { s.hi with perstHigh := true } }

/-- R329, R348, R394: the link trains, at 64 GT/s in flit mode or at 32 GT/s, with 16 lanes or 8, once the PLLs have
locked, PERST_N is high and the record has been applied or Salvage mode entered; a link that trains again counts in
RETRAINS (R352). -/
def execPcieLinkTrained (x16 gt64 flit : Bool) (s : State) : Out :=
  onlyIf (s.clk.tideLock && s.hi.perstHigh && s.boot.rom && s.boot.phase != .record) s
    { s with hi := { s.hi with
        linkUp := true
        width := if x16 then 16 else 8
        flit := gt64 || flit
        degraded := !x16 || !gt64
        retrains := if s.hi.linkUp then min 0xFFFF (s.hi.retrains + 1) else s.hi.retrains } }

/-- R329: a function moves between D0 and D3hot. -/
def execPciPmStateWrite (f : Fin 513) (d3 : Bool) (s : State) : Out :=
  let rest := s.hi.d3.filter (fun x => x != f.val)
  onlyIf (s.hi.linkUp && !s.hi.flr.contains f.val && (f.val == 0 || s.hi.vfEnable)) s
    { s with hi := { s.hi with d3 := if d3 then f.val :: rest else rest } }

/-! ### BAR accesses (R331, R332, R462, R465) -/

def hiBarRefuse : Nat := hiBlock + 0x024

/-- The completion of a BAR read: data, and 0 success, 1 Unsupported Request, 2 Completer Abort, 3 poisoned. -/
def State.barAnswer (s : State) (data status : Nat) : State := { s with hi := { s.hi with barRsp := some (data, status) } }

/-- R331, R462, R465: a BAR0 access of function f of another size or alignment than a register's, or outside every
block: a read completes with Unsupported Request, a write is discarded; both count. -/
def execBar0BadAccess (f : Fin 513) (write : Bool) (s : State) : Out :=
  let t := if s.fnLive f then s.count hiBarRefuse 1 else s
  onlyIf s.hi.linkUp s (if write then t else t.barAnswer 0 1)

/-- R332: the device physical address of a BAR2 offset. -/
def State.bar2 (s : State) (o : Nat) : Nat := s.regB (hiBlock + 0x008) 11 0 * 2 ^ 36 + o

/-- R332: the status of a BAR2 access by where it goes: 0, or the completion of a read there. -/
def State.bar2Status (s : State) (a : Nat) : Nat :=
  if bonded a then 2
  else match place a with
    | .regs _ => 2
    | .hbm _ _ => if s.addrStatus a == .ok then 0 else 1
    | .sram _ _ => 0
    | _ => 1

/-- R332: a read through BAR2; n bytes, which do not cross a 4 KiB boundary.  Everything but reads of the HI and BT
blocks completes with Unsupported Request after a fatal error (R349). -/
def execBar2Read (o : BitVec 36) (n : Fin 4097) (s : State) : Out :=
  let a := s.bar2 o.toNat
  let st := if s.fnLive 0 then s.bar2Status a else 1
  let t := if st = 0 then
      if s.addrStatus a == .ok then
        (s.noteReads 0x120 a n).barAnswer (s.loadNat a n) (if s.rangeBad a n then 3 else 0)
      else s.barAnswer 0 0
    else s.barAnswer 0 st
  onlyIf (s.hi.linkUp && decide (0 < n.val) && decide (o.toNat % 4096 + n.val ≤ 4096)) s t

/-- R147, R162, R258, R399, R401, R407: regions in which PF writes are void: the manifest and berth tables, the record
copy, the HARQ handle table, the download area while a ROM command runs, and the update area while an image is
verified. -/
def State.pfVoid (s : State) (a : Nat) : Bool :=
  let within (lo n : Nat) : Bool := decide (lo ≤ a) && decide (a < lo + n)
  within 0x038000000000 0x03400000 ||
  within s.harqBase (16 * 16384) ||
  (s.boot.busy.isSome && within 0x038004000000 0x04000000) ||
  (s.boot.upd.st == .staging && within 0x08000000 0x04000000)

/-- R332: a posted write through BAR2; `lost` are words of it for which another master's write wins (R99, R100), each
discarded by itself (R102). -/
def execBar2Write (o : BitVec 36) (data : List Byte) (lost : List PAddr) (s : State) : Out :=
  let a := s.bar2 o.toNat
  let n := data.length
  let t := if s.bar2Status a ≠ 0 ∨ s.pfVoid a then s.count hiBarRefuse 1 else s.storeLost 0x120 a data lost
  onlyIf (s.fnLive 0 && decide (0 < n) && decide (o.toNat % 4096 + n ≤ 4096)) s t

/-! ### Fatal errors (R349, R425) -/

/-- R425: the DIE field. -/
def dieField (d : Option Die) : Nat :=
  match d with
  | some x => x.index
  | none => 0xFF

/-- R349, R425: a fatal cause of the table of R425 is detected. -/
def execFatalError (cause : BitVec 8) (die : Option Die) (s : State) : Out :=
  onlyIf (decide (1 ≤ cause.toNat) && decide (cause.toNat ≤ 8)) s (s.raiseFatal cause.toNat (dieField die))

/-- R19: a bridge that fails 16 consecutive replays is declared down. -/
def execBridgeDown (p : Fin 10) (s : State) : Out :=
  .next (({ s with ring := { s.ring with down := if s.ring.down.contains p.val then s.ring.down else s.ring.down ++ [p.val] } }).raiseFatal 1 0xFF)

end Sys2Proof.Machine
end

