-- ==== Sys2Proof/Machine/Select.lean ====
section
/-! DEFINITION.  Chapter 08: the commands of Rake, Sieve, speculation and the automaton store. -/

namespace Sys2Proof.Machine

/-- A request of the batch whose selection in this step is still to come. -/
def State.awaits (s : State) (m : Manifest) : Bool :=
  s.hm.stepping && m.inBatch && !m.selected && m.leave != .fail 0xD && m.leave != .fail 0xE

/-- R156, R168, R175: one token of a decode step, or a failed selection, which ends the request at the boundary. -/
def State.stepSelect (s : State) (i : Nat) (logits : List Word) : State :=
  let m := s.manOf i
  match m.choose m.toks m.autSt (logits.map (·.toNat)) m.step 0 with
  | none => (s.noToken i).modMan i (fun m => { m with selected := true, leave := .fail 0xD })
  | some (tok, stop, z) =>
    let t := if m.sel then s else s.countSel
    ((t.acceptToken i tok stop z).emitTokens i [tok]).modMan i (fun m => { m with selected := true })

/-- R168 to R171: a Rake lane selects the token of a request's position (R139: of the request that the RID still names). -/
def execRakeSelect (rid : BitVec 24) (logits : List Word) (s : State) : Out :=
  unlessHalted s .inference (.next (s.arrival rid (fun i m =>
    if s.awaits m && !m.sel && !m.spec && s.pullDone m && logits.length == (s.slotOf m.slot).vocab then s.stepSelect i logits
    else s)))

/-- R175: a Sieve lane selects the token of a request's position (R139: of the request that the RID still names). -/
def execSieveSelect (rid : BitVec 24) (logits : List Word) (s : State) : Out :=
  unlessHalted s .inference (.next (s.arrival rid (fun i m =>
    if s.awaits m && m.sel && !m.spec && s.pullDone m && logits.length == (s.slotOf m.slot).vocab then s.stepSelect i logits
    else s)))

/-- R179: the proposals of a draft: position j has generator inputs (n + j, j + 1), the context's own tokens in the penalty
window, and for Sieve the automaton path of the earlier proposals; a stop token or a position without a token ends the
draft. -/
def Manifest.draft (m : Manifest) : Nat → Nat → Nat → List (List Word) → List Nat
  | 0, _, _, _ => []
  | _, _, _, [] => []
  | k + 1, j, z, l :: ls =>
    match m.choose m.toks z (l.map (·.toNat)) (m.step + j) (j + 1) with
    | none => []
    | some (tok, stop, z') => tok :: (if stop then [] else m.draft k (j + 1) z' ls)

/-- R139, R179: the draft model proposes min(DRAFT, END_AT − n − 1) tokens; proposals are counted. -/
def execSpecDraft (rid : BitVec 24) (logits : List (List Word)) (s : State) : Out :=
  unlessHalted s .inference (.next (s.arrival rid (fun i m =>
    let xs := m.draft (min (fieldAt m.param 2 1) (m.endAt - m.step - 1)) 0 m.autSt logits
    let t := ((s.setMan i { m with drafts := xs }).count (rkBlock + 0x018) xs.length).fnCount m.fn .specProp xs.length
    let t := if m.sel then t else (List.range xs.length).foldl (fun t _ => t.countSel) t
    if s.awaits m && m.spec && m.drafts.isEmpty && m.leave == .none && s.pullDone m &&
      logits.all (fun l => l.length == (s.slotOf m.slot).vocab) then t else s)))

/-- R179: verification from position j on: the tokens accepted, how many proposals, and whether a position had no
token. -/
def State.verify (s : State) (i : Nat) : Nat → List Nat → List (List Word) → State × List Nat × Nat × Bool
  | _, _, [] => (s, [], 0, false)
  | j, xs, l :: ls =>
    let m := s.manOf i
    match m.choose m.toks m.autSt (l.map (·.toNat)) m.step 0 with
    | none => (s, [], 0, true)
    | some (tok, stop, z) =>
      let t := (if m.sel then s else s.countSel).acceptToken i tok stop z
      match xs with
      | x :: rest =>
        if tok = x then
          if (t.manOf i).turnEnd.isSome then (t, [tok], 1, false)
          else
            let r := t.verify i (j + 1) rest ls
            (r.1, tok :: r.2.1, r.2.2.1 + 1, r.2.2.2)
        else (t, [tok], 0, false)
      | [] => (t, [tok], 0, false)

/-- R139, R179: the target's logits at D + 1 positions are verified against the proposals; the tokens accepted are posted
together, and accepted proposals counted. -/
def execSpecVerify (rid : BitVec 24) (logits : List (List Word)) (s : State) : Out :=
  unlessHalted s .inference (.next (s.arrival rid (fun i m =>
    let r := s.verify i 0 m.drafts logits
    let t := ((r.1.count (rkBlock + 0x01C) r.2.2.1).fnCount m.fn .specAcc r.2.2.1).emitTokens i r.2.1
    let t := t.modMan i (fun m => { m with selected := true, drafts := [] })
    let t := if r.2.2.2 then (t.noToken i).modMan i (fun m => { m with leave := .fail 0xD }) else t
    if s.awaits m && m.spec && s.pullDone m && logits.length == m.drafts.length + 1 &&
      logits.all (fun l => l.length == (s.slotOf m.slot).vocab) then t else s)))

/-! ### The automaton store (R177) -/

/-- The lowest run of n free words; runs in use in ascending order. -/
def freeRun (n : Nat) : Nat → List (Nat × Nat) → Option Nat
  | a, [] => if a + n ≤ svWords then some a else none
  | a, (b, m) :: r => if a + n ≤ b then some a else freeRun n (b + m) r

/-- R177: place an automaton in the store: its bytes in the live copy, and a log entry where a rebuild runs. -/
def State.svPlace (s : State) (i a : Nat) (auto : Automaton) : State :=
  let t := s.store (s.svBase true + 8 * a) auto.bytes
  (t.svLog (fun l n => l ++ [(i, n, auto.words)]) auto.words).modMan i (fun m =>
    { m with store := some (a, auto.words), auto := auto, autSt := auto.start, phase := .place, svBytes := [] })

/-- R174, R177: space for request i's automaton is allocated and its image read; without space the request ends, and
without a contiguous run it waits for a rebuild. -/
def execSieveImageLoad (i : Fin 262144) (s : State) : Out :=
  let m := s.manOf i
  let mode := fieldAt m.param 1 1
  let words := if mode = 1 then ceilDiv (fieldAt m.param 64 4) 8 else m.auto.words
  let t :=
    if s.svFree < words then (s.count (svBlock + 0x018) 1).endRequest i 8 7 0
    else
      match freeRun words 0 (s.svUsed.mergeSort (fun a b => decide (a.1 ≤ b.1))) with
      | none => s.svStart
      | some a =>
        if mode ≠ 1 then s.svPlace i a m.auto
        else
          let len := fieldAt m.param 64 4
          match s.tenantRead m.fn (s.sqPasid m.fn m.sq) (fieldAt m.param 56 8) len with
          | (u, none) => u.endRequest i 8 6 0
          | (u, some bs) =>
            match parseImage bs len (fieldAt m.param 68 4) (s.slotOf m.slot).vocab (stopTokens m.param) with
            | none => u.endRequest i 8 7 0
            | some auto =>
              (u.svPlace i a auto).modMan i (fun m => { m with hIn := Config.sha3 (m.param ++ bs ++ m.toks.flatMap (leBytes 4)) })
  unlessHalted s .inference (onlyIf (m.st == .admitted && m.phase == .store) s t)

/-- R182: SV_STORE.START, written by the PF. -/
def execSvStoreStart (m : Agent) (s : State) : Out := agentIf m (s.isPf m) s s.svStart

/-- R177: a rebuild starts for a request that waits for a contiguous run. -/
def execSvRebuildStart (s : State) : Out :=
  unlessHalted s .inference (onlyIf (s.liveMen.any (fun e => e.2.phase == .store && e.2.st == .admitted)) s s.svStart)

/-- Write the shadow's automata to memory. -/
def State.svWriteShadow (s : State) : State :=
  s.hm.svShadow.foldl (fun s e => s.store (s.svBase false + 8 * e.2.1) (s.manOf e.1).auto.bytes) s

/-- R177: a pass over the live words ends, and the log is replayed into the shadow. -/
def execSvRebuildPassEnd (s : State) : Out :=
  match s.hm.svRun with
  | none => .next s
  | some r =>
    let t := s.svWriteShadow
    unlessHalted s .inference (.next { t with hm := { t.hm with svRun := some { passes := r.passes + 1, log := 0 } } })

/-- R177: with an empty log and no selection running, at a step boundary or while no batch runs, LIVE toggles. -/
def execSvStoreFlip (s : State) : Out :=
  let t := s.hm.svShadow.foldl (fun s e => s.modMan e.1 (fun m => { m with store := some (e.2.1, e.2.2) })) s
  let t := { t with hm := { t.hm with
    svLive := !s.hm.svLive, svFlips := (s.hm.svFlips + 1) % 2 ^ 16, svRun := none, svShadow := [], svEnd := 0 } }
  let ok := match s.hm.svRun with
    | some r => decide (0 < r.passes) && r.log == 0
    | none => false
  unlessHalted s .inference (onlyIf (ok && !s.hm.stepping) s t)

/-- R177: the log has not emptied within 4 passes. -/
def execSvRebuildRestart (s : State) : Out :=
  let ok := match s.hm.svRun with
    | some r => decide (4 ≤ r.passes) && r.log != 0
    | none => false
  let t := s.svPack
  unlessHalted s .inference (onlyIf ok s
    { t with hm := { t.hm with svRetries := min 255 (t.hm.svRetries + 1) } })

end Sys2Proof.Machine
end

