-- ==== Sys2Proof/Machine/Sharing.lean ====
section
/-! DEFINITION.  Chapter 09: quanta, the stopping, saving and restoring of contexts, the tide table and the
driving of booked arrays. -/

namespace Sys2Proof.Machine

/-! ### Quanta (R187) -/

/-- R187: the mask of the VF allows the die. -/
def State.mayDie (s : State) (v : Nat) (d : Die) : Bool :=
  match d with
  | .pd n => s.mayPd v n
  | .rd => s.mayRd v
  | _ => false

/-- R187: the target of each runnable context of a die that its mask allows, in rank order; arrays that cannot be divided
go one each in that order. -/
def State.targets (s : State) (d : Die) : List (Nat × Nat) :=
  let r := (s.ranked d).filter (fun e => s.mayDie e.2.vf d)
  let vs := (r.map (·.2.vf)).eraseDups
  let total := (vs.map s.weight).sum
  let a := ((dieArrays d).filter (fun g => s.islOn (arrayIsland g) && !s.parkedArray g && !s.named? g)).length
  let base := r.map (fun e =>
    let k := (r.filter (fun q => q.2.vf == e.2.vf)).length
    (e.1, a * s.weight e.2.vf / (k * total)))
  let left := a - (base.map (·.2)).sum
  base.zipIdx.map (fun x => (x.1.1, x.1.2 + b2n (decide (x.2 < left))))

/-- R187: a context above its target gives up its highest-indexed arrays: at once where no tile runs on one, otherwise at
its next pass boundary.  Named arrays are not counted (R197). -/
def State.shrink (s : State) (key target : Nat) : State :=
  match s.ctxOf key with
  | none => s
  | some c =>
    let own := c.arrays.filter (fun g => !s.named? g)
    let give := ((own.mergeSort (fun a b => decide (b ≤ a)))).take (own.length - target)
    let busy (g : Nat) : Bool := match c.run with
      | some r => r.running.any (fun q => q.array == g)
      | none => false
    s.setCtx key (some { c with
      arrays := c.arrays.filter (fun g => !(give.contains g) || busy g), rel := give.filter busy, target := target })

/-- R187: one die's arrays are reassigned. -/
def State.reassign (s : State) (d : Die) : State :=
  let ts := s.targets d
  let keys := (s.sh.ctx.filter (fun e => e.1 / 8 == d.index && e.2.st == .running)).map (·.1)
  let t := keys.foldl (fun s k => s.shrink k (((ts.find? (fun x => x.1 == k)).map (·.2)).getD 0)) s
  t.giveIdle d

/-- R187: a quantum boundary, QUANTUM µs of corrected time after the last; every prompt die, and RD while no plan is
loaded. -/
def execQuantumBoundary (s : State) : Out :=
  let q := s.regN cxBlock * 1000
  let t := (s.reachNs (s.sh.quantumT + q : Nat)).settle
  let t := { t with sh := { t.sh with quantumT := t.T } }.takeCxVf
  let u := (List.range 4).foldl (fun s n => s.reassign (Die.ofIndex n)) t
  unlessHalted s .inference
    (onlyIf (t.pastNs (s.sh.quantumT + q : Nat)) s (if s.planLoaded then u else u.reassign .rd))

/-! ### Stopping (R190) -/

/-- R190: cores stop claiming, stop the context's arrays and yield its routines. -/
def execContextStop (d : Die) (c : Fin 8) (s : State) : Out :=
  unlessHalted s (dieUnit d) (onlyIf (((s.ctxOf (ctxKey d c)).map (·.st)) == some .running) s (s.stopCtx (ctxKey d c) .share))

/-- R73: no pass runs on a stopped array. -/
def State.arrayStopped (s : State) (g : Nat) : Bool :=
  s.esStop g && (s.esOf g).runs.isEmpty

/-- R202, R380: a context that was stopped for bookings alone, none of which stands any longer, or for parking that has ended, goes
on where it is. -/
def State.unstop (s : State) (d : Die) (key : Nat) : State :=
  match s.ctxOf key with
  | some c =>
    let ended := match c.stopFor with
      | .share => false
      | .booking => true
      | .park => !((dieArrays d).all (fun g => s.parkedArray g))
    if c.st = .stopping ∧ c.stopped = true ∧ ended = true ∧ s.inAffected d.index c = false then s.goOn d key c else s
  | none => s

/-- R190 step 4: every held array is STOPPED: its queued passes are aborted, and its tiles handed back, the oldest with the K-tile
that follows the last pass counted in DONE, which nexts gives for each array held; the arrays are free for others. -/
def execContextStopDone (d : Die) (c : Fin 8) (nexts : List (BitVec 16)) (s : State) : Out :=
  let key := ctxKey d c
  match s.ctxOf key with
  | none => .next s
  | some cx =>
    let r0 : DescRun := cx.run.getD { desc := 0, dseq := 0, path := 0, chunks := 0, tiles := 0, det := false, lens := [], staged := true }
    let t := cx.arrays.foldl (fun s g => s.esAbort g) s
    let u := (cx.arrays.zip nexts).foldl (fun (acc : State × DescRun) x =>
      let y := acc.1.stopTiles cx r0 x.1 x.2.toNat
      y.1.handBack cx acc.2 y.2) (t, { r0 with running := [] })
    let v := u.1.setCtx key (some { cx with arrays := [], stopped := true, run := cx.run.map (fun _ => u.2) })
    unlessHalted s (dieUnit d)
      (onlyIf (cx.st == .stopping && !cx.stopped && cx.arrays.all s.arrayStopped && nexts.length == cx.arrays.length) s
        ((v.unstop d key).giveIdle d))

/-! ### Saving and restoring (R191 to R194) -/

/-- R191: bytes of a context's image. -/
def Ctx.imageBytes (c : Ctx) : Nat := 4096 + c.scratchLen + c.extentLen

/-- R191: the save area of PDn in its stack H(2n + 1).  DESIGN CHOICE (log 42): it is placed at the stack's start. -/
def State.saveArea (s : State) (n : Nat) : Nat × Nat :=
  let a := (2 * n + 1) * 0x000C00000000
  (a, a + (s.cfg.mem.getD n {}).save * 2 ^ 20)

/-- First fit of an image among those saved. -/
def State.saveSlot (s : State) (n : Nat) (c : Ctx) : Option Nat :=
  let a := s.saveArea n
  firstFit a.1 a.2 c.imageBytes ((s.sh.saved.filter (fun e => e.die == n)).map (fun e => (e.addr, e.ctx.imageBytes)))

/-- R191: the image's header; the lead core's descriptor state follows byte 16 (descriptor copy, DSEQ, path, S, T). -/
def Ctx.header (c : Ctx) (num t : Nat) : List Byte :=
  leBytes 2 c.vf ++ leBytes 1 c.slot ++ leBytes 1 num ++ leBytes 8 t ++ leBytes 4 c.imageBytes ++
  (match c.run with
    | some r => leBytes 64 r.desc.toNat ++ leBytes 4 r.dseq ++ leBytes 1 r.path ++ leBytes 1 r.chunks ++ leBytes 4 r.tiles
    | none => leBytes 74 0) ++ leBytes 4006 0

/-- R444: the trace record of a save or restore. -/
def State.traceSave (s : State) (kind n num : Nat) (c : Ctx) : State :=
  s.trace kind (0x0C0 + n) 0xFFFF 0xFFFF c.vf (num + n * 2 ^ 8 + c.imageBytes / 4096 * 2 ^ 12)

/-- R194: an uncorrectable error in a save or restore ends every request with a descriptor in the context. -/
def State.saveError (s : State) (n : Nat) (c : Ctx) : State :=
  let t := (s.count (cxBlock + 0x018) 1).hiErr 3
  (t.liveMen.filter (fun e => e.2.fn == c.vf && e.2.slot == c.slot && e.2.pd == n && t.prefillFirst e.1)).foldl (fun s e => s.endRequest e.1 8 0xD 0) t

/-- R192, R202: the context-save DMA, one image at a time on a die, begins a save after the stop; one stopped for bookings
alone is not saved once they are withdrawn, and one stopped for parking stays in the die's SRAM (R380). -/
def execContextSaveBegin (n : Fin 4) (c : Fin 8) (s : State) : Out :=
  let key := ctxKey (.pd n) c
  match s.ctxOf key with
  | none => .next s
  | some cx =>
    let busy := s.sh.ctx.any (fun e => e.1 / 8 == n.val && (e.2.st == .saving || e.2.st == .restoring))
    unlessHalted s .inference
      (onlyIf (cx.st == .stopping && cx.stopped && !busy && (s.saveSlot n cx).isSome && (cx.stopFor == .share || s.inAffected n cx)) s
        ((s.setCtx key (some { cx with st := .saving })).traceSave 5 n c cx))

/-- R191, R192: the image is in HBM and the context is SAVED, its number, arrays and extent free for others; R194: an
uncorrectable error loses it.  Bookings that waited for it count it (R195). -/
def execContextSaveEnd (n : Fin 4) (c : Fin 8) (s : State) : Out :=
  let key := ctxKey (.pd n) c
  match s.ctxOf key with
  | none => .next s
  | some cx =>
    let bad := s.rangeBad cx.scratch cx.scratchLen || s.rangeBad cx.extent cx.extentLen
    let a := (s.saveSlot n cx).getD 0
    let t := (s.store a (cx.header c s.T)).store (a + 4096) (s.load cx.scratch cx.scratchLen ++ s.load cx.extent cx.extentLen)
    let e : SavedCtx := { die := n, ctx := { cx with st := .saved }, addr := a, held := cx.held, num := c }
    let t := ((t.setCtx key none).count (cxBlock + 0x010) 1).fnCount cx.vf .saves 1
    let t := { t with
      sh := { t.sh with saved := t.sh.saved ++ [e] }
      tt := { t.tt with entries := t.tt.entries.map (fun (b : Nat × TtEntry) =>
        if b.1 / 64 = n.val ∧ b.2.affected.contains cx.id = true ∧
            (b.2.st = TtSt.accepted ∨ b.2.st = TtSt.clearing ∨ b.2.st = TtSt.late) then
          (b.1, { b.2 with nsaved := b.2.nsaved + 1, saved4k := b.2.saved4k + cx.imageBytes / 4096 })
        else b) } }
    unlessHalted s .inference (onlyIf (cx.st == .saving) s
      ((if bad then (s.saveError n cx).setCtx key none else t.traceSave 6 n c cx).serveWait (.pd n)))

/-- R193: a saved context starts restoring, under the lowest free number. -/
def execContextRestoreBegin (k : Fin 64) (s : State) : Out :=
  match s.sh.saved[k.val]? with
  | none => .next s
  | some e =>
    let d := Die.ofIndex e.die
    let busy := s.sh.ctx.any (fun q => q.1 / 8 == e.die && (q.2.st == .saving || q.2.st == .restoring))
    match s.freeCtx d with
    | none => .next s
    | some num =>
      unlessHalted s .inference (onlyIf (s.restorable e && !busy) s
        ({ s with sh := { s.sh with saved := s.sh.saved.eraseIdx k } }.setCtx (ctxKey d num)
          (some { e.ctx with st := .restoring, stopped := false, restoreFrom := e.addr })))

/-- R192, R194: the portion and the extent are back, and the context goes on from its hand-back entries once it has
arrays. -/
def execContextRestoreEnd (n : Fin 4) (c : Fin 8) (s : State) : Out :=
  let key := ctxKey (.pd n) c
  match s.ctxOf key with
  | none => .next s
  | some cx =>
    let src := cx.restoreFrom + 4096
    let bad := s.rangeBad cx.restoreFrom cx.imageBytes
    let t := (s.store cx.scratch (s.load src cx.scratchLen)).store cx.extent (s.load (src + cx.scratchLen) cx.extentLen)
    let t := (t.count (cxBlock + 0x014) 1).traceSave 7 n c cx
    unlessHalted s .inference (onlyIf (cx.st == .restoring) s
      (if bad then ((s.saveError n cx).setCtx key none).serveWait (.pd n) else t.goOn (.pd n) key cx))

/-! ### CX registers (R203) -/

/-- R203: a write of QUANTUM below 100 sets 100. -/
def execCxQuantumWrite (m : Agent) (v : Word) (s : State) : Out :=
  agentIf m (s.isPf m) s (s.setReg cxBlock (max 100 (v.toNat % 2 ^ 16)))

/-- R203: MARGIN, 20 to 1,480. -/
def execCxMarginWrite (m : Agent) (v : Word) (s : State) : Out :=
  let x := v.toNat % 2 ^ 11
  agentIf m (s.isPf m && decide (20 ≤ x) && decide (x ≤ 1480)) s (s.setReg (cxBlock + 0x004) x)

/-- R203: a weight of 0 is ignored: the masks are taken and the weight stands. -/
def execCxVfWrite (m : Agent) (f : Fin 513) (v : Word) (s : State) : Out :=
  let r := cxBlock + 0x1000 + 4 * f
  let w := if v.toNat % 2 ^ 16 = 0 then s.regB r 15 0 else v.toNat % 2 ^ 16
  agentIf m (s.isPf m) s (s.settle.setReg r (v.toNat % 2 ^ 21 / 2 ^ 16 * 2 ^ 16 + w))

/-! ### The tide table (R195 to R202) -/

def State.ttOf (s : State) (n i : Nat) : TtEntry := tget {} s.tt.entries (64 * n + i)

/-- R195: the code of an entry's state. -/
def TtSt.code : TtSt → Nat
  | .free => 0 | .accepted => 1 | .clearing => 2 | .ready => 3 | .active => 4 | .late => 5 | .done => 6 | .refused => 7
  | .cancelled => 8

/-- Change an entry; a change of state is traced (R444). -/
def State.setTt (s : State) (n i : Nat) (e : TtEntry) : State :=
  let s := s.settle
  let old := (s.ttOf n i).st
  let t := { s with tt := { s.tt with entries := tset {} s.tt.entries (64 * n + i) e } }
  if old = e.st then t
  else
    t.trace 8 0x121 0xFFFF 0xFFFF 0x3FF (i + n * 2 ^ 6 + e.st.code * 2 ^ 8)

/-- R199: interrupt the core of RD that a booking names. -/
def State.ttIrq (s : State) (e : TtEntry) : State := s.irqTo (coreId .rd e.core) .tideTable

/-- The global indexes of the arrays a booking of PDn names. -/
def TtEntry.named (e : TtEntry) (n : Nat) : List Nat :=
  ((List.range 16).filter (fun k => bitOf e.arrays k)).map (16 * n + ·)

/-- R204: TT_WINMAX. -/
def State.winMax (s : State) (n : Nat) : Nat := if s.cfg.loaded then s.cfg.winMax.getD n 0 % 2 ^ 10 else 0

/-- R196: the REASON of the first check that fails. -/
def State.ttCheck (s : State) (n i : Nat) (e : TtEntry) : Nat :=
  let others := s.tt.entries.filter (fun b => b.1 / 64 == n && b.1 != 64 * n + i && b.2.live)
  if e.dur = 0 ∨ e.arrays = 0 ∨ 10000000 < e.dur ∨ e.rwin = 0 ∨ 768 < e.rwin then 1
  else if (e.start : Int) - s.T < 520000 + e.margin * 1000 then 2
  else if (e.named n).any (fun g => (s.isl (arrayIsland g)).st == .failedShort) then 3
  else if others.any (fun b => b.2.arrays &&& e.arrays != 0 && b.2.core != e.core &&
      rangesMeet b.2.start b.2.dur e.start e.dur) then 4
  else if s.winMax n < e.rwin then 5
  else 0

/-- R197: the window of a booking on PDn, and whether a range meets it. -/
def meetsWindow (n rwin a len : Nat) : Bool :=
  let top := sramBase (Die.ofIndex n) + sramSpan (Die.ofIndex n)
  rangesMeet a len (top - rwin * 2 ^ 20) (rwin * 2 ^ 20)

/-- R197: the affected set, fixed at acceptance. -/
def State.affected (s : State) (n : Nat) (e : TtEntry) : List Nat :=
  (s.sh.ctx.filter (fun c => c.1 / 8 == n && (meetsWindow n e.rwin c.2.extent c.2.extentLen ||
    (!c.2.arrays.isEmpty && c.2.arrays.all (fun g => (e.named n).contains g))))).map (·.2.id)

/-- R195, R196: the word at bytes 15:12 is written with VALID = 1 by an RD core: the entry is checked.  R198: contexts of the
die already saved whose extent meets the window count toward the booking. -/
def execTtEntrySubmit (m : Agent) (n : Fin 4) (i : Fin 64) (v : Word) (s : State) : Out :=
  let old := s.ttOf n i
  let e : TtEntry :=
    { old with valid := true, arrays := bitsOf v.toNat 15 0, rwin := bitsOf v.toNat 25 16, core := bitsOf v.toNat 27 26
               margin := s.regN (cxBlock + 0x004), reason := 0, nsaved := 0, tReady := 0, saved4k := 0
               affected := [], losing := [], taken := [] }
  let code := s.ttCheck n i e
  let aff := s.affected n e
  let out := s.sh.saved.filter (fun k => k.die == n.val && meetsWindow n e.rwin k.ctx.extent k.ctx.extentLen)
  let t := if code ≠ 0 then
      ((s.setTt n i { e with st := .refused, reason := code }).count (ttBlock + 0x01C) 1).ttIrq e
    else
      (s.setTt n i { e with
        st := .accepted, affected := aff
        nsaved := out.length, saved4k := (out.map (fun k => k.ctx.imageBytes / 4096)).sum
        losing := (s.sh.ctx.filter (fun c => c.1 / 8 == n.val && !(aff.contains c.2.id) &&
          c.2.arrays.any (fun g => (e.named n).contains g))).map (·.2.id) }).count (ttBlock + 0x010) 1
  agentIf m (m.isRd && bitOf v.toNat 31 && !old.live) s t

/-- R201: the arrays that only this booking, ACTIVE, holds. -/
def State.bookedOnly (s : State) (n i : Nat) : List Nat :=
  let e := s.ttOf n i
  let shared (g : Nat) : Bool := s.tt.entries.any (fun b => b.1 / 64 == n && b.1 != 64 * n + i &&
    b.2.st == .active && bitOf b.2.arrays (g % 16))
  if e.st = .active then (e.named n).filter (fun g => !shared g) else []

/-- R201: passes or stages of the booking are queued. -/
def State.bookedQueued (s : State) (n i : Nat) : Bool :=
  (s.bookedOnly n i).any (fun g => !(s.esOf g).pfifo.isEmpty || !(s.esOf g).sfifo.isEmpty ||
    !(s.esOf g).pStall.isEmpty || !(s.esOf g).sStall.isEmpty)

/-- R201: queued passes and stages of the booking's arrays are discarded; passes already running complete. -/
def State.discardBooked (s : State) (n i : Nat) : State :=
  (s.bookedOnly n i).foldl (fun s g =>
    s.putEs g { s.esOf g with
      sfifo := [], sStall := [], pfifo := [], pStall := [], again := [], fetching := false, port := none, shadow := none
      swapping := false, pushed := ((s.esOf g).done + (s.esOf g).runs.length) % 65536 }) s

/-- R201, R202: a booking ends in a state: contexts stopped for it and not being saved go on. -/
def State.ttOver (s : State) (n i : Nat) (st : TtSt) : State :=
  let t := s.setTt n i { s.ttOf n i with st := st }
  ((List.range 8).map (ctxKey (Die.ofIndex n) ·)).foldl (fun t k => t.unstop (Die.ofIndex n) k) t

/-- R202: CANCEL: before the first stop nothing else happens; later the arrays and the window return at once, as at an end
(DEDUCED, log 123), and no further saves begin. -/
def execTtEntryCancel (m : Agent) (n : Fin 4) (i : Fin 64) (s : State) : Out :=
  agentIf m (m.isRd && (s.ttOf n i).live) s ((s.discardBooked n i).ttOver n i .cancelled)

/-- A save that bookings of a die still need: the T by which it ends, the T_START of the first of those bookings, and the key and
image size of its context (R198). -/
structure SaveDue where
  limit : Int
  start : Nat
  key : Nat
  bytes : Nat
  deriving DecidableEq, Repr

/-- The booking may still need saves. -/
def TtEntry.saving (e : TtEntry) : Bool := e.st == .accepted || e.st == .clearing || e.st == .late

/-- R198: the saves that bookings of PDn still need, each context once, ordered by T_START and then by context number. -/
def State.saveQueue (s : State) (n : Nat) : List SaveDue :=
  let qs := s.sh.ctx.filterMap (fun c =>
    let bs := (s.tt.entries.filter (fun b => b.1 / 64 == n && b.2.saving && b.2.affected.contains c.2.id)).map (·.2)
    match bs with
    | b :: l =>
      if c.1 / 8 = n ∧ c.2.st = .running then
        some {
          limit := l.foldl (fun (x : Int) q => min x ((q.start : Int) - q.margin * 1000)) ((b.start : Int) - b.margin * 1000)
          start := l.foldl (fun x q => min x q.start) b.start, key := c.1, bytes := c.2.imageBytes : SaveDue }
      else none
    | [] => none)
  qs.mergeSort (fun a b => decide (a.start < b.start) || (decide (a.start = b.start) && decide (a.key ≤ b.key)))

/-- R198: working backward at 1,600 bytes per ns, when each save begins, with its context: the last ends at its limit, an earlier
one no later than the next begins. -/
def saveStarts : List SaveDue → List (Int × Nat) × Option Int
  | [] => ([], none)
  | q :: qs =>
    let r := saveStarts qs
    let fin := match r.2 with
      | some x => min q.limit x
      | none => q.limit
    let b : Int := fin - (ceilDiv q.bytes 1600 : Nat)
    ((b, q.key) :: r.1, some b)

/-- R198: a context is stopped for the bookings of PDn that need its save, and the accepted ones among them are CLEARING. -/
def State.ttStop (s : State) (n key : Nat) : State :=
  let id := ((s.ctxOf key).map (·.id)).getD 0
  let is_ := (s.tt.entries.filter (fun b => b.1 / 64 == n && b.2.st == .accepted && b.2.affected.contains id)).map (·.1 % 64)
  (is_.foldl (fun s i => s.setTt n i { s.ttOf n i with st := .clearing }) s).stopCtx key .booking

/-- R198: the next scheduled stop of PDn comes due. -/
def execTtStopDue (n : Fin 4) (s : State) : Out :=
  match (saveStarts (s.saveQueue n)).1.head? with
  | none => .next s
  | some (due, key) =>
    let t := s.reachNs due
    unlessHalted s .inference (onlyIf (t.pastNs due) s (t.ttStop n key))

/-- R198: at T_START − CX_MARGIN, contexts that only lose named arrays release them, through hand-back where a tile runs. -/
def execTtReleaseDue (n : Fin 4) (i : Fin 64) (s : State) : Out :=
  let e := s.ttOf n i
  let due : Int := (e.start : Int) - e.margin * 1000
  let t := s.reachNs due
  let ks := (s.sh.ctx.filter (fun c => c.1 / 8 == n.val && e.losing.contains c.2.id)).map (·.1)
  let u := ks.foldl (fun s k =>
    match s.ctxOf k with
    | none => s
    | some c =>
      let give := c.arrays.filter (fun g => (e.named n).contains g)
      let busy (g : Nat) : Bool := match c.run with
        | some r => r.running.any (fun q => q.array == g)
        | none => false
      s.setCtx k (some { c with
        arrays := c.arrays.filter (fun g => !(give.contains g) || busy g)
        rel := c.rel ++ (give.filter busy).filter (fun g => !c.rel.contains g) })) t
  unlessHalted s .inference (onlyIf (e.saving && t.pastNs due) s u)

/-- R199, R202: a named array is free for the booking: held by no context, running no pass that another booking left, and in no
other core's booking, and its island is ON or only parked for power, which ends with READY (R390); not while RADIO_ONLY keeps
the arrays OFF (R388).  One that has failed is passed over. -/
def State.ttArrayFree (s : State) (n i : Nat) (g : Nat) : Bool :=
  let e := s.ttOf n i
  let other (p : TtEntry → Bool) : Bool := s.tt.entries.any (fun b => b.1 / 64 == n && b.1 != 64 * n + i && p b.2 &&
    bitOf b.2.arrays (g % 16))
  (s.isl (arrayIsland g)).st == .failedShort ||
  (!s.radioOnly && (s.islOn (arrayIsland g) || s.parkedPower g) && !(s.sh.ctx.any (fun c => c.2.arrays.contains g)) &&
    ((s.esOf g).runs.isEmpty || other (fun b => b.st == .active && b.core == e.core)) &&
    !(other (fun b => b.core != e.core && (b.st == .ready || b.st == .active))))

/-- R199: the window holds no inference data. -/
def State.ttWindowFree (s : State) (n : Nat) (e : TtEntry) : Bool :=
  !(s.sh.ctx.any (fun c => c.1 / 8 == n && meetsWindow n e.rwin c.2.extent c.2.extentLen))

/-- R199, R388: everything the booking needs is free, and RADIO_ONLY is not in force. -/
def State.ttFree (s : State) (n i : Nat) : Bool :=
  let e := s.ttOf n i
  !s.radioOnly && (e.named n).all (s.ttArrayFree n i) && s.ttWindowFree n e

/-- R199: READY. -/
def execTtReady (n : Fin 4) (i : Fin 64) (s : State) : Out :=
  let e := s.ttOf n i
  unlessHalted s .inference (onlyIf ((e.st == .accepted || e.st == .clearing) && s.ttFree n i) s
    ((s.setTt n i { e with st := .ready, tReady := s.T }).ttIrq e))

/-- R199, R200: a booking becomes ACTIVE; the ring's count starts at 0 where no other booking of the die is ACTIVE. -/
def State.ttActivate (s : State) (n i : Nat) (e : TtEntry) : State :=
  let other := s.tt.entries.any (fun b => b.1 / 64 == n && b.1 != 64 * n + i && b.2.st == .active)
  let t := s.setTt n i { e with st := .active }
  if other then t
  else
    let t := { t with tt := { t.tt with taken := tset 0 t.tt.taken n 0, written := tset 0 t.tt.written n 0 } }
    t.storeNat (passList n + 0x80040) 4 0

/-- R199, R388: T_START arrives: ACTIVE, or LATE if the booking is not yet READY or RADIO_ONLY is in force. -/
def execTtStart (n : Fin 4) (i : Fin 64) (s : State) : Out :=
  let e := s.ttOf n i
  let t := s.reachNs e.start
  unlessHalted s .inference
    (onlyIf ((e.st == .ready || e.st == .accepted || e.st == .clearing) && t.pastNs e.start) s
      (if e.st = .ready ∧ s.radioOnly = false then t.ttActivate n i e
       else ((t.setTt n i { e with st := .late }).count (ttBlock + 0x014) 1).ttIrq e))

/-- R199: what is free of a LATE booking passes to it; with the last of it, ACTIVE. -/
def execTtLateArrayFree (n : Fin 4) (i : Fin 64) (s : State) : Out :=
  let e := s.ttOf n i
  let e' := { e with taken := (e.named n).filter (s.ttArrayFree n i) }
  unlessHalted s .inference (onlyIf (e.st == .late) s
    (if s.ttFree n i then s.ttActivate n i { e' with tReady := s.T } else s.setTt n i e'))

/-- R201: at T_START + DUR the booking ends: queued passes and stages of its arrays are discarded, and counted where there were
any; passes already running complete. -/
def execTtEnd (n : Fin 4) (i : Fin 64) (s : State) : Out :=
  let e := s.ttOf n i
  let t := s.reachNs (e.start + e.dur : Nat)
  let u := t.discardBooked n i
  let u := if t.bookedQueued n i then u.count (ttBlock + 0x018) 1 else u
  unlessHalted s .inference
    (onlyIf (e.live && t.pastNs (e.start + e.dur : Nat)) s (u.ttOver n i .done))

/-! ### Driving booked arrays (R200) -/

/-- R200: the range lies in the window of the die's ACTIVE bookings and outside the first part of the pass-list area. -/
def State.inBooked (s : State) (n a len : Nat) : Bool :=
  let top := sramBase (Die.ofIndex n) + sramSpan (Die.ofIndex n)
  let w := (s.tt.entries.filter (fun b => b.1 / 64 == n && b.2.st == .active)).foldl (fun x b => max x b.2.rwin) 0
  len == 0 || (decide (top - w * 2 ^ 20 ≤ a) && decide (a + len ≤ top) && !rangesMeet a len (passList n) 0x80100)

/-- R200: one record: byte 0 the kind, byte 1 the array, bytes 127:32 the values of registers 0x010 to 0x06F; a record that
breaks a rule is discarded and counted. -/
def State.takeRecord (s : State) (n : Nat) (b : List Byte) : State :=
  let kind := fieldAt b 0 1
  let g := 16 * n + fieldAt b 1 1
  let named := decide (fieldAt b 1 1 < 16) && s.tt.entries.any (fun q => q.1 / 64 == n && q.2.st == .active &&
    bitOf q.2.arrays (fieldAt b 1 1))
  let t := (List.range 24).foldl (fun t k =>
    let o := esReg g (0x010 + 4 * k)
    match regRow o with
    | some r => if r.base % 0x1000 = 0 then t else t.setReg o (fieldAt b (32 + 4 * k) 4 &&& r.rw)
    | none => t) s
  let st := esStageRegs t g
  let p := esPassRegs t g
  let ws := match Fmt.ofCode st.wFmt with
    | some f => st.ranges f
    | none => []
  let ds := match Fmt.ofCode p.aFmt, Fmt.ofCode p.oFmt with
    | some a, some o => (List.range p.m).flatMap (fun m => p.dstRange o st.nAct m :: p.rowRanges a st.kAct m)
    | _, _ => []
  let ranges := if kind = 1 then ws else ds
  let ok := (kind == 1 || kind == 2) && named && (s.isl (arrayIsland g)).st != .failedShort &&
    ranges.all (fun r => s.inBooked n r.1 r.2) && (kind != 2 || Fmt.ofCode p.oFmt != some .lps || s.inBooked n p.dst 16)
  if !ok then s.count (ttBlock + 0x020) 1
  else
    let e := t.esOf g
    if e.halt = .error then t
    else if kind = 1 then t.putEs g ({ e with sStall := e.sStall ++ [st] } : EsArray).refill
    else (t.putEs g ({ e with pStall := e.pStall ++ [p] } : EsArray).refill).wakeArray g

/-- R200: the driving cores take records in order, k of them, and write the number taken. -/
def State.takeRecords (s : State) (n : Nat) : Nat → State
  | 0 => s
  | k + 1 =>
    let c := tget 0 s.tt.taken n
    let t := s.takeRecord n (s.load (passList n + 128 * (c % 4096)) 128)
    let c' := (c + 1) % 2 ^ 16
    ({ t with tt := { t.tt with taken := tset 0 t.tt.taken n c' } }.storeNat (passList n + 0x80040) 4 c').takeRecords n k

/-- R200: a write of TT_RING signals new records; ignored while no booking of the die is ACTIVE, and refused as a whole where it
is more than 4,096 records ahead. -/
def execTtRingDoorbell (m : Agent) (n : Fin 4) (v : Word) (s : State) : Out :=
  let w := v.toNat % 2 ^ 16
  let ahead := (w + 2 ^ 16 - tget 0 s.tt.taken n) % 2 ^ 16
  let t := { s with tt := { s.tt with written := tset 0 s.tt.written n w } }
  agentIf m (m.isRd && s.tt.entries.any (fun b => b.1 / 64 == n.val && b.2.st == .active)) s
    (if 4096 < ahead then s.count (ttBlock + 0x020) 1 else t.takeRecords n ahead)

end Sys2Proof.Machine
end

