-- ==== Sys2Proof/Machine/Islands.lean ====
section
/-! DEFINITION.  Chapter 17, R367 to R374: power islands. -/

namespace Sys2Proof.Machine

/-! ### Requests and targets (R367 to R370) -/

/-- R367: ON, RET, OFF in order of depth. -/
def IslReq.depth : IslReq → Nat
  | .on => 0 | .ret => 1 | .off => 2

def IslReq.deeper (a b : IslReq) : IslReq := if a.depth < b.depth then b else a

/-- R391: the value of a request field; 3 is ignored. -/
def IslReq.ofCode : Nat → Option IslReq
  | 0 => some .on | 1 => some .ret | 2 => some .off | _ => none

/-- R368: the island has no RET: a RET target acts as OFF. -/
def IslKind.noRet : IslKind → Bool
  | .ports _ | .optics _ => true
  | _ => false

/-- R373: the island has pads. -/
def IslKind.pads : IslKind → Bool
  | .ports _ | .optics _ | .base (.pd _) => true
  | _ => false

/-- R27, R369: the die whose BASE is parent to the island; none for a BASE and for AON. -/
def IslKind.parent : IslKind → Option Die
  | .array g => some (arrayDie g)
  | .bankGroup n _ => some (Die.ofIndex (4 + n))
  | .dibbers _ | .coding _ | .ports _ => some .rd
  | .optics _ => some .hd
  | .base _ | .aon => none

/-- R367: the target of an island: the deepest of the three requests. -/
def State.islTarget (s : State) (i : Nat) : IslReq :=
  let x := s.isl i
  let t := (x.pfReq.deeper x.fwReq).deeper (s.parkReq i)
  if t == .ret && (islKind i).noRet then .off else t

/-- The children of a die's BASE island. -/
def childIslands (d : Die) : List Nat := (List.range 499).filter (fun i => (islKind i).parent == some d)

/-- R370: what keeps a BASE island ON: a model slot that is not EMPTY, or on a prompt die a context, a save area in use or
a HARQ spill pool of a loaded plan; on RD a cell plan. -/
def State.baseHeld (s : State) (d : Die) : Bool :=
  let slots := s.slots.any (fun (e : Nat × Slot) => e.2.st != .empty)
  match d with
  | .pd n => slots || s.sh.ctx.any (fun (e : Nat × Ctx) => e.1 / 8 == n.val) || s.sh.saved.any (fun e => e.die == n.val) ||
      (s.planLoaded && s.cfg.harqHbm != 0 && s.cfg.harqStack / 2 == n.val)
  | .gd _ => slots
  | .rd => s.planLoaded
  | .hd => true

/-- R370: a cell of the active or pending plan uses a port of the pair. -/
def State.pairUsed (s : State) (p : Nat) : Bool :=
  let uses (q : Option Plan) : Bool := match q with
    | some x => x.cells.any (fun c => c.port / 2 == p)
    | none => false
  uses s.fh.active || uses s.fh.next

/-- R28, R370, R374: requests to leave ON that are ignored. -/
def State.reqIgnored (s : State) (i : Nat) : Bool :=
  match islKind i with
  | .array g => decide (80 ≤ g) && s.planLoaded
  | .dibbers _ | .coding _ => s.planLoaded
  | .ports p => s.pairUsed p
  | .base d => s.baseHeld d
  | _ => false

/-- Nothing is asked of PI.HD.AON and PI.HD.BASE, nor of an island locked after a short (R28, R374). -/
def State.islLocked (s : State) (i : Nat) : Bool := decide (497 ≤ i) || (s.isl i).st == .failedShort

/-- R370: the context that holds an array releases it at its next pass boundary. -/
def State.askRelease (s : State) (i : Nat) : State :=
  match islKind i with
  | .array g =>
    if s.islTarget i = .on then s
    else { s with sh := { s.sh with ctx := s.sh.ctx.map (fun (e : Nat × Ctx) =>
      if e.2.arrays.contains g && !e.2.rel.contains g then (e.1, { e.2 with rel := g :: e.2.rel }) else e) } }
  | _ => s

/-- R367, R370, R391: a write of PW_ISL[i].PF_REQ; one that is ignored sets REFUSED. -/
def execIslandPfReq (m : Agent) (i : Fin 499) (req : Fin 4) (s : State) : Out :=
  let refused := s.modIsl i (fun x => { x with refused := true })
  let t := match IslReq.ofCode req with
    | none => refused
    | some r =>
      if s.islLocked i ∨ (r ≠ .on ∧ s.reqIgnored i = true) then refused
      else (s.modIsl i (fun x => { x with pfReq := r })).askRelease i
  agentIf m (s.hdOrPf m) s t

/-- R370: FW_REQ writes that are ignored: those of PF_REQ, but that of RD's arrays, where only PF_REQ and park are. -/
def State.fwIgnored (s : State) (i : Nat) : Bool :=
  match islKind i with
  | .array _ => false
  | _ => s.reqIgnored i

/-- R367, R391: a write of PW_ISL[i].FW_REQ by an HD core. -/
def execIslandFwReq (m : Agent) (i : Fin 499) (req : Fin 4) (s : State) : Out :=
  let t := match IslReq.ofCode req with
    | none => s
    | some r =>
      if s.islLocked i ∨ (r ≠ .on ∧ s.fwIgnored i = true) then s
      else (s.modIsl i (fun x => { x with fwReq := r })).askRelease i
  agentIf m m.isHd s t

/-! ### What leaving ON does (R74, R107, R114, R262, R288, R327, R368) -/

/-- A work tile of a context runs on the array. -/
def State.tileOn (s : State) (g : Nat) : Bool :=
  s.sh.ctx.any (fun (e : Nat × Ctx) => match e.2.run with
    | some r => r.running.any (fun q => q.array == g)
    | none => false)

/-- R369: every child is OFF or RET, and none is to be ON. -/
def State.childrenDown (s : State) (d : Die) : Bool :=
  (childIslands d).all (fun i =>
    ((s.isl i).st == .off || (s.isl i).st == .ret) && s.islTarget i != .on || (s.isl i).st == .failedShort)

/-- R370: the request to leave ON takes effect now. -/
def State.leaveDue (s : State) (i : Nat) : Bool :=
  match islKind i with
  | .array g =>
    let pass := !(s.esOf g).runs.isEmpty || ((s.esOf g).swapping && s.esGoes g)
    if g < 64 then !s.bookedNow g && !s.tileOn g && !pass
    else if g < 80 then !pass
    else !s.tileOn g && !pass && !(s.planLoaded && (s.isl i).fwReq == .on)
  | .bankGroup _ _ => (s.isl i).pfReq != .on || !s.hm.stepping
  | .dibbers _ | .coding _ => true
  | .ports p => !s.pairUsed p
  | .optics _ => true
  | .base d => !s.baseHeld d && s.childrenDown d
  | .aon => false

/-- R107: the retention mask in force when entry begins: bit k keeps bank k of a group, or segment k of a die. -/
def State.retMask (s : State) (i : Nat) : Nat :=
  match islKind i with
  | .bankGroup n j =>
    let o := bkBlock + 0x10000 * (4 + n) + 0x2000 + 16 * j
    s.regN o + s.regN (o + 4) * 2 ^ 32 + s.regN (o + 8) * 2 ^ 64 + s.regN (o + 12) * 2 ^ 96
  | .base d => s.regN (bkBlock + 0x10000 * d.index + 0x2000)
  | _ => 0

/-- R262: a coding cluster loses its job table: handles its jobs name become LOST, and RD.P0 is interrupted. -/
def State.clusterLost (s : State) (c : Fin 4) : State :=
  let jobs := (s.dsOf c).jobs
  let t := jobs.foldl (fun t j =>
    let x := DsFields.parse j.job
    if x.opc = 1 then t.loseHandle x.harq else t) s
  (t.setDs c { t.dsOf c with jobs := [] }).irqTo (coreId .rd 0) .ds

/-- R114: the Dredge's active region lies in the island: the march stops, every copied word is restored, and the region is
tested again from the start when the island is next ON. -/
def State.dredgeLeaves (s : State) (i : Nat) : State :=
  let d := match islKind i with
    | .bankGroup n _ => Die.ofIndex (4 + n)
    | .base d => d
    | _ => .hd
  let x := s.dredgeOf d
  if x.phase ≠ .idle ∧ i < 497 ∧ keyIsland (wordKey d x.bank (512 * x.region)) = i then
    let r := (x.bank, x.region)
    let y := { x with phase := .idle, shadow := [], owed := x.owed.filter (· ≠ r) ++ [r] : Dredge }.advance d
    let t := s.setDredge d y.1
    if y.2 then t.count (bkReg d 0x020C) 1 else t
  else s

/-- A Dibber that has lost all but its instruction memories (R368). -/
def Dibber.keepCode (x : Dibber) : Dibber := { imem := x.imem, imemB := x.imemB, bankB := x.bankB }

/-- What the units of an island lose when it leaves ON; off says that nothing is kept. -/
def State.unitsOff (s : State) (i : Nat) (off : Bool) : State :=
  match islKind i with
  | .array g => s.setEs g (s.esOf g).leaveOn
  | .bankGroup n j => s.groupLeaves n j
  | .dibbers c => (List.range 8).foldl (fun s k =>
      let j := 8 * c + k
      { s with fh := { s.fh with db := tset {} s.fh.db j (if off then {} else (tget {} s.fh.db j).keepCode) } }) s
  | .coding c => if h : c < 4 then s.clusterLost ⟨c, h⟩ else s
  | .ports p => s.portsOff p
  | .optics k => s.opticsOff k
  | _ => s

/-- R132, R185: an array leaves the context that holds it: the array time up to now is charged, and a tile it runs goes to the
hand-back slots. -/
def State.dropArray (s : State) (g : Nat) : State :=
  (s.settle.sh.ctx.filter (fun (e : Nat × Ctx) => e.2.arrays.contains g)).foldl (fun s e =>
    let cx := { e.2 with arrays := e.2.arrays.filter (· != g), rel := e.2.rel.filter (· != g) }
    match cx.run with
    | none => s.setCtx e.1 (some cx)
    | some r =>
      let u := s.handBack cx { r with running := r.running.filter (fun q => q.array != g) }
        (r.running.filter (fun q => q.array == g))
      u.1.setCtx e.1 (some { cx with run := some u.2 })) s.settle

/-- R370: a request to leave ON takes effect: the island begins its entry, its retention mask is latched (R107), and its
arrays leave their context. -/
def execIslandEntryBegin (i : Fin 499) (s : State) : Out :=
  let x := s.isl i
  let goal := s.islTarget i
  let on := x.st == .on || x.st == .latched
  let t := match islKind i with
    | .array g => s.dropArray g
    | _ => s
  let t := (t.dredgeLeaves i).unitsOff i (goal == .off)
  let t := t.modIsl i (fun x => { x with st := .entering, goal := goal, kept := if on then s.retMask i else x.kept })
  onlyIf (goal != .on && ((on && s.leaveDue i) || (x.st == .ret && goal == .off))) s t

/-- R108: the values of BK_RULE that HD firmware last set are written again after the die's BASE island has left OFF. -/
def State.rewriteRules (s : State) (d : Die) : State :=
  (List.range (ruleRegs d)).foldl (fun s i =>
    match s.bk.fwRule.find? (fun e => e.1 == bkReg d (0x4000 + 4 * i)) with
    | some e => s.setReg e.1 e.2.toNat
    | none => s) s

/-- The register blocks of a die whose BASE island has lost its contents (R108, R368, R461), with the state behind them. -/
def State.dieLost (s : State) (d : Die) : State :=
  let gs := dieArrays d
  let t := { s with
    es := tdrop (fun g => gs.contains g) s.es
    boot := { s.boot with cores := tdrop (fun k => masterDie k == d) s.boot.cores }
    bk := { s.bk with dredge := tdrop (fun k => k == d.index) s.bk.dredge } }
  let t := gs.foldl (fun t g => t.resetRegs (esReg g 0) (esReg g 0 + 0x1000)) t
  let b := bkBlock + 0x10000 * d.index
  let t := t.resetRegs b (b + 0x10000)
  match d with
  | .gd n => { t.resetRegs (dlReg n 0) (dlReg n 0 + 0x1000) with dl := tdrop (fun k => k == n.val) t.dl }
  | .rd =>
    let t := ((t.resetRegs dsBlock (dsBlock + 0x10000)).resetRegs dbBlock (dbBlock + 0x10000)).resetRegs fhBlock (fhBlock + 0x80000)
    { t with
      fh := { nrxKnown := t.fh.nrxKnown }
      ds := {}
      eg := { t.eg with
        queues := tdrop (fun k => decide (k < 16384)) t.eg.queues
        v := tdrop (fun k => decide (k < 128)) t.eg.v
        sending := tdrop (fun e => decide (e < 32)) t.eg.sending
        wait := [] } }
  | _ => t

/-- R368: in OFF all contents are lost, with a prompt die's the two HBM stacks'. -/
def State.contentsLost (s : State) (i : Nat) : State :=
  let t := s.modIsl i (fun x => { x with kept := 0 })
  match islKind i with
  | .base (.pd n) => (t.dieLost (.pd n)).clearMem (fun k => match place k with
      | .hbm h _ => h / 2 == n.val
      | _ => false)
  | .base d => t.dieLost d
  | _ => t

/-- R371, R372: entry ends. -/
def execIslandEntryDone (i : Fin 499) (s : State) : Out :=
  let x := s.isl i
  let off := x.goal == .off
  let t := s.modIsl i (fun x => { x with st := if off then .off else .ret })
  onlyIf (x.st == .entering) s (if off then t.contentsLost i else t)

/-! ### Exit (R108, R369, R371 to R373) -/

/-- R369: the island is to be ON: by its own target, or a BASE because a child of it is to wake. -/
def State.wakes (s : State) (i : Nat) : Bool :=
  s.islTarget i == .on || match islKind i with
    | .base d => (childIslands d).any (fun c => s.islTarget c == .on && (s.isl c).st != .failedShort)
    | _ => false

/-- R369: the parent is ON. -/
def State.parentOn (s : State) (i : Nat) : Bool :=
  match (islKind i).parent with
  | some d => s.dieOn d
  | none => true

/-- R25: an island's on-demand clock domain starts. -/
def State.clockFor (s : State) (i : Nat) : State :=
  let all : List ClkDomain :=
    [.pda 0, .pda 1, .pda 2, .pda 3, .gdc 0, .gdc 1, .gdc 2, .gdc 3, .rdc, .rdf, .hbmc, .zel, .fh]
  let need := all.filter (fun d => d.clocks (islKind i) && !s.clk.running.contains d)
  { s with clk := { s.clk with running := s.clk.running ++ need } }

/-- R372: a wake takes effect: from RET or OFF the island begins EXITING. -/
def execIslandExitBegin (i : Fin 499) (s : State) : Out :=
  let x := s.isl i
  let t := s.modIsl i (fun x => { x with st := .exiting, fromRet := x.st == .ret })
  onlyIf ((x.st == .off || x.st == .ret) && s.wakes i && s.parentOn i) s (t.clockFor i)

/-- R77, R92, R108: a storage key lies in a bank or segment of the island that was not retained. -/
def clearedKey (i kept k : Nat) : Bool :=
  decide (keyIsland k = i) && match place k with
    | .sram (.gd _) off => !bitOf kept (off / 0x40000 % 128)
    | .sram _ off => !bitOf kept (off / 0x2000000)
    | _ => false

/-- A request fails with EXEC_ERROR (R144), at the next step boundary where it is decoding. -/
def State.failRequest (s : State) (i : Nat) : State :=
  if (s.manOf i).st = .decode then s.modMan i (fun m => { m with leave := .fail 0x0D }) else s.endRequest i 8 0x0D 0

/-- R374, R388: contents of a bank group are lost: a slot whose weights lie in it ends as under UNLOAD with FORCE, and a
request with a GD berth in a lost bank fails. -/
def State.groupLost (s : State) (i kept : Nat) : State :=
  let hit (b : Berth) (r : Slot) : Bool := b.tier == .gd && (List.range r.shards).any (fun k =>
    match r.sliceAddr .gd b.frame k with
    | some a => (List.range (r.sliceBytes / 8)).any (fun w => clearedKey i kept (s.key (a + 8 * w)))
    | none => false)
  let men := s.liveMen.filter (fun e => e.2.entries.any (fun k => hit (s.berthOf k) (tget {} s.slots e.2.slot)))
  let t := men.foldl (fun s e => s.failRequest e.1) s
  let sl := s.slots.filter (fun (e : Nat × Slot) => e.2.st != .empty && e.2.groups.contains i)
  sl.foldl (fun s e =>
    let u := (s.setSlot e.1 { e.2 with st := .draining }).unloadAll e.1
    if u.slotNamed e.1 then u else (u.setSlot e.1 {}).mgmtEvent) t

/-- A section of an image by TARGET (R400). -/
def Image.sect (x : Image) (target : Nat) : List Byte := ((x.sects.find? (fun e => e.1 == target)).map (·.2)).getD []

/-- R400: the Dibbers' code in an image. -/
def Image.dibberCode (x : Image) : List Byte := x.sect 5

/-- R400: TARGET of a die's Pilot cores. -/
def coreTarget : Die → Nat
  | .hd => 1 | .pd _ => 2 | .gd _ => 3 | .rd => 4

/-- R116, R400: a section into a Pilot core: its first 128 KiB are the instructions of a bank, the rest, where it is taken,
the data (log 117). -/
def CoreMem.load (c : CoreMem) (sect : List Byte) (bankB data : Bool) : CoreMem :=
  let code := sect.take 0x20000
  let c := if bankB then { c with imemB := code } else { c with imem := code }
  if data then { c with dmem := sect.drop 0x20000 } else c

/-- R401, R407: an image's section into one bank of the cores of a die. -/
def State.loadCores (s : State) (d : Die) (x : Image) (bankB data : Bool) : State :=
  { s with boot := { s.boot with cores := (List.range (dieCores d)).foldl (fun t k =>
      tmod {} t (coreId d k) (fun c => c.load (x.sect (coreTarget d)) bankB data)) s.boot.cores } }

/-- R401, R407: an image's section into the eight cores of an HD bank. -/
def State.loadHdBank (s : State) (x : Image) (bankB : Bool) : State :=
  { s with boot := { s.boot with cores := (List.range 8).foldl (fun t k =>
      tmod {} t (coreId .hd (8 * b2n bankB + k)) (fun c => c.load (x.sect 1) false true)) s.boot.cores } }

/-- The image whose code stands in an instruction bank of the dies: the running one, or in the other bank a staged one. -/
def State.bankImage (s : State) (bankB : Bool) : Image :=
  if bankB = s.homeBank then s.boot.img else s.boot.stby.getD s.boot.img

/-- The island's units are usable again: enabled links of an optical engine train (R288), and the Dibbers of a cluster and the
Pilot cores of a die that lost their memories are loaded from the image (log 56). -/
def State.unitsOn (s : State) (i : Nat) : State :=
  match islKind i with
  | .optics k => s.opticsOn k
  | .dibbers c =>
    if (s.isl i).fromRet then s
    else
      (List.range 8).foldl (fun s k =>
        let x : Dibber :=
          { imem := (s.bankImage false).dibberCode, imemB := (s.bankImage true).dibberCode, bankB := s.bankNow }
        { s with fh := { s.fh with db := tset {} s.fh.db (8 * c + k) x } }) s
  | .base d =>
    if (s.isl i).fromRet then s
    else (s.loadCores d (s.bankImage false) false (!s.bankNow)).loadCores d (s.bankImage true) true s.bankNow
  | _ => s

def allDies : List Die := [.pd 0, .pd 1, .pd 2, .pd 3, .gd 0, .gd 1, .gd 2, .gd 3, .rd, .hd]

/-- R397: item RETAIN fills the retention registers of a die: when the record is applied, and when the die's BASE wakes
from OFF (log 60). -/
def State.applyRetain (s : State) (d : Die) : State :=
  let w (k : Nat) : Nat := s.cfg.retain.getD k 0
  let o := bkBlock + 0x10000 * d.index + 0x2000
  if s.cfg.loaded = false then s
  else match d with
    | .gd n => (List.range 384).foldl (fun s k => s.setReg (o + 4 * k) (w (384 * n.val + k))) s
    | .pd n => s.setReg o (w (1536 + n.val) % 2 ^ 24)
    | .rd => s.setReg o (w 1540 % 2 ^ 24)
    | .hd => s.setReg o (w 1541 % 2 ^ 8)

/-- R108, R371, R373: exit ends: banks that were not retained are cleared with valid check bits, and the island is LATCHED
where it has pads, otherwise ON. -/
def execIslandExitDone (i : Fin 499) (s : State) : Out :=
  let x := s.isl i
  let all := 2 ^ 128 - 1
  let t := s.clearMem (clearedKey i x.kept)
  let t := match islKind i with
    | .bankGroup _ _ => if x.kept = all then t else t.groupLost i x.kept
    | _ => t
  let t := match islKind i with
    | .base d => if x.fromRet then t else (t.applyRetain d).rewriteRules d
    | _ => t
  let t := if (islKind i).pads then t.modIsl i (fun x => { x with st := .latched })
    else (t.modIsl i (fun x => { x with st := .on })).unitsOn i
  onlyIf (x.st == .exiting) s t

/-- R373: RELEASE in LATCHED. -/
def execIslandRelease (m : Agent) (i : Fin 499) (s : State) : Out :=
  agentIf m (s.hdOrPf m && (s.isl i).st == .latched) s ((s.modIsl i (fun x => { x with st := .on })).unitsOn i)

/-! ### Shorts (R374) -/

/-- R202: the CORE of every booking that names a failed array is interrupted; the booking goes on with the others. -/
def State.arrayFailed (s : State) (g : Nat) : State :=
  let es := s.tt.entries.filter (fun (b : Nat × TtEntry) => decide (g < 64) && b.1 / 64 == g / 16 && b.2.live && bitOf b.2.arrays (g % 16))
  (es.foldl (fun s b => s.ttIrq b.2) s).dropArray g

/-- R374: a current monitor exceeds its limit while the island is powered: the switches open, contents are lost, the island
is locked until a module reset, and capacity falls; a BASE island's short is fatal.  PI.HD.AON and PI.HD.BASE never leave
ON (R28), and R374 gives a short of theirs no consequence. -/
def execIslandShort (i : Fin 499) (s : State) : Out :=
  let x := s.isl i
  let on := x.st == .on || x.st == .latched
  let t := if on then (s.dredgeLeaves i).unitsOff i true else s
  let t := match islKind i with
    | .array g => t.arrayFailed g
    | .bankGroup _ _ => t.groupLost i 0
    | _ => t
  let t := (t.modIsl i (fun x => { x with st := .failedShort })).contentsLost i
  let t := (t.setReg pwBlock (t.regN pwBlock ||| 0x100)).count (pwBlock + 0x024) 1
  let t := t.hiErr 5
  onlyIf (decide (i.val < 497) && (on || x.st == .entering || x.st == .exiting)) s
    (match islKind i with
      | .base d => t.raiseFatal 2 d.index
      | _ => t)

end Sys2Proof.Machine
end

