-- ==== Sys2Proof/Machine/Sluice.lean ====
section
/-! DEFINITION.  Chapter 17, R375 to R389: the Sluice, thermal and wear limits, and the site plant. -/

namespace Sys2Proof.Machine

def State.modSluice (s : State) (f : Sluice → Sluice) : State := { s with pw := { s.pw with sl := f s.pw.sl } }

/-! ### The budget (R378) -/

/-- R2: the sustained limit of the grade, W. -/
def State.gradeLimit (s : State) : Nat := if s.boot.fuses.gradeX then 1800 else 2100

/-- R378: P_MIN, W. -/
def State.pMin (s : State) : Nat := s.radioFloor + 400

/-- A cap of the configuration record, where it sets one (R387, R389). -/
def State.capOf (s : State) (k : Nat) : Nat :=
  let c := bitsOf (s.cfg.power.getD k 0) 15 0
  if c = 0 then s.gradeLimit else c

/-- R378: the least of the caps, before it is raised to P_MIN. -/
def State.rawBudget (s : State) : Nat :=
  min (min s.gradeLimit (s.capOf s.pw.sl.site)) (if s.pw.sl.throttle then s.capOf 4 else s.gradeLimit)

/-- R378: B, W. -/
def State.budget (s : State) : Nat := max s.rawBudget s.pMin

/-! ### Levels (R376, R383, R385) -/

/-- R385: boost ticks of the window: the current hour and the previous 719. -/
def Sluice.boostTicks (x : Sluice) : Nat := (x.boost.take 720).sum

/-- R385: the boost budget is used. -/
def Sluice.barred (x : Sluice) : Bool := decide (259200 * 20000 ≤ x.boostTicks)

/-- R376: the effective level. -/
def Sluice.level (x : Sluice) : Nat := min (min x.powerLevel x.thermCeil) (if x.barred then 9 else 11)

/-- R376: MHz of a level, for PDA and for GDC. -/
def levelPoint (gdc : Bool) (l : Nat) : Nat :=
  if gdc then (match l with | 0 => 400 | 1 => 700 | 2 => 1000 | 3 => 1000 | 4 => 1100 | 5 => 1100 | _ => 1250)
  else (match l with
    | 0 => 250 | 1 => 250 | 2 => 250 | 3 => 500 | 4 => 500 | 5 => 750 | 6 => 750 | 7 => 1000 | 8 => 1100 | 9 => 1200
    | 10 => 1300 | _ => 1400)

/-- R375: the point of a domain takes effect: PDA0 to PDA3 are 0 to 3, GDC0 to GDC3 are 4 to 7. -/
def execOperatingPointChange (k : Fin 8) (s : State) : Out :=
  .next (s.modSluice (fun x => { x with points := tset 0 x.points k.val (levelPoint (decide (4 ≤ k.val)) x.level) }))

/-! ### Parking (R380, R388, R390) -/

/-- The dies whose arrays a park step takes. -/
def stepDies (k : Nat) : List Die := if k < 5 then [Die.ofIndex (4 - k)] else [.gd 0, .gd 1, .gd 2, .gd 3]

/-- R190, R380: the contexts of a die stop and stay in its SRAM. -/
def State.stopDie (s : State) (d : Die) : State :=
  (s.sh.ctx.filter (fun (e : Nat × Ctx) => e.1 / 8 == d.index && e.2.st == .running)).foldl (fun s e => s.stopCtx e.1 .park) s

/-- R380, R388: contexts that parking stopped go on, where the die's arrays are no longer parked. -/
def State.resumeDie (s : State) (d : Die) : State :=
  if (dieArrays d).all (fun g => s.parkedArray g) then s
  else (((List.range 8).map (ctxKey d ·)).foldl (fun t k => t.unstop d k) s).giveIdle d

/-- R380: what a change of the park steps or of RADIO_ONLY brings: contexts of dies parked now stop, those of dies no
longer parked go on, and the contexts release parked arrays. -/
def State.reparked (s : State) : State :=
  let dies : List Die := [.pd 0, .pd 1, .pd 2, .pd 3, .rd]
  dies.foldl (fun s d =>
    if (dieArrays d).any (fun g => s.parkedArray g) then s.stopDie d else s.resumeDie d) s

/-- R379, R380: n park steps are taken at once. -/
def State.parkSome (s : State) (n : Nat) : State :=
  ((s.modSluice (fun x => { x with parked := min 5 (x.parked + n), sincePark := 0 })).count (pwBlock + 0x02C) n).reparked

/-! ### The tick (R379) -/

/-- R379: one step down: a level, or one park step where five ticks have passed since the last. -/
def State.stepDown (s : State) : State :=
  let x := s.pw.sl
  if 0 < x.powerLevel then
    (s.modSluice (fun x => { x with powerLevel := x.powerLevel - 1, sinceLevel := 0 })).count (pwBlock + 0x020) 1
  else if x.parked < 5 ∧ 5 ≤ x.sincePark then s.parkSome 1
  else s

/-- R379: one tick of 50 µs with its mean input power in mW. -/
def execSluiceTick (mw : BitVec 24) (s : State) : Out :=
  let p := mw.toNat
  let b := s.budget
  let x := s.pw.sl
  let win := (p :: x.window).take 20000
  let e := win.sum
  let prior := if (match x.lastB with | some l => decide (b < l) | none => false) then 380 else x.above
  let above := if b * 1000 < p then prior + 1 else 0
  let boost := match x.boost with
    | [] => [b2n (decide (10 ≤ x.level))]
    | h :: hs => (h + b2n (decide (10 ≤ x.level))) :: hs
  let t := s.modSluice (fun x => { x with
    window := win, above := above, lastB := some b, boost := boost
    overNow := decide (b * 1000 < p)
    floorLimited := decide (b * 1000 < p) && decide (5 ≤ s.parkSteps)
    sinceLevel := min 20 (x.sinceLevel + 1), sincePark := min 200 (x.sincePark + 1) })
  let y := t.pw.sl
  let calm (k : Nat) : Bool := decide (p * 100 ≤ k * b * 1000) && decide (e * 100 ≤ 98 * b * 20000000)
  onlyIf s.boot.powered s
    (if x.emerg then t
     else if b * 1000 < p then
       (if 380 ≤ above ∨ b * 20000000 < e + 2700000 then t.stepDown else t)
     else if calm 90 ∧ 0 < y.parked ∧ 200 ≤ y.sincePark then
       (t.modSluice (fun x => { x with parked := x.parked - 1, sincePark := 0 })).reparked
     else if calm 95 ∧ t.parkSteps = 0 ∧ 20 ≤ y.sinceLevel ∧ y.powerLevel < 11 then
       t.modSluice (fun x => { x with powerLevel := x.powerLevel + 1, sinceLevel := 0 })
     else t)

/-- R381: the limiter has been engaged for 1 ms, or the hold-up voltage is below its threshold. -/
def execInputLimitEmergency (s : State) : Out :=
  let t := (s.parkSome (5 - s.pw.sl.parked)).modSluice (fun x => { x with powerLevel := 0, sinceLevel := 0, emerg := true })
  .next ((t.setReg pwBlock (t.regN pwBlock ||| 0x40)).count (pwBlock + 0x028) 1)

/-- R381: neither condition has held for 10 ms. -/
def execEmergencyClear (s : State) : Out := .next (s.modSluice (fun x => { x with emerg := false }))

/-! ### Temperature and wear (R382 to R385) -/

/-- R383: the 1 ms adjustment, from the hottest sensor of each logical die in 0.125 °C. -/
def execThermalTick (temps : List (BitVec 16)) (s : State) : Out :=
  let ts := temps.map BitVec.toInt
  let x := s.pw.sl
  let cool := if ts.all (fun t => decide (t < 776)) then x.cool + 1 else 0
  let t := s.modSluice (fun x => { x with
    therm := (ts.zipIdx).foldl (fun m e => tset 0 m e.2 e.1) [], cool := cool })
  let u :=
    if ts.any (fun t => decide (840 ≤ t)) then
      ((t.modSluice (fun x => { x with thermCeil := 0, thermParked := 5 })).count (pwBlock + 0x02C) (5 - s.parkSteps)).reparked
    else if ts.any (fun t => decide (800 ≤ t)) then t.modSluice (fun x => { x with thermCeil := x.thermCeil - 1 })
    else if 100 ≤ cool then t.modSluice (fun x => { x with thermCeil := min 11 (x.thermCeil + 1) })
    else t
  let v := if cool % 100 = 0 ∧ 0 < cool ∧ 0 < x.thermParked then
      (u.modSluice (fun x => { x with thermParked := x.thermParked - 1 })).reparked
    else u
  onlyIf (temps.length == 10) s v

/-- R384, R393: every island but PI.HD.AON and PI.HD.BASE goes OFF at once. -/
def State.allOff (s : State) : State :=
  (List.range 497).foldl (fun s i =>
    if (s.isl i).st == .failedShort || (s.isl i).st == .off then s
    else
      let t := if (s.isl i).st == .on || (s.isl i).st == .latched then (s.dredgeLeaves i).unitsOff i true else s
      (t.modIsl i (fun x => { x with st := .off, goal := .off })).contentsLost i) s

/-- R384: a die's comparator trips at 110 °C. -/
def execThermalTrip (d : Die) (s : State) : Out := .next (s.allOff.raiseFatal 3 d.index)

/-- R385: the hour's bucket closes, and HD firmware writes the buckets to the wear log. -/
def execBoostHour (s : State) : Out :=
  let bs := match s.pw.sl.boost with
    | [] => [0]
    | l => l
  let t := s.modSluice (fun x => { x with boost := 0 :: bs.take 719 })
  .next (if s.boot.running then { t with boot := { t.boot with wear := some (bs.take 720) } } else t)

/-! ### The site plant (R387 to R389) -/

/-- R387, R388: a SITE_PWR value is accepted: a management event, and RADIO_ONLY begins or ends. -/
def execSitePwrChange (v : Fin 4) (s : State) : Out :=
  let t := (s.modSluice (fun x => { x with site := v.val })).mgmtEvent
  onlyIf (v.val != s.pw.sl.site) s (if t.radioOnly = s.radioOnly then t else t.reparked)

/-- R389: THROTTLE_N is held low for lowNs: at least 1 µs acts, less than 0.5 µs does not, and between them the module
may or may not recognise it. -/
def execThrottleAssert (lowNs : Word) (s : State) : Out :=
  let on := s.modSluice (fun x => { x with throttle := true })
  let n := lowNs.toNat
  .next (if 1000 ≤ n then on
    else if n < 500 then s
    else (if s.freeNat % 2 = 1 then on else s).drew 1)

/-- R389: 1 ms after the pin has returned high the cap is released. -/
def execThrottleRelease (s : State) : Out := .next (s.modSluice (fun x => { x with throttle := false }))

end Sys2Proof.Machine
end

