-- ==== Sys2Proof/Machine/Record.lean ====
section
/-! DEFINITION.  Chapter 18, R395 to R399: the configuration record. -/

namespace Sys2Proof.Machine

/-! ### Header (R396) -/

def recSeq (r : List Byte) : Nat := fieldAt r 16 8
def recLen (r : List Byte) : Nat := fieldAt r 8 4

/-- R396: MAGIC and VERSION. -/
def recMagic (r : List Byte) : Bool := fieldAt r 0 4 == 0x46434B4D && fieldAt r 4 2 == 1

/-- R396: LEN, and bytes to hold it. -/
def recLenOk (r : List Byte) : Bool :=
  decide (256 ≤ recLen r) && decide (recLen r ≤ 4194304) && recLen r % 8 == 0 && decide (recLen r ≤ r.length)

/-- R396: the reserved fields, and KEY_SLOT. -/
def recFields (r : List Byte) : Bool :=
  decide (fieldAt r 6 1 < 4) && fieldAt r 7 1 == 0 && fieldAt r 12 4 == 0 && fieldAt r 32 32 == 0

def recHeaderOk (r : List Byte) : Bool := recMagic r && recLenOk r && recFields r

/-- R396: the key: the owner slot, or while none is programmed the image-key slot, must hold the hash of PUBKEY and not be
revoked. -/
def keyOk (hashes : List (Option (BitVec 384))) (revoked slot : Nat) (pub : List Byte) : Bool :=
  hashes.getD slot none == some (Config.sha384 pub) && !bitOf revoked slot

def State.recKeyOk (s : State) (r : List Byte) : Bool :=
  let f := s.boot.fuses
  let pub := (r.drop 64).take 96
  if f.owner.any (·.isSome) then keyOk f.owner f.ownerRev (fieldAt r 6 1) pub else keyOk f.key f.keyRev (fieldAt r 6 1) pub

/-- R396: the signature over bytes 0 to 159 and 256 to LEN − 1. -/
def recSigOk (r : List Byte) : Bool :=
  Config.ecdsaOk ((r.drop 64).take 96) (Config.sha384 (r.take 160 ++ (r.take (recLen r)).drop 256)) ((r.drop 160).take 96)

/-! ### Items (R397) -/

/-- Items in strictly ascending type, each padded to 8 bytes; none where the sequence is malformed. -/
def recItems : Nat → Nat → List Byte → Option (List (Nat × List Byte))
  | 0, _, bs => if bs = [] then some [] else none
  | fuel + 1, least, bs =>
    if bs = [] then some []
    else
      let t := fieldAt bs 0 2
      let n := fieldAt bs 4 4
      let m := (n + 7) / 8 * 8
      if bs.length < 8 + m ∨ t < least ∨ fieldAt bs 2 2 ≠ 0 then none
      else (recItems fuel (t + 1) (bs.drop (8 + m))).map (fun l => (t, (bs.drop 8).take n) :: l)

/-- R397: payload lengths of the types the ROM knows. -/
def itemLen (t : Nat) : Option Nat :=
  match t with
  | 1 => some 4 | 2 => some 160 | 3 => some 6168 | 4 => some 20 | 5 => some 8 | 6 => some 16 | 7 => some 532
  | 8 => some 408 | 9 => some 16 | 10 => some 2 | _ => none

/-- R397: one entry of MEMORY. -/
def memEntry (b : List Byte) (d : Nat) : CfgMem :=
  { scratch := fieldAt b (16 * d) 4, berthSram := fieldAt b (16 * d + 4) 4, berthHbm := fieldAt b (16 * d + 8) 4
    save := fieldAt b (16 * d + 12) 4 }

/-- R397: the values of an item lie within the ranges of what they fill. -/
def itemOk (t : Nat) (b : List Byte) : Bool :=
  let f (a n : Nat) : Nat := fieldAt b a n
  match t with
  | 2 => (List.range 10).all (fun d =>
      let x := memEntry b d
      (if d = 9 then x.scratch == 0 else decide (32 ≤ x.scratch)) && (decide (d < 4) || (x.berthHbm == 0 && x.save == 0)))
  | 4 => (List.range 4).all (fun k => decide (f (4 * k) 4 < 2 ^ 17)) && decide (f 16 4 < 2 ^ 16)
  | 5 => decide (f 0 2 ≤ 512) && decide (f 2 2 ≤ 32000)
  | 6 => (List.range 4).all (fun n => decide (f (2 * n) 2 < 2 ^ 10)) && decide (f 10 1 ≤ 7) && f 11 1 == 0
  | 7 => decide (f 2 1 ≤ 1) && decide (f 8 5 < 2 ^ 36) && decide (f 13 5 < 2 ^ 36) && f 18 2 == 0 &&
      (b.drop 20).all (fun x => decide (x.toNat < 64))
  | 8 => decide (-5000000 ≤ ofBits 32 (f 4 4)) && decide (ofBits 32 (f 4 4) ≤ 4999999)
  | 9 => f 0 8 % 64 == 0 && decide (f 0 8 < 2 ^ 48) && f 8 8 % 64 == 0 && decide (f 8 8 < 2 ^ 48)
  | 10 => decide (10 ≤ f 0 2) && decide (f 0 2 ≤ 4000)
  | _ => true

/-- The configuration that a list of items gives. -/
def cfgOf (items : List (Nat × List Byte)) : Cfg :=
  let get (t : Nat) : List Byte := ((items.find? (fun x => x.1 == t)).map (·.2)).getD []
  let p := get 5
  let r := get 6
  { loaded := true
    subsys := fieldAt (get 1) 0 4
    mem := (List.range 10).map (memEntry (get 2))
    retain := (List.range 1542).map (fun k => fieldAt (get 3) (4 * k) 4)
    power := (List.range 5).map (fun k => fieldAt (get 4) (4 * k) 4)
    planCells := fieldAt p 0 2, planUnits := fieldAt p 2 2, planCodes := fieldAt p 4 4
    radio := r != []
    winMax := (List.range 4).map (fun k => fieldAt r (2 * k) 2)
    harqRd := fieldAt r 8 2, harqStack := fieldAt r 10 1, harqHbm := fieldAt r 12 4
    fabric := get 7, time := get 8
    hist := if get 9 = [] then [] else [fieldAt (get 9) 0 8, fieldAt (get 9) 8 8]
    wdt := if get 10 = [] then 120 else fieldAt (get 10) 0 2 }

/-- R398, R399: the HBM regions of MEMORY and RADIO leave the fixed areas of H0 free (log 58). -/
def hbmOk (c : Cfg) : Bool :=
  decide ((c.mem.getD 0 {}).berthHbm + (if c.harqStack = 0 then c.harqHbm else 0) + 192 ≤ 49152)

/-- R184, R191, R204: the parts of each die's SRAM fit into it, no window can exceed its die's context area, and each save
area holds the context area, the tiling scratch and 32 KiB (DEDUCED, log 144). -/
def memOk (c : Cfg) : Bool :=
  allDies.all (fun d =>
    let m := c.mem.getD d.index {}
    let area := sramSpan d / 2 ^ 20 - m.scratch - m.berthSram
    decide (m.scratch + m.berthSram ≤ sramSpan d / 2 ^ 20) && match d with
      | .pd n => decide (c.winMax.getD n.val 0 ≤ area) && decide ((area + m.scratch) * 2 ^ 20 + 0x8000 ≤ m.save * 2 ^ 20)
      | _ => true)

/-- R397, R398: order, types, lengths and values of the items; the configuration they give. -/
def recConfig (r : List Byte) : Option Cfg :=
  match recItems (recLen r / 8) 0 ((r.take (recLen r)).drop 256) with
  | none => none
  | some l =>
    let known := l.filter (fun x => !(decide (0x8000 ≤ x.1) && (itemLen x.1).isNone))
    let need := [1, 2, 3, 4, 5].all (fun t => l.any (fun x => x.1 == t))
    if need ∧ known.all (fun x => itemLen x.1 == some x.2.length && itemOk x.1 x.2) ∧ hbmOk (cfgOf l) ∧ memOk (cfgOf l) then some (cfgOf l) else none

/-- R398: every check of a copy, in order. -/
def State.recCheck (s : State) (r : List Byte) : Option Cfg :=
  if recMagic r && recLenOk r && recFields r && (fieldAt r 24 8 == 0 || fieldAt r 24 8 == s.boot.fuses.serial) &&
      s.recKeyOk r && recSigOk r then recConfig r else none

/-! ### Selecting and applying (R398, R399) -/

def State.copyOf (s : State) (c : Nat) : List Byte := s.boot.flash.getD c []

/-- R398: the copy with the higher SEQ among those with a valid header; equal ones go to copy 0 (log 59). -/
def State.newerCopy (s : State) : Option Nat :=
  let h (c : Nat) : Bool := recHeaderOk (s.copyOf c)
  if h 0 && h 1 then some (if recSeq (s.copyOf 0) < recSeq (s.copyOf 1) then 1 else 0)
  else if h 0 then some 0 else if h 1 then some 1 else none

/-- R398: the copy in force, whether it is a fallback, and its configuration. -/
def State.recSelect (s : State) : Option (Nat × Bool × Cfg) :=
  match s.newerCopy with
  | none => none
  | some c =>
    match s.recCheck (s.copyOf c) with
    | some g => some (c, false, g)
    | none => (s.recCheck (s.copyOf (1 - c))).map (fun g => (1 - c, true, g))

/-- The BASE islands of every die are to wake (R394). -/
def State.wakeBases (s : State) : State :=
  ([.pd 0, .pd 1, .pd 2, .pd 3, .gd 0, .gd 1, .gd 2, .gd 3, .rd] : List Die).foldl (fun s d =>
    s.modIsl (baseIsland d) (fun x => if x.st == .failedShort then x else { x with fwReq := .on })) s

/-- R398, R399, R405: the record check completes: the record in force is copied and applied, or Salvage mode is entered. -/
def execConfigRecordDone (s : State) : Out :=
  let b := s.boot
  let t := match s.recSelect with
    | some (c, fall, g) =>
      let u := { s with
        cfg := g
        boot := { b with
          recValid := true, recCopy := c == 1, recFallback := fall
          phase := if b.salvage = 0 ∧ b.fuses.lc ≠ LcBase.scrapped then .wait else .salvage } }
      allDies.foldl State.applyRetain (u.store 0x038003000000 ((s.copyOf c).take (recLen (s.copyOf c))))
    | none =>
      { s with
        cfg := {}
        boot := { b with
          recValid := false, recFallback := false, phase := .salvage
          salvage := if b.salvage = 0 then 4 else b.salvage } }
  onlyIf (b.rom && b.phase == .record) s t.wakeBases

/-! ### What the image applies (R397) -/

/-- A run of registers filled from the bytes of an item, n bytes each; reserved bits stay 0 (R8). -/
def State.fillRegs (s : State) (base count n : Nat) (b : List Byte) (off : Nat) : State :=
  (List.range count).foldl (fun s k =>
    let r := (regRow (base + 4 * k)).getD { base := base }
    s.setReg (base + 4 * k) (fieldAt b (off + n * k) n &&& r.rw)) s

/-- R397: items FABRIC, TIME and HIST. -/
def State.applyItems (s : State) : State :=
  let f := s.cfg.fabric
  let b (k n : Nat) : Nat := fieldAt f k n
  let t := if f = [] then s
    else
      let u := (s.setRegB zlBlock 15 0 (b 0 1 + b 1 1 * 2 ^ 8)).setReg lkBlock
        (withBits (s.regN lkBlock) 15 0 (b 3 1 + b 4 1 * 2 ^ 8) % 2 ^ 31 + b 2 1 % 2 * 2 ^ 31)
      let u := (List.range 36).foldl (fun s z =>
        s.setReg (linkReg z 0) (b2n (bitOf (b 8 5) z) + 2 * b2n (bitOf (b 13 5) z))) u
      (u.fillRegs (zlBlock + 0x400) 256 1 f 20).fillRegs (lkBlock + 0x400) 256 1 f 276
  let m := s.cfg.time
  let t := if m = [] then t
    else (((((t.setReg (tdBlock + 0x008) (fieldAt m 0 4 &&& 0x13F07)).setReg (tdBlock + 0x00C) (fieldAt m 4 4)).fillRegs
      (tdBlock + 0x400) 32 4 m 8).fillRegs (tdBlock + 0x480) 32 4 m 136).fillRegs (tdBlock + 0x500) 36 4 m 264)
  match s.cfg.hist with
  | [x, y] =>
    (((t.setReg (fhBlock + 0x30044) (x % 2 ^ 32)).setReg (fhBlock + 0x30048) (x / 2 ^ 32)).setReg (zlBlock + 0x30104)
      (y % 2 ^ 32)).setReg (zlBlock + 0x30108) (y / 2 ^ 32)
  | _ => t

end Sys2Proof.Machine
end

