-- ==== Sys2Proof/Machine/BootRom.lean ====
section
/-! DEFINITION.  Chapter 18: resets, the boot ROM, the download and Salvage mode. -/

namespace Sys2Proof.Machine

/-! ### Resets (R392, R393) -/

/-- R396, R406: the checked record of the download area, with the copy slot it goes to: the slot that is not valid or
that holds the lower valid SEQ, copy 0 where neither is valid; none where a check fails or SEQ does not exceed that of the
other valid copy (log 62). -/
def State.recordTarget (s : State) : Option (Nat × List Byte) :=
  let r := s.load 0x038004000000 (s.regN (btBlock + 0x00C))
  let ok (c : Nat) : Bool := (s.recCheck (s.copyOf c)).isSome
  let seq (c : Nat) : Nat := recSeq (s.copyOf c)
  let slot := if ok 0 ∧ (ok 1 = false ∨ seq 1 < seq 0) then 1 else 0
  let other := 1 - slot
  if (s.recCheck r).isNone ∨ (ok other ∧ recSeq r ≤ seq other) then none else some (slot, r.take (recLen r))

/-- The bytes of a copy slot whose programming did not complete: they are free (log 6). -/
def State.spoilCopy (s : State) (c n : Nat) : State :=
  ({ s with boot := { s.boot with flash := lmod s.boot.flash c (fun _ => freeBytes s.free n) } }).drew n

/-- R406: programming a copy is cut short. -/
def State.cutRecord (s : State) : State :=
  match s.boot.busy, s.recordTarget with
  | some 1, some (c, r) => s.spoilCopy c r.length
  | _, _ => s

/-- R392, R420, R425, R437: the registers a module reset keeps: BT_TAMPER, and on a warm one TD_RATE, BT_FATAL and the RETIRE
causes of PW_MRG_STAT. -/
def State.keptRegs (s : State) (cold : Bool) : Table Word :=
  let r := State.reset.setReg (btBlock + 0x014) (s.regN (btBlock + 0x014))
  (if cold then r
   else ((r.setReg (tdBlock + 0x040) (s.regN (tdBlock + 0x040))).setReg (btBlock + 0x300) (s.regN (btBlock + 0x300))).setReg
     (pwBlock + 0x200) (s.regB (pwBlock + 0x200) 14 8 * 2 ^ 8)).regs

/-- R112, R416, R417: the Bonded store is wiped to zero with valid check bits, the shadow of HD's Dredge, which lies inside
its boundary, with it, and WIPES increments. -/
def State.wipeBonded (s : State) : State :=
  let t := s.clearMem (fun k => bonded k || (inHd k && s.inShadow k))
  { t with boot := { t.boot with wipes := min 255 (t.boot.wipes + 1) } }

/-- R392, R393: a module reset: everything is as at power-on but what the table of R392 keeps.  A cold reset leaves DEBUG and
wipes the Bonded store with it (R416).  SRAM elsewhere and HBM are unspecified afterwards (log 3). -/
def State.moduleReset (s : State) (cold : Bool) : State :=
  let s := s.cutRecord.bootFailed
  let s := if cold && s.boot.debug then s.wipeBonded else s
  let b := s.boot
  let r := State.reset
  { r with
    clk := { s.clk with running := s.clk.running.filter ClkDomain.always }
    td := if cold then { raw := s.td.raw }
      else { raw := s.td.raw, base := s.td.base, anchor := s.td.anchor, rate := s.td.rate, rates := s.td.rates }
    pw := if cold then r.pw else { r.pw with sl := { boost := s.pw.sl.boost } }
    regs := s.keptRegs cold
    mem := s.mem.filter (fun e => bonded e.1)
    bk := { err := s.bk.err.filter (fun e => bonded e.1) }
    hi := { perstHigh := s.hi.perstHigh }
    host := s.host
    free := s.free
    pending := s.pending
    boot := {
      fuses := b.fuses, flash := b.flash, wear := b.wear, rev := b.rev, powered := b.powered
      warm := !cold
      fails := b.fails
      salvageReq := !cold && b.salvageReq
      epoch := (b.epoch + 1) % 2 ^ 32
      debug := !cold && b.debug
      wipes := b.wipes
      lidOpen := b.lidOpen } }

/-- R392: BT_RESET with KIND 0, written by the PF. -/
def execBtResetWarm (m : Agent) (s : State) : Out := onlyIf (s.isPf m) s (s.moduleReset false)

/-- R392: BT_RESET with KIND 1. -/
def execBtResetCold (m : Agent) (s : State) : Out := onlyIf (s.isPf m) s (s.moduleReset true)

/-- R392, R413: what power-on keeps: fuses and flash; the outside world stays as it is. -/
def State.powerOn (s : State) : State :=
  let s := s.cutRecord
  let b := s.boot
  { State.reset with
    hi := { perstHigh := s.hi.perstHigh }
    host := s.host
    free := s.free
    pending := s.pending
    boot := { fuses := b.fuses, flash := b.flash, wear := b.wear, rev := b.rev, lidOpen := b.lidOpen } }

/-- R392, R394: the 48 V input becomes valid. -/
def execPowerOn (s : State) : Out := .next s.powerOn

/-- R28, R479: the module without power: all volatile state is lost and no island is ON. -/
def State.powerOff (s : State) : State :=
  let t := s.powerOn
  { t with
    clk := { running := [] }
    pw := { t.pw with isl := t.pw.isl.map (fun x => { x with st := .off }) }
    boot := { t.boot with powered := false } }

/-- R479: the input stays below 36 V for 5 ms. -/
def execInputInvalid (s : State) : Out := .next s.powerOff

/-- R475: the input exceeds 65 V: the module shuts down as on an invalid input. -/
def execInputOvervoltage (s : State) : Out := .next s.powerOff

/-- R476: the input falls below 36 V and the hold-up bus carries the load: nothing else changes. -/
def execInputDip (s : State) : Out := .next s

/-! ### The ROM (R394, R405) -/

/-- R385: boost buckets as a boot restores them from the wear log: the hour in which power was lost counts as full, and a
missing log as 360 s an hour. -/
def Boot.boostFromLog (b : Boot) : List Nat :=
  match b.wear with
  | some l => 0 :: 3600 * 20000 :: l.take 718
  | none => 0 :: List.replicate 719 (360 * 20000)

/-- R30: word W3 of a die's record has LOCKED = 0. -/
def Fuses.blank (f : Fuses) : Bool :=
  (List.range 18).any (fun d => !bitOf (tget 0 f.dieId (4 * d + 3)).toNat 8)

/-- R394, R405, R415: the ROM starts on HD.A0 and samples SALVAGE_N. -/
def execRomStart (strapLow : Bool) (s : State) : Out :=
  let b := s.boot
  let cause := if strapLow then 1 else if b.fails = 3 then 2 else if b.salvageReq then 3 else 0
  let t := if b.warm then s else s.modSluice (fun x => { x with boost := b.boostFromLog })
  onlyIf (s.clk.tideLock && b.powered && !b.rom) s
    { t with boot := { b with rom := true, salvage := cause, salvageReq := false, blankDie := b.fuses.blank } }

/-! ### Images (R400 to R402) -/

/-- R400: an image as its bytes, and the length that BT_ROM_LEN gives. -/
structure ImageText where
  len : Nat
  bytes : List Byte

def ImageText.field (x : ImageText) (a n : Nat) : Nat := fieldAt x.bytes a n
def ImageText.nsect (x : ImageText) : Nat := x.field 20 4

/-- TARGET, offset and length of section k. -/
def ImageText.sect (x : ImageText) (k : Nat) : Nat × Nat × Nat :=
  (x.field (160 + 16 * k) 1, x.field (164 + 16 * k) 4, x.field (168 + 16 * k) 4)

/-- R400: the limit of a section by TARGET; none for a TARGET that is not listed. -/
def sectLimit (target : Nat) : Option Nat :=
  match target with
  | 1 | 2 | 3 | 4 => some 0x60000
  | 5 => some 0x10000
  | 6 => some 0x4000000
  | _ => none

/-- R400, R401: a section entry is well formed and lies in the image and within its limit. -/
def ImageText.sectOk (x : ImageText) (k : Nat) : Bool :=
  let e := x.sect k
  x.field (161 + 16 * k) 3 == 0 && x.field (172 + 16 * k) 4 == 0 && decide (512 ≤ e.2.1) && e.2.1 % 64 == 0 &&
  decide (e.2.1 + e.2.2 ≤ x.field 8 4) &&
  match sectLimit e.1 with
  | some n => decide (e.2.2 ≤ n)
  | none => false

/-- R401: the checks of code 1; SEC_VER and TARGET outside their ranges count among them (log 61). -/
def ImageText.headerOk (x : ImageText) : Bool :=
  x.field 0 4 == 0x46554B4D && x.field 4 2 == 1 && decide (x.field 7 1 < 2) && decide (x.field 12 1 ≤ 64) &&
  decide (x.field 15 1 < 16) && !bitOf (x.field 15 1) (x.field 6 1) && x.field 28 36 == 0 &&
  decide (1 ≤ x.nsect) && decide (x.nsect ≤ 16) && (List.range x.nsect).all x.sectOk

/-- R401: the code of the first check that fails, or 0. -/
def State.imageCheck (s : State) (x : ImageText) : Nat :=
  let b := s.boot
  let pub := (x.bytes.drop 64).take 96
  if !x.headerOk then 1
  else if x.len < 512 ∨ 0x4000000 < x.len ∨ x.len ≠ x.field 8 4 then 2
  else if !keyOk b.fuses.key b.fuses.keyRev (x.field 6 1) pub then 3
  else if !Config.ecdsaOk pub (Config.sha384 (x.bytes.take 416 ++ x.bytes.drop 512)) ((x.bytes.drop 416).take 96) then 4
  else if x.field 12 1 < b.fuses.sv then 5
  else if b.rev < x.field 13 1 ∨ x.field 14 1 < b.rev then 6
  else if (bitOf (x.field 7 1) 0 ∧ b.debug = false) ∨ b.fuses.lc = LcBase.scrapped then 7
  else 0

/-- The image that the text and its DATA sections define. -/
def ImageText.image (x : ImageText) (info : ImageInfo) : Image := {
  digest := Config.sha3 x.bytes
  secVer := x.field 12 1
  revoke := x.field 15 1
  hover := x.field 24 2
  sects := (List.range x.nsect).map (fun k => let e := x.sect k; (e.1, (x.bytes.drop e.2.1).take e.2.2))
  rtn := info.rtn.map (fun r => (r.1.val, r.2.1.toNat, r.2.2.toNat))
  nrx := info.nrx.map (·.val) }

/-- The image of BT_ROM_LEN bytes that stands at an address. -/
def State.imageAt (s : State) (a : Nat) : ImageText :=
  let n := s.regN (btBlock + 0x00C)
  { len := n, bytes := s.load a (min n 0x4000000) }

/-- The half of the image data area that a bank uses (R399). -/
def imageHalf (bankB : Bool) : Nat := if bankB then 0x4000000 else 0

/-- R400: DATA sections go into a half of the image data area, one after the other (log 63). -/
def State.loadData (s : State) (x : Image) (bankB : Bool) : State :=
  ((x.sects.filter (fun e => e.1 == 6)).foldl (fun (t : State × Nat) e =>
    (t.1.store t.2 e.2, t.2 + e.2.length)) (s, imageHalf bankB)).1

/-- R401, R407: code goes into one instruction bank of every Dibber whose cluster is ON. -/
def State.loadDibbers (s : State) (x : Image) (bankB : Bool) : State :=
  ((List.range 48).filter (fun c => s.islOn (476 + c / 8))).foldl (fun s c =>
    { s with fh := { s.fh with db := tmod {} s.fh.db c (fun d =>
      if bankB then { d with imemB := x.dibberCode } else { d with imem := x.dibberCode }) } }) s

/-- R401: the sections of the image that starts go into both HD banks and the active instruction banks of every die whose BASE
island is ON. -/
def State.loadDies (s : State) (x : Image) : State :=
  let on := (List.range 9).filter (fun k => s.dieOn (Die.ofIndex k))
  on.foldl (fun s k => s.loadCores (Die.ofIndex k) x s.boot.bank true) ((s.loadHdBank x false).loadHdBank x true)

/-- R407: the sections of a staged image go into the standby HD bank and the standby instruction banks of every die. -/
def State.stageDies (s : State) (x : Image) : State :=
  let on := (List.range 9).filter (fun k => s.dieOn (Die.ofIndex k))
  on.foldl (fun s k => s.loadCores (Die.ofIndex k) x (!s.homeBank) false) (s.loadHdBank x (!s.boot.holderB))

/-- The routine table and the neural receiver packages of an image come into force (R216, R421). -/
def State.useImage (s : State) (x : Image) : State :=
  { s with
    rtn := x.rtn.foldl (fun t r => tset (0, 0) t r.1 r.2) []
    fh := { s.fh with nrxKnown := x.nrx }
    boot := { s.boot with img := x, fwDigest := x.digest } }

/-! ### ROM commands (R401, R405, R406) -/

/-- R401, R419: a write of BT_ROM_CMD with GO reaches the ROM. -/
def State.romCmd (s : State) (m : Agent) : Bool := s.isPf m && s.boot.busy.isNone && s.boot.rom && s.boot.phase != .record

def State.romResult (s : State) (code : Nat) : State := { s with boot := { s.boot with result := code } }

/-- R401, R405: BT_ROM_CMD BOOT. -/
def execRomBoot (m : Agent) (s : State) : Out :=
  let valid := (s.recCheck (s.copyOf 0)).isSome || (s.recCheck (s.copyOf 1)).isSome
  let t := if s.boot.running ∨ (s.boot.phase = .salvage ∧ valid = false) then s.romResult 9
    else { s with boot := { s.boot with busy := some 0, phase := .verify } }
  onlyIf (s.romCmd m) s t

/-- R397, R401, R414: the image starts on bank A. -/
def State.startImage (s : State) (x : Image) : State :=
  let t := ((((s.loadData x s.boot.bank).loadDibbers x s.boot.bank).loadDies x).useImage x).applyItems
  { t with boot := { t.boot with
      bootedSv := x.secVer, bootedRevoke := x.revoke, running := true, phase := .running, bootOk := false, failed := false
      startedAt := s.td.raw, beatAt := s.td.raw } }

/-- R401: the check ends: the image is loaded and started, or RESULT is set and the ROM waits. -/
def execRomBootDone (info : ImageInfo) (s : State) : Out :=
  let x := s.imageAt 0x038004000000
  let code := s.imageCheck x
  let t := { s with boot := { s.boot with
    result := code, busy := none, phase := if s.boot.salvage = 0 ∧ s.boot.fuses.lc ≠ LcBase.scrapped then .wait else .salvage } }
  onlyIf (s.boot.busy == some 0) s (if code = 0 then t.startImage (x.image info) else t)

/-- R406: BT_ROM_CMD RECORD. -/
def execRomRecord (m : Agent) (s : State) : Out :=
  let t := if s.boot.phase = .salvage then { s with boot := { s.boot with busy := some 1 } } else s.romResult 9
  onlyIf (s.romCmd m) s t

/-- R406: RECORD ends: the record was refused, or programmed and read back, or the flash failed. -/
def execRomRecordDone (flashOk : Bool) (s : State) : Out :=
  let t := { s with boot := { s.boot with busy := none } }
  let u := match s.recordTarget with
    | none => t.romResult 10
    | some (c, r) =>
      if flashOk then
        { t.romResult 0 with boot := { (t.romResult 0).boot with flash := lmod s.boot.flash c (fun _ => r) } }
      else (t.spoilCopy c r.length).romResult 11
  onlyIf (s.boot.busy == some 1) s u

/-- R406: BT_ROM_CMD EXIT: a warm reset with BOOT_FAILS cleared. -/
def execRomExit (m : Agent) (s : State) : Out :=
  let t := ({ s with boot := { s.boot with fails := 0 } }).moduleReset false
  onlyIf (s.romCmd m) s (if s.boot.phase = .salvage then t else s.romResult 9)

/-! ### BOOT_OK (R403, R404) -/

/-- R403, R404: BT_CTRL.BOOT_OK, first written: BOOT_FAILS is cleared, FUSE_SV advances, and the image's REVOKE bits are
blown.  Written again it has no effect (R419). -/
def execBootOkWrite (m : Agent) (s : State) : Out :=
  let b := s.boot
  let f := { b.fuses with sv := max b.fuses.sv b.bootedSv, keyRev := b.fuses.keyRev ||| b.bootedRevoke }
  agentIf m (m.isHd && b.running && !b.bootOk) s { s with boot := { b with bootOk := true, fails := 0, fuses := f } }

/-- R405, R420: BT_CTRL.SALVAGE_REQ. -/
def execSalvageReqWrite (m : Agent) (s : State) : Out :=
  agentIf m m.isHd s { s with boot := { s.boot with salvageReq := true } }

/-- R403: WDT seconds have passed since the image started, without BOOT_OK: a warm reset follows. -/
def execBootWatchdog (s : State) : Out :=
  let due := s.boot.startedAt + rawUs (s.cfg.wdt * 1000000)
  let t := s.reachRaw due
  onlyIf (s.boot.running && !s.boot.bootOk && decide (due ≤ t.td.raw)) s (t.moduleReset false)

end Sys2Proof.Machine
end

