-- ==== Sys2Proof/Machine/Determinism.lean ====
section
/-! DEFINITION.  Chapter 16: the mode bit and the provenance rings. -/

namespace Sys2Proof.Machine

/-- R354: a write of HM_DET by the PF; the value MODE already holds does nothing. -/
def execHmDetWrite (m : Agent) (mode : Bool) (s : State) : Out :=
  agentIf m (s.isPf m && mode != s.det.mode) s { s with det := { s.det with mode := mode, pending := true } }

/-- R354: the value has reached every unit: PENDING clears and EPOCH moves on, modulo 2¹⁶.  Until then every unit acts on
the old value (log 55). -/
def execDetPropagated (s : State) : Out :=
  onlyIf s.det.pending s
    { s with det := { s.det with pending := false, active := s.det.mode, epoch := (s.det.epoch + 1) % 2 ^ 16 } }

/-- R366: a write of HM_PROV_CFG[f] by the PF: LOG2SIZE and PASID only while ENABLE is 0, and LOG2SIZE only in its range;
setting ENABLE resets SEQ. -/
def execHmProvCfgWrite (m : Agent) (f : Fin 513) (v : Word) (s : State) : Out :=
  let o := provReg f 8
  let old := s.regN o
  let on := bitOf v.toNat 31
  let l := bitsOf v.toNat 23 20
  let fields := if bitOf old 31 then old % 2 ^ 31
    else bitsOf v.toNat 19 0 + (if 4 ≤ l ∧ l ≤ 12 then l else bitsOf old 23 20) * 2 ^ 20
  let t := s.setReg o (b2n on * 2 ^ 31 + fields)
  agentIf m (s.isPf m) s (if on ∧ bitOf old 31 = false then t.setReg (provReg f 0xC) 0 else t)

end Sys2Proof.Machine
end

