-- ==== Sys2Proof/Machine/Update.lean ====
section
/-! DEFINITION.  Chapter 18: live update, the helm, and the life cycle. -/

namespace Sys2Proof.Machine

/-! ### Staging (R407) -/

def State.setUpd (s : State) (f : Update → Update) : State := { s with boot := { s.boot with upd := f s.boot.upd } }

/-- R407, R419: BT_UPD_CMD STAGE: ignored while STAGING, and refused with STATE where the state does not accept it or no
image runs (log 64). -/
def execUpdStage (m : Agent) (s : State) : Out :=
  let u := s.boot.upd.st
  let ok := s.boot.running && (u == .idle || u == .done || u == .refused || u == .abandoned)
  onlyIf (s.isPf m && u != .staging) s
    (if ok then s.setUpd (fun x => { x with st := .staging }) else s.setUpd (fun x => { x with result := 9 }))

/-- R401, R407: the checks of a staged image: those of a download, and code 8. -/
def State.stageCheck (s : State) (x : ImageText) : Nat :=
  let c := s.imageCheck x
  if c ≠ 0 then c else if s.boot.img.hover < x.field 26 2 then 8 else 0

/-- R407: verification ends. -/
def execUpdStageDone (info : ImageInfo) (s : State) : Out :=
  let x := s.imageAt 0x08000000
  let code := s.stageCheck x
  let img := x.image info
  let t := ((s.loadData img (!s.homeBank)).loadDibbers img (!s.homeBank)).stageDies img
  onlyIf (s.boot.upd.st == .staging && !s.fatal) s
    (if code = 0 then
      { t with boot := { t.boot with stby := some img, upd := { t.boot.upd with st := .staged, result := 0 } } }
     else s.setUpd (fun x => { x with st := .refused, result := code }))

/-- R407: DISCARD returns STAGED to IDLE. -/
def execUpdDiscard (m : Agent) (s : State) : Out :=
  onlyIf (s.isPf m && s.boot.upd.st == .staged) s
    { s with boot := { s.boot with stby := none, upd := { s.boot.upd with st := .idle } } }

/-! ### The switch (R408 to R411, R419) -/

/-- R271: the first subframe boundary at or after t ns. -/
def State.subframeAt (s : State) (t : Int) : Int :=
  let o := gps0 + s.frameOfs
  o + -((-(t - o)) / 10 ^ 6) * 10 ^ 6

/-- BT_UPD_T. -/
def State.updT (s : State) : Nat := s.reg64 (btBlock + 0x038) (btBlock + 0x03C)

/-- R408: S, and whether the time has already passed. -/
def State.updAim (s : State) : State :=
  let late := decide (s.updT < s.T)
  s.setUpd (fun x => { x with s := s.subframeAt (max s.updT s.T : Nat), late := late })

/-- R408: ARM is accepted in STAGED. -/
def execUpdArm (m : Agent) (s : State) : Out :=
  onlyIf (s.isPf m && s.boot.upd.st == .staged) s ((s.setUpd (fun x => { x with st := .armed })).updAim)

/-- R408: DISARM returns ARMED to STAGED before S. -/
def execUpdDisarm (m : Agent) (s : State) : Out :=
  onlyIf (s.isPf m && s.boot.upd.st == .armed && !s.pastNs s.boot.upd.s) s (s.setUpd (fun x => { x with st := .staged }))

/-- R409: at S the handover starts; each Dibber takes its next SLOT interrupt in the new bank. -/
def execUpdSwitch (s : State) : Out :=
  let t := s.reachNs s.boot.upd.s
  onlyIf (s.boot.upd.st == .armed && !s.fatal && t.pastNs s.boot.upd.s) s
    { t with boot := { t.boot with bank := !t.homeBank, upd := { t.boot.upd with st := .handover, back := none } } }

/-- R409: the new bank holds the helm: the update is DONE, its image is the running one, and a management event is
signalled. -/
def State.updDone (s : State) : State :=
  match s.boot.stby with
  | none => s
  | some x =>
    let t := s.useImage x
    State.mgmtEvent { t with boot := { t.boot with
      stby := none, updates := t.boot.updates + 1, upd := { t.boot.upd with st := .done } } }

/-- R410: S + 300 µs has come without GIVE: the update is abandoned, and every unit that switched returns to the old bank at
the next subframe boundary. -/
def execUpdAbandon (s : State) : Out :=
  let due := s.boot.upd.s + 300000
  let t := s.reachNs due
  onlyIf (s.boot.upd.st == .handover && !s.fatal && t.pastNs due) s
    { t with boot := { t.boot with stby := none, upd := { t.boot.upd with st := .abandoned, back := some (t.subframeAt due) } } }

/-! ### The helm (R413, R414) -/

/-- R413: a write of BT_HELM_GIVE: of the current EPOCH by the holder it passes the helm; any other is ignored. -/
def execHelmGive (m : Agent) (epoch : Word) (s : State) : Out :=
  let t := { s with boot := { s.boot with
    holderB := !s.boot.holderB, epoch := (s.boot.epoch + 1) % 2 ^ 32, beatAt := s.td.raw } }
  agentIf m (m.isHd && epoch.toNat == s.boot.epoch) s
    (if s.boot.upd.st = .handover ∧ s.fatal = false then t.updDone else t)

/-- R414: a write of the current EPOCH to BT_HELM_BEAT by the holder. -/
def execHelmBeat (m : Agent) (epoch : Word) (s : State) : Out :=
  agentIf m (m.isHd && epoch.toNat == s.boot.epoch) s { s with boot := { s.boot with beatAt := s.td.raw } }

/-- R414: 100 ms without a beat while an image runs: a fatal error. -/
def execHelmBeatTimeout (s : State) : Out :=
  let due := s.boot.beatAt + rawUs 100000
  let t := s.reachRaw due
  onlyIf (s.boot.running && decide (due ≤ t.td.raw)) s (t.raiseFatal 5 0xFF)

/-! ### Life cycle (R415, R416) -/

/-- R416: the transition that a REQ asks for: the new fused state, and whether DEBUG then holds; none where it is not
permitted. -/
def lcNext (lc : LcBase) (debug : Bool) (req : Nat) : Option (LcBase × Bool) :=
  match lc, debug, req with
  | _, _, 4 => some (.scrapped, false)
  | .manufacture, false, 1 => some (.provisioned, false)
  | .provisioned, false, 2 => some (.deployed, false)
  | .provisioned, false, 3 => some (.provisioned, true)
  | .deployed, false, 3 => some (.deployed, true)
  | .provisioned, true, 1 => some (.provisioned, false)
  | .deployed, true, 2 => some (.deployed, false)
  | _, _, _ => none

/-- R416: a life-cycle change: the Bonded store is wiped and the new state takes effect. -/
def State.lcChange (s : State) (lc : LcBase) (debug : Bool) : State :=
  let t := s.wipeBonded
  { t with boot := { t.boot with debug := debug, fuses := { t.boot.fuses with lc := lc } } }

/-- R416, R420: BT_LC.REQ, written by helm-bank HD cores; 0 has no effect. -/
def execLcRequest (m : Agent) (req : BitVec 4) (s : State) : Out :=
  let t := match lcNext s.boot.fuses.lc s.boot.debug req.toNat with
    | some (lc, d) => s.lcChange lc d
    | none => { s with boot := { s.boot with lcRefused := true } }
  agentIf m (m.isHd && req != 0) s t

/-- R416: BT_LC.EXIT_DEBUG, written by the PF and helm-bank HD cores. -/
def execLcExitDebug (m : Agent) (s : State) : Out :=
  agentIf m (s.hdOrPf m && s.boot.debug) s (s.lcChange s.boot.fuses.lc false)

/-! ### Tamper (R417) -/

/-- R417: sources 0 LID, 1 VOLT, 2 CLOCK and 3 TEMP: the store is wiped, the cause latched, and outside MANUFACTURE a fatal
error raised. -/
def execTamperEvent (src : Fin 4) (s : State) : Out :=
  let t := (s.setReg (btBlock + 0x014) (s.regN (btBlock + 0x014) ||| 2 ^ src.val)).wipeBonded
  let t := { t with boot := { t.boot with lidOpen := t.boot.lidOpen || src == 0 } }
  onlyIf s.boot.powered s
    (if s.boot.fuses.lc = LcBase.manufacture then t else t.raiseFatal 4 (if src = 3 then 9 else 0xFF))

/-- R417: the lid switch closes. -/
def execLidClose (s : State) : Out := onlyIf s.boot.powered s { s with boot := { s.boot with lidOpen := false } }

end Sys2Proof.Machine
end

