-- ==== Sys2Proof/Machine/Service.lean ====
section
/-! DEFINITION.  Chapter 19: margin monitors, adoption of a peer's requests, and the radio standby. -/

namespace Sys2Proof.Machine

/-! ### Monitors (R422, R437) -/

/-- A monitor: droop or slack of a logical die, or the receive power of lane l of link z. -/
def MonitorId.reg : MonitorId → Nat
  | .droop d => pwBlock + 0x210 + 4 * d.val
  | .slack d => pwBlock + 0x240 + 4 * d.val
  | .optical z l => pwBlock + 0x400 + 4 * (4 * z.val + l.val)

/-- R437: NOW and MIN, signed. -/
def State.monNow (s : State) (m : MonitorId) : Int := ofBits 16 (s.regB m.reg 31 16)
def State.monMin (s : State) (m : MonitorId) : Int := ofBits 16 (s.regB m.reg 15 0)

/-- A 16-bit field of a signed number. -/
def bits16 (x : Int) : Nat := (x % 2 ^ 16).toNat

/-- R422: samples of a monitor: the current value and the least one since the last evaluation. -/
def State.sampled (s : State) (m : MonitorId) (now least : Int) : State :=
  s.setReg m.reg (bits16 now * 2 ^ 16 + bits16 (min (s.monMin m) (min now least)))

/-- R422: the lane's optical engine is ON. -/
def State.laneOn (s : State) (z : Fin 36) : Bool := s.islOn (491 + z.val / 6)

/-- R422: one sample: a lane whose engine is not ON reads −40.0 dBm. -/
def State.sample (s : State) (x : MonSample) : State :=
  match x.mon with
  | .optical z _ => if s.laneOn z then s.sampled x.mon x.now.toInt x.least.toInt else s.sampled x.mon (-400) (-400)
  | _ => s.sampled x.mon x.now.toInt x.least.toInt

def allDrops : List MonitorId := (List.finRange 10).map MonitorId.droop
def allSlacks : List MonitorId := (List.finRange 10).map MonitorId.slack

/-- R422: lanes that are evaluated. -/
def State.lanes (s : State) : List (Nat × MonitorId) :=
  ((List.finRange 36).filter s.laneOn).flatMap (fun z => (List.finRange 4).map (fun l => (4 * z.val + l.val, MonitorId.optical z l)))

/-! ### Evaluation (R423) -/

/-- Evaluations in 24 h. -/
def dayEvals : Nat := 86400

/-- A history with a counter's new value: a counter that was cleared starts again from 0. -/
def ErrHist.push (h : ErrHist) (now : Nat) : ErrHist :=
  { last := now, adds := ((if h.last ≤ now then now - h.last else now) :: h.adds).take dayEvals }

def ErrHist.total (h : ErrHist) : Nat := h.adds.sum

/-- R98: BK_ECC_CORR, BK_ECC_UNC and BK_DR_FAIL of die d. -/
def bkCount (d o : Nat) : Nat := bkBlock + 0x10000 * d + o

/-- R423: two uncorrectable errors in one bank within 30 days. -/
def twiceInBank (raw : Nat) (l : List (Nat × Nat)) : Bool :=
  let recent := l.filter (fun e => decide (raw ≤ e.2 + rawUs (30 * 86400 * 1000000)))
  recent.any (fun e => decide (2 ≤ (recent.filter (fun x => x.1 == e.1)).length))

/-- R423: what firmware keeps, with this evaluation. -/
def State.marginNext (s : State) : Margin :=
  let g := s.pw.mg
  { evalT := s.td.raw
    droop := ((allDrops.any (fun m => decide (s.monMin m < 15))) :: g.droop).take dayEvals
    slack := ((allSlacks.any (fun m => decide (s.monMin m < 20))) :: g.slack).take dayEvals
    optical := s.lanes.foldl (fun t e => tset 0 t e.1 (if s.monNow e.2 < -100 then tget 0 g.optical e.1 + 1 else 0)) []
    ce := (List.range 10).foldl (fun t d => tmod {} t d (fun h => h.push (s.regN (bkCount d 0x0100)))) g.ce
    hbm := (List.range 8).foldl (fun t k => tmod {} t k (fun h => h.push (s.regN (pwBlock + 0x280 + 8 * k)))) g.hbm }

/-- R423: the causes that reach WARN, by bit. -/
def State.warns (s : State) : List Bool :=
  let g := s.pw.mg
  let dies := List.range 10
  [ allDrops.any (fun m => decide (s.monMin m < 30)),
    allSlacks.any (fun m => decide (s.monMin m < 40)),
    s.lanes.any (fun e => decide (s.monNow e.2 < -80)),
    g.ce.any (fun (e : Nat × ErrHist) => decide (1000 < e.2.total)),
    dies.any (fun d => decide (0 < s.regN (bkCount d 0x021C))),
    dies.any (fun d => decide (0 < s.regN (bkCount d 0x0104))),
    g.hbm.any (fun (e : Nat × ErrHist) => decide (10000 < e.2.total)) ]

/-- R423: the causes that reach RETIRE, by bit. -/
def State.retires (s : State) : List Bool :=
  let g := s.pw.mg
  let dies := List.range 10
  [ decide (3 ≤ (g.droop.filter id).length),
    decide (3 ≤ (g.slack.filter id).length),
    g.optical.any (fun (e : Nat × Nat) => decide (60 ≤ e.2)),
    g.ce.any (fun (e : Nat × ErrHist) => decide (100000 < e.2.total)),
    dies.any (fun d => decide (64 < s.regN (bkCount d 0x021C)) ||
      decide (4 < (s.bk.failBanks.filter (fun b => b / 16384 == d)).length)),
    twiceInBank s.td.raw s.bk.ueLog,
    (List.range 8).any (fun k => decide (0 < s.regN (pwBlock + 0x284 + 8 * k))) ]

/-- A bit field of a list of flags, bit 0 first. -/
def flagBits : List Bool → Nat
  | [] => 0
  | b :: bs => b2n b + 2 * flagBits bs

def mrgStat : Nat := pwBlock + 0x200

/-- R423: crossed thresholds set their bits; one that sets a bit anew sets HI_ERR_CAUSE.MARGIN (log 66). -/
def State.evaluated (s : State) : State :=
  let s := { s with pw := { s.pw with mg := s.marginNext } }
  let old := s.regN mrgStat
  let new := old ||| (flagBits s.warns + flagBits s.retires * 2 ^ 8)
  if new = old then s else (s.setReg mrgStat new).hiErr 4

/-- R437: HBM errors that the controllers have counted since the last evaluation. -/
def State.hbmErrors (s : State) (h : HbmErr) : State :=
  (s.count (pwBlock + 0x280 + 8 * h.stack.val) h.corr.toNat).count (pwBlock + 0x284 + 8 * h.stack.val) h.unc.toNat

/-- R423: the evaluation of every 1 s, with what the monitors and the HBM controllers recorded since the last; it takes the
clock to its due time (log 17). -/
def execMarginEval (mons : List MonSample) (hbm : List HbmErr) (s : State) : Out :=
  let due := s.pw.mg.evalT + rawUs 1000000
  let t := s.reachRaw due
  onlyIf (s.boot.running && !s.fatal && decide (due ≤ t.td.raw)) s
    (hbm.foldl State.hbmErrors (mons.foldl State.sample t)).evaluated

/-- R437: a write of any value resets a monitor's minimum to its current value. -/
def execMarginMinReset (m : Agent) (r : MonitorId) (s : State) : Out :=
  agentIf m (s.hdOrPf m) s (s.setReg r.reg (s.regB r.reg 31 16 * 65537))

/-! ### Adoption (R426, R427) -/

/-- R427, R438: a write of HM_ADOPT with GO; ignored while BUSY. -/
def execHmAdopt (m : Agent) (v : Word) (s : State) : Out :=
  let n := v.toNat
  let a : Adopt := { src := bitsOf n 23 14, dst := bitsOf n 13 4, slot := bitsOf n 3 0 }
  let ok := (s.slotOf a.slot).st == .ready && decide (1 ≤ a.dst) && decide (a.dst ≤ 512)
  agentIf m (s.isPf m && bitOf n 31 && !s.hm.adopt.busy) s
    { s with hm := { s.hm with adopt := if ok then { a with busy := true } else { a with result := 1 } } }

/-- R426: the region at HM_ADOPT_SRC: a frame tag and a berth frame. -/
def State.adoptBase (s : State) : Nat := s.reg64 (hmBlock + 0x078) (hmBlock + 0x07C)
def State.adoptNfr (s : State) : Nat := s.regN (hmBlock + 0x088)
def State.adoptTag (s : State) (f : Nat) : List Byte := s.load (s.adoptBase + 0x1000000 + 8 * f) 8
def State.adoptFrame (s : State) (f kvb : Nat) : Nat :=
  s.adoptBase + ceilDiv (0x1000000 + 8 * s.adoptNfr) 0x10000 * 0x10000 + f * 64 * kvb

/-- R427: the frames whose tags name a RID: frame, berth number and fill. -/
def State.adoptTags (s : State) (rid : Nat) : List (Nat × Nat × Nat) :=
  ((List.range s.adoptNfr).map (fun f => (f, s.adoptTag f))).filterMap (fun e =>
    if fieldAt e.2 0 3 = rid then some (e.1, fieldAt e.2 3 2, fieldAt e.2 5 1) else none)

/-- R427: the frames of berths 0 to n − 1, where the tags cover CTX. -/
def coverCtx (tags : List (Nat × Nat × Nat)) (ctx : Nat) : Option (List Nat) :=
  let fs := (List.range (ceilDiv ctx 64)).filterMap (fun j => (tags.find? (fun t => t.2.1 == j)).map (·.1))
  if (tags.map (·.2.2)).sum = ctx ∧ fs.length = ceilDiv ctx 64 then some fs else none

/-- R427: the manifest of a record.  What the record does not carry, the parameter block and the context's tokens, is free
(log 65). -/
def State.adoptMan (s : State) (r : List Byte) (gen : Nat) : Manifest :=
  let a := s.hm.adopt
  let f (o n : Nat) : Nat := fieldAt r o n
  let ctx := f 24 4
  { st := .paused, gen := gen, flags := f 0 1 / 16, fn := a.dst, sq := bitsOf (f 2 2) 12 10, cq := bitsOf (f 2 2) 15 13
    slot := a.slot, tag := f 8 4, seed := f 12 8, step := f 32 4, ctx := ctx, endAt := f 28 4, ttl := f 44 4
    expiry := s.T + f 44 4 * 10 ^ 9, stepFirst := f 32 4
    param := freeBytes s.free 128
    toks := (List.range ctx).map (fun k => Config.freeValue (s.free + 128 + k) % 2 ^ 18)
    fw := s.boot.fwDigest, det := s.det.mode && !s.det.pending, epoch := s.det.epoch, updates := s.boot.updates }

/-- One entry of the list at HM_ADOPT_LIST. -/
def State.adoptEntry (s : State) (old new status : Nat) : State :=
  let a := s.hm.adopt
  let t := s.store (s.reg64 (hmBlock + 0x080) (hmBlock + 0x084) + 8 * a.count)
    (leBytes 3 old ++ [0] ++ leBytes 3 new ++ leBytes 1 status)
  { t with hm := { t.hm with adopt := { a with count := a.count + 1, result := if status = 0 then a.result else 2 } } }

/-- Open the berths of an adopted request in COLD_LOCAL frames and copy them; none where the berth table has no room. -/
def State.adoptBerths (s : State) (i : Nat) : List (Nat × Nat) → Option State
  | [] => some s
  | (src, f) :: rest =>
    let r := s.slotOf s.hm.adopt.slot
    let t := s.copyBerth r .coldPeer 0 .coldLocal f (s.load (s.adoptFrame src r.kvb) (64 * r.kvb))
    match t.addBerth i .coldLocal f with
    | (u, true) => u.adoptBerths i rest
    | (_, false) => none

/-- R427: the steps for one record, k its index at the source. -/
def State.adoptOne (s : State) (k : Nat) : State :=
  let a := s.hm.adopt
  let r := s.load (s.adoptBase + 64 * k) 64
  let old := k + fieldAt r 1 1 % 64 * 2 ^ 18
  let free := s.freeFrames a.slot .coldLocal
  if fieldAt r 0 1 % 16 ≠ ManSt.paused.code ∨ fieldAt r 2 2 % 2 ^ 10 ≠ a.src ∨ fieldAt r 32 4 = 0xFFFFFFFF then s
  else
    match s.nextFree, coverCtx (s.adoptTags old) (fieldAt r 24 4) with
    | none, _ => s.adoptEntry old 0 2
    | some _, none => s.adoptEntry old 0 3
    | some i, some fs =>
      if free.length < fs.length then s.adoptEntry old 0 1
      else
        let m := s.adoptMan r (s.manOf i).gen
        match (((s.allocMan).drew (128 + m.ctx)).setMan i m).adoptBerths i (fs.zip free) with
        | none => s.adoptEntry old 0 1
        | some t =>
          let t := (t.setWritten i m.ctx).store (s.adoptBase + 64 * k) (leBytes 1 (fieldAt r 0 1 / 16 * 16 + ManSt.free.code))
          t.adoptEntry old (m.rid i) 0

/-- R427: the adoption ends: every record has been dealt with, in the order of its index. -/
def execHmAdoptDone (s : State) : Out :=
  let t := (List.range 262144).foldl State.adoptOne s
  unlessHalted s .inference (onlyIf (s.hm.adopt.busy && !s.fatal) s
    { t with hm := { t.hm with adopt := { t.hm.adopt with busy := false } } })

/-! ### Radio standby (R429 to R431, R439) -/

def State.stbyOf (s : State) (w : Nat) : Standby := tget {} s.fh.stby w
def State.setStby (s : State) (w : Nat) (x : Standby) : State := { s with fh := { s.fh with stby := tset {} s.fh.stby w x } }

/-- The active plan's cells, without the armed cells of w. -/
def State.otherCells (s : State) (w : Nat) : List Cell :=
  match s.fh.active with
  | some p => p.cells.filter (fun c => !(s.stbyOf w).muted.contains c.cell)
  | none => []

/-- R429: the checks of an ARM: those of R237 without TIME and BUSY, UNITS against the sum of the active and armed plans, and
no cell index in use. -/
def State.armCheck (s : State) (w : Nat) (p : Plan) : Nat :=
  let others := s.otherCells w
  if p.cells.any (fun c => others.any (fun x => x.cell == c.cell)) then 1
  else s.checkCells p.cells (((others ++ p.cells).map Cell.units).sum)

/-- R429, R439: FH_STBY_CMD with GO and OP ARM, written by the PF. -/
def execStbyArm (m : Agent) (v : Word) (s : State) : Out :=
  let n := v.toNat
  let w := bitsOf n 25 24
  let g := bitsOf n 7 0
  let t := match s.readPlan (s.reg64 (fhBlock + 0x004) (fhBlock + 0x008)) with
    | none => s.setStby w { s.stbyOf w with result := 1 }
    | some p =>
      let code := s.armCheck w p
      if code = 0 then
        (s.abortRd.usePlan { tAct := ((s.fh.active.map (·.tAct)).getD 0), cells := s.otherCells w ++ p.cells }).setStby w
          { st := .armed, result := 0, primary := bitsOf n 23 16, grace := if 5 ≤ g ∧ g ≤ 100 then g else 15
            muted := p.cells.map (·.cell), checked := s.T }
      else s.setStby w { s.stbyOf w with result := code }
  agentIf m (s.isPf m && s.dieOn .rd && bitOf n 31 && bitsOf n 27 26 == 0) s t

/-- R439: OP DISARM, not after TAKEN: the armed cells go. -/
def execStbyDisarm (m : Agent) (v : Word) (s : State) : Out :=
  let n := v.toNat
  let w := bitsOf n 25 24
  let t := (s.usePlan { tAct := ((s.fh.active.map (·.tAct)).getD 0), cells := s.otherCells w }).setStby w
    { s.stbyOf w with st := .idle, muted := [] }
  agentIf m (s.isPf m && s.dieOn .rd && bitOf n 31 && bitsOf n 27 26 == 1 && (s.stbyOf w).st == .armed) s t

/-- R271: t ns is a slot boundary of numerology 1. -/
def State.isHalfMs (s : State) (t : Nat) : Bool := ((t : Int) - gps0 - s.frameOfs) % 500000 == 0

def hbDst : Nat := fhBlock + 0x070

/-- R430: the 80 bytes of a heartbeat. -/
def State.heartbeat (s : State) (tm : Nat) : List Byte :=
  let serve := (s.runCells.filter (fun c => !s.muted c.cell)).map (·.cell)
  leBytes 8 tm ++ leBytes 4 s.fh.hbSeq ++ leBytes 4 0 ++
  (List.range 64).map (fun k => BitVec.ofNat 8 (flagBits ((List.range 8).map (fun b => serve.contains (8 * k + b)))))

/-- R430: at slot boundary t the primary sends its heartbeat, as RD.P0 under job ZL_VFJOB[0]; the sequence number counts
modulo 2³². -/
def execHeartbeatSend (t : BitVec 64) (s : State) : Out :=
  let u := s.reachNs t.toNat
  let msg : ZlMsg :=
    { typ := 3, cls := 0, dst := u.regB hbDst 7 0
      qaddr := u.regN (fhBlock + 0x074) + u.regB (fhBlock + 0x078) 15 0 * 2 ^ 32, len := 80, data := u.heartbeat t.toNat }
  let v := { u with fh := { u.fh with hbSeq := (u.fh.hbSeq + 1) % 2 ^ 32, hbSent := t.toNat } }
  unlessHalted s .radio
    (onlyIf (s.regBit hbDst 31 && s.dieOn .rd && s.zlOn && s.isHalfMs t.toNat && decide (s.fh.hbSent < t.toNat) && u.pastNs t.toNat) s
      (v.zlHold (.req (.fw 24 0) msg [])))

/-- R459: the landing slot of watched primary w. -/
def landing (w : Nat) : Nat := 0x03800E230000 + 128 * w

/-- R431: the heartbeat that has landed carries T_m, and its SERVE bit of the cell. -/
def State.covered (s : State) (w tm cell : Nat) : Bool :=
  s.loadNat (landing w) 8 == tm && bitOf (s.loadNat (landing w + 16 + cell / 8) 1) (cell % 8)

/-- R431: at T_m + GRACE, T_m = t, the standby takes over every armed cell of primary w that is not covered. -/
def execStandbyCheck (w : Fin 4) (t : BitVec 64) (s : State) : Out :=
  let x := s.stbyOf w
  let due : Int := t.toNat + x.grace * 1000
  let u := s.reachNs due
  let left := x.muted.filter (fun c => u.covered w t.toNat c)
  let v := u.setStby w { x with muted := left, checked := t.toNat, st := if left = [] then .taken else .armed }
  let v := { v with fh := { v.fh with taken :=
    (x.muted.filter (fun c => !left.contains c)).foldl (fun m c => tset 0 m c (u.T : Int)) v.fh.taken } }
  unlessHalted s .radio
    (onlyIf (x.st == .armed && s.dieOn .rd && !s.fatal && s.isHalfMs t.toNat && decide (x.checked < t.toNat) && u.pastNs due) s
      (if left = [] then v.mgmtEvent else v))

end Sys2Proof.Machine
end

