-- ==== Sys2Proof/Machine/Observe.lean ====
section
/-! DEFINITION.  Chapter 20: samples, the trace ring's registers, and the global stop. -/

namespace Sys2Proof.Machine

/-! ### The trace ring (R443, R446, R455) -/

/-- R446: a write of HM_TRC_RD by the PF. -/
def execHmTrcRdWrite (m : Agent) (v : Word) (s : State) : Out := agentIf m (s.isPf m) s (s.setReg (hmBlock + 0x6014) v.toNat)

/-- R455: a write of HM_TRC_CFG by the PF; setting TRC_EN or SMP_EN from 0 zeroes WR and RD. -/
def execHmTrcCfgWrite (m : Agent) (v : Word) (s : State) : Out :=
  let rises (b : Nat) : Bool := bitOf v.toNat b && !s.regBit trcCfg b
  let t := s.setReg trcCfg (v.toNat &&& 0xFFFFC07F)
  let u := t.setReg (hmBlock + 0x6014) 0
  agentIf m (s.isPf m) s
    (if rises 31 || rises 30 then { u with obs := { u.obs with wr := 0, lost := 0, sampleT := s.td.raw, sampleIx := 0 } } else t)

/-- R443: what a sequencer does: PC, stall code, LAYER, OP and function. -/
structure Doing where
  pc : Nat := 0
  stall : Nat
  layer : Nat := 0xFFFF
  op : Nat := 0xFFFF
  fn : Nat := 0x3FF

/-- The function that holds an array, by its context. -/
def State.arrayFn (s : State) (g : Nat) : Nat :=
  ((s.sh.ctx.find? (fun e => e.2.arrays.contains g)).map (·.2.vf)).getD 0x3FF

/-- R443: array g's sequencer. -/
def State.esDoing (s : State) (g : Nat) : Doing :=
  let e := s.esOf g
  if !s.islOn (arrayIsland g) then { stall := 6 }
  else match e.halt, e.runs with
    | .error, _ => { stall := 5 }
    | .none, r :: rs =>
      { pc := r.pass.seq, stall := if (r :: rs).any (·.waiting) then 2 else 0, layer := r.pass.layer, op := r.pass.op, fn := s.arrayFn g }
    | .none, [] => { stall := if e.swapping then 1 else if s.esEnable g && !s.esStop g then 3 else 4 }
    | _, _ => { stall := 4 }

/-- R443: GDn's Drip sequencer. -/
def State.dlDoing (s : State) (n : Nat) : Doing :=
  let e := s.dlOf n
  if !s.islOn (baseIsland (Die.ofIndex (4 + n))) then { stall := 6 }
  else match e.halt, e.run with
    | .error, _ => { stall := 5 }
    | .none, some (j, _) => { pc := j.seq, stall := 0, layer := j.layer, op := j.op }
    | .none, none => { stall := if s.regBit (dlBlock + 0x1000 * n) 0 && !s.regBit (dlBlock + 0x1000 * n) 2 then 3 else 4 }
    | _, _ => { stall := 4 }

/-- R455: the selected units, by bit of HM_SMP_SEL. -/
def State.sampledUnits (s : State) : List Nat :=
  (List.range 132).filter (fun b => s.regBit (hmBlock + 0x6020 + 4 * (b / 32)) (b % 32))

/-- R97: the master identifier of a unit of HM_SMP_SEL. -/
def sampleMaster (b : Nat) : Nat := if b < 84 then b else if b < 88 then 0x060 + (b - 84) else 0x080 + (b - 88)

/-- R451: a stop holds the unit. -/
def State.sampleHalted (s : State) (b : Nat) : Bool :=
  if b < 84 then s.halted (arrayUnit b)
  else if b < 112 then s.halted .inference
  else if b < 116 then s.halted .radio
  else false

/-- R443, R444: the selected unit whose turn it is is sampled, INTERVAL divided by the number of units after the last sample; a
unit that a stop holds gives no record (R454).  What a Pilot core
does is an operand, since its program is not the device's (log 17). -/
def execObsSample (u : Fin 132) (pc : BitVec 18) (stall : Fin 9) (layer op : BitVec 16) (fn : BitVec 10) (s : State) : Out :=
  let n := s.sampledUnits.length
  let due := s.obs.sampleT + ceilDiv (max 10 (s.regB (hmBlock + 0x6000) 31 16) * 98304) (100 * n)
  let t := s.reachRaw due
  let x : Doing := if u.val < 84 then t.esDoing u.val
    else if u.val < 88 then t.dlDoing (u.val - 84)
    else { pc := pc.toNat, stall := stall.val, layer := layer.toNat, op := op.toNat, fn := fn.toNat }
  let v := t.traceWrite (t.traceRec 0x20 (sampleMaster u.val) x.layer x.op x.fn (x.pc + x.stall * 2 ^ 18))
  onlyIf (s.regBit trcCfg 30 && s.sampledUnits[s.obs.sampleIx % n]? == some u.val && decide (due ≤ t.td.raw)) s
    { (if s.sampleHalted u.val then t else v) with obs := {
      (if s.sampleHalted u.val then t else v).obs with sampleT := t.td.raw, sampleIx := s.obs.sampleIx + 1 } }

/-! ### The global stop (R450 to R454, R456) -/

/-- R456: the capture buffer lies in HBM or in HD SRAM outside the Bonded store. -/
def State.gsBufferOk (s : State) : Bool :=
  let a := s.reg64 (tdBlock + 0x100C) (tdBlock + 0x1010)
  let n := s.regB (tdBlock + 0x1014) 15 0 * 2 ^ 20
  decide (a + n ≤ 0x006000000000) || (decide (0x038000000000 ≤ a) && decide (a + n ≤ bondedLo))

/-- TD_GS_T. -/
def State.gsT (s : State) : Nat := s.reg64 (tdBlock + 0x1004) (tdBlock + 0x1008)

/-- R451: with INFERENCE the booked prompt-die arrays stop, and their bookings become LATE under R199. -/
def State.lateBookings (s : State) : State :=
  (s.tt.entries.filter (fun (e : Nat × TtEntry) => e.2.st == .ready || e.2.st == .active)).foldl (fun s e =>
    ((s.setTt (e.1 / 64) (e.1 % 64) { e.2 with st := .late, taken := [] }).count (ttBlock + 0x014) 1).ttIrq e.2) s

/-- R444: a record of the stop's firing or release. -/
def State.traceStop (s : State) (release inf : Bool) : State :=
  s.trace 0x30 0x121 0xFFFF 0xFFFF 0x3FF (b2n release + 2 * b2n inf)

/-- R450, R451: the stop fires: every unit of the variant halts in one raw tick. -/
def State.gsFire (s : State) (late : Bool) : State :=
  let inf := s.regBit gsCtrl 1
  let t := s.setReg gsCtrl ((s.regN gsCtrl &&& 0xA2) ||| (b2n late * 32))
  let t := if inf then t.lateBookings else t
  ({ t with obs := { t.obs with
    stopped := true, inference := inf, captured := false, since := t.td.raw, captures := [], used := 0, dropped := 0 } }).traceStop false inf

/-- R450, R454: armed, and free to fire: firing waits for the end of a live-update handover. -/
def State.gsMayFire (s : State) : Bool := s.regBit gsCtrl 0 && s.boot.upd.st != .handover

/-- R450: TD_GS_T lies before the raw count now. -/
def State.gsPassed (s : State) : Bool :=
  s.pastNs s.gsT && decide (s.rawOf ((s.gsT * 2 ^ 16 : Nat) : Int) < s.td.raw)

/-- R450, R456: a write of TD_GS_CTRL with ARM = 1 and a VARIANT, which also clears the W1C bits it names; ignored while armed
or stopped, and where the buffer is misplaced.  A time already passed fires at once and late. -/
def execGsArm (m : Agent) (v : Word) (s : State) : Out :=
  let n := v.toNat
  let t := s.setReg gsCtrl ((s.regN gsCtrl &&& (0xA0 - (n &&& 0xA0))) ||| (n &&& 3))
  agentIf m (s.tdWriter m && bitOf n 0 && !s.regBit gsCtrl 0 && !s.obs.stopped && s.gsBufferOk && !s.fatal) s
    (if t.gsPassed ∧ t.gsMayFire = true then t.gsFire true else t)

/-- R450: corrected time reaches TD_GS_T. -/
def execGsFire (s : State) : Out :=
  let t := s.reachNs s.gsT
  onlyIf (s.gsMayFire && !s.fatal && t.pastNs s.gsT) s (t.gsFire s.gsPassed)

/-- R452: both capture windows have closed: the ring's after 2 µs, and Zelic's after 40 µs. -/
def execGsCaptureClose (s : State) : Out :=
  let due := s.obs.since + rawUs 40
  let t := s.reachRaw due
  onlyIf (s.obs.stopped && !s.obs.captured && decide (due ≤ t.td.raw)) s { t with obs := { t.obs with captured := true } }

/-- R453: one captured transfer or message is delivered. -/
def State.deliverCapture (s : State) (c : Capture) : State :=
  match c with
  | .ring t => s.ringArrive t
  | .zelic via m => s.zlDeliver via m []

/-- R453: the captures are delivered in order, then every halted unit resumes; the time stopped is excluded from the times of
R305, R307, R308, R403 and R414. -/
def State.gsRelease (s : State) : State :=
  let d := s.td.raw - s.obs.since
  let cs := s.obs.captures
  let t := { s with
    obs := { s.obs with stopped := false, captures := [] }
    zl := s.zl.shift d
    boot := { s.boot with beatAt := s.boot.beatAt + d, startedAt := s.boot.startedAt + d } }
  (cs.foldl State.deliverCapture t).traceStop true s.obs.inference

/-- R453, R456: a write of TD_GS_CTRL with RELEASE = 1; ignored unless STOPPED. -/
def execGsRelease (m : Agent) (s : State) : Out := agentIf m (s.tdWriter m && s.obs.stopped) s s.gsRelease

end Sys2Proof.Machine
end

