-- ==== Sys2Proof/Machine/TideStep.lean ====
section
/-! DEFINITION.  Chapter 12: an adjustment of corrected time applies at its tick, and every consumer of T meets the step
that it may bring (R268, R269). -/

namespace Sys2Proof.Machine

/-- R269: a negative STEP, or a SET to a value below C_old, is a backward step. -/
def TdAdj.backward (a : TdAdj) (cOld : Nat) : Bool :=
  (a.op == 1 && decide (2 ^ 95 ≤ a.v)) || (a.op == 2 && decide (a.v < cOld))

/-- R268: the new BASE. -/
def TdAdj.newBase (a : TdAdj) (cOld : Nat) : Nat :=
  if a.op = 0 then cOld else if a.op = 1 then (cOld + a.v) % 2 ^ 96 else a.v

/-- R268: BASE, ANCHOR and RATE change together at the tick. -/
def State.applyAdj (s : State) (a : TdAdj) : State :=
  { s with td := { s.td with
    base := a.newBase (s.cAt (64 * a.at_)), anchor := a.at_, rate := a.rate, adj := none
    rates := (a.at_, a.rate) :: s.td.rates } }

/-- R269: a backward step is counted, and sets TD_STATUS.BACK. -/
def State.countBack (s : State) : State :=
  (s.count (tdBlock + 0x060) 1).setReg (tdBlock + 0x004) (s.regN (tdBlock + 0x004) ||| 2)

/-- R280: strobe i after a forward step: it fires once at once for the latest target passed, and the other skipped targets
count. -/
def State.stbStep (s : State) (i : Nat) : State :=
  let k := tget 0 s.td.stb i
  let p := s.stbPassed i
  if s.stbMode i ≠ 0 ∧ k < p then ((s.setStb i p).strobe i).count (tdBlock + 0x064) (p - k - 1).toNat else s

/-- R281: PPS_OUT j after a forward step: one pulse at once, and what it skips is not counted. -/
def State.ppsStep (s : State) (j : Nat) : State :=
  let p := (s.ppsTargets j).upTo s.fineNow
  if s.ppsMode j ≠ 0 ∧ tget 0 s.td.pps j < p then (s.setPps j p).pulse j else s

/-- R283: a barrier that a forward step passes fires at once and late; old is C before the step. -/
def State.barStep (s : State) (old : Nat) : State :=
  if s.regBit barCtrl 0 = true ∧ (old : Int) < s.barC ∧ s.barC < s.now then s.barFire true else s

/-- R202: the overdue stops of PDn are issued at once. -/
def State.overdueStops (s : State) (n : Nat) : State :=
  ((saveStarts (s.saveQueue n)).1.filter (fun (q : Int × Nat) => s.pastNs q.1)).foldl (fun s q => s.ttStop n q.2) s

/-- R450: a stop whose time a forward step passes fires at once and late. -/
def State.gsStep (s : State) (old : Nat) : State :=
  if old < s.gsT * 2 ^ 16 ∧ s.gsMayFire = true ∧ s.fatal = false ∧ s.gsPassed = true then s.gsFire true else s

/-- R419: a step while a live update is ARMED: S follows from the new time; a forward step changes it only where it passes
BT_UPD_T. -/
def State.updStep (s : State) (old : Nat) (back : Bool) : State :=
  if s.boot.upd.st = .armed ∧ (back = true ∨ (tOf old ≤ s.updT ∧ s.updT < s.T)) then s.updAim else s

/-- What a forward step brings about at once: strobes and pulses (R280, R281), the barrier (R283), overdue stops (R202), late
frames (R324), a live update (R419) and a global stop (R450), each unless its unit is halted. -/
def State.stepForward (s : State) (old : Nat) : State :=
  let t := (List.range 64).foldl State.stbStep s
  let t := (List.range 2).foldl State.ppsStep t
  let t := t.barStep old
  let t := if t.halted .inference then t else (List.range 4).foldl State.overdueStops t
  let t := if t.halted .radio then t else t.dropAllLate
  (t.updStep old false).gsStep old

/-- R268, R269: the counter stands at tick a of the staged adjustment, which sets BASE, ANCHOR and RATE and counts a backward
step.  Array time is charged up to the step and from it on (R185). -/
def State.adjNow (s : State) (a : TdAdj) : State :=
  let u := s.settle
  let old := u.now
  let back := a.backward (u.cAt (64 * a.at_))
  let t := u.applyAdj a
  let t := { t with sh := { t.sh with acctT := t.T } }
  if back then t.countBack.updStep old true
  else if old < t.now ∧ a.op ≠ 0 then t.stepForward old else t

/-- R268: the counter reaches tick a, and the staged adjustment applies. -/
def execTdAdjApply (s : State) : Out :=
  match s.td.adj with
  | none => .next s
  | some a =>
    let t := if s.clk.tideLock then { s with td := { s.td with raw := max s.td.raw a.at_ } } else s
    onlyIf (decide (a.at_ ≤ t.td.raw)) s (t.adjNow a)

/-- R264, R268: one TIDE cycle; an adjustment whose tick it reaches applies. -/
def State.idle (s : State) : State :=
  let t := s.tick
  match t.td.adj with
  | some a => if a.at_ ≤ t.td.raw then t.adjNow a else t
  | none => t

end Sys2Proof.Machine
end

