-- ==== Sys2Proof/Machine/Flags.lean ====
section
/-! DEFINITION.  What every register reads as: the status words, counts and flags that follow from the state, beside the
registers that hold a value (R8, R461, R462).  A write-only register reads 0. -/

namespace Sys2Proof.Machine

/-! ### Espalier, Drip and banks (R70, R75, R86, R98) -/

/-- R70: ES_STATUS.STATE.  A pass that awaits operand data makes it WAIT, also while an older pass presents its rows.
During the 32 cycles of a swap it reads WAIT, and PFIFO_LVL counts the swapping pass until it starts: the spec names no
state for them (DESIGN CHOICE, log 141). -/
def State.esStateCode (s : State) (g : Nat) : Nat :=
  let e := s.esOf g
  if !s.islOn (arrayIsland g) then 5
  else match e.halt, e.runs with
    | .error, _ => 4
    | .none, r :: rs => if (r :: rs).any (·.waiting) then 2 else 1
    | .none, [] =>
      if s.esStop g then 3
      else if s.esGoes g && (match e.pfifo with
        | p :: _ => p.wAction == 1
        | [] => false) then 2 else 0
    | _, _ => 3

/-- R70: ES_STATUS. -/
def State.esStatus (s : State) (g : Nat) : Nat :=
  let e := s.esOf g
  e.errCode * 2 ^ 16 + e.pfifo.length * 2 ^ 8 + e.sfifo.length * 2 ^ 6 + b2n e.shadow.isSome * 2 ^ 5 +
    b2n e.active.isSome * 2 ^ 4 + s.esStateCode g

/-- The registers of array g's page that are views: ES_STATUS, ES_SEQ, ES_ERR and the counters, whose HI halves are
latched. -/
def State.esView (s : State) (g o : Nat) : Option Nat :=
  let e := s.esOf g
  if o = 0x004 then some (s.esStatus g)
  else if o = 0x008 then some (e.done * 2 ^ 16 + e.pushed)
  else if o = 0x00C then some (e.errRow * 2 ^ 16 + e.errSeq)
  else if 0x100 ≤ o ∧ o < 0x120 then
    let c := (o - 0x100) / 8
    some (if o % 8 = 0 then e.counter c % 2 ^ 32 else e.latch.getD c 0)
  else if o = 0x024 ∨ o = 0x06C then some 0
  else none

/-- R86: DL_STATUS.STATE. -/
def State.dlStateCode (s : State) (n : Fin 4) : Nat :=
  let e := s.dlOf n
  match e.halt, e.run with
  | .error, _ => 4
  | .none, some _ => 1
  | .none, none =>
    if s.regBit (dlReg n 0) 2 then 3
    else if s.dlGoes n && !e.jfifo.isEmpty && e.loaded.isNone then 2 else 0
  | _, _ => 3

/-- The registers of GDn's Drip page that are views. -/
def State.dlView (s : State) (n : Fin 4) (o : Nat) : Option Nat :=
  let e := s.dlOf n
  if o = 0x004 then some (e.errCode * 2 ^ 16 + e.jfifo.length * 2 ^ 4 + s.dlStateCode n)
  else if o = 0x008 then some (e.done * 2 ^ 16 + e.pushed)
  else if o = 0x00C then some (e.errGroup * 2 ^ 16 + e.errSeq)
  else if o = 0x100 then some (e.cntBusy % 2 ^ 32)
  else if o = 0x104 then some (e.latch.getD 0 0)
  else if o = 0x108 then some (e.cntWait % 2 ^ 32)
  else if o = 0x10C then some (e.latch.getD 1 0)
  else if o = 0x038 then some 0
  else none

/-- The registers of die d's bank page that are views: BK_STATUS.DR_ACTIVE and BK_DR_CURSOR. -/
def State.bkView (s : State) (d o : Nat) : Option Nat :=
  let x := s.dredgeOf (Die.ofIndex d)
  if o = 0x0004 then some (s.regN (bkBlock + 0x10000 * d + o) &&& 0x6 ||| b2n (x.phase != .idle))
  else if o = 0x0208 then some (x.bank * 2 ^ 6 + x.region)
  else none

/-! ### The host interface and Customs (R335, R352, R353) -/

/-- R352: HI_STATUS.FW_STATE. -/
def State.fwState (s : State) : Nat :=
  if s.fatal then 3 else if s.boot.running then 1 else if s.boot.phase = .salvage then 2 else 0

/-- R352: HI_LINK. -/
def State.hiLink (s : State) : Nat :=
  min 0xFFFF s.hi.retrains * 2 ^ 16 + b2n s.hi.degraded * 2 ^ 8 + b2n s.hi.flit * 2 ^ 7 + (if s.hi.linkUp then s.hi.width else 0)

/-- R352: SQ_STAT and CQ_STAT of the queue page of function f. -/
def State.queueView (s : State) (f o : Nat) : Option Nat :=
  let i := o % 0x100 / 0x20
  if o % 0x200 < 0x100 ∧ o % 0x20 = 0x14 then
    let q := s.sqOf f i
    some (q.head % 2 ^ 16 * 2 ^ 16 + q.fault)
  else if 0x100 ≤ o % 0x200 ∧ o % 0x20 = 0x18 then
    let q := s.cqOf f i
    some (q.tail % 2 ^ 16 * 2 ^ 16 + q.fault)
  else none

/-- The registers of the HI block that are views. -/
def State.hiView (s : State) (o : Nat) : Option Nat :=
  if o = 0x000 then some s.fwState
  else if o = 0x004 then some s.hiLink
  else if 0x2000 ≤ o ∧ o < 0x2040 then
    some ((if o % 8 = 0 then (s.sqOf 0 ((o - 0x2000) / 8)).tail else (s.cqOf 0 ((o - 0x2000) / 8)).head) % 2 ^ 16)
  else if 0x100000 ≤ o ∧ o < 0x100000 + 0x200 * 513 then s.queueView ((o - 0x100000) / 0x200) (o % 0x200)
  else none

/-- R335: VF_STATUS of VF v. -/
def State.vfStatus (s : State) (v : Nat) : Nat :=
  let faults (f : Nat → Nat) : Nat := ((List.range 8).map (fun i => b2n (f i != 0) * 2 ^ i)).sum
  b2n s.fatal + b2n s.boot.running * 2 + v * 2 ^ 2 + faults (fun i => (s.sqOf v i).fault) * 2 ^ 16 +
    faults (fun i => (s.cqOf v i).fault) * 2 ^ 24

/-- The registers of the CU block that are views. -/
def State.cuView (s : State) (o : Nat) : Option Nat :=
  if o = 0x004 then some (b2n s.cu.invBusy * 2 ^ 31 + s.cu.leaves.length)
  else if o = 0x010 then some 0
  else none

/-! ### Boot, helm, life cycle and identity (R30, R31, R420, R421) -/

/-- R420: BT_BOOT_STATUS. -/
def State.bootStatus (s : State) : Nat :=
  let b := s.boot
  b2n b.recFallback * 2 ^ 19 + b2n b.recCopy * 2 ^ 18 + b2n b.blankDie * 2 ^ 17 + b2n b.warm * 2 ^ 16 + b.fails * 2 ^ 14 +
    b.salvage * 2 ^ 8 + b.result * 2 ^ 4 + b2n b.busy.isSome * 2 ^ 3 + b.phase.code

/-- R415: the current state code. -/
def State.lcState (s : State) : Nat := if s.boot.debug then 3 else s.boot.fuses.lc.code

/-- R420: BT_LC. -/
def State.btLc (s : State) : Nat :=
  s.boot.wipes * 2 ^ 24 + b2n s.boot.lcRefused * 2 ^ 18 + s.boot.fuses.lc.code * 2 ^ 4 + s.lcState

/-- The number of programmed key slots as a mask. -/
def slotMask (l : List (Option (BitVec 384))) : Nat := ((l.zipIdx).map (fun x => b2n x.1.isSome * 2 ^ x.2)).sum

/-- R420: BT_FUSE_SV. -/
def State.btFuseSv (s : State) : Nat :=
  let f := s.boot.fuses
  f.ownerRev * 2 ^ 28 + slotMask f.owner * 2 ^ 24 + f.keyRev * 2 ^ 20 + s.boot.bootedSv * 2 ^ 8 + f.sv

/-- R31: BT_MODULE. -/
def State.btModule (s : State) : Nat := s.boot.rev % 256 * 2 ^ 8 + b2n s.boot.fuses.gradeX

/-- R30: word w of the identity record of die d. -/
def State.dieIdWord (s : State) (d w : Nat) : Nat := (tget 0 s.boot.fuses.dieId (4 * d + w)).toNat

/-- R402: word k of a digest, byte 4k in bits 7:0, of a digest whose byte 0 is the least significant. -/
def digestWord (d : BitVec 256) (k : Nat) : Nat := d.toNat / 2 ^ (32 * k) % 2 ^ 32

/-- The digest of the staged image; zeros where none is staged. -/
def State.stbyDigest (s : State) : BitVec 256 := match s.boot.stby with
  | some x => x.digest
  | none => 0

/-- The registers of the BT block that are views. -/
def State.btView (s : State) (o : Nat) : Option Nat :=
  if o = 0x000 then some (s.cfg.wdt * 2 ^ 20 + b2n s.boot.salvageReq * 2 + b2n s.boot.bootOk)
  else if o = 0x004 then some s.bootStatus
  else if o = 0x010 then some s.btLc
  else if o = 0x014 then some (s.regN (btBlock + o) ||| b2n s.boot.lidOpen * 2 ^ 4)
  else if o = 0x018 then some s.btFuseSv
  else if o = 0x020 then some s.boot.epoch
  else if o = 0x024 then some (s.boot.fenced * 2 ^ 16 + b2n s.boot.holderB)
  else if o = 0x034 then some (s.boot.upd.result * 2 ^ 20 + b2n s.boot.upd.late * 2 ^ 16 + s.boot.upd.st.code)
  else if 0x040 ≤ o ∧ o < 0x060 then some (digestWord s.boot.fwDigest ((o - 0x040) / 4))
  else if 0x060 ≤ o ∧ o < 0x080 then some (digestWord s.stbyDigest ((o - 0x060) / 4))
  else if o = 0x080 then some s.btModule
  else if o = 0x084 then some (s.boot.fuses.serial % 2 ^ 32)
  else if o = 0x088 then some (s.boot.fuses.serial / 2 ^ 32 % 2 ^ 32)
  else if 0x100 ≤ o ∧ o < 0x220 then some (s.dieIdWord ((o - 0x100) / 16) (o % 16 / 4))
  else if 0x1000 ≤ o ∧ o < 0x1200 then
    let r := tget (0, 0) s.rtn ((o - 0x1000) / 8)
    some (if o % 8 = 0 then r.1 else r.2)
  else none

/-! ### Power (R391) -/

/-- R382: the hottest sensor of die d. -/
def State.therm (s : State) (d : Nat) : Int := tget 0 s.pw.sl.therm d

/-- R391: PW_STATUS. -/
def State.pwStatus (s : State) : Nat :=
  let hot (t : Int) : Bool := (List.range 10).any (fun d => decide (t ≤ s.therm d))
  (s.regN pwBlock &&& 0x140) + b2n s.radioOnly * 2 ^ 7 + b2n (decide (s.rawBudget < s.pMin)) * 2 ^ 5 +
    b2n s.pw.sl.floorLimited * 2 ^ 4 + b2n (hot 840) * 2 ^ 3 + b2n (hot 800) * 2 ^ 2 + b2n s.pw.sl.barred * 2 + b2n s.pw.sl.overNow

/-- R389: ALERT_N is asserted, driven low: THERM_HI, THERM_MAX, FLOOR_LIMITED, EMERG, RADIO_ONLY or SHORT stands in
PW_STATUS. -/
def State.alertLow (s : State) : Bool := s.pwStatus &&& 0x1DC != 0

/-- R391: PW_POWER.P_TICK, W. -/
def State.pTick (s : State) : Nat := s.pw.sl.window.headD 0 / 1000

/-- R391: PW_ISL. -/
def State.pwIsl (s : State) (i : Nat) : Nat :=
  let x := s.isl i
  let req (r : IslReq) : Nat := match r with
    | .on => 0 | .ret => 1 | .off => 2
  let st := match x.st with
    | .on => 0 | .entering => 1 | .ret => 2 | .off => 3 | .exiting => 4 | .latched => 5 | .failedShort => 6
  b2n x.refused * 2 ^ 22 + req x.pfReq * 2 ^ 18 + req x.fwReq * 2 ^ 16 + b2n (s.parkReq i != .on) * 2 ^ 15 + st

/-- The registers of the PW block that are views. -/
def State.pwView (s : State) (o : Nat) : Option Nat :=
  let x := s.pw.sl
  if o = 0x000 then some s.pwStatus
  else if o = 0x004 then some (s.parkSteps * 2 ^ 16 + x.thermCeil * 2 ^ 8 + x.powerLevel * 2 ^ 4 + x.level)
  else if o = 0x008 then some (s.pMin * 2 ^ 16 + s.budget)
  else if o = 0x00C then some (x.window.sum / 20000000 * 2 ^ 16 + s.pTick)
  else if o = 0x010 then some (x.boostTicks / 20000)
  else if o = 0x014 then some (b2n x.throttle * 2 ^ 2 + x.site)
  else if 0x040 ≤ o ∧ o < 0x054 then some (s.cfg.power.getD ((o - 0x040) / 4) 0)
  else if 0x100 ≤ o ∧ o < 0x128 then some (bits16 (s.therm ((o - 0x100) / 4)))
  else if 0x1000 ≤ o ∧ o < 0x1000 + 4 * 499 then some (s.pwIsl ((o - 0x1000) / 4))
  else none

/-! ### Tide and the global stop (R267, R285, R456) -/

/-- The latched words that a master reads after TD_RAW_LO (R267); word 0 is TD_RAW_LO and so on. -/
def TdLatch.word (l : TdLatch) (w : Nat) : Nat :=
  match w with
  | 0 => l.raw % 2 ^ 32
  | 1 => l.raw / 2 ^ 32 % 2 ^ 32
  | 2 => l.c % 2 ^ 32
  | 3 => l.c / 2 ^ 32 % 2 ^ 32
  | 4 => l.c / 2 ^ 64 % 2 ^ 32
  | 5 => l.c / 2 ^ 16 / 10 ^ 9 % 2 ^ 48 % 2 ^ 32
  | 6 => l.c / 2 ^ 16 / 10 ^ 9 % 2 ^ 48 / 2 ^ 32
  | _ => l.c / 2 ^ 16 % 10 ^ 9

/-- R456: bytes captured in MiB, rounded up. -/
def State.gsUsed (s : State) : Nat := min 0xFFFF s.obs.dropped * 2 ^ 16 + ceilDiv s.obs.used (2 ^ 20)

/-- The registers of the TD block that are views, as the reader whose latch has key k reads them (R267). -/
def State.tdView (s : State) (k o : Nat) : Option Nat :=
  if o = 0x004 then some (s.regN (tdBlock + o) &&& 2 ||| b2n s.td.adj.isSome)
  else if 0x010 ≤ o ∧ o < 0x030 then some ((tget {} s.td.latch k).word ((o - 0x010) / 4))
  else if 0x200 ≤ o ∧ o < 0x2C0 ∧ o % 0x20 < 0x14 then
    let x := tget {} s.td.cap ((o - 0x200) / 0x20)
    let w := o % 0x20 / 4
    some (if w < 2 then x.r / 64 / 2 ^ (32 * w) % 2 ^ 32 else x.c / 2 ^ (32 * (w - 2)) % 2 ^ 32)
  else if o = 0x1000 then
    some (s.regN (tdBlock + o) ||| (b2n s.obs.captured * 2 ^ 6 + b2n s.obs.stopped * 2 ^ 4))
  else if o = 0x1018 then some s.gsUsed
  else none

/-! ### The Harbourmaster, Rake and Sieve (R164, R182, R366, R438, R441) -/

/-- R164: HM_SLOT_STATE. -/
def State.slotState (s : State) : Nat :=
  s.hm.slotErr * 2 ^ 28 + s.hm.errSlot * 2 ^ 24 +
    ((List.range 16).map (fun k => b2n ((s.slotOf k).st == .ready) * 2 ^ k)).sum

/-- R164: HM_MAN_STAT. -/
def State.manFree (s : State) : Nat := 262144 - (s.hm.man.filter (fun e => e.2.st != .free)).length

/-- FLIPS, RETRIES, BUSY and LIVE of a table with a shadow copy. -/
def flipWord (flips retries : Nat) (busy live : Bool) : Nat :=
  flips % 2 ^ 16 * 2 ^ 16 + min 0xFF retries * 2 ^ 8 + b2n busy * 2 + b2n live

/-- The registers of the HM block that are views. -/
def State.hmView (s : State) (o : Nat) : Option Nat :=
  let h := s.hm
  if o = 0x008 then some (flipWord h.btFlips h.btRetries h.btRun.isSome h.btLive)
  else if o = 0x00C ∨ o = 0x070 then some 0
  else if o = 0x018 then some s.slotState
  else if o = 0x020 then some s.manFree
  else if o = 0x060 then some (s.det.epoch % 2 ^ 16 * 2 ^ 16 + b2n s.det.pending * 2 + b2n s.det.mode)
  else if o = 0x074 then some (b2n h.adopt.busy * 2 ^ 31 + h.adopt.result * 2 ^ 28 + h.adopt.count)
  else if o = 0x6010 then some s.obs.wr
  else if 0xA000 ≤ o ∧ o < 0xA000 + 0x80 * 513 then
    let n := tget 0 s.hi.counts (16 * ((o - 0xA000) / 0x80) + o % 0x80 / 8)
    some (if o % 8 = 0 then n % 2 ^ 32 else n / 2 ^ 32)
  else none

/-- R165: free parameter records of Rake or Sieve. -/
def State.freeRecs (s : State) (sieve : Bool) : Nat :=
  65536 - (s.hm.man.filter (fun e => e.2.hasRec && e.2.sel == sieve)).length

def State.rkView (s : State) (o : Nat) : Option Nat := if o = 0x000 then some (s.freeRecs false) else none

def State.svView (s : State) (o : Nat) : Option Nat :=
  if o = 0x000 then some (s.freeRecs true)
  else if o = 0x004 then some (flipWord s.hm.svFlips s.hm.svRetries s.hm.svRun.isSome s.hm.svLive)
  else if o = 0x008 then some s.svFree
  else none

/-! ### Sharing and the tide table (R195, R203, R204) -/

/-- R203: CX_CTX: a resident context, or the SAVED state of an image under the number it had. -/
def State.ctxWord (s : State) (d c : Nat) : Nat :=
  let code (x : CtxSt) : Nat := match x with
    | .running => 1 | .stopping => 2 | .saving => 3 | .saved => 4 | .restoring => 5
  let word (x : Ctx) (k : Nat) : Nat := x.slot * 2 ^ 26 + x.vf * 2 ^ 16 + k * 2 ^ 3 + code x.st
  match s.ctxOf (8 * d + c), s.sh.saved.find? (fun e => e.die == d && e.num == c) with
  | some x, _ => word x x.arrays.length
  | none, some e => word e.ctx 0
  | none, none => 0

/-- R186: account k, charged up to now: one count of each 64-bit register per array-nanosecond. -/
def State.acctNow (s : State) (k : Nat) : Nat := tget 0 s.settle.sh.acct k

/-- The registers of the CX block that are views; CX_CTX has no words for the generation dies (R203). -/
def State.cxView (s : State) (o : Nat) : Option Nat :=
  let half (n : Nat) : Nat := if o % 8 = 0 then n % 2 ^ 32 else n / 2 ^ 32
  let d := (o - 0x4000) / 0x40
  if 0x2000 ≤ o ∧ o < 0x2000 + 8 * 513 then some (half (s.acctNow ((o - 0x2000) / 8)))
  else if o = 0x3100 ∨ o = 0x3104 then some (half (s.acctNow 513))
  else if 0x4000 ≤ o ∧ d < 9 ∧ (d < 4 ∨ d = 8) ∧ o % 0x40 < (if d = 8 then 0x10 else 0x20) then
    some (s.ctxWord d (o % 0x40 / 4))
  else none

/-- The registers of the TT block that are views: TT_WINMAX, TT_RING and the entries' words. -/
def State.ttView (s : State) (o : Nat) : Option Nat :=
  if o < 0x010 then some (s.winMax (o / 4))
  else if 0x030 ≤ o ∧ o < 0x040 then some (tget 0 s.tt.written ((o - 0x030) / 4) % 2 ^ 16)
  else if 0x1000 ≤ o ∧ o < 0x3000 then
    let e := s.ttOf ((o - 0x1000) / 0x800) ((o - 0x1000) % 0x800 / 0x20)
    some (match o % 0x20 / 4 with
      | 0 => e.start % 2 ^ 32
      | 1 => e.start / 2 ^ 32 % 2 ^ 32
      | 2 => e.dur
      | 3 => b2n e.valid * 2 ^ 31 + e.core * 2 ^ 26 + e.rwin * 2 ^ 16 + e.arrays
      | 4 => e.st.code + e.reason * 2 ^ 8 + e.nsaved * 2 ^ 16
      | 5 => e.tReady % 2 ^ 32
      | 6 => e.tReady / 2 ^ 32 % 2 ^ 32
      | _ => e.saved4k)
  else none

/-! ### Radio and coding (R224, R241, R263, R439) -/

/-- R224: DB_STATUS of Dibber c; a halted core reads HALTED. -/
def State.dbStatus (s : State) (c : Fin 48) : Nat :=
  let x := s.dbOf c
  let set := match x.cur with
    | .main => 0 | .set1 => 1 | .set2 => 2
  b2n x.held1 * 2 ^ 7 + b2n x.halted * 2 ^ 6 + b2n x.slotPend * 2 ^ 5 + b2n x.symPend * 2 ^ 4 + set

/-- R241: FH_PLAN_STAT; a LOAD is checked within its command. -/
def State.planStat (s : State) : Nat :=
  s.fh.result * 2 ^ 28 + min 0xFF s.fh.shedCount * 2 ^ 16 + b2n s.fh.next.isSome * 2 ^ 2 + b2n s.fh.active.isSome * 2

/-- R241: FH_CAP. -/
def State.fhCap (s : State) : Nat :=
  (match s.fh.active with
    | some p => p.units s.fh.stopped
    | none => 0) * 2 ^ 16 + s.radioCap

/-- The registers of the FH block that are views. -/
def State.fhView (s : State) (o : Nat) : Option Nat :=
  if o = 0x000 ∨ o = 0x044 ∨ o = 0x050 then some 0
  else if o = 0x00C then some s.planStat
  else if o = 0x010 then some s.fhCap
  else if 0x060 ≤ o ∧ o < 0x070 then
    let x := s.stbyOf ((o - 0x060) / 4)
    let st := match x.st with
      | .idle => 0 | .armed => 1 | .taken => 2
    some (x.result * 2 ^ 28 + x.primary * 2 ^ 16 + st)
  else if 0x4000 ≤ o ∧ o < 0x6000 then
    let k := (o - 0x4000) / 4
    some (b2n (match s.fh.active.bind (fun (p : Plan) => p.rxStreams[k]?) with
        | some x => s.streamFrozen x.1.cell k
        | none => false) * 2 ^ 16 + toBits 8 (tget {} s.fh.rx k).gain)
  else if 0x30020 ≤ o ∧ o < 0x30040 then some (16384 - s.fhDescs ((o - 0x30020) / 4))
  else if 0x40000 ≤ o ∧ o % 0x10 = 0xC then
    some (min 0xFFFFFFFF (s.eqOf ((o - 0x40000) / 0x10)).depth)
  else none

/-- R263: DS_STATUS of cluster c. -/
def State.dsStatus (s : State) (c : Fin 4) : Nat :=
  let x := s.dsOf c
  let st := match (s.isl (482 + c.val)).st with
    | .failedShort => 4
    | .on => if s.dsFull c then 2 else if s.regBit (dsReg c 0) 0 && !x.jobs.isEmpty then 1 else 0
    | _ => 3
  x.jobs.length * 2 ^ 8 + (s.regN (dsReg c 4) &&& 8) + st

/-- R263: DS_HARQ_STAT. -/
def State.harqStat (s : State) : Nat :=
  let used (hbm : Bool) : Nat := ((s.harqUsed hbm).map (·.2)).sum
  min 0xFFFF ((s.cfg.harqHbm * 2 ^ 20 - used true) / 2 ^ 20) * 2 ^ 16 +
    ((sramBase .rd + sramSpan .rd - (s.harqBase + 0x40000)) - used false) / 2 ^ 16

/-- The registers of the DS block that are views. -/
def State.dsView (s : State) (o : Nat) : Option Nat :=
  if o = 0x8000 then some 0
  else if o = 0x8004 then some s.harqStat
  else if 0x4000 ≤ o then none
  else
    let c := Fin.ofNat 4 (o / 0x1000)
    let x := s.dsOf c
    if o % 0x1000 = 0x004 then some (s.dsStatus c)
    else if o % 0x1000 = 0x014 then some (x.sqHead % 2 ^ 16 * 2 ^ 16 + s.regN (dsReg c 0x014) % 2 ^ 16)
    else if o % 0x1000 = 0x024 then some (x.cqTail % 2 ^ 16 * 2 ^ 16 + s.regN (dsReg c 0x024) % 2 ^ 16)
    else none

/-! ### Zelic (R315, R328) -/

/-- R315: ZL_LINK_STAT. -/
def State.zlLinkStat (s : State) (z : Nat) : Nat :=
  let x := s.linkOf z
  let st := match x.st with
    | .disabled => 0 | .training => 1 | .up => 2 | .down => 3
  x.peerLink * 2 ^ 16 + x.peerModule * 2 ^ 8 + st

/-- The registers of the ZL block that are views. -/
def State.zlView (s : State) (o : Nat) : Option Nat :=
  if o = 0x008 then
    some (b2n s.zl.inv.isSome * 2 ^ 31 + (s.zl.tags.filter (fun e => e.2.busy)).length * 2 + s.regN (zlBlock + o) % 2)
  else if o = 0x00C then some 0
  else if 0x800 ≤ o ∧ o < 0x800 + 0x10 * 36 ∧ o % 0x10 = 4 then some (s.zlLinkStat ((o - 0x800) / 0x10))
  else if 0x40000 ≤ o ∧ o % 0x10 = 0xC then
    some (min 0xFFFFFFFF (s.eqOf (16384 + (o - 0x40000) / 0x10)).depth)
  else none

/-! ### The register space (R461, R462) -/

/-- R461: the block that holds an offset, as its base and home die; none outside every block. -/
def blockOf (o : Nat) : Option (Nat × Die) :=
  if o < 0x200000 then some (hiBlock, .hd)
  else if o < 0x210000 then some (cuBlock, .hd)
  else if o < 0x220000 then some (btBlock, .hd)
  else if o < 0x230000 then some (pwBlock, .hd)
  else if o < 0x240000 then some (tdBlock, .hd)
  else if o < 0x260000 then some (hmBlock, .hd)
  else if o < 0x270000 then some (cxBlock, .hd)
  else if o < 0x280000 then some (ttBlock, .hd)
  else if o < 0x290000 then some (rkBlock, .hd)
  else if o < 0x2A0000 then some (svBlock, .hd)
  else if o < 0x2B0000 then some (lkBlock, .hd)
  else if o < 0x2C0000 then some (dlBlock, Die.ofIndex (4 + min 3 ((o - dlBlock) / 0x1000)))
  else if o < 0x2D0000 then some (dsBlock, .rd)
  else if o < 0x2E0000 then some (dbBlock, .rd)
  else if o < 0x300000 then none
  else if o < 0x380000 then some (zlBlock, .hd)
  else if o < 0x400000 then some (fhBlock, .rd)
  else if o < 0x480000 then some (esBlock, arrayDie (min 83 ((o - esBlock) / 0x1000)))
  else if o < 0x500000 then none
  else if o < 0x600000 then some (bkBlock, Die.ofIndex (min 9 ((o - bkBlock) / 0x10000)))
  else if 0xFF00000 ≤ o ∧ o < 0xFF08100 then some (0xFF00000, .hd)
  else none

/-- R340: the PF's MSI-X table and PBA. -/
def State.msixView (s : State) (o : Nat) : Option Nat :=
  if o < 0x8000 then
    let x : MsixVec := tget {} s.hi.msix (msixKey 0 (o / 16))
    some (match o % 16 / 4 with
      | 0 => x.addrLo.toNat
      | 1 => x.addrHi.toNat
      | 2 => x.data.toNat
      | _ => b2n x.masked)
  else some (((List.range 32).map (fun i =>
    b2n (tget {} s.hi.msix (msixKey 0 ((o - 0x8000) / 4 * 32 + i)) : MsixVec).pending * 2 ^ i)).sum)

/-- What a register reads as where it is a view of the state; k is the reader's key (R267). -/
def State.view (s : State) (k b o : Nat) : Option Nat :=
  if b = esBlock then (if o / 0x1000 < 84 then s.esView (o / 0x1000) (o % 0x1000) else none)
  else if b = dlBlock then (if o / 0x1000 < 4 then s.dlView (Fin.ofNat 4 (o / 0x1000)) (o % 0x1000) else none)
  else if b = bkBlock then (if o / 0x10000 < 10 then s.bkView (o / 0x10000) (o % 0x10000) else none)
  else if b = hiBlock then s.hiView o
  else if b = cuBlock then s.cuView o
  else if b = btBlock then s.btView o
  else if b = pwBlock then s.pwView o
  else if b = tdBlock then s.tdView k o
  else if b = hmBlock then s.hmView o
  else if b = rkBlock then s.rkView o
  else if b = svBlock then s.svView o
  else if b = cxBlock then s.cxView o
  else if b = ttBlock then s.ttView o
  else if b = dbBlock then (if o / 0x100 < 48 ∧ o % 0x100 = 4 then some (s.dbStatus (Fin.ofNat 48 (o / 0x100))) else none)
  else if b = fhBlock then s.fhView o
  else if b = dsBlock then s.dsView o
  else if b = zlBlock then s.zlView o
  else if b = 0xFF00000 then s.msixView o
  else none

/-- R8, R462: what a register holds now for a reader: 0 at an unassigned offset and while the home die's BASE island is not
ON. -/
def State.readNow (s : State) (k o : Nat) : Word :=
  match blockOf o with
  | none => 0
  | some (b, d) =>
    if s.dieOn d then
      match s.view k b (o - b) with
      | some n => BitVec.ofNat 32 n
      | none => s.reg o
    else 0

/-! ### Latched halves (R75, R182, R203, R263, R441) -/

/-- The LO registers whose read latches the HI register after them and has no row of its own: RK_SEL, CX_ACCT, the counters of
the functions and DS_JOBS.  Those of the ES, DL and TD blocks are ES_CNT_LO_READ, DL_CNT_LO_READ and TD_RAW_LO_READ. -/
def latchesHi (o : Nat) : Bool :=
  o == rkBlock + 0x008 || o == cxBlock + 0x3100 ||
  (decide (cxBlock + 0x2000 ≤ o) && decide (o < cxBlock + 0x2000 + 8 * 513) && o % 8 == 0) ||
  (decide (hmBlock + 0xA000 ≤ o) && decide (o < hmBlock + 0xA000 + 0x80 * 513) && o % 8 == 0) ||
  (decide (dsBlock ≤ o) && decide (o < dsBlock + 0x4000) && o % 0x1000 == 0x100)

/-- R75, R441: the latch of a HI register: one for all readers, but one for each of a function's counters. -/
def hiLatchKey (k o : Nat) : Nat := if hmBlock + 0xA000 ≤ o ∧ o < hmBlock + 0x20000 then (k + 1) * 2 ^ 28 + o else o

/-- What the reader of key k reads at an offset: a latched half where the register has a latch. -/
def State.readReg (s : State) (k o : Nat) : Word :=
  if latchesHi (o - 4) && decide (4 ≤ o) then
    match blockOf o with
    | some (_, d) => if s.dieOn d then tget 0 s.obs.latch (hiLatchKey k o) else 0
    | none => 0
  else s.readNow k o

/-- R75: a read has an effect where it latches the HI half; the state after a read, and the word read. -/
def State.read (s : State) (k o : Nat) : State × Word :=
  (if latchesHi o then
    { s with obs := { s.obs with latch := tset 0 s.obs.latch (hiLatchKey k (o + 4)) (s.readNow k (o + 4)) } }
   else s, s.readReg k o)

/-! ### What a VF reads (R335, R465) -/

/-- The key of the latches of VF f's own page (R335, R441). -/
def vfLatchKey (f o : Nat) : Nat := (1024 + f) * 2 ^ 28 + o

/-- R335: a word of VF f's BAR0 as it stands now: SQ_TAIL and CQ_HEAD, VF_STATUS, VF_ACCT and the counters, the copies of the
queue registers, the MSI-X table and the PBA; everything else reads 0. -/
def State.vfNow (s : State) (f o : Nat) : Word :=
  let half (n : Nat) : Word := BitVec.ofNat 32 (if o % 8 = 0 then n else n / 2 ^ 32)
  let q := 0x100000 + 0x200 * f + (o - 0x9000)
  if o < 0x8000 then
    (if o % 0x1000 = 0 then BitVec.ofNat 32 ((s.sqOf f (o / 0x1000)).tail % 2 ^ 16)
     else if o % 0x1000 = 4 then BitVec.ofNat 32 ((s.cqOf f (o / 0x1000)).head % 2 ^ 16) else 0)
  else if o = 0x8000 then BitVec.ofNat 32 (s.vfStatus f)
  else if o = 0x8008 ∨ o = 0x800C then half (s.acctNow f)
  else if 0x8100 ≤ o ∧ o < 0x8170 then half (tget 0 s.hi.counts (16 * f + (o - 0x8100) / 8))
  else if 0x9000 ≤ o ∧ o < 0x9200 then
    (match s.hiView q with
      | some n => BitVec.ofNat 32 n
      | none => s.reg (hiBlock + q))
  else if 0xE000 ≤ o ∧ o < 0xE100 then
    let x : MsixVec := tget {} s.hi.msix (msixKey f ((o - 0xE000) / 16))
    (match o % 16 / 4 with
      | 0 => x.addrLo
      | 1 => x.addrHi
      | 2 => x.data
      | _ => BitVec.ofNat 32 (b2n x.masked))
  else if o = 0xF000 then
    BitVec.ofNat 32 (((List.range 16).map (fun i =>
      b2n (tget {} s.hi.msix (msixKey f i) : MsixVec).pending * 2 ^ i)).sum)
  else 0

/-- R335, R441: the LO registers of a VF's page 8. -/
def vfLatchesHi (o : Nat) : Bool := o == 0x8008 || (decide (0x8100 ≤ o) && decide (o < 0x8170) && o % 8 == 0)

/-- What VF f reads at an offset of its BAR0. -/
def State.vfReg (s : State) (f o : Nat) : Word :=
  if vfLatchesHi (o - 4) then tget 0 s.obs.latch (vfLatchKey f o) else s.vfNow f o

/-- R75, R335: the state after VF f has read an offset of its BAR0, and the word read. -/
def State.vfRead (s : State) (f o : Nat) : State × Word :=
  (if vfLatchesHi o then
    { s with obs := { s.obs with latch := tset 0 s.obs.latch (vfLatchKey f (o + 4)) (s.vfNow f (o + 4)) } }
   else s, s.vfReg f o)

end Sys2Proof.Machine
end

