-- ==== Sys2Proof/Machine/Smb.lean ====
section
/-! DEFINITION.  Chapter 22: the commands of the SMBus target (R472 to R474).  What it answers stands in boot.smb. -/

namespace Sys2Proof.Machine

/-- R474: the target answers once the 48 V input is valid; before, every command is NACKed. -/
def State.smbAnswer (s : State) (r : SmbReply) : State :=
  { s with boot := { s.boot with smb := if s.boot.powered then r else .nack } }

/-- R473: the hottest PW_THERM. -/
def State.hottest (s : State) : Int := (List.range 10).foldl (fun m d => max m (s.therm d)) (s.therm 0)

/-- R473: the 16 bytes of STATUS; the coolant temperatures are what the sensors show. -/
def State.smbStatusBytes (s : State) (inlet outlet : BitVec 16) : List Byte :=
  let f := s.regN (btBlock + 0x300)
  leBytes 1 s.fwState ++ leBytes 2 (s.pwStatus % 2 ^ 16) ++ leBytes 1 (if bitOf f 31 then bitsOf f 7 0 else 0) ++
    leBytes 1 (bitsOf f 23 16) ++ leBytes 2 s.pTick ++ leBytes 2 (bits16 s.hottest) ++ leBytes 2 inlet.toNat ++
    leBytes 2 outlet.toNat ++ leBytes 1 s.pw.sl.site ++ leBytes 1 s.lcState ++ leBytes 1 0

/-- R473: STATUS. -/
def execSmbStatus (inlet outlet : BitVec 16) (s : State) : Out := .next (s.smbAnswer (.data (s.smbStatusBytes inlet outlet)))

/-- R473: MODULE: BT_MODULE, BT_SERIAL_LO and BT_SERIAL_HI. -/
def execSmbModule (s : State) : Out :=
  .next (s.smbAnswer (.data (leBytes 4 s.btModule ++ leBytes 8 s.boot.fuses.serial)))

/-- R473: DIE_SEL: die index 0 to 17; other values are NACKed. -/
def execSmbDieSel (d : BitVec 8) (s : State) : Out :=
  .next (if d.toNat ≤ 17 ∧ s.boot.powered = true then
      { s with boot := { s.boot with dieSel := d.toNat, smb := .ack } }
    else s.smbAnswer .nack)

/-- R474: a byte count of 0 until the ROM starts. -/
def State.fromRom (s : State) (bs : List Byte) : SmbReply := .data (if s.boot.rom then bs else [])

/-- R473: DIE_ID: the four identity words of the selected die. -/
def execSmbDieId (s : State) : Out :=
  .next (s.smbAnswer (s.fromRom ((List.range 4).flatMap (fun w => leBytes 4 (s.dieIdWord s.boot.dieSel w)))))

/-- R473: FW_DIGEST: BT_FW_DIGEST0 to 7. -/
def execSmbFwDigest (s : State) : Out := .next (s.smbAnswer (s.fromRom (leBytes 32 s.boot.fwDigest.toNat)))

/-- R473: STBY_DIGEST: BT_STBY_DIGEST0 to 7. -/
def execSmbStbyDigest (s : State) : Out := .next (s.smbAnswer (s.fromRom (leBytes 32 s.stbyDigest.toNat)))

/-- R473: MARGIN: PW_MRG_STAT. -/
def execSmbMargin (s : State) : Out := .next (s.smbAnswer (.data (leBytes 4 (s.regN mrgStat))))

/-- R392, R473: WARM_RESET with byte 0x5A: a warm module reset, in a fatal state too. -/
def execSmbWarmReset (s : State) : Out :=
  .next (if s.boot.powered then (s.moduleReset false).smbAnswer .ack else s.smbAnswer .nack)

/-- R392, R473: COLD_RESET with byte 0x5A: a cold module reset. -/
def execSmbColdReset (s : State) : Out :=
  .next (if s.boot.powered then (s.moduleReset true).smbAnswer .ack else s.smbAnswer .nack)

/-- R473: any other code, and a reset command with another data byte, is NACKed and does nothing. -/
def execSmbInvalidCommand (code : BitVec 8) (data : List Byte) (s : State) : Out :=
  let c := code.toNat
  let known := decide (1 ≤ c && c ≤ 7) || ((c == 0x7E || c == 0x7F) && data == [0x5A])
  onlyIf (!known) s (s.smbAnswer .nack)

end Sys2Proof.Machine
end

