-- ==== Sys2Proof/Machine/Misc.lean ====
section
/-! DEFINITION.  What remains: a write of a register that has no command of its own, the lock of the PLLs, and the console. -/

namespace Sys2Proof.Machine

/-! ### Power-up and the console (R394, R469) -/

/-- R264, R394: the TIDE, MOOR, PILOT and PCIE PLLs lock; the raw counter starts at 0, C is the time since lock, and
REF10M_OUT appears. -/
def execTidePllLock (s : State) : Out :=
  onlyIf (s.boot.powered && s.clk.ocxo && !s.clk.tideLock) s
    { s with
      clk := { s.clk with
        running := s.clk.running ++ [.tide, .moor, .pilot, .pcie].filter (fun (d : ClkDomain) => !s.clk.running.contains d)
        tideLock := true
        refOut := true }
      td := { s.td with raw := 0, base := 0, anchor := 0, rate := 0 } }

/-- R469: a character on UART_RX is accepted in MANUFACTURE and DEBUG only. -/
def execUartRx (c : Byte) (s : State) : Out :=
  onlyIf (s.boot.powered && (s.boot.debug || s.boot.fuses.lc == .manufacture)) s
    { s with boot := { s.boot with uart := s.boot.uart ++ [c] } }

/-! ### Who may write a register (R69, R86, R98, R164, R182, R203, R204, R224, R241, R263, R285, R315, R316, R328, R352,
R353, R391, R420, R437 to R439, R456) -/

/-- R420: BT registers that the PF writes, and those that HD cores write. -/
def State.mayWriteBt (s : State) (m : Agent) (o : Nat) : Bool :=
  (s.isPf m && [0x00C, 0x014, 0x038, 0x03C].contains o) || (m.isHd && [0x010, 0x014].contains o)

/-- R391, R437: PW registers that the PF writes; HD cores write every register. -/
def State.mayWritePw (s : State) (m : Agent) (o : Nat) : Bool :=
  m.isHd || (s.isPf m && (o == 0 || (decide (0x020 ≤ o) && decide (o < 0x030)) || o == 0x200 ||
    (decide (0x280 ≤ o) && decide (o < 0x2C0)) || decide (0x1000 ≤ o)))

/-- R285, R456: TD registers that the PF and the RD cores write; HD cores write every register. -/
def State.mayWriteTd (s : State) (m : Agent) (o : Nat) : Bool :=
  let pf := o == 0 || o == 0x030 || o == 0x034 || (decide (0x060 ≤ o) && decide (o < 0x070)) ||
    (decide (0x100 ≤ o) && decide (o < 0x140)) || (decide (0x200 ≤ o) && decide (o < 0x2C0)) ||
    (decide (0x400 ≤ o) && decide (o < 0x590)) || (decide (0x1000 ≤ o) && decide (o < 0x1018))
  let adj := decide (0x040 ≤ o) && decide (o < 0x05C)
  let rd := (decide (0x080 ≤ o) && decide (o < 0x0B8)) || (decide (0x800 ≤ o) && decide (o < 0x1000))
  m.isHd || (s.isPf m && (pf || (adj && s.mayAdjust m))) || (m.isRd && rd)

/-- R241, R328, R439: FH registers that the PF and the RD cores write. -/
def State.mayWriteFh (s : State) (m : Agent) (o : Nat) : Bool :=
  let count := (decide (0x100 ≤ o) && decide (o < 0x12C)) || (decide (0x1000 ≤ o) && decide (o < 0x3000))
  let egress := decide (0x6000 ≤ o)
  (s.isPf m && (o == 0x004 || o == 0x008 || (decide (0x070 ≤ o) && decide (o < 0x07C)) || count || egress)) ||
    (m.isRd && (count || egress))

/-- R204: the PF writes the COUNT registers of the TT block, RD cores the entries. -/
def State.mayWriteTt (s : State) (m : Agent) (o : Nat) : Bool :=
  (s.isPf m && decide (0x010 ≤ o) && decide (o < 0x024)) || (m.isRd && decide (0x1000 ≤ o))

/-- The agent may write the register at offset o of the block at b with home die d. -/
def State.mayWriteReg (s : State) (m : Agent) (b o : Nat) (d : Die) : Bool :=
  if b = esBlock ∨ b = dlBlock then s.coreMayWrite m d
  else if b = bkBlock then s.coreMayWrite m d || s.hdOrPf m
  else if b = hiBlock ∨ b = cuBlock ∨ b = zlBlock ∨ b = lkBlock then s.hdOrPf m
  else if b = btBlock then s.mayWriteBt m o
  else if b = pwBlock then s.mayWritePw m o
  else if b = tdBlock then s.mayWriteTd m o
  else if b = fhBlock then s.mayWriteFh m o
  else if b = ttBlock then s.mayWriteTt m o
  else if b = dsBlock ∨ b = dbBlock then m.isRd
  else if b = hmBlock ∨ b = cxBlock ∨ b = rkBlock ∨ b = svBlock then s.isPf m
  else false

/-! ### What a write does -/

/-- R8: the value that a register holds after a write: RW bits are set, W1C bits cleared where 1 is written, and a COUNT
register is cleared by any value. -/
def RegRow.written (r : RegRow) (old v : Nat) : Nat :=
  if r.count then 0
  else ((old - (old &&& r.rw)) - ((old &&& r.w1c) &&& v)) ||| (v &&& r.rw) ||| (v &&& r.w1s)

/-- R334, R352: the fields of a queue's page; ring base, write-back address, size and PASID only while the queue is not
enabled.  ENABLE is written by QUEUE_ENABLE and QUEUE_DISABLE. -/
def State.hiWrite (s : State) (o old v w : Nat) : Nat :=
  if o < 0x100000 then w
  else
    let p := o - o % 0x20
    if 0x100 ≤ o % 0x200 ∧ o % 0x20 = 0x14 then w
    else if s.regBit (hiBlock + p + 8) 31 then old
    else if o % 0x20 = 8 then (if bitOf v 31 then old else cfgValue old v)
    else w

/-- R353: CU_CTXT is written only while CU_CTRL.ENABLE = 0. -/
def State.cuWrite (s : State) (o old w : Nat) : Nat := if (o = 0x008 ∨ o = 0x00C) ∧ s.regBit cuBlock 0 then old else w

/-- R280, R281, R285, R456: the ranges of TD registers, and what is ignored while a generator runs or a stop is armed. -/
def State.tdWrite (s : State) (m : Agent) (o old v w : Nat) : Nat :=
  if o = 0 then (if m.isHd then w else old - old % 2 + v % 2)
  else if o = 0x1014 ∧ s.regBit gsCtrl 0 then old
  else if 0x100 ≤ o ∧ o < 0x140 then
    let j := (o - 0x100) / 0x20
    let per := s.regN (ppsReg j 0xC)
    if s.regB (ppsReg j 0) 1 0 ≠ 0 then old
    else if o % 0x20 = 0xC then (if v < 100 then old else w)
    else if o % 0x20 = 0x10 then (if 10 ≤ v ∧ v + 10 ≤ per then w else old)
    else w
  else if 0x800 ≤ o ∧ o < 0x1000 then
    let x := ofBits 32 v
    if s.stbMode ((o - 0x800) / 0x20) ≠ 0 then old
    else if o % 0x20 = 4 then (if -1000000 ≤ x ∧ x ≤ 2000000 then w else old)
    else if o % 0x20 = 0x10 then (if 1 ≤ v ∧ v < 100 then old else w)
    else w
  else w

/-- R366, R455: what is ignored while a ring or a dump table is enabled, and the limits of HM_OBS_CTRL. -/
def State.hmWrite (s : State) (o old v w : Nat) : Nat :=
  if 0x3000 ≤ o ∧ o < 0x6000 then (if s.regBit (hmBlock + (o - o % 0x10) + 8) 31 then old else w)
  else if 0x7000 ≤ o then
    let on := s.regBit (hmBlock + (o - o % 0x10) + 8) 31
    if !on then w else if o % 0x10 = 8 then withBits old 31 31 (bitsOf v 31 31) else old
  else if o = 0x6000 then
    let n := max 10 (bitsOf v 31 16)
    n * 2 ^ 16 + (if s.regB trcCfg 31 30 = 0 then v % 16 else old % 16)
  else w

/-- R316: DOMAIN, MODULE and SIDE fields of LK_CFG are ignored while ENABLE = 1. -/
def lkWrite (o old v w : Nat) : Nat := if o = 0 ∧ bitOf old 31 then withBits old 31 31 (bitsOf v 31 31) else w

/-- R328: OVERHEAD of a link above 63 and sampling intervals below 10. -/
def egWrite (zl : Bool) (o old v w : Nat) : Nat :=
  if o = (if zl then 0x30100 else 0x30040) then max 10 (v % 2 ^ 16)
  else if zl = true ∧ 0x30000 ≤ o ∧ o < 0x30100 ∧ 63 < v % 256 then withBits old 31 31 (bitsOf v 31 31)
  else w

/-- R263: ring addresses and sizes of a coding cluster are written only while ENABLE = 0, sizes 4 to 12. -/
def State.dsWrite (s : State) (o old v w : Nat) : Nat :=
  let p := o % 0x1000
  let on := s.regBit (dsBlock + (o - p)) 0
  if p = 0x010 ∨ p = 0x020 then (if on = true ∨ v % 16 < 4 ∨ 12 < v % 16 then old else w) else w

/-- The value that the register at offset o of block b holds after a write of v, where w is what its bits alone give. -/
def State.writeValue (s : State) (m : Agent) (b o old v w : Nat) : Nat :=
  if b = hiBlock then s.hiWrite o old v w
  else if b = cuBlock then s.cuWrite o old w
  else if b = tdBlock then s.tdWrite m o old v w
  else if b = hmBlock then s.hmWrite o old v w
  else if b = lkBlock then lkWrite o old v w
  else if b = zlBlock then egWrite true o old v w
  else if b = fhBlock then egWrite false o old v w
  else if b = dsBlock then s.dsWrite o old v w
  else if b = btBlock ∧ (o = 0x038 ∨ o = 0x03C) ∧ (s.boot.upd.st = .armed ∨ s.boot.upd.st = .handover) then old
  else w

/-- R182, R263: a write of either half of a 64-bit count clears the whole. -/
def countPair (o : Nat) : Option Nat :=
  if o = rkBlock + 0x008 then some (rkBlock + 0x00C)
  else if o = rkBlock + 0x00C then some (rkBlock + 0x008)
  else if dsBlock ≤ o ∧ o < dsBlock + 0x4000 ∧ (o % 0x1000 = 0x100 ∨ o % 0x1000 = 0x104) then
    some (if o % 0x1000 = 0x100 then o + 4 else o - 4)
  else none

/-- A write of a register that holds a value; one whose write is a command of its own, or that is read-only, stays. -/
def State.plainWrite (s : State) (m : Agent) (b o v : Nat) : State :=
  match regRow (b + o) with
  | none => s
  | some r =>
    if r.own then s
    else
      let old := s.regN (b + o)
      let t := s.setReg (b + o) (s.writeValue m b o old v (r.written old v))
      match r.count, countPair (b + o) with
      | true, some x => t.setReg x 0
      | _, _ => t

/-- R195: an RD core writes a word at bytes 15:0 of an entry that is not in progress, without VALID. -/
def State.ttWrite (s : State) (o v : Nat) : State :=
  let n := (o - 0x1000) / 0x800
  let i := (o - 0x1000) % 0x800 / 0x20
  let e := s.ttOf n i
  if e.live then s
  else match o % 0x20 / 4 with
    | 0 => s.setTt n i { e with start := withBits e.start 31 0 v }
    | 1 => s.setTt n i { e with start := withBits e.start 63 32 v }
    | 2 => s.setTt n i { e with dur := v }
    | 3 =>
      if bitOf v 31 then s
      else s.setTt n i { e with valid := false, arrays := bitsOf v 15 0, rwin := bitsOf v 25 16, core := bitsOf v 27 26 }
    | _ => s

/-- R340: a pending vector that is no longer held is sent. -/
def MsixVec.release (x : MsixVec) (f : Nat) : MsixVec :=
  if x.pending && !x.holds f then { x with pending := false, sent := x.sent + 1 } else x

/-- R340: a write of word w of entry k of function f's MSI-X table; a pending vector that it frees is sent. -/
def State.msixWrite (s : State) (f k w : Nat) (v : Word) : State :=
  let key := msixKey f k
  let x : MsixVec := tget {} s.hi.msix key
  let y : MsixVec := match w with
    | 0 => ({ x with addrLo := v } : MsixVec).release f
    | 1 => ({ x with addrHi := v } : MsixVec).release f
    | 2 => { x with data := v }
    | _ => ({ x with masked := v.getLsbD 0 } : MsixVec).release f
  { s with hi := { s.hi with msix := tset {} s.hi.msix key y } }

/-- R456: a write of TD_GS_CTRL without ARM and RELEASE: VARIANT, which stands while ARM = 1, the W1C bits, and ARM = 0. -/
def State.gsPlain (s : State) (v : Nat) : State :=
  let old := s.regN gsCtrl
  let variant := if bitOf old 0 then old &&& 2 else v &&& 2
  if bitOf v 0 ∨ bitOf v 2 then s
  else s.setReg gsCtrl ((old &&& (0xA0 - (v &&& 0xA0))) + variant)

/-- R340: a write of HI_ERR_MASK; a cause already set that it unmasks sends PF vector 0 (DEDUCED, log 121). -/
def State.errMaskWrite (s : State) (m : Agent) (v : Nat) : State :=
  let t := s.plainWrite m hiBlock 0x010 v
  let held (u : State) : Nat := u.regN (hiBlock + 0x010)
  let cause := s.regN (hiBlock + 0x00C)
  if cause &&& held s ≠ cause &&& held s &&& held t then t.sendVec 0 0 else t

/-- The registers that State holds outside the register file: RETRAINS of HI_LINK (R352), REFUSED of PW_ISL (R391) and of
BT_LC (R420), the tide table (R195), and TD_GS_CTRL (R456). -/
def State.regWrite (s : State) (m : Agent) (b o v : Nat) : State :=
  if b = hiBlock ∧ o = 0x004 then { s with hi := { s.hi with retrains := 0 } }
  else if b = pwBlock ∧ 0x1000 ≤ o ∧ o < 0x1000 + 4 * 499 ∧ o % 4 = 0 then
    (if bitOf v 22 then s.modIsl ((o - 0x1000) / 4) (fun x => { x with refused := false }) else s)
  else if b = btBlock ∧ o = 0x010 then
    (if bitOf v 18 then { s with boot := { s.boot with lcRefused := false } } else s)
  else if b = ttBlock ∧ 0x1000 ≤ o ∧ o < 0x3000 ∧ o % 4 = 0 then s.ttWrite o v
  else if b = hiBlock ∧ o = 0x010 then s.errMaskWrite m v
  else if b = tdBlock ∧ o = 0x1000 then s.gsPlain v
  else s.plainWrite m b o v

/-- R8, R460 to R462: a write of 32 bits at an offset of register space.  For a VF the offset is that of its own BAR0, where
only its MSI-X table is no command of its own (R335, R465); the PF's table answers PF BAR0 only (R461).  Writes without
rights, at unassigned offsets, and to a block whose home die is not ON are discarded. -/
def execRegisterWrite (m : Agent) (o : BitVec 28) (v : Word) (s : State) : Out :=
  match m with
  | .vf f =>
    onlyIf (s.fnLive (f.val + 1) && decide (0xE000 ≤ o.toNat) && decide (o.toNat < 0xE100) && o.toNat % 4 == 0) s
      (s.msixWrite (f.val + 1) ((o.toNat - 0xE000) / 16) (o.toNat % 16 / 4) v)
  | _ =>
    match blockOf o.toNat with
    | none => .next s
    | some (b, d) =>
      if b = 0xFF00000 then
        onlyIf (s.isPf m && decide (o.toNat < 0xFF08000) && o.toNat % 4 == 0) s
          (s.msixWrite 0 ((o.toNat - b) / 16) (o.toNat % 16 / 4) v)
      else agentIf m (s.dieOn d && s.mayWriteReg m b (o.toNat - b) d) s (s.regWrite m b (o.toNat - b) v.toNat)

end Sys2Proof.Machine
end

