-- ==== Sys2Proof/Machine/Dispatch.lean ====
section
/-! DEFINITION.  The one place where a command meets its meaning: one arm per constructor of Instr. -/

namespace Sys2Proof.Machine

def exec (i : Instr) (s : State) : Host.Outcome State Fault Refusal :=
  match i with
  | .ringTransferInject src dst use payload => Sys2Proof.Machine.execRingTransferInject src dst use payload s
  | .ringTransferDeliver src dst cls corrected => Sys2Proof.Machine.execRingTransferDeliver src dst cls corrected s
  | .bridgeDown p => Sys2Proof.Machine.execBridgeDown p s
  | .clockDomainStop d => Sys2Proof.Machine.execClockDomainStop d s
  | .ocxoStable => Sys2Proof.Machine.execOcxoStable s
  | .esCtrlEnable m g on irqCore => Sys2Proof.Machine.execEsCtrlEnable m g on irqCore s
  | .esCtrlStop m g => Sys2Proof.Machine.execEsCtrlStop m g s
  | .esCtrlUnstop m g => Sys2Proof.Machine.execEsCtrlUnstop m g s
  | .esCtrlAbort m a => Sys2Proof.Machine.execEsCtrlAbort m a s
  | .esAbortSettle g => Sys2Proof.Machine.execEsAbortSettle g s
  | .esCtrlResume m g => Sys2Proof.Machine.execEsCtrlResume m g s
  | .esCtrlClrCnt m g => Sys2Proof.Machine.execEsCtrlClrCnt m g s
  | .esSPush m g => Sys2Proof.Machine.execEsSPush m g s
  | .esPPush m g => Sys2Proof.Machine.execEsPPush m g s
  | .esStageFetch g => Sys2Proof.Machine.execEsStageFetch g s
  | .esStageDataArrive g => Sys2Proof.Machine.execEsStageDataArrive g s
  | .esShadowValid g => Sys2Proof.Machine.execEsShadowValid g s
  | .esSwapBegin g waited => Sys2Proof.Machine.execEsSwapBegin g waited s
  | .esPassStart g waits => Sys2Proof.Machine.execEsPassStart g waits s
  | .esOperandArrive g a => Sys2Proof.Machine.execEsOperandArrive g a s
  | .esRowWrite w => Sys2Proof.Machine.execEsRowWrite w s
  | .esPassDone g => Sys2Proof.Machine.execEsPassDone g s
  | .esPassError g => Sys2Proof.Machine.execEsPassError g s
  | .esCntLoRead m g c => Sys2Proof.Machine.execEsCntLoRead m g c s
  | .dlCtrlEnable m n on irqCore => Sys2Proof.Machine.execDlCtrlEnable m n on irqCore s
  | .dlCtrlStop m n => Sys2Proof.Machine.execDlCtrlStop m n s
  | .dlCtrlUnstop m n => Sys2Proof.Machine.execDlCtrlUnstop m n s
  | .dlCtrlAbort m n => Sys2Proof.Machine.execDlCtrlAbort m n s
  | .dlCtrlResume m n => Sys2Proof.Machine.execDlCtrlResume m n s
  | .dlCtrlClrCnt m n => Sys2Proof.Machine.execDlCtrlClrCnt m n s
  | .dlJPush m n => Sys2Proof.Machine.execDlJPush m n s
  | .dlActLoad n => Sys2Proof.Machine.execDlActLoad n s
  | .dlJobStart n waited => Sys2Proof.Machine.execDlJobStart n waited s
  | .dlJobDone n => Sys2Proof.Machine.execDlJobDone n s
  | .dlJobError n => Sys2Proof.Machine.execDlJobError n s
  | .dlCntLoRead m n c => Sys2Proof.Machine.execDlCntLoRead m n c s
  | .bankAccess q addr rival others flips checkFlips => Sys2Proof.Machine.execBankAccess q addr rival others flips checkFlips s
  | .eccWriteback d bank word => Sys2Proof.Machine.execEccWriteback d bank word s
  | .bankAtomic q addr opc operand rival others upset => Sys2Proof.Machine.execBankAtomic q addr opc operand rival others upset s
  | .hbmAtomic m addr opc operand upset => Sys2Proof.Machine.execHbmAtomic m addr opc operand upset s
  | .bkCtrlClrEcc m d => Sys2Proof.Machine.execBkCtrlClrEcc m d s
  | .bkCtrlClrConf m d => Sys2Proof.Machine.execBkCtrlClrConf m d s
  | .bkRuleWrite m d idx v => Sys2Proof.Machine.execBkRuleWrite m d idx v s
  | .bkDrEnableWrite m d on => Sys2Proof.Machine.execBkDrEnableWrite m d on s
  | .dredgeRegionStart d => Sys2Proof.Machine.execDredgeRegionStart d s
  | .dredgeCopyDone d => Sys2Proof.Machine.execDredgeCopyDone d s
  | .dredgeMarchDone d fails => Sys2Proof.Machine.execDredgeMarchDone d fails s
  | .dredgeRegionDone d => Sys2Proof.Machine.execDredgeRegionDone d s
  | .descGemm d vf slot desc r90 => Sys2Proof.Machine.execDescGemm d vf slot desc r90 s
  | .descGemmBatched d vf slot desc => Sys2Proof.Machine.execDescGemmBatched d vf slot desc s
  | .descConv1d d vf slot desc => Sys2Proof.Machine.execDescConv1d d vf slot desc s
  | .descConvert d vf slot desc => Sys2Proof.Machine.execDescConvert d vf slot desc s
  | .descGatherGemm d vf slot desc => Sys2Proof.Machine.execDescGatherGemm d vf slot desc s
  | .descRoutine d vf slot desc => Sys2Proof.Machine.execDescRoutine d vf slot desc s
  | .descBadOpcode d vf slot desc => Sys2Proof.Machine.execDescBadOpcode d vf slot desc s
  | .spanScan d c block => Sys2Proof.Machine.execSpanScan d c block s
  | .tileClaim d c g => Sys2Proof.Machine.execTileClaim d c g s
  | .operandStageCopy d c => Sys2Proof.Machine.execOperandStageCopy d c s
  | .tileDone d c g => Sys2Proof.Machine.execTileDone d c g s
  | .tileHandback d c g next => Sys2Proof.Machine.execTileHandback d c g next s
  | .handbackTake d c k g => Sys2Proof.Machine.execHandbackTake d c k g s
  | .descriptorAbort d c => Sys2Proof.Machine.execDescriptorAbort d c s
  | .submit f sq entry => Sys2Proof.Machine.execSubmit f sq entry s
  | .pause f sq entry => Sys2Proof.Machine.execPause f sq entry s
  | .resume f sq entry => Sys2Proof.Machine.execResume f sq entry s
  | .cancel f sq entry => Sys2Proof.Machine.execCancel f sq entry s
  | .touch f sq entry => Sys2Proof.Machine.execTouch f sq entry s
  | .sqBadOpcode f sq entry => Sys2Proof.Machine.execSqBadOpcode f sq entry s
  | .promptReadDone idx => Sys2Proof.Machine.execPromptReadDone idx s
  | .prefillPlace idx peer => Sys2Proof.Machine.execPrefillPlace idx peer s
  | .prefillDone idx logits dumps => Sys2Proof.Machine.execPrefillDone idx logits dumps s
  | .decodeStepBoundary dumps => Sys2Proof.Machine.execDecodeStepBoundary dumps s
  | .decodeStepStart => Sys2Proof.Machine.execDecodeStepStart s
  | .berthSliceArrive rid berth slice layer data => Sys2Proof.Machine.execBerthSliceArrive rid berth slice layer data s
  | .pullSourceError rid peer => Sys2Proof.Machine.execPullSourceError rid peer s
  | .mirrorCopyDone rid berth => Sys2Proof.Machine.execMirrorCopyDone rid berth s
  | .checkpointCommit rid => Sys2Proof.Machine.execCheckpointCommit rid s
  | .checkpointFail rid => Sys2Proof.Machine.execCheckpointFail rid s
  | .pauseComplete idx => Sys2Proof.Machine.execPauseComplete idx s
  | .expirySweep => Sys2Proof.Machine.execExpirySweep s
  | .manifestQuietEnd idx => Sys2Proof.Machine.execManifestQuietEnd idx s
  | .btRebuildStart => Sys2Proof.Machine.execBtRebuildStart s
  | .hmBtStart m => Sys2Proof.Machine.execHmBtStart m s
  | .btRebuildPassEnd => Sys2Proof.Machine.execBtRebuildPassEnd s
  | .btFlip => Sys2Proof.Machine.execBtFlip s
  | .btRebuildRestart => Sys2Proof.Machine.execBtRebuildRestart s
  | .hmSlotLoad m k => Sys2Proof.Machine.execHmSlotLoad m k s
  | .slotLoadDone k r => Sys2Proof.Machine.execSlotLoadDone k r s
  | .hmSlotUnload m k => Sys2Proof.Machine.execHmSlotUnload m k s
  | .hmSlotUnloadForce m k => Sys2Proof.Machine.execHmSlotUnloadForce m k s
  | .slotDrainDone k => Sys2Proof.Machine.execSlotDrainDone k s
  | .hmCkptWrite m v => Sys2Proof.Machine.execHmCkptWrite m v s
  | .hmQuietWrite m v => Sys2Proof.Machine.execHmQuietWrite m v s
  | .rakeSelect idx logits => Sys2Proof.Machine.execRakeSelect idx logits s
  | .sieveSelect idx logits => Sys2Proof.Machine.execSieveSelect idx logits s
  | .specDraft idx logits => Sys2Proof.Machine.execSpecDraft idx logits s
  | .specVerify idx logits => Sys2Proof.Machine.execSpecVerify idx logits s
  | .sieveImageLoad idx => Sys2Proof.Machine.execSieveImageLoad idx s
  | .svStoreStart m => Sys2Proof.Machine.execSvStoreStart m s
  | .svRebuildStart => Sys2Proof.Machine.execSvRebuildStart s
  | .svRebuildPassEnd => Sys2Proof.Machine.execSvRebuildPassEnd s
  | .svStoreFlip => Sys2Proof.Machine.execSvStoreFlip s
  | .svRebuildRestart => Sys2Proof.Machine.execSvRebuildRestart s
  | .quantumBoundary => Sys2Proof.Machine.execQuantumBoundary s
  | .contextStop d c => Sys2Proof.Machine.execContextStop d c s
  | .contextStopDone d c nexts => Sys2Proof.Machine.execContextStopDone d c nexts s
  | .contextSaveBegin n c => Sys2Proof.Machine.execContextSaveBegin n c s
  | .contextSaveEnd n c => Sys2Proof.Machine.execContextSaveEnd n c s
  | .contextRestoreBegin k => Sys2Proof.Machine.execContextRestoreBegin k s
  | .contextRestoreEnd n c => Sys2Proof.Machine.execContextRestoreEnd n c s
  | .cxQuantumWrite m v => Sys2Proof.Machine.execCxQuantumWrite m v s
  | .cxMarginWrite m v => Sys2Proof.Machine.execCxMarginWrite m v s
  | .cxVfWrite m f v => Sys2Proof.Machine.execCxVfWrite m f v s
  | .ttEntrySubmit m n idx v => Sys2Proof.Machine.execTtEntrySubmit m n idx v s
  | .ttEntryCancel m n idx => Sys2Proof.Machine.execTtEntryCancel m n idx s
  | .ttStopDue n => Sys2Proof.Machine.execTtStopDue n s
  | .ttReleaseDue n idx => Sys2Proof.Machine.execTtReleaseDue n idx s
  | .ttReady n idx => Sys2Proof.Machine.execTtReady n idx s
  | .ttStart n idx => Sys2Proof.Machine.execTtStart n idx s
  | .ttLateArrayFree n idx => Sys2Proof.Machine.execTtLateArrayFree n idx s
  | .ttEnd n idx => Sys2Proof.Machine.execTtEnd n idx s
  | .ttRingDoorbell m n v => Sys2Proof.Machine.execTtRingDoorbell m n v s
  | .fhCplaneRx port sub h eaxc sec ext => Sys2Proof.Machine.execFhCplaneRx port sub h eaxc sec ext s
  | .fhUplaneRx port sub h eaxc comp width frame slot sym arrival startPrb prbs buf => Sys2Proof.Machine.execFhUplaneRx port sub h eaxc comp width frame slot sym arrival startPrb prbs buf s
  | .agcSymbolUpdate idx frame slot sym side => Sys2Proof.Machine.execAgcSymbolUpdate idx frame slot sym side s
  | .agcFreezeEnd c => Sys2Proof.Machine.execAgcFreezeEnd c s
  | .fhAgcRel m c => Sys2Proof.Machine.execFhAgcRel m c s
  | .fhAgcCfgWrite m v => Sys2Proof.Machine.execFhAgcCfgWrite m v s
  | .fhPortCfgWrite m p v => Sys2Proof.Machine.execFhPortCfgWrite m p v s
  | .prachOccasion c frame slot core reps => Sys2Proof.Machine.execPrachOccasion c frame slot core reps s
  | .fftJobQueue e src dst size mode => Sys2Proof.Machine.execFftJobQueue e src dst size mode s
  | .fftJobDone e radices => Sys2Proof.Machine.execFftJobDone e radices s
  | .dibberSymIrq c => Sys2Proof.Machine.execDibberSymIrq c s
  | .dibberSlotIrq c sym => Sys2Proof.Machine.execDibberSlotIrq c sym s
  | .dibberReti c => Sys2Proof.Machine.execDibberReti c s
  | .dibberCmac c acc a b conj neg lanes => Sys2Proof.Machine.execDibberCmac c acc a b conj neg lanes s
  | .dibberStore c acc sh rnd wide symm dst lanes => Sys2Proof.Machine.execDibberStore c acc sh rnd wide symm dst lanes s
  | .dibberLaneOp c op lanes => Sys2Proof.Machine.execDibberLaneOp c op lanes s
  | .dbCtrlReset m c v => Sys2Proof.Machine.execDbCtrlReset m c v s
  | .dbCtrlRun m c v => Sys2Proof.Machine.execDbCtrlRun m c v s
  | .slotConfigRx c frame slot dirs at_ => Sys2Proof.Machine.execSlotConfigRx c frame slot dirs at_ s
  | .ulConfigLate c frame slot => Sys2Proof.Machine.execUlConfigLate c frame slot s
  | .dlConfigLate c frame slot => Sys2Proof.Machine.execDlConfigLate c frame slot s
  | .nrxCompletionWord src dst word n alloc passes bookings => Sys2Proof.Machine.execNrxCompletionWord src dst word n alloc passes bookings s
  | .fhPlanLoad m => Sys2Proof.Machine.execFhPlanLoad m s
  | .fhPlanUnload m => Sys2Proof.Machine.execFhPlanUnload m s
  | .fhPlanCancel m => Sys2Proof.Machine.execFhPlanCancel m s
  | .fhPlanActivate => Sys2Proof.Machine.execFhPlanActivate s
  | .cellShed => Sys2Proof.Machine.execCellShed s
  | .dsSqDoorbell m c tail => Sys2Proof.Machine.execDsSqDoorbell m c tail s
  | .dsCqHeadWrite m c head => Sys2Proof.Machine.execDsCqHeadWrite m c head s
  | .dsJobCopy c => Sys2Proof.Machine.execDsJobCopy c s
  | .dsLdpcDec c idx => Sys2Proof.Machine.execDsLdpcDec c idx s
  | .dsLdpcEnc c idx => Sys2Proof.Machine.execDsLdpcEnc c idx s
  | .dsPolarDec c idx => Sys2Proof.Machine.execDsPolarDec c idx s
  | .dsPolarEnc c idx => Sys2Proof.Machine.execDsPolarEnc c idx s
  | .dsTbEnc c idx => Sys2Proof.Machine.execDsTbEnc c idx s
  | .dsTbDec c idx => Sys2Proof.Machine.execDsTbDec c idx s
  | .dsNselRead c idx => Sys2Proof.Machine.execDsNselRead c idx s
  | .dsJobLate c idx => Sys2Proof.Machine.execDsJobLate c idx s
  | .dsCtrlAbort m c v => Sys2Proof.Machine.execDsCtrlAbort m c v s
  | .dsCtrlEnable m c v => Sys2Proof.Machine.execDsCtrlEnable m c v s
  | .dsHarqFree m h => Sys2Proof.Machine.execDsHarqFree m h s
  | .dsHarqPrefetch m h => Sys2Proof.Machine.execDsHarqPrefetch m h s
  | .harqSpill => Sys2Proof.Machine.execHarqSpill s
  | .harqSpillDone h => Sys2Proof.Machine.execHarqSpillDone h s
  | .tdRawLoRead m => Sys2Proof.Machine.execTdRawLoRead m s
  | .tdAdjRate m => Sys2Proof.Machine.execTdAdjRate m s
  | .tdAdjStep m => Sys2Proof.Machine.execTdAdjStep m s
  | .tdAdjSet m => Sys2Proof.Machine.execTdAdjSet m s
  | .tdAdjApply => Sys2Proof.Machine.execTdAdjApply s
  | .tdSrcWrite m v => Sys2Proof.Machine.execTdSrcWrite m v s
  | .tdFrameOfsWrite m v => Sys2Proof.Machine.execTdFrameOfsWrite m v s
  | .ptpRx q h phase => Sys2Proof.Machine.execPtpRx q h phase s
  | .ptpSyncTx q phase seq corr => Sys2Proof.Machine.execPtpSyncTx q phase seq corr s
  | .ptpTcForward q msg rIn phase key seq corr => Sys2Proof.Machine.execPtpTcForward q msg rIn phase key seq corr s
  | .tcEntryExpire p idx => Sys2Proof.Machine.execTcEntryExpire p idx s
  | .zlTimeFlit z t1 t2 t3 t4 => Sys2Proof.Machine.execZlTimeFlit z t1 t2 t3 t4 s
  | .servoSourceLost announce => Sys2Proof.Machine.execServoSourceLost announce s
  | .servoSourceReturn step v rate => Sys2Proof.Machine.execServoSourceReturn step v rate s
  | .strobeFire idx => Sys2Proof.Machine.execStrobeFire idx s
  | .tdStbCfgWrite m idx v => Sys2Proof.Machine.execTdStbCfgWrite m idx v s
  | .ppsOutPulse j => Sys2Proof.Machine.execPpsOutPulse j s
  | .tdPpsCfgWrite m j v => Sys2Proof.Machine.execTdPpsCfgWrite m j v s
  | .captureEdge idx falling phase => Sys2Proof.Machine.execCaptureEdge idx falling phase s
  | .barrierArm m v => Sys2Proof.Machine.execBarrierArm m v s
  | .barrierFire => Sys2Proof.Machine.execBarrierFire s
  | .zlLinkCtrlWrite m z v => Sys2Proof.Machine.execZlLinkCtrlWrite m z v s
  | .linkTrained z peerModule peerLink delay => Sys2Proof.Machine.execLinkTrained z peerModule peerLink delay s
  | .linkLoss z => Sys2Proof.Machine.execLinkLoss z s
  | .linkFlitReplay z ok => Sys2Proof.Machine.execLinkFlitReplay z ok s
  | .linkReplayLimit z => Sys2Proof.Machine.execLinkReplayLimit z s
  | .zlRequestIssue idx cls dst r => Sys2Proof.Machine.execZlRequestIssue idx cls dst r s
  | .zlForward z f => Sys2Proof.Machine.execZlForward z f s
  | .zlLoadReq via f => Sys2Proof.Machine.execZlLoadReq via f s
  | .zlLoadRsp via f => Sys2Proof.Machine.execZlLoadRsp via f s
  | .zlStore via f lost => Sys2Proof.Machine.execZlStore via f lost s
  | .zlStoreAck via f => Sys2Proof.Machine.execZlStoreAck via f s
  | .zlAtomicReq via f => Sys2Proof.Machine.execZlAtomicReq via f s
  | .zlAtomicRsp via f => Sys2Proof.Machine.execZlAtomicRsp via f s
  | .zlPutData via f lost => Sys2Proof.Machine.execZlPutData via f lost s
  | .zlPutAck via f => Sys2Proof.Machine.execZlPutAck via f s
  | .zlGetReq via f => Sys2Proof.Machine.execZlGetReq via f s
  | .zlGetData via f => Sys2Proof.Machine.execZlGetData via f s
  | .zlTrigger via f => Sys2Proof.Machine.execZlTrigger via f s
  | .zlTrigAck via f => Sys2Proof.Machine.execZlTrigAck via f s
  | .zlBadType z f => Sys2Proof.Machine.execZlBadType z f s
  | .zlCopyPut idx cls dst src q len index => Sys2Proof.Machine.execZlCopyPut idx cls dst src q len index s
  | .zlCopyGet idx cls dst dest q len index => Sys2Proof.Machine.execZlCopyGet idx cls dst dest q len index s
  | .zlFence idx classes => Sys2Proof.Machine.execZlFence idx classes s
  | .zlRequestTimeout tag => Sys2Proof.Machine.execZlRequestTimeout tag s
  | .zlAtomicRetry tag => Sys2Proof.Machine.execZlAtomicRetry tag s
  | .zlAtomicFinal tag => Sys2Proof.Machine.execZlAtomicFinal tag s
  | .zlRcExpire z => Sys2Proof.Machine.execZlRcExpire z s
  | .zlTagRelease tag => Sys2Proof.Machine.execZlTagRelease tag s
  | .lockFlush idx fence => Sys2Proof.Machine.execLockFlush idx fence s
  | .zlQtInv m v => Sys2Proof.Machine.execZlQtInv m v s
  | .zlQtInvDone => Sys2Proof.Machine.execZlQtInvDone s
  | .zlQtSweep => Sys2Proof.Machine.execZlQtSweep s
  | .zlEnable m v => Sys2Proof.Machine.execZlEnable m v s
  | .zlBusyWindowEnd => Sys2Proof.Machine.execZlBusyWindowEnd s
  | .zlTimeoutWrite m v => Sys2Proof.Machine.execZlTimeoutWrite m v s
  | .fhTxEnqueue f bytes => Sys2Proof.Machine.execFhTxEnqueue f bytes s
  | .zlTxEnqueue idx => Sys2Proof.Machine.execZlTxEnqueue idx s
  | .fhTxRelease p q => Sys2Proof.Machine.execFhTxRelease p q s
  | .fhTxDeadline p q idx => Sys2Proof.Machine.execFhTxDeadline p q idx s
  | .egressSelect e => Sys2Proof.Machine.execEgressSelect e s
  | .egressTxEnd e => Sys2Proof.Machine.execEgressTxEnd e s
  | .egressSample q => Sys2Proof.Machine.execEgressSample q s
  | .eqCfgWrite m q v => Sys2Proof.Machine.execEqCfgWrite m q v s
  | .eqRateWrite m q v => Sys2Proof.Machine.execEqRateWrite m q v s
  | .eqHicredWrite m q v => Sys2Proof.Machine.execEqHicredWrite m q v s
  | .pcieLinkTrained x16 gt64 flit => Sys2Proof.Machine.execPcieLinkTrained x16 gt64 flit s
  | .pcieLinkDown => Sys2Proof.Machine.execPcieLinkDown s
  | .perstAssert => Sys2Proof.Machine.execPerstAssert s
  | .pfFlr => Sys2Proof.Machine.execPfFlr s
  | .vfFlr v => Sys2Proof.Machine.execVfFlr v s
  | .vfEnableClear => Sys2Proof.Machine.execVfEnableClear s
  | .vfFlrComplete v => Sys2Proof.Machine.execVfFlrComplete v s
  | .bar0BadAccess f write => Sys2Proof.Machine.execBar0BadAccess f write s
  | .bar2Read o n => Sys2Proof.Machine.execBar2Read o n s
  | .bar2Write o data lost => Sys2Proof.Machine.execBar2Write o data lost s
  | .sqTailDoorbell f q tail => Sys2Proof.Machine.execSqTailDoorbell f q tail s
  | .sqEntryFetch f q n => Sys2Proof.Machine.execSqEntryFetch f q n s
  | .cqHeadWrite f q head => Sys2Proof.Machine.execCqHeadWrite f q head s
  | .cqModTimer f q => Sys2Proof.Machine.execCqModTimer f q s
  | .queueEnable m f idx cq v => Sys2Proof.Machine.execQueueEnable m f idx cq v s
  | .queueDisable m f idx cq => Sys2Proof.Machine.execQueueDisable m f idx cq s
  | .customsTranslate fn pasid addr write => Sys2Proof.Machine.execCustomsTranslate fn pasid addr write s
  | .customsWalkReadDone idx ok => Sys2Proof.Machine.execCustomsWalkReadDone idx ok s
  | .cuInvRange m fn order => Sys2Proof.Machine.execCuInvRange m fn order s
  | .cuInvInstance m fn => Sys2Proof.Machine.execCuInvInstance m fn s
  | .cuInvFunction m fn => Sys2Proof.Machine.execCuInvFunction m fn s
  | .cuInvAll m => Sys2Proof.Machine.execCuInvAll m s
  | .cuInvDone => Sys2Proof.Machine.execCuInvDone s
  | .cuCacheSweep => Sys2Proof.Machine.execCuCacheSweep s
  | .cuCtrlWrite m v => Sys2Proof.Machine.execCuCtrlWrite m v s
  | .fatalError cause die => Sys2Proof.Machine.execFatalError cause die s
  | .hmDetWrite m mode => Sys2Proof.Machine.execHmDetWrite m mode s
  | .detPropagated => Sys2Proof.Machine.execDetPropagated s
  | .hmProvCfgWrite m f v => Sys2Proof.Machine.execHmProvCfgWrite m f v s
  | .islandPfReq m idx req => Sys2Proof.Machine.execIslandPfReq m idx req s
  | .islandFwReq m idx req => Sys2Proof.Machine.execIslandFwReq m idx req s
  | .islandEntryBegin idx => Sys2Proof.Machine.execIslandEntryBegin idx s
  | .islandEntryDone idx => Sys2Proof.Machine.execIslandEntryDone idx s
  | .islandExitBegin idx => Sys2Proof.Machine.execIslandExitBegin idx s
  | .islandExitDone idx => Sys2Proof.Machine.execIslandExitDone idx s
  | .islandRelease m idx => Sys2Proof.Machine.execIslandRelease m idx s
  | .islandShort idx => Sys2Proof.Machine.execIslandShort idx s
  | .sluiceTick mw => Sys2Proof.Machine.execSluiceTick mw s
  | .operatingPointChange k => Sys2Proof.Machine.execOperatingPointChange k s
  | .inputLimitEmergency => Sys2Proof.Machine.execInputLimitEmergency s
  | .emergencyClear => Sys2Proof.Machine.execEmergencyClear s
  | .thermalTick temps => Sys2Proof.Machine.execThermalTick temps s
  | .thermalTrip d => Sys2Proof.Machine.execThermalTrip d s
  | .boostHour => Sys2Proof.Machine.execBoostHour s
  | .sitePwrChange v => Sys2Proof.Machine.execSitePwrChange v s
  | .throttleAssert lowNs => Sys2Proof.Machine.execThrottleAssert lowNs s
  | .throttleRelease => Sys2Proof.Machine.execThrottleRelease s
  | .powerOn => Sys2Proof.Machine.execPowerOn s
  | .btResetWarm m => Sys2Proof.Machine.execBtResetWarm m s
  | .btResetCold m => Sys2Proof.Machine.execBtResetCold m s
  | .romStart strapLow => Sys2Proof.Machine.execRomStart strapLow s
  | .configRecordDone => Sys2Proof.Machine.execConfigRecordDone s
  | .romBoot m => Sys2Proof.Machine.execRomBoot m s
  | .romBootDone info => Sys2Proof.Machine.execRomBootDone info s
  | .romRecord m => Sys2Proof.Machine.execRomRecord m s
  | .romRecordDone flashOk => Sys2Proof.Machine.execRomRecordDone flashOk s
  | .romExit m => Sys2Proof.Machine.execRomExit m s
  | .bootOkWrite m => Sys2Proof.Machine.execBootOkWrite m s
  | .bootWatchdog => Sys2Proof.Machine.execBootWatchdog s
  | .salvageReqWrite m => Sys2Proof.Machine.execSalvageReqWrite m s
  | .updStage m => Sys2Proof.Machine.execUpdStage m s
  | .updStageDone info => Sys2Proof.Machine.execUpdStageDone info s
  | .updDiscard m => Sys2Proof.Machine.execUpdDiscard m s
  | .updArm m => Sys2Proof.Machine.execUpdArm m s
  | .updDisarm m => Sys2Proof.Machine.execUpdDisarm m s
  | .updSwitch => Sys2Proof.Machine.execUpdSwitch s
  | .helmGive m epoch => Sys2Proof.Machine.execHelmGive m epoch s
  | .updAbandon => Sys2Proof.Machine.execUpdAbandon s
  | .helmBeat m epoch => Sys2Proof.Machine.execHelmBeat m epoch s
  | .helmBeatTimeout => Sys2Proof.Machine.execHelmBeatTimeout s
  | .lcRequest m req => Sys2Proof.Machine.execLcRequest m req s
  | .lcExitDebug m => Sys2Proof.Machine.execLcExitDebug m s
  | .tamperEvent src => Sys2Proof.Machine.execTamperEvent src s
  | .marginEval mons hbm => Sys2Proof.Machine.execMarginEval mons hbm s
  | .marginMinReset m r => Sys2Proof.Machine.execMarginMinReset m r s
  | .hmAdopt m v => Sys2Proof.Machine.execHmAdopt m v s
  | .hmAdoptDone => Sys2Proof.Machine.execHmAdoptDone s
  | .stbyArm m v => Sys2Proof.Machine.execStbyArm m v s
  | .stbyDisarm m v => Sys2Proof.Machine.execStbyDisarm m v s
  | .heartbeatSend t => Sys2Proof.Machine.execHeartbeatSend t s
  | .standbyCheck w t => Sys2Proof.Machine.execStandbyCheck w t s
  | .obsSample u pc stall layer op fn => Sys2Proof.Machine.execObsSample u pc stall layer op fn s
  | .hmTrcRdWrite m v => Sys2Proof.Machine.execHmTrcRdWrite m v s
  | .hmTrcCfgWrite m v => Sys2Proof.Machine.execHmTrcCfgWrite m v s
  | .gsArm m v => Sys2Proof.Machine.execGsArm m v s
  | .gsFire => Sys2Proof.Machine.execGsFire s
  | .gsCaptureClose => Sys2Proof.Machine.execGsCaptureClose s
  | .gsRelease m => Sys2Proof.Machine.execGsRelease m s
  | .smbStatus inlet outlet => Sys2Proof.Machine.execSmbStatus inlet outlet s
  | .smbModule => Sys2Proof.Machine.execSmbModule s
  | .smbDieSel d => Sys2Proof.Machine.execSmbDieSel d s
  | .smbDieId => Sys2Proof.Machine.execSmbDieId s
  | .smbFwDigest => Sys2Proof.Machine.execSmbFwDigest s
  | .smbStbyDigest => Sys2Proof.Machine.execSmbStbyDigest s
  | .smbMargin => Sys2Proof.Machine.execSmbMargin s
  | .smbWarmReset => Sys2Proof.Machine.execSmbWarmReset s
  | .smbColdReset => Sys2Proof.Machine.execSmbColdReset s
  | .smbInvalidCommand code data => Sys2Proof.Machine.execSmbInvalidCommand code data s
  | .inputDip => Sys2Proof.Machine.execInputDip s
  | .inputInvalid => Sys2Proof.Machine.execInputInvalid s
  | .inputOvervoltage => Sys2Proof.Machine.execInputOvervoltage s
  | .registerWrite m o v => Sys2Proof.Machine.execRegisterWrite m o v s
  | .tidePllLock => Sys2Proof.Machine.execTidePllLock s
  | .perstDeassert => Sys2Proof.Machine.execPerstDeassert s
  | .pciPmStateWrite f d3 => Sys2Proof.Machine.execPciPmStateWrite f d3 s
  | .vfEnableSet => Sys2Proof.Machine.execVfEnableSet s
  | .lidClose => Sys2Proof.Machine.execLidClose s
  | .uartRx c => Sys2Proof.Machine.execUartRx c s
  | .fhRxWindowClose idx frame slot sym buf => Sys2Proof.Machine.execFhRxWindowClose idx frame slot sym buf s

end Sys2Proof.Machine
end

