-- ==== Sys2Proof/Safety.lean ====
section
/-! DEFINITION.  What the statements speak of: a state whose tables keep their canonical form, what a command answers, and
which parts of the state a command may change. -/

namespace Sys2Proof

open Machine

/-- The canonical form of the tables that hold the module's memories, its register file and its sequencers, so that equal
contents are equal data; and every island of R27 has its state. -/
def Safe (s : State) : Prop :=
  Memory.wf s.mem = true ∧ Memory.wf s.host = true ∧ tsorted 0 s.regs = true ∧ tsorted 0 s.es = true ∧
    tsorted 0 s.dl = true ∧ s.pw.isl.length = 499

/-- The command answers a next state, and p holds of it. -/
def Runs (c : Instr) (s : State) (p : State → Prop) : Prop := ∃ t, exec c s = .next t ∧ p t

/-- The agent's writes reach the module: no stop halts the agent (R451), and it is not fenced (R413). -/
def Acts (m : Agent) (s : State) : Prop := s.agentHalted m = false ∧ s.fenced m = false

/-- A Pilot core of the die writes its engines' pages (R69, R86): it acts, and the die's BASE island is ON. -/
def Drives (m : Agent) (d : Die) (s : State) : Prop := Acts m s ∧ s.coreMayWrite m d = true

/-- The parts of the state that a frame names. -/
inductive Part where
  /-- clock domains (R25) -/
  | clk
  /-- the Mooring ring (R16 to R19) -/
  | ring
  /-- Espalier sequencers and weight buffers (R65 to R75) -/
  | es
  /-- Drip sequencers (R80 to R87) -/
  | dl
  /-- stored bits in error, and writebacks that are due (R109, R110) -/
  | ecc
  /-- the uncorrectable errors met (R423) -/
  | ueLog
  /-- the answers of the banks and the cores' COLLIDE flags (R101, R102) -/
  | rsp
  /-- the Dredges (R112 to R115) -/
  | dredge
  /-- the turns of the masters at the banks' ports (R95) -/
  | turn
  /-- the rules that HD firmware last set (R108), and the stacks that have failed (R13) -/
  | rules
  /-- power islands (R367) -/
  | islands
  /-- the Sluice and the thermal and site limits (R375 to R390) -/
  | sluice
  /-- the margin histories (R423) -/
  | margin
  /-- the raw counter (R264) -/
  | raw
  /-- the rest of Tide -/
  | tide
  /-- the DETERMINISTIC setting (R359) -/
  | det
  /-- the configuration record in force -/
  | cfg
  /-- contexts and their sharing -/
  | sh
  /-- the tide tables -/
  | tt
  /-- fronthaul, cell plans and Dibbers -/
  | fh
  /-- the channel-coding clusters -/
  | ds
  /-- Zelic and the Locks -/
  | zl
  /-- the egress queues -/
  | eg
  /-- model slots -/
  | slots
  /-- the routine table -/
  | rtn
  /-- the Harbourmaster and the berth tables -/
  | hm
  /-- the write position of the trace ring and its losses (R444) -/
  | trace
  /-- the rest of observation: the global stop and its captures -/
  | stop
  /-- BT_HELM.FENCED (R413) -/
  | fenced
  /-- the rest of boot, firmware, fuses and life cycle -/
  | boot
  /-- MSI-X tables (R340) -/
  | msix
  /-- the per-function counters (R441) -/
  | counts
  /-- the rest of the host interface -/
  | hi
  /-- Customs -/
  | cu
  /-- the register file -/
  | regs
  /-- device memory -/
  | mem
  /-- host memory -/
  | host
  /-- interrupts taken by the Pilot cores -/
  | irq
  /-- MODEL: free values drawn -/
  | free
  /-- the commands that wait -/
  | pending
  deriving DecidableEq, Repr

/-- The part is the same in both states. -/
def Part.Same (p : Part) (s t : State) : Prop :=
  match p with
  | .clk => t.clk = s.clk
  | .ring => t.ring = s.ring
  | .es => t.es = s.es
  | .dl => t.dl = s.dl
  | .ecc => t.bk.err = s.bk.err ∧ t.bk.writeback = s.bk.writeback
  | .ueLog => t.bk.ueLog = s.bk.ueLog
  | .rsp => t.bk.rsp = s.bk.rsp ∧ t.bk.coreCollide = s.bk.coreCollide
  | .dredge => t.bk.dredge = s.bk.dredge ∧ t.bk.failBanks = s.bk.failBanks
  | .turn => t.bk.turn = s.bk.turn
  | .rules => t.bk.fwRule = s.bk.fwRule ∧ t.bk.hbmDown = s.bk.hbmDown
  | .islands => t.pw.isl = s.pw.isl
  | .sluice => t.pw.sl = s.pw.sl
  | .margin => t.pw.mg = s.pw.mg
  | .raw => t.td.raw = s.td.raw
  | .tide => { t.td with raw := s.td.raw } = s.td
  | .det => t.det = s.det
  | .cfg => t.cfg = s.cfg
  | .sh => t.sh = s.sh
  | .tt => t.tt = s.tt
  | .fh => t.fh = s.fh
  | .ds => t.ds = s.ds
  | .zl => t.zl = s.zl
  | .eg => t.eg = s.eg
  | .slots => t.slots = s.slots
  | .rtn => t.rtn = s.rtn
  | .hm => t.hm = s.hm
  | .trace => t.obs.wr = s.obs.wr ∧ t.obs.lost = s.obs.lost
  | .stop => { t.obs with wr := s.obs.wr, lost := s.obs.lost } = s.obs
  | .fenced => t.boot.fenced = s.boot.fenced
  | .boot => { t.boot with fenced := s.boot.fenced } = s.boot
  | .msix => t.hi.msix = s.hi.msix
  | .counts => t.hi.counts = s.hi.counts
  | .hi => { t.hi with msix := s.hi.msix, counts := s.hi.counts } = s.hi
  | .cu => t.cu = s.cu
  | .regs => t.regs = s.regs
  | .mem => t.mem = s.mem
  | .host => t.host = s.host
  | .irq => t.irq = s.irq
  | .free => t.free = s.free
  | .pending => t.pending = s.pending

/-- Every part but those of the list is the same in both states. -/
def Keeps (changed : List Part) (s t : State) : Prop := ∀ p, p ∉ changed → p.Same s t

/-- Every register but those that p names reads the same in both states. -/
def RegsKept (p : Nat → Prop) (s t : State) : Prop := ∀ o, ¬ p o → t.reg o = s.reg o

/-- Every byte of device memory but those that p names reads the same in both states; p speaks of storage keys. -/
def MemKept (p : Nat → Prop) (s t : State) : Prop := ∀ a, ¬ p a → rdByte t.mem a = rdByte s.mem a

/-- A message of a type arrives on link z for this module (R289), in time (R292), with no stop (R452) and no trace. -/
def Arrives (s : State) (z : Fin 36) (f : ZlFrame) (typ : Nat) : Prop :=
  s.zlOn = true ∧ s.linkUp z = true ∧ f.parse.typ = typ ∧ f.data.length = f.parse.carried ∧
    f.parse.dst = s.moduleId (s.lockSide z) ∧ (s.aged (some z) f.parse).age ≤ 40000 ∧ s.obs.stopped = false ∧
    s.regBit trcCfg 31 = false

/-- The command of a message type (R291). -/
def zlCommand (via : Option (Fin 36)) (f : ZlFrame) (lost : List (Fin 513)) : Nat → Instr
  | 1 => .zlLoadReq via f
  | 2 => .zlLoadRsp via f
  | 3 => .zlStore via f lost
  | 4 => .zlStoreAck via f
  | 5 => .zlAtomicReq via f
  | 6 => .zlAtomicRsp via f
  | 7 => .zlPutData via f lost
  | 8 => .zlPutAck via f
  | 9 => .zlGetReq via f
  | 10 => .zlGetData via f
  | 11 => .zlTrigger via f
  | _ => .zlTrigAck via f

/-- The request q, which came on link z, is answered with a status, and p holds of the response; it leaves where a link
that is UP leads to the requester (R289). -/
def Replied (s t : State) (z : Fin 36) (q : ZlMsg) (status : Nat) (p : ZlMsg → Prop) : Prop :=
  ∀ l, s.route (s.lockSide z) q.src = some l → s.linkUp l = true → ∃ r : ZlMsg,
    t.zl.out = s.zl.out ++ [{ link := l, queue := q.cls, msg := r }] ∧ r.typ = q.typ + 1 ∧ r.dst = q.src ∧
    r.src = s.moduleId (s.lockSide z) ∧ r.cls = q.cls ∧ r.tag = q.tag ∧ r.gen = q.gen ∧ r.job = q.job ∧
    r.status = status ∧ p r

/-- A reset of the module changes every part but the raw counter's clock and the commands that wait. -/
def Part.all : List Part :=
  [.clk, .ring, .es, .dl, .ecc, .ueLog, .rsp, .dredge, .turn, .rules, .islands, .sluice, .margin, .raw, .tide, .det, .cfg,
    .sh, .tt, .fh, .ds, .zl, .eg, .slots, .rtn, .hm, .trace, .stop, .fenced, .boot, .msix, .counts, .hi, .cu, .regs, .mem,
    .host, .irq, .free]

/-- The parts of the state that a command may change. -/
def Instr.touches (c : Instr) : List Part :=
  match c with
  | .ringTransferInject .. =>
    [.ring]
  | .ringTransferDeliver .. =>
    [.ring, .ecc, .stop, .regs, .mem]
  | .bridgeDown .. =>
    [.ring, .stop, .boot, .hi, .regs]
  | .clockDomainStop .. | .ocxoStable =>
    [.clk]
  | .esCtrlEnable .. =>
    [.es, .fenced, .regs]
  | .esCtrlStop .. | .esCtrlUnstop .. | .dlCtrlStop .. | .dlCtrlUnstop .. | .bkCtrlClrEcc .. | .bkCtrlClrConf ..
  | .bkDrEnableWrite .. | .hmCkptWrite .. | .hmQuietWrite .. | .cxQuantumWrite .. | .cxMarginWrite ..
  | .fhAgcCfgWrite .. | .fhPortCfgWrite .. | .dsCtrlEnable .. | .tdSrcWrite .. | .zlTimeoutWrite .. | .eqCfgWrite ..
  | .cuCtrlWrite .. | .hmProvCfgWrite .. | .marginMinReset .. | .hmTrcRdWrite .. =>
    [.fenced, .regs]
  | .esCtrlAbort .. =>
    [.es, .ecc, .fenced, .mem]
  | .esAbortSettle .. | .esPassError .. =>
    [.es, .irq]
  | .esCtrlResume .. =>
    [.es, .ecc, .fenced, .counts, .mem, .irq]
  | .esCtrlClrCnt .. | .esSPush .. =>
    [.es, .fenced]
  | .esPPush .. =>
    [.es, .ecc, .islands, .fenced, .mem]
  | .esStageFetch .. | .esShadowValid .. | .esSwapBegin .. | .esCntLoRead .. =>
    [.es]
  | .esStageDataArrive .. | .esOperandArrive .. =>
    [.es, .ecc, .ueLog, .msix, .regs, .irq]
  | .esPassStart .. =>
    [.es, .ecc, .ueLog, .msix, .regs, .mem, .irq]
  | .esRowWrite .. =>
    [.es, .ecc, .ueLog, .rsp, .msix, .regs, .mem, .irq, .free]
  | .esPassDone .. =>
    [.es, .ecc, .counts, .mem, .irq]
  | .dlCtrlEnable .. =>
    [.dl, .fenced, .regs]
  | .dlCtrlAbort .. =>
    [.dl, .ecc, .fenced, .mem, .irq, .free]
  | .dlCtrlResume .. | .dlCtrlClrCnt .. | .dlJPush .. =>
    [.dl, .fenced]
  | .dlActLoad .. =>
    [.dl, .ecc, .ueLog, .msix, .regs, .irq]
  | .dlJobStart .. | .dlJobError .. =>
    [.dl, .ecc, .mem, .irq, .free]
  | .dlJobDone .. =>
    [.dl, .ecc, .trace, .regs, .mem, .irq]
  | .dlCntLoRead .. =>
    [.dl]
  | .bankAccess .. | .bankAtomic .. =>
    [.ecc, .ueLog, .rsp, .dredge, .turn, .stop, .fenced, .boot, .msix, .hi, .regs, .mem, .irq, .free]
  | .eccWriteback .. =>
    [.ecc]
  | .hbmAtomic .. =>
    [.ecc, .ueLog, .rsp, .stop, .boot, .msix, .hi, .regs, .mem, .irq, .free]
  | .bkRuleWrite .. =>
    [.rules, .fenced, .regs]
  | .dredgeRegionStart .. =>
    [.dredge, .raw, .regs]
  | .dredgeCopyDone .. =>
    [.ecc, .ueLog, .dredge, .stop, .boot, .msix, .hi, .regs, .irq]
  | .dredgeMarchDone .. =>
    [.dredge, .msix, .regs, .irq]
  | .dredgeRegionDone .. =>
    [.dredge, .regs]
  | .descGemm .. | .descGemmBatched .. | .descConv1d .. | .descConvert .. | .descGatherGemm .. | .descRoutine ..
  | .spanScan .. | .tileClaim .. | .operandStageCopy .. | .descriptorAbort .. =>
    [.ecc, .ueLog, .sh, .trace, .msix, .regs, .mem, .irq, .free]
  | .descBadOpcode .. =>
    [.ecc, .sh, .trace, .msix, .regs, .mem, .irq]
  | .tileDone .. =>
    [.es, .dl, .ecc, .ueLog, .sh, .trace, .msix, .counts, .regs, .mem, .irq, .free]
  | .tileHandback .. =>
    [.es, .ecc, .sh, .counts, .mem]
  | .handbackTake .. =>
    [.ecc, .sh, .regs, .mem, .free]
  | .submit .. | .pause .. | .cancel .. | .promptReadDone .. | .prefillDone .. | .decodeStepBoundary ..
  | .sieveImageLoad .. | .contextRestoreEnd .. =>
    [.ecc, .ueLog, .sh, .hm, .trace, .msix, .counts, .hi, .cu, .regs, .mem, .host, .irq, .free]
  | .resume .. | .touch .. | .pauseComplete .. | .rakeSelect .. | .sieveSelect .. | .specVerify .. =>
    [.ecc, .hm, .msix, .counts, .hi, .cu, .regs, .mem, .host, .free]
  | .sqBadOpcode .. | .sqEntryFetch .. =>
    [.hm, .msix, .counts, .hi, .cu, .regs, .host, .free]
  | .prefillPlace .. =>
    [.ecc, .sh, .hm, .regs, .mem]
  | .decodeStepStart | .btRebuildPassEnd | .btFlip | .svRebuildPassEnd | .svStoreFlip =>
    [.ecc, .hm, .mem]
  | .berthSliceArrive .. | .pullSourceError .. | .mirrorCopyDone .. | .checkpointCommit .. | .checkpointFail .. =>
    [.ecc, .hm, .regs, .mem]
  | .expirySweep =>
    [.ecc, .ueLog, .raw, .sh, .hm, .trace, .msix, .counts, .hi, .cu, .regs, .mem, .host, .irq, .free]
  | .manifestQuietEnd .. =>
    [.ecc, .raw, .hm, .mem]
  | .btRebuildStart | .btRebuildRestart | .svRebuildStart | .svRebuildRestart =>
    [.hm]
  | .hmBtStart .. | .svStoreStart .. | .hmAdopt .. =>
    [.hm, .fenced]
  | .hmSlotLoad .. | .hmSlotUnload .. =>
    [.slots, .hm, .fenced, .msix]
  | .slotLoadDone .. =>
    [.ecc, .slots, .hm, .msix, .mem]
  | .hmSlotUnloadForce .. =>
    [.ecc, .ueLog, .sh, .slots, .hm, .trace, .fenced, .msix, .counts, .hi, .cu, .regs, .mem, .host, .irq, .free]
  | .slotDrainDone .. =>
    [.slots, .msix]
  | .specDraft .. =>
    [.ecc, .hm, .counts, .regs, .mem]
  | .quantumBoundary | .ttReleaseDue .. =>
    [.raw, .sh]
  | .contextStop .. =>
    [.sh, .regs]
  | .contextStopDone .. =>
    [.es, .ecc, .ueLog, .sh, .trace, .msix, .counts, .regs, .mem, .irq, .free]
  | .contextSaveBegin .. =>
    [.ecc, .sh, .trace, .regs, .mem]
  | .contextSaveEnd .. =>
    [.ecc, .ueLog, .sh, .tt, .hm, .trace, .msix, .counts, .hi, .cu, .regs, .mem, .host, .irq, .free]
  | .contextRestoreBegin .. =>
    [.sh]
  | .cxVfWrite .. =>
    [.sh, .fenced, .regs]
  | .ttEntrySubmit .. =>
    [.ecc, .sh, .tt, .trace, .fenced, .regs, .mem, .irq]
  | .ttEntryCancel .. =>
    [.es, .ecc, .ueLog, .sh, .tt, .trace, .fenced, .msix, .regs, .mem, .irq, .free]
  | .ttStopDue .. =>
    [.ecc, .raw, .sh, .tt, .trace, .regs, .mem]
  | .ttReady .. =>
    [.ecc, .sh, .tt, .trace, .regs, .mem, .irq]
  | .ttStart .. =>
    [.ecc, .raw, .sh, .tt, .trace, .regs, .mem, .irq]
  | .ttLateArrayFree .. =>
    [.ecc, .sh, .tt, .trace, .regs, .mem]
  | .ttEnd .. =>
    [.es, .ecc, .ueLog, .raw, .sh, .tt, .trace, .msix, .regs, .mem, .irq, .free]
  | .ttRingDoorbell .. =>
    [.es, .ecc, .islands, .tt, .fenced, .regs, .mem]
  | .fhCplaneRx .. | .dibberCmac .. | .slotConfigRx .. =>
    [.fh, .regs]
  | .fhUplaneRx .. =>
    [.ecc, .raw, .fh, .regs, .mem]
  | .agcSymbolUpdate .. | .fhRxWindowClose .. =>
    [.ecc, .raw, .fh, .mem]
  | .agcFreezeEnd .. | .fftJobQueue .. | .dibberReti .. =>
    [.fh]
  | .fhAgcRel .. | .stbyDisarm .. =>
    [.fh, .fenced]
  | .prachOccasion .. =>
    [.ecc, .raw, .fh, .regs, .mem, .irq, .free]
  | .fftJobDone .. =>
    [.ecc, .tide, .fh, .mem]
  | .dibberSymIrq .. | .dibberSlotIrq .. =>
    [.tide, .fh, .regs]
  | .dibberStore .. =>
    [.ecc, .fh, .regs, .mem]
  | .dibberLaneOp .. =>
    [.ecc, .ueLog, .fh, .msix, .regs, .irq, .free]
  | .dbCtrlReset .. | .dbCtrlRun .. =>
    [.fh, .fenced, .regs]
  | .ulConfigLate .. | .dlConfigLate .. =>
    [.raw, .fh, .regs]
  | .nrxCompletionWord .. =>
    [.ecc, .fh, .regs, .mem, .free]
  | .fhPlanLoad .. =>
    [.clk, .ecc, .ueLog, .sh, .fh, .hm, .trace, .fenced, .msix, .regs, .mem, .irq, .free]
  | .fhPlanUnload .. | .fhPlanCancel .. =>
    [.fh, .fenced, .msix]
  | .fhPlanActivate =>
    [.ecc, .raw, .fh, .ds, .mem]
  | .cellShed =>
    [.raw, .fh, .msix, .regs]
  | .dsSqDoorbell .. | .dsCqHeadWrite .. =>
    [.fenced, .regs, .irq]
  | .dsJobCopy .. | .harqSpillDone .. =>
    [.ecc, .ueLog, .ds, .msix, .regs, .mem, .irq]
  | .dsLdpcDec .. | .dsLdpcEnc .. | .dsPolarDec .. | .dsPolarEnc .. | .dsTbEnc .. | .dsTbDec .. =>
    [.ecc, .ueLog, .raw, .ds, .msix, .regs, .mem, .irq]
  | .dsNselRead .. =>
    [.ecc, .ueLog, .raw, .fh, .ds, .msix, .regs, .irq]
  | .dsJobLate .. =>
    [.ecc, .raw, .ds, .regs, .mem, .irq]
  | .dsCtrlAbort .. =>
    [.ecc, .ds, .fenced, .regs, .mem, .irq]
  | .dsHarqFree .. | .dsHarqPrefetch .. =>
    [.ecc, .ds, .fenced, .mem]
  | .harqSpill =>
    [.ecc, .ds, .mem]
  | .tdRawLoRead .. | .ptpSyncTx .. | .zlTimeFlit .. =>
    [.tide]
  | .tdAdjRate .. | .tdAdjStep .. | .tdAdjSet .. =>
    [.tide, .fenced]
  | .tdAdjApply =>
    [.es, .dl, .ecc, .raw, .tide, .sh, .tt, .fh, .eg, .trace, .stop, .boot, .regs, .mem, .irq]
  | .tdFrameOfsWrite .. | .tdStbCfgWrite .. | .tdPpsCfgWrite .. =>
    [.tide, .fenced, .regs]
  | .ptpRx .. =>
    [.tide, .msix]
  | .ptpTcForward .. | .servoSourceLost .. | .servoSourceReturn .. | .captureEdge .. =>
    [.tide, .regs]
  | .tcEntryExpire .. =>
    [.raw, .tide, .regs]
  | .strobeFire .. | .ppsOutPulse .. =>
    [.raw, .tide]
  | .barrierArm .. =>
    [.es, .dl, .fenced, .regs, .irq]
  | .barrierFire =>
    [.es, .dl, .raw, .regs, .irq]
  | .zlLinkCtrlWrite .. =>
    [.ecc, .ueLog, .zl, .eg, .fenced, .msix, .regs, .irq]
  | .linkTrained .. | .linkLoss .. | .linkReplayLimit .. =>
    [.ecc, .ueLog, .zl, .eg, .msix, .regs, .irq]
  | .linkFlitReplay .. | .zlForward .. =>
    [.zl, .regs]
  | .zlRequestIssue .. | .zlCopyPut .. | .zlCopyGet .. | .zlFence .. =>
    [.ecc, .ueLog, .zl, .msix, .regs, .irq]
  | .zlLoadReq .. | .zlLoadRsp .. | .zlStore .. | .zlStoreAck .. | .zlAtomicReq .. | .zlAtomicRsp .. | .zlPutData ..
  | .zlPutAck .. | .zlGetReq .. | .zlGetData .. | .zlTrigger .. | .zlTrigAck .. =>
    [.ecc, .ueLog, .rsp, .zl, .trace, .stop, .boot, .msix, .hi, .regs, .mem, .irq, .free]
  | .zlBadType .. =>
    [.regs]
  | .zlRequestTimeout .. | .zlAtomicFinal .. | .zlTagRelease .. | .lockFlush .. =>
    [.ecc, .ueLog, .raw, .zl, .msix, .regs, .irq]
  | .zlAtomicRetry .. | .zlRcExpire .. | .zlQtSweep | .zlBusyWindowEnd =>
    [.raw, .zl]
  | .zlQtInv .. =>
    [.zl, .fenced]
  | .zlQtInvDone =>
    [.zl]
  | .zlEnable .. =>
    [.zl, .fenced, .regs]
  | .fhTxEnqueue .. =>
    [.eg]
  | .zlTxEnqueue .. =>
    [.zl, .eg]
  | .fhTxRelease .. =>
    [.raw]
  | .fhTxDeadline .. =>
    [.raw, .fh, .eg, .regs]
  | .egressSelect .. =>
    [.ecc, .zl, .eg, .trace, .regs, .mem]
  | .egressTxEnd .. =>
    [.raw, .zl, .eg]
  | .egressSample .. =>
    [.ecc, .ueLog, .stop, .boot, .msix, .hi, .regs, .mem, .irq, .free]
  | .eqRateWrite .. | .eqHicredWrite .. =>
    [.eg, .fenced, .regs]
  | .pcieLinkTrained .. | .perstDeassert | .pciPmStateWrite .. | .vfEnableSet =>
    [.hi]
  | .pcieLinkDown | .perstAssert | .pfFlr | .vfFlr .. | .vfEnableClear =>
    [.ecc, .ueLog, .sh, .hm, .trace, .msix, .counts, .hi, .cu, .regs, .mem, .irq, .free]
  | .vfFlrComplete .. =>
    [.raw, .hi]
  | .bar0BadAccess .. =>
    [.hi, .regs]
  | .bar2Read .. =>
    [.ecc, .ueLog, .msix, .hi, .regs, .irq]
  | .bar2Write .. =>
    [.ecc, .rsp, .regs, .mem]
  | .sqTailDoorbell .. =>
    [.msix, .hi, .regs]
  | .cqHeadWrite .. =>
    [.msix, .counts, .hi, .cu, .regs, .host, .free]
  | .cqModTimer .. =>
    [.raw, .msix, .hi]
  | .queueEnable .. =>
    [.fenced, .msix, .counts, .hi, .cu, .regs, .host, .free]
  | .queueDisable .. =>
    [.fenced, .msix, .hi, .regs]
  | .customsTranslate .. =>
    [.msix, .counts, .cu, .regs]
  | .customsWalkReadDone .. =>
    [.msix, .counts, .cu, .regs, .free]
  | .cuInvRange .. | .cuInvInstance .. | .cuInvFunction .. | .cuInvAll .. =>
    [.fenced, .cu]
  | .cuInvDone =>
    [.cu]
  | .cuCacheSweep =>
    [.raw, .cu]
  | .fatalError .. =>
    [.stop, .boot, .hi, .regs]
  | .hmDetWrite .. =>
    [.det, .fenced]
  | .detPropagated =>
    [.det]
  | .islandPfReq .. | .islandFwReq .. =>
    [.islands, .sh, .fenced]
  | .islandEntryBegin .. =>
    [.es, .dl, .ecc, .ueLog, .dredge, .islands, .sh, .fh, .ds, .zl, .eg, .msix, .regs, .mem, .irq]
  | .islandEntryDone .. =>
    [.es, .dl, .ecc, .dredge, .islands, .fh, .ds, .eg, .boot, .regs, .mem]
  | .islandExitBegin .. =>
    [.clk, .islands]
  | .islandExitDone .. =>
    [.ecc, .ueLog, .islands, .sh, .fh, .zl, .slots, .hm, .trace, .boot, .msix, .counts, .hi, .cu, .regs, .mem, .host,
      .irq, .free]
  | .islandRelease .. =>
    [.islands, .fh, .zl, .fenced, .boot]
  | .islandShort .. =>
    [.es, .dl, .ecc, .ueLog, .dredge, .islands, .sh, .fh, .ds, .zl, .eg, .slots, .hm, .trace, .stop, .boot, .msix,
      .counts, .hi, .cu, .regs, .mem, .host, .irq, .free]
  | .sluiceTick .. | .inputLimitEmergency | .thermalTick .. | .sitePwrChange .. =>
    [.ecc, .ueLog, .sluice, .sh, .trace, .msix, .regs, .mem, .irq, .free]
  | .operatingPointChange .. | .emergencyClear | .throttleRelease =>
    [.sluice]
  | .thermalTrip .. =>
    [.es, .dl, .ecc, .ueLog, .dredge, .islands, .fh, .ds, .zl, .eg, .stop, .boot, .msix, .hi, .regs, .mem, .irq]
  | .boostHour | .romStart .. =>
    [.sluice, .boot]
  | .throttleAssert .. =>
    [.sluice, .free]
  | .powerOn | .btResetWarm .. | .btResetCold .. | .romExit .. | .bootWatchdog | .smbWarmReset | .smbColdReset
  | .inputInvalid | .inputOvervoltage =>
    Part.all
  | .configRecordDone =>
    [.ecc, .islands, .cfg, .boot, .regs, .mem]
  | .romBoot .. | .romRecord .. | .updStage .. | .updDiscard .. | .updArm .. | .updDisarm .. | .smbStatus ..
  | .smbModule | .smbDieSel .. | .smbDieId | .smbFwDigest | .smbStbyDigest | .smbMargin | .smbInvalidCommand ..
  | .lidClose | .uartRx .. =>
    [.boot]
  | .romBootDone .. =>
    [.ecc, .fh, .rtn, .boot, .regs, .mem]
  | .romRecordDone .. =>
    [.boot, .free]
  | .bootOkWrite .. | .salvageReqWrite .. | .helmBeat .. =>
    [.fenced, .boot]
  | .updStageDone .. =>
    [.ecc, .fh, .boot, .mem]
  | .updSwitch | .updAbandon =>
    [.raw, .boot]
  | .helmGive .. =>
    [.fh, .rtn, .fenced, .boot, .msix]
  | .helmBeatTimeout =>
    [.raw, .stop, .boot, .hi, .regs]
  | .lcRequest .. | .lcExitDebug .. =>
    [.ecc, .fenced, .boot, .mem]
  | .tamperEvent .. =>
    [.ecc, .stop, .boot, .hi, .regs, .mem]
  | .marginEval .. =>
    [.margin, .raw, .msix, .regs]
  | .hmAdoptDone =>
    [.ecc, .hm, .mem, .free]
  | .stbyArm .. =>
    [.ecc, .ueLog, .sh, .fh, .hm, .trace, .fenced, .msix, .regs, .mem, .irq, .free]
  | .heartbeatSend .. =>
    [.ecc, .ueLog, .raw, .fh, .zl, .msix, .regs, .irq]
  | .standbyCheck .. =>
    [.raw, .fh, .msix]
  | .obsSample .. =>
    [.ecc, .raw, .trace, .stop, .regs, .mem]
  | .hmTrcCfgWrite .. =>
    [.trace, .stop, .fenced, .regs]
  | .gsArm .. =>
    [.ecc, .sh, .tt, .trace, .stop, .fenced, .regs, .mem, .irq]
  | .gsFire =>
    [.ecc, .raw, .sh, .tt, .trace, .stop, .regs, .mem, .irq]
  | .gsCaptureClose =>
    [.raw, .stop]
  | .gsRelease .. =>
    [.ring, .ecc, .ueLog, .rsp, .zl, .trace, .stop, .fenced, .boot, .msix, .hi, .regs, .mem, .irq, .free]
  | .inputDip =>
    []
  | .registerWrite .. =>
    [.ecc, .islands, .sh, .tt, .trace, .fenced, .boot, .msix, .hi, .regs, .mem]
  | .tidePllLock =>
    [.clk, .raw, .tide]

/-- A set of registers: those at base + i·s1 + j·s2, with i below n1 unless `any`, and j below n2. -/
structure RegSet where
  base : Nat
  n1 : Nat := 1
  s1 : Nat := 4
  n2 : Nat := 1
  s2 : Nat := 4
  /-- the first index is not bounded -/
  any : Bool := false
  deriving DecidableEq, Repr

/-- The offset is a register of the set. -/
def RegSet.has (r : RegSet) (o : Nat) : Prop :=
  ∃ i j, (r.any = true ∨ i < r.n1) ∧ j < r.n2 ∧ o = r.base + i * r.s1 + j * r.s2

/-- One register. -/
def RegSet.one (o : Nat) : RegSet := { base := o }

/-- n registers, s apart. -/
def RegSet.row (o n s : Nat) : RegSet := { base := o, n1 := n, s1 := s }

/-- Registers s apart, their index a number that the state holds. -/
def RegSet.rows (o s : Nat) : RegSet := { base := o, s1 := s, any := true }

/-- n2 registers, s2 apart, in each of n1 places, s1 apart. -/
def RegSet.grid (o n1 s1 n2 s2 : Nat) : RegSet := { base := o, n1 := n1, s1 := s1, n2 := n2, s2 := s2 }

/-- Every register from lo to hi − 1. -/
def RegSet.span (lo hi : Nat) : RegSet := { base := lo, n1 := hi - lo, s1 := 1 }

/-- Every register. -/
def anyReg : RegSet := { base := 0, s1 := 1, any := true }

/-- One register of every egress queue (R325). -/
def eqRegs (o : Nat) : List RegSet :=
  [.grid (fhBlock + 0x40000 + o) 8 0x8000 2048 0x10, .grid (zlBlock + 0x40000 + o) 36 0x1000 256 0x10]

/-- HI_ERR_CAUSE (R334). -/
def Regs.errCause : List RegSet :=
  [.one (hiBlock + 0x00C)]

/-- The count of trace records lost (R446). -/
def Regs.traceLost : List RegSet :=
  [.one (hmBlock + 0x6018)]

/-- What an ECC error met reports (R98, R109). -/
def Regs.ecc : List RegSet :=
  [.row (bkBlock + 0x0004) 10 0x10000, .grid (bkBlock + 0x0100) 10 0x10000 2 4,
    .row (bkBlock + 0x0108) 10 0x10000, .row (bkBlock + 0x010C) 10 0x10000]

/-- What a translation fault reports (R344). -/
def Regs.customs : List RegSet :=
  [.one (cuBlock + 0x020), .one (cuBlock + 0x024), .one (cuBlock + 0x028), .one (cuBlock + 0x030)]

/-- The counts of collisions (R98, R106). -/
def Regs.collide : List RegSet :=
  [.grid (bkBlock + 0x8800) 10 0x10000 512 4, .one (hiBlock + 0x020)]

/-- The sequence numbers and the count of provenance records (R362). -/
def Regs.prov : List RegSet :=
  [.rows (hmBlock + 0x300C) 0x10, .one (hmBlock + 0x068)]

/-- The counts of a target and a Lock (R292, R305, R314). -/
def Regs.zelicIn : List RegSet :=
  [.one (zlBlock + 0x020), .one (zlBlock + 0x030), .one (zlBlock + 0x038), .one (zlBlock + 0x03C),
    .one (lkBlock + 0x010)]

/-- What a selection leaves in Rake (R173). -/
def Regs.select : List RegSet :=
  [.one (rkBlock + 0x008), .one (rkBlock + 0x00C)]

/-- The counts of empty selections (R175). -/
def Regs.noToken : List RegSet :=
  [.one (rkBlock + 0x014), .one (svBlock + 0x014)]

/-- BT_FATAL, and the stop that a fatal error ends (R420, R456). -/
def Regs.fatal : List RegSet :=
  [.one (btBlock + 0x300), .one (tdBlock + 0x1000)]

/-- The register blocks of the dies whose BASE goes OFF (R368). -/
def Regs.dieLost : List RegSet :=
  [.span esBlock (esBlock + 0x54000), .span bkBlock (bkBlock + 0xA0000), .span dlBlock (dlBlock + 0x4000),
    .span dbBlock (dbBlock + 0x10000), .span dsBlock (dsBlock + 0x10000), .span fhBlock (fhBlock + 0x80000)]

/-- The host interface and Customs (R347). -/
def Regs.host : List RegSet :=
  [.span hiBlock (hiBlock + 0x200000), .span cuBlock (cuBlock + 0x10000)]

/-- What the descriptors that start where room came free may report: they read their operands, convert at once, post their
records, and stop the arrays of a context that is evicted (R125, R136, R189). -/
def Regs.descs : List RegSet :=
  Regs.errCause ++ Regs.traceLost ++ Regs.ecc ++ [.row (bkBlock + 0x0308) 10 0x10000, .rows esBlock 0x1000]

/-- The registers that a command may change: no other register reads a new value. -/
def Instr.regSets (c : Instr) : List RegSet :=
  match c with
  | .ringTransferInject .. | .clockDomainStop .. | .ocxoStable | .esCtrlAbort .. | .esAbortSettle ..
  | .esCtrlResume .. | .esCtrlClrCnt .. | .esSPush .. | .esPPush .. | .esStageFetch .. | .esShadowValid ..
  | .esSwapBegin .. | .esPassDone .. | .esPassError .. | .esCntLoRead .. | .dlCtrlAbort .. | .dlCtrlResume ..
  | .dlCtrlClrCnt .. | .dlJPush .. | .dlJobStart .. | .dlJobError .. | .dlCntLoRead .. | .eccWriteback ..
  | .tileHandback .. | .decodeStepStart | .manifestQuietEnd .. | .btRebuildStart | .hmBtStart .. | .btRebuildPassEnd
  | .btFlip | .btRebuildRestart | .hmSlotLoad .. | .slotLoadDone .. | .hmSlotUnload .. | .slotDrainDone ..
  | .svStoreStart .. | .svRebuildStart | .svRebuildPassEnd | .svStoreFlip | .svRebuildRestart | .quantumBoundary
  | .contextRestoreBegin .. | .ttReleaseDue .. | .agcSymbolUpdate .. | .agcFreezeEnd .. | .fhAgcRel ..
  | .fftJobQueue .. | .fftJobDone .. | .dibberReti .. | .fhPlanUnload .. | .fhPlanCancel .. | .fhPlanActivate
  | .dsHarqFree .. | .dsHarqPrefetch .. | .harqSpill | .tdRawLoRead .. | .tdAdjRate .. | .tdAdjStep .. | .tdAdjSet ..
  | .ptpRx .. | .ptpSyncTx .. | .zlTimeFlit .. | .strobeFire .. | .ppsOutPulse .. | .zlAtomicRetry ..
  | .zlRcExpire .. | .zlQtInv .. | .zlQtInvDone | .zlQtSweep | .zlBusyWindowEnd | .fhTxEnqueue .. | .zlTxEnqueue ..
  | .fhTxRelease .. | .egressTxEnd .. | .pcieLinkTrained .. | .vfFlrComplete .. | .cqModTimer .. | .cuInvRange ..
  | .cuInvInstance .. | .cuInvFunction .. | .cuInvAll .. | .cuInvDone | .cuCacheSweep | .hmDetWrite ..
  | .detPropagated | .islandPfReq .. | .islandFwReq .. | .islandExitBegin .. | .islandRelease ..
  | .operatingPointChange .. | .emergencyClear | .boostHour | .throttleAssert .. | .throttleRelease | .romStart ..
  | .romBoot .. | .romRecord .. | .romRecordDone .. | .bootOkWrite .. | .salvageReqWrite .. | .updStage ..
  | .updStageDone .. | .updDiscard .. | .updArm .. | .updDisarm .. | .updSwitch | .helmGive .. | .updAbandon
  | .helmBeat .. | .lcRequest .. | .lcExitDebug .. | .hmAdopt .. | .hmAdoptDone | .stbyDisarm .. | .standbyCheck ..
  | .gsCaptureClose | .smbStatus .. | .smbModule | .smbDieSel .. | .smbDieId | .smbFwDigest | .smbStbyDigest
  | .smbMargin | .smbInvalidCommand .. | .inputDip | .tidePllLock | .perstDeassert | .pciPmStateWrite ..
  | .vfEnableSet | .lidClose | .uartRx .. | .fhRxWindowClose .. =>
    []
  | .ringTransferDeliver .. =>
    [.one (tdBlock + 0x1000)]
  | .bridgeDown .. | .fatalError .. | .helmBeatTimeout =>
    Regs.fatal
  | .esCtrlEnable .. | .esCtrlStop .. | .esCtrlUnstop .. =>
    [.row esBlock 84 0x1000]
  | .esStageDataArrive .. | .esPassStart .. | .esOperandArrive .. | .dlActLoad .. | .harqSpillDone ..
  | .zlRequestIssue .. | .zlCopyPut .. | .zlCopyGet .. | .zlFence .. | .zlTagRelease .. | .bar2Read ..
  | .heartbeatSend .. =>
    Regs.errCause ++ Regs.ecc
  | .esRowWrite .. =>
    Regs.errCause ++ Regs.ecc ++ Regs.collide
  | .dlCtrlEnable .. | .dlCtrlStop .. | .dlCtrlUnstop .. =>
    [.row dlBlock 4 0x1000]
  | .dlJobDone .. =>
    Regs.traceLost ++ [.row (bkBlock + 0x0304) 10 0x10000]
  | .bankAccess .. =>
    Regs.errCause ++ Regs.ecc ++ Regs.fatal ++ Regs.collide ++ [.grid (bkBlock + 0x8000) 10 0x10000 512 4]
  | .bankAtomic .. =>
    Regs.errCause ++ Regs.ecc ++ Regs.fatal ++ [.grid (bkBlock + 0x8000) 10 0x10000 512 4,
      .row (bkBlock + 0x0008) 10 0x10000]
  | .hbmAtomic .. =>
    Regs.errCause ++ Regs.ecc ++ Regs.fatal ++ [.row (bkBlock + 0x0008) 10 0x10000, .row (pwBlock + 0x284) 8 8]
  | .bkCtrlClrEcc .. =>
    [.grid (bkBlock + 0x0100) 10 0x10000 2 4]
  | .bkCtrlClrConf .. =>
    [.grid (bkBlock + 0x0300) 10 0x10000 3 4, .grid (bkBlock + 0x8000) 10 0x10000 1024 4,
      .row (bkBlock + 0x0008) 10 0x10000]
  | .bkRuleWrite .. =>
    [.grid (bkBlock + 0x4000) 10 0x10000 192 4]
  | .bkDrEnableWrite .. =>
    [.row (bkBlock + 0x0200) 10 0x10000]
  | .dredgeRegionStart .. =>
    [.row (bkBlock + 0x020C) 10 0x10000, .row (bkBlock + 0x0210) 10 0x10000]
  | .dredgeCopyDone .. =>
    Regs.errCause ++ Regs.ecc ++ Regs.fatal
  | .dredgeMarchDone .. =>
    Regs.errCause ++ [.row (bkBlock + 0x0004) 10 0x10000, .row (bkBlock + 0x0214) 10 0x10000,
      .row (bkBlock + 0x0218) 10 0x10000, .row (bkBlock + 0x021C) 10 0x10000]
  | .dredgeRegionDone .. =>
    [.row (bkBlock + 0x020C) 10 0x10000]
  | .descGemm .. | .descGemmBatched .. | .descConv1d .. | .descConvert .. | .descGatherGemm .. | .descRoutine ..
  | .operandStageCopy .. | .descriptorAbort .. | .fhPlanLoad .. | .sitePwrChange .. | .stbyArm .. =>
    Regs.descs
  | .descBadOpcode .. | .contextSaveBegin .. | .ttReady .. | .ttLateArrayFree .. | .obsSample .. =>
    Regs.traceLost
  | .spanScan .. =>
    Regs.descs ++ [.one (hmBlock + 0x064), .row (bkBlock + 0x0300) 10 0x10000]
  | .tileClaim .. =>
    Regs.descs ++ [.rows (dlBlock + 0x10) 4, .rows (esBlock + 0x10) 4]
  | .tileDone .. =>
    Regs.descs ++ [.row (bkBlock + 0x0304) 10 0x10000]
  | .handbackTake .. =>
    [.rows (dlBlock + 0x10) 4, .rows (esBlock + 0x10) 4]
  | .submit .. =>
    Regs.descs ++ Regs.customs ++ Regs.prov ++ [.one (hmBlock + 0x040), .one (rkBlock + 0x010),
      .one (svBlock + 0x010)]
  | .pause .. =>
    Regs.descs ++ Regs.customs ++ Regs.prov ++ [.one (hmBlock + 0x040), .one (hmBlock + 0x044)]
  | .resume .. | .touch .. | .sqBadOpcode .. =>
    Regs.errCause ++ Regs.customs ++ [.one (hmBlock + 0x040)]
  | .cancel .. =>
    Regs.descs ++ Regs.customs ++ Regs.prov ++ [.one (hmBlock + 0x040)]
  | .promptReadDone .. | .expirySweep | .hmSlotUnloadForce .. =>
    Regs.descs ++ Regs.customs ++ Regs.prov
  | .prefillPlace .. =>
    [.one (hmBlock + 0x044), .one (hmBlock + 0x048), .one (hmBlock + 0x050), .rows esBlock 0x1000]
  | .prefillDone .. =>
    Regs.descs ++ Regs.customs ++ Regs.prov ++ Regs.select ++ Regs.noToken ++ [.one (hmBlock + 0x040),
      .one (hmBlock + 0x044)]
  | .decodeStepBoundary .. =>
    Regs.descs ++ Regs.customs ++ Regs.prov ++ [.one (hmBlock + 0x044), .one (hmBlock + 0x048),
      .one (hmBlock + 0x050)]
  | .berthSliceArrive .. | .pullSourceError .. | .mirrorCopyDone .. | .checkpointCommit .. =>
    [.one (hmBlock + 0x040)]
  | .checkpointFail .. =>
    [.one (hmBlock + 0x040), .one (hmBlock + 0x04C)]
  | .pauseComplete .. =>
    Regs.errCause ++ Regs.customs ++ Regs.prov
  | .hmCkptWrite .. =>
    [.one hmBlock]
  | .hmQuietWrite .. =>
    [.one (hmBlock + 0x004)]
  | .rakeSelect .. | .sieveSelect .. =>
    Regs.errCause ++ Regs.customs ++ Regs.select ++ Regs.noToken ++ [.one (hmBlock + 0x040)]
  | .specDraft .. =>
    Regs.select ++ [.one (hmBlock + 0x040), .one (rkBlock + 0x018)]
  | .specVerify .. =>
    Regs.errCause ++ Regs.customs ++ Regs.select ++ Regs.noToken ++ [.one (hmBlock + 0x040), .one (rkBlock + 0x01C)]
  | .sieveImageLoad .. =>
    Regs.descs ++ Regs.customs ++ Regs.prov ++ [.one (svBlock + 0x018)]
  | .contextStop .. =>
    [.rows esBlock 0x1000]
  | .contextStopDone .. | .ttEntryCancel .. =>
    Regs.errCause ++ Regs.traceLost ++ Regs.ecc ++ [.row (bkBlock + 0x0308) 10 0x10000]
  | .contextSaveEnd .. =>
    Regs.descs ++ Regs.customs ++ Regs.prov ++ [.one (cxBlock + 0x010), .one (cxBlock + 0x018)]
  | .contextRestoreEnd .. =>
    Regs.descs ++ Regs.customs ++ Regs.prov ++ [.one (cxBlock + 0x014), .one (cxBlock + 0x018)]
  | .cxQuantumWrite .. =>
    [.one cxBlock]
  | .cxMarginWrite .. =>
    [.one (cxBlock + 0x004)]
  | .cxVfWrite .. =>
    [.row (cxBlock + 0x1000) 513 4]
  | .ttEntrySubmit .. =>
    Regs.traceLost ++ [.one (ttBlock + 0x010), .one (ttBlock + 0x01C)]
  | .ttStopDue .. =>
    Regs.traceLost ++ [.rows esBlock 0x1000]
  | .ttStart .. =>
    Regs.traceLost ++ [.one (ttBlock + 0x014)]
  | .ttEnd .. =>
    Regs.errCause ++ Regs.traceLost ++ Regs.ecc ++ [.one (ttBlock + 0x018), .row (bkBlock + 0x0308) 10 0x10000]
  | .ttRingDoorbell .. =>
    [.one (ttBlock + 0x020), .rows (esBlock + 0x10) 4]
  | .fhCplaneRx .. =>
    [.one (fhBlock + 0x100), .one (fhBlock + 0x110)]
  | .fhUplaneRx .. =>
    [.one (fhBlock + 0x100), .one (fhBlock + 0x104), .one (fhBlock + 0x108), .one (fhBlock + 0x10C),
      .one (fhBlock + 0x110), .one (fhBlock + 0x118)]
  | .fhAgcCfgWrite .. =>
    [.one (fhBlock + 0x040)]
  | .fhPortCfgWrite .. =>
    [.row (fhBlock + 0x20) 8 4]
  | .prachOccasion .. =>
    [.one (fhBlock + 0x11C), .one (fhBlock + 0x120)]
  | .dibberSymIrq .. | .dibberSlotIrq .. =>
    [.row (dbBlock + 0x08) 48 0x100, .row (dbBlock + 0x14) 48 0x100]
  | .dibberCmac .. | .dibberStore .. =>
    [.row (dbBlock + 0x08) 48 0x100, .row (dbBlock + 0x0C) 48 0x100, .row (dbBlock + 0x10) 48 0x100]
  | .dibberLaneOp .. =>
    Regs.errCause ++ Regs.ecc ++ [.row (dbBlock + 0x08) 48 0x100, .row (dbBlock + 0x0C) 48 0x100,
      .row (dbBlock + 0x10) 48 0x100]
  | .dbCtrlReset .. | .dbCtrlRun .. =>
    [.row dbBlock 48 0x100]
  | .slotConfigRx .. | .ulConfigLate .. | .dlConfigLate .. =>
    [.one (fhBlock + 0x128)]
  | .nrxCompletionWord .. =>
    [.rows (fhBlock + 0x1008) 0x10]
  | .cellShed | .sqTailDoorbell .. =>
    Regs.errCause
  | .dsSqDoorbell .. =>
    [.row (dsBlock + 0x004) 4 0x1000, .row (dsBlock + 0x014) 4 0x1000]
  | .dsCqHeadWrite .. =>
    [.row (dsBlock + 0x004) 4 0x1000, .row (dsBlock + 0x024) 4 0x1000]
  | .dsJobCopy .. =>
    Regs.errCause ++ Regs.ecc ++ [.row (dsBlock + 0x100) 4 0x1000, .row (dsBlock + 0x104) 4 0x1000]
  | .dsLdpcDec .. =>
    Regs.errCause ++ Regs.ecc ++ [.row (dsBlock + 0x100) 4 0x1000, .row (dsBlock + 0x104) 4 0x1000,
      .row (dsBlock + 0x10C) 4 0x1000, .row (dsBlock + 0x114) 4 0x1000]
  | .dsLdpcEnc .. | .dsPolarDec .. | .dsPolarEnc .. | .dsTbDec .. =>
    Regs.errCause ++ Regs.ecc ++ [.row (dsBlock + 0x100) 4 0x1000, .row (dsBlock + 0x104) 4 0x1000,
      .row (dsBlock + 0x114) 4 0x1000]
  | .dsTbEnc .. =>
    Regs.errCause ++ Regs.ecc ++ [.row (dsBlock + 0x100) 4 0x1000, .row (dsBlock + 0x104) 4 0x1000,
      .row (dsBlock + 0x110) 4 0x1000, .row (dsBlock + 0x114) 4 0x1000]
  | .dsNselRead .. =>
    Regs.errCause ++ Regs.ecc ++ [.one (fhBlock + 0x124), .rows (fhBlock + 0x1000) 4]
  | .dsJobLate .. =>
    [.row (dsBlock + 0x100) 4 0x1000, .row (dsBlock + 0x104) 4 0x1000, .row (dsBlock + 0x108) 4 0x1000]
  | .dsCtrlAbort .. =>
    [.row (dsBlock + 0x100) 4 0x1000, .row (dsBlock + 0x104) 4 0x1000, .row dsBlock 4 0x1000]
  | .dsCtrlEnable .. =>
    [.row dsBlock 4 0x1000]
  | .tdAdjApply =>
    Regs.traceLost ++ [.one (fhBlock + 0x114), .one (tdBlock + 0x004), .one (tdBlock + 0x060), .one (tdBlock + 0x064),
      .one (tdBlock + 0x080), .one (tdBlock + 0x1000), .one (ttBlock + 0x014), .row dlBlock 4 0x1000,
      .rows esBlock 0x1000]
  | .tdSrcWrite .. =>
    [.one (tdBlock + 0x008)]
  | .tdFrameOfsWrite .. =>
    [.one (tdBlock + 0x00C)]
  | .ptpTcForward .. | .tcEntryExpire .. =>
    [.one (tdBlock + 0x068)]
  | .servoSourceLost .. | .servoSourceReturn .. =>
    [.one (tdBlock + 0x040), .one tdBlock]
  | .tdStbCfgWrite .. =>
    [.one (tdBlock + 0x064), .row (tdBlock + 0x800) 64 0x20]
  | .tdPpsCfgWrite .. =>
    [.row (tdBlock + 0x100) 2 0x20]
  | .captureEdge .. =>
    [.one (tdBlock + 0x06C), .row (tdBlock + 0x214) 6 0x20]
  | .barrierArm .. | .barrierFire =>
    [.one (tdBlock + 0x080), .row dlBlock 4 0x1000, .rows esBlock 0x1000]
  | .zlLinkCtrlWrite .. =>
    Regs.errCause ++ Regs.ecc ++ [.one (zlBlock + 0x034), .row (zlBlock + 0x800) 36 0x10]
  | .linkTrained .. =>
    Regs.errCause ++ Regs.ecc ++ [.one (zlBlock + 0x034), .row (zlBlock + 0x808) 36 0x10,
      .row (zlBlock + 0x80C) 36 0x10]
  | .linkLoss .. | .linkReplayLimit .. =>
    Regs.errCause ++ Regs.ecc ++ [.one (zlBlock + 0x034), .row (zlBlock + 0x808) 36 0x10]
  | .linkFlitReplay .. =>
    [.row (zlBlock + 0x808) 36 0x10]
  | .zlForward .. =>
    [.one (zlBlock + 0x024), .one (zlBlock + 0x034)]
  | .zlLoadReq .. | .zlLoadRsp .. | .zlStore .. | .zlStoreAck .. | .zlAtomicReq .. | .zlAtomicRsp .. | .zlPutData ..
  | .zlPutAck .. | .zlGetReq .. | .zlGetData .. | .zlTrigger .. | .zlTrigAck .. =>
    Regs.errCause ++ Regs.traceLost ++ Regs.ecc ++ Regs.fatal ++ Regs.collide ++ Regs.zelicIn ++
      [.one (lkBlock + 0x014), .one (zlBlock + 0x024), .one (zlBlock + 0x034), .row (bkBlock + 0x0008) 10 0x10000]
  | .zlBadType .. =>
    [.one (zlBlock + 0x034)]
  | .zlRequestTimeout .. =>
    Regs.errCause ++ Regs.ecc ++ [.one (zlBlock + 0x008), .one (zlBlock + 0x010), .one (zlBlock + 0x014),
      .one (zlBlock + 0x028)]
  | .zlAtomicFinal .. =>
    Regs.errCause ++ Regs.ecc ++ [.one (zlBlock + 0x02C)]
  | .lockFlush .. =>
    Regs.errCause ++ Regs.ecc ++ [.one (lkBlock + 0x014)]
  | .zlEnable .. =>
    [.one zlBlock]
  | .zlTimeoutWrite .. =>
    [.one (zlBlock + 0x004)]
  | .fhTxDeadline .. =>
    [.one (fhBlock + 0x114)]
  | .egressSelect .. =>
    Regs.traceLost ++ [.one (zlBlock + 0x024)]
  | .egressSample .. =>
    Regs.errCause ++ Regs.ecc ++ Regs.fatal ++ [.row (bkBlock + 0x0008) 10 0x10000]
  | .eqCfgWrite .. =>
    eqRegs 0
  | .eqRateWrite .. =>
    eqRegs 4
  | .eqHicredWrite .. =>
    eqRegs 8
  | .pcieLinkDown | .perstAssert | .pfFlr =>
    Regs.descs ++ Regs.host
  | .vfFlr .. | .vfEnableClear =>
    Regs.descs ++ [.span (hiBlock + 0x100000) (hiBlock + 0x200000)]
  | .bar0BadAccess .. =>
    [.one (hiBlock + 0x024)]
  | .bar2Write .. =>
    Regs.collide ++ [.one (hiBlock + 0x024)]
  | .sqEntryFetch .. | .cqHeadWrite .. | .customsTranslate .. | .customsWalkReadDone .. =>
    Regs.errCause ++ Regs.customs
  | .queueEnable .. =>
    Regs.errCause ++ Regs.customs ++ [.grid (hiBlock + 0x100008) 513 0x200 16 0x20]
  | .queueDisable .. =>
    Regs.errCause ++ [.grid (hiBlock + 0x100008) 513 0x200 16 0x20]
  | .cuCtrlWrite .. =>
    [.one cuBlock]
  | .hmProvCfgWrite .. =>
    [.row (hmBlock + 0x3008) 513 0x10, .row (hmBlock + 0x300C) 513 0x10]
  | .islandEntryBegin .. =>
    Regs.errCause ++ Regs.ecc ++ [.one (fhBlock + 0x114), .one (zlBlock + 0x034), .row (bkBlock + 0x020C) 10 0x10000]
  | .islandEntryDone .. =>
    Regs.dieLost
  | .islandExitDone .. =>
    Regs.descs ++ Regs.customs ++ Regs.prov ++ [.grid (bkBlock + 0x2000) 10 0x10000 384 4,
      .grid (bkBlock + 0x4000) 10 0x10000 192 4]
  | .islandShort .. =>
    Regs.descs ++ Regs.dieLost ++ Regs.customs ++ Regs.prov ++ Regs.fatal ++ [.one (fhBlock + 0x114),
      .one (pwBlock + 0x024), .one (zlBlock + 0x034), .one pwBlock, .row (bkBlock + 0x020C) 10 0x10000]
  | .sluiceTick .. =>
    Regs.descs ++ [.one (pwBlock + 0x020), .one (pwBlock + 0x02C)]
  | .inputLimitEmergency =>
    Regs.descs ++ [.one (pwBlock + 0x028), .one (pwBlock + 0x02C), .one pwBlock]
  | .thermalTick .. =>
    Regs.descs ++ [.one (pwBlock + 0x02C)]
  | .thermalTrip .. =>
    Regs.dieLost ++ Regs.errCause ++ Regs.ecc ++ Regs.fatal ++ [.one (fhBlock + 0x114), .one (zlBlock + 0x034),
      .row (bkBlock + 0x020C) 10 0x10000]
  | .powerOn | .btResetWarm .. | .btResetCold .. | .romBootDone .. | .romExit .. | .bootWatchdog | .smbWarmReset
  | .smbColdReset | .inputInvalid | .inputOvervoltage | .registerWrite .. =>
    [anyReg]
  | .configRecordDone =>
    [.grid (bkBlock + 0x2000) 10 0x10000 384 4]
  | .tamperEvent .. =>
    Regs.fatal ++ [.one (btBlock + 0x014)]
  | .marginEval .. =>
    Regs.errCause ++ [.one (pwBlock + 0x200), .row (pwBlock + 0x280) 16 4, .span (pwBlock + 0x210) (pwBlock + 0x640)]
  | .marginMinReset .. =>
    [.span (pwBlock + 0x210) (pwBlock + 0x640)]
  | .hmTrcRdWrite .. =>
    [.one (hmBlock + 0x6014)]
  | .hmTrcCfgWrite .. =>
    [.one (hmBlock + 0x6004), .one (hmBlock + 0x6014)]
  | .gsArm .. | .gsFire =>
    Regs.traceLost ++ [.one (tdBlock + 0x1000), .one (ttBlock + 0x014)]
  | .gsRelease .. =>
    Regs.errCause ++ Regs.traceLost ++ Regs.ecc ++ Regs.fatal ++ Regs.collide ++ Regs.zelicIn ++
      [.one (lkBlock + 0x014), .one (zlBlock + 0x034), .row (bkBlock + 0x0008) 10 0x10000]

/-- A storage key in the trace ring (R444). -/
def Machine.State.inTraceRing (s : State) (k : Nat) : Prop :=
  ∃ i, i < 32 * s.traceSize ∧ k = s.key (s.reg64 (hmBlock + 0x6008) (hmBlock + 0x600C) + i)

/-- A storage key in the copies of ES_SEQ that the booked arrays of a prompt die keep (R200). -/
def Machine.State.inSeqCopy (s : State) (k : Nat) : Prop :=
  ∃ p < 4, ∃ i < 64, k = s.key (passList p + 0x80000 + i)

/-- The storage keys of device memory that a command may change: none; the trace ring or the copies of ES_SEQ alone; the SRAM of HD, with its
tables (R147); the Bonded store (R416); or those that a statement about the command's own stores names. -/
def Instr.mayStore (c : Instr) (s : State) : Nat → Prop :=
  match c with
  | .esCtrlAbort .. | .esCtrlResume .. | .esPPush .. | .esPassStart .. =>
    s.inSeqCopy
  | .descBadOpcode .. | .contextSaveBegin .. | .ttEntrySubmit .. | .ttStopDue .. | .ttReady .. | .tdAdjApply
  | .egressSelect .. | .obsSample .. | .gsArm .. | .gsFire =>
    s.inTraceRing
  | .resume .. | .touch .. | .decodeStepStart | .pullSourceError .. | .mirrorCopyDone .. | .checkpointCommit ..
  | .checkpointFail .. | .manifestQuietEnd .. | .btRebuildPassEnd | .btFlip | .rakeSelect .. | .sieveSelect ..
  | .specDraft .. | .specVerify .. | .svRebuildPassEnd | .svStoreFlip =>
    fun k => sramBase .hd ≤ k
  | .lcRequest .. | .lcExitDebug .. | .tamperEvent .. =>
    fun k => bonded k = true
  | .ringTransferDeliver .. | .esRowWrite .. | .esPassDone .. | .dlCtrlAbort .. | .dlJobStart .. | .dlJobDone ..
  | .dlJobError .. | .bankAccess .. | .bankAtomic .. | .hbmAtomic .. | .descGemm .. | .descGemmBatched ..
  | .descConv1d .. | .descConvert .. | .descGatherGemm .. | .descRoutine .. | .spanScan .. | .tileClaim ..
  | .operandStageCopy .. | .tileDone .. | .tileHandback .. | .handbackTake .. | .descriptorAbort .. | .submit ..
  | .pause .. | .cancel .. | .promptReadDone .. | .prefillPlace .. | .prefillDone .. | .decodeStepBoundary ..
  | .berthSliceArrive .. | .pauseComplete .. | .expirySweep | .slotLoadDone .. | .hmSlotUnloadForce ..
  | .sieveImageLoad .. | .contextStopDone .. | .contextSaveEnd .. | .contextRestoreEnd .. | .ttEntryCancel ..
  | .ttStart .. | .ttLateArrayFree .. | .ttEnd .. | .ttRingDoorbell .. | .fhUplaneRx .. | .agcSymbolUpdate ..
  | .prachOccasion .. | .fftJobDone .. | .dibberStore .. | .nrxCompletionWord .. | .fhPlanLoad .. | .fhPlanActivate
  | .dsJobCopy .. | .dsLdpcDec .. | .dsLdpcEnc .. | .dsPolarDec .. | .dsPolarEnc .. | .dsTbEnc .. | .dsTbDec ..
  | .dsJobLate .. | .dsCtrlAbort .. | .dsHarqFree .. | .dsHarqPrefetch .. | .harqSpill | .harqSpillDone ..
  | .zlLoadReq .. | .zlLoadRsp .. | .zlStore .. | .zlStoreAck .. | .zlAtomicReq .. | .zlAtomicRsp .. | .zlPutData ..
  | .zlPutAck .. | .zlGetReq .. | .zlGetData .. | .zlTrigger .. | .zlTrigAck .. | .egressSample .. | .pcieLinkDown
  | .perstAssert | .pfFlr | .vfFlr .. | .vfEnableClear | .bar2Write .. | .islandEntryBegin .. | .islandEntryDone ..
  | .islandExitDone .. | .islandShort .. | .sluiceTick .. | .inputLimitEmergency | .thermalTick .. | .thermalTrip ..
  | .sitePwrChange .. | .powerOn | .btResetWarm .. | .btResetCold .. | .configRecordDone | .romBootDone ..
  | .romExit .. | .bootWatchdog | .updStageDone .. | .hmAdoptDone | .stbyArm .. | .gsRelease .. | .smbWarmReset
  | .smbColdReset | .inputInvalid | .inputOvervoltage | .registerWrite .. | .fhRxWindowClose .. =>
    fun _ => True
  | .ringTransferInject .. | .bridgeDown .. | .clockDomainStop .. | .ocxoStable | .esCtrlEnable .. | .esCtrlStop ..
  | .esCtrlUnstop .. | .esAbortSettle .. | .esCtrlClrCnt .. | .esSPush .. | .esStageFetch .. | .esStageDataArrive ..
  | .esShadowValid .. | .esSwapBegin .. | .esOperandArrive .. | .esPassError .. | .esCntLoRead .. | .dlCtrlEnable ..
  | .dlCtrlStop .. | .dlCtrlUnstop .. | .dlCtrlResume .. | .dlCtrlClrCnt .. | .dlJPush .. | .dlActLoad ..
  | .dlCntLoRead .. | .eccWriteback .. | .bkCtrlClrEcc .. | .bkCtrlClrConf .. | .bkRuleWrite .. | .bkDrEnableWrite ..
  | .dredgeRegionStart .. | .dredgeCopyDone .. | .dredgeMarchDone .. | .dredgeRegionDone .. | .sqBadOpcode ..
  | .btRebuildStart | .hmBtStart .. | .btRebuildRestart | .hmSlotLoad .. | .hmSlotUnload .. | .slotDrainDone ..
  | .hmCkptWrite .. | .hmQuietWrite .. | .svStoreStart .. | .svRebuildStart | .svRebuildRestart | .quantumBoundary
  | .contextStop .. | .contextRestoreBegin .. | .cxQuantumWrite .. | .cxMarginWrite .. | .cxVfWrite ..
  | .ttReleaseDue .. | .fhCplaneRx .. | .agcFreezeEnd .. | .fhAgcRel .. | .fhAgcCfgWrite .. | .fhPortCfgWrite ..
  | .fftJobQueue .. | .dibberSymIrq .. | .dibberSlotIrq .. | .dibberReti .. | .dibberCmac .. | .dibberLaneOp ..
  | .dbCtrlReset .. | .dbCtrlRun .. | .slotConfigRx .. | .ulConfigLate .. | .dlConfigLate .. | .fhPlanUnload ..
  | .fhPlanCancel .. | .cellShed | .dsSqDoorbell .. | .dsCqHeadWrite .. | .dsNselRead .. | .dsCtrlEnable ..
  | .tdRawLoRead .. | .tdAdjRate .. | .tdAdjStep .. | .tdAdjSet .. | .tdSrcWrite .. | .tdFrameOfsWrite .. | .ptpRx ..
  | .ptpSyncTx .. | .ptpTcForward .. | .tcEntryExpire .. | .zlTimeFlit .. | .servoSourceLost .. | .servoSourceReturn ..
  | .strobeFire .. | .tdStbCfgWrite .. | .ppsOutPulse .. | .tdPpsCfgWrite .. | .captureEdge .. | .barrierArm ..
  | .barrierFire | .zlLinkCtrlWrite .. | .linkTrained .. | .linkLoss .. | .linkFlitReplay .. | .linkReplayLimit ..
  | .zlRequestIssue .. | .zlForward .. | .zlBadType .. | .zlCopyPut .. | .zlCopyGet .. | .zlFence ..
  | .zlRequestTimeout .. | .zlAtomicRetry .. | .zlAtomicFinal .. | .zlRcExpire .. | .zlTagRelease .. | .lockFlush ..
  | .zlQtInv .. | .zlQtInvDone | .zlQtSweep | .zlEnable .. | .zlBusyWindowEnd | .zlTimeoutWrite .. | .fhTxEnqueue ..
  | .zlTxEnqueue .. | .fhTxRelease .. | .fhTxDeadline .. | .egressTxEnd .. | .eqCfgWrite .. | .eqRateWrite ..
  | .eqHicredWrite .. | .pcieLinkTrained .. | .vfFlrComplete .. | .bar0BadAccess .. | .bar2Read ..
  | .sqTailDoorbell .. | .sqEntryFetch .. | .cqHeadWrite .. | .cqModTimer .. | .queueEnable .. | .queueDisable ..
  | .customsTranslate .. | .customsWalkReadDone .. | .cuInvRange .. | .cuInvInstance .. | .cuInvFunction ..
  | .cuInvAll .. | .cuInvDone | .cuCacheSweep | .cuCtrlWrite .. | .fatalError .. | .hmDetWrite .. | .detPropagated
  | .hmProvCfgWrite .. | .islandPfReq .. | .islandFwReq .. | .islandExitBegin .. | .islandRelease ..
  | .operatingPointChange .. | .emergencyClear | .boostHour | .throttleAssert .. | .throttleRelease | .romStart ..
  | .romBoot .. | .romRecord .. | .romRecordDone .. | .bootOkWrite .. | .salvageReqWrite .. | .updStage ..
  | .updDiscard .. | .updArm .. | .updDisarm .. | .updSwitch | .helmGive .. | .updAbandon | .helmBeat ..
  | .helmBeatTimeout | .marginEval .. | .marginMinReset .. | .hmAdopt .. | .stbyDisarm .. | .heartbeatSend ..
  | .standbyCheck .. | .hmTrcRdWrite .. | .hmTrcCfgWrite .. | .gsCaptureClose | .smbStatus .. | .smbModule
  | .smbDieSel .. | .smbDieId | .smbFwDigest | .smbStbyDigest | .smbMargin | .smbInvalidCommand .. | .inputDip
  | .tidePllLock | .perstDeassert | .pciPmStateWrite .. | .vfEnableSet | .lidClose | .uartRx .. =>
    fun _ => False

/-- The chapter of the spec whose rule the command's row of the table names. -/
def Instr.chapter (c : Instr) : Nat :=
  match c with
  | .registerWrite .. =>
    0
  | .ringTransferInject .. | .ringTransferDeliver .. | .bridgeDown .. | .clockDomainStop .. | .ocxoStable =>
    1
  | .dibberCmac .. | .dibberStore .. =>
    2
  | .esCtrlEnable .. | .esCtrlStop .. | .esCtrlUnstop .. | .esCtrlAbort .. | .esAbortSettle .. | .esCtrlResume ..
  | .esCtrlClrCnt .. | .esSPush .. | .esPPush .. | .esStageFetch .. | .esStageDataArrive .. | .esShadowValid ..
  | .esSwapBegin .. | .esPassStart .. | .esOperandArrive .. | .esRowWrite .. | .esPassDone .. | .esPassError ..
  | .esCntLoRead .. =>
    3
  | .dlCtrlEnable .. | .dlCtrlStop .. | .dlCtrlUnstop .. | .dlCtrlAbort .. | .dlCtrlResume .. | .dlCtrlClrCnt ..
  | .dlJPush .. | .dlActLoad .. | .dlJobStart .. | .dlJobDone .. | .dlJobError .. | .dlCntLoRead .. =>
    4
  | .bankAccess .. | .eccWriteback .. | .bankAtomic .. | .hbmAtomic .. | .bkCtrlClrEcc .. | .bkCtrlClrConf ..
  | .bkRuleWrite .. | .bkDrEnableWrite .. | .dredgeRegionStart .. | .dredgeCopyDone .. | .dredgeMarchDone ..
  | .dredgeRegionDone .. =>
    5
  | .descGemm .. | .descGemmBatched .. | .descConv1d .. | .descConvert .. | .descGatherGemm .. | .descRoutine ..
  | .descBadOpcode .. | .spanScan .. | .tileClaim .. | .operandStageCopy .. | .tileDone .. | .tileHandback ..
  | .handbackTake .. | .descriptorAbort .. =>
    6
  | .submit .. | .pause .. | .resume .. | .cancel .. | .touch .. | .sqBadOpcode .. | .promptReadDone ..
  | .prefillPlace .. | .prefillDone .. | .decodeStepBoundary .. | .decodeStepStart | .berthSliceArrive ..
  | .pullSourceError .. | .mirrorCopyDone .. | .checkpointCommit .. | .checkpointFail .. | .pauseComplete ..
  | .expirySweep | .manifestQuietEnd .. | .btRebuildStart | .hmBtStart .. | .btRebuildPassEnd | .btFlip
  | .btRebuildRestart | .hmSlotLoad .. | .slotLoadDone .. | .hmSlotUnload .. | .hmSlotUnloadForce ..
  | .slotDrainDone .. | .hmCkptWrite .. | .hmQuietWrite .. =>
    7
  | .rakeSelect .. | .sieveSelect .. | .specDraft .. | .specVerify .. | .sieveImageLoad .. | .svStoreStart ..
  | .svRebuildStart | .svRebuildPassEnd | .svStoreFlip | .svRebuildRestart =>
    8
  | .quantumBoundary | .contextStop .. | .contextStopDone .. | .contextSaveBegin .. | .contextSaveEnd ..
  | .contextRestoreBegin .. | .contextRestoreEnd .. | .cxQuantumWrite .. | .cxMarginWrite .. | .cxVfWrite ..
  | .ttEntrySubmit .. | .ttEntryCancel .. | .ttStopDue .. | .ttReleaseDue .. | .ttReady .. | .ttStart ..
  | .ttLateArrayFree .. | .ttEnd .. | .ttRingDoorbell .. =>
    9
  | .fhCplaneRx .. | .fhUplaneRx .. | .agcSymbolUpdate .. | .agcFreezeEnd .. | .fhAgcRel .. | .fhAgcCfgWrite ..
  | .fhPortCfgWrite .. | .prachOccasion .. | .fftJobQueue .. | .fftJobDone .. | .dibberSymIrq .. | .dibberSlotIrq ..
  | .dibberReti .. | .dibberLaneOp .. | .dbCtrlReset .. | .dbCtrlRun .. | .slotConfigRx .. | .ulConfigLate ..
  | .dlConfigLate .. | .nrxCompletionWord .. | .fhPlanLoad .. | .fhPlanUnload .. | .fhPlanCancel .. | .fhPlanActivate
  | .cellShed | .fhRxWindowClose .. =>
    10
  | .dsSqDoorbell .. | .dsCqHeadWrite .. | .dsJobCopy .. | .dsLdpcDec .. | .dsLdpcEnc .. | .dsPolarDec ..
  | .dsPolarEnc .. | .dsTbEnc .. | .dsTbDec .. | .dsNselRead .. | .dsJobLate .. | .dsCtrlAbort .. | .dsCtrlEnable ..
  | .dsHarqFree .. | .dsHarqPrefetch .. | .harqSpill | .harqSpillDone .. =>
    11
  | .tdRawLoRead .. | .tdAdjRate .. | .tdAdjStep .. | .tdAdjSet .. | .tdAdjApply | .tdSrcWrite ..
  | .tdFrameOfsWrite .. | .ptpRx .. | .ptpSyncTx .. | .ptpTcForward .. | .tcEntryExpire .. | .zlTimeFlit ..
  | .servoSourceLost .. | .servoSourceReturn .. | .strobeFire .. | .tdStbCfgWrite .. | .ppsOutPulse ..
  | .tdPpsCfgWrite .. | .captureEdge .. | .barrierArm .. | .barrierFire =>
    12
  | .zlLinkCtrlWrite .. | .linkTrained .. | .linkLoss .. | .linkFlitReplay .. | .linkReplayLimit ..
  | .zlRequestIssue .. | .zlForward .. | .zlLoadReq .. | .zlLoadRsp .. | .zlStore .. | .zlStoreAck ..
  | .zlAtomicReq .. | .zlAtomicRsp .. | .zlPutData .. | .zlPutAck .. | .zlGetReq .. | .zlGetData .. | .zlTrigger ..
  | .zlTrigAck .. | .zlBadType .. | .zlCopyPut .. | .zlCopyGet .. | .zlFence .. | .zlRequestTimeout ..
  | .zlAtomicRetry .. | .zlAtomicFinal .. | .zlRcExpire .. | .zlTagRelease .. | .lockFlush .. | .zlQtInv ..
  | .zlQtInvDone | .zlQtSweep | .zlEnable .. | .zlBusyWindowEnd | .zlTimeoutWrite .. =>
    13
  | .fhTxEnqueue .. | .zlTxEnqueue .. | .fhTxRelease .. | .fhTxDeadline .. | .egressSelect .. | .egressTxEnd ..
  | .egressSample .. | .eqCfgWrite .. | .eqRateWrite .. | .eqHicredWrite .. =>
    14
  | .pcieLinkTrained .. | .pcieLinkDown | .pfFlr | .vfFlr .. | .vfEnableClear | .vfFlrComplete .. | .bar0BadAccess ..
  | .bar2Read .. | .bar2Write .. | .sqTailDoorbell .. | .sqEntryFetch .. | .cqHeadWrite .. | .cqModTimer ..
  | .queueEnable .. | .queueDisable .. | .customsTranslate .. | .customsWalkReadDone .. | .cuInvRange ..
  | .cuInvInstance .. | .cuInvFunction .. | .cuInvAll .. | .cuInvDone | .cuCacheSweep | .cuCtrlWrite ..
  | .fatalError .. | .pciPmStateWrite .. | .vfEnableSet =>
    15
  | .hmDetWrite .. | .detPropagated | .hmProvCfgWrite .. =>
    16
  | .islandPfReq .. | .islandFwReq .. | .islandEntryBegin .. | .islandEntryDone .. | .islandExitBegin ..
  | .islandExitDone .. | .islandRelease .. | .islandShort .. | .sluiceTick .. | .operatingPointChange ..
  | .inputLimitEmergency | .emergencyClear | .thermalTick .. | .thermalTrip .. | .boostHour | .sitePwrChange ..
  | .throttleAssert .. | .throttleRelease =>
    17
  | .powerOn | .btResetWarm .. | .btResetCold .. | .romStart .. | .configRecordDone | .romBoot .. | .romBootDone ..
  | .romRecord .. | .romRecordDone .. | .romExit .. | .bootOkWrite .. | .bootWatchdog | .salvageReqWrite ..
  | .updStage .. | .updStageDone .. | .updDiscard .. | .updArm .. | .updDisarm .. | .updSwitch | .helmGive ..
  | .updAbandon | .helmBeat .. | .helmBeatTimeout | .lcRequest .. | .lcExitDebug .. | .tamperEvent .. | .tidePllLock
  | .lidClose =>
    18
  | .marginEval .. | .marginMinReset .. | .hmAdopt .. | .hmAdoptDone | .stbyArm .. | .stbyDisarm ..
  | .heartbeatSend .. | .standbyCheck .. =>
    19
  | .obsSample .. | .hmTrcRdWrite .. | .hmTrcCfgWrite .. | .gsArm .. | .gsFire | .gsCaptureClose | .gsRelease .. =>
    20
  | .perstAssert | .smbStatus .. | .smbModule | .smbDieSel .. | .smbDieId | .smbFwDigest | .smbStbyDigest
  | .smbMargin | .smbWarmReset | .smbColdReset | .smbInvalidCommand .. | .inputDip | .inputInvalid
  | .inputOvervoltage | .perstDeassert | .uartRx .. =>
    22

/-- What a command leaves: in every next state, the parts of the state that it does not touch, every register outside its
sets, and every byte of device memory outside what it may store to are as before. -/
def Frame (c : Instr) : Prop := ∀ s t : State, exec c s = .next t →
  Keeps c.touches s t ∧ RegsKept (fun o => ∃ r ∈ c.regSets, r.has o) s t ∧ MemKept (c.mayStore s) s t

end Sys2Proof
end

