-- ==== Sys2Proof/WellFormed.lean ====
section
/-! DEFINITION.  What the types of a command's operands do not say: lengths and ranges.  A command that breaks a check
names nothing that the module or the world can send; exec is total on it all the same. -/

namespace Sys2Proof

/-- R209, R210: a PRB holds 24 mantissas of at most 16 bits, the widest IQ width. -/
def Machine.PrbData.wf (p : Machine.PrbData) : Bool :=
  p.m.length == 24 && p.m.all (fun x => decide (-(2 ^ 15) ≤ x) && decide (x < 2 ^ 15))

/-- R290: the data of a message is at most 4,096 bytes. -/
def Machine.ZlFrame.wf (f : Machine.ZlFrame) : Bool := decide (f.data.length ≤ 4096)

/-- R291: a store moves 1 to 4,096 bytes, a load at least one. -/
def Machine.ZlOp.wf (r : Machine.ZlOp) : Bool :=
  match r with
  | .load _ len => decide (0 < len.val)
  | .store _ data => decide (0 < data.length) && decide (data.length ≤ 4096)
  | .atomic _ _ _ _ | .trigger _ _ => true

/-- R449: a tensor's bytes are its rows and then its scale plane. -/
def Machine.DumpData.wf (d : Machine.DumpData) : Bool := d.data.length == d.rows * (d.rowBytes + d.scaleBytes)

/-- R173, R166: logits come one per token of the vocabulary, as the slot record counts it; never none. -/
def logitsWf (l : List Word) : Bool := decide (0 < l.length) && decide (l.length ≤ 2 ^ 18)

/-- The checks of a command's operands. -/
def Instr.wf (c : Instr) : Bool :=
  match c with
  | .ringTransferInject src dst _ _ => src != dst
  | .fhUplaneRx _ _ _ _ _ _ _ _ _ _ startPrb prbs _ => decide (startPrb.val + prbs.length ≤ 273) && prbs.all (·.wf)
  | .thermalTick temps => temps.length == 10
  | .dredgeMarchDone _ fails => decide (fails.length ≤ 512 * 72)
  | .prefillDone _ logits dumps => logitsWf logits && dumps.all (·.wf)
  | .decodeStepBoundary dumps => dumps.all (·.wf)
  | .rakeSelect _ logits | .sieveSelect _ logits => logitsWf logits
  | .specDraft _ logits | .specVerify _ logits => logits.all logitsWf
  | .zlRequestIssue _ _ _ r => r.wf
  | .zlForward _ f | .zlLoadReq _ f | .zlLoadRsp _ f | .zlStore _ f _ | .zlStoreAck _ f | .zlAtomicReq _ f
  | .zlAtomicRsp _ f | .zlPutData _ f _ | .zlPutAck _ f | .zlGetReq _ f | .zlGetData _ f | .zlTrigger _ f
  | .zlTrigAck _ f | .zlBadType _ f => f.wf
  | .bar2Write o data _ => decide (0 < data.length) && decide (o.toNat % 4096 + data.length ≤ 4096)
  | .smbInvalidCommand _ data => decide (data.length ≤ 32)
  | .registerWrite _ o _ => o.toNat % 4 == 0
  | _ => true

end Sys2Proof
end

