-- ==== Sys2Proof/Certificates/Slice0/Obligations.lean ====
section
/-! DEFINITION.  What the provers are asked: what the commands of each chapter do, what they leave, and what every step
keeps. -/

open Sys2Proof Sys2Proof.Machine

/-- A ring transfer takes the fixed shorter route. A transfer injected between two different dies, while MOOR runs, the BASE
islands of the two dies are ON, its issuer is not halted and no bridge of its route is down, is put on the ring behind the
others with its issuer, its class and its route: the direction with fewer hops, and where both directions take five hops,
clockwise from an even position and counter-clockwise from an odd one. The route depends on nothing but the two dies, so
no load changes it. (R16.) -/
def Obligations.RingRoute : Prop :=
  ∀ (s : State) (a b : Die) (m : Fin 512) (kind : RingTraffic) (payload : List Byte), a ≠ b →
    ClkDomain.moor ∈ s.clk.running → s.dieOn a = true → s.dieOn b = true → s.masterHalted m = false →
    (∀ p ∈ ringBridges a b, p ∉ s.ring.down) →
    Runs (.ringTransferInject a b ⟨m, kind⟩ payload) s (fun t => ∃ x : Transfer,
      t.ring.flight = s.ring.flight ++ [x] ∧ x.src = a ∧ x.dst = b ∧ x.master = m ∧ x.cls = kind.cls ∧
      x.payload = payload ∧ x.made = 0 ∧
      (let up := (b.position + 10 - a.position) % 10
       (up < 5 → x.clockwise = true ∧ x.hops = up) ∧
       (5 < up → x.clockwise = false ∧ x.hops = 10 - up) ∧
       (up = 5 → x.hops = 5 ∧ (x.clockwise = true ↔ a.position % 2 = 0))))

/-- What the ring, the bridges, the clocks and the PLLs do. With no stop, the oldest transfer of a pair and class is the one
delivered, all others stay on the ring in their order, and it has made its hops; a grant at a stop goes to a RADIO
transfer that waits there before one of CONTROL and to CONTROL before BULK; a bridge that fails is down and raises fatal
cause 1 for no single die (0xFF); an on-demand domain none of whose islands is ON or on its way there stops alone (RDC
only while no plan is loaded); AON switches to the OCXO; once powered and on the OCXO the PLLs lock, with the raw counter
and C at 0 and TIDE, MOOR, PILOT and PCIE running. The completion statement of these commands. (R17, R19, R25, R26,
R264.) -/
def Obligations.PackageEvents : Prop :=
  (∀ (s : State) (a b : Die) (cls : RingClass) (cor : List (Fin 10)) (l r : List Transfer) (x : Transfer),
    s.ring.flight = l ++ x :: r → (∀ y ∈ l, y.isOf a b cls = false) → x.isOf a b cls = true → s.obs.stopped = false →
    Runs (.ringTransferDeliver a b cls cor) s (fun t =>
      t.ring.flight.map (fun y => { y with made := 0 }) = (l ++ r).map (fun y => { y with made := 0 }) ∧
      t.ring.arrived = s.ring.arrived ++ [{ x with made := x.hops }])) ∧
  (∀ (r : Ring) (p : Nat) (cw : Bool) (i : Nat) (transit : Bool),
    (r.pickOf p cw .radio = some (i, transit) ∨
      (r.pickOf p cw .radio = none ∧ r.pickOf p cw .control = some (i, transit)) ∨
      (r.pickOf p cw .radio = none ∧ r.pickOf p cw .control = none ∧ r.pickOf p cw .bulk = some (i, transit))) →
    (r.grant p cw).flight = lmod r.flight i (fun t => { t with made := t.made + 1 })) ∧
  (∀ (s : State) (p : Fin 10), Safe s → s.fatal = false →
    Runs (.bridgeDown p) s (fun t => p.val ∈ t.ring.down ∧ t.fatal = true ∧
      t.regN (btBlock + 0x300) = 2 ^ 31 + 0xFF * 2 ^ 16 + 1)) ∧
  (∀ (s : State) (d : ClkDomain), d.always = false → s.domainUsed d = false → (d = .rdc → s.planLoaded = false) →
    Runs (.clockDomainStop d) s (fun t =>
      d ∉ t.clk.running ∧ ∀ x, x ≠ d → (x ∈ t.clk.running ↔ x ∈ s.clk.running))) ∧
  (∀ s : State, exec .ocxoStable s = .next { s with clk := { s.clk with ocxo := true } }) ∧
  (∀ s : State, s.boot.powered = true → s.clk.ocxo = true → s.clk.tideLock = false →
    Runs .tidePllLock s (fun t => t.clk.tideLock = true ∧ t.clk.refOut = true ∧ t.td.raw = 0 ∧ t.now = 0 ∧
      ∀ d ∈ [ClkDomain.tide, .moor, .pilot, .pcie], d ∈ t.clk.running))

/-- What a write of an Espalier's control registers does. For a Pilot core of the array's die that acts: ENABLE and IRQ_CORE
hold what was written, and ENABLE = 1 after an ABORT returns to IDLE with ERR_CODE 0; STOP holds what was written; ABORT
empties both FIFOs, the port and both buffers, ends the passes that ran, clears ERR_CODE and sets PUSHED to DONE, after
which the pushes that waited enter; RESUME in ERROR clears ERR_CODE, keeps the pass FIFO and counts the failed pass in DONE
(not after an ABORT); CLR_CNT clears the counters; a push outside ERROR enters its FIFO where there is room and else waits
behind the ones that wait, and PUSHED advances with each pass that enters; a push in ERROR is discarded. A read of a
counter's low half latches its high half. The completion statement of these commands. (R69, R70, R71, R73, R75, R442.) -/
def Obligations.EspalierControl : Prop :=
  (∀ (s : State) (m : Agent) (g : Fin 84), Safe s → Drives m (arrayDie g) s →
    (∀ (on : Bool) (k : BitVec 2), Runs (.esCtrlEnable m g on k) s (fun t =>
      t.esEnable g = on ∧ t.regB (esReg g 0) 5 4 = k.toNat ∧ t.esStop g = s.esStop g ∧
      (on = true → (s.esOf g).halt = .aborted → (t.esOf g).halt = .none ∧ (t.esOf g).errCode = 0))) ∧
    Runs (.esCtrlStop m g) s (fun t => t.esStop g = true ∧ t.esEnable g = s.esEnable g) ∧
    Runs (.esCtrlUnstop m g) s (fun t => t.esStop g = false ∧ t.esEnable g = s.esEnable g) ∧
    (∀ waited : Nat, Runs (.esCtrlAbort m ⟨g, waited⟩) s (fun t =>
      let e := (s.esOf g).held (s.esGoes g) waited
      t.esOf g = ({ e with
        sfifo := [], pfifo := [], again := [], fetching := false, port := none, shadow := none, active := none
        swapping := false, runs := [], halt := .aborting (e.oldest (s.esGoes g)), errCode := 0
        pushed := e.done } : EsArray).refill)) ∧
    ((s.esOf g).halt = .error → Runs (.esCtrlResume m g) s (fun t =>
      (t.esOf g).halt = .none ∧ (t.esOf g).errCode = 0 ∧ (t.esOf g).pfifo = (s.esOf g).pfifo ∧
      (t.esOf g).done = if (s.esOf g).errCode = 7 then (s.esOf g).done else ((s.esOf g).done + 1) % 65536)) ∧
    Runs (.esCtrlClrCnt m g) s (fun t => ∀ c < 4, (t.esOf g).counter c = 0) ∧
    ((s.esOf g).halt ≠ .error →
      Runs (.esSPush m g) s (fun t =>
        t.esOf g = ({ s.esOf g with sStall := (s.esOf g).sStall ++ [esStageRegs s g] } : EsArray).refill ∧
        (t.esOf g).sfifo ++ (t.esOf g).sStall = (s.esOf g).sfifo ++ (s.esOf g).sStall ++ [esStageRegs s g]) ∧
      Runs (.esPPush m g) s (fun t =>
        t.esOf g = ({ s.esOf g with pStall := (s.esOf g).pStall ++ [esPassRegs s g] } : EsArray).refill ∧
        ((s.esOf g).pStall = [] → (s.esOf g).pfifo.length < 8 →
          (t.esOf g).pushed = ((s.esOf g).pushed + 1) % 65536 ∧
          (t.esOf g).pfifo = (s.esOf g).pfifo ++ [{ esPassRegs s g with seq := ((s.esOf g).pushed + 1) % 65536 }]))) ∧
    ((s.esOf g).halt = .error → exec (.esSPush m g) s = .next s ∧ exec (.esPPush m g) s = .next s)) ∧
  (∀ (s : State) (m : Agent) (g : Fin 84) (c : Fin 4), Safe s → (s.isPf m || s.coreMayWrite m (arrayDie g)) = true →
    Runs (.esCntLoRead m g c) s (fun t =>
      (t.esOf g).latch = lmod (s.esOf g).latch c (fun _ => (s.esOf g).counter c / 2 ^ 32)))

/-- How an Espalier's weights come to be stationary, and how an ABORT settles. While the array is not halted: where the
sequencer may start work, the fetch of the stage at the head begins with an empty port; while the island is ON the port
then takes the tile that memory holds, and the fetch is over; with a tile in the port and the shadow buffers free the
shadow set becomes that tile, the port is empty, and the stage leaves the FIFO for the next ones to move up; where the
sequencer may start work and no pass awaits operands, the swap of the head SWAP pass makes the shadow tile the active
one, leaves the shadow empty, and adds its wait and 32 cycles to ES_CNT_SWAP; and an ABORT settles in STOPPED, or in ERROR
with code ABORTED and the pass and row that it recorded. The completion statement of these commands. (R61, R65, R66, R73,
R75.) -/
def Obligations.EspalierStages : Prop :=
  ∀ (s : State) (g : Fin 84), Safe s → s.halted (arrayUnit g) = false →
    (s.esGoes g = true → (s.esOf g).fetching = false → (s.esOf g).port = none → (s.esOf g).headStage.isSome = true →
      exec (.esStageFetch g) s = .next (s.setEs g { s.esOf g with fetching := true })) ∧
    (∀ st, (s.esOf g).headStage = some st → s.islOn (arrayIsland g) = true → (s.esOf g).fetching = true →
      Runs (.esStageDataArrive g) s (fun t =>
        (t.esOf g).port = some (s.readTile g st) ∧ (t.esOf g).fetching = false)) ∧
    (∀ tile, s.islOn (arrayIsland g) = true → (s.esOf g).port = some tile → (s.esOf g).shadow = none →
      ((s.esOf g).swapping = false ∨ s.esGoes g = false) → (s.esOf g).headStage.isSome = true →
      Runs (.esShadowValid g) s (fun t =>
        (t.esOf g).shadow = some tile ∧ (t.esOf g).port = none ∧
        (t.esOf g).again ++ (t.esOf g).sfifo ++ (t.esOf g).sStall =
          ((s.esOf g).again ++ (s.esOf g).sfifo ++ (s.esOf g).sStall).drop 1)) ∧
    (∀ (p : EsPass) rest tile (waited : Nat), (s.esOf g).pfifo = p :: rest → s.esGoes g = true → p.wAction = 1 →
      (s.esOf g).swapping = false → (s.esOf g).shadow = some tile → (∀ r ∈ (s.esOf g).runs, r.waiting = false) →
      Runs (.esSwapBegin g waited) s (fun t =>
        (t.esOf g).active = some tile ∧ (t.esOf g).shadow = none ∧ (t.esOf g).swapping = true ∧
        (t.esOf g).cntSwap = ((s.esOf g).cntSwap + waited + 32) % 2 ^ 64)) ∧
    ((s.esOf g).halt = .aborting none → Runs (.esAbortSettle g) s (fun t => (t.esOf g).halt = .aborted)) ∧
    (∀ seq row, (s.esOf g).halt = .aborting (some (seq, row)) → Runs (.esAbortSettle g) s (fun t =>
      (t.esOf g).halt = .error ∧ (t.esOf g).errCode = 7 ∧ (t.esOf g).errSeq = seq ∧ (t.esOf g).errRow = row))

/-- How a pass runs on an Espalier. While the array is not halted, and where the sequencer may start work, no earlier pass
awaits operands and a SWAP pass has had its swap: the head pass leaves the pass FIFO; where its checks find nothing it runs
with the active tile, has read the rows up to the one it has to wait for as memory holds them, and their injection cycles
are added to ES_CNT_BUSY; where a check fails the sequencer is in ERROR with the check's code, the pass and row 0, and DONE
is as it was. While the island is ON, awaited operand data is read when it arrives, up to the pass's end or to the next
row it has to wait for, and the wait is added to ES_CNT_OPER; rows that have been read and meet no error are written by
State.writeRow, their saturations added to ES_CNT_SAT. A pass whose last row is written is counted in DONE and no longer
runs. A row that meets an error stops the sequencer in ERROR with the error's code, the pass and the first unwritten row
recorded, and DONE and the pass FIFO as they were. The completion statement of these commands. (R58, R63, R64, R70, R71,
R72, R75, R442.) -/
def Obligations.EspalierPasses : Prop :=
  ∀ (s : State) (g : Fin 84), Safe s → s.halted (arrayUnit g) = false →
    (∀ (p : EsPass) rest tile (waits : Option (Fin 65536)), (s.esOf g).pfifo = p :: rest → (s.esOf g).pStall = [] →
      (s.esOf g).active = some tile → s.passStartCode g p (some tile) = 0 → s.esGoes g = true →
      (p.wAction ≠ 1 ∨ (s.esOf g).swapping = true) → (∀ r ∈ (s.esOf g).runs, r.waiting = false) →
      Runs (.esPassStart g waits) s (fun t =>
        (t.esOf g).pfifo = rest ∧
        (t.esOf g).cntBusy = ((s.esOf g).cntBusy + p.injects 0 (p.waitRow waits)) % 2 ^ 64 ∧
        (t.esOf g).runs = (s.esOf g).runs ++ [{ pass := p, tile := tile, upto := p.waitRow waits
                                                rows := s.readRows g p tile.stage.kAct 0 (p.waitRow waits) }])) ∧
    (∀ (p : EsPass) rest (waits : Option (Fin 65536)), (s.esOf g).pfifo = p :: rest → (s.esOf g).pStall = [] →
      s.passStartCode g p (s.esOf g).active ≠ 0 → s.esGoes g = true →
      (p.wAction ≠ 1 ∨ (s.esOf g).swapping = true) → (∀ r ∈ (s.esOf g).runs, r.waiting = false) →
      Runs (.esPassStart g waits) s (fun t =>
        (t.esOf g).pfifo = rest ∧ (t.esOf g).halt = .error ∧
        (t.esOf g).errCode = s.passStartCode g p (s.esOf g).active ∧
        (t.esOf g).errSeq = p.seq ∧ (t.esOf g).errRow = 0 ∧ (t.esOf g).done = (s.esOf g).done)) ∧
    (∀ (r : EsRun) (cycles : Nat) (waits : Option (Fin 65536)), (s.esOf g).runs.find? (·.waiting) = some r →
      s.islOn (arrayIsland g) = true → Runs (.esOperandArrive g ⟨cycles, waits⟩) s (fun t =>
        let hi := if r.upto < r.pass.waitRow waits then r.pass.waitRow waits else r.pass.m
        (t.esOf g).runs = lmodFirst (·.waiting) (fun q => { q with
          upto := hi, rows := q.rows ++ s.readRows g q.pass r.tile.stage.kAct q.upto hi }) (s.esOf g).runs ∧
        (t.esOf g).cntOper = ((s.esOf g).cntOper + cycles) % 2 ^ 64)) ∧
    (∀ (r : EsRun) (lost : List PAddr), (s.esOf g).writer = some r → s.islOn (arrayIsland g) = true →
      (∀ m ∈ r.group, m < r.upto ∧ s.rowError g r m = none) → Runs (.esRowWrite ⟨g, lost⟩) s (fun t =>
        let x := r.group.foldl (fun (y : State × Nat) m =>
          ((y.1.writeRow g r m lost).1, y.2 + (y.1.writeRow g r m lost).2)) (s, 0)
        t.mem = x.1.mem ∧ (t.esOf g).cntSat = min (2 ^ 64 - 1) ((s.esOf g).cntSat + x.2) ∧
        (t.esOf g).runs = lmodFirst (fun q => decide (q.written < q.pass.m))
          (fun q => { q with written := q.written + r.group.length }) (s.esOf g).runs)) ∧
    (∀ r rest, (s.esOf g).runs = r :: rest → r.pass.m ≤ r.written → Runs (.esPassDone g) s (fun t =>
      (t.esOf g).done = ((s.esOf g).done + 1) % 65536 ∧ (t.esOf g).runs = rest)) ∧
    (∀ r code rest, (s.esOf g).writer = some r → r.group.filterMap (s.rowError g r) = code :: rest →
      (∀ m ∈ r.group, m < r.upto) → (s.esOf g).halt = .none → Runs (.esPassError g) s (fun t =>
        (t.esOf g).halt = .error ∧ (t.esOf g).errCode = code ∧ (t.esOf g).errRow = r.written ∧
        (t.esOf g).errSeq = r.pass.seq ∧ (t.esOf g).done = (s.esOf g).done ∧ (t.esOf g).pfifo = (s.esOf g).pfifo))

/-- A command of one Espalier leaves every other array alone. Every command of array g leaves every other array's sequencer,
FIFOs and weight buffers as they were, and changes no register but the array's ES_CTRL, the registers of the bank pages, in
which an ECC error that its reads meet and a collision that its writes lose are counted, HI_ERR_CAUSE and HI_BAR2_COLL. With
the frame of chapter 03 this says what these commands leave. (R59, R69, R70, R102, R109.) -/
def Obligations.EspalierAlone : Prop :=
  ∀ (s t : State) (m : Agent) (g : Fin 84) (c : Instr),
    ((∃ on k, c = .esCtrlEnable m g on k) ∨ c = .esCtrlStop m g ∨ c = .esCtrlUnstop m g ∨
      (∃ w, c = .esCtrlAbort m ⟨g, w⟩) ∨ c = .esAbortSettle g ∨ c = .esCtrlResume m g ∨ c = .esCtrlClrCnt m g ∨
      c = .esSPush m g ∨ c = .esPPush m g ∨ c = .esStageFetch g ∨ c = .esStageDataArrive g ∨ c = .esShadowValid g ∨
      (∃ w, c = .esSwapBegin g w) ∨ (∃ w, c = .esPassStart g w) ∨ (∃ w, c = .esOperandArrive g w) ∨
      (∃ l, c = .esRowWrite ⟨g, l⟩) ∨ c = .esPassDone g ∨ c = .esPassError g ∨ ∃ k, c = .esCntLoRead m g k) →
    exec c s = .next t →
    (∀ x, x ≠ g.val → t.esOf x = s.esOf x) ∧
    RegsKept (fun o => o = esReg g 0 ∨ (bkBlock ≤ o ∧ o < bkBlock + 0xA0000) ∨ o = hiBlock + 0x00C ∨
      o = hiBlock + 0x020) s t

/-- A row write stores in its rows' destinations and nowhere else. For a running pass whose formats passed the checks of its
start: when rows are written, whichever of their words lose a collision, every byte of memory outside the destination
ranges of those rows (and outside the 16-byte header of an LPS destination) reads as before. Ranges are those the pass
computes; an address names the storage key that its bank group's mode selects. (R43, R61, R62, R64, R102.) -/
def Obligations.EspalierStores : Prop :=
  ∀ (s t : State) (g : Fin 84) (r : EsRun) (o : Fmt) (lost : List PAddr),
    (s.esOf g).writer = some r → r.pass.formatBad = false → r.pass.tileBad r.tile.stage = false →
    Fmt.ofCode r.pass.oFmt = some o → exec (.esRowWrite ⟨g, lost⟩) s = .next t →
    MemKept (fun k =>
      (∃ m ∈ r.group, ∃ i < (r.pass.dstRange o r.tile.stage.nAct m).2,
        k = s.key ((r.pass.dstRange o r.tile.stage.nAct m).1 + i)) ∨
      (o = .lps ∧ ∃ i < 16, k = s.key (r.pass.dst + i))) s t

/-- What the Drip sequencer of a generation die does. For a Pilot core of the die that acts: ENABLE and IRQ_CORE hold what was
written, and ENABLE = 1 after an ABORT returns to IDLE; STOP holds what was written; ABORT empties the job FIFO and both
slot sets and sets PUSHED to DONE, after which the pushes that waited enter, and stops the sequencer, in ERROR with code
ABORTED where a job ran; RESUME in ERROR clears ERR_CODE and counts the failed job in DONE (not after an ABORT); CLR_CNT
clears the counters; a push outside ERROR enters the FIFO where there is room, PUSHED advancing, and else waits; a push in
ERROR is discarded. A read of a counter's low half latches its high half. While the die is not halted, and where the
sequencer may start work: the head job's vectors are loaded as memory holds them; the loaded head job starts where its
checks find nothing, its lane-read cycles added to DL_CNT_BUSY; where a check fails the sequencer is in ERROR with code,
group and job, and an LPS_MISMATCH leaves memory as it is. A running job without an error is counted in DONE; one that
meets an error stops the sequencer in ERROR with code, group and job, DONE as it was. The completion statement of these
commands. (R45, R71, R73, R75, R83, R85, R86, R87.) -/
def Obligations.DripCommands : Prop :=
  (∀ (s : State) (m : Agent) (n : Fin 4), Safe s → Drives m (.gd n) s →
    (∀ (on : Bool) (k : BitVec 1), Runs (.dlCtrlEnable m n on k) s (fun t =>
      t.regBit (dlReg n 0) 0 = on ∧ t.regB (dlReg n 0) 4 4 = k.toNat ∧
      (on = true → (s.dlOf n).halt = .aborted → (t.dlOf n).halt = .none ∧ (t.dlOf n).errCode = 0))) ∧
    Runs (.dlCtrlStop m n) s (fun t => t.regBit (dlReg n 0) 2 = true) ∧
    Runs (.dlCtrlUnstop m n) s (fun t => t.regBit (dlReg n 0) 2 = false) ∧
    Runs (.dlCtrlAbort m n) s (fun t =>
      (t.dlOf n).loaded = none ∧ (t.dlOf n).run = none ∧ (t.dlOf n).done = (s.dlOf n).done ∧
      ((s.dlOf n).jStall = [] → (t.dlOf n).jfifo = [] ∧ (t.dlOf n).pushed = (s.dlOf n).done % 65536) ∧
      (∀ q rest, (s.dlOf n).jStall = q :: rest →
        (t.dlOf n).jfifo.head? = some { q with seq := ((s.dlOf n).done + 1) % 65536 }) ∧
      ((s.dlOf n).run = none → (t.dlOf n).halt = .aborted ∧ t.mem = s.mem) ∧
      (∀ j vs, (s.dlOf n).run = some (j, vs) →
        (t.dlOf n).halt = .error ∧ (t.dlOf n).errCode = 7 ∧ (t.dlOf n).errSeq = j.seq)) ∧
    ((s.dlOf n).halt = .error → Runs (.dlCtrlResume m n) s (fun t =>
      (t.dlOf n).halt = .none ∧ (t.dlOf n).errCode = 0 ∧ (t.dlOf n).jfifo = (s.dlOf n).jfifo ∧
      (t.dlOf n).done = if (s.dlOf n).errCode = 7 then (s.dlOf n).done else ((s.dlOf n).done + 1) % 65536)) ∧
    Runs (.dlCtrlClrCnt m n) s (fun t => (t.dlOf n).cntBusy = 0 ∧ (t.dlOf n).cntWait = 0) ∧
    ((s.dlOf n).halt ≠ .error → Runs (.dlJPush m n) s (fun t =>
      t.dlOf n = ({ s.dlOf n with jStall := (s.dlOf n).jStall ++ [dlJobRegs s n] } : DripSeq).refill ∧
      ((s.dlOf n).jStall = [] → (s.dlOf n).jfifo.length < 8 →
        (t.dlOf n).pushed = ((s.dlOf n).pushed + 1) % 65536 ∧
        (t.dlOf n).jfifo = (s.dlOf n).jfifo ++ [{ dlJobRegs s n with seq := ((s.dlOf n).pushed + 1) % 65536 }]))) ∧
    ((s.dlOf n).halt = .error → exec (.dlJPush m n) s = .next s)) ∧
  (∀ (s : State) (m : Agent) (n : Fin 4) (c : Fin 2), Safe s → (s.isPf m || s.coreMayWrite m (.gd n)) = true →
    Runs (.dlCntLoRead m n c) s (fun t => (t.dlOf n).latch = lmod (s.dlOf n).latch c
      (fun _ => (if c.val = 0 then (s.dlOf n).cntBusy else (s.dlOf n).cntWait) / 2 ^ 32))) ∧
  (∀ (s : State) (n : Fin 4), Safe s → s.halted .inference = false →
    (∀ j rest, (s.dlOf n).jfifo = j :: rest → s.dlGoes n = true → (s.dlOf n).loaded = none →
      Runs (.dlActLoad n) s (fun t => (t.dlOf n).loaded = some (s.readVecs n j) ∧ t.mem = s.mem)) ∧
    (∀ j rest vs (w : Nat), (s.dlOf n).jfifo = j :: rest → (s.dlOf n).jStall = [] → (s.dlOf n).loaded = some vs →
      s.dlGoes n = true → (s.dlOf n).run = none → (s.jobStartCode n j).1 = 0 → Runs (.dlJobStart n w) s (fun t =>
        (t.dlOf n).run = some (j, vs) ∧ (t.dlOf n).jfifo = rest ∧ (t.dlOf n).loaded = none ∧
        (t.dlOf n).cntBusy = ((s.dlOf n).cntBusy + j.readCycles) % 2 ^ 64 ∧ t.mem = s.mem)) ∧
    (∀ j rest vs (w : Nat), (s.dlOf n).jfifo = j :: rest → (s.dlOf n).loaded = some vs → s.dlGoes n = true →
      (s.dlOf n).run = none → (s.jobStartCode n j).1 ≠ 0 → Runs (.dlJobStart n w) s (fun t =>
        (t.dlOf n).halt = .error ∧ (t.dlOf n).errCode = (s.jobStartCode n j).1 ∧
        (t.dlOf n).errGroup = (s.jobStartCode n j).2 ∧ (t.dlOf n).errSeq = j.seq ∧ (t.dlOf n).run = none ∧
        ((s.jobStartCode n j).1 = 5 → t.mem = s.mem))) ∧
    (∀ j vs a w o, (s.dlOf n).run = some (j, vs) → s.jobError n j vs = none → Fmt.ofCode j.aFmt = some a →
      Fmt.ofCode j.wFmt = some w → Fmt.ofCode j.oFmt = some o → Runs (.dlJobDone n) s (fun t =>
        (t.dlOf n).run = none ∧ (t.dlOf n).done = ((s.dlOf n).done + 1) % 65536)) ∧
    (∀ j vs code g, (s.dlOf n).run = some (j, vs) → s.jobError n j vs = some (code, g) → Runs (.dlJobError n) s (fun t =>
      (t.dlOf n).run = none ∧ (t.dlOf n).halt = .error ∧ (t.dlOf n).errCode = code ∧ (t.dlOf n).errGroup = g ∧
      (t.dlOf n).errSeq = j.seq ∧ (t.dlOf n).done = (s.dlOf n).done)))

/-- What the bank page's writes and the Dredge do. For an agent that may write the page and acts: CLR_ECC and CLR_CONF clear
their counts; each rule field takes the value written but for 0b11, which keeps it; ENABLE of the Dredge holds what was
written. The writeback of a word with corrected data is done once and leaves its bytes. With no stop and ENABLE, an idle
Dredge takes the next region into its copy phase with an empty shadow, at once where none was started before and otherwise
no sooner than BK_DR_PACE after the last start; a region that cannot be tested is skipped and counted in BK_DR_SKIP. Its
copy leaves every word of the region in the shadow and begins the march; the march reports each failing word and begins
the restore; the restore ends with the shadow empty and the cursor moved on, and no byte of memory is changed by a copy or
a restore. The completion statement of these commands. (R98, R100, R110, R112, R113, R114, R115, R442.) -/
def Obligations.BankControl : Prop :=
  (∀ (s : State) (m : Agent) (d : Die), Safe s → Acts m s → s.bkMayWrite m d = true →
    Runs (.bkCtrlClrEcc m d) s (fun t => t.regN (bkReg d 0x0100) = 0 ∧ t.regN (bkReg d 0x0104) = 0) ∧
    Runs (.bkCtrlClrConf m d) s (fun t => t.regN (bkReg d 0x0008) = 0 ∧ t.regN (bkReg d 0x0300) = 0 ∧
      t.regN (bkReg d 0x0304) = 0 ∧ t.regN (bkReg d 0x0308) = 0 ∧
      ∀ k < 512, t.regN (bkReg d (0x8000 + 4 * k)) = 0 ∧ t.regN (bkReg d (0x8800 + 4 * k)) = 0) ∧
    (∀ (i : Fin 192) (v : Word), i.val < ruleRegs d → Runs (.bkRuleWrite m d i v) s (fun t =>
      ∀ k < 16, t.bankRule d (16 * i.val + k) =
        if v.toNat / 4 ^ k % 4 = 3 then s.bankRule d (16 * i.val + k) else v.toNat / 4 ^ k % 4)) ∧
    (∀ on, Runs (.bkDrEnableWrite m d on) s (fun t => t.regBit (bkReg d 0x0200) 0 = on))) ∧
  (∀ (s : State) (d : Die) (bank : Fin 12288) (word : Fin 32768), bank.val < bankCount d →
    wordKey d bank word ∈ s.bk.writeback → Runs (.eccWriteback d bank word) s (fun t =>
      wordKey d bank word ∉ t.bk.writeback ∧ t.mem = s.mem)) ∧
  (∀ (s : State) (d : Die), tsorted 0 s.bk.dredge = true → s.halted .inference = false → s.dieOn d = true →
    s.regBit (bkReg d 0x0200) 0 = true → (s.dredgeOf d).phase = .idle →
    (let due := (s.dredgeOf d).lastStart + ceilDiv (s.regB (bkReg d 0x0204) 15 0 * 98304) 10
     let r := if (s.dredgeOf d).started then s.reachRaw due else s
     ((s.dredgeOf d).started = true → due ≤ r.td.raw) →
     (s.dredgeable d (s.dredgeNext d) = true → Runs (.dredgeRegionStart d) s (fun t =>
       t.dredgeOf d =
         { s.dredgeNext d with phase := .copy, shadow := [], started := true, lastStart := t.td.raw } ∧
       ((s.dredgeOf d).started = true → due ≤ t.td.raw))) ∧
     (s.dredgeable d (s.dredgeNext d) = false → Runs (.dredgeRegionStart d) s (fun t =>
       t.dredgeOf d = ((s.dredgeNext d).advance d).1 ∧
       (tsorted 0 s.regs = true → t.reg (bkReg d 0x0210) = satAdd (s.reg (bkReg d 0x0210)) 1))))) ∧
  (∀ (s : State) (d : Die), tsorted 0 s.bk.dredge = true → s.halted .inference = false →
    ((s.dredgeOf d).phase = .copy → Runs (.dredgeCopyDone d) s (fun t =>
      (t.dredgeOf d).phase = .march ∧ (∀ i < 512, i ∈ (t.dredgeOf d).shadow) ∧ t.mem = s.mem)) ∧
    (∀ fails : List MarchFail, (s.dredgeOf d).phase = .march →
      exec (.dredgeMarchDone d fails) s = .next ((failedWords fails).foldl (fun u f => u.marchFailed d (s.dredgeOf d) f)
        (s.setDredge d { s.dredgeOf d with phase := .restore }))) ∧
    ((s.dredgeOf d).phase = .restore → Runs (.dredgeRegionDone d) s (fun t =>
      t.dredgeOf d = ({ s.dredgeOf d with
        phase := .idle, shadow := []
        owed := (s.dredgeOf d).owed.filter (· ≠ ((s.dredgeOf d).bank, (s.dredgeOf d).region)) : Dredge }.advance d).1 ∧
      (t.dredgeOf d).shadow = [] ∧ t.mem = s.mem)))

/-- What a bank answers to an access and to an atomic. For a request of a master that issues, to a word without errors that
it reaches, which no flip meets and which its port serves among the requests that wait, with no rival: a read answers OK
and the word; a full write answers OK and stores it; an atomic answers OK and the prior value and stores the operation's
result in the half or the word its address names; a reserved opcode or a misaligned address is REFUSED (first, the model's choice, log 130), and an aligned
ADD_F32 under DETERMINISTIC is DET_FAULT and counted in BK_ATOM_FAULT, with memory as it was. An atomic on an HBM word
answers ADDRESS where its stack is not reached; a swap of 64 bits on one that is reached answers the prior value and stores
the operand. The completion statement of these commands. (R93, R99, R101, R103, R104, R109, R486.) -/
def Obligations.BankAnswers : Prop :=
  (∀ (s : State) (q : BankReq) (others : List BankReq) (a : PAddr) (d : Die) (bank word : Nat), Safe s →
    tsorted 0 s.bk.rsp = true → tsorted 0 s.bk.err = true → s.masterDown q.master = false →
    s.fencedAccess q.master a.toNat = false → s.accessStatus q.master a.toNat = .ok →
    bankOf (s.key (a.toNat / 8 * 8)) = some (d, bank, word) → s.wordErr (s.key (a.toNat / 8 * 8)) = 0 →
    (q.op = .read → s.granted d bank q (q.port d) others = true →
      Runs (.bankAccess q a none others 0 0) s (fun t =>
        tget {} t.bk.rsp q.master = { status := .ok, data := s.wordAt (s.key (a.toNat / 8 * 8)) } ∧ t.mem = s.mem)) ∧
    (∀ v : DWord, q.op = .write 0xFF v → s.granted d bank q (q.port d) others = true →
      Runs (.bankAccess q a none others 0 0) s (fun t =>
        (tget {} t.bk.rsp q.master).status = .ok ∧ t.wordAt (s.key (a.toNat / 8 * 8)) = v)) ∧
    (∀ (opc : BitVec 4) (x : DWord), s.granted d bank q .b others = true →
      (∀ n v : Nat, opc ≠ 3 → a.toNat % atomicBytes opc.toNat = 0 →
        (let w := (s.wordAt (s.key (a.toNat / 8 * 8))).toNat
         let h := 32 * (a.toNat / 4 % 2)
         let prior := if atomicBytes opc.toNat = 8 then w else w / 2 ^ h % 2 ^ 32
         atomicOp opc.toNat prior x.toNat = some (n, v) →
         Runs (.bankAtomic q a opc x none others 0) s (fun t =>
           tget {} t.bk.rsp q.master = { status := .ok, data := BitVec.ofNat 64 prior } ∧
           t.wordAt (s.key (a.toNat / 8 * 8)) =
             BitVec.ofNat 64 (if atomicBytes opc.toNat = 8 then v else withBits w (h + 31) h v)))) ∧
      ((opc = 0 ∨ 5 < opc.toNat ∨ a.toNat % atomicBytes opc.toNat ≠ 0) →
        Runs (.bankAtomic q a opc x none others 0) s (fun t =>
          tget {} t.bk.rsp q.master = { status := .refused, data := 0 } ∧ t.mem = s.mem)) ∧
      (opc = 3 → s.det.active = true → a.toNat % 4 = 0 → Runs (.bankAtomic q a opc x none others 0) s (fun t =>
        tget {} t.bk.rsp q.master = { status := .detFault, data := 0 } ∧ t.mem = s.mem ∧
        t.regN (bkReg d 0x0008) = min 0xFFFFFFFF (s.regN (bkReg d 0x0008) + 1))))) ∧
  (∀ (s : State) (m : Fin 512) (a : PAddr) (h off : Nat) (opc : BitVec 4) (x : DWord), Safe s →
    tsorted 0 s.bk.rsp = true → s.masterDown m = false → place a.toNat = .hbm h off →
    (s.addrStatus a.toNat ≠ .ok → Runs (.hbmAtomic m a opc x false) s (fun t =>
      tget {} t.bk.rsp m = { status := .address, data := 0 } ∧ t.mem = s.mem)) ∧
    (s.addrStatus a.toNat = .ok → opc = 5 → a.toNat % 8 = 0 → s.wordErr a.toNat = 0 →
      Runs (.hbmAtomic m a opc x false) s (fun t =>
        tget {} t.bk.rsp m = { status := .ok, data := s.wordAt a.toNat } ∧ t.wordAt a.toNat = x)))

/-- A bank access changes no byte outside its word. An access or an atomic of a bank, whatever rival meets it and whichever
requests wait beside it, and an atomic on HBM, leave every byte of memory outside the eight bytes of the word they name as
it was. (R93, R99, R103, R110.) -/
def Obligations.BankAccessFrame : Prop :=
  (∀ (s t : State) (q : BankReq) (a : PAddr) (r : Option BankReq) (others : List BankReq) (u : DWord) (v : BitVec 8),
    Safe s → exec (.bankAccess q a r others u v) s = .next t →
    MemKept (fun k => s.key (a.toNat / 8 * 8) ≤ k ∧ k < s.key (a.toNat / 8 * 8) + 8) s t) ∧
  (∀ (s t : State) (q : BankReq) (a : PAddr) (opc : BitVec 4) (x : DWord) (r : Option BankReq) (others : List BankReq)
    (u : BitVec 72), Safe s → exec (.bankAtomic q a opc x r others u) s = .next t →
    MemKept (fun k => s.key (a.toNat / 8 * 8) ≤ k ∧ k < s.key (a.toNat / 8 * 8) + 8) s t) ∧
  (∀ (s t : State) (m : Fin 512) (a : PAddr) (opc : BitVec 4) (x : DWord) (u : Bool),
    Safe s → exec (.hbmAtomic m a opc x u) s = .next t →
    MemKept (fun k => a.toNat / 8 * 8 ≤ k ∧ k < a.toNat / 8 * 8 + 8) s t)

/-- A descriptor of each opcode reaches its die and is taken up. On a die that carries arrays, whose BASE island is ON and
which no stop halts, a descriptor of each opcode is placed for its function and model slot, the array time up to then
charged first: it joins the queue of their context where that has a descriptor running or is not running, is the next of
the queue of one that idles, opens a context where one can be made, and otherwise waits for one, for which a lower-ranked
function may have to give one up. A descriptor with a reserved opcode or reserved FLAGS posts a completion record with
BAD_OPCODE to the source. The completion statement of these commands. (R120, R121, R123, R124, R183, R185, R189.) -/
def Obligations.DescriptorArrives : Prop :=
  (∀ (s : State) (d : Die) (vf : Fin 513) (slot : Fin 16) (q : BitVec 512), s.halted (dieUnit d) = false →
    s.dieOn d = true → 0 < maxCtx d →
    (let placed (r90 : Bool) : State := s.placeDesc d vf slot { desc := q, r90 := r90 }
     (∀ r90, (Desc.parse q).opcode = 1 → exec (.descGemm d vf slot q r90) s = .next (placed r90)) ∧
     ((Desc.parse q).opcode = 2 → exec (.descGemmBatched d vf slot q) s = .next (placed false)) ∧
     ((Desc.parse q).opcode = 4 → exec (.descConv1d d vf slot q) s = .next (placed false)) ∧
     ((Desc.parse q).opcode = 5 → exec (.descConvert d vf slot q) s = .next (placed false)) ∧
     ((Desc.parse q).opcode = 8 → exec (.descGatherGemm d vf slot q) s = .next (placed false)) ∧
     (0x40 ≤ (Desc.parse q).opcode → (Desc.parse q).opcode < 0x80 →
       exec (.descRoutine d vf slot q) s = .next (placed false))) ∧
    ((¬ ((Desc.parse q).opcode ∈ [1, 2, 4, 5, 8] ∨ (Desc.parse q).isRoutine = true) ∨ 16 ≤ (Desc.parse q).flags) →
      Runs (.descBadOpcode d vf slot q) s (fun t => ∃ x, t.sh.recs = s.sh.recs ++ [x] ∧ x.die = d.index ∧ x.vf = vf.val ∧
        x.slot = slot.val ∧ x.record.toNat % 256 = 1))) ∧
  (∀ (s : State) (d : Die) (vf slot : Nat) (q : QDesc),
    let u := s.settle
    let mine := u.sh.ctx.find? (fun e => e.1 / 8 == d.index && e.2.vf == vf && e.2.slot == slot)
    (∀ key c, mine = some (key, c) → (c.run ≠ none ∨ c.st ≠ .running) →
      s.placeDesc d vf slot q = u.setCtx key (some { c with queue := c.queue ++ [q] })) ∧
    (∀ key c, mine = some (key, c) → c.run = none → c.st = .running →
      s.placeDesc d vf slot q = (u.wakeVf vf).runQueue d key { c with queue := [] } (c.queue ++ [q])) ∧
    (∀ key c, mine = none → u.canMake d vf slot = some (key, c) →
      s.placeDesc d vf slot q = ({ u.wakeVf vf with sh.made := (u.wakeVf vf).sh.made + 1 } : State).runQueue d key c [q]) ∧
    (mine = none → u.canMake d vf slot = none →
      (s.placeDesc d vf slot q).sh.wait =
        (u.evict d vf).sh.wait ++ [{ die := d.index, vf := vf, slot := slot, desc := q }]))

/-- How a descriptor's work tiles are claimed, handed back and finished. For a context with a running descriptor on a die
that no stop halts: operands outside the die are copied, and where the copies fail the descriptor ends with EXEC_ERROR
and their code; a scan of an output block that no scan has covered counts its split and fixed-order groups and keeps its
decision, but where an LPS output cannot be exact; a claim, for an array that can take a tile and with no hand-back entry
waiting, adds 1 to the tally and runs the tile whose index it got, costs the claim alone beyond the last, and counts a tile
that lies beyond its sequence as skipped; a hand-back writes the oldest interrupted tile to the array's slot with the
K-tile to go on from, and the array leaves the context; another array takes it from there with the slot set to 0; a tile
that fails ends the descriptor with EXEC_ERROR and the pass's or job's code; a tile that does not complete its block is
counted and its results kept; on the single path, without an overlap, the block is written and the tile counted; an abort ends the descriptor
with ABORTED. Descriptors that wait for a context are tried again after each end. The completion statement of these
commands. (R118, R119, R123, R128, R129, R130, R131, R132, R133, R189, R356.) -/
def Obligations.TilingSteps : Prop :=
  (∀ (s : State) (d : Die) (c : Fin 8) (cx : Ctx) (g : Fin 84) (next : BitVec 16), s.halted (dieUnit d) = false →
    s.ctxOf (ctxKey d c) = some cx → cx.run = none → g.val ∈ cx.arrays →
    exec (.tileHandback d c g next) s = .next ((s.setCtx (ctxKey d c) (some { cx with
      arrays := cx.arrays.filter (· ≠ g.val), rel := cx.rel.filter (· ≠ g.val) })).giveIdle d)) ∧
  (∀ (s : State) (d : Die) (c : Fin 8) (cx : Ctx) (r : DescRun), s.halted (dieUnit d) = false →
    s.ctxOf (ctxKey d c) = some cx → cx.run = some r →
    let x := Desc.parse r.desc
    let key := ctxKey d c
    (cx.st = .running → r.staged = false →
      (let t := s.noteRanges (coreId d 0) ((s.outside d x).flatMap Plane.each)
       (s.copyCode d x = 0 → exec (.operandStageCopy d c) s = .next ((t.loseScratch cx).setCtx key (some { cx with
         run := some { r with
           staged := true
           copies := (s.outside d x).map (fun p => (p.range.1, s.load p.range.1 p.range.2)) } }))) ∧
       (s.copyCode d x ≠ 0 → exec (.operandStageCopy d c) s =
         .next (((t.loseBlocks r).endDesc d key cx r 8 (s.copyCode d x)).afterDesc d)))) ∧
    (∀ block, cx.st = .running → r.staged = true → x.fa = .fp4 → block < x.blocks → (∀ q ∈ r.spans, q.block ≠ block) →
      (let dec := s.decideSpan r x block
       let t : State := (s.count (bkBlock + 0x10000 * d.index + 0x0300) dec.2.2).count (hmBlock + 0x064) dec.2.1
       (x.fo ≠ .lps ∨ (dec.1.any (·.isNone) = false ∧ dec.2.1 = 0) → exec (.spanScan d c block) s =
         .next (t.setCtx key (some { cx with run := some { r with
           spans := r.spans ++ [{ block := block, rows := dec.1 }]
           ordered := r.ordered || dec.1.any (·.isNone) } }))) ∧
       (x.fo = .lps → (dec.1.any (·.isNone) = true ∨ 0 < dec.2.1) → exec (.spanScan d c block) s =
         .next (((t.loseBlocks r).endDesc d key cx r 8 4).afterDesc d)))) ∧
    (∀ g : Fin 84, cx.st = .running → r.staged = true → s.handedBack d cx = false →
      ((r.path = 5 ∧ ∀ q ∈ r.running, q.array ≠ g.val) ∨
        (r.path ≠ 5 ∧ g.val ∈ cx.arrays ∧ g.val ∉ cx.rel ∧ s.islOn (arrayIsland g) = true ∧ r.roomFor g = true)) →
      (let i := s.loadNat cx.tally 8 % 2 ^ 32
       let u := s.storeNat cx.tally 8 ((s.loadNat cx.tally 8 + 1) % 2 ^ 64)
       (r.tiles ≤ i → exec (.tileClaim d c g) s = .next u) ∧
       (i < r.tiles → (x.fa ≠ .fp4 ∨ ∃ q ∈ r.spans, q.block = i % x.blocks) →
         (r.tileSkipped x i = false → exec (.tileClaim d c g) s =
           .next ((u.stageFor d g r x (i % x.blocks)).setCtx key (some { cx with run := some { r with
             running := r.running ++ [{ array := g, index := i, next := 0 }]
             begun := if r.begun.contains (i % x.blocks) then r.begun else i % x.blocks :: r.begun } }))) ∧
         (r.tileSkipped x i = true → exec (.tileClaim d c g) s =
           .next ((u.countDone d key cx { r with skipped := r.skipped + 1 }).afterDesc d))))) ∧
    (∀ (g : Fin 84) (next : BitVec 16) (tr : TileRun), g.val ∈ cx.arrays →
      r.running.filter (fun q => q.array == g.val) = [tr] →
      bitOf (s.loadNat (cx.handback (arrayInDie g)) 8) 63 = false →
      (let p := x.tileOf tr.index
       let n := max tr.next (min next.toNat (r.passes x tr.index))
       let u : State := s.ranPasses g cx.vf x.fa (r.blockDims x p.1 p.2.1 p.2.2.1).1 (n - tr.next) 0
       exec (.tileHandback d c g next) s = .next (((u.storeNat (cx.handback (arrayInDie g)) 8
         (handbackWord tr.index n)).setCtx key (some { cx with
           arrays := cx.arrays.filter (· ≠ g.val), rel := cx.rel.filter (· ≠ g.val)
           run := some { r with running := r.running.filter (fun q => q.array != g.val) } })).giveIdle d))) ∧
    (∀ (k : Fin 16) (g : Fin 84), cx.st = .running → bitOf (s.loadNat (cx.handback k) 8) 63 = true → g.val ∈ cx.arrays →
      g.val ∉ cx.rel → s.islOn (arrayIsland g) = true → k.val < (dieArrays d).length → r.roomFor g = true →
      (∀ q ∈ r.later, arrayInDie q.array ≠ k.val) →
      (let e := s.loadNat (cx.handback k) 8
       exec (.handbackTake d c k g) s =
         .next (((s.storeNat (cx.handback k) 8 0).stageFor d g r x (e % 2 ^ 32 % x.blocks)).setCtx key
           (some { cx with run := some { r with
             running := r.running ++ [{ array := g, index := e % 2 ^ 32, next := bitsOf e 47 32 }] } })))) ∧
    (∀ (g : Fin 84) (tr : TileRun), r.running.find? (fun q => q.array == g.val) = some tr →
      (let block := tr.index % x.blocks
       let p := x.tileOf tr.index
       let rows := (r.blockDims x p.1 p.2.1 p.2.2.1).1
       let res := s.chunkElems r x tr.index
       let parts : List Partial := r.parts ++ [{ block := block, chunk := tr.index / x.blocks, vals := res.1 }]
       let mine := parts.filter (fun q => q.block == block)
       let spans := ((r.spans.find? (fun q => q.block == block)).map (·.rows)).getD []
       let cols := (r.blockDims x p.1 p.2.1 p.2.2.1).2
       let sat := res.2 + (res.1.zipIdx.map (fun e =>
         chainSat r.path x.fa ((spans.getD (e.2 / cols) (some 0)).isSome) (tr.index / x.blocks) e.1)).sum
       let u : State := s.noteRanges (tileMaster d r.path g) (s.tileRanges r x tr.index)
       let v : State := if r.path = 5 then u.ranJobs (d.index - 4) rows
         else u.ranPasses g cx.vf x.fa rows (r.passes x tr.index - tr.next) sat
       let left : DescRun := { r with running := lrmFirst (fun q => q.array == g.val) r.running, ran := r.ran + 1 }
       (s.tileCode r x tr.index ≠ 0 → exec (.tileDone d c g) s =
         .next (((u.loseBlocks r).endDesc d key cx left 8 (s.tileCode r x tr.index)).afterDesc d)) ∧
       (s.tileCode r x tr.index = 0 → mine.length ≠ r.chunks → exec (.tileDone d c g) s =
         .next ((v.countDone d key cx { left with parts := parts }).afterDesc d)) ∧
       (s.tileCode r x tr.index = 0 → mine.length = r.chunks → r.path = 0 → s.selfOverlap x = false →
         (v.writeBlock r x block mine).2.2 = false →
         (let w := v.writeBlock r x block mine
          exec (.tileDone d c g) s =
            .next (((w.1.setEs g { w.1.esOf g with cntSat := min (2 ^ 64 - 1) ((w.1.esOf g).cntSat + w.2.1) }).countDone
              d key cx { left with parts := parts.filter (fun q => q.block != block) }).afterDesc d))))) ∧
    exec (.descriptorAbort d c) s = .next (((s.loseBlocks r).endDesc d key cx r 9 0).afterDesc d))

/-- A refused descriptor changes no memory and is answered. Where the checks of an array product, a CONVERT or a ROUTINE
that is alone in a new context's queue find a cause, tracing is off and the contexts are in key order: a completion
record with the status and subcode that the checks give goes to the source, no memory changes, and the context does
not stay. (R123, R124.) -/
def Obligations.DescriptorRefused : Prop :=
  ∀ (s : State) (d : Die) (key : Nat) (c : Ctx) (q : QDesc),
    s.regBit trcCfg 31 = false → tsorted 0 s.sh.ctx = true →
    (let x := Desc.parse q.desc
     let drip := s.runsDrip d x q.r90
     let chunks := if x.isConvert || x.isRoutine || drip then 1
       else x.chunks d s.det.active (s.availArrays d key)
     let path := x.path chunks s.det.active drip
     (s.checkDesc d x chunks path).1 ≠ 0 →
      (let t := s.runQueue d key c [q]
       t.mem = s.mem ∧ t.ctxOf key = none ∧ ∃ y, t.sh.recs = s.sh.recs ++ [y] ∧ y.die = d.index ∧ y.vf = c.vf ∧
        y.slot = c.slot ∧ y.record.toNat % 256 = (s.checkDesc d x chunks path).1 ∧
        y.record.toNat / 256 % 256 = (s.checkDesc d x chunks path).2))

/-- What a tenant's command does to its function's requests. While inference is not halted: a SUBMIT that fails a check is
refused with that check's status; one that passes, and for which a parameter record is free, takes the manifest free
longest, in ADMITTED with the entry's values, its seed where SEEDED is set. A command naming a request that is stale or
another function's is refused with NOT_FOUND; otherwise PAUSE waits, acts or leaves at the next boundary, RESUME is
queued in PAUSING and carried out in PAUSED before EXPIRY, CANCEL ends the request or leaves with it at the boundary,
and TOUCH moves TTL and, in PAUSED, EXPIRY; a PAUSE or CANCEL of a decoding request discards its unverified drafts. An
unknown OPC is refused with BAD_OPCODE, the RID of that entry being free (log 6). The completion statement of these
commands. (R139, R142, R144, R145, R146, R151, R160, R161, R181.) -/
def Obligations.TenantCommands : Prop :=
  ∀ (s : State) (f : Fin 513) (sq : Fin 8) (entry : BitVec 512), s.halted .inference = false →
    let e := SubEntry.parse entry
    let t := s.takeCmd f sq entry
    (e.opc = 1 → (∀ st, t.submitCheck e = some st → exec (.submit f sq entry) s = .next (t.refuse f e 0 st)) ∧
      (∀ i r, tsorted 0 s.hm.man = true → t.submitCheck e = none → t.nextFree = some i →
        t.freeRec (bitOf e.flags 0) = some r → Runs (.submit f sq entry) s (fun u =>
          let m := u.manOf i
          m.st = .admitted ∧ m.gen = (s.manOf i).gen ∧ m.fn = f.val ∧ m.sq = sq.val ∧ m.cq = e.cq ∧ m.slot = e.slot ∧
          m.tag = e.tag ∧ (bitOf e.flags 4 = true → m.seed = e.seed) ∧ m.step = 0 ∧ m.ctx = e.ntok ∧ m.endAt = e.maxNew ∧
          m.ckpt = 0xFFFFFFFF ∧ m.ttl = (if e.ttl = 0 then (s.slotOf e.slot).ttlDef else e.ttl)))) ∧
    (e.flags < 32 → e.reserved = false → t.named f e.rid = none →
      (e.opc = 2 → exec (.pause f sq entry) s = .next (t.refuse f e e.rid 9)) ∧
      (e.opc = 3 → exec (.resume f sq entry) s = .next (t.refuse f e e.rid 9)) ∧
      (e.opc = 4 → exec (.cancel f sq entry) s = .next (t.refuse f e e.rid 9)) ∧
      (e.opc = 5 → exec (.touch f sq entry) s = .next (t.refuse f e e.rid 9))) ∧
    (∀ i, e.flags < 32 → e.reserved = false → t.named f e.rid = some i →
      let m := t.manOf i
      (e.opc = 2 → m.pend = 0 →
        (m.st = .admitted ∨ m.st = .prefill ∨ m.st = .resuming →
          exec (.pause f sq entry) s = .next ((t.setMan i { m with pend := 2 }).ack f e)) ∧
        (m.st = .ready → exec (.pause f sq entry) s = .next ((t.ack f e).pauseBegin i 3 true)) ∧
        (m.st = .decode → m.leave = .none → exec (.pause f sq entry) s =
          .next ((t.setMan i { m with pend := 2, drafts := [], leave := .pause }).ack f e)) ∧
        (m.st = .pausing ∨ m.st = .paused → exec (.pause f sq entry) s = .next (t.refuse f e e.rid 0xA))) ∧
      (e.opc = 3 → m.pend = 0 → m.ctx + e.ntok ≤ (t.slotOf m.slot).maxCtx → 0 < e.maxNew →
        e.maxNew ≤ (t.slotOf m.slot).maxCtx →
        (m.st = .pausing → exec (.resume f sq entry) s =
          .next ((t.setMan i { m with pend := 3, entry := entry, sq := sq }).ack f e)) ∧
        (m.st = .paused → t.T < m.expiry → exec (.resume f sq entry) s =
          .next (((t.setMan i { m with sq := sq }).ack f e).doResume i entry)) ∧
        (m.st = .paused → m.expiry ≤ t.T → exec (.resume f sq entry) s = .next (t.refuse f e e.rid 0xB))) ∧
      (e.opc = 4 →
        (m.st = .decode → m.pend = 0 → m.leave = .none → exec (.cancel f sq entry) s =
          .next ((t.setMan i { m with pend := 4, drafts := [], leave := .cancel }).ack f e)) ∧
        (m.st ∈ [ManSt.admitted, .prefill, .ready, .pausing, .paused, .resuming] →
          exec (.cancel f sq entry) s = .next ((t.ack f e).endRequest i 7 0 0))) ∧
      (e.opc = 5 → e.ttl ≤ 86400 →
        (m.st = .pausing → exec (.touch f sq entry) s =
          .next ((t.setMan i { m with ttl := if e.ttl = 0 then (t.slotOf m.slot).ttlDef else e.ttl }).ack f e)) ∧
        (m.st = .paused → m.expiry ≤ t.T → exec (.touch f sq entry) s = .next (t.refuse f e e.rid 0xB)) ∧
        (m.st = .paused → t.T < m.expiry → (let ttl := if e.ttl = 0 then (t.slotOf m.slot).ttlDef else e.ttl
          exec (.touch f sq entry) s =
            .next ((t.setMan i { m with ttl := ttl, expiry := t.T + ttl * 10 ^ 9 }).ack f e))))) ∧
    ((e.opc = 0 ∨ 5 < e.opc) → ∃ rid, exec (.sqBadOpcode f sq entry) s = .next ((t.drew 1).refuse f e rid 1))

/-- How a request is admitted, prefilled, decoded, paused and reused. While inference is not halted: the buffers of an
ADMITTED or RESUMING request are read; it is placed on the allowed prompt die with the fewest queued tokens, or its
wait is counted once in HM_NO_DIE where the mask allows none; the end of the prefill whose turn it is brings the first
token, or ends the request with EXEC_ERROR where one of its descriptors failed; a step boundary ends the step that
runs, lets idle requests leave, and forms the next batch; a step begins once no checkpoint is in flight, and sets off
the pulls and mirror copies of the requests in DECODE; a pausing request whose berths have all moved and whose
checkpoint has settled is PAUSED with EXPIRY set, or resumes where a RESUME waits; the sweep ends the requests at or
past EXPIRY; and a manifest is FREE after its quiet time. The completion statement of these commands; a wait or sweep
is the arrival of its time (log 17), and prefills of one context take turns (log 37). (R138, R144, R151, R152, R153,
R154, R156, R157, R158, R159, R160, R388.) -/
def Obligations.RequestProgress : Prop :=
  ∀ (s : State), s.halted .inference = false →
    (∀ (i : Fin 262144), let m := s.manOf i
      (m.phase = .reading → m.st = .admitted →
        exec (.promptReadDone i) s = .next (s.promptRead i (SubEntry.parse m.entry))) ∧
      (m.phase = .reading → m.st = .resuming →
        exec (.promptReadDone i) s = .next (s.appendRead i (SubEntry.parse m.entry))) ∧
      (∀ peer, m.phase = .place → m.st = .admitted ∨ m.st = .resuming → s.radioOnly = false →
        ((∀ n < 4, s.mayPd m.fn n = false) → m.counted.contains (hmBlock + 0x050) = false →
          exec (.prefillPlace i peer) s = .next
            ((s.count (hmBlock + 0x050) 1).setMan i { m with counted := (hmBlock + 0x050) :: m.counted })) ∧
        (∀ n < 4, s.mayPd m.fn n = true → (∀ k < 4, s.mayPd m.fn k = true → s.queuedTokens n ≤ s.queuedTokens k) →
          (∀ k < n, s.mayPd m.fn k = true → s.queuedTokens n < s.queuedTokens k) →
          exec (.prefillPlace i peer) s = .next ((s.modMan i (fun m =>
            { m with counted := m.counted.filter (· != hmBlock + 0x050) })).placePrefill i n peer))) ∧
      (∀ (rid : BitVec 24) logits dumps, rid.toNat % 2 ^ 18 = i.val → m.gen = rid.toNat / 2 ^ 18 → m.phase = .running →
        m.st = .prefill ∨ m.st = .resuming → s.prefillFirst i = true →
        (s.prefillFailed m = true → exec (.prefillDone rid logits dumps) s = .next (s.endRequest i 8 0xD 0)) ∧
        (s.prefillFailed m = false → m.berthsShort = 0 → logits.length = (s.slotOf m.slot).vocab →
          exec (.prefillDone rid logits dumps) s =
            .next ((((((s.setWritten i m.ctx).modMan i (fun m => { m with pre := 0, phase := .reading })).fnCount m.fn
              .prefilled m.pre).prefillOver i).issueMirror i false).firstToken i (logits.map (·.toNat)) dumps))) ∧
      (m.st = .pausing → m.moves = [] → m.ckptFlight = none →
        (m.pend ≠ 3 → tsorted 0 s.hm.man = true → Runs (.pauseComplete i) s (fun t => (t.manOf i).st = .paused ∧
          (t.manOf i).expiry = s.T + m.ttl * 10 ^ 9)) ∧
        (m.pend = 3 → exec (.pauseComplete i) s =
          .next ((((s.writeProv i 4 (m.reason == 3)).postEvent i 4 0 m.reason 0).modMan i
            (fun q => { q with st := .paused, expiry := ((s.writeProv i 4 (m.reason == 3)).postEvent i 4 0 m.reason 0).T +
              q.ttl * 10 ^ 9 })).doResume i m.entry))) ∧
      (let u := s.reachRaw m.quietUntil
       m.st = .quiet → m.quietUntil ≤ u.td.raw → Runs (.manifestQuietEnd i) s (fun t =>
        t.hm.freed = s.hm.freed ++ [i.val] ∧ t.td = u.td ∧
        (tsorted 0 s.hm.man = true → t.manOf i = { m with st := .free, quietUntil := 0 })))) ∧
    (∀ dumps, (s.hm.stepping = true → s.stepSelected = true →
        exec (.decodeStepBoundary dumps) s = .next ((s.endStep dumps).leaveIdle dumps).formNext) ∧
      (s.hm.stepping = false → s.inBatch = [] →
        exec (.decodeStepBoundary dumps) s = .next (s.leaveIdle dumps).formNext)) ∧
    (s.hm.stepping = false → s.inBatch ≠ [] → s.radioOnly = false → (∀ e ∈ s.liveMen, e.2.ckptFlight = none) →
      (let t := (s.liveMen.filter (fun e => e.2.st == .decode)).foldl (fun t e => t.startStep e.1) s
       exec .decodeStepStart s = .next
        { t with hm := { t.hm with stepping := true, stepT := s.T, stepMark := s.sh.recs.length } })) ∧
    (let t := s.reachNs ((s.T / 10 ^ 7 + 1) * 10 ^ 7 : Nat)
     exec .expirySweep s = .next
      ((t.liveMen.filter (fun e => e.2.st == .paused && decide (e.2.expiry ≤ t.T))).foldl
        (fun u e => u.endRequest e.1 6 0 0) t))

/-- Pulls, mirrors, checkpoints and the berth table's rebuild. While inference is not halted: an internal arrival whose
generation differs, or whose manifest is FREE or QUIET, only counts in HM_STALE_DROP. A portion that is due, and good
or of a pause, is written at the berth's new place; with the last of its slice the slice is marked, and with the last
of the berth the entry is rewritten, in a pull to its GD frame; a bad portion of a pull, or a source error, makes the
request fail at the boundary. A copy that brings every written position marks its berth mirrored; once its record is
sent a commit moves CKPT; a failure leaves CKPT and is counted. A rebuild starts where a request is held or runs of
free entries are few, each pass empties its log, the flip packs every live request's entries into one extent and
toggles LIVE, and a rebuild whose log does not empty within four passes restarts and is counted. The completion
statement of these commands. (R139, R150, R154, R155, R157, R158, R159, R162.) -/
def Obligations.BerthsAndCheckpoints : Prop :=
  ∀ (s : State), s.halted .inference = false →
    (∀ (rid : BitVec 24), let i := rid.toNat % 2 ^ 18
      let m := s.manOf i
      let r := s.slotOf m.slot
      ((m.gen ≠ rid.toNat / 2 ^ 18 ∨ m.st = .free ∨ m.st = .quiet) → ∀ c : Instr,
        ((∃ b k l d, c = .berthSliceArrive rid b k l d) ∨ (∃ p, c = .pullSourceError rid p) ∨
          (∃ b, c = .mirrorCopyDone rid b) ∨ c = .checkpointCommit rid ∨ c = .checkpointFail rid ∨
          (∃ l d, c = .prefillDone rid l d) ∨ (∃ l, c = .rakeSelect rid l) ∨ (∃ l, c = .sieveSelect rid l) ∨
          (∃ l, c = .specDraft rid l) ∨ (∃ l, c = .specVerify rid l)) →
        exec c s = .next (s.count (hmBlock + 0x040) 1)) ∧
      (m.gen = rid.toNat / 2 ^ 18 → m.st = .decode ∨ m.st = .pausing →
        ∀ (b : Fin 2048) (k : Fin 4) (l : Fin 1024) (data : List Byte) (e : Nat) (g : Tier × Nat),
          m.entries[b.val]? = some e → m.goal b = some g → s.portionDue m (k.val, l.val, b.val) = true →
          let o := l.val * r.portion
          let c := s.berthOf e
          let bad := ∃ a, r.sliceAddr c.tier c.frame k = some a ∧ s.rangeBad (a + o) r.portion = true
          let left := lrmFirst (· == (k.val, l.val, b.val)) m.pulls
          let t := (s.sliceStore r g.1 g.2 k o (s.sliceLoad r c.tier c.frame k o r.portion data)).modMan i
            (fun m => { m with pulls := left })
          (bad → m.st = .decode → exec (.berthSliceArrive rid b k l data) s = .next (s.setMan i { m with leave := .fail 0xD })) ∧
          (¬ bad ∨ m.st = .pausing →
            ((∃ q ∈ left, q.2.2 = b.val ∧ q.1 = k.val) → exec (.berthSliceArrive rid b k l data) s = .next t) ∧
            ((∃ q ∈ left, q.2.2 = b.val) → (∀ q ∈ left, q.2.2 = b.val → q.1 ≠ k.val) →
              exec (.berthSliceArrive rid b k l data) s = .next (t.setBerth e { c with pulled := c.pulled ||| 2 ^ k.val })) ∧
            ((∀ q ∈ left, q.2.2 ≠ b.val) →
              (m.st = .pausing → exec (.berthSliceArrive rid b k l data) s = .next ((t.berthLands i b g.1 g.2).pauseLanded i)) ∧
              (m.st = .decode → tsorted 0 s.hm.man = true → tsorted 0 s.hm.bt = true →
                Runs (.berthSliceArrive rid b k l data) s (fun t =>
                  (t.berthOf e).tier = .gd ∧ (t.berthOf e).frame = g.2 ∧ (t.berthOf e).pulled = 0))))) ∧
      (m.gen = rid.toNat / 2 ^ 18 → m.st = .decode →
        (∀ p, exec (.pullSourceError rid p) s =
          .next (s.setMan i { m with leave := .fail (if p then 0xE else 0xD) })) ∧
        (∀ (b : Fin 2048) e c, m.entries[b.val]? = some e → m.copies.find? (fun c => c.berth == b.val) = some c →
          (s.berthOf e).fill ≤ c.fill → tsorted 0 s.hm.bt = true →
          Runs (.mirrorCopyDone rid b) s (fun t => (t.berthOf e).mirrored = true)) ∧
        (∀ n, m.ckptFlight = some n →
          (m.ckptSent = true → exec (.checkpointCommit rid) s =
            .next (s.setMan i { m with ckpt := n, ckptFlight := none, ckptSent := false })) ∧
          exec (.checkpointFail rid) s =
            .next ((s.setMan i { m with ckptFlight := none, ckptSent := false }).count (hmBlock + 0x04C) 1)))) ∧
    ((∃ e ∈ s.liveMen, e.2.counted.contains (hmBlock + 0x044) = true ∧ s.nextEntry e.2 = none) ∨
        16 * longRuns 0 s.hm.bt < 2 ^ 20 - s.hm.bt.length → s.hm.btRun = none →
      exec .btRebuildStart s = .next { s with hm := { s.hm with btRun := some {} } }) ∧
    (∀ m : Agent, s.isPf m = true → s.hm.btRun = none →
      exec (.hmBtStart m) s = .next { s with hm := { s.hm with btRun := some {} } }) ∧
    (∀ r, s.hm.btRun = some r →
      Runs .btRebuildPassEnd s (fun t => t.hm.btRun = some { passes := r.passes + 1, log := 0 } ∧ t.hm.bt = s.hm.bt) ∧
      (0 < r.passes → r.log = 0 → s.hm.stepping = false → Runs .btFlip s (fun t =>
        t.hm.btLive = !s.hm.btLive ∧ t.hm.btFlips = (s.hm.btFlips + 1) % 2 ^ 16 ∧ t.hm.btRun = none ∧
        t.hm.bt = s.packed.1)) ∧
      (4 ≤ r.passes → r.log ≠ 0 → exec .btRebuildRestart s =
        .next { s with hm := { s.hm with btRun := some {}, btRetries := min 255 (s.hm.btRetries + 1) } }))

/-- What the model-slot commands and the Harbourmaster's registers do. For the PF: LOAD of an EMPTY slot with a record
that passes its checks goes to LOADING, and with one that does not leaves the slot with BAD_RECORD; UNLOAD of a READY
slot goes to DRAINING, and with FORCE its requests that decode are to leave; a command in another state only sets
BAD_STATE; a draining slot that nothing names becomes EMPTY. The load's end brings EMPTY with DIGEST where the package
does not match, EMPTY with NO_MEMORY where the frames or the weights do not fit or a bank group has failed, and
otherwise READY with the frame pools carved out and the weights placed (log 148). CADENCE takes 0 and 8 to 256 and
ignores other values; QUIET takes the written milliseconds, at least 4. The completion statement of these commands.
(R140, R141, R164, R374.) -/
def Obligations.SlotCommands : Prop :=
  (∀ (s : State) (m : Agent) (k : Fin 16), s.isPf m = true →
    (let a := s.reg64 (hmBlock + 0x010) (hmBlock + 0x014)
     (∀ r, (s.slotOf k).st = .empty → s.rangeOk a 128 = true → s.rangeBad a 128 = false →
       parseSlot (s.load a 128) = some r → exec (.hmSlotLoad m k) s = .next ((s.slotError k 0).setSlot k r)) ∧
     ((s.slotOf k).st = .empty → (s.rangeOk a 128 = false ∨ s.rangeBad a 128 = true ∨ parseSlot (s.load a 128) = none) →
       exec (.hmSlotLoad m k) s = .next (s.slotError k 1).mgmtEvent) ∧
     ((s.slotOf k).st ≠ .empty → exec (.hmSlotLoad m k) s = .next (s.slotError k 4).mgmtEvent)) ∧
    ((s.slotOf k).st = .ready → exec (.hmSlotUnload m k) s =
      .next ((s.setSlot k { s.slotOf k with st := .draining }).slotError k 0)) ∧
    ((s.slotOf k).st ≠ .ready → exec (.hmSlotUnload m k) s = .next (s.slotError k 4).mgmtEvent) ∧
    ((s.slotOf k).st = .ready ∨ (s.slotOf k).st = .draining → s.slotNamed k = false →
      exec (.hmSlotUnloadForce m k) s = .next
        ((((s.setSlot k { s.slotOf k with st := .draining }).setSlot k {}).mgmtEvent).slotError k 0)) ∧
    (((s.slotOf k).st = .ready ∨ (s.slotOf k).st = .draining) →
      (∀ e ∈ s.liveMen, e.2.slot = k.val → e.2.st = .decode) → s.slotNamed k = true → tsorted 0 s.hm.man = true →
      Runs (.hmSlotUnloadForce m k) s (fun t =>
        (tsorted 0 s.slots = true → (t.slotOf k).st = .draining) ∧
        ∀ e ∈ s.liveMen, e.2.slot = k.val → (t.manOf e.1).leave = .unload)) ∧
    ((s.slotOf k).st = .empty ∨ (s.slotOf k).st = .loading →
      exec (.hmSlotUnloadForce m k) s = .next (s.slotError k 4).mgmtEvent)) ∧
  (∀ (s : State) (m : Agent) (v : Word), s.isPf m = true →
    (let c := v.toNat % 512
     (c = 0 ∨ (8 ≤ c ∧ c ≤ 256) → exec (.hmCkptWrite m v) s = .next (s.setReg hmBlock c)) ∧
     ((1 ≤ c ∧ c < 8) ∨ 256 < c → exec (.hmCkptWrite m v) s = .next s)) ∧
    exec (.hmQuietWrite m v) s = .next (s.setReg (hmBlock + 0x004) (max 4 (v.toNat % 2 ^ 16)))) ∧
  (∀ (s : State) (k : Fin 16) (r : SlotLoad), s.halted .inference = false → let sl := s.slotOf k
    (sl.st = .draining → s.slotNamed k = false → exec (.slotDrainDone k) s = .next (s.setSlot k {}).mgmtEvent) ∧
    (sl.st = .loading → (∀ p ∈ r.parts, p.2.1 + p.2.2 ≤ sl.wpkgLen) →
      (Config.sha3 (s.load sl.wpkgAddr sl.wpkgLen) ≠ sl.wdigest →
        exec (.slotLoadDone k r) s = .next ((s.setSlot k {}).slotError k 2).mgmtEvent) ∧
      (Config.sha3 (s.load sl.wpkgAddr sl.wpkgLen) = sl.wdigest →
        (r.fits = false ∨ (∃ g ∈ r.groups, (s.isl g).st = .failedShort) ∨ s.carve sl = none →
          exec (.slotLoadDone k r) s = .next ((s.setSlot k {}).slotError k 3).mgmtEvent) ∧
        (∀ bases, r.fits = true → (∀ g ∈ r.groups, (s.isl g).st ≠ .failedShort) → s.carve sl = some bases →
          tsorted 0 s.slots = true →
          Runs (.slotLoadDone k r) s (fun t => (t.slotOf k).st = .ready ∧ (t.slotOf k).bases = bases ∧
            (t.slotOf k).specExact = r.specExact ∧ t.hm.slotErr = 0 ∧ t.hm.errSlot = k.val ∧
            t.mem = (r.parts.foldl (fun u p => u.store p.1.toNat (s.load (sl.wpkgAddr + p.2.1) p.2.2)) s).mem)))))

/-- How Rake and Sieve select, speculate and store automata. For a request that its RID names, of the running batch with
every berth pulled: Rake (or Sieve, along its automaton) selects the token that its rule gives, which joins the context
and moves STEP and CTX by one; the turn's end is checked in the order stop token, END_AT, MAX_CTX; without a token the
request fails at the boundary. A draft holds its proposals; a verification takes the target's own token first and ends
the step, and without a token there the request fails at the boundary. An automaton is placed where the store has a run
of words for it, once its image has been read and has passed its checks; it waits for a rebuild where the store has
only scattered words, and its request ends where there are too few or the image fails. A rebuild of the store starts at
the PF's write or for a request that waits, each pass empties its log, the flip toggles LIVE, and a rebuild whose log
does not empty within four passes restarts and is counted. The completion statement of these commands. (R139, R156,
R168, R171, R174, R175, R177, R179, R182.) -/
def Obligations.TokenCommands : Prop :=
  (∀ (s : State) (rid : BitVec 24), s.halted .inference = false → tsorted 0 s.hm.man = true →
    (let i := rid.toNat % 2 ^ 18
     let m := s.manOf i
     let stops := (stopTokens m.param).map (· % 2 ^ 18)
     let took (stop : Bool) (tok : Nat) (t : State) : Prop :=
       (t.manOf i).toks = m.toks ++ [tok] ∧ (t.manOf i).out = m.out ++ [tok] ∧ (t.manOf i).step = m.step + 1 ∧
       (t.manOf i).ctx = m.ctx + 1 ∧ (t.manOf i).selected = true ∧
       (t.manOf i).turnEnd = (if stop then some 0 else if m.endAt ≤ m.step + 1 then some 1
         else if (s.slotOf m.slot).maxCtx ≤ m.ctx + 1 then some 2 else none)
     m.gen = rid.toNat / 2 ^ 18 → m.st = .decode → s.awaits m = true → s.pullDone m = true →
     (∀ (logits : List Word), m.spec = false → logits.length = (s.slotOf m.slot).vocab →
       let ls := logits.map (·.toNat)
       (m.sel = false →
         (∀ tok, rakeSelect m.param m.toks ls m.seed m.step 0 = some tok →
           Runs (.rakeSelect rid logits) s (took (stops.contains tok) tok)) ∧
         (rakeSelect m.param m.toks ls m.seed m.step 0 = none → exec (.rakeSelect rid logits) s =
           .next ((s.count (rkBlock + 0x014) 1).modMan i (fun m => { m with selected := true, leave := .fail 0xD })))) ∧
       (m.sel = true →
         (∀ tok, Machine.sieveSelect m.auto m.autSt stops ls = some tok → Runs (.sieveSelect rid logits) s (fun t =>
           took (stops.contains tok) tok t ∧
           (t.manOf i).autSt = if stops.contains tok then m.autSt else sieveNext m.auto m.autSt tok)) ∧
         (Machine.sieveSelect m.auto m.autSt stops ls = none → exec (.sieveSelect rid logits) s =
           .next ((s.count (svBlock + 0x014) 1).modMan i (fun m => { m with selected := true, leave := .fail 0xD }))))) ∧
     (∀ (logits : List (List Word)), m.spec = true → (∀ l ∈ logits, l.length = (s.slotOf m.slot).vocab) →
       (m.drafts = [] → m.leave = .none → Runs (.specDraft rid logits) s (fun t => (t.manOf i).drafts =
         m.draft (min (fieldAt m.param 2 1) (m.endAt - m.step - 1)) 0 m.autSt logits)) ∧
       (∀ l ls, logits = l :: ls → ls.length = m.drafts.length →
         (∀ tok stop z, m.choose m.toks m.autSt (l.map (·.toNat)) m.step 0 = some (tok, stop, z) →
           Runs (.specVerify rid logits) s (fun t => (t.manOf i).selected = true ∧ (t.manOf i).drafts = [] ∧
             ∃ rest, (t.manOf i).toks = m.toks ++ tok :: rest)) ∧
         (m.choose m.toks m.autSt (l.map (·.toNat)) m.step 0 = none →
           Runs (.specVerify rid logits) s (fun t => (t.manOf i).selected = true ∧ (t.manOf i).leave = .fail 0xD)))))) ∧
  (∀ (s : State) (i : Fin 262144), s.halted .inference = false →
    (let m := s.manOf i
     let len := fieldAt m.param 64 4
     let words := if fieldAt m.param 1 1 = 1 then ceilDiv len 8 else m.auto.words
     let at_ := freeRun words 0 (s.svUsed.mergeSort (fun a b => decide (a.1 ≤ b.1)))
     let got := s.tenantRead m.fn (s.sqPasid m.fn m.sq) (fieldAt m.param 56 8) len
     m.st = .admitted → m.phase = .store →
       (s.svFree < words →
         exec (.sieveImageLoad i) s = .next ((s.count (svBlock + 0x018) 1).endRequest i 8 7 0)) ∧
       (words ≤ s.svFree →
         (at_ = none → exec (.sieveImageLoad i) s = .next s.svStart) ∧
         (∀ a, at_ = some a →
           (fieldAt m.param 1 1 ≠ 1 → exec (.sieveImageLoad i) s = .next (s.svPlace i a m.auto)) ∧
           (fieldAt m.param 1 1 = 1 →
             (∀ u, got = (u, none) → exec (.sieveImageLoad i) s = .next (u.endRequest i 8 6 0)) ∧
             (∀ u bs, got = (u, some bs) →
               (let img := parseImage bs len (fieldAt m.param 68 4) (s.slotOf m.slot).vocab (stopTokens m.param)
                (img = none → exec (.sieveImageLoad i) s = .next (u.endRequest i 8 7 0)) ∧
                (∀ auto, img = some auto → exec (.sieveImageLoad i) s = .next ((u.svPlace i a auto).modMan i (fun m =>
                  { m with hIn := Config.sha3 (m.param ++ bs ++ m.toks.flatMap (leBytes 4)) })))))))))) ∧
  (∀ (s : State) (m : Agent), s.isPf m = true → s.hm.svRun = none → exec (.svStoreStart m) s = .next s.svPack) ∧
  (∀ (s : State), s.halted .inference = false →
    (s.hm.svRun = none → (∃ e ∈ s.liveMen, e.2.phase = .store ∧ e.2.st = .admitted) →
      exec .svRebuildStart s = .next s.svPack) ∧
    (∀ r, s.hm.svRun = some r →
      Runs .svRebuildPassEnd s (fun t => t.hm.svRun = some { passes := r.passes + 1, log := 0 } ∧ t.hm.man = s.hm.man) ∧
      (0 < r.passes → r.log = 0 → s.hm.stepping = false → Runs .svStoreFlip s (fun t =>
        t.hm.svLive = !s.hm.svLive ∧ t.hm.svFlips = (s.hm.svFlips + 1) % 2 ^ 16 ∧ t.hm.svRun = none)) ∧
      (4 ≤ r.passes → r.log ≠ 0 → Runs .svRebuildRestart s (fun t =>
        t.hm.svRun = some {} ∧ t.hm.svRetries = min 255 (s.hm.svRetries + 1) ∧ t.hm.man = s.hm.man))))

/-- Rake cuts by top-p and draws a candidate, and always finds one. For a step that is not greedy and a position that has
candidates, with C the running sums of their weights, W the last of them and u the generator's value for seed, STEP
and draft position: kept is the least index whose sum times 65536 is at least p times W (p being TOP_P, or 65536 where
it is 0), t is u times C of kept over 2^64, and the candidate selected is the one of the least index, at most kept,
whose sum lies above t. Such an index always exists. (R170.) -/
def Obligations.RakeDraw : Prop :=
  ∀ (p : List Byte) (context logits : List Nat) (seed n d : Nat) (c0 : Nat × Nat) (cs : List (Nat × Nat)),
    rakeCandidates p context logits = c0 :: cs → fieldAt p 4 4 ≠ 0 →
    (let cands := c0 :: cs
     let c := runningSums 0 (cands.map (fun x => rakeWeight c0.2 x.2))
     let w := c.getLastD 0
     let pv := if fieldAt p 10 2 = 0 then 65536 else fieldAt p 10 2
     ∃ kept < cands.length, pv * w ≤ c.getD kept 0 * 65536 ∧ (∀ i < kept, c.getD i 0 * 65536 < pv * w) ∧
       (let t := generator seed n d * c.getD kept 0 / 2 ^ 64
        t < c.getD kept 0 ∧ ∃ j ≤ kept, t < c.getD j 0 ∧ (∀ i < j, c.getD i 0 ≤ t) ∧
          rakeSelect p context logits seed n d = (cands[j]?).map (·.1)))

/-- How contexts are stopped, saved and restored, and arrays reassigned. While inference is not halted: at a quantum
boundary the accounts are settled, CX_VF takes effect, and every prompt die's arrays are reassigned, and RD's where no
plan is loaded. Where the die's units are not halted, a stop sets STOP on every array the context holds and ends its
claiming; once every array has stopped, the context holds none, and it goes on where it was stopped for bookings alone
that no longer stand. A save begins where the image fits, one at a time on a die; its end puts header, scratch portion
and extent at the save area's place and frees the context, or loses the image to an uncorrectable error, and waiting
descriptors are tried. A restore takes the lowest free number, and at its end portion and extent are as they were
saved and the context goes on, or it is lost to an uncorrectable error. The CX registers take what their ranges allow,
and CX_VF's weight waits for the next boundary. The completion statement of these commands; a boundary is the arrival
of its time (log 17) and the save area's place is log 42. (R187, R190, R191, R192, R193, R194, R202, R203.) -/
def Obligations.ContextCommands : Prop :=
  (∀ (s : State), s.halted .inference = false →
    (let t0 := s.reachNs (s.sh.quantumT + s.regN cxBlock * 1000 : Nat)
     let t := { t0.settle with sh := { t0.settle.sh with quantumT := t0.settle.T } }.takeCxVf
     let u := (List.range 4).foldl (fun u n => u.reassign (Die.ofIndex n)) t
     t0.pastNs (s.sh.quantumT + s.regN cxBlock * 1000 : Nat) = true →
       exec .quantumBoundary s = .next (if s.planLoaded then u else u.reassign .rd)) ∧
    (∀ (n : Fin 4) (c : Fin 8) (cx : Ctx), s.ctxOf (ctxKey (.pd n) c) = some cx → tsorted 0 s.sh.ctx = true →
      (∀ a, cx.st = .stopping → cx.stopped = true → s.saveSlot n cx = some a →
        (cx.stopFor = .share ∨ s.inAffected n cx = true) →
        (∀ e ∈ s.sh.ctx, e.1 / 8 = n.val → e.2.st ≠ .saving ∧ e.2.st ≠ .restoring) →
        Runs (.contextSaveBegin n c) s (fun t => t.ctxOf (ctxKey (.pd n) c) = some { cx with st := .saving })) ∧
      (cx.st = .saving → (s.rangeBad cx.scratch cx.scratchLen || s.rangeBad cx.extent cx.extentLen) = false →
        ∀ a, s.saveSlot n cx = some a → s.regBit trcCfg 31 = false →
        ∃ u : State, exec (.contextSaveEnd n c) s = .next (u.serveWait (.pd n)) ∧
          u.ctxOf (ctxKey (.pd n) c) = none ∧
          u.sh.saved = s.sh.saved ++ [{ die := n, ctx := { cx with st := .saved }, addr := a, held := cx.held, num := c }] ∧
          u.mem = ((s.store a (cx.header c s.T)).store (a + 4096)
            (s.load cx.scratch cx.scratchLen ++ s.load cx.extent cx.extentLen)).mem) ∧
      (cx.st = .saving → (s.rangeBad cx.scratch cx.scratchLen || s.rangeBad cx.extent cx.extentLen) = true →
        exec (.contextSaveEnd n c) s =
          .next (((s.saveError n cx).setCtx (ctxKey (.pd n) c) none).serveWait (.pd n))) ∧
      (cx.st = .restoring → s.rangeBad cx.restoreFrom cx.imageBytes = false → s.regBit trcCfg 31 = false →
        ∃ u : State, exec (.contextRestoreEnd n c) s = .next (u.goOn (.pd n) (ctxKey (.pd n) c) cx) ∧
          u.mem = ((s.store cx.scratch (s.load (cx.restoreFrom + 4096) cx.scratchLen)).store cx.extent
            (s.load (cx.restoreFrom + 4096 + cx.scratchLen) cx.extentLen)).mem) ∧
      (cx.st = .restoring → s.rangeBad cx.restoreFrom cx.imageBytes = true →
        exec (.contextRestoreEnd n c) s =
          .next (((s.saveError n cx).setCtx (ctxKey (.pd n) c) none).serveWait (.pd n)))) ∧
    (∀ (k : Fin 64) (e : SavedCtx) num, s.sh.saved[k.val]? = some e → s.restorable e = true →
      s.freeCtx (Die.ofIndex e.die) = some num →
      (∀ q ∈ s.sh.ctx, q.1 / 8 = e.die → q.2.st ≠ .saving ∧ q.2.st ≠ .restoring) →
      exec (.contextRestoreBegin k) s = .next
        ({ s with sh := { s.sh with saved := s.sh.saved.eraseIdx k } }.setCtx (ctxKey (Die.ofIndex e.die) num)
          (some { e.ctx with st := .restoring, stopped := false, restoreFrom := e.addr })))) ∧
  (∀ (s : State) (d : Die) (c : Fin 8) (cx : Ctx), s.halted (dieUnit d) = false → s.ctxOf (ctxKey d c) = some cx →
    tsorted 0 s.sh.ctx = true →
    (cx.st = .running → tsorted 0 s.regs = true → (∀ g ∈ cx.arrays, g < 84) → Runs (.contextStop d c) s (fun t =>
      t.ctxOf (ctxKey d c) =
        some { cx with st := .stopping, rel := [], target := 0, held := cx.arrays, stopFor := .share } ∧
      ∀ g ∈ cx.arrays, t.esStop g = true)) ∧
    (∀ nexts, cx.st = .stopping → cx.stopped = false → (∀ g ∈ cx.arrays, s.arrayStopped g = true) →
      nexts.length = cx.arrays.length →
      (cx.stopFor = .share ∨ (cx.stopFor = .booking ∧ s.inAffected d.index cx = true) →
        Runs (.contextStopDone d c nexts) s (fun t =>
          ∃ cx', t.ctxOf (ctxKey d c) = some cx' ∧ cx'.arrays = [] ∧ cx'.stopped = true ∧ cx'.st = .stopping)) ∧
      (cx.stopFor = .booking → s.inAffected d.index cx = false → cx.run ≠ none →
        Runs (.contextStopDone d c nexts) s (fun t =>
          ∃ cx', t.ctxOf (ctxKey d c) = some cx' ∧ cx'.stopped = false ∧ cx'.st = .running)))) ∧
  (∀ (s : State) (m : Agent) (v : Word), s.isPf m = true →
    exec (.cxQuantumWrite m v) s = .next (s.setReg cxBlock (max 100 (v.toNat % 2 ^ 16))) ∧
    (20 ≤ v.toNat % 2 ^ 11 → v.toNat % 2 ^ 11 ≤ 1480 →
      exec (.cxMarginWrite m v) s = .next (s.setReg (cxBlock + 0x004) (v.toNat % 2 ^ 11))) ∧
    (v.toNat % 2 ^ 11 < 20 ∨ 1480 < v.toNat % 2 ^ 11 → exec (.cxMarginWrite m v) s = .next s) ∧
    (∀ (f : Fin 513), tsorted 0 s.regs = true → Runs (.cxVfWrite m f v) s (fun t =>
      t.regB (cxBlock + 0x1000 + 4 * f) 15 0 =
        (if v.toNat % 2 ^ 16 = 0 then s.regB (cxBlock + 0x1000 + 4 * f) 15 0 else v.toNat % 2 ^ 16) ∧
      t.regB (cxBlock + 0x1000 + 4 * f) 31 16 = v.toNat / 2 ^ 16 % 2 ^ 5 ∧
      t.weight f = s.weight f ∧ (∀ n < 4, t.mayPd f n = s.mayPd f n) ∧ t.mayRd f = s.mayRd f)))

/-- The life of a booking in the tide table. An entry submitted by an RD core that acts, from a state that takes one, is
REFUSED with the reason of its first failing check, counted and signalled, or ACCEPTED with its affected set; CANCEL
withdraws a live one. While inference is not halted: with everything it needs free it is READY at that time; at
T_START it is ACTIVE if READY and RADIO_ONLY is not in force, and otherwise LATE, counted and signalled; a LATE one
takes what is free and turns ACTIVE with the last of what it needs; a stop that is due stops the context whose save is
next and makes the accepted bookings that affect it CLEARING; from T_START less the margin, contexts that only lose
named arrays release those on which no tile runs; at T_START + DUR it is DONE. At its end or withdrawal an ACTIVE
booking's queued stages and passes are discarded, running passes go on, and the entry has its last state; passes still
queued at the end are counted. A doorbell more than 4,096 records ahead is only counted. The completion statement of
these commands; an instant of a booking is the arrival of its time (log 17), and log 123 reads CANCEL of an ACTIVE
entry. (R195, R196, R197, R198, R199, R200, R201, R202, R388.) -/
def Obligations.BookingCommands : Prop :=
  (∀ (s : State) (k : Fin 16) (n : Fin 4) (i : Fin 64) (v : Word), k.val < 4 → Acts (.core .rd k) s →
    (let m : Agent := .core .rd k
     let e : TtEntry := { s.ttOf n i with
       valid := true, arrays := bitsOf v.toNat 15 0, rwin := bitsOf v.toNat 25 16, core := bitsOf v.toNat 27 26
       margin := s.regN (cxBlock + 0x004), reason := 0, nsaved := 0, tReady := 0, saved4k := 0
       affected := [], losing := [], taken := [] }
     ((s.ttOf n i).live = false → v.getLsbD 31 = true →
       (s.ttCheck n i e ≠ 0 → exec (.ttEntrySubmit m n i v) s =
         .next (((s.setTt n i { e with st := .refused, reason := s.ttCheck n i e }).count (ttBlock + 0x01C) 1).ttIrq e)) ∧
       (s.ttCheck n i e = 0 → tsorted 0 s.tt.entries = true → Runs (.ttEntrySubmit m n i v) s (fun t =>
         (t.ttOf n i).st = .accepted ∧ (t.ttOf n i).affected = s.affected n e ∧ (t.ttOf n i).arrays = e.arrays ∧
         (t.ttOf n i).rwin = e.rwin ∧ (t.ttOf n i).core = e.core ∧ (t.ttOf n i).margin = e.margin))) ∧
     ((s.ttOf n i).live = true →
       exec (.ttEntryCancel m n i) s = .next ((s.discardBooked n i).ttOver n i .cancelled) ∧
       ((s.ttOf n i).st ≠ .active → s.discardBooked n i = s)) ∧
     ((∃ b ∈ s.tt.entries, b.1 / 64 = n.val ∧ b.2.st = .active) →
       (let ahead := (v.toNat % 2 ^ 16 + 2 ^ 16 - tget 0 s.tt.taken n) % 2 ^ 16
        let u := { s with tt := { s.tt with written := tset 0 s.tt.written n (v.toNat % 2 ^ 16) } }
        (4096 < ahead → exec (.ttRingDoorbell m n v) s = .next (s.count (ttBlock + 0x020) 1)) ∧
        (ahead ≤ 4096 → exec (.ttRingDoorbell m n v) s = .next (u.takeRecords n ahead)))))) ∧
  (∀ (s : State) (n : Fin 4) (i : Fin 64), s.halted .inference = false → tsorted 0 s.tt.entries = true →
    (let e := s.ttOf n i
     (e.st = .accepted ∨ e.st = .clearing → s.ttFree n i = true →
       exec (.ttReady n i) s = .next ((s.setTt n i { e with st := .ready, tReady := s.T }).ttIrq e)) ∧
     (let t := s.reachNs e.start
      t.pastNs e.start = true →
       (e.st = .ready → s.radioOnly = false → exec (.ttStart n i) s = .next (t.ttActivate n i e) ∧
         ((t.ttActivate n i e).ttOf n i).st = .active) ∧
       (e.st = .accepted ∨ e.st = .clearing ∨ (e.st = .ready ∧ s.radioOnly = true) → exec (.ttStart n i) s =
         .next (((t.setTt n i { e with st := .late }).count (ttBlock + 0x014) 1).ttIrq e))) ∧
     (e.st = .late → (s.ttFree n i = true → Runs (.ttLateArrayFree n i) s (fun t => (t.ttOf n i).st = .active)) ∧
       (s.ttFree n i = false → exec (.ttLateArrayFree n i) s =
         .next (s.setTt n i { e with taken := (e.named n).filter (s.ttArrayFree n i) }))) ∧
     (let due : Int := (e.start : Int) - e.margin * 1000
      e.st = .accepted ∨ e.st = .clearing ∨ e.st = .late → (s.reachNs due).pastNs due = true → tsorted 0 s.sh.ctx = true →
       Runs (.ttReleaseDue n i) s (fun t => t.mem = s.mem ∧ t.tt = s.tt ∧
         ∀ k c, s.ctxOf k = some c → k / 8 = n.val → e.losing.contains c.id = true → c.run = none →
           ∃ c', t.ctxOf k = some c' ∧ ∀ g ∈ c'.arrays, g ∈ c.arrays ∧ g ∉ e.named n)) ∧
     (let t := s.reachNs (e.start + e.dur : Nat)
      let u := t.discardBooked n i
      e.live = true → t.pastNs (e.start + e.dur : Nat) = true → exec (.ttEnd n i) s = .next
        ((if t.bookedQueued n i then u.count (ttBlock + 0x018) 1 else u).ttOver n i .done)) ∧
     (tsorted 0 s.es = true → ∀ g ∈ s.bookedOnly n i,
       let x := (s.discardBooked n i).esOf g
       x.sfifo = [] ∧ x.sStall = [] ∧ x.pfifo = [] ∧ x.pStall = [] ∧ x.runs = (s.esOf g).runs) ∧
     (∀ st, ((s.ttOver n i st).ttOf n i).st = st))) ∧
  (∀ (s : State) (n : Fin 4) (due : Int) (key : Nat) rest, s.halted .inference = false →
    (saveStarts (s.saveQueue n)).1 = (due, key) :: rest → (s.reachNs due).pastNs due = true →
    exec (.ttStopDue n) s = .next ((s.reachNs due).ttStop n key) ∧
    (∀ (i : Fin 64) c, tsorted 0 s.tt.entries = true → s.ctxOf key = some c → (s.ttOf n i).st = .accepted →
      (s.ttOf n i).affected.contains c.id = true → (((s.reachNs due).ttStop n key).ttOf n i).st = .clearing))

/-- What fronthaul reception and the gain loops do. While the radio is not halted and the port runs: a frame that uses an
unsupported option, or matches no context, is counted in FH_RX_NOMATCH; one of a stream of the plan has its sequence
checked; an uplink U-plane packet of a receive stream is counted as early or late outside its window, is not processed
where the slot has no configuration in time, is counted as a duplicate with PRBs already received, and is otherwise
expanded, scaled and stored, its PRBs joining the symbol's with the symbol's gain. At the window's close missing PRBs
read as zero and are marked as erased, also in a side record already written. At a symbol's end the side record is
written, the gain moves as the loop says but not where frozen, and the freeze counts the symbol. A freeze ends with
its last counted symbol's updates; FH_AGC_REL releases a cell; FH_AGC_CFG and FH_PORT_CFG take what their ranges
allow. The completion statement of these commands; arrivals and ends are the arrival of their time (log 17), and log
21 places the sample buffer. (R206, R207, R208, R209, R210, R212, R213, R214, R215, R229, R241.) -/
def Obligations.FronthaulCommands : Prop :=
  (∀ (s : State) (port : Fin 8) (sub : Option (Fin 4)) (h : FhHdr) (eaxc : BitVec 16), s.halted .radio = false →
      s.portUp port = true →
    let rx := s.rxMatch (ifaceOf port sub) h.vlan.toNat eaxc.toNat
    let tx := s.txMatch (ifaceOf port sub) h.vlan.toNat eaxc.toNat
    (∀ (sec : FhSection) (ext : Bool),
      let cmd : Instr := .fhCplaneRx port sub h eaxc sec ext
      ((h.supported 2 && sec.supported && !ext) = false →
        exec cmd s = .next (s.count (fhBlock + 0x100) 1)) ∧
      ((h.supported 2 && sec.supported && !ext) = true →
        (∀ i c, rx = some (i, c) → exec cmd s = .next (s.seqCheck i h.seq)) ∧
        (∀ i c, rx = none → tx = some (i, c) → exec cmd s = .next (s.txSeqCheck i h.seq)) ∧
        (rx = none → tx = none → exec cmd s = .next (s.count (fhBlock + 0x100) 1)))) ∧
    (∀ (comp : FhComp) (width : Option (Fin 17)) (frame : Nat) (slot : Fin 20) (sym : Fin 14) (arrival : Nat) (start : Fin 273)
        (prbs : List PrbData) (buf : PAddr),
      let cmd : Instr := .fhUplaneRx port sub h eaxc comp width frame slot sym arrival start prbs buf
      let s0 := s.reachRaw (arrival / 64)
      ((h.supported 0 && comp.supported width) = false → exec cmd s = .next (s0.count (fhBlock + 0x100) 1)) ∧
      ((h.supported 0 && comp.supported width) = true →
        (rx = none → tx = none → exec cmd s = .next (s0.count (fhBlock + 0x100) 1)) ∧
        (∀ i c, rx = none → tx = some (i, c) → exec cmd s = .next (s0.txSeqCheck i h.seq)) ∧
        (∀ i c, rx = some (i, c) →
          let s1 := s0.seqCheck i h.seq
          let x := tget {} s1.fh.rx i
          let y := x.symOf frame slot sym
          let w := windowOf c (s1.tSym c.mu frame slot sym) (s1.rxTime (portQ port sub) arrival)
          let dup := ∃ k < prbs.length, start.val + k ∈ y.prbs
          let bits := match width with | some w => w.val | none => c.iqwUl
          let comps := (prbs.map (prbValues bits (gainFactor y.g))).flatMap (·.1)
          (w = 1 → exec cmd s = .next (s1.count (fhBlock + 0x104) 1)) ∧
          (w = 2 → exec cmd s = .next (s1.count (fhBlock + 0x108) 1)) ∧
          (w = 0 → s1.slotOff c frame slot true = true → exec cmd s = .next s1) ∧
          (w = 0 → s1.slotOff c frame slot true = false → dup → exec cmd s = .next (s1.count (fhBlock + 0x10C) 1)) ∧
          (w = 0 → s1.slotOff c frame slot true = false → ¬ dup → tsorted 0 s.fh.rx = true → Runs cmd s (fun t =>
            t.mem = (s1.store (buf.toNat + 48 * start.val) (comps.flatMap (fun v => leBytes 2 (toBits 16 v)))).mem ∧
            (tget {} t.fh.rx i).gain = x.gain ∧ ∃ z ∈ (tget {} t.fh.rx i).syms,
              z.frame = frame ∧ z.slot = slot.val ∧ z.sym = sym.val ∧ z.g = y.g ∧
              z.prbs = y.prbs ++ (List.range prbs.length).map (start.val + ·))))))) ∧
  (∀ (s : State) (p : Plan) (i : Fin 2048) (e : Cell × Nat) (frame : Nat) (slot : Fin 20) (sym : Fin 14) (a : PAddr),
    s.halted .radio = false → s.fh.active = some p → p.rxStreams[i.val]? = some e → s.cellUp e.1 = true →
    tsorted 0 s.fh.rx = true →
    (let x := tget {} s.fh.rx i.val
     let y := x.symOf frame slot sym
     let miss := (List.range e.1.prbs).filter (fun q => !y.prbs.contains q)
     let close := s.tSym e.1.mu frame slot sym + fine (e.1.ta4MaxUs * 1000)
     let s0 := s.reachC (cOfFine close)
     let s1 := miss.foldl (fun (u : State) q => u.store (a.toNat + 48 * q) (leBytes 48 0)) s0
     (cPast s0.now close = true → s0.slotOff e.1 frame slot true = false → miss ≠ [] →
       Runs (.fhRxWindowClose i frame slot sym a) s (fun t =>
         tget {} t.fh.rx i.val = x.putSym { y with erased := miss } ∧
         (y.side = none → t.mem = s1.mem) ∧
         (∀ b, y.side = some b → t.mem = (s1.storeNat (b + 2) 1 (s1.loadNat (b + 2) 1 ||| 2)).mem))) ∧
     (∀ y, x.syms.find? (fun z => z.frame == frame && z.slot == slot.val && z.sym == sym.val) = some y → 0 < y.count →
       y.side = none → tsorted 0 s.fh.freeze = true →
       (let due := s.symEnd e.1.mu frame slot sym
        let s0 := s.reachC (cOfFine due)
        let cfg := s.regN (fhBlock + 0x040)
        let target := ofBits 8 (cfg % 256)
        let p1 := if y.clipped then max (powerDb y.power y.count) (target + 24) else powerDb y.power y.count
        let err := p1 - target
        let hyst : Int := bitsOf cfg 23 16
        let fz := tget .none s.fh.freeze e.1.cell
        let g := if fz.holds y.key then x.gain else if hyst < err then x.gain - min err (bitsOf cfg 15 8)
          else if err < -hyst then x.gain + 1 else x.gain
        cPast s0.now due = true → Runs (.agcSymbolUpdate i frame slot sym a) s (fun t =>
          (tget {} t.fh.rx i.val).gain = (clampInt (-128) 127 g).1 ∧
          tget .none t.fh.freeze e.1.cell = fz.count y.key ∧
          t.mem = (s0.store a.toNat (leBytes 1 (toBits 8 y.g) ++ leBytes 1 (toBits 8 (clampInt (-128) 127 p1).1) ++
            leBytes 2 (b2n y.clipped + 2 * b2n (!y.erased.isEmpty) + 4 * b2n (fz.holds y.key)))).mem))))) ∧
  (∀ (s : State) (c : Fin 512), s.halted .radio = false → ∀ n seen, tget .none s.fh.freeze c.val = .symbols n seen →
    n ≤ seen.length → (∀ i ∈ s.cellStreams c, s.updateOwed seen i = false) →
    exec (.agcFreezeEnd c) s = .next { s with fh := { s.fh with freeze := tset .none s.fh.freeze c.val .none } }) ∧
  (∀ (s : State) (k : Fin 16) (c : Fin 512), k.val < 4 → s.halted .radio = false → s.dieOn .rd = true →
    tsorted 0 s.fh.freeze = true → Runs (.fhAgcRel (.core .rd k) c) s (fun t => tget .none t.fh.freeze c.val = .none)) ∧
  (∀ (s : State) (v : Word), s.isPf .pf = true → s.dieOn .rd = true → tsorted 0 s.regs = true →
    Runs (.fhAgcCfgWrite .pf v) s (fun t =>
      t.regB (fhBlock + 0x040) 23 16 = bitsOf v.toNat 23 16 ∧ t.regB (fhBlock + 0x040) 7 0 = bitsOf v.toNat 7 0 ∧
      t.regB (fhBlock + 0x040) 15 8 = if 1 ≤ bitsOf v.toNat 15 8 ∧ bitsOf v.toNat 15 8 ≤ 32 then bitsOf v.toNat 15 8
        else s.regB (fhBlock + 0x040) 15 8) ∧
    (∀ p : Fin 8, Runs (.fhPortCfgWrite .pf p v) s (fun t =>
      t.regBit (fhBlock + 0x020 + 4 * p.val) 0 = v.getLsbD 0 ∧
      ((∀ q, s.fh.active = some q ∨ s.fh.next = some q → ∀ c ∈ q.cells, c.port ≠ p.val) →
        t.regBit (fhBlock + 0x020 + 4 * p.val) 1 = v.getLsbD 1))))

/-- PRACH, FFT engines, slots, neural receivers and cell plans. While the radio is not halted: once an occasion's last
window has closed, an occasion that the detector would end more than 200 microseconds later is skipped and counted, and
otherwise the preambles found are reported; a report is counted, written to the ring for a cell that is not muted, and
freezes its cell. An FFT job of a supported size is queued, and the oldest one of an engine, its strobe given where it
needs one, writes its transform, halved as the radix stages that the command names require; a slot's configuration is noted, late and counted where its lead has passed, and one
that has not come by its lead is noted late and counted; the completion word follows the LLRs, with ERROR after a NaN,
an uncorrectable word or a lost pass; an allocation that a bad booking keeps from ending is counted in FB_NOBOOK. A
plan record that does not parse, or fails a check, sets its result; an accepted one waits for T_ACT, aborting the RD
contexts and starting RDC; UNLOAD ends the plan at the frame boundary at or after 100 ms; CANCEL withdraws an accepted
plan; at T_ACT the plan takes effect or ends; a loss of capacity stops cells at their next slot boundary and counts
them. The completion statement of these commands (logs 17, 18, 19, 21, 22, 154). (R217, R218, R219, R229, R230, R231, R233,
R235, R237, R238, R239, R240.) -/
def Obligations.RadioCommands : Prop :=
  (∀ (s : State) (c : Fin 512) (x : Cell), s.halted .radio = false → s.runCells.find? (fun q => q.cell == c.val) = some x →
    (∀ (frame : Nat) (slot : Fin 20) core r0 rs f n, x.prach = some (f, n) →
      let reps := r0 :: rs
      let at_ (r : PrachRep) : Int := s.tSym x.mu frame (slot.val + r.after.val) r.sym
      let first := rs.foldl (fun b r => min b (at_ r)) (at_ r0)
      let close := rs.foldl (fun b r => max b (at_ r)) (at_ r0) + fine (x.ta4MaxUs * 1000)
      let t := s.reachC (cOfFine close)
      let done := max close s.fh.prachFree + f.reps * f.weight * x.prachStreams * 500000
      let code := ((Config.prachConfig x.mu (x.period == 0) x.prachCfg).getD (0, 0)).1
      let found := (List.finRange 64).filterMap (fun v => prachPreamble f code x.restricted x.root x.zcz x.thresh x.mu
        x.prachStreams (reps.map (t.prachSamples f.len x.mu frame slot)) (Config.freeValue (s.free + v.val)) v)
      reps.length = f.reps * x.prachStreams → (∀ r ∈ reps, r.rx.val ∈ (s.cellStreams c).drop x.conf.rx) →
      allDistinct reps = true → cPast t.now close = true →
        (close + fine 200000 < done → exec (.prachOccasion c frame slot core reps) s = .next (t.count (fhBlock + 0x120) 1)) ∧
        (done ≤ close + fine 200000 → exec (.prachOccasion c frame slot core reps) s = .next
          (found.foldl (fun u d => u.prachReported x core (first / 3072).toNat d)
            { t.drew 64 with fh := { t.fh with prachFree := done } }))) ∧
    (∀ core tOcc d, tsorted 0 s.fh.freeze = true → tsorted 0 s.regs = true → s.muted x.cell = false →
      let t := s.prachReported x core tOcc d
      t.fh.reports = s.fh.reports + 1 ∧ t.regN (fhBlock + 0x11C) = (satAdd (s.reg (fhBlock + 0x11C)) 1).toNat ∧
      t.mem = (s.storeNat (prachSlot s.fh.reports) 16 (prachReport tOcc x.cell x.restricted d).toNat).mem ∧
      tget .none t.fh.freeze x.cell = if x.freeze = 0 then .held else .symbols x.freeze []) ∧
    (∀ (frame : Nat) (slot : Fin 20),
      (∀ (ul dl : Bool) (a : PAddr), s.dieOn .rd = true → inHd (s.key a.toNat) = true → s.rangeOk a.toNat 8 = true →
        exec (.slotConfigRx c frame slot ⟨ul, dl⟩ a) s =
          .next (let t := if ul then s.configIn x frame slot true else s
                 if dl then t.configIn x frame slot false else t)) ∧
      (∀ up, s.noteOf x.cell frame slot up = none →
        (s.pastNs (s.configDue x frame slot) = false → ∃ n ∈ (s.configIn x frame slot up).fh.notes,
          n.cell = x.cell ∧ n.frame = frame ∧ n.slot = slot.val ∧ n.uplink = up ∧ n.late = false) ∧
        (s.pastNs (s.configDue x frame slot) = true →
          s.configIn x frame slot up = (s.addNote x.cell frame slot up true).count (fhBlock + 0x128) 1)) ∧
      (let t := s.reachNs (s.configDue x frame slot)
       t.pastNs (s.configDue x frame slot) = true →
        (s.noteOf c frame slot true = none → exec (.ulConfigLate c frame slot) s =
          .next ((t.addNote c frame slot true true).count (fhBlock + 0x128) 1)) ∧
        (s.noteOf c frame slot false = none → exec (.dlConfigLate c frame slot) s =
          .next ((t.addNote c frame slot false true).count (fhBlock + 0x128) 1))))) ∧
  (∀ (s : State) (e : Fin 8), s.halted .radio = false → tsorted 0 s.fh.fft = true →
    (∀ src dst (size : Fin 4097) inv strobe, fftSizeOk size.val = true → s.dieOn .rd = true →
      Runs (.fftJobQueue e src dst size ⟨inv, strobe⟩) s (fun t => (tget {} t.fh.fft e.val).jobs =
        (tget {} s.fh.fft e.val).jobs ++
          [{ src := src.toNat, dst := dst.toNat, size := size.val, inverse := inv, strobe := strobe }])) ∧
    (∀ j js radices, (tget {} s.fh.fft e.val).jobs = j :: js → fftRadices radices j.size = true →
      (j.strobe = true → 0 < tget 0 s.td.fftStart e.val) →
      let xs := (List.range j.size).map (fun i => ci16 (s.loadNat (j.src + 4 * i) 4))
      let h := fftHalvings j.inverse radices xs
      Runs (.fftJobDone e radices) s (fun t =>
        (tget {} t.fh.fft e.val).jobs = js ∧ (tget {} t.fh.fft e.val).halvings = h ∧
        t.mem = (s.store j.dst ((dft j.inverse h xs).flatMap
          (fun y => leBytes 2 (toBits 16 (clampInt (-32768) 32767 y.1).1) ++
            leBytes 2 (toBits 16 (clampInt (-32768) 32767 y.2).1)))).mem))) ∧
  (∀ (s : State) (src dst word : PAddr) (n : Fin 65536) (alloc : LlrAlloc) (passes : List (Fin 84 × BitVec 16))
      (bookings : List (Fin 4 × Fin 64)) (c : Cell), s.halted .radio = false → s.dieOn .rd = true →
    s.runCells.find? (fun x => x.cell == alloc.cell.val) = some c → c.nrx ≠ 0 → inRd dst.toNat n.val = true →
    inRd word.toNat 8 = true →
    let cmd : Instr := .nrxCompletionWord src dst word n alloc passes bookings
    let buf (a len : Nat) : NrxBuf := { cell := c.cell, frame := alloc.frame, slot := alloc.slot, addr := a, len := len }
    let llr (i : Nat) := llr8 (s.loadNat (src.toNat + 4 * i) 4)
    let err := (∃ p ∈ passes, s.passCounted p = false) ∨ (∃ i < n.val, llr i = none) ∨ s.rangeBad src.toNat (4 * n.val) = true
    ((∃ p ∈ passes, s.passCounted p = false) → (∃ b ∈ bookings, s.bookingBad b = true) →
      exec cmd s = .next (s.count (fhBlock + 0x1008 + 16 * c.cell) 1)) ∧
    ((∀ p ∈ passes, s.passCounted p = false → s.passLost p = true) →
      ((∀ p ∈ passes, s.passCounted p = true) ∨ (∀ b ∈ bookings, s.bookingBad b = false)) →
      s.nrxFree (buf dst.toNat n.val) = true → s.nrxFree (buf word.toNat 8) = true →
      (∀ e : Bool, (e = true ↔ err) → Runs cmd s (fun t => ∃ u : State,
        t = u.storeNat word.toNat 8 (alloc.frame % 1024 + alloc.slot.val * 2 ^ 10 + 2 ^ 16 + b2n e * 2 ^ 17) ∧
        ((∀ i < n.val, llr i ≠ none) → u.mem = (s.store dst.toNat ((List.range n.val).map (fun i =>
          if s.llrErased alloc i then 0 else BitVec.ofNat 8 (toBits 8 ((llr i).getD 0))))).mem))))) ∧
  (∀ (s : State), s.isPf .pf = true → s.dieOn .rd = true →
    (let a := s.reg64 (fhBlock + 0x004) (fhBlock + 0x008)
     (s.readPlan a = none →
       exec (.fhPlanLoad .pf) s = .next ({ s with fh := { s.fh with result := 1 } } : State).mgmtEvent) ∧
     (∀ p, s.readPlan a = some p →
       (s.checkPlan p.cells p.tAct ≠ 0 → exec (.fhPlanLoad .pf) s =
         .next ({ s with fh := { s.fh with result := s.checkPlan p.cells p.tAct } } : State).mgmtEvent) ∧
       (s.checkPlan p.cells p.tAct = 0 → (let u := s.abortRd.startClock .rdc
         exec (.fhPlanLoad .pf) s =
           .next ({ u with fh := { u.fh with next := some p, result := 0, shedCount := 0 } } : State).mgmtEvent)))) ∧
    (s.fh.active.isSome = true → exec (.fhPlanUnload .pf) s = .next
      ({ s with fh := { s.fh with unload := some (s.frameAt (s.T + 100000000)).toNat } } : State).mgmtEvent) ∧
    (s.fh.next.isSome = true → exec (.fhPlanCancel .pf) s =
      .next ({ s with fh := { s.fh with next := none } } : State).mgmtEvent)) ∧
  (∀ (s : State), s.halted .radio = false →
    (∀ p, s.fh.next = some p → p.cells ≠ [] → (∀ d, s.fh.unload = some d → p.tAct ≤ d) →
      (s.reachNs p.tAct).pastNs p.tAct = true →
      Runs .fhPlanActivate s (fun t => t.fh.next = none ∧ ∃ q, t.fh.active = some q ∧ q.tAct = p.tAct ∧
        ∀ c ∈ p.cells, c ∈ q.cells)) ∧
    (∀ d : Nat, s.fh.unload = some d → (∀ p, s.fh.next = some p → d < p.tAct) → (s.reachNs d).pastNs d = true →
      Runs .fhPlanActivate s (fun t => t.fh.unload = none ∧ t.fh.next = s.fh.next ∧
        (s.armedCells = [] → t.fh.active = none)))) ∧
  (∀ (s : State) (p : Plan) (c : Cell) (cs : List Cell), s.fh.active = some p →
    p.cells.filter (fun x => (s.toShed p).contains x.cell) = c :: cs →
    let due := cs.foldl (fun b x => min b (s.slotAfter x.mu)) (s.slotAfter c.mu)
    let t := s.reachNs due
    let now := (c :: cs).filter (fun x => s.slotAfter x.mu == due)
    t.pastNs due = true → exec .cellShed s = .next (({ t with fh := { t.fh with
      stopped := t.fh.stopped ++ now.map Cell.cell
      shedCount := min 255 (t.fh.shedCount + now.length) } } : State).hiErr 6))

/-- How a Dibber takes interrupts, computes, loads and stores. While the radio is not halted and the cluster is ON: a
strobed SYM or SLOT switches sets as the table says, waits where its set or a higher one runs or the core is halted, is
lost and counted where the same one is already pending, and of both together SLOT is taken first; RETI takes a pending
SLOT first, then a held SET1, then a pending SYM, then MAIN. Lane operations run on the selected lanes of the set in
use; a load is issued in the set in use, and the oldest one arrives; a store converts the accumulators of the selected
lanes into a register, local memory, RD SRAM, or LLR8 bytes. DB_CTRL starts, halts and resets. The completion statement
of these commands (logs 136, 153, 155). (R52, R53, R54, R220, R221, R222, R223, R224, R230.) -/
def Obligations.DibberCommands : Prop :=
  (∀ (s : State) (c : Fin 48), s.halted .radio = false → s.dbOn c = true → tsorted 0 s.fh.db = true →
    (let x := s.dbOf c
     let y := x.stepPc
     (s.dbStrobed c false = true → s.regBit (dbReg c 0) 3 = true → x.slotPend = false →
       (x.symPend = false → x.halted = false → x.cur = .main →
         Runs (.dibberSymIrq c) s (fun t => t.dbOf c = { x with cur := .set1 })) ∧
       (x.symPend = false → x.halted = true ∨ x.cur ≠ .main →
         Runs (.dibberSymIrq c) s (fun t => t.dbOf c = { x with symPend := true })) ∧
       (x.symPend = true → x.halted = true ∨ x.cur ≠ .main → tsorted 0 s.regs = true →
         Runs (.dibberSymIrq c) s (fun t => t.dbOf c = x ∧
           t.regN (dbReg c 0x14) = (satAdd (s.reg (dbReg c 0x14)) 1).toNat))) ∧
     (s.dbStrobed c true = true → s.regBit (dbReg c 0) 4 = true → x.halted = false → x.slotPend = false →
       (x.cur ≠ .set2 → Runs (.dibberSlotIrq c false) s (fun t =>
         t.dbOf c = { x with cur := .set2, held1 := x.held1 || x.cur == .set1, bankB := s.bankNow })) ∧
       (x.cur = .set2 → Runs (.dibberSlotIrq c false) s (fun t => t.dbOf c = { x with slotPend := true })) ∧
       (x.cur ≠ .set2 → s.dbStrobed c false = true → s.regBit (dbReg c 0) 3 = true → x.symPend = false →
         Runs (.dibberSlotIrq c true) s (fun t => t.dbOf c =
           { x with symPend := true, cur := .set2, held1 := x.held1 || x.cur == .set1, bankB := s.bankNow }))) ∧
     (x.halted = false → x.cur ≠ .main → Runs (.dibberReti c) s (fun t =>
       t.dbOf c = if x.slotPend then { x with slotPend := false, cur := .set2, bankB := s.bankNow }
         else if x.held1 then { x with held1 := false, cur := .set1 }
         else if x.symPend then { x with symPend := false, cur := .set1 } else { x with cur := .main })) ∧
     (x.halted = false → ∀ lanes : BitVec 32,
       (∀ (acc : Fin 8) (a b : Fin 32) (conj neg : Bool), tsorted 0 x.regs.a = true →
         Runs (.dibberCmac c acc a b conj neg lanes) s (fun t =>
           ∀ l < 32, (t.dbOf c).regs.acc acc l =
             if lanes.getLsbD l then
               (let p := cmul conj neg (ci16 (x.regs.vec a l)) (ci16 (x.regs.vec b l))
                ((acc40 (x.regs.acc acc l).1 p.1).1, (acc40 (x.regs.acc acc l).2 p.2).1))
             else x.regs.acc acc l)) ∧
       (∀ op : LaneOp, (∀ d src, op ≠ .load d src) → op ≠ .arrive → (let o := runLanes op.lane y.regs (lanesOf lanes)
         exec (.dibberLaneOp c op lanes) s = .next ((s.setDb c (y.setRegs o.1)).dbFlags c o.2.1 o.2.2.1 o.2.2.2))) ∧
       (∀ d src, exec (.dibberLaneOp c (.load d src) lanes) s = .next (s.dbLoad c d src lanes) ∧
         ∃ bytes bad, ((s.dbLoad c d src lanes).dbOf c).loads =
           x.loads ++ [{ set := x.cur, reg := d, lanes := lanes, bytes := bytes, bad := bad }])) ∧
     (∀ lanes l ls, x.loads = l :: ls → exec (.dibberLaneOp c .arrive lanes) s = .next (s.setDb c x.arrive) ∧
       x.arrive.loads = ls) ∧
     (∀ (acc : Fin 8) (sh : Fin 32) (rnd : StoreRound) (wide symm : Bool) (lanes : BitVec 32), x.halted = false →
       let w := if wide then 32 else 16
       let bytes := (lanesOf lanes).flatMap (fun l => leBytes (if wide then 8 else 4)
         (toBits w (cstore sh.val rnd w symm (x.regs.acc acc l).1).1 +
          toBits w (cstore sh.val rnd w symm (x.regs.acc acc l).2).1 * 2 ^ w))
       (∀ d : Fin 32, wide = false → tsorted 0 x.regs.v = true →
         Runs (.dibberStore c acc sh rnd wide symm (.vreg d) lanes) s (fun t =>
           ∀ l < 32, (t.dbOf c).regs.vec d l = if lanes.getLsbD l then
             toBits 16 (cstore sh.val rnd 16 symm (x.regs.acc acc l).1).1 +
             toBits 16 (cstore sh.val rnd 16 symm (x.regs.acc acc l).2).1 * 2 ^ 16 else x.regs.vec d l)) ∧
       (∀ o : BitVec 18, Runs (.dibberStore c acc sh rnd wide symm (.dmem o) lanes) s (fun t =>
         (t.dbOf c).dmem = (x.dmemStore o.toNat bytes).dmem ∧ (t.dbOf c).regs = y.regs ∧ t.mem = s.mem)) ∧
       (∀ a : PAddr, Runs (.dibberStore c acc sh rnd wide symm (.device a) lanes) s (fun t =>
         (t.dbOf c).regs = y.regs ∧ (t.dbOf c).dmem = x.dmem ∧
         t.mem = if inRd a.toNat bytes.length then (s.store a.toNat bytes).mem else s.mem)) ∧
       (∀ (a : PAddr) (al : LlrAlloc) (k : Nat),
         let es := (lanesOf lanes).flatMap (fun l =>
           [(cstore sh.val .nearestEven 40 false (x.regs.acc acc l).1).1,
            (cstore sh.val .nearestEven 40 false (x.regs.acc acc l).2).1])
         inRd (a.toNat + k) es.length = true → Runs (.dibberStore c acc sh rnd wide symm (.llr a al k) lanes) s (fun t =>
           t.mem = (s.store (a.toNat + k) (s.llrBytes al k es)).mem))))) ∧
  (∀ (s : State) (k : Fin 16) (c : Fin 48) (v : Word), k.val < 4 → s.halted .radio = false → s.dieOn .rd = true →
    tsorted 0 s.fh.db = true → tsorted 0 s.regs = true →
    Runs (.dbCtrlRun (.core .rd k) c v) s (fun t =>
      (t.dbOf c).halted = !v.getLsbD 0 ∧ t.regN (dbReg c 0) = v.toNat &&& 0xFFFF19) ∧
    Runs (.dbCtrlReset (.core .rd k) c v) s (fun t =>
      (t.dbOf c).main = {} ∧ (t.dbOf c).set1 = {} ∧ (t.dbOf c).set2 = {} ∧ (t.dbOf c).cur = .main ∧
      (t.dbOf c).symPend = false ∧ (t.dbOf c).slotPend = false ∧ (t.dbOf c).held1 = false ∧
      (t.dbOf c).halted = (!v.getLsbD 0) ∧ (t.dbOf c).dmem = (s.dbOf c).dmem))

/-- How the coding clusters take jobs, run them and complete them. An RD core's pointer writes are taken where the ring
allows them and otherwise set BAD_PTR. The next job of a cluster that is ON and enabled and has room in its table and
completion ring is copied and, where a check fails, completed at once with BAD_JOB or ADDRESS; else it joins the
table. The job that a free engine of its kind takes is carried out: an input with an uncorrectable word ends it with
ECC; LDPC encoding, polar and Trellis jobs write their output and complete with the status their checks give, a failed
VERIFY with its own status. An LDPC_DEC does so for the set that was selected, whose record is added, kept or lost as
COMBINE and KEEP ask, but waits where a KEEP has no room that a spill can make. A job past its DEADLINE completes
LATE; ABORT ends the jobs of the table in order while there is room, and the handles of LDPC_DEC jobs become LOST. The
completion statement of these commands; the coding tables of 3GPP are opaque (log 24), and logs 17, 26 and 69 name the
model's choices. (R243, R245, R246, R248, R249, R250, R252, R256, R257, R259, R261, R263.) -/
def Obligations.CodingCommands : Prop :=
  (∀ (s : State) (k : Fin 16) (c : Fin 4) (w : BitVec 16) (v : Word), k.val < 4 → s.halted .radio = false →
    s.dieOn .rd = true → (let m : Agent := .core .rd k
     let bad := (s.setReg (dsReg c 0x004) (s.regN (dsReg c 0x004) ||| 8)).dsIrq c
     let ahead := (w.toNat + 2 ^ 16 - (s.dsOf c).sqHead) % 2 ^ 16
     let old := s.regB (dsReg c 0x024) 15 0
     let u := s.setReg (dsReg c 0) (v.toNat &&& 0x31)
     (s.dsRing (dsReg c 0x010) < ahead → exec (.dsSqDoorbell m c w) s = .next bad) ∧
     (ahead ≤ s.dsRing (dsReg c 0x010) → exec (.dsSqDoorbell m c w) s = .next (s.setReg (dsReg c 0x014) w.toNat)) ∧
     (((s.dsOf c).cqTail + 2 ^ 16 - old) % 2 ^ 16 < (w.toNat + 2 ^ 16 - old) % 2 ^ 16 →
       exec (.dsCqHeadWrite m c w) s = .next bad) ∧
     ((w.toNat + 2 ^ 16 - old) % 2 ^ 16 ≤ ((s.dsOf c).cqTail + 2 ^ 16 - old) % 2 ^ 16 →
       exec (.dsCqHeadWrite m c w) s = .next (s.setReg (dsReg c 0x024) w.toNat)) ∧
     exec (.dsCtrlEnable m c v) s = .next u ∧
     exec (.dsCtrlAbort m c v) s = .next ((s.dsOf c).jobs.foldl (fun t j =>
       let x := DsFields.parse j.job
       if t.dsFull c then t
       else (if x.opc = 1 then t.loseHandle x.harq else t).dsEnd c 0 x { status := 6 }) u))) ∧
  (∀ (s : State) (c : Fin 4), s.halted .radio = false → s.dsOn c = true → s.regBit (dsReg c 0) 0 = true →
    s.dsFull c = false →
    ((s.dsOf c).jobs.length < 256 → (s.dsOf c).sqHead ≠ s.regB (dsReg c 0x014) 15 0 → tsorted 0 s.ds.cluster = true →
      (let a := s.reg64 (dsReg c 0x008) (dsReg c 0x00C) + (s.dsOf c).sqHead % s.dsRing (dsReg c 0x010) * 64
       let x := DsFields.parse (BitVec.ofNat 512 (s.loadNat a 64))
       let s1 := (s.dsReads a 64).setDs c { s.dsOf c with sqHead := ((s.dsOf c).sqHead + 1) % 2 ^ 16 }
       (x.badJob = true ∨ s.harqRefused x = true → exec (.dsJobCopy c) s = .next (s1.dsComplete c x { status := 3 })) ∧
       (x.badJob = false → s.harqRefused x = false → x.badAddress = true →
         exec (.dsJobCopy c) s = .next (s1.dsComplete c x { status := 4 })) ∧
       (x.badJob = false → s.harqRefused x = false → x.badAddress = false →
         Runs (.dsJobCopy c) s (fun t => (t.dsOf c).jobs =
           (s.dsOf c).jobs ++ [{ job := BitVec.ofNat 512 (s.loadNat a 64) }] ∧ (x.opc ≠ 1 → t.mem = s.mem))))) ∧
    (∀ (i : Fin 256) j, (s.dsOf c).jobs[i.val]? = some j →
      (let x := DsFields.parse j.job
       let t := s.reachNs (x.deadline + 1)
       t.pastNs (x.deadline + 1) = true → exec (.dsJobLate c i) s =
        .next ((t.count (dsReg c 0x108) 1).dsEnd c i x { status := 2 })))) ∧
  (∀ (s : State) (c : Fin 4) (i : Fin 256) (x : DsFields) (j : DsJob) (t : State), s.halted .radio = false →
    (let u := t.dsReads x.src x.inBytes
     let bits := unpackBits x.a (u.load x.src x.inBytes)
     (s.dsJob c i 2 = some (x, j, t) →
      (t.rangeBad x.src x.inBytes = true → exec (.dsLdpcEnc c i) s = .next (u.dsEcc c i x)) ∧
      (t.rangeBad x.src x.inBytes = false → exec (.dsLdpcEnc c i) s = .next ((u.store x.dst (bitBytes
        (ldpcEncodeTb (x.b46 % 2) x.a x.e (x.b46 / 2) x.b47 x.b48 x.w56 x.w50 bits))).dsEnd
          c i x { status := 0, cbs := x.shape.c }))) ∧
     (s.dsJob c i 4 = some (x, j, t) →
      (t.rangeBad x.src x.inBytes = true → exec (.dsPolarEnc c i) s = .next (u.dsEcc c i x)) ∧
      (t.rangeBad x.src x.inBytes = false → exec (.dsPolarEnc c i) s =
        .next ((u.store x.dst (bitBytes (polarEncode x.b46 x.a x.e x.rnti bits))).dsEnd c i x { status := 0, cbs := 1 }))) ∧
     (s.dsJob c i 5 = some (x, j, t) →
      (t.rangeBad x.src x.inBytes = true → exec (.dsTbEnc c i) s = .next (u.dsEcc c i x)) ∧
      (t.rangeBad x.src x.inBytes = false →
        (let out := tbEncode x.gens x.e x.rnti bits
         let r := tbDecode x.gens (x.a + 16) x.passes (out.map (fun b => if b then -127 else 127))
         let wrong := x.verify = true ∧ (r.2.1 = false ∨ r.1.take x.a ≠ bits)
         (¬ wrong → exec (.dsTbEnc c i) s = .next ((u.store x.dst (bitBytes out)).dsEnd c i x { status := 0, cbs := 1 })) ∧
         (wrong → exec (.dsTbEnc c i) s = .next
           (((u.store x.dst (bitBytes out)).count (dsReg c 0x110) 1).dsEnd c i x { status := 7, cbs := 1 })))))) ∧
    (let u := t.dsReads x.src x.e
     (s.dsJob c i 3 = some (x, j, t) →
      (t.rangeBad x.src x.e = true → exec (.dsPolarDec c i) s = .next (u.dsEcc c i x)) ∧
      (t.rangeBad x.src x.e = false →
        (let vals := descramble x.w50 (u.llrs x.src x.e)
         let g := x.segs
         let rs := (List.range g.1).map (fun k => polarDecode g.2.1 g.2.2 ((vals.drop (k * g.2.2)).take g.2.2))
         let bits := rs.flatMap (·.1)
         exec (.dsPolarDec c i) s = .next ((u.store x.dst (bitBytes ((bits.drop (bits.length - x.a)).take x.a))).dsEnd c i x {
           status := if rs.all (·.2.2) then 0 else 1, info := (rs.map (·.2.1)).foldl max 0, cbs := g.1
           cbFail := (rs.filter (fun r => !r.2.2)).length })))) ∧
     (s.dsJob c i 6 = some (x, j, t) →
      (t.rangeBad x.src x.e = true → exec (.dsTbDec c i) s = .next (u.dsEcc c i x)) ∧
      (t.rangeBad x.src x.e = false →
        (let r := tbDecode x.gens (x.a + 16) x.passes (u.llrs x.src x.e)
         let ok := tbBlock (r.1.take x.a) x.rnti == r.1
         exec (.dsTbDec c i) s = .next ((u.store x.dst (bitBytes (r.1.take x.a))).dsEnd c i x {
           status := if ok then 0 else 1, info := r.2.2, hflags := 8 * b2n (!r.2.1), cbs := 1, cbFail := b2n (!ok) }))))) ∧
    (s.dsJob c i 1 = some (x, j, t) →
      let h := t.handle x.harq
      let neural := j.sel == some true
      let src := if neural then sramBase .rd + x.nsrc else x.src
      let u := t.dsReads src x.e
      let vals := dematchBlocks x (descramble x.w50 (u.llrs src x.e))
      let tb (rs : List (List Bool × Bool × Nat)) := rs.flatMap (fun r => if x.shape.c = 1 then r.1 else r.1.take (x.shape.kp - 24))
      let out (u : State) (bufs : List (Table Int)) : State := u.store x.dst (bitBytes ((tb (decodeBlocks x bufs)).take x.a))
      let fin (u : State) (bufs : List (Table Int)) (hflags : Nat) : State :=
        let rs := decodeBlocks x bufs
        let fail := (rs.filter (fun r => !r.2.1)).length
        u.dsEnd c i x {
          status := if fail = 0 ∧ tbCrcOk x.a (tb rs) = true then 0 else 1, info := (rs.map (·.2.2)).foldl max 0
          hflags := hflags + 4 * b2n neural, cbs := x.shape.c, cbFail := fail }
      (t.keepNoRoom x = true → t.canSpill = true → exec (.dsLdpcDec c i) s = .next s) ∧
      (t.keepNoRoom x = false ∨ t.canSpill = false →
        (t.rangeBad src x.e = true → exec (.dsLdpcDec c i) s = .next (u.dsEcc c i x)) ∧
        (t.rangeBad src x.e = false →
          (x.combine = false → x.keep = false → exec (.dsLdpcDec c i) s = .next
            (fin ((if x.new then (out u vals).emptyHandle x.harq else out u vals).usedHandle x.harq) vals 0)) ∧
          (x.combine = true → x.new = false → x.keep = false → h.st = 1 → t.rangeBad h.addr h.len = false →
            (let u := u.dsReads h.addr h.len
             let bufs := u.combineRecord h x.shape.ncb (dematchBlocks x (descramble x.w50 (u.llrs src x.e)))
             exec (.dsLdpcDec c i) s = .next (fin ((out u bufs).usedHandle x.harq) bufs 0))) ∧
          (x.combine = true → x.new = false → x.keep = false → h.st = 4 → exec (.dsLdpcDec c i) s = .next
            (fin (((out u vals).usedHandle x.harq).count (dsReg c 0x10C) 1) vals 1)) ∧
          (x.combine = false → x.keep = true →
            (let k := (out u vals).keepRecord x vals
             (k.2 = true → exec (.dsLdpcDec c i) s = .next (fin (k.1.usedHandle x.harq) vals 0)) ∧
             (k.2 = false → exec (.dsLdpcDec c i) s = .next
               (fin ((k.1.usedHandle x.harq).count (dsReg c 0x10C) 1) vals 2))))))))

/-- Neural selection and the HARQ soft buffers. Once a job's START has come and the selections before it at the same START
are made, its completion word is read: the neural set is taken, and counted in NEURAL, where the word is this slot's,
complete and without error; a fallback is counted as late or as an error, and reported as not decoded where the
classical set is short. FREE empties a handle once no table job names it; PREFETCH makes a record of the HBM pool
MOVING where the RD pool has room, and otherwise waits; where space is needed and no other spill runs, a spill makes
its victim MOVING where the HBM pool has room; the copy's end puts the record there, or makes it LOST. The completion
statement of these commands (logs 17, 25). (R232, R233, R247, R259, R260, R261, R262, R263.) -/
def Obligations.HarqCommands : Prop :=
  (∀ (s : State) (c : Fin 4) (i : Fin 256) (j : DsJob) (y : Cell), s.halted .radio = false →
    s.dsOn c = true → s.regBit (dsReg c 0) 0 = true → (s.dsOf c).jobs[i.val]? = some j →
    let x := DsFields.parse j.job
    x.opc = 1 → x.nsel = true → j.sel = none → s.runCells.find? (fun q => q.cell == x.cell) = some y →
    (∀ z ∈ (s.dsOf c).jobs.take i, let q := DsFields.parse z.job
      q.opc = 1 → q.nsel = true → q.start = x.start → z.sel ≠ none) →
    (let t := s.reachNs x.start
     let w := t.loadNat (sramBase .rd + x.w56) 8
     let slot := t.nselSlot y x.start
     let fresh : Prop := w % 1024 = slot.1 ∧ bitsOf w 15 10 = slot.2 ∧ bitOf w 16 = true
     let sel (b : Bool) (o : Nat) : State := ((t.dsReads (sramBase .rd + x.w56) 8).setDs c { t.dsOf c with
       jobs := (t.dsOf c).jobs.set i.val { j with sel := some b } }).count (fhBlock + 0x1000 + 16 * x.cell + o) 1
     let back (u : State) : State := if t.setShort x slot then u.notDecoded x.cell slot else u
     t.pastNs x.start = true →
       (fresh → bitOf w 17 = false → exec (.dsNselRead c i) s = .next (sel true 0)) ∧
       (fresh → bitOf w 17 = true → exec (.dsNselRead c i) s = .next (back (sel false 12))) ∧
       (¬ fresh → exec (.dsNselRead c i) s = .next (back (sel false 4))))) ∧
  (∀ (s : State) (k : Fin 16) (h : BitVec 14), k.val < 4 → s.halted .radio = false → s.dieOn .rd = true →
    (s.handleNamed h.toNat = false → s.ds.freeing = [] → s.ds.wants = [] →
      exec (.dsHarqFree (.core .rd k) h) s = .next (s.emptyHandle h.toNat)) ∧
    (s.handleNamed h.toNat = true → s.ds.freeing = [] → s.ds.wants = [] →
      exec (.dsHarqFree (.core .rd k) h) s = .next { s with ds := { s.ds with freeing := [h.toNat] } }) ∧
    ((s.handle h.toNat).st = 2 →
      (∀ a, s.harqRoom false (s.handle h.toNat).len = some a →
        Runs (.dsHarqPrefetch (.core .rd k) h) s (fun t =>
          t.mem = (s.setHandle h.toNat { s.handle h.toNat with st := 3 }).mem ∧
          t.ds.moves = s.ds.moves ++ [{ handle := h.toNat, toHbm := false, dst := a }])) ∧
      (s.harqRoom false (s.handle h.toNat).len = none → h.toNat ∉ s.ds.wants →
        exec (.dsHarqPrefetch (.core .rd k) h) s =
          .next { s with ds := { s.ds with wants := s.ds.wants ++ [h.toNat] } }))) ∧
  (∀ (s : State), s.halted .radio = false →
    (∀ v a, s.spillVictim = some v → s.harqRoom true (s.handle v).len = some a → s.harqNeed = true →
      (∀ y ∈ s.ds.moves, y.toHbm = false) → Runs .harqSpill s (fun t =>
        t.mem = (s.setHandle v { s.handle v with st := 3 }).mem ∧
        t.ds.moves = s.ds.moves ++ [{ handle := v, toHbm := true, dst := a }])) ∧
    (∀ (h : BitVec 14) mv, s.ds.moves.find? (fun m => m.handle == h.toNat) = some mv → s.ds.freeing = [] →
      s.ds.wants = [] →
      (let x := s.handle h.toNat
       let ok := s.rangeBad x.addr x.len = false ∧ s.rangeOk x.addr x.len = true ∧ s.rangeOk mv.dst x.len = true
       (x.st = 3 → ok → Runs (.harqSpillDone h) s (fun t =>
         t.mem = ((s.store mv.dst (s.load x.addr x.len)).setHandle h.toNat
           { x with st := if mv.toHbm then 2 else 1, addr := mv.dst }).mem ∧
         t.ds.moves = s.ds.moves.filter (fun y => y.handle != h.toNat))) ∧
       (x.st = 3 → ¬ ok → Runs (.harqSpillDone h) s (fun t => t.mem = (s.loseHandle h.toNat).mem)) ∧
       (x.st ≠ 3 → Runs (.harqSpillDone h) s (fun t => t.mem = s.mem)))))

/-- Reads, staging, sources and the frame grid of Tide. A read of TD_RAW_LO by the live PF, or by a Pilot core that acts,
latches the raw count and C for that master, which then reads the latched words in TD_RAW, TD_NOW and TD_1588; what the
other masters have latched stands. GO stages an adjustment with V and TD_RATE as they stand, for the later of TD_ADJ_AT
and the count plus 8 (V and RATE at GO: the model's choice, log 44); it is ignored while one is pending, and from the PF
while the servo owns adjustment. TD_SRC takes its fields; TD_FRAME_OFS is taken in its range where no cell plan is
loaded, and every NR generator restarts; otherwise it is ignored. With the servo on, a source that is lost sets STATE to
HOLDOVER and TD_RATE to RATE's mean over the previous 1,000 s and stages that rate where no adjustment is pending, and
its return sets LOCKED and stages the servo's rate or step (what counts as lost: log 45). A time flit of a link that is
UP gives the offset to the peer. The completion statement of these commands. (R267, R268, R270, R271, R277, R278, R280,
R284, R285.) -/
def Obligations.TideCommands : Prop :=
  (∀ (s : State) (m : Agent) (k : Nat), latchKey m = some k → Acts m s → (m = .pf → s.fnLive 0 = true) →
    tsorted 0 s.td.latch = true → Runs (.tdRawLoRead m) s (fun t =>
      t.tdView k 0x010 = some (s.td.raw % 2 ^ 32) ∧ t.tdView k 0x014 = some (s.td.raw / 2 ^ 32 % 2 ^ 32) ∧
      t.tdView k 0x018 = some (s.now % 2 ^ 32) ∧ t.tdView k 0x01C = some (s.now / 2 ^ 32 % 2 ^ 32) ∧
      t.tdView k 0x020 = some (s.now / 2 ^ 64 % 2 ^ 32) ∧
      t.tdView k 0x024 = some (s.now / 2 ^ 16 / 10 ^ 9 % 2 ^ 48 % 2 ^ 32) ∧
      t.tdView k 0x028 = some (s.now / 2 ^ 16 / 10 ^ 9 % 2 ^ 48 / 2 ^ 32) ∧
      t.tdView k 0x02C = some (s.now / 2 ^ 16 % 10 ^ 9) ∧
      ∀ j, j ≠ k → tget {} t.td.latch j = tget {} s.td.latch j)) ∧
  (∀ (s : State) (m : Agent), Acts m s →
    (∀ (c : Instr) (op : Nat), (c, op) ∈ [(Instr.tdAdjRate m, 0), (Instr.tdAdjStep m, 1), (Instr.tdAdjSet m, 2)] →
      (s.td.adj.isSome = true ∨ (m = .pf ∧ s.regBit tdBlock 0 = true) → exec c s = .next s) ∧
      (s.mayAdjust m = true → s.td.adj = none → exec c s = .next { s with td := { s.td with adj := some {
        at_ := max (s.reg64 (tdBlock + 0x054) (tdBlock + 0x058)) (s.td.raw + 8)
        op := op
        v := s.regN (tdBlock + 0x048) + s.regN (tdBlock + 0x04C) * 2 ^ 32 + s.regN (tdBlock + 0x050) * 2 ^ 64
        rate := ofBits 32 (s.regN (tdBlock + 0x040)) } } })) ∧
    (s.tdWriter m = true → ∀ v : Word,
      exec (.tdSrcWrite m v) s = .next (s.setReg (tdBlock + 0x008) (v.toNat &&& 0x13F07)) ∧
      (s.planLoaded = true ∨ v.toInt < -5000000 ∨ 4999999 < v.toInt → exec (.tdFrameOfsWrite m v) s = .next s) ∧
      (s.planLoaded = false → -5000000 ≤ v.toInt → v.toInt ≤ 4999999 → tsorted 0 s.regs = true → tsorted 0 s.td.stb = true →
        Runs (.tdFrameOfsWrite m v) s (fun t => t.frameOfs = v.toInt ∧
          (∀ i < 64, t.stbMode i = s.stbMode i ∧ tget 0 t.td.stb i =
            if 3 ≤ s.stbMode i then t.stbPassed i else tget 0 s.td.stb i))))) ∧
  (∀ (s : State), s.regBit tdBlock 0 = true → tsorted 0 s.regs = true →
    (∀ announce : Fin 8, s.sourceLost announce = true → s.regB tdBlock 6 4 ≠ 3 → Runs (.servoSourceLost announce) s (fun t =>
      t.regB tdBlock 6 4 = 3 ∧ t.regN (tdBlock + 0x040) = toBits 32 s.meanRate ∧
      (s.td.adj = none → ∃ a, t.td.adj = some a ∧ a.op = 0 ∧ a.rate = ofBits 32 (toBits 32 s.meanRate)) ∧
      (s.td.adj ≠ none → t.td.adj = s.td.adj))) ∧
    (∀ (step : Bool) (v : BitVec 96) (w : Word), s.srcKind ≠ 0 → s.sourceLost 0 = false → s.regB tdBlock 6 4 = 3 →
      step = false ∨ s.fh.active = none ∨ 1100 * 2 ^ 16 ≤ v.toInt.natAbs →
      Runs (.servoSourceReturn step v w) s (fun t => t.regB tdBlock 6 4 = 2 ∧ t.regN (tdBlock + 0x040) = w.toNat ∧
        (s.td.adj = none → ∃ a, t.td.adj = some a ∧ a.op = (if step then 1 else 0) ∧ a.v = v.toNat ∧ a.rate = w.toInt) ∧
        (s.td.adj ≠ none → t.td.adj = s.td.adj)))) ∧
  (∀ (s : State) (z : Fin 36) (t1 t2 t3 t4 : BitVec 70), s.linkUp z = true → exec (.zlTimeFlit z t1 t2 t3 t4) s =
    .next { s with td := { s.td with zlOfs := tset 0 s.td.zlOfs z.val <|
      ((((t2.toNat : Int) - t1.toNat) - ((t4.toNat : Int) - t3.toNat)) * 3125 / 3 -
        ofBits 32 (s.regN (tdBlock + 0x500 + 4 * z.val))) } })

/-- An adjustment changes the time base at its tick. At tick a the staged adjustment sets BASE to C_old, to (C_old + V)
modulo 2⁹⁶ or to V, ANCHOR to a and RATE to the staged rate, and is no longer pending; C at a is the new BASE; a
backward step increments TD_STEP_BACK and sets TD_STATUS.BACK, and no other adjustment makes C at a less than C_old
unless the sum wraps. (R268, R269.) -/
def Obligations.TideAdjustment : Prop :=
  ∀ (s : State) (a : TdAdj), s.td.adj = some a → s.clk.tideLock = true ∨ a.at_ ≤ s.td.raw → a.op < 3 → a.v < 2 ^ 96 →
    tsorted 0 s.regs = true →
    (let old := s.cAt (64 * a.at_)
     let base := if a.op = 0 then old else if a.op = 1 then (old + a.v) % 2 ^ 96 else a.v
     let back := (a.op = 1 ∧ 2 ^ 95 ≤ a.v) ∨ (a.op = 2 ∧ a.v < old)
     Runs .tdAdjApply s (fun t =>
       t.td.adj = none ∧ t.td.base = base ∧ t.td.anchor = a.at_ ∧ t.td.rate = a.rate ∧ t.cAt (64 * a.at_) = base ∧
       (¬ back → old + a.v < 2 ^ 96 ∨ a.op ≠ 1 → old ≤ t.cAt (64 * a.at_)) ∧
       (back → t.regN (tdBlock + 0x060) = (satAdd (s.reg (tdBlock + 0x060)) 1).toNat ∧
         t.regBit (tdBlock + 0x004) 1 = true)))

/-- How PTP frames are timestamped and forwarded. While the radio is not halted and the ports pass frames: where the engine
runs on a port, a received management message is passed to the host with a management event, a supported message of
another kind goes to the engine with the C of its receive timestamp, a Sync on the selected source port renews that
source, and a Pdelay message is dropped; a Sync leaves one-step with its own time and the fraction added to
correctionField, or two-step with its C and sequenceId kept; a transparent port forwards with residence time and both
ports' latencies added to correctionField of a Delay_Req or one-step Sync, holds them in the table, where one of its 64
entries is free, for a two-step Sync and adds them to its Follow_Up; it forwards every other message and a Follow_Up
with no entry unchanged, and counts the latter; the engine receives the frame too where it runs on the port. An entry
unmatched for 1 s is removed and counted (that time: log 17; a full table and a FWD_Q that names no port: log 46). The
completion statement of these commands. (R207, R272, R274, R275, R276, R278, R285.) -/
def Obligations.PtpCommands : Prop :=
  (∀ (s : State) (q : Fin 32) (phase : BitVec 6) (seq : BitVec 16) (corr : Int), s.halted .radio = false →
    s.ptpUp q = true → s.regBit (tdPort q) 0 = true →
    (let r := 64 * s.td.raw + phase.toNat
     let c := (((s.cAt r : Int) + s.regB (tdLat q) 31 16 * 2 ^ 12) % 2 ^ 96).toNat
     (∀ (h : PtpHdr), h.supported = true →
       exec (.ptpRx q { h with msg := .pdelay } phase) s = .next s ∧
       exec (.ptpRx q { h with msg := .management } phase) s =
         .next ({ s with td := { s.td with ptpHost := s.td.ptpHost ++ [q.val] } } : State).mgmtEvent ∧
       (∀ msg, msg ≠ .pdelay → msg ≠ .management → exec (.ptpRx q { h with msg := msg, seq := seq } phase) s = .next { s with td := { s.td with
         ptpIn := s.td.ptpIn ++ [{ q := q, r := r, c := (s.rxTime q r % 2 ^ 96).toNat, msg := msg, seq := seq.toNat }]
         syncSeen := if (msg = .syncOneStep ∨ msg = .syncTwoStep) ∧ s.srcKind = 1 ∧
           s.regB (tdBlock + 0x008) 13 8 = q.val then s.td.raw else s.td.syncSeen } })) ∧
     exec (.ptpSyncTx q phase seq corr) s = .next { s with td := { s.td with ptpOut := s.td.ptpOut ++
       [if s.regBit (tdPort q) 2 then
         { q := q, r := r, c := c, msg := .syncOneStep, seq := seq.toNat, sec := c / 2 ^ 16 / 10 ^ 9 % 2 ^ 48
           ns := c / 2 ^ 16 % 10 ^ 9, corr := corr + (c % 2 ^ 16 : Nat) }
        else { q := q, r := r, c := c, msg := .syncTwoStep, seq := seq.toNat, corr := corr, twoStep := true }] } })) ∧
  (∀ (s : State) (q : Fin 32) (phase : BitVec 6) (rIn : BitVec 70) (key : BitVec 104) (seq : BitVec 16) (corr : Int),
    (let fwd := s.regB (tdPort q) 13 8
     let r := 64 * s.td.raw + phase.toNat
     let extra : Int := ((r - rIn.toNat : Nat) : Int) * 3125 * (2 ^ 48 + s.td.rate) / (3 * 2 ^ 48) +
       ((s.regB (tdLat q) 15 0 + s.regB (tdLat fwd) 31 16) * 2 ^ 12 : Nat)
     s.halted .radio = false → s.ptpUp q = true → fwd < 32 → s.ptpUp fwd = true → s.regBit (tdPort q) 1 = true →
     s.regBit (tdPort q) 14 = true → rIn.toNat ≤ r → tsorted 0 s.regs = true →
     (let held := s.td.tc.filter (fun e => e.q / 4 == q.val / 4)
      let mine := fun e : TcEntry => e.q == q.val && e.key == key.toNat
      let sent (msg : PtpMsg) (x : Int) (t : State) : Prop := t.td.ptpFwd = s.td.ptpFwd ++ [{ src := q, dst := fwd, corr := x }] ∧
        t.td.ptpIn = if s.regBit (tdPort q) 0 then s.td.ptpIn ++
          [{ q := q, r := rIn.toNat, c := (s.rxTime q rIn.toNat % 2 ^ 96).toNat, msg := msg, seq := seq.toNat }] else s.td.ptpIn
      let missed (t : State) : Nat := t.regN (tdBlock + 0x068)
      (∀ msg, msg = .delayReq ∨ msg = .syncOneStep → Runs (.ptpTcForward q msg rIn phase key seq corr) s (fun t =>
        sent msg (corr + extra) t ∧ t.td.tc = s.td.tc ∧ t.regs = s.regs)) ∧
      (∀ msg ∈ [PtpMsg.delayResp, .announce, .signaling, .management, .pdelay],
        Runs (.ptpTcForward q msg rIn phase key seq corr) s (fun t => sent msg corr t ∧ t.td.tc = s.td.tc ∧ t.regs = s.regs)) ∧
      Runs (.ptpTcForward q .syncTwoStep rIn phase key seq corr) s (fun t => sent .syncTwoStep corr t ∧ t.regs = s.regs ∧
        t.td.tc = if held.length < 64 then
          s.td.tc ++ [{ q := q, key := key.toNat, residence := extra, since := s.td.raw }] else s.td.tc) ∧
      (∀ e, s.td.tc.find? mine = some e → Runs (.ptpTcForward q .followUp rIn phase key seq corr) s (fun t =>
        sent .followUp (corr + e.residence) t ∧ t.td.tc = lrmFirst mine s.td.tc ∧ t.regs = s.regs)) ∧
      (s.td.tc.find? mine = none → Runs (.ptpTcForward q .followUp rIn phase key seq corr) s (fun t =>
        sent .followUp corr t ∧ t.td.tc = s.td.tc ∧ missed t = (satAdd (s.reg (tdBlock + 0x068)) 1).toNat))))) ∧
  (∀ (s : State) (p : Fin 8) (i : Fin 64) (e : TcEntry),
    (s.td.tc.filter (fun e => e.q / 4 == p.val))[i.val]? = some e → tsorted 0 s.regs = true →
    e.since + rawUs 1000000 ≤ (s.reachRaw (e.since + rawUs 1000000)).td.raw → Runs (.tcEntryExpire p i) s (fun t =>
      t.td.tc = lrmFirst (· == e) s.td.tc ∧ t.regN (tdBlock + 0x068) = (satAdd (s.reg (tdBlock + 0x068)) 1).toNat))

/-- Strobes, pulses, captures and the barrier. At target − ADV a strobe fires for its next target and signals every Dibber
and drives every TRIG_OUT pin that selects it; enabling a generator skips the targets already passed, and a ONE_SHOT or a
single target enabled too late counts one miss; while a generator runs only MODE changes; PPS_OUT pulses at its targets
for WIDTH ns; every DIV-th selected edge is captured with its raw position and C, and overwrites an untaken record with
OVERRUN and a count, and an edge of PPS_IN renews that source; at TD_BAR_T the barrier sets ENABLE on every masked
sequencer, interrupts every Pilot core, clears ARM and sets FIRED, and LATE where its time had passed at ARM (the arrival
of a target's time: log 17). The completion statement of these commands. (R278, R279, R280, R281, R282, R283, R285.) -/
def Obligations.StrobeCommands : Prop :=
  (∀ (s : State) (i : Fin 64) (x : Int), (s.stbTargets i).at (tget 0 s.td.stb i) = some x → s.stbMode i ≠ 0 →
    tsorted 0 s.td.stb = true →
    (let t := s.reachC (cOfFine (x - s.stbAdv i))
     cPast t.now (x - s.stbAdv i) = true → Runs (.strobeFire i) s (fun u =>
       u.td.raw = t.td.raw ∧ tget 0 u.td.stb i = tget 0 s.td.stb i + 1 ∧
       (∀ c < 48, (s.regB (dbBlock + 0x100 * c) 15 8 = i.val → 2 * c ∈ u.td.signals) ∧
         (s.regB (dbBlock + 0x100 * c) 23 16 = i.val → 2 * c + 1 ∈ u.td.signals)) ∧
       (∀ k < 4, s.regBit (tdBlock + 0x0A0 + 4 * k) 18 = true → s.regBit (tdBlock + 0x0A0 + 4 * k) 16 = false →
         s.regB (tdBlock + 0x0A0 + 4 * k) 7 0 = i.val → ∃ y ∈ u.td.pulses, y.pin = 2 + k ∧ y.raw = t.td.raw ∧
           y.width = max 1 (s.regB (tdBlock + 0x0A0 + 4 * k) 15 8))))) ∧
  (∀ (s : State) (m : Agent) (i : Fin 64) (v : Word), s.stbWriter m = true → Acts m s → tsorted 0 s.regs = true →
    tsorted 0 s.td.stb = true →
    (s.stbMode i = 0 → Runs (.tdStbCfgWrite m i v) s (fun t =>
      t.regN (stbReg i 0) = v.toNat &&& 0x3FFF000F ∧
      (t.stbMode i ≠ 0 → tget 0 t.td.stb i = t.stbPassed i) ∧
      t.regN (tdBlock + 0x064) = if (t.stbMode i = 1 ∨ (t.stbMode i = 2 ∧ s.regN (stbReg i 16) = 0)) ∧ t.stbPassed i = 1 then
        (satAdd (s.reg (tdBlock + 0x064)) 1).toNat else s.regN (tdBlock + 0x064))) ∧
    (s.stbMode i ≠ 0 → Runs (.tdStbCfgWrite m i v) s (fun t =>
      t.regN (stbReg i 0) = s.regN (stbReg i 0) / 8 * 8 + v.toNat % 8 ∧
      (t.stbMode i ≠ 0 → t.stbMode i ≠ s.stbMode i → tget 0 t.td.stb i = t.stbPassed i)))) ∧
  (∀ (s : State) (j : Fin 2) (x : Int), (s.ppsTargets j).at (tget 0 s.td.pps j) = some x → s.ppsMode j ≠ 0 →
    (let t := s.reachC (cOfFine x)
     cPast t.now x = true → tsorted 0 s.td.pps = true → Runs (.ppsOutPulse j) s (fun u => tget 0 u.td.pps j = tget 0 s.td.pps j + 1 ∧
       u.td.pulses = s.td.pulses ++ [{ pin := j, raw := t.td.raw, width := s.regN (ppsReg j 16), low := s.regBit (ppsReg j 0) 2 }]))) ∧
  (∀ (s : State) (m : Agent) (j : Fin 2) (v : Word), s.tdWriter m = true → Acts m s → tsorted 0 s.regs = true →
    tsorted 0 s.td.pps = true → s.ppsMode j = 0 → Runs (.tdPpsCfgWrite m j v) s (fun t => t.regN (ppsReg j 0) = v.toNat % 8 ∧
      (t.ppsMode j ≠ 0 → tget 0 t.td.pps j = (t.ppsTargets j).upTo t.fineNow))) ∧
  (∀ (s : State) (i : Fin 6) (falling : Bool) (phase : BitVec 6), s.capSelected i falling = true → tsorted 0 s.regs = true →
    tsorted 0 s.td.cap = true →
    (let x := tget {} s.td.cap i
     let div := max 1 (s.regB (capReg i 0x18) 23 0)
     let seen := if i = 0 then s.td.raw else s.td.ppsSeen
     (x.edges + 1 < div → exec (.captureEdge i falling phase) s = .next { s with td := { s.td with
       cap := tset {} s.td.cap i { x with edges := x.edges + 1 }, ppsSeen := seen } }) ∧
     (div ≤ x.edges + 1 → Runs (.captureEdge i falling phase) s (fun t =>
       tget {} t.td.cap i = { edges := 0, r := 64 * s.td.raw + phase.toNat, c := s.cAt (64 * s.td.raw + phase.toNat) } ∧
       t.td.ppsSeen = seen ∧
       t.regBit (capReg i 0x14) 31 = true ∧ t.regB (capReg i 0x14) 5 0 = phase.toNat ∧
       t.regBit (capReg i 0x14) 30 = (s.regBit (capReg i 0x14) 31 || s.regBit (capReg i 0x14) 30) ∧
       t.regN (tdBlock + 0x06C) = if s.regBit (capReg i 0x14) 31 then (satAdd (s.reg (tdBlock + 0x06C)) 1).toNat
         else s.regN (tdBlock + 0x06C))))) ∧
  (∀ (s : State) (m : Agent) (v : Word), Safe s → tsorted 0 s.irq = true →
    (let fired (t : State) : Prop := (∀ g < 84, s.regBit (tdBlock + 0x08C + 4 * (g / 32)) (g % 32) = true → t.esEnable g = true) ∧
       (∀ n < 4, s.regBit (tdBlock + 0x094) (20 + n) = true → t.regBit (dlBlock + 0x1000 * n) 0 = true) ∧
       (∀ c ∈ allCores, tget 0 t.irq (32 * c + IrqSrc.barrier.code) = tget 0 s.irq (32 * c + IrqSrc.barrier.code) + 1) ∧
       t.regBit barCtrl 0 = false ∧ t.regBit barCtrl 1 = true
     (s.regBit barCtrl 0 = true → (s.reachC s.barC).past s.barC = true → Runs .barrierFire s fired) ∧
     (s.stbWriter m = true → Acts m s → v.toNat % 2 = 1 →
       (s.barC < s.now → Runs (.barrierArm m v) s (fun t => fired t ∧ t.regBit barCtrl 2 = true)) ∧
       ((s.now : Int) ≤ s.barC → Runs (.barrierArm m v) s (fun t => t.regBit barCtrl 0 = true ∧
         ∀ g, t.esEnable g = s.esEnable g)))))

/-- How Zelic links change state and messages are forwarded. A write of ZL_LINK_CTRL by the PF or an HD core trains an
enabled link whose island is ON, leaves it DISABLED otherwise, disables it with ENABLE 0, and takes LOCK_SIDE only while
it is DISABLED; training that completes takes it UP with its peer and delay, or back to training where the peer has the
same MODULE; loss, and the sixteenth failed replay, count a DOWN and train again at once; a replay and the failures in a row are counted; while the fabric runs, a message
for another module goes on toward it with its link's delay added to AGE, or is dropped and counted where it is too old or
no link that is UP leads there, as is one of an unknown type. The completion statement of these commands. (R287, R288,
R289, R291, R292, R315.) -/
def Obligations.ZelicLinks : Prop :=
  ∀ (s : State) (z : Fin 36), Safe s → tsorted 0 s.zl.links = true →
    (∀ (w : Agent) (v : Word), s.tdWriter w = true → Acts w s →
      (v.toNat % 2 = 0 → Runs (.zlLinkCtrlWrite w z v) s (fun t => (t.linkOf z).st = .disabled)) ∧
      (v.toNat % 2 = 1 → (s.linkOf z).st = .disabled → Runs (.zlLinkCtrlWrite w z v) s (fun t =>
        (t.linkOf z).st = (if s.islOn (491 + z.val / 6) then .training else .disabled) ∧ t.lockSide z = v.getLsbD 1 ∧
          t.regBit (linkReg z 0) 0 = true)) ∧
      (v.toNat % 2 = 1 → (s.linkOf z).st ≠ .disabled → Runs (.zlLinkCtrlWrite w z v) s (fun t =>
        t.linkOf z = s.linkOf z ∧ t.lockSide z = s.lockSide z))) ∧
    (∀ (pm pl : BitVec 8) (d : BitVec 16), (s.linkOf z).st = .training → s.regBit (linkReg z 0) 0 = true →
      s.islOn (491 + z.val / 6) = true → Runs (.linkTrained z pm pl d) s (fun t =>
        t.regN (linkReg z 0xC) = d.toNat ∧
        if pm.toNat = s.moduleId (s.lockSide z) then (t.linkOf z).st = .training
        else t.linkOf z = { st := .up, peerModule := pm.toNat, peerLink := pl.toNat })) ∧
    (s.linkUp z = true →
      (∀ c, c = Instr.linkLoss z ∨ (c = Instr.linkReplayLimit z ∧ 16 ≤ (s.linkOf z).fails) → Runs c s (fun t =>
        (t.linkOf z).st = .training ∧ t.regB (linkReg z 8) 31 16 = min 0xFFFF (s.regB (linkReg z 8) 31 16 + 1))) ∧
      (∀ ok, Runs (.linkFlitReplay z ok) s (fun t =>
        t.regB (linkReg z 8) 15 0 = min 0xFFFF (s.regB (linkReg z 8) 15 0 + 1) ∧
        t.linkOf z = { s.linkOf z with fails := if ok then 0 else (s.linkOf z).fails + 1 })) ∧
      (∀ f : ZlFrame, s.zlOn = true →
        (f.parse.typ ∉ zlTypes → exec (.zlBadType z f) s = .next (s.count zlRouteDrop 1)) ∧
        (let m := f.parse
         let age := min 65535 (m.age + s.regB (linkReg z 0xC) 15 0)
         m.typ ∈ zlTypes → m.typ ≤ 12 → f.data.length = m.carried → m.dst ≠ s.moduleId (s.lockSide z) →
         (40000 < age → exec (.zlForward z f) s = .next (s.count zlAgeDrop 1)) ∧
         (age ≤ 40000 → ∀ l, s.route (s.lockSide z) m.dst = some l → s.linkUp l = true →
           exec (.zlForward z f) s = .next { s with zl := { s.zl with out := s.zl.out ++
             [{ link := l, queue := m.cls, msg := { m with age := age }, fwd := some s.td.raw }] } }) ∧
         (age ≤ 40000 → (∀ l, s.route (s.lockSide z) m.dst = some l → s.linkUp l = false) →
           exec (.zlForward z f) s = .next (s.count zlRouteDrop 1)))))

/-- How Zelic requests are issued, retried and given up. While inference is not halted, the fabric runs and nothing else is
in hand: a request with a job, a route that is UP and a free tag goes out stamped with this module, its job, the tag and
its next generation, and one to this module itself is delivered here; without a job it completes with NO_JOB, without a
route with NO_ROUTE, with a link not UP with LINK_DOWN, and without a free tag it waits; a copy is put in hand as its
chunks, of which a GET of one chunk goes out at once; a FENCE waits for earlier requests of its classes. Outside a stop, a
load, store or chunk without a response in ZL_TIMEOUT completes with TIMEOUT, is counted, leaves memory as it was, and its
tag is quarantined; an atomic or trigger is resent up to three times, on its first link while that is UP, and ends BUSY
or OUTCOME_UNKNOWN; a quarantined tag becomes free (the arrival of these times: log 17; the lowest free tag: log 50). The
completion statement of these commands. (R289, R293, R299, R303, R304, R305, R306, R307, R308, R314.) -/
def Obligations.ZelicRequests : Prop :=
  (∀ (s : State) (i : ZlAgent) (cls : Fin 4) (dst : BitVec 8), s.halted .inference = false → s.zlOn = true →
    s.zl.held = [] → tsorted 0 s.zl.tags = true →
    (let iss := s.issuer i
     let own := s.moduleId false
     let ends (c : Instr) (typ status : Nat) : Prop := Runs c s (fun t =>
       t.zl.done = s.zl.done ++ [{ iss := iss, typ := typ, status := status }] ∧ t.zl.out = s.zl.out)
     (∀ r : ZlOp,
       (s.jobOf iss = 0xFFFFF → ends (.zlRequestIssue i cls dst r) (r.msg cls dst).typ 0x14) ∧
       (s.jobOf iss ≠ 0xFFFFF → dst.toNat ≠ own → s.route false dst.toNat = none →
         ends (.zlRequestIssue i cls dst r) (r.msg cls dst).typ 0x13) ∧
       (s.jobOf iss ≠ 0xFFFFF → dst.toNat ≠ own → ∀ l, s.route false dst.toNat = some l → s.linkUp l = false →
         ends (.zlRequestIssue i cls dst r) (r.msg cls dst).typ 0x12) ∧
       (s.jobOf iss ≠ 0xFFFFF →
         (∀ g, s.freeTag = some g →
           (let m : ZlMsg := { r.msg cls dst with
              src := own, gen := ((s.tagOf g).gen + 1) % 16, tag := g, job := s.jobOf iss, age := 0 }
            (∀ l, dst.toNat ≠ own → s.route false dst.toNat = some l → s.linkUp l = true →
              Runs (.zlRequestIssue i cls dst r) s (fun t =>
                t.zl.out = s.zl.out ++ [{ link := l, queue := s.issQueue iss cls, msg := m }] ∧
                t.tagOf g = { gen := m.gen, req := some { iss := iss, msg := m, link := some l } })) ∧
            (dst.toNat = own → Runs (.zlRequestIssue i cls dst r) s (fun t => t.zl.loop = s.zl.loop ++ [m] ∧
              t.tagOf g = { gen := m.gen, req := some { iss := iss, msg := m, link := none, t0 := some s.td.raw, sent := 1 } })))) ∧
         (s.freeTag = none → (dst.toNat ≠ own → ∃ l, s.route false dst.toNat = some l ∧ s.linkUp l = true) →
           Runs (.zlRequestIssue i cls dst r) s (fun t => t.zl.held = [.req iss (r.msg cls dst) []] ∧ t.zl.out = s.zl.out)))) ∧
     (∀ (a : PAddr) (q : BitVec 48) (len : Fin 4294967297) (index : Fin 4096), len.val ≠ 0 →
       (let u (get : Bool) : State := { s with zl := { s.zl with
          copies := tset none s.zl.copies s.zl.nextCopy
            (some { iss := iss, get := get, left := ceilDiv (q.toNat % 4096 + len.val) 4096 })
          nextCopy := s.zl.nextCopy + 1 } }
        exec (.zlCopyPut i cls dst a q len index) s = .next
          ((u false).zlHold (.chunks iss false cls dst.toNat a.toNat q.toNat len index s.zl.nextCopy)) ∧
        exec (.zlCopyGet i cls dst a q len index) s = .next
          ((u true).zlHold (.chunks iss true cls dst.toNat a.toNat q.toNat len index s.zl.nextCopy))) ∧
       (q.toNat % 4096 + len.val ≤ 4096 → s.jobOf iss ≠ 0xFFFFF → dst.toNat ≠ own → ∀ l g,
         s.route false dst.toNat = some l → s.linkUp l = true → s.freeTag = some g →
         Runs (.zlCopyGet i cls dst a q len index) s (fun t => ∃ m : ZlMsg,
           m.typ = 9 ∧ m.dst = dst.toNat ∧ m.qaddr = q.toNat ∧ m.len = len.val ∧ m.index = index.val ∧ m.tag = g ∧
           m.job = s.jobOf iss ∧ t.zl.out = s.zl.out ++ [{ link := l, queue := s.issQueue iss cls, msg := m }] ∧
           t.tagOf g = { gen := m.gen, req := some { iss := iss, msg := m, link := some l, copy := some s.zl.nextCopy
                                                     dst := a.toNat } }))) ∧
     (∀ classes : BitVec 4, Runs (.zlFence i classes) s (fun t =>
       t.zl.held = if s.fenceWaits iss classes.toNat then [.fence iss classes.toNat] else [])))) ∧
  (∀ (s : State) (tag : Fin 131072) (r : ZlReq) (t0 : Nat), (s.tagOf tag).req = some r → r.t0 = some t0 →
    s.obs.stopped = false → s.zl.held = [] → tsorted 0 s.zl.tags = true → tsorted 0 s.regs = true →
    (let u := s.reachRaw (t0 + s.deadTarget)
     r.msg.typ ∈ [1, 3, 7, 9] → t0 + s.deadTarget ≤ u.td.raw → Runs (.zlRequestTimeout tag) s (fun t =>
      (r.iss.isLock = false → r.copy = none → t.zl.done = s.zl.done ++
        [{ iss := r.iss, typ := r.msg.typ, tag := tag, status := 0x10, err := r.msg.typ == 1
           data := if r.msg.typ = 1 then List.replicate r.msg.len 0xFF else [] }]) ∧ t.mem = s.mem ∧
      t.regN zlTimeouts = (satAdd (s.reg zlTimeouts) 1).toNat ∧
      (t.tagOf tag).req = none ∧ (t.tagOf tag).quar = some (u.td.raw + 2 * s.deadTarget))) ∧
    (r.msg.typ = 5 ∨ r.msg.typ = 11 →
      (let due := t0 + rawUs (50 * (r.retries + 1))
       r.retries < 3 → due ≤ (s.reachRaw due).td.raw →
       (let m := { r.msg with retry := r.retries + 1 }
        (∀ l, r.link = some l → Runs (.zlAtomicRetry tag) s (fun t =>
          t.zl.out = s.zl.out ++ (if s.linkUp l then [{ link := l, queue := s.issQueue r.iss r.msg.cls, msg := m }] else []) ∧
          t.tagOf tag = { s.tagOf tag with req := some { r with retries := r.retries + 1 } })) ∧
        (r.link = none → Runs (.zlAtomicRetry tag) s (fun t => t.zl.loop = s.zl.loop ++ [m] ∧
          t.tagOf tag = { s.tagOf tag with req := some { r with retries := r.retries + 1, sent := r.sent + 1 } })))) ∧
      (let u := s.reachRaw (t0 + rawUs 200)
       t0 + rawUs 200 ≤ u.td.raw → Runs (.zlAtomicFinal tag) s (fun t =>
        (r.iss.isLock = false → r.copy = none →
          ∃ d, t.zl.done = s.zl.done ++ [d] ∧ d.tag = tag.val ∧ d.status = if r.sent ≤ r.busy then 6 else 0x11) ∧
        (t.tagOf tag).req = none ∧ (t.tagOf tag).quar = some (u.td.raw + max (2 * s.deadTarget) (rawUs 256)))))) ∧
  (∀ (s : State) (tag : Fin 131072) (q : Nat), (s.tagOf tag).quar = some q → q ≤ (s.reachRaw q).td.raw →
    s.obs.stopped = false → s.zl.held = [] → tsorted 0 s.zl.tags = true →
    Runs (.zlTagRelease tag) s (fun t => t.tagOf tag = { s.tagOf tag with quar := none }))

/-- What requests do at their target and responses at their issuer. Of messages that arrive in time on a link, outside a
stop and with the trace off: a request whose reserved fields or length are not valid is refused and counted, as is one
that R295 refuses, with its status; a load or GET that passes is answered with the bytes, a store with its
acknowledgement once they are written, or COLLIDE where a word of it loses a collision, and a PUT chunk adds its bytes to
its counter; in the window after ENABLE an atomic or trigger is answered BUSY; one whose reply is cached gets that reply
and is not performed again, and otherwise, where the cache has room, it is performed once and its reply cached; a trigger
whose queue is full is answered BUSY. A response that matches its request's generation completes it and frees its tag, a
BUSY reply is noted, and GET_DATA is written and counted first; one that matches no request is counted in
ZL_STALE_DROP. The first message of this module's own is handled so too where it is refused or stale. The command of
message type 1 to 12 is, in this order, zlLoadReq, zlLoadRsp, zlStore, zlStoreAck, zlAtomicReq, zlAtomicRsp, zlPutData,
zlPutAck, zlGetReq, zlGetData, zlTrigger and zlTrigAck. The completion statement of these commands. (R289, R291, R292, R294, R295, R297, R298, R300, R301, R307, R308, R309.) -/
def Obligations.ZelicTarget : Prop :=
  (∀ (s : State) (z : Fin 36) (f : ZlFrame), Safe s →
    (let m := s.aged (some z.val) f.parse
     let cmd (typ : Nat) : Instr := zlCommand (some z) f [] typ
     let refused (t : State) : Prop := t.mem = s.mem ∧ t.regN zlQtRefuse = (satAdd (s.reg zlQtRefuse) 1).toNat
     (∀ typ ∈ [1, 3, 5, 7, 9, 11], Arrives s z f typ → m.valid = false →
       Runs (cmd typ) s (fun t => Replied s t z m 8 (fun _ => True) ∧ refused t)) ∧
     (∀ typ ∈ [1, 3, 7, 9], Arrives s z f typ → m.valid = true →
       (∀ u c, s.quayCheck m = (u, .refuse c) → Runs (cmd typ) s (fun t => Replied s t z m c (fun _ => True) ∧ refused t)) ∧
       (∀ u a, s.quayCheck m = (u, .here a) → s.rangeOff a m.len = false → s.rangeBad a m.len = false →
         s.partBad a m.len = false →
         (typ = 1 ∨ typ = 9 → Runs (cmd typ) s (fun t =>
           Replied s t z m 0 (fun r => r.len = m.len ∧ r.data = s.load a m.len) ∧ t.mem = s.mem)) ∧
         (typ = 3 → Runs (cmd typ) s (fun t => Replied s t z m 0 (fun _ => True) ∧ t.mem = (s.store a m.data).mem)) ∧
         (typ = 7 → Runs (cmd typ) s (fun t => Replied s t z m 0 (fun _ => True) ∧
           t.mem = ((s.store a m.data).countArrival m.index m.len).mem)) ∧
         (typ = 3 ∨ typ = 7 → ∀ lost, (s.zlStoreLost a m.data lost).2 = true → Runs (zlCommand (some z) f lost typ) s (fun t =>
           Replied s t z m 0xA (fun _ => True) ∧ t.mem = (s.zlStoreLost a m.data lost).1.mem)))) ∧
     (∀ typ ∈ [5, 11], Arrives s z f typ → m.valid = true → s.zl.busyFrom ≠ none →
       Runs (cmd typ) s (fun t => Replied s t z m 6 (fun _ => True) ∧ t.mem = s.mem)) ∧
     (∀ typ ∈ [5, 11], Arrives s z f typ → m.valid = true → s.zl.busyFrom = none → tsorted 0 s.zl.rc = true →
       (let cache := tget [] s.zl.rc z.val
        let hit (c : ZlReply) : Bool := c.src == m.src && c.tag == m.tag && c.gen == m.gen
        (∀ c l, cache.find? hit = some c → s.route (s.lockSide z) c.reply.dst = some l → s.linkUp l = true →
          Runs (cmd typ) s (fun t => t.mem = s.mem ∧ t.regN zlRcHit = (satAdd (s.reg zlRcHit) 1).toNat ∧
            t.zl.out = s.zl.out ++ [{ link := l, queue := c.reply.cls, msg := c.reply }])) ∧
        (cache.find? hit = none → cache.length < 8192 →
          (∀ u c, typ = 5 → s.quayCheck m = (u, .refuse c) → c ≠ 6 → Runs (cmd typ) s (fun t =>
            refused t ∧ Replied s t z m c (fun r => ∃ x, tget [] t.zl.rc z.val = cache ++ [x] ∧ hit x = true ∧ x.reply = r))) ∧
          (∀ u a, typ = 5 → s.quayCheck m = (u, .here a) → Runs (cmd typ) s (fun t =>
            (let x := u.zlAtomic a m
             t.mem = x.1.mem ∧ Replied s t z m x.2.1 (fun r => r.operand = x.2.2 ∧
               (x.2.1 ≠ 6 → ∃ c, tget [] t.zl.rc z.val = cache ++ [c] ∧ hit c = true ∧ c.reply = r))))) ∧
          (typ = 11 → (let w := s.loadNat (routineAt m.index) 4
            bitOf w 31 = true → bitsOf w 19 0 = m.job →
            (let prod := s.loadNat (routineAt m.index + 16) 2
             let cons := s.loadNat (routineAt m.index + 18) 2
             let size := 2 ^ s.loadNat (routineAt m.index + 5) 1
             if size ≤ (prod + 2 ^ 16 - cons) % 2 ^ 16 then
               Runs (cmd typ) s (fun t => Replied s t z m 6 (fun _ => True) ∧ t.mem = s.mem)
             else Runs (cmd typ) s (fun t => Replied s t z m 0 (fun _ => True) ∧
               t.mem = ((s.store (s.loadNat (routineAt m.index + 8) 8 + 64 * (prod % size))
                 (leBytes 1 m.src ++ leBytes 3 m.job ++ leBytes 4 (m.tag + m.gen * 2 ^ 17) ++ leBytes 8 0 ++ m.data)).storeNat
                 (routineAt m.index + 16) 2 (prod + 1)).mem))))))) ∧
     (∀ typ ∈ [2, 4, 6, 8, 10, 12], Arrives s z f typ →
       (s.answers m = none → exec (cmd typ) s = .next (s.count zlStale 1)) ∧
       (∀ r, s.answers m = some r → r.iss.isLock = false → s.zl.held = [] → tsorted 0 s.zl.tags = true →
         (typ ≠ 10 ∨ m.status ≠ 0 → (typ ∈ [6, 12] → m.status ≠ 6) → Runs (cmd typ) s (fun t =>
           (r.copy = none → t.zl.done = s.zl.done ++
             [{ iss := r.iss, typ := r.msg.typ, tag := m.tag, status := m.status, err := m.err
                prior := m.operand, data := if r.msg.typ = 1 then m.data else [] }]) ∧
           (t.tagOf m.tag).req = none ∧ t.mem = s.mem)) ∧
         (typ ∈ [6, 12] → m.status = 6 → Runs (cmd typ) s (fun t =>
           t.tagOf m.tag = { s.tagOf m.tag with req := some { r with busy := r.busy + 1 } } ∧ t.zl.done = s.zl.done)) ∧
         (typ = 10 → m.status = 0 → s.counterOk m.index m.job = true → s.rangeOff r.dst m.data.length = false →
           s.partBad r.dst m.data.length = false → Runs (cmd typ) s (fun t =>
           t.mem = ((s.store r.dst m.data).countArrival m.index m.data.length).mem ∧ (t.tagOf m.tag).req = none)))))) ∧
  (∀ (s : State) (m : ZlMsg) (rest : List ZlMsg) (f : ZlFrame), s.zl.loop = m :: rest →
    leBytes 32 f.hdr.toNat ++ f.data = m.bytes → s.zlOn = true → m.data.length = m.carried → m.dst = s.moduleId false →
    m.age ≤ 40000 → s.obs.stopped = false →
    (m.typ ∈ [1, 3, 5, 7, 9, 11] → m.valid = false → Runs (zlCommand none f [] m.typ) s (fun t =>
      ∃ r, t.zl.loop = rest ++ [r] ∧ r.typ = m.typ + 1 ∧ r.status = 8 ∧ r.dst = m.src ∧ r.tag = m.tag ∧ r.gen = m.gen)) ∧
    (m.typ ∈ [2, 4, 6, 8, 10, 12] → s.answers m = none → exec (zlCommand none f [] m.typ) s =
      .next (({ s with zl := { s.zl with loop := rest } } : State).count zlStale 1)))

/-- The Zelic fabric's caches, buffers and control registers. For the PF or an HD core: ZL_QT_INV begins an invalidation,
ignored while one is in progress; ZL_CFG takes DOMAIN and MODULE only while ENABLE is 0, and setting ENABLE begins the
window of 250 µs; ZL_TIMEOUT takes 5 to 1,000. An invalidation's end removes the segment's copies, or all; the sweep
empties the cache every 1.0 ms; outside a stop the window ends, and the oldest reply of a link leaves its cache, after 250
µs; a Lock's buffer goes out as one PUT_DATA with no counter, on the far route, when FLUSH has passed or a FENCE is held
at the Lock (the arrival of these times: log 17; INDEX 0xFFFF as no counter: log 48). The completion statement of these
commands. (R296, R308, R309, R311, R315.) -/
def Obligations.ZelicControl : Prop :=
  (∀ (s : State) (w : Agent) (v : Word), s.tdWriter w = true → Acts w s →
    (v.getLsbD 31 = true → s.zl.inv = none → exec (.zlQtInv w v) s = .next { s with zl := { s.zl with
      inv := some (if v.getLsbD 30 then none else some (v.toNat % 2 ^ 16)) } }) ∧
    (s.zl.inv ≠ none → exec (.zlQtInv w v) s = .next s) ∧
    (s.zlOn = false → s.fatal = false → tsorted 0 s.regs = true → Runs (.zlEnable w v) s (fun t =>
      t.regB zlBlock 15 0 = v.toNat % 2 ^ 16 ∧ t.regBit zlBlock 31 = v.getLsbD 31 ∧
      t.zl.busyFrom = if v.getLsbD 31 then some s.td.raw else s.zl.busyFrom)) ∧
    (s.zlOn = true → tsorted 0 s.regs = true → Runs (.zlEnable w v) s (fun t =>
      t.regB zlBlock 15 0 = s.regB zlBlock 15 0 ∧ t.regBit zlBlock 31 = v.getLsbD 31 ∧ t.zl = s.zl)) ∧
    (let x := v.toNat % 2 ^ 10
     (5 ≤ x → x ≤ 1000 → exec (.zlTimeoutWrite w v) s = .next (s.setReg (zlBlock + 0x004) x)) ∧
     (x < 5 ∨ 1000 < x → exec (.zlTimeoutWrite w v) s = .next s))) ∧
  (∀ (s : State),
    (∀ x, s.zl.inv = some x → exec .zlQtInvDone s = .next { s with zl := { s.zl with inv := none, qt := match x with
      | none => []
      | some seg => s.zl.qt.filter (fun c => c.seg != seg) } }) ∧
    (let u := s.reachRaw (s.zl.sweepT + rawUs 1000)
     s.zl.sweepT + rawUs 1000 ≤ u.td.raw → exec .zlQtSweep s = .next { u with zl := { u.zl with qt := [], sweepT := u.td.raw } }) ∧
    (∀ b, s.zl.busyFrom = some b → b + rawUs 250 ≤ (s.reachRaw (b + rawUs 250)).td.raw → s.obs.stopped = false →
      Runs .zlBusyWindowEnd s (fun t => t.zl = { s.zl with busyFrom := none })) ∧
    (∀ (z : Fin 36) c rest, tget [] s.zl.rc z.val = c :: rest →
      c.made + rawUs 250 ≤ (s.reachRaw (c.made + rawUs 250)).td.raw → s.obs.stopped = false →
      Runs (.zlRcExpire z) s (fun t => t.zl = { s.zl with rc := tset [] s.zl.rc z.val rest })) ∧
    (∀ (i : Fin 65536) b (fence : Bool), s.zl.bufs[i.val]? = some b →
      (let due := b.since + ceilDiv (s.regB lkBlock 23 16 * 98304) 1000
       fence = true ∨ due ≤ (s.reachRaw due).td.raw → s.zl.held = [] → tsorted 0 s.regs = true →
       Runs (.lockFlush i fence) s (fun t => t.zl.bufs = lrmFirst (· == b) s.zl.bufs ∧
         t.regN lkFlushes = (satAdd (s.reg lkFlushes) 1).toNat ∧
         ∀ l g, b.farModule ≠ s.moduleId true → s.route true b.farModule = some l → s.linkUp l = true → s.freeTag = some g →
           ∃ m : ZlMsg, t.zl.out = s.zl.out ++ [{ link := l, queue := 4 + 4 * 62 + b.cls, msg := m }] ∧ m.typ = 7 ∧
             m.dst = b.farModule ∧ m.job = b.farJob ∧ m.qaddr = b.start ∧ m.index = noCounter ∧ m.data = b.data))))

/-- How frames and messages are queued, chosen, sent and sampled. While the radio is not halted, a PTP frame of a port that
passes frames, and a supported frame of a stream whose cell runs, speaks and, on the downlink, has its slot's
configuration, enters its queue with its charged length and, of a stream, its release and deadline where the port's pool
has room and none waits; otherwise its producer waits; a downlink frame of a slot without configuration is not enqueued
(the places of the fields that say supported: log 156). The first message that waits for a queue enters it while 64 KiB
hold it. The release of a head frame arrives (log 17); a frame that has not started by its deadline leaves and is counted,
and the credit stands. The free egress starts the frame that R321 chooses, and outside the PTP queue the level's virtual
time becomes its start tag; a forwarded message that has aged too far is dropped and counted instead (with the trace
off). A frame that has been sent leaves its queue, its charged length taken off the credit. A sample adds 1 to a depth bin
and a delay bin (log 54). EQ_CFG, EQ_RATE and EQ_HICRED take effect as R322 and R323 say (the egress clock counts TIDE
cycles: log 47). The completion statement of these commands. (R317, R318, R319, R320, R321, R322, R323, R324, R325, R326,
R328.) -/
def Obligations.EgressCommands : Prop :=
  (∀ (s : State) (bytes : List Byte), s.halted .radio = false →
    (∀ (q : Fin 32), s.portUp (q / 4) = true → (q.val % 4 = 0 ∨ s.split (q / 4) = true) →
      (let it : EqItem := { len := (bytes.length + s.regB (fhBlock + 0x30000 + 4 * (q.val / 4)) 7 0) * 2 ^ 16, enq := s.T
                            body := .frame bytes }
       let key := 2048 * (q.val / 4) + 512 * (q.val % 4)
       (s.fhDescs (q / 4) < 16384 → (∀ x ∈ s.eg.wait, x.1 / 2048 ≠ q.val / 4) →
         exec (.fhTxEnqueue (.ptp q) bytes) s = .next (s.eqPush key it)) ∧
       (16384 ≤ s.fhDescs (q / 4) ∨ (∃ x ∈ s.eg.wait, x.1 / 2048 = q.val / 4) → exec (.fhTxEnqueue (.ptp q) bytes) s =
         .next { s with eg := { s.eg with wait := s.eg.wait ++ [(key, it)] } }))) ∧
    (∀ (i : Fin 2048) (c : Cell) (frame : Nat) (slot : Fin 20) (sym : Fin 14), s.txCell i = some c → s.portUp c.port = true →
      s.silent c.cell frame slot = false → tsorted 0 s.eg.queues = true →
      (let q := s.regB (fhBlock + 0x6000 + 4 * i.val) 10 0
       let base := match c.sub with | some k => 512 * k | none => 0
       let key := 2048 * c.port + if (c.sub ≠ none ∧ q / 512 * 512 ≠ base) ∨ q = base then base + 1 else q
       let at_ := s.tSym c.mu frame slot sym
       let us (n : Nat) : Int := fine (n * 1000 : Nat)
       let off := s.slotOff c frame slot false
       let enters (x : FhTx) (p : EqItem → Prop) : Prop :=
         (s.fhDescs (key / 2048) < 16384 → (∀ x ∈ s.eg.wait, x.1 / 2048 ≠ key / 2048) → Runs (.fhTxEnqueue x bytes) s (fun t =>
           ∃ it, (t.eqOf key).items = (s.eqOf key).items ++ [it] ∧ p it)) ∧
         (16384 ≤ s.fhDescs (key / 2048) → Runs (.fhTxEnqueue x bytes) s (fun t =>
           ∃ it, t.eg.wait = s.eg.wait ++ [(key, it)] ∧ p it))
       (txSupported c (s.txEaxc i) 0 bytes = true → enters (.uplinkC i frame slot sym) (fun it => it.body = .frame bytes ∧
         it.len = s.fhLen c.port bytes.length ∧ it.enq = s.T ∧ it.rel = some (at_ - us (orDefault c.t1aCpUl 470)) ∧
         it.dead = some (at_ - us (orDefault c.t1aCpUl 470) + us 10))) ∧
       (txSupported c (s.txEaxc i) 1 bytes = true → off = false → enters (.downlinkC i frame slot sym) (fun it =>
         it.body = .frame bytes ∧ it.len = s.fhLen c.port bytes.length ∧ it.enq = s.T ∧
         it.rel = some (at_ - us (orDefault c.t1aCpDl 470)) ∧ it.dead = some (at_ - us (orDefault c.t1aCpDl 470) + us 10))) ∧
       (∀ (buf : PAddr) (start : Fin 273) (n : Fin 274),
         (let b := s.uplaneFrame i buf.toNat start n bytes
          (txSupported c (s.txEaxc i) 2 b = true → off = false → enters (.downlinkU i frame slot sym buf start n) (fun it =>
            it.body = .frame b ∧ it.len = s.fhLen c.port b.length ∧ it.enq = s.T ∧
            it.rel = some (at_ - us c.maxUpUs) ∧ it.dead = some (at_ - us c.minUpUs))) ∧
          (off = true → exec (.fhTxEnqueue (.downlinkU i frame slot sym buf start n) bytes) s = .next s))) ∧
       (off = true → exec (.fhTxEnqueue (.downlinkC i frame slot sym) bytes) s = .next s)))) ∧
  (∀ (s : State) (i : Fin 65536) (o : ZlOut), s.zl.out[i.val]? = some o →
    (∀ x ∈ s.zl.out.take i.val, x.link ≠ o.link ∨ x.queue ≠ o.queue) →
    (let key := 16384 + 256 * o.link + o.queue
     (s.eqOf key).depth + s.zlLen o.link o.msg.body ≤ 65536 * 65536 → exec (.zlTxEnqueue i) s =
       .next (({ s with zl := { s.zl with out := s.zl.out.eraseIdx i.val } } : State).eqPush key
         { len := s.zlLen o.link o.msg.body, enq := s.T, body := .zelic o }))) ∧
  (∀ (s : State) (p : Fin 8) (q : Fin 2048) (i : Fin 16384) (x : EqItem),
    (let key := 2048 * p.val + q.val
     (s.eqOf key).items[i.val]? = some x →
     (i.val = 0 → ∀ r, x.rel = some r → exec (.fhTxRelease p q) s = .next (s.reachC (cOfFine r))) ∧
     (∀ d, x.dead = some d → s.halted .radio = false → (i.val = 0 → s.isSending key = false) →
      (let u := s.reachC (cOfFine d)
       cPast u.now d = true → (∀ y ∈ s.eg.wait, y.1 / 2048 ≠ p.val) → tsorted 0 s.regs = true → tsorted 0 s.eg.queues = true →
       Runs (.fhTxDeadline p q i) s (fun t => (t.eqOf key).items = (s.eqOf key).items.eraseIdx i.val ∧
         (t.eqOf key).credit = (u.creditNow key).credit ∧ t.regN fhTxLate = (satAdd (s.reg fhTxLate) 1).toNat))))) ∧
  (∀ (s : State) (e : EgId) (k : Nat) (ptp : Bool) (it : EqItem), s.egChoice e = some (k, ptp) → s.egUp e = true →
    s.sendingOf e.key = none → s.regBit trcCfg 31 = false → tsorted 0 s.eg.queues = true → tsorted 0 s.eg.sending = true →
    tsorted 0 s.eg.v = true → tsorted 0 s.regs = true → (s.eqOf k).items.head? = some it →
    (let level (t : State) : Prop := ptp = false → tget 0 t.eg.v (4 * e.key + s.eqPrio k) = (s.eqOf k).s
     let starts (t : State) : Prop := t.sendingOf e.key = some { queue := k, since := s.td.raw } ∧ level t
     ((∀ o, it.body = .zelic o → o.fwd = none) → Runs (.egressSelect e) s (fun t => starts t ∧
       (t.eqOf k).items = (s.eqOf k).items)) ∧
     (∀ o r0, it.body = .zelic o → o.fwd = some r0 →
       (let age := min 65535 (o.msg.age + nsOfCycles (s.td.raw - r0))
        (age ≤ 40000 → Runs (.egressSelect e) s (fun t => starts t ∧ (t.eqOf k).items.tail = (s.eqOf k).items.tail ∧
          (t.eqOf k).items.head? = some { it with body := .zelic { o with msg := { o.msg with age := age } } })) ∧
        (40000 < age → Runs (.egressSelect e) s (fun t => t.sendingOf e.key = none ∧
          (t.eqOf k).items = (s.eqOf k).items.tail ∧ t.regN zlAgeDrop = (satAdd (s.reg zlAgeDrop) 1).toNat)))))) ∧
  (∀ (s : State) (e : EgId) (x : Sending) (it : EqItem) rest, s.sendingOf e.key = some x → (s.eqOf x.queue).items = it :: rest →
    (let due := x.since + s.txCycles e.key it.len
     due ≤ (s.reachRaw due).td.raw → tsorted 0 s.eg.queues = true → tsorted 0 s.eg.sending = true →
     (∀ y ∈ s.eg.wait, y.1 / 2048 ≠ x.queue / 2048) → Runs (.egressTxEnd e) s (fun t =>
      t.sendingOf e.key = none ∧ (t.eqOf x.queue).items = rest ∧
      (∀ bs, it.body = .frame bs → t.eg.sent = s.eg.sent ++ [(x.queue, bs)]) ∧
      (∀ o, it.body = .zelic o → t.zl.wire = s.zl.wire ++ [(o.link, o.msg)]) ∧
      (s.eqRate x.queue ≠ 0 → rest ≠ [] → (t.eqOf x.queue).credit = (s.eqOf x.queue).credit +
        (s.eqRate x.queue * it.len * 6 / (8000 * s.line2 (s.egOf x.queue)) : Nat) - (3 * it.len : Nat))))) ∧
  (∀ (s : State) (q : EqId), s.sampling q.key = true → s.histBase q.key ≠ 0 →
    (let r := s.histBase q.key + (match q with | .fh p q => 2048 * p.val + q.val | .zl z q => 256 * z.val + q.val) * 128
     let delay := match (s.eqOf q.key).items.head? with | some i => s.T - i.enq | none => 0
     exec (.egressSample q) s = .next ((s.addBin (r + 4 * depthBin ((s.eqOf q.key).depth / 65536))).addBin
       (r + 64 + 4 * delayBin delay)))) ∧
  (∀ (s : State) (m : Agent) (q : EqId) (v : Word), s.eqWriter m q = true → Acts m s → tsorted 0 s.regs = true →
    tsorted 0 s.eg.queues = true →
    Runs (.eqCfgWrite m q v) s (fun t => t.eqPrio q.key = v.toNat / 2 ^ 16 % 4 ∧
      t.eqWeight q.key = (if v.toNat % 2 ^ 16 = 0 then s.eqWeight q.key else v.toNat % 2 ^ 16) ∧ t.eg = s.eg) ∧
    Runs (.eqRateWrite m q v) s (fun t => t.eqRate q.key = v.toNat ∧ (t.eqOf q.key).items = (s.eqOf q.key).items) ∧
    Runs (.eqHicredWrite m q v) s (fun t => t.regN (eqReg q.key 8) = v.toNat % 2 ^ 24 ∧
      (t.eqOf q.key).credit ≤ ((v.toNat % 2 ^ 24) * 3 * 2 ^ 16 : Nat) ∧ (t.eqOf q.key).items = (s.eqOf q.key).items))

/-- The PCIe link, resets of functions and BAR accesses. The link trains once the PLLs have locked, PERST_N is high and the
ROM has applied the record. An FLR of a VF drops its waiting entries, its contexts, saved images, Customs entries and
queues, keeps its weight of CX_VF, and is in progress until, 2 ms after the last FLR at the earliest and with no request
of the VF left, it is complete (log 163); clearing VF Enable does so for every VF; a PF FLR, a link down and PERST_N
reset the HI and CU registers and empty the Customs cache, and keep slots, Tide, the cell plan and the fabric. A BAR0
access of a wrong form is counted, and a read completes with Unsupported Request. BAR2 reads and writes reach memory in a
die's span; a read of the Bonded store completes with Completer Abort and one by a PF that is not live with Unsupported
Request; a write that may not reach memory is counted; a word that loses a collision is discarded and counted. A fatal
cause of the table sets FATAL once. The completion statement of these commands. (R99, R329, R331, R332, R346, R347, R348,
R349, R351, R394, R478.) -/
def Obligations.HostFunctions : Prop :=
  (∀ (s : State), s.hi.linkUp = true → tsorted 0 s.sh.ctx = true →
    (∀ v : Fin 512, s.hi.vfEnable = true → Runs (.vfFlr v) s (fun t =>
      (∀ i < 8, t.sqOf (v.val + 1) i = {} ∧ t.cqOf (v.val + 1) i = {} ∧ t.sqOn (v.val + 1) i = false ∧
        t.cqOn (v.val + 1) i = false) ∧
      (∀ e ∈ t.sh.ctx, e.2.vf ≠ v.val + 1) ∧ (∀ e ∈ t.sh.saved, e.ctx.vf ≠ v.val + 1) ∧
      (∀ e ∈ t.cu.leaves, e.fn ≠ v.val + 1) ∧ (∀ e ∈ t.cu.tabs, e.fn ≠ v.val + 1) ∧
      (∀ e ∈ t.hm.cmdq, e.fn ≠ v.val + 1) ∧ t.hi.flr.contains (v.val + 1) = true ∧
      (tsorted 0 s.regs = true → t.weight (v.val + 1) = s.weight (v.val + 1)))) ∧
    (s.hi.vfEnable = true → Runs .vfEnableClear s (fun t => t.hi.vfEnable = false ∧
      (∀ e ∈ t.sh.ctx, e.2.vf = 0) ∧ (∀ e ∈ t.cu.leaves, e.fn = 0) ∧
      (∀ f, 1 ≤ f → f ≤ 512 → t.hi.flr.contains f = true))) ∧
    exec .vfEnableSet s = .next { s with hi := { s.hi with vfEnable := true } } ∧
    (∀ c ∈ [Instr.pfFlr, Instr.pcieLinkDown], Runs c s (fun t =>
      t.hi.vfEnable = false ∧ t.cu.leaves = [] ∧ t.cu.tabs = [] ∧ (∀ w ∈ t.cu.walks, w.cache = false) ∧ t.sh.ctx = [] ∧
      (∀ o, hiBlock ≤ o → o < hiBlock + 0x200000 → t.reg o = regReset o) ∧
      (∀ o, cuBlock ≤ o → o < cuBlock + 0x10000 → t.reg o = regReset o) ∧ t.slots = s.slots ∧ t.td = s.td ∧
      t.fh = s.fh ∧ t.zl = s.zl ∧ t.hi.linkUp = (c == .pfFlr))) ∧
    (∀ (f : Fin 513) (d3 : Bool), s.hi.flr.contains f.val = false → (f.val = 0 ∨ s.hi.vfEnable = true) →
      Runs (.pciPmStateWrite f d3) s (fun t => t.hi.d3.contains f.val = d3)) ∧
    (∀ (f : Fin 513), s.fnLive f = true → exec (.bar0BadAccess f true) s = .next (s.count hiBarRefuse 1) ∧
      exec (.bar0BadAccess f false) s = .next ((s.count hiBarRefuse 1).barAnswer 0 1)) ∧
    (∀ (o : BitVec 36) (n : Fin 4097), 0 < n.val → o.toNat % 4096 + n.val ≤ 4096 →
      (let a := s.bar2 o.toNat
       (s.fnLive 0 = true → bonded a = true → exec (.bar2Read o n) s = .next (s.barAnswer 0 2)) ∧
       (s.fnLive 0 = false → exec (.bar2Read o n) s = .next (s.barAnswer 0 1)) ∧
       (∀ d r, s.fnLive 0 = true → bonded a = false → place a = .sram d r →
         (s.addrStatus a = .ok → s.rangeBad a n = false → Runs (.bar2Read o n) s (fun t =>
           t.hi.barRsp = some (s.loadNat a n, 0) ∧ t.mem = s.mem)) ∧
         (s.addrStatus a ≠ .ok → exec (.bar2Read o n) s = .next (s.barAnswer 0 0)))))) ∧
  (∀ (s : State) (o : BitVec 36) (data : List Byte), s.fnLive 0 = true → 0 < data.length →
    o.toNat % 4096 + data.length ≤ 4096 →
    (let a := s.bar2 o.toNat
     (s.bar2Status a ≠ 0 ∨ s.pfVoid a = true → ∀ lost, exec (.bar2Write o data lost) s = .next (s.count hiBarRefuse 1)) ∧
     (s.bar2Status a = 0 → s.pfVoid a = false →
       exec (.bar2Write o data []) s = .next (s.store a data) ∧
       (∀ (w : PAddr) d r, data.length = 8 → a % 8 = 0 → w.toNat = a → place a = .sram d r → (∀ n, d ≠ .gd n) →
         exec (.bar2Write o data [w]) s = .next (s.collided d 0x120))))) ∧
  (∀ (s : State),
    (s.boot.powered = true → tsorted 0 s.sh.ctx = true → Runs .perstAssert s (fun t => t.hi.perstHigh = false ∧
      t.hi.linkUp = false ∧ t.cu.leaves = [] ∧ t.sh.ctx = [] ∧
      (∀ o, hiBlock ≤ o → o < hiBlock + 0x200000 → t.reg o = regReset o) ∧ t.slots = s.slots ∧ t.td = s.td)) ∧
    exec .perstDeassert s = .next { s with hi := { s.hi with perstHigh := true } } ∧
    (∀ (x16 gt64 flit : Bool), s.clk.tideLock = true → s.hi.perstHigh = true → s.boot.rom = true → s.boot.phase ≠ .record →
      Runs (.pcieLinkTrained x16 gt64 flit) s (fun t => t.hi.linkUp = true ∧ t.hi.width = (if x16 then 16 else 8) ∧
        t.hi.degraded = (!x16 || !gt64) ∧ t.hi.flit = (gt64 || flit))) ∧
    (∀ v : Fin 512, s.hi.flrT + rawUs 2000 ≤ (s.reachRaw (s.hi.flrT + rawUs 2000)).td.raw →
      (∀ e ∈ s.liveMen, e.2.fn ≠ v.val + 1) →
      Runs (.vfFlrComplete v) s (fun t => t.hi.flr = s.hi.flr.filter (fun f => f != v.val + 1) ∧ t.hi.sq = s.hi.sq)) ∧
    (∀ (cause : BitVec 8) (d : Option Die), 1 ≤ cause.toNat → cause.toNat ≤ 8 → s.fatal = false → tsorted 0 s.regs = true →
      Runs (.fatalError cause d) s (fun t => t.fatal = true ∧
        t.regN (btBlock + 0x300) = 2 ^ 31 + (match d with | some x => x.index | none => 0xFF) * 2 ^ 16 + cause.toNat ∧
        t.hi.errFatal = s.hi.errFatal + b2n s.hi.linkUp)) ∧
    (∀ (cause : BitVec 8) (d : Option Die), s.fatal = true → exec (.fatalError cause d) s = .next s))

/-- Doorbells, fetching, completion heads and the enabling of queues. A doorbell of an enabled queue without a fault sets
the tail, or faults the queue with BAD_DOORBELL where it is more than the ring ahead; a fetched entry goes to the
Harbourmaster, moves the head on and the head is written back, one that names a queue that is not enabled faults the SQ
with NO_CQ, and a ring address that Customs refuses faults it with XLATE; a head write releases slots, or faults beyond
the tail; USEC after the first entry not yet signalled the timer signals (that time: log 17); setting ENABLE zeroes head
and tail and clears FAULT, and takes LOG2SIZE in its range; clearing it with entries unfetched, or with requests naming a
completion queue, faults with DISABLED. A doorbell on a disabled or faulted queue is ignored (the model's reading, log
31). The completion statement of these commands. (R334, R336, R337, R338, R339, R352, R409.) -/
def Obligations.HostQueueCommands : Prop :=
  (∀ (s : State) (f : Fin 513) (q : Fin 8), s.fnLive f = true → tsorted 0 s.hi.sq = true → tsorted 0 s.hi.cq = true →
    (s.sqOn f q = true → (s.sqOf f q).fault = 0 → ∀ tail : BitVec 16,
      (let ahead := (tail.toNat + 2 ^ 16 - (s.sqOf f q).head) % 2 ^ 16
       (ahead ≤ s.sqSize f q → exec (.sqTailDoorbell f q tail) s = .next (s.setSq f q { s.sqOf f q with tail := tail.toNat })) ∧
       (s.sqSize f q < ahead → Runs (.sqTailDoorbell f q tail) s (fun t =>
         t.sqOf f q = { s.sqOf f q with fault := 1 })))) ∧
    (s.sqOn f q = false ∨ (s.sqOf f q).fault ≠ 0 → ∀ tail, exec (.sqTailDoorbell f q tail) s = .next s) ∧
    (s.sqOn f q = true → (s.sqOf f q).fault = 0 → s.halted .inference = false → s.boot.upd.st ≠ .handover →
      (s.sqOf f q).head ≠ (s.sqOf f q).tail → (s.sqOf f q).head < 65536 → (s.sqOf f q).tail < 65536 →
      (let a := s.reg64 (sqReg f q 0) (sqReg f q 4) + 64 * ((s.sqOf f q).head % s.sqSize f q)
       let h := ((s.sqOf f q).head + 1) % 2 ^ 16
       let wb := s.reg64 (sqReg f q 0xC) (sqReg f q 0x10)
       (∀ u bs, s.tenantRead f (s.sqPasid f q) a 64 = (u, some bs) →
         (let e : BitVec 512 := BitVec.ofNat 512 (leNat bs)
          (u.cqOn f (bitsOf e.toNat 26 24) = true →
            (let x := u.setSq f q { s.sqOf f q with head := h }
             let y : State := { x with hm := { x.hm with cmdq := x.hm.cmdq ++ [{ fn := f, sq := q, entry := e }] } }
             (y.tenantWrite f (s.sqPasid f q) wb (leBytes 4 h)).2 = true →
             exec (.sqEntryFetch f q 1) s = .next (y.tenantWrite f (s.sqPasid f q) wb (leBytes 4 h)).1)) ∧
          (u.cqOn f (bitsOf e.toNat 26 24) = false → exec (.sqEntryFetch f q 1) s = .next (u.sqFault f q 3)))) ∧
       (∀ u, s.tenantRead f (s.sqPasid f q) a 64 = (u, none) → exec (.sqEntryFetch f q 1) s = .next (u.sqFault f q 2)))) ∧
    (s.cqOn f q = true → (s.cqOf f q).fault = 0 → ∀ head : BitVec 16,
      (let r := s.cqOf f q
       let used := (r.tail + 2 ^ 16 - r.head) % 2 ^ 16
       let freed := (head.toNat + 2 ^ 16 - r.head) % 2 ^ 16
       (used < freed → Runs (.cqHeadWrite f q head) s (fun t => t.cqOf f q = { r with fault := 1 })) ∧
       (freed ≤ used → r.held = [] → exec (.cqHeadWrite f q head) s = .next (s.setCq f q { r with head := head.toNat }))))) ∧
  (∀ (s : State) (f : Fin 513) (q : Fin 8), tsorted 0 s.hi.cq = true → s.cqOn f q = true → 0 < (s.cqOf f q).unsignalled →
    (let due := (s.cqOf f q).since + rawUs (s.regB (cqReg f q 0x14) 31 20)
     due ≤ (s.reachRaw due).td.raw → Runs (.cqModTimer f q) s (fun t => t.cqOf f q = { s.cqOf f q with unsignalled := 0 }))) ∧
  (∀ (s : State) (m : Agent) (f : Fin 513) (i : Fin 8) (v : Word), s.hdOrPf m = true → Acts m s → tsorted 0 s.regs = true →
    tsorted 0 s.hi.sq = true → tsorted 0 s.hi.cq = true →
    (v.getLsbD 31 = true → s.sqOn f i = false → Runs (.queueEnable m f i false v) s (fun t =>
      t.sqOf f i = {} ∧ t.sqOn f i = true ∧ t.sqPasid f i = v.toNat % 2 ^ 20 ∧
      (4 ≤ v.toNat / 2 ^ 20 % 16 → v.toNat / 2 ^ 20 % 16 ≤ 12 → t.sqSize f i = 2 ^ (v.toNat / 2 ^ 20 % 16)))) ∧
    (v.getLsbD 31 = true → s.cqOn f i = false → (s.cqOf f i).held = [] → Runs (.queueEnable m f i true v) s (fun t =>
      t.cqOf f i = { s.cqOf f i with head := 0, tail := 0, fault := 0, unsignalled := 0 } ∧ t.cqOn f i = true ∧
      t.cqPasid f i = v.toNat % 2 ^ 20)) ∧
    (s.sqOn f i = true → Runs (.queueDisable m f i false) s (fun t => t.sqOn f i = false ∧
      t.sqOf f i = if (s.sqOf f i).head ≠ (s.sqOf f i).tail ∧ (s.sqOf f i).fault = 0 then { s.sqOf f i with fault := 4 }
        else s.sqOf f i)) ∧
    (s.cqOn f i = true → Runs (.queueDisable m f i true) s (fun t => t.cqOn f i = false ∧
      t.cqOf f i = if s.cqNamed f i = true ∧ (s.cqOf f i).fault = 0 then { s.cqOf f i with fault := 4 } else s.cqOf f i)))

/-- How tenant addresses are translated, and translations dropped. With Customs disabled a translation faults with CONTEXT
and otherwise an address above 48 bits with CANONICAL; a cached leaf of its own instance that allows the access answers
with its host address; without one, or for a write that the cached leaf does not allow, a walk starts at the root where no
table entry of the instance is cached; a walk's table read that fails faults with WALK and is counted, a leaf ends it and
is cached, an entry with P clear faults with NOT_PRESENT, and another goes one level down; CU_INV drops the covered
entries and sets INV_BUSY until the covered walks have ended, and is ignored while it is set; every 2.0 ms the sweep
empties the cache (that time: log 17); CU_CTRL takes ENABLE. The completion statement of these commands. (R341, R342,
R343, R344, R345, R351, R353.) -/
def Obligations.CustomsCommands : Prop :=
  (∀ (s : State) (fn : Fin 513) (pasid : BitVec 20) (addr : DWord) (write : Bool),
    (let p := pasid.toNat
     let a := addr.toNat
     let ans (t : State) (host reason : Nat) : Prop := t.cu.last =
       some { fn := fn, pasid := p, addr := a, write := write, host := host, reason := reason }
     let cmd : Instr := .customsTranslate fn pasid addr write
     let leaf := s.cu.leaves.find? (fun e => e.fn == fn.val && e.pasid == p && a / 2 ^ e.size == e.vpage)
     (s.regBit cuBlock 0 = false → Runs cmd s (fun t => ans t 0 1 ∧ t.cu.walks = s.cu.walks)) ∧
     (s.regBit cuBlock 0 = true → 2 ^ 48 ≤ a → Runs cmd s (fun t => ans t 0 6)) ∧
     (s.regBit cuBlock 0 = true → a < 2 ^ 48 →
       (∀ e, leaf = some e → (write = false ∨ e.writable = true) →
         Runs cmd s (fun t => ans t (e.host + a % 2 ^ e.size) 0 ∧ t.regs = s.regs)) ∧
       ((∀ e, leaf = some e → write = true ∧ e.writable = false) → (∀ e ∈ s.cu.tabs, e.fn ≠ fn.val ∨ e.pasid ≠ p) →
         Runs cmd s (fun t => t.cu.walks = s.cu.walks ++
           [{ fn := fn, pasid := p, addr := a, write := write, at_ := .context, entry := s.ctxTable + 16 * fn }]))))) ∧
  (∀ (s : State) (i : Fin 1024) (k : Walk), s.cu.walks[i.val]? = some k → Safe s →
    (let v := leNat (rdBytes s.host k.entry k.at_.bytes)
     let ans (t : State) (host reason : Nat) : Prop := t.cu.last =
       some { fn := k.fn, pasid := k.pasid, addr := k.addr, write := k.write, host := host, reason := reason }
     (Runs (.customsWalkReadDone i false) s (fun t => ans t 0 7 ∧ t.cu.walks = s.cu.walks.eraseIdx i ∧
       t.regN (cuBlock + 0x030) = (satAdd (s.reg (cuBlock + 0x030)) 1).toNat)) ∧
     (∀ l, k.at_ = .level l → 1 ≤ l → l ≤ 4 →
       (v % 2 = 0 → Runs (.customsWalkReadDone i true) s (fun t => ans t 0 3 ∧ t.cu.walks = s.cu.walks.eraseIdx i)) ∧
       (l = 1 → v % 2 = 1 → (k.write = false ∨ bitOf v 1 = true) → Runs (.customsWalkReadDone i true) s (fun t =>
         ans t (bitsOf v 51 12 * 4096 + k.addr % 4096) 0 ∧ t.cu.walks = s.cu.walks.eraseIdx i ∧
         (k.cache = true → ∃ e ∈ t.cu.leaves, e.fn = k.fn ∧ e.pasid = k.pasid ∧ e.vpage = k.addr / 4096 ∧ e.size = 12 ∧
           e.host = bitsOf v 51 12 * 4096 ∧ e.writable = (k.writable && bitOf v 1)))) ∧
       (1 < l → v % 2 = 1 → bitOf v 7 = false → (k.write = false ∨ bitOf v 1 = true) →
         Runs (.customsWalkReadDone i true) s (fun t => t.cu.walks = lmod s.cu.walks i (fun q => { q with
           at_ := .level (l - 1), entry := bitsOf v 51 12 * 4096 + 8 * (k.addr / 2 ^ (12 + 9 * (l - 2)) % 512)
           writable := k.writable && bitOf v 1 })))))) ∧
  (∀ (s : State) (m : Agent) (fn : Fin 1024), s.hdOrPf m = true → Acts m s →
    (let p := s.regN (cuBlock + 0x014)
     let gone (keepLeaf : Leaf → Prop) (t : State) : Prop := t.cu.invBusy = true ∧
       ∀ e, e ∈ t.cu.leaves ↔ (e ∈ s.cu.leaves ∧ keepLeaf e)
     (s.cu.invBusy = false →
       Runs (.cuInvAll m) s (fun t => gone (fun _ => False) t ∧ t.cu.tabs = []) ∧
       Runs (.cuInvFunction m fn) s (gone (fun e => e.fn ≠ fn.val)) ∧
       Runs (.cuInvInstance m fn) s (gone (fun e => ¬ (e.fn = fn.val ∧ e.pasid = p))) ∧
       (∀ order : BitVec 6, let a := s.reg64 (cuBlock + 0x018) (cuBlock + 0x01C)
         Runs (.cuInvRange m fn order) s (fun t => gone (fun e => ¬ (e.fn = fn.val ∧ e.pasid = p ∧
           e.vpage * 2 ^ e.size < a + 4096 * 2 ^ order.toNat ∧ a < e.vpage * 2 ^ e.size + 2 ^ e.size)) t ∧
           t.cu.tabs = s.cu.tabs))) ∧
     (s.cu.invBusy = true → ∀ order,
       exec (.cuInvAll m) s = .next s ∧ exec (.cuInvFunction m fn) s = .next s ∧ exec (.cuInvInstance m fn) s = .next s ∧
       exec (.cuInvRange m fn order) s = .next s))) ∧
  (∀ (s : State), s.cu.invBusy = true → (∀ w ∈ s.cu.walks, w.cache = true) →
    exec .cuInvDone s = .next { s with cu := { s.cu with invBusy := false } }) ∧
  (∀ (s : State), (let u := s.reachRaw (s.cu.sweepT + rawUs 2000)
    s.cu.sweepT + rawUs 2000 ≤ u.td.raw →
      exec .cuCacheSweep s = .next { u with cu := { u.cu with leaves := [], tabs := [], sweepT := u.td.raw } })) ∧
  (∀ (s : State) (m : Agent) (v : Word), s.hdOrPf m = true → Acts m s →
    exec (.cuCtrlWrite m v) s = .next (s.setReg cuBlock (v.toNat % 2)))

/-- How DETERMINISTIC changes, and provenance rings are configured. A PF write of a new MODE sets PENDING and leaves
EPOCH; one of the value MODE holds does nothing; when it has reached every unit PENDING clears and EPOCH moves on
modulo 2¹⁶ (until then every unit acts on the old value: the model's choice among those R354 allows, log 55).
HM_PROV_CFG takes PASID and LOG2SIZE only while ENABLE is 0, LOG2SIZE only from 4 to 12, and setting ENABLE resets
SEQ. The completion statement of these commands. (R354, R360, R366.) -/
def Obligations.DeterminismCommands : Prop :=
  (∀ (s : State), s.isPf .pf = true →
    (∀ b : Bool, b ≠ s.det.mode → exec (.hmDetWrite .pf b) s = .next { s with det := { s.det with mode := b, pending := true } }) ∧
    exec (.hmDetWrite .pf s.det.mode) s = .next s ∧
    (∀ (f : Fin 513) (v : Word), tsorted 0 s.regs = true →
      (let r := hmBlock + 0x3000 + 0x10 * f.val
       (s.regBit (r + 8) 31 = true → Runs (.hmProvCfgWrite .pf f v) s (fun t =>
         t.regB (r + 8) 30 0 = s.regB (r + 8) 30 0 ∧ t.regBit (r + 8) 31 = v.getLsbD 31 ∧ t.reg (r + 0xC) = s.reg (r + 0xC))) ∧
       (s.regBit (r + 8) 31 = false → Runs (.hmProvCfgWrite .pf f v) s (fun t =>
         t.regB (r + 8) 19 0 = v.toNat % 2 ^ 20 ∧ t.regBit (r + 8) 31 = v.getLsbD 31 ∧
         t.regB (r + 8) 23 20 = (if 4 ≤ v.toNat / 2 ^ 20 % 16 ∧ v.toNat / 2 ^ 20 % 16 ≤ 12 then v.toNat / 2 ^ 20 % 16
           else s.regB (r + 8) 23 20) ∧
         (v.getLsbD 31 = true → t.regN (r + 0xC) = 0)))))) ∧
  (∀ (s : State), s.det.pending = true → exec .detPropagated s = .next { s with det := { s.det with
    pending := false, active := s.det.mode, epoch := (s.det.epoch + 1) % 2 ^ 16 } })

/-- How a power island moves between its states. For the PF or an HD core, PF_REQ takes ON, RET and OFF, and a write that is
ignored (a value of 3, HD.AON or HD.BASE, a shorted island, or what R370 names) sets REFUSED; FW_REQ takes them from an
HD core, and ignores what it may not take; RELEASE takes LATCHED to ON. An island ON or LATCHED whose target is deeper and
whose request is due enters, its retention mask latched, and an array leaves its context; one in RET goes on to OFF; entry
ends in RET or OFF; a wake with the parent ON begins the exit, which ends LATCHED where the island has pads and otherwise
ON; a short of an island but HD.AON and HD.BASE locks it as FAILED_SHORT, sets PW_STATUS.SHORT, and on a BASE is fatal.
The completion statement of these commands. (R28, R367, R368, R369, R370, R371, R372, R373, R374, R391.) -/
def Obligations.IslandCommands : Prop :=
  ∀ (s : State) (i : Fin 499), Safe s →
    (let x := s.isl i
     (∀ m, s.hdOrPf m = true → Acts m s →
       (∀ (req : Fin 4), (req.val = 3 ∨ 497 ≤ i.val ∨ x.st = .failedShort) →
         exec (.islandPfReq m i req) s = .next (s.modIsl i (fun x => { x with refused := true }))) ∧
       (∀ (req : Fin 4) r, IslReq.ofCode req = some r → i.val < 497 → x.st ≠ .failedShort →
         (r ≠ .on → s.reqIgnored i = true →
           exec (.islandPfReq m i req) s = .next (s.modIsl i (fun x => { x with refused := true }))) ∧
         (r = .on ∨ s.reqIgnored i = false → Runs (.islandPfReq m i req) s (fun t => t.isl i = { x with pfReq := r }))) ∧
       (x.st = .latched → Runs (.islandRelease m i) s (fun t => t.isl i = { x with st := .on })) ∧
       (x.st ≠ .latched → exec (.islandRelease m i) s = .next s)) ∧
     (∀ m, m.isHd = true → Acts m s → ∀ (req : Fin 4) r, IslReq.ofCode req = some r →
       (i.val < 497 → x.st ≠ .failedShort → (r = .on ∨ s.fwIgnored i = false) →
         Runs (.islandFwReq m i req) s (fun t => t.isl i = { x with fwReq := r })) ∧
       (497 ≤ i.val ∨ x.st = .failedShort ∨ (r ≠ .on ∧ s.fwIgnored i = true) → exec (.islandFwReq m i req) s = .next s)) ∧
     (s.islTarget i ≠ .on →
       (x.st = .on ∨ x.st = .latched → s.leaveDue i = true → Runs (.islandEntryBegin i) s (fun t =>
         t.isl i = { x with st := .entering, goal := s.islTarget i, kept := s.retMask i } ∧
         (tsorted 0 s.sh.ctx = true → ∀ g, islKind i = .array g → ∀ e ∈ t.sh.ctx, g ∉ e.2.arrays))) ∧
       (x.st = .ret → s.islTarget i = .off → Runs (.islandEntryBegin i) s (fun t =>
         t.isl i = { x with st := .entering, goal := .off }))) ∧
     (x.st = .entering →
       (x.goal ≠ .off → exec (.islandEntryDone i) s = .next (s.modIsl i (fun x => { x with st := .ret }))) ∧
       (x.goal = .off → Runs (.islandEntryDone i) s (fun t => t.isl i = { x with st := .off, kept := 0 }))) ∧
     (x.st = .off ∨ x.st = .ret → s.wakes i = true → s.parentOn i = true → Runs (.islandExitBegin i) s (fun t =>
       t.isl i = { x with st := .exiting, fromRet := x.st == .ret } ∧
       ∀ d : ClkDomain, d ∈ s.clk.running → d ∈ t.clk.running)) ∧
     (x.st = .exiting → Runs (.islandExitDone i) s (fun t =>
       (t.isl i).st = if (islKind i).pads then .latched else .on)) ∧
     (i.val < 497 → (x.st = .on ∨ x.st = .latched ∨ x.st = .entering ∨ x.st = .exiting) → Runs (.islandShort i) s (fun t =>
       (t.isl i).st = .failedShort ∧ t.regBit pwBlock 8 = true ∧
       ∀ d, islKind i = .base d → t.fatal = true)) ∧
     (497 ≤ i.val → exec (.islandShort i) s = .next s))

/-- The Sluice, its limits and the site plant. In a tick above an unchanged budget, after 379 such ticks or past the
energy bound, the Sluice takes one level down, or one park step at level 0; before that it only counts the tick; with
power and energy low, nothing parked and 20 ticks passed it takes one level up. The limiter's emergency takes level 0
and parks every step. A die at 105 °C sets the thermal ceiling to 0 and parks, one at 100 °C lowers it, 100 ms below
97 °C raises it; the comparator takes every island OFF and is fatal. A new SITE_PWR value and THROTTLE_N held low for
1 µs are taken; a low under 0.5 µs is ignored, and one between may go either way. The completion statement of these
commands. (R375, R376, R378, R379, R380, R381, R383, R384, R385, R387, R389.) -/
def Obligations.SluiceCommands : Prop :=
  (∀ (s : State) (mw : BitVec 24), s.boot.powered = true → s.pw.sl.emerg = false → tsorted 0 s.regs = true →
    (let x := s.pw.sl
     let p := mw.toNat
     let b := s.budget
     let e := ((p :: x.window).take 20000).sum
     x.lastB = some b →
     (b * 1000 < p → 379 ≤ x.above ∨ b * 20000000 < e + 2700000 →
       (0 < x.powerLevel → Runs (.sluiceTick mw) s (fun t => t.pw.sl.powerLevel = x.powerLevel - 1 ∧
         t.pw.sl.above = x.above + 1 ∧ t.pw.sl.parked = x.parked ∧
         t.regN (pwBlock + 0x020) = (satAdd (s.reg (pwBlock + 0x020)) 1).toNat)) ∧
       (x.powerLevel = 0 → x.parked < 5 → 4 ≤ x.sincePark → Runs (.sluiceTick mw) s (fun t =>
         t.pw.sl.parked = x.parked + 1 ∧ t.pw.sl.powerLevel = 0)) ∧
       (x.powerLevel = 0 → x.parked = 5 → Runs (.sluiceTick mw) s (fun t => t.pw.sl.parked = 5 ∧
         t.pw.sl.floorLimited = true))) ∧
     (b * 1000 < p → x.above < 379 → e + 2700000 ≤ b * 20000000 → Runs (.sluiceTick mw) s (fun t =>
       t.pw.sl.above = x.above + 1 ∧ t.pw.sl.powerLevel = x.powerLevel ∧ t.pw.sl.parked = x.parked)) ∧
     (p * 100 ≤ 95 * b * 1000 → e * 100 ≤ 98 * b * 20000000 → s.parkSteps = 0 → 19 ≤ x.sinceLevel → x.powerLevel < 11 →
       Runs (.sluiceTick mw) s (fun t => t.pw.sl.powerLevel = x.powerLevel + 1 ∧ t.pw.sl.above = 0)))) ∧
  (∀ (s : State) (k : Fin 8), Runs (.operatingPointChange k) s (fun t => ∃ pts, t = s.modSluice (fun x => { x with points := pts }) ∧
    (tsorted 0 s.pw.sl.points = true → tget 0 pts k.val = levelPoint (decide (4 ≤ k.val)) s.pw.sl.level))) ∧
  (∀ (s : State), tsorted 0 s.regs = true → s.pw.sl.parked ≤ 5 → Runs .inputLimitEmergency s (fun t =>
    t.pw.sl.powerLevel = 0 ∧ t.pw.sl.parked = 5 ∧ t.pw.sl.emerg = true ∧ t.regBit pwBlock 6 = true)) ∧
  (∀ (s : State), exec .emergencyClear s = .next (s.modSluice (fun x => { x with emerg := false }))) ∧
  (∀ (s : State) (temps : List (BitVec 16)), temps.length = 10 →
    (let x := s.pw.sl
     let ceil (n : Nat) : Prop := Runs (.thermalTick temps) s (fun t => t.pw.sl.thermCeil = n)
     ((∃ v ∈ temps, 840 ≤ v.toInt) → Runs (.thermalTick temps) s (fun t => t.pw.sl.thermCeil = 0 ∧ t.pw.sl.thermParked = 5)) ∧
     ((∀ v ∈ temps, v.toInt < 840) → (∃ v ∈ temps, 800 ≤ v.toInt) → ceil (x.thermCeil - 1)) ∧
     ((∀ v ∈ temps, v.toInt < 776) → 99 ≤ x.cool → ceil (min 11 (x.thermCeil + 1))) ∧
     ((∀ v ∈ temps, v.toInt < 800) → (∃ v ∈ temps, 776 ≤ v.toInt) → ceil x.thermCeil))) ∧
  (∀ (s : State) (d : Die), Safe s → Runs (.thermalTrip d) s (fun t => t.fatal = true ∧
    ∀ i < 497, (t.isl i).st = .off ∨ (t.isl i).st = .failedShort)) ∧
  (∀ (s : State), s.boot.running = true → s.pw.sl.boost ≠ [] → Runs .boostHour s (fun t =>
    t.pw.sl.boost = 0 :: s.pw.sl.boost.take 719 ∧ t.boot.wear = some (s.pw.sl.boost.take 720))) ∧
  (∀ (s : State) (v : Fin 4), v.val ≠ s.pw.sl.site → Runs (.sitePwrChange v) s (fun t => t.pw.sl.site = v.val)) ∧
  (∀ (s : State) (n : Word),
    (1000 ≤ n.toNat → exec (.throttleAssert n) s = .next (s.modSluice (fun x => { x with throttle := true }))) ∧
    (n.toNat < 500 → exec (.throttleAssert n) s = .next s) ∧
    (500 ≤ n.toNat → n.toNat < 1000 → Runs (.throttleAssert n) s (fun t => t.pw.isl = s.pw.isl ∧ t.regs = s.regs ∧
      (t.pw.sl = s.pw.sl ∨ t.pw.sl = { s.pw.sl with throttle := true }))) ∧
    exec .throttleRelease s = .next (s.modSluice (fun x => { x with throttle := false })))

/-- Power, resets and the boot ROM. Power-on starts the raw counter's clock afresh with EPOCH 1 and bank A; a cold or warm
module reset keeps fuses, flash, the raw counter and the Bonded store, a warm one also BASE, ANCHOR and RATE, adds 1
to EPOCH and gives bank A the helm. The ROM starts with the Salvage cause; the record that passes is applied and
Salvage is entered with cause 4 where none does; BOOT is checked and the image started or RESULT set; RECORD and EXIT
act in Salvage mode only, and BOOT there needs a valid copy of the record; the first BOOT_OK clears BOOT_FAILS and advances
the fuses; SALVAGE_REQ is set; WDT seconds after an image started without BOOT_OK, a time the command takes the clock to
(log 17), a warm reset follows. The completion statement of these commands. (R264, R392, R393, R394, R398, R399, R401, R403, R404, R405,
R406, R413.) -/
def Obligations.BootCommands : Prop :=
  (∀ (s : State),
    Runs .powerOn s (fun t => t.boot.powered = true ∧ t.boot.epoch = 1 ∧ t.boot.holderB = false ∧ t.boot.fuses = s.boot.fuses ∧
      t.boot.fails = 0 ∧ t.td = State.reset.td ∧ t.clk = State.reset.clk ∧ t.mem = [] ∧ t.pending = s.pending) ∧
    (∀ c ∈ [Instr.inputInvalid, Instr.inputOvervoltage], Runs c s (fun t => t.boot.powered = false ∧
      t.boot.fuses = s.boot.fuses ∧ t.mem = [] ∧ ∀ i, t.islOn i = false)) ∧
    exec .inputDip s = .next s ∧
    (s.isPf .pf = true → ∀ c ∈ [Instr.btResetWarm .pf, Instr.btResetCold .pf], Runs c s (fun t =>
      t.td.raw = s.td.raw ∧ t.boot.epoch = (s.boot.epoch + 1) % 2 ^ 32 ∧ t.boot.holderB = false ∧ t.fatal = false ∧
      t.boot.fuses = s.boot.fuses ∧ t.hi.linkUp = false ∧ t.reg (btBlock + 0x014) = s.reg (btBlock + 0x014) ∧
      t.hm = {} ∧ t.sh = {} ∧ t.slots = [] ∧ t.pending = s.pending ∧
      (c = .btResetWarm .pf → t.td.base = s.td.base ∧ t.td.anchor = s.td.anchor ∧ t.td.rate = s.td.rate ∧
        t.boot.debug = s.boot.debug ∧ t.pw.sl.boost = s.pw.sl.boost ∧
        ∀ k, bonded k = true → rdByte t.mem k = rdByte s.mem k) ∧
      (c = .btResetCold .pf → t.td.base = 0 ∧ t.td.anchor = 0 ∧ t.td.rate = 0 ∧ t.boot.debug = false ∧
        (s.boot.debug = false → ∀ k, bonded k = true → rdByte t.mem k = rdByte s.mem k)))) ∧
    (∀ strap, s.clk.tideLock = true → s.boot.powered = true → s.boot.rom = false → Runs (.romStart strap) s (fun t =>
      t.boot.rom = true ∧ t.boot.salvageReq = false ∧ t.boot.salvage =
        if strap then 1 else if s.boot.fails = 3 then 2 else if s.boot.salvageReq then 3 else 0)) ∧
    (s.boot.rom = true → s.boot.phase = .record →
      (∀ c fall g, s.recSelect = some (c, fall, g) → Runs .configRecordDone s (fun t =>
        t.cfg = g ∧ t.boot.recValid = true ∧ t.boot.recFallback = fall ∧
        t.boot.phase = if s.boot.salvage = 0 ∧ s.boot.fuses.lc ≠ LcBase.scrapped then .wait else .salvage)) ∧
      (s.recSelect = none → Runs .configRecordDone s (fun t => t.boot.phase = .salvage ∧ t.boot.recValid = false ∧
        t.boot.salvage = if s.boot.salvage = 0 then 4 else s.boot.salvage))) ∧
    (s.romCmd .pf = true →
      (s.boot.phase = .wait → s.boot.running = false → Runs (.romBoot .pf) s (fun t => t.boot.busy = some 0 ∧
        t.boot.phase = .verify)) ∧
      (s.boot.phase = .salvage → s.boot.running = false →
        ((∃ c, c < 2 ∧ (s.recCheck (s.copyOf c)).isSome = true) → Runs (.romBoot .pf) s (fun t => t.boot.busy = some 0 ∧
          t.boot.phase = .verify)) ∧
        ((∀ c < 2, s.recCheck (s.copyOf c) = none) → exec (.romBoot .pf) s = .next (s.romResult 9))) ∧
      (s.boot.running = true → exec (.romBoot .pf) s = .next (s.romResult 9)) ∧
      (s.boot.phase = .salvage → Runs (.romRecord .pf) s (fun t => t.boot.busy = some 1) ∧
        Runs (.romExit .pf) s (fun t => t.td.raw = s.td.raw ∧ t.boot.rom = false ∧
          (s.boot.running = false → t.boot.fails = 0))) ∧
      (s.boot.phase ≠ .salvage → exec (.romRecord .pf) s = .next (s.romResult 9) ∧
        exec (.romExit .pf) s = .next (s.romResult 9))) ∧
    (s.boot.busy = some 0 → ∀ info,
      (s.imageCheck (s.imageAt 0x038004000000) = 0 → Runs (.romBootDone info) s (fun t => t.boot.running = true ∧
        t.boot.phase = .running ∧ t.boot.bootOk = false ∧ t.boot.busy = none ∧ t.boot.result = 0)) ∧
      (s.imageCheck (s.imageAt 0x038004000000) ≠ 0 → Runs (.romBootDone info) s (fun t =>
        t.boot.running = s.boot.running ∧ t.boot.busy = none ∧ t.mem = s.mem ∧
        t.boot.result = s.imageCheck (s.imageAt 0x038004000000)))) ∧
    (s.boot.busy = some 1 →
      (s.recordTarget = none → ∀ ok, Runs (.romRecordDone ok) s (fun t => t.boot.result = 10 ∧ t.boot.flash = s.boot.flash ∧
        t.boot.busy = none)) ∧
      (∀ c r, s.recordTarget = some (c, r) → Runs (.romRecordDone true) s (fun t => t.boot.result = 0 ∧
        t.boot.flash = lmod s.boot.flash c (fun _ => r)) ∧ Runs (.romRecordDone false) s (fun t => t.boot.result = 11)))) ∧
  (∀ (s : State) (m : Agent), m.isHd = true → Acts m s →
    (s.boot.running = true → s.boot.bootOk = false → Runs (.bootOkWrite m) s (fun t => t.boot.bootOk = true ∧
      t.boot.fails = 0 ∧ t.boot.fuses.sv = max s.boot.fuses.sv s.boot.bootedSv ∧
      t.boot.fuses.keyRev = s.boot.fuses.keyRev ||| s.boot.bootedRevoke)) ∧
    (s.boot.bootOk = true → exec (.bootOkWrite m) s = .next s) ∧
    exec (.salvageReqWrite m) s = .next { s with boot := { s.boot with salvageReq := true } }) ∧
  (∀ (s : State), s.boot.running = true → s.boot.bootOk = false →
    (let due := s.boot.startedAt + rawUs (s.cfg.wdt * 1000000)
     let t := s.reachRaw due
     due ≤ t.td.raw → exec .bootWatchdog s = .next (t.moduleReset false)))

/-- Live update, the helm, the life cycle and tampering. STAGE is taken in the states R407 names while an image runs, and
refused with STATE elsewhere (log 64), and its end stages the image or sets RESULT; ARM aims S at the first subframe
boundary at or after the later of BT_UPD_T and now, and DISARM before S and DISCARD go back; at S the handover begins
and the new bank is the one that units switch to, a GIVE of the current EPOCH by the holder passes the helm and makes
the update DONE, and without it by S + 300 µs the update is abandoned, the staged image is gone, the old bank stays the
running one, and units that switched go back to it at the next subframe boundary. Beats count from the last; 100 ms
without one is fatal. A command that is the arrival of one of these times takes the clock there (log 17). A permitted
life-cycle change, leaving DEBUG and tampering wipe the Bonded store. The completion statement of these commands. (R401, R407, R408, R409, R410, R413, R414, R416,
R417, R419.) -/
def Obligations.UpdateCommands : Prop :=
  (∀ (s : State), s.isPf .pf = true →
    (let u := s.boot.upd
     (s.boot.running = true → u.st = .idle ∨ u.st = .done ∨ u.st = .refused ∨ u.st = .abandoned →
       exec (.updStage .pf) s = .next (s.setUpd (fun x => { x with st := .staging }))) ∧
     (u.st = .staging → exec (.updStage .pf) s = .next s) ∧
     (u.st = .staged ∨ u.st = .armed ∨ u.st = .handover ∨ (s.boot.running = false ∧ u.st ≠ .staging) →
       exec (.updStage .pf) s = .next (s.setUpd (fun x => { x with result := 9 }))) ∧
     (u.st = .staged →
       Runs (.updDiscard .pf) s (fun t => t.boot.upd.st = .idle ∧ t.boot.stby = none) ∧
       Runs (.updArm .pf) s (fun t => t.boot.upd.st = .armed ∧ t.boot.upd.late = decide (s.updT < s.T) ∧
         (max s.updT s.T : Nat) ≤ t.boot.upd.s ∧ t.boot.upd.s < (max s.updT s.T : Nat) + 1000000 ∧
         (t.boot.upd.s - gps0 - s.frameOfs) % 1000000 = 0)) ∧
     (u.st = .armed → s.pastNs u.s = false →
       exec (.updDisarm .pf) s = .next (s.setUpd (fun x => { x with st := .staged }))))) ∧
  (∀ (s : State) (m : Agent), s.hdOrPf m = true → Acts m s → s.boot.debug = true →
    Runs (.lcExitDebug m) s (fun t => t.boot.debug = false ∧ t.boot.fuses.lc = s.boot.fuses.lc ∧
      t.boot.wipes = min 255 (s.boot.wipes + 1) ∧ ∀ a, bonded a = true → rdByte t.mem a = 0)) ∧
  (∀ (s : State), s.fatal = false →
    (∀ info, s.boot.upd.st = .staging →
      (let code := s.stageCheck (s.imageAt 0x08000000)
       (code = 0 → Runs (.updStageDone info) s (fun t => t.boot.upd.st = .staged ∧ t.boot.upd.result = 0 ∧
         t.boot.stby = some ((s.imageAt 0x08000000).image info))) ∧
       (code ≠ 0 → exec (.updStageDone info) s =
         .next (s.setUpd (fun x => { x with st := .refused, result := code }))))) ∧
    (s.boot.upd.st = .armed →
      (let u := s.reachNs s.boot.upd.s
       u.pastNs s.boot.upd.s = true → Runs .updSwitch s (fun t => t = { u with boot := { u.boot with
           bank := !s.homeBank, upd := { u.boot.upd with st := .handover, back := none } } } ∧
         t.homeBank = s.homeBank ∧ t.bankNow = !s.homeBank))) ∧
    (s.boot.upd.st = .handover →
      (let due := s.boot.upd.s + 300000
       let u := s.reachNs due
       u.pastNs due = true → Runs .updAbandon s (fun t => t = { u with boot := { u.boot with
           stby := none, upd := { u.boot.upd with st := .abandoned, back := some (u.subframeAt due) } } } ∧
         t.homeBank = s.homeBank ∧ (t.pastNs (u.subframeAt due) = true → t.bankNow = s.homeBank))))) ∧
  (∀ (s : State) (m : Agent) (e : Word), m.isHd = true → Acts m s →
    (e.toNat = s.boot.epoch →
      exec (.helmBeat m e) s = .next { s with boot := { s.boot with beatAt := s.td.raw } } ∧
      Runs (.helmGive m e) s (fun t => t.boot.holderB = (!s.boot.holderB) ∧
        t.boot.epoch = (s.boot.epoch + 1) % 2 ^ 32 ∧ t.boot.beatAt = s.td.raw ∧
        (∀ x, s.boot.upd.st = .handover → s.fatal = false → s.boot.stby = some x →
          t.boot.upd.st = .done ∧ t.boot.img = x ∧ t.boot.stby = none))) ∧
    (e.toNat ≠ s.boot.epoch → exec (.helmBeat m e) s = .next s ∧ exec (.helmGive m e) s = .next s) ∧
    (∀ (req : BitVec 4), req ≠ 0 →
      (∀ lc d, lcNext s.boot.fuses.lc s.boot.debug req.toNat = some (lc, d) → Runs (.lcRequest m req) s (fun t =>
        t.boot.fuses.lc = lc ∧ t.boot.debug = d ∧ t.boot.wipes = min 255 (s.boot.wipes + 1) ∧
        ∀ a, bonded a = true → rdByte t.mem a = 0)) ∧
      (lcNext s.boot.fuses.lc s.boot.debug req.toNat = none →
        exec (.lcRequest m req) s = .next { s with boot := { s.boot with lcRefused := true } }))) ∧
  (∀ (s : State), s.boot.running = true →
    s.boot.beatAt + rawUs 100000 ≤ (s.reachRaw (s.boot.beatAt + rawUs 100000)).td.raw → s.fatal = false →
    tsorted 0 s.regs = true → Runs .helmBeatTimeout s (fun t => t.fatal = true ∧ t.regB (btBlock + 0x300) 7 0 = 5)) ∧
  (∀ (s : State) (src : Fin 4), s.boot.powered = true → tsorted 0 s.regs = true → Runs (.tamperEvent src) s (fun t =>
    t.regBit (btBlock + 0x014) src = true ∧ t.boot.wipes = min 255 (s.boot.wipes + 1) ∧
    (∀ a, bonded a = true → rdByte t.mem a = 0) ∧ (s.boot.fuses.lc ≠ .manufacture → t.fatal = true)))

/-- Margins, adoption and the radio standby. Each second the evaluation takes what the monitors and HBM controllers
recorded, sets the cause bits of thresholds that are crossed and takes none away; a write of a monitor's register
resets its minimum to its current value. A command that is the arrival of a time takes the clock there (log 17). HM_ADOPT begins with a READY slot and a DST_VF from 1 to 512, is refused
otherwise and ignored while busy, and ends not busy. ARM of a plan that passes its checks arms and mutes its cells;
DISARM removes armed ones; at a slot boundary the primary sends its heartbeat; at T_m + GRACE the uncovered cells are
unmuted, and the watch is TAKEN and signalled when none is left. The completion statement of these commands. (R422,
R423, R427, R429, R430, R431, R437, R438, R439.) -/
def Obligations.ServiceCommands : Prop :=
  (∀ (s : State) (mons : List MonSample) (hbm : List HbmErr), s.boot.running = true → s.fatal = false →
    s.pw.mg.evalT + rawUs 1000000 ≤ (s.reachRaw (s.pw.mg.evalT + rawUs 1000000)).td.raw → tsorted 0 s.regs = true →
    (let u := hbm.foldl State.hbmErrors (mons.foldl State.sample (s.reachRaw (s.pw.mg.evalT + rawUs 1000000)))
     let v : State := { u with pw := { u.pw with mg := u.marginNext } }
     Runs (.marginEval mons hbm) s (fun t => t.pw.mg = u.marginNext ∧
       t.regN mrgStat = u.regN mrgStat ||| (flagBits v.warns + flagBits v.retires * 2 ^ 8)))) ∧
  (∀ (s : State) (m : Agent) (r : MonitorId), s.hdOrPf m = true → Acts m s → tsorted 0 s.regs = true →
    Runs (.marginMinReset m r) s (fun t =>
    t.monNow r = s.monNow r ∧ t.monMin r = s.monNow r)) ∧
  (∀ (s : State) (v : Word), s.isPf .pf = true → v.getLsbD 31 = true →
    (let a : Adopt := { src := bitsOf v.toNat 23 14, dst := bitsOf v.toNat 13 4, slot := bitsOf v.toNat 3 0 }
     (s.hm.adopt.busy = true → exec (.hmAdopt .pf v) s = .next s) ∧
     (s.hm.adopt.busy = false → (s.slotOf a.slot).st = .ready → 1 ≤ a.dst → a.dst ≤ 512 →
       exec (.hmAdopt .pf v) s = .next { s with hm := { s.hm with adopt := { a with busy := true } } }) ∧
     (s.hm.adopt.busy = false → (s.slotOf a.slot).st ≠ .ready ∨ a.dst = 0 ∨ 512 < a.dst →
       exec (.hmAdopt .pf v) s = .next { s with hm := { s.hm with adopt := { a with result := 1 } } }))) ∧
  (∀ (s : State), s.halted .inference = false → s.hm.adopt.busy = true → s.fatal = false →
    Runs .hmAdoptDone s (fun t => t.hm.adopt.busy = false)) ∧
  (∀ (s : State) (v : Word), s.isPf .pf = true → s.dieOn .rd = true → v.getLsbD 31 = true → tsorted 0 s.fh.stby = true →
    (let w := bitsOf v.toNat 25 24
     let g := bitsOf v.toNat 7 0
     (bitsOf v.toNat 27 26 = 0 → s.readPlan (s.reg64 (fhBlock + 0x004) (fhBlock + 0x008)) = none →
       Runs (.stbyArm .pf v) s (fun t => t.stbyOf w = { s.stbyOf w with result := 1 })) ∧
     (bitsOf v.toNat 27 26 = 0 → ∀ p, s.readPlan (s.reg64 (fhBlock + 0x004) (fhBlock + 0x008)) = some p →
       (s.armCheck w p ≠ 0 → Runs (.stbyArm .pf v) s (fun t => t.stbyOf w = { s.stbyOf w with result := s.armCheck w p })) ∧
       (s.armCheck w p = 0 → Runs (.stbyArm .pf v) s (fun t => t.stbyOf w =
         { st := .armed, result := 0, primary := bitsOf v.toNat 23 16, grace := if 5 ≤ g ∧ g ≤ 100 then g else 15
           muted := p.cells.map (·.cell), checked := s.T }))) ∧
     (bitsOf v.toNat 27 26 = 1 → (s.stbyOf w).st = .armed → Runs (.stbyDisarm .pf v) s (fun t =>
       (t.stbyOf w).st = .idle ∧ (t.stbyOf w).muted = [])))) ∧
  (∀ (s : State) (tm : BitVec 64), s.halted .radio = false → s.regBit hbDst 31 = true → s.dieOn .rd = true → s.zlOn = true →
    s.isHalfMs tm.toNat = true → s.fh.hbSent < tm.toNat →
    (let u := s.reachNs tm.toNat
     u.pastNs tm.toNat = true → exec (.heartbeatSend tm) s =
       .next ({ u with fh := { u.fh with hbSeq := (s.fh.hbSeq + 1) % 2 ^ 32, hbSent := tm.toNat } }.zlHold (.req (.fw 24 0)
         { typ := 3, cls := 0, dst := s.regB hbDst 7 0
           qaddr := s.regN (fhBlock + 0x074) + s.regB (fhBlock + 0x078) 15 0 * 2 ^ 32, len := 80
           data := u.heartbeat tm.toNat } [])))) ∧
  (∀ (s : State) (w : Fin 4) (tm : BitVec 64), s.halted .radio = false → s.dieOn .rd = true → s.fatal = false →
    (s.stbyOf w).st = .armed → s.isHalfMs tm.toNat = true → (s.stbyOf w).checked < tm.toNat → tsorted 0 s.fh.stby = true →
    (let due : Int := tm.toNat + (s.stbyOf w).grace * 1000
     let u := s.reachNs due
     let left := (s.stbyOf w).muted.filter (fun c => u.covered w tm.toNat c)
     u.pastNs due = true → Runs (.standbyCheck w tm) s (fun t =>
       t.stbyOf w = { s.stbyOf w with muted := left, checked := tm.toNat, st := if left = [] then .taken else .armed } ∧
       (tsorted 0 s.fh.taken = true → ∀ c ∈ (s.stbyOf w).muted, u.covered w tm.toNat c = false →
         tget 0 t.fh.taken c = u.T))))

/-- Samples, trace registers and the global stop. The selected unit whose turn it is is sampled at its time, the sampling
moves on by one unit, and its record 0x20 is written unless a stop holds the unit; what a Pilot core does is the
command's operand. HM_TRC_RD takes what is written, and HM_TRC_CFG its fields, setting TRC_EN or SMP_EN from 0 zeroing WR
and RD; ARM takes the variant where nothing is armed or stopped and the buffer is placed, and where TD_GS_T has passed
and no handover runs fires at once and late; at TD_GS_T every unit of the variant halts; 40 µs later the captures
close; RELEASE delivers them and lets the units go on, the time stopped excluded from the fabric's and the watchdogs'
times. A command that is the arrival of a time takes the clock there (log 17). The completion statement of these
commands. (R443, R446, R450, R451, R452, R453, R454, R455, R456.) -/
def Obligations.ObserveCommands : Prop :=
  (∀ (s : State) (v : Word), s.isPf .pf = true → tsorted 0 s.regs = true →
    exec (.hmTrcRdWrite .pf v) s = .next (s.setReg (hmBlock + 0x6014) v.toNat) ∧
    (let rises := (v.getLsbD 31 && !s.regBit trcCfg 31) || (v.getLsbD 30 && !s.regBit trcCfg 30)
     Runs (.hmTrcCfgWrite .pf v) s (fun t => t.regN trcCfg = v.toNat &&& 0xFFFFC07F ∧
       (rises = true → t.regN (hmBlock + 0x6014) = 0 ∧ t.obs.wr = 0 ∧ t.obs.lost = 0 ∧ t.obs.sampleT = s.td.raw ∧
         t.obs.sampleIx = 0) ∧
       (rises = false → t.obs = s.obs ∧ t.reg (hmBlock + 0x6014) = s.reg (hmBlock + 0x6014))))) ∧
  (∀ (s : State) (m : Agent) (v : Word), s.tdWriter m = true → Acts m s → tsorted 0 s.regs = true →
    (v.getLsbD 0 = true → s.regBit gsCtrl 0 = false → s.obs.stopped = false → s.gsBufferOk = true → s.fatal = false →
      (s.gsPassed = false ∨ s.boot.upd.st = .handover → Runs (.gsArm m v) s (fun t => t.regBit gsCtrl 0 = true ∧
        t.regBit gsCtrl 1 = v.getLsbD 1 ∧ t.obs = s.obs)) ∧
      (s.gsPassed = true → s.boot.upd.st ≠ .handover → Runs (.gsArm m v) s (fun t => t.regBit gsCtrl 0 = false ∧
        t.regBit gsCtrl 5 = true ∧ t.obs.stopped = true ∧ t.obs.inference = v.getLsbD 1 ∧ t.obs.since = s.td.raw ∧
        t.halted .radio = !v.getLsbD 1))) ∧
    (s.obs.stopped = true → exec (.gsRelease m) s = .next s.gsRelease ∧
      (s.obs.captures = [] → Runs (.gsRelease m) s (fun t => t.obs.stopped = false ∧
        t.boot.beatAt = s.boot.beatAt + (s.td.raw - s.obs.since) ∧ t.boot.startedAt = s.boot.startedAt + (s.td.raw - s.obs.since) ∧
        t.zl = s.zl.shift (s.td.raw - s.obs.since) ∧ ∀ u, t.halted u = false)))) ∧
  (∀ (s : State) (u : Fin 132) (pc : BitVec 18) (stall : Fin 9) (layer op : BitVec 16) (fn : BitVec 10),
    (let n := s.sampledUnits.length
     let due := s.obs.sampleT + ceilDiv (max 10 (s.regB (hmBlock + 0x6000) 31 16) * 98304) (100 * n)
     let t := s.reachRaw due
     s.regBit trcCfg 30 = true → s.sampledUnits[s.obs.sampleIx % n]? = some u.val → due ≤ t.td.raw →
     Runs (.obsSample u pc stall layer op fn) s (fun v => v.obs.sampleT = t.td.raw ∧ v.obs.sampleIx = s.obs.sampleIx + 1 ∧
       (s.sampleHalted u = true → v = { t with obs := v.obs }) ∧
       (s.sampleHalted u = false → 88 ≤ u.val →
         (let w := t.traceWrite (t.traceRec 0x20 (0x080 + (u.val - 88)) layer.toNat op.toNat fn.toNat
            (pc.toNat + stall.val * 2 ^ 18))
          v = { w with obs := { w.obs with sampleT := t.td.raw, sampleIx := s.obs.sampleIx + 1 } })) ∧
       (s.sampleHalted u = false → 84 ≤ u.val → u.val < 88 →
         (let x := t.dlDoing (u.val - 84)
          let w := t.traceWrite (t.traceRec 0x20 (0x060 + (u.val - 84)) x.layer x.op x.fn (x.pc + x.stall * 2 ^ 18))
          v = { w with obs := { w.obs with sampleT := t.td.raw, sampleIx := s.obs.sampleIx + 1 } })) ∧
       (s.sampleHalted u = false → u.val < 84 →
         (let x := t.esDoing u.val
          let w := t.traceWrite (t.traceRec 0x20 u.val x.layer x.op x.fn (x.pc + x.stall * 2 ^ 18))
          v = { w with obs := { w.obs with sampleT := t.td.raw, sampleIx := s.obs.sampleIx + 1 } }))))) ∧
  (∀ (s : State), s.fatal = false → s.gsMayFire = true → tsorted 0 s.regs = true →
    (let u := s.reachNs s.gsT
     u.pastNs s.gsT = true → Runs .gsFire s (fun t => t.obs.stopped = true ∧ t.obs.inference = s.regBit gsCtrl 1 ∧
       t.obs.since = u.td.raw ∧ t.obs.captures = [] ∧ t.regBit gsCtrl 0 = false ∧
       (s.gsPassed = true → t.regBit gsCtrl 5 = true) ∧ t.halted .radio = !s.regBit gsCtrl 1))) ∧
  (∀ (s : State), s.obs.stopped = true → s.obs.captured = false →
    (let u := s.reachRaw (s.obs.since + rawUs 40)
     s.obs.since + rawUs 40 ≤ u.td.raw →
       exec .gsCaptureClose s = .next { u with obs := { u.obs with captured := true } }))

/-- What the SMBus target answers. Without power every command is NACKed. With it STATUS, MODULE and MARGIN answer their
bytes; DIE_SEL takes 0 to 17 and NACKs others; DIE_ID and the digests answer their bytes once the ROM has started and
a byte count of 0 before; WARM_RESET and COLD_RESET reset the module, in a fatal state too; any other code, and a
reset with another data byte, is NACKed and does nothing. The completion statement of these commands. (R392, R472,
R473, R474, R475, R476, R479.) -/
def Obligations.SmbusCommands : Prop :=
  (∀ (s : State), s.boot.powered = true →
    (let ans (c : Instr) (bs : List Byte) : Prop := exec c s = .next { s with boot := { s.boot with smb := .data bs } }
     (∀ inlet outlet, ans (.smbStatus inlet outlet) (s.smbStatusBytes inlet outlet) ∧
       (s.smbStatusBytes inlet outlet).length = 16) ∧
     ans .smbModule (leBytes 4 s.btModule ++ leBytes 8 s.boot.fuses.serial) ∧
     ans .smbMargin (leBytes 4 (s.regN mrgStat)) ∧
     ans .smbDieId (if s.boot.rom then (List.range 4).flatMap (fun w => leBytes 4 (s.dieIdWord s.boot.dieSel w)) else []) ∧
     ans .smbFwDigest (if s.boot.rom then leBytes 32 s.boot.fwDigest.toNat else []) ∧
     ans .smbStbyDigest (if s.boot.rom then leBytes 32 s.stbyDigest.toNat else []) ∧
     (∀ d : BitVec 8, (d.toNat ≤ 17 → exec (.smbDieSel d) s =
         .next { s with boot := { s.boot with dieSel := d.toNat, smb := .ack } }) ∧
       (17 < d.toNat → exec (.smbDieSel d) s = .next { s with boot := { s.boot with smb := .nack } })) ∧
     exec .smbWarmReset s = .next { s.moduleReset false with boot := { (s.moduleReset false).boot with smb := .ack } } ∧
     exec .smbColdReset s = .next { s.moduleReset true with boot := { (s.moduleReset true).boot with smb := .ack } } ∧
     (∀ (code : BitVec 8) (data : List Byte), code.toNat = 0 ∨ (8 ≤ code.toNat ∧ code.toNat < 0x7E) ∨ 0x7F < code.toNat ∨
       ((code.toNat = 0x7E ∨ code.toNat = 0x7F) ∧ data ≠ [0x5A]) →
       exec (.smbInvalidCommand code data) s = .next { s with boot := { s.boot with smb := .nack } }))) ∧
  (∀ (s : State), s.boot.powered = false →
    ∀ c ∈ [Instr.smbModule, .smbMargin, .smbDieId, .smbFwDigest, .smbStbyDigest, .smbWarmReset, .smbColdReset],
      exec c s = .next { s with boot := { s.boot with smb := .nack } })

/-- What a write of a register without a command of its own does. A write without rights, at an unassigned offset or to a
die that is not ON changes nothing; one of a register with a command of its own, or with read-only bits, changes no
such bit; a plain register of the PF takes its writable bits, a COUNT register is cleared by any value. A VF reaches
only its MSI-X table, and a vector unmasked while pending is sent. Console input is taken in MANUFACTURE and DEBUG
only. The completion statement of these commands. (R8, R285, R340, R352, R366, R420, R461, R462, R465, R469.) -/
def Obligations.RegisterWrites : Prop :=
  (∀ (s : State) (o : BitVec 28) (v : Word), s.isPf .pf = true → tsorted 0 s.regs = true →
    (blockOf o.toNat = none → exec (.registerWrite .pf o v) s = .next s) ∧
    (∀ b d, blockOf o.toNat = some (b, d) → b ≠ 0xFF00000 →
      (s.dieOn d = false ∨ s.mayWriteReg .pf b (o.toNat - b) d = false → exec (.registerWrite .pf o v) s = .next s))) ∧
  (∀ (s : State) (v : Word), s.isPf .pf = true → tsorted 0 s.regs = true →
    Runs (.registerWrite .pf (BitVec.ofNat 28 (hiBlock + 0x008)) v) s (fun t => t.regN (hiBlock + 0x008) = v.toNat % 2 ^ 12 ∧
      ∀ o, o ≠ hiBlock + 0x008 → t.reg o = s.reg o) ∧
    Runs (.registerWrite .pf (BitVec.ofNat 28 (hiBlock + 0x024)) v) s (fun t => t.regN (hiBlock + 0x024) = 0) ∧
    Runs (.registerWrite .pf (BitVec.ofNat 28 (hiBlock + 0x00C)) v) s (fun t =>
      ∀ k < 9, t.regBit (hiBlock + 0x00C) k = (s.regBit (hiBlock + 0x00C) k && !v.getLsbD k)) ∧
    Runs (.registerWrite .pf (BitVec.ofNat 28 (tdBlock + 0x040)) v) s (fun t =>
      t.regN (tdBlock + 0x040) = if s.regBit tdBlock 0 then s.regN (tdBlock + 0x040) else v.toNat) ∧
    exec (.registerWrite .pf (BitVec.ofNat 28 (hiBlock + 0x000)) v) s = .next s) ∧
  (∀ (s : State) (f : Fin 512) (k : Fin 16) (v : Word), s.fnLive (f.val + 1) = true → tsorted 0 s.hi.msix = true →
    (let o (w : Nat) : BitVec 28 := BitVec.ofNat 28 (0xE000 + 16 * k.val + 4 * w)
     let x : MsixVec := tget {} s.hi.msix (msixKey (f.val + 1) k)
     Runs (.registerWrite (.vf f) (o 2) v) s (fun t => tget {} t.hi.msix (msixKey (f.val + 1) k) = { x with data := v }) ∧
     (v.getLsbD 0 = false → x.pending = true → x.addrHi ≠ 0 → Runs (.registerWrite (.vf f) (o 3) v) s (fun t =>
       tget {} t.hi.msix (msixKey (f.val + 1) k) = { x with masked := false, pending := false, sent := x.sent + 1 })) ∧
     (∀ p : BitVec 28, p.toNat < 0xE000 ∨ 0xE100 ≤ p.toNat → exec (.registerWrite (.vf f) p v) s = .next s))) ∧
  (∀ (s : State) (c : Byte), s.boot.powered = true →
    (s.boot.debug = true ∨ s.boot.fuses.lc = .manufacture →
      exec (.uartRx c) s = .next { s with boot := { s.boot with uart := s.boot.uart ++ [c] } }) ∧
    (s.boot.debug = false → s.boot.fuses.lc ≠ .manufacture → exec (.uartRx c) s = .next s) ∧
    exec .lidClose s = .next { s with boot := { s.boot with lidOpen := false } })

/-- A step runs the command at the front of the queue. For every command c and every state, a step with c at the front of
the queue is exec of c on the state with the queue's rest. The table gives no command bits, so no word spells one and
placing a word changes nothing. On an empty queue a step is one TIDE cycle: the raw counter advances by one and wraps
after 2 to the 64 where the TIDE PLL has locked, a pending adjustment whose tick it reaches applies, and nothing else
changes; that cycle is the model's choice (log 2). (R264, R268, R413.) -/
def Obligations.StepRunsFront : Prop :=
  (∀ (s : State) (c : Instr) (rest : List Instr), Machine.step { s with pending := c :: rest } = exec c { s with pending := rest }) ∧
  (∀ (s : State) (nbits w : Nat), decodeTableWord nbits w = none ∧ s.withFetchWord nbits w = s) ∧
  (∀ s : State, s.pending = [] →
    (s.clk.tideLock = false → s.td.adj = none → Machine.step s = .next s) ∧
    (s.clk.tideLock = true →
      (let t : State := { s with td := { s.td with raw := (s.td.raw + 1) % 2 ^ 64 } }
       ((∀ a, s.td.adj = some a → t.td.raw < a.at_) → Machine.step s = .next t) ∧
       (∀ a, s.td.adj = some a → a.at_ ≤ t.td.raw → Machine.step s = .next (t.adjNow a)))))

/-- The module at power-on. No command waits; the raw counter stands at 0 and T with it; PI.HD.AON and PI.HD.BASE are ON
and every other island is OFF; EPOCH is 1 and bank A holds the helm; no image runs, nothing is fatal and no stop is in
force; no link is up; memory lists nothing. Every register reads its reset value, of which some are named: those the
spec gives are the spec's, and any register the spec gives none reads 0, the model's choice (log 4). (R28, R70, R86,
R98, R100, R184, R264, R325, R413, R391, R393, R455.) -/
def Obligations.ResetState : Prop :=
  State.reset.pending = [] ∧ State.reset.td.raw = 0 ∧ State.reset.T = 0 ∧
  (∀ i < 499, (State.reset.isl i).st = if i = 497 ∨ i = 498 then .on else .off) ∧
  State.reset.boot.epoch = 1 ∧ State.reset.boot.holderB = false ∧ State.reset.boot.running = false ∧
  State.reset.fatal = false ∧ State.reset.obs.stopped = false ∧ State.reset.hi.linkUp = false ∧
  (∀ z, State.reset.linkUp z = false) ∧
  (∀ a, rdByte State.reset.mem a = 0) ∧ (∀ o, State.reset.reg o = regReset o) ∧
  (∀ g < 84, regReset (esReg g 0) = 0 ∧ regReset (esReg g 0x020) = 0x208001) ∧
  (∀ n < 4, regReset (dlReg n 0) = 0 ∧ ∀ m < 3, regReset (dlReg n (0x040 + 4 * m)) = 0xFFFFFFFF) ∧
  (∀ n : Fin 4, regReset (bkReg (.gd n) 0x0204) = 0x0AB4 ∧ regReset (bkReg (.pd n) 0x0204) = 0x2AE4 ∧
    regReset (bkReg (.pd n) 0x0200) = 1 ∧ ∀ i < 192, regReset (bkReg (.pd n) (0x4000 + 4 * i)) = 0xAAAAAAAA) ∧
  regReset (bkReg .hd 0x0204) = 0x80B6 ∧ regReset (bkReg .rd 0x0204) = 0x2AE4 ∧
  regReset cxBlock = 1000 ∧ regReset (cxBlock + 0x004) = 100 ∧ (∀ f < 513, regReset (cxBlock + 0x1000 + 4 * f) = 0x1F0001) ∧
  regReset hmBlock = 32 ∧ regReset (hmBlock + 0x004) = 4 ∧ regReset (zlBlock + 0x004) = 40 ∧
  (∀ q : EqId, regReset (eqReg q.key 0) = 1 ∧ regReset (eqReg q.key 8) = 0x4000)

/-- The state after reset keeps the canonical form. The invariant that every step keeps holds of the state after reset:
memory, host memory and the register and sequencer tables are in canonical form, and every island has its state. (R8,
R264, R392.) -/
def Obligations.ResetSafe : Prop := Safe State.reset

/-- Every step keeps the canonical form. From every state whose memory, host memory, register file and sequencer tables
are in canonical form (addresses strictly rising, no byte listed that an unlisted one reads as) and whose 499 islands
have their states, every step, whatever command waits in front, answers a next state, and one of which the same holds.
(R8, R27, R101, R264, R392, R461.) -/
def Obligations.StepKeepsSafe : Prop :=
  ∀ s : State, Safe s → ∃ t, Machine.step s = .next t ∧ Safe t

/-- What blows a fuse. The first write of BOOT_OK after a boot raises FUSE_SV to the larger of it and the booted image's
and sets the revocation bits of its REVOKE; a second one does nothing. No other command, a live update and a reset
among them, changes FUSE_SV or a revocation bit; only a life-cycle request changes the fused base; and no command at
all changes another fuse. (R404, R415, R416.) -/
def Obligations.FusesBlown : Prop :=
  (∀ (m : Agent) (s : State), m.isHd = true → Acts m s → s.boot.running = true →
    exec (.bootOkWrite m) s = .next (if s.boot.bootOk then s else
      { s with boot := { s.boot with bootOk := true, fails := 0, fuses := { s.boot.fuses with
        sv := max s.boot.fuses.sv s.boot.bootedSv, keyRev := s.boot.fuses.keyRev ||| s.boot.bootedRevoke } } })) ∧
  (∀ (c : Instr) (s t : State), exec c s = .next t → (∀ m, c ≠ .bootOkWrite m) →
    t.boot.fuses.sv = s.boot.fuses.sv ∧ t.boot.fuses.keyRev = s.boot.fuses.keyRev) ∧
  (∀ (c : Instr) (s t : State), exec c s = .next t → (∀ m r, c ≠ .lcRequest m r) →
    (∀ m, c ≠ .lcExitDebug m) → t.boot.fuses.lc = s.boot.fuses.lc) ∧
  (∀ (c : Instr) (s t : State), exec c s = .next t → { t.boot.fuses with
    sv := s.boot.fuses.sv, keyRev := s.boot.fuses.keyRev, lc := s.boot.fuses.lc } = s.boot.fuses)

/-- PI.HD.AON and PI.HD.BASE stay ON. While the module is powered, PI.HD.AON and PI.HD.BASE are ON: every step keeps that,
whatever is requested, parked, shorted, tripped or reset, and it holds after reset. So neither ever leaves ON while the
module is powered. (R28, R367, R384, R393.) -/
def Obligations.HdIslandsStay : Prop :=
  let up (s : State) : Prop := s.boot.powered = true → ∀ i, i = 497 ∨ i = 498 → (s.isl i).st = .on
  up State.reset ∧ ∀ s t : State, s.pw.isl.length = 499 → up s → Machine.step s = .next t → up t

/-- What the commands of the ring, the arrays, the lanes, the banks and the descriptors leave. For each command of the
chapters on the package, number formats, the arrays, the generation dies, the banks and tiling: in every next state
every part of the module's state outside its list, every register outside its sets and every byte of device memory
outside what it may store to are as before. The bytes that engines store to are named by the statements about them.
(R8, R16, R67, R69, R82, R86, R98, R101, R109, R114, R120, R134.) -/
def Obligations.FrameEngines : Prop := ∀ c : Instr, 1 ≤ c.chapter → c.chapter ≤ 6 → Frame c

/-- What the commands of serving, token selection and sharing leave. For each command of the chapters on requests, token
selection and engine sharing: in every next state every part of the module's state outside its list, every register
outside its sets and every byte of device memory outside what it may store to are as before. (R140, R147, R151, R157,
R162, R173, R177, R184, R191, R196, R202, R446.) -/
def Obligations.FrameServing : Prop := ∀ c : Instr, 7 ≤ c.chapter → c.chapter ≤ 9 → Frame c

/-- What the commands of the radio and of channel coding leave. For each command of the radio and channel-coding chapters:
in every next state every part of the module's state outside its list, every register outside its sets and every byte
of device memory outside what it may store to are as before. (R205, R210, R213, R219, R224, R231, R239, R242, R246,
R253, R257, R262.) -/
def Obligations.FrameRadio : Prop := ∀ c : Instr, c.chapter = 10 ∨ c.chapter = 11 → Frame c

/-- What the commands of time, the fabric and egress leave. For each command of the chapters on Tide, Zelic and egress
shaping: in every next state every part of the module's state outside its list, every register outside its sets and
every byte of device memory outside what it may store to are as before. (R267, R272, R281, R283, R288, R289, R292,
R305, R314, R318, R325, R446.) -/
def Obligations.FrameFabric : Prop := ∀ c : Instr, 12 ≤ c.chapter → c.chapter ≤ 14 → Frame c

/-- What the commands of the host interface, determinism and power leave. For each command of the chapters on the host
interface, determinism and power: in every next state every part of the module's state outside its list, every
register outside its sets and every byte of device memory outside what it may store to are as before. (R333, R338,
R341, R344, R346, R347, R357, R359, R362, R367, R378, R384.) -/
def Obligations.FrameHost : Prop := ∀ c : Instr, 15 ≤ c.chapter → c.chapter ≤ 17 → Frame c

/-- What the commands of boot, service, observation and the connectors leave. For a register write and each command of the
chapters on boot and firmware, faults and service, observation, the address map and the module's connectors: in every
next state every part of the module's state outside its list, every register outside its sets and every byte of device
memory outside what it may store to are as before. (R392, R393, R404, R407, R413, R416, R420, R423, R444, R452, R465,
R473.) -/
def Obligations.FrameService : Prop := ∀ c : Instr, c.chapter = 0 ∨ 18 ≤ c.chapter → Frame c
end

