-- ==== Sys2Proof/Laws/State.lean ====
section
/-! SUPPORT.  What each update of State leaves: one lemma for each field, and for the readers that the meanings use. -/

namespace Sys2Proof.Machine

variable (s : State)

@[simp] theorem State.setReg_clk (o v : Nat) : (s.setReg o v).clk = s.clk := rfl
@[simp] theorem State.setReg_ring (o v : Nat) : (s.setReg o v).ring = s.ring := rfl
@[simp] theorem State.setReg_es (o v : Nat) : (s.setReg o v).es = s.es := rfl
@[simp] theorem State.setReg_dl (o v : Nat) : (s.setReg o v).dl = s.dl := rfl
@[simp] theorem State.setReg_bk (o v : Nat) : (s.setReg o v).bk = s.bk := rfl
@[simp] theorem State.setReg_pw (o v : Nat) : (s.setReg o v).pw = s.pw := rfl
@[simp] theorem State.setReg_td (o v : Nat) : (s.setReg o v).td = s.td := rfl
@[simp] theorem State.setReg_det (o v : Nat) : (s.setReg o v).det = s.det := rfl
@[simp] theorem State.setReg_cfg (o v : Nat) : (s.setReg o v).cfg = s.cfg := rfl
@[simp] theorem State.setReg_sh (o v : Nat) : (s.setReg o v).sh = s.sh := rfl
@[simp] theorem State.setReg_tt (o v : Nat) : (s.setReg o v).tt = s.tt := rfl
@[simp] theorem State.setReg_fh (o v : Nat) : (s.setReg o v).fh = s.fh := rfl
@[simp] theorem State.setReg_ds (o v : Nat) : (s.setReg o v).ds = s.ds := rfl
@[simp] theorem State.setReg_zl (o v : Nat) : (s.setReg o v).zl = s.zl := rfl
@[simp] theorem State.setReg_eg (o v : Nat) : (s.setReg o v).eg = s.eg := rfl
@[simp] theorem State.setReg_slots (o v : Nat) : (s.setReg o v).slots = s.slots := rfl
@[simp] theorem State.setReg_rtn (o v : Nat) : (s.setReg o v).rtn = s.rtn := rfl
@[simp] theorem State.setReg_hm (o v : Nat) : (s.setReg o v).hm = s.hm := rfl
@[simp] theorem State.setReg_obs (o v : Nat) : (s.setReg o v).obs = s.obs := rfl
@[simp] theorem State.setReg_boot (o v : Nat) : (s.setReg o v).boot = s.boot := rfl
@[simp] theorem State.setReg_hi (o v : Nat) : (s.setReg o v).hi = s.hi := rfl
@[simp] theorem State.setReg_cu (o v : Nat) : (s.setReg o v).cu = s.cu := rfl
@[simp] theorem State.setReg_mem (o v : Nat) : (s.setReg o v).mem = s.mem := rfl
@[simp] theorem State.setReg_host (o v : Nat) : (s.setReg o v).host = s.host := rfl
@[simp] theorem State.setReg_irq (o v : Nat) : (s.setReg o v).irq = s.irq := rfl
@[simp] theorem State.setReg_free (o v : Nat) : (s.setReg o v).free = s.free := rfl
@[simp] theorem State.setReg_pending (o v : Nat) : (s.setReg o v).pending = s.pending := rfl

@[simp] theorem State.setReg_at_isl (o v : Nat) (x : Nat) : (s.setReg o v).isl x = s.isl x := rfl
@[simp] theorem State.setReg_at_islOn (o v : Nat) (x : Nat) : (s.setReg o v).islOn x = s.islOn x := rfl
@[simp] theorem State.setReg_at_esOf (o v : Nat) (x : Nat) : (s.setReg o v).esOf x = s.esOf x := rfl
@[simp] theorem State.setReg_at_dlOf (o v : Nat) (x : Nat) : (s.setReg o v).dlOf x = s.dlOf x := rfl
@[simp] theorem State.setReg_at_fenced (o v : Nat) (x : Agent) : (s.setReg o v).fenced x = s.fenced x := rfl
@[simp] theorem State.setReg_at_halted (o v : Nat) (x : StopUnit) : (s.setReg o v).halted x = s.halted x := rfl
@[simp] theorem State.setReg_at_now (o v : Nat) : (s.setReg o v).now = s.now := rfl
@[simp] theorem State.setReg_at_wordErr (o v : Nat) (x : Nat) : (s.setReg o v).wordErr x = s.wordErr x := rfl

@[simp] theorem State.setRegB_clk (o hi lo v : Nat) : (s.setRegB o hi lo v).clk = s.clk := rfl
@[simp] theorem State.setRegB_ring (o hi lo v : Nat) : (s.setRegB o hi lo v).ring = s.ring := rfl
@[simp] theorem State.setRegB_es (o hi lo v : Nat) : (s.setRegB o hi lo v).es = s.es := rfl
@[simp] theorem State.setRegB_dl (o hi lo v : Nat) : (s.setRegB o hi lo v).dl = s.dl := rfl
@[simp] theorem State.setRegB_bk (o hi lo v : Nat) : (s.setRegB o hi lo v).bk = s.bk := rfl
@[simp] theorem State.setRegB_pw (o hi lo v : Nat) : (s.setRegB o hi lo v).pw = s.pw := rfl
@[simp] theorem State.setRegB_td (o hi lo v : Nat) : (s.setRegB o hi lo v).td = s.td := rfl
@[simp] theorem State.setRegB_det (o hi lo v : Nat) : (s.setRegB o hi lo v).det = s.det := rfl
@[simp] theorem State.setRegB_cfg (o hi lo v : Nat) : (s.setRegB o hi lo v).cfg = s.cfg := rfl
@[simp] theorem State.setRegB_sh (o hi lo v : Nat) : (s.setRegB o hi lo v).sh = s.sh := rfl
@[simp] theorem State.setRegB_tt (o hi lo v : Nat) : (s.setRegB o hi lo v).tt = s.tt := rfl
@[simp] theorem State.setRegB_fh (o hi lo v : Nat) : (s.setRegB o hi lo v).fh = s.fh := rfl
@[simp] theorem State.setRegB_ds (o hi lo v : Nat) : (s.setRegB o hi lo v).ds = s.ds := rfl
@[simp] theorem State.setRegB_zl (o hi lo v : Nat) : (s.setRegB o hi lo v).zl = s.zl := rfl
@[simp] theorem State.setRegB_eg (o hi lo v : Nat) : (s.setRegB o hi lo v).eg = s.eg := rfl
@[simp] theorem State.setRegB_slots (o hi lo v : Nat) : (s.setRegB o hi lo v).slots = s.slots := rfl
@[simp] theorem State.setRegB_rtn (o hi lo v : Nat) : (s.setRegB o hi lo v).rtn = s.rtn := rfl
@[simp] theorem State.setRegB_hm (o hi lo v : Nat) : (s.setRegB o hi lo v).hm = s.hm := rfl
@[simp] theorem State.setRegB_obs (o hi lo v : Nat) : (s.setRegB o hi lo v).obs = s.obs := rfl
@[simp] theorem State.setRegB_boot (o hi lo v : Nat) : (s.setRegB o hi lo v).boot = s.boot := rfl
@[simp] theorem State.setRegB_hi (o hi lo v : Nat) : (s.setRegB o hi lo v).hi = s.hi := rfl
@[simp] theorem State.setRegB_cu (o hi lo v : Nat) : (s.setRegB o hi lo v).cu = s.cu := rfl
@[simp] theorem State.setRegB_mem (o hi lo v : Nat) : (s.setRegB o hi lo v).mem = s.mem := rfl
@[simp] theorem State.setRegB_host (o hi lo v : Nat) : (s.setRegB o hi lo v).host = s.host := rfl
@[simp] theorem State.setRegB_irq (o hi lo v : Nat) : (s.setRegB o hi lo v).irq = s.irq := rfl
@[simp] theorem State.setRegB_free (o hi lo v : Nat) : (s.setRegB o hi lo v).free = s.free := rfl
@[simp] theorem State.setRegB_pending (o hi lo v : Nat) : (s.setRegB o hi lo v).pending = s.pending := rfl

@[simp] theorem State.setRegB_at_isl (o hi lo v : Nat) (x : Nat) : (s.setRegB o hi lo v).isl x = s.isl x := rfl
@[simp] theorem State.setRegB_at_islOn (o hi lo v : Nat) (x : Nat) : (s.setRegB o hi lo v).islOn x = s.islOn x := rfl
@[simp] theorem State.setRegB_at_esOf (o hi lo v : Nat) (x : Nat) : (s.setRegB o hi lo v).esOf x = s.esOf x := rfl
@[simp] theorem State.setRegB_at_dlOf (o hi lo v : Nat) (x : Nat) : (s.setRegB o hi lo v).dlOf x = s.dlOf x := rfl
@[simp] theorem State.setRegB_at_fenced (o hi lo v : Nat) (x : Agent) : (s.setRegB o hi lo v).fenced x = s.fenced x := rfl
@[simp] theorem State.setRegB_at_halted (o hi lo v : Nat) (x : StopUnit) : (s.setRegB o hi lo v).halted x = s.halted x := rfl
@[simp] theorem State.setRegB_at_now (o hi lo v : Nat) : (s.setRegB o hi lo v).now = s.now := rfl
@[simp] theorem State.setRegB_at_wordErr (o hi lo v : Nat) (x : Nat) : (s.setRegB o hi lo v).wordErr x = s.wordErr x := rfl

@[simp] theorem State.count_clk (o n : Nat) : (s.count o n).clk = s.clk := rfl
@[simp] theorem State.count_ring (o n : Nat) : (s.count o n).ring = s.ring := rfl
@[simp] theorem State.count_es (o n : Nat) : (s.count o n).es = s.es := rfl
@[simp] theorem State.count_dl (o n : Nat) : (s.count o n).dl = s.dl := rfl
@[simp] theorem State.count_bk (o n : Nat) : (s.count o n).bk = s.bk := rfl
@[simp] theorem State.count_pw (o n : Nat) : (s.count o n).pw = s.pw := rfl
@[simp] theorem State.count_td (o n : Nat) : (s.count o n).td = s.td := rfl
@[simp] theorem State.count_det (o n : Nat) : (s.count o n).det = s.det := rfl
@[simp] theorem State.count_cfg (o n : Nat) : (s.count o n).cfg = s.cfg := rfl
@[simp] theorem State.count_sh (o n : Nat) : (s.count o n).sh = s.sh := rfl
@[simp] theorem State.count_tt (o n : Nat) : (s.count o n).tt = s.tt := rfl
@[simp] theorem State.count_fh (o n : Nat) : (s.count o n).fh = s.fh := rfl
@[simp] theorem State.count_ds (o n : Nat) : (s.count o n).ds = s.ds := rfl
@[simp] theorem State.count_zl (o n : Nat) : (s.count o n).zl = s.zl := rfl
@[simp] theorem State.count_eg (o n : Nat) : (s.count o n).eg = s.eg := rfl
@[simp] theorem State.count_slots (o n : Nat) : (s.count o n).slots = s.slots := rfl
@[simp] theorem State.count_rtn (o n : Nat) : (s.count o n).rtn = s.rtn := rfl
@[simp] theorem State.count_hm (o n : Nat) : (s.count o n).hm = s.hm := rfl
@[simp] theorem State.count_obs (o n : Nat) : (s.count o n).obs = s.obs := rfl
@[simp] theorem State.count_boot (o n : Nat) : (s.count o n).boot = s.boot := rfl
@[simp] theorem State.count_hi (o n : Nat) : (s.count o n).hi = s.hi := rfl
@[simp] theorem State.count_cu (o n : Nat) : (s.count o n).cu = s.cu := rfl
@[simp] theorem State.count_mem (o n : Nat) : (s.count o n).mem = s.mem := rfl
@[simp] theorem State.count_host (o n : Nat) : (s.count o n).host = s.host := rfl
@[simp] theorem State.count_irq (o n : Nat) : (s.count o n).irq = s.irq := rfl
@[simp] theorem State.count_free (o n : Nat) : (s.count o n).free = s.free := rfl
@[simp] theorem State.count_pending (o n : Nat) : (s.count o n).pending = s.pending := rfl

@[simp] theorem State.count_at_isl (o n : Nat) (x : Nat) : (s.count o n).isl x = s.isl x := rfl
@[simp] theorem State.count_at_islOn (o n : Nat) (x : Nat) : (s.count o n).islOn x = s.islOn x := rfl
@[simp] theorem State.count_at_esOf (o n : Nat) (x : Nat) : (s.count o n).esOf x = s.esOf x := rfl
@[simp] theorem State.count_at_dlOf (o n : Nat) (x : Nat) : (s.count o n).dlOf x = s.dlOf x := rfl
@[simp] theorem State.count_at_fenced (o n : Nat) (x : Agent) : (s.count o n).fenced x = s.fenced x := rfl
@[simp] theorem State.count_at_halted (o n : Nat) (x : StopUnit) : (s.count o n).halted x = s.halted x := rfl
@[simp] theorem State.count_at_now (o n : Nat) : (s.count o n).now = s.now := rfl
@[simp] theorem State.count_at_wordErr (o n : Nat) (x : Nat) : (s.count o n).wordErr x = s.wordErr x := rfl

@[simp] theorem State.drew_clk (n : Nat) : (s.drew n).clk = s.clk := rfl
@[simp] theorem State.drew_ring (n : Nat) : (s.drew n).ring = s.ring := rfl
@[simp] theorem State.drew_es (n : Nat) : (s.drew n).es = s.es := rfl
@[simp] theorem State.drew_dl (n : Nat) : (s.drew n).dl = s.dl := rfl
@[simp] theorem State.drew_bk (n : Nat) : (s.drew n).bk = s.bk := rfl
@[simp] theorem State.drew_pw (n : Nat) : (s.drew n).pw = s.pw := rfl
@[simp] theorem State.drew_td (n : Nat) : (s.drew n).td = s.td := rfl
@[simp] theorem State.drew_det (n : Nat) : (s.drew n).det = s.det := rfl
@[simp] theorem State.drew_cfg (n : Nat) : (s.drew n).cfg = s.cfg := rfl
@[simp] theorem State.drew_sh (n : Nat) : (s.drew n).sh = s.sh := rfl
@[simp] theorem State.drew_tt (n : Nat) : (s.drew n).tt = s.tt := rfl
@[simp] theorem State.drew_fh (n : Nat) : (s.drew n).fh = s.fh := rfl
@[simp] theorem State.drew_ds (n : Nat) : (s.drew n).ds = s.ds := rfl
@[simp] theorem State.drew_zl (n : Nat) : (s.drew n).zl = s.zl := rfl
@[simp] theorem State.drew_eg (n : Nat) : (s.drew n).eg = s.eg := rfl
@[simp] theorem State.drew_slots (n : Nat) : (s.drew n).slots = s.slots := rfl
@[simp] theorem State.drew_rtn (n : Nat) : (s.drew n).rtn = s.rtn := rfl
@[simp] theorem State.drew_hm (n : Nat) : (s.drew n).hm = s.hm := rfl
@[simp] theorem State.drew_obs (n : Nat) : (s.drew n).obs = s.obs := rfl
@[simp] theorem State.drew_boot (n : Nat) : (s.drew n).boot = s.boot := rfl
@[simp] theorem State.drew_hi (n : Nat) : (s.drew n).hi = s.hi := rfl
@[simp] theorem State.drew_cu (n : Nat) : (s.drew n).cu = s.cu := rfl
@[simp] theorem State.drew_regs (n : Nat) : (s.drew n).regs = s.regs := rfl
@[simp] theorem State.drew_mem (n : Nat) : (s.drew n).mem = s.mem := rfl
@[simp] theorem State.drew_host (n : Nat) : (s.drew n).host = s.host := rfl
@[simp] theorem State.drew_irq (n : Nat) : (s.drew n).irq = s.irq := rfl
@[simp] theorem State.drew_pending (n : Nat) : (s.drew n).pending = s.pending := rfl

@[simp] theorem State.drew_at_reg (n : Nat) (x : Nat) : (s.drew n).reg x = s.reg x := rfl
@[simp] theorem State.drew_at_regN (n : Nat) (x : Nat) : (s.drew n).regN x = s.regN x := rfl
@[simp] theorem State.drew_at_isl (n : Nat) (x : Nat) : (s.drew n).isl x = s.isl x := rfl
@[simp] theorem State.drew_at_islOn (n : Nat) (x : Nat) : (s.drew n).islOn x = s.islOn x := rfl
@[simp] theorem State.drew_at_esOf (n : Nat) (x : Nat) : (s.drew n).esOf x = s.esOf x := rfl
@[simp] theorem State.drew_at_dlOf (n : Nat) (x : Nat) : (s.drew n).dlOf x = s.dlOf x := rfl
@[simp] theorem State.drew_at_fenced (n : Nat) (x : Agent) : (s.drew n).fenced x = s.fenced x := rfl
@[simp] theorem State.drew_at_halted (n : Nat) (x : StopUnit) : (s.drew n).halted x = s.halted x := rfl
@[simp] theorem State.drew_at_now (n : Nat) : (s.drew n).now = s.now := rfl
@[simp] theorem State.drew_at_key (n : Nat) (x : Nat) : (s.drew n).key x = s.key x := rfl
@[simp] theorem State.drew_at_wordErr (n : Nat) (x : Nat) : (s.drew n).wordErr x = s.wordErr x := rfl

@[simp] theorem State.modIsl_clk (i : Nat) (f : Island → Island) : (s.modIsl i f).clk = s.clk := rfl
@[simp] theorem State.modIsl_ring (i : Nat) (f : Island → Island) : (s.modIsl i f).ring = s.ring := rfl
@[simp] theorem State.modIsl_es (i : Nat) (f : Island → Island) : (s.modIsl i f).es = s.es := rfl
@[simp] theorem State.modIsl_dl (i : Nat) (f : Island → Island) : (s.modIsl i f).dl = s.dl := rfl
@[simp] theorem State.modIsl_bk (i : Nat) (f : Island → Island) : (s.modIsl i f).bk = s.bk := rfl
@[simp] theorem State.modIsl_td (i : Nat) (f : Island → Island) : (s.modIsl i f).td = s.td := rfl
@[simp] theorem State.modIsl_det (i : Nat) (f : Island → Island) : (s.modIsl i f).det = s.det := rfl
@[simp] theorem State.modIsl_cfg (i : Nat) (f : Island → Island) : (s.modIsl i f).cfg = s.cfg := rfl
@[simp] theorem State.modIsl_sh (i : Nat) (f : Island → Island) : (s.modIsl i f).sh = s.sh := rfl
@[simp] theorem State.modIsl_tt (i : Nat) (f : Island → Island) : (s.modIsl i f).tt = s.tt := rfl
@[simp] theorem State.modIsl_fh (i : Nat) (f : Island → Island) : (s.modIsl i f).fh = s.fh := rfl
@[simp] theorem State.modIsl_ds (i : Nat) (f : Island → Island) : (s.modIsl i f).ds = s.ds := rfl
@[simp] theorem State.modIsl_zl (i : Nat) (f : Island → Island) : (s.modIsl i f).zl = s.zl := rfl
@[simp] theorem State.modIsl_eg (i : Nat) (f : Island → Island) : (s.modIsl i f).eg = s.eg := rfl
@[simp] theorem State.modIsl_slots (i : Nat) (f : Island → Island) : (s.modIsl i f).slots = s.slots := rfl
@[simp] theorem State.modIsl_rtn (i : Nat) (f : Island → Island) : (s.modIsl i f).rtn = s.rtn := rfl
@[simp] theorem State.modIsl_hm (i : Nat) (f : Island → Island) : (s.modIsl i f).hm = s.hm := rfl
@[simp] theorem State.modIsl_obs (i : Nat) (f : Island → Island) : (s.modIsl i f).obs = s.obs := rfl
@[simp] theorem State.modIsl_boot (i : Nat) (f : Island → Island) : (s.modIsl i f).boot = s.boot := rfl
@[simp] theorem State.modIsl_hi (i : Nat) (f : Island → Island) : (s.modIsl i f).hi = s.hi := rfl
@[simp] theorem State.modIsl_cu (i : Nat) (f : Island → Island) : (s.modIsl i f).cu = s.cu := rfl
@[simp] theorem State.modIsl_regs (i : Nat) (f : Island → Island) : (s.modIsl i f).regs = s.regs := rfl
@[simp] theorem State.modIsl_mem (i : Nat) (f : Island → Island) : (s.modIsl i f).mem = s.mem := rfl
@[simp] theorem State.modIsl_host (i : Nat) (f : Island → Island) : (s.modIsl i f).host = s.host := rfl
@[simp] theorem State.modIsl_irq (i : Nat) (f : Island → Island) : (s.modIsl i f).irq = s.irq := rfl
@[simp] theorem State.modIsl_free (i : Nat) (f : Island → Island) : (s.modIsl i f).free = s.free := rfl
@[simp] theorem State.modIsl_pending (i : Nat) (f : Island → Island) : (s.modIsl i f).pending = s.pending := rfl

@[simp] theorem State.modIsl_at_reg (i : Nat) (f : Island → Island) (x : Nat) : (s.modIsl i f).reg x = s.reg x := rfl
@[simp] theorem State.modIsl_at_regN (i : Nat) (f : Island → Island) (x : Nat) : (s.modIsl i f).regN x = s.regN x := rfl
@[simp] theorem State.modIsl_at_esOf (i : Nat) (f : Island → Island) (x : Nat) : (s.modIsl i f).esOf x = s.esOf x := rfl
@[simp] theorem State.modIsl_at_dlOf (i : Nat) (f : Island → Island) (x : Nat) : (s.modIsl i f).dlOf x = s.dlOf x := rfl
@[simp] theorem State.modIsl_at_fenced (i : Nat) (f : Island → Island) (x : Agent) : (s.modIsl i f).fenced x = s.fenced x := rfl
@[simp] theorem State.modIsl_at_halted (i : Nat) (f : Island → Island) (x : StopUnit) : (s.modIsl i f).halted x = s.halted x := rfl
@[simp] theorem State.modIsl_at_now (i : Nat) (f : Island → Island) : (s.modIsl i f).now = s.now := rfl
@[simp] theorem State.modIsl_at_key (i : Nat) (f : Island → Island) (x : Nat) : (s.modIsl i f).key x = s.key x := rfl
@[simp] theorem State.modIsl_at_wordErr (i : Nat) (f : Island → Island) (x : Nat) : (s.modIsl i f).wordErr x = s.wordErr x := rfl

@[simp] theorem State.irqTo_clk (core : Nat) (src : IrqSrc) : (s.irqTo core src).clk = s.clk := rfl
@[simp] theorem State.irqTo_ring (core : Nat) (src : IrqSrc) : (s.irqTo core src).ring = s.ring := rfl
@[simp] theorem State.irqTo_es (core : Nat) (src : IrqSrc) : (s.irqTo core src).es = s.es := rfl
@[simp] theorem State.irqTo_dl (core : Nat) (src : IrqSrc) : (s.irqTo core src).dl = s.dl := rfl
@[simp] theorem State.irqTo_bk (core : Nat) (src : IrqSrc) : (s.irqTo core src).bk = s.bk := rfl
@[simp] theorem State.irqTo_pw (core : Nat) (src : IrqSrc) : (s.irqTo core src).pw = s.pw := rfl
@[simp] theorem State.irqTo_td (core : Nat) (src : IrqSrc) : (s.irqTo core src).td = s.td := rfl
@[simp] theorem State.irqTo_det (core : Nat) (src : IrqSrc) : (s.irqTo core src).det = s.det := rfl
@[simp] theorem State.irqTo_cfg (core : Nat) (src : IrqSrc) : (s.irqTo core src).cfg = s.cfg := rfl
@[simp] theorem State.irqTo_sh (core : Nat) (src : IrqSrc) : (s.irqTo core src).sh = s.sh := rfl
@[simp] theorem State.irqTo_tt (core : Nat) (src : IrqSrc) : (s.irqTo core src).tt = s.tt := rfl
@[simp] theorem State.irqTo_fh (core : Nat) (src : IrqSrc) : (s.irqTo core src).fh = s.fh := rfl
@[simp] theorem State.irqTo_ds (core : Nat) (src : IrqSrc) : (s.irqTo core src).ds = s.ds := rfl
@[simp] theorem State.irqTo_zl (core : Nat) (src : IrqSrc) : (s.irqTo core src).zl = s.zl := rfl
@[simp] theorem State.irqTo_eg (core : Nat) (src : IrqSrc) : (s.irqTo core src).eg = s.eg := rfl
@[simp] theorem State.irqTo_slots (core : Nat) (src : IrqSrc) : (s.irqTo core src).slots = s.slots := rfl
@[simp] theorem State.irqTo_rtn (core : Nat) (src : IrqSrc) : (s.irqTo core src).rtn = s.rtn := rfl
@[simp] theorem State.irqTo_hm (core : Nat) (src : IrqSrc) : (s.irqTo core src).hm = s.hm := rfl
@[simp] theorem State.irqTo_obs (core : Nat) (src : IrqSrc) : (s.irqTo core src).obs = s.obs := rfl
@[simp] theorem State.irqTo_boot (core : Nat) (src : IrqSrc) : (s.irqTo core src).boot = s.boot := rfl
@[simp] theorem State.irqTo_hi (core : Nat) (src : IrqSrc) : (s.irqTo core src).hi = s.hi := rfl
@[simp] theorem State.irqTo_cu (core : Nat) (src : IrqSrc) : (s.irqTo core src).cu = s.cu := rfl
@[simp] theorem State.irqTo_regs (core : Nat) (src : IrqSrc) : (s.irqTo core src).regs = s.regs := rfl
@[simp] theorem State.irqTo_mem (core : Nat) (src : IrqSrc) : (s.irqTo core src).mem = s.mem := rfl
@[simp] theorem State.irqTo_host (core : Nat) (src : IrqSrc) : (s.irqTo core src).host = s.host := rfl
@[simp] theorem State.irqTo_free (core : Nat) (src : IrqSrc) : (s.irqTo core src).free = s.free := rfl
@[simp] theorem State.irqTo_pending (core : Nat) (src : IrqSrc) : (s.irqTo core src).pending = s.pending := rfl

@[simp] theorem State.irqTo_at_reg (core : Nat) (src : IrqSrc) (x : Nat) : (s.irqTo core src).reg x = s.reg x := rfl
@[simp] theorem State.irqTo_at_regN (core : Nat) (src : IrqSrc) (x : Nat) : (s.irqTo core src).regN x = s.regN x := rfl
@[simp] theorem State.irqTo_at_isl (core : Nat) (src : IrqSrc) (x : Nat) : (s.irqTo core src).isl x = s.isl x := rfl
@[simp] theorem State.irqTo_at_islOn (core : Nat) (src : IrqSrc) (x : Nat) : (s.irqTo core src).islOn x = s.islOn x := rfl
@[simp] theorem State.irqTo_at_esOf (core : Nat) (src : IrqSrc) (x : Nat) : (s.irqTo core src).esOf x = s.esOf x := rfl
@[simp] theorem State.irqTo_at_dlOf (core : Nat) (src : IrqSrc) (x : Nat) : (s.irqTo core src).dlOf x = s.dlOf x := rfl
@[simp] theorem State.irqTo_at_fenced (core : Nat) (src : IrqSrc) (x : Agent) : (s.irqTo core src).fenced x = s.fenced x := rfl
@[simp] theorem State.irqTo_at_halted (core : Nat) (src : IrqSrc) (x : StopUnit) : (s.irqTo core src).halted x = s.halted x := rfl
@[simp] theorem State.irqTo_at_now (core : Nat) (src : IrqSrc) : (s.irqTo core src).now = s.now := rfl
@[simp] theorem State.irqTo_at_key (core : Nat) (src : IrqSrc) (x : Nat) : (s.irqTo core src).key x = s.key x := rfl
@[simp] theorem State.irqTo_at_wordErr (core : Nat) (src : IrqSrc) (x : Nat) : (s.irqTo core src).wordErr x = s.wordErr x := rfl

@[simp] theorem State.fnCount_clk (f : Nat) (c : FnCount) (n : Nat) : (s.fnCount f c n).clk = s.clk := rfl
@[simp] theorem State.fnCount_ring (f : Nat) (c : FnCount) (n : Nat) : (s.fnCount f c n).ring = s.ring := rfl
@[simp] theorem State.fnCount_es (f : Nat) (c : FnCount) (n : Nat) : (s.fnCount f c n).es = s.es := rfl
@[simp] theorem State.fnCount_dl (f : Nat) (c : FnCount) (n : Nat) : (s.fnCount f c n).dl = s.dl := rfl
@[simp] theorem State.fnCount_bk (f : Nat) (c : FnCount) (n : Nat) : (s.fnCount f c n).bk = s.bk := rfl
@[simp] theorem State.fnCount_pw (f : Nat) (c : FnCount) (n : Nat) : (s.fnCount f c n).pw = s.pw := rfl
@[simp] theorem State.fnCount_td (f : Nat) (c : FnCount) (n : Nat) : (s.fnCount f c n).td = s.td := rfl
@[simp] theorem State.fnCount_det (f : Nat) (c : FnCount) (n : Nat) : (s.fnCount f c n).det = s.det := rfl
@[simp] theorem State.fnCount_cfg (f : Nat) (c : FnCount) (n : Nat) : (s.fnCount f c n).cfg = s.cfg := rfl
@[simp] theorem State.fnCount_sh (f : Nat) (c : FnCount) (n : Nat) : (s.fnCount f c n).sh = s.sh := rfl
@[simp] theorem State.fnCount_tt (f : Nat) (c : FnCount) (n : Nat) : (s.fnCount f c n).tt = s.tt := rfl
@[simp] theorem State.fnCount_fh (f : Nat) (c : FnCount) (n : Nat) : (s.fnCount f c n).fh = s.fh := rfl
@[simp] theorem State.fnCount_ds (f : Nat) (c : FnCount) (n : Nat) : (s.fnCount f c n).ds = s.ds := rfl
@[simp] theorem State.fnCount_zl (f : Nat) (c : FnCount) (n : Nat) : (s.fnCount f c n).zl = s.zl := rfl
@[simp] theorem State.fnCount_eg (f : Nat) (c : FnCount) (n : Nat) : (s.fnCount f c n).eg = s.eg := rfl
@[simp] theorem State.fnCount_slots (f : Nat) (c : FnCount) (n : Nat) : (s.fnCount f c n).slots = s.slots := rfl
@[simp] theorem State.fnCount_rtn (f : Nat) (c : FnCount) (n : Nat) : (s.fnCount f c n).rtn = s.rtn := rfl
@[simp] theorem State.fnCount_hm (f : Nat) (c : FnCount) (n : Nat) : (s.fnCount f c n).hm = s.hm := rfl
@[simp] theorem State.fnCount_obs (f : Nat) (c : FnCount) (n : Nat) : (s.fnCount f c n).obs = s.obs := rfl
@[simp] theorem State.fnCount_boot (f : Nat) (c : FnCount) (n : Nat) : (s.fnCount f c n).boot = s.boot := rfl
@[simp] theorem State.fnCount_cu (f : Nat) (c : FnCount) (n : Nat) : (s.fnCount f c n).cu = s.cu := rfl
@[simp] theorem State.fnCount_regs (f : Nat) (c : FnCount) (n : Nat) : (s.fnCount f c n).regs = s.regs := rfl
@[simp] theorem State.fnCount_mem (f : Nat) (c : FnCount) (n : Nat) : (s.fnCount f c n).mem = s.mem := rfl
@[simp] theorem State.fnCount_host (f : Nat) (c : FnCount) (n : Nat) : (s.fnCount f c n).host = s.host := rfl
@[simp] theorem State.fnCount_irq (f : Nat) (c : FnCount) (n : Nat) : (s.fnCount f c n).irq = s.irq := rfl
@[simp] theorem State.fnCount_free (f : Nat) (c : FnCount) (n : Nat) : (s.fnCount f c n).free = s.free := rfl
@[simp] theorem State.fnCount_pending (f : Nat) (c : FnCount) (n : Nat) : (s.fnCount f c n).pending = s.pending := rfl

@[simp] theorem State.fnCount_at_reg (f : Nat) (c : FnCount) (n : Nat) (x : Nat) : (s.fnCount f c n).reg x = s.reg x := rfl
@[simp] theorem State.fnCount_at_regN (f : Nat) (c : FnCount) (n : Nat) (x : Nat) : (s.fnCount f c n).regN x = s.regN x := rfl
@[simp] theorem State.fnCount_at_isl (f : Nat) (c : FnCount) (n : Nat) (x : Nat) : (s.fnCount f c n).isl x = s.isl x := rfl
@[simp] theorem State.fnCount_at_islOn (f : Nat) (c : FnCount) (n : Nat) (x : Nat) : (s.fnCount f c n).islOn x = s.islOn x := rfl
@[simp] theorem State.fnCount_at_esOf (f : Nat) (c : FnCount) (n : Nat) (x : Nat) : (s.fnCount f c n).esOf x = s.esOf x := rfl
@[simp] theorem State.fnCount_at_dlOf (f : Nat) (c : FnCount) (n : Nat) (x : Nat) : (s.fnCount f c n).dlOf x = s.dlOf x := rfl
@[simp] theorem State.fnCount_at_fenced (f : Nat) (c : FnCount) (n : Nat) (x : Agent) : (s.fnCount f c n).fenced x = s.fenced x := rfl
@[simp] theorem State.fnCount_at_halted (f : Nat) (c : FnCount) (n : Nat) (x : StopUnit) : (s.fnCount f c n).halted x = s.halted x := rfl
@[simp] theorem State.fnCount_at_now (f : Nat) (c : FnCount) (n : Nat) : (s.fnCount f c n).now = s.now := rfl
@[simp] theorem State.fnCount_at_key (f : Nat) (c : FnCount) (n : Nat) (x : Nat) : (s.fnCount f c n).key x = s.key x := rfl
@[simp] theorem State.fnCount_at_wordErr (f : Nat) (c : FnCount) (n : Nat) (x : Nat) : (s.fnCount f c n).wordErr x = s.wordErr x := rfl

@[simp] theorem State.setErr_clk (k : Nat) (p : BitVec 72) : (s.setErr k p).clk = s.clk := rfl
@[simp] theorem State.setErr_ring (k : Nat) (p : BitVec 72) : (s.setErr k p).ring = s.ring := rfl
@[simp] theorem State.setErr_es (k : Nat) (p : BitVec 72) : (s.setErr k p).es = s.es := rfl
@[simp] theorem State.setErr_dl (k : Nat) (p : BitVec 72) : (s.setErr k p).dl = s.dl := rfl
@[simp] theorem State.setErr_pw (k : Nat) (p : BitVec 72) : (s.setErr k p).pw = s.pw := rfl
@[simp] theorem State.setErr_td (k : Nat) (p : BitVec 72) : (s.setErr k p).td = s.td := rfl
@[simp] theorem State.setErr_det (k : Nat) (p : BitVec 72) : (s.setErr k p).det = s.det := rfl
@[simp] theorem State.setErr_cfg (k : Nat) (p : BitVec 72) : (s.setErr k p).cfg = s.cfg := rfl
@[simp] theorem State.setErr_sh (k : Nat) (p : BitVec 72) : (s.setErr k p).sh = s.sh := rfl
@[simp] theorem State.setErr_tt (k : Nat) (p : BitVec 72) : (s.setErr k p).tt = s.tt := rfl
@[simp] theorem State.setErr_fh (k : Nat) (p : BitVec 72) : (s.setErr k p).fh = s.fh := rfl
@[simp] theorem State.setErr_ds (k : Nat) (p : BitVec 72) : (s.setErr k p).ds = s.ds := rfl
@[simp] theorem State.setErr_zl (k : Nat) (p : BitVec 72) : (s.setErr k p).zl = s.zl := rfl
@[simp] theorem State.setErr_eg (k : Nat) (p : BitVec 72) : (s.setErr k p).eg = s.eg := rfl
@[simp] theorem State.setErr_slots (k : Nat) (p : BitVec 72) : (s.setErr k p).slots = s.slots := rfl
@[simp] theorem State.setErr_rtn (k : Nat) (p : BitVec 72) : (s.setErr k p).rtn = s.rtn := rfl
@[simp] theorem State.setErr_hm (k : Nat) (p : BitVec 72) : (s.setErr k p).hm = s.hm := rfl
@[simp] theorem State.setErr_obs (k : Nat) (p : BitVec 72) : (s.setErr k p).obs = s.obs := rfl
@[simp] theorem State.setErr_boot (k : Nat) (p : BitVec 72) : (s.setErr k p).boot = s.boot := rfl
@[simp] theorem State.setErr_hi (k : Nat) (p : BitVec 72) : (s.setErr k p).hi = s.hi := rfl
@[simp] theorem State.setErr_cu (k : Nat) (p : BitVec 72) : (s.setErr k p).cu = s.cu := rfl
@[simp] theorem State.setErr_regs (k : Nat) (p : BitVec 72) : (s.setErr k p).regs = s.regs := rfl
@[simp] theorem State.setErr_mem (k : Nat) (p : BitVec 72) : (s.setErr k p).mem = s.mem := rfl
@[simp] theorem State.setErr_host (k : Nat) (p : BitVec 72) : (s.setErr k p).host = s.host := rfl
@[simp] theorem State.setErr_irq (k : Nat) (p : BitVec 72) : (s.setErr k p).irq = s.irq := rfl
@[simp] theorem State.setErr_free (k : Nat) (p : BitVec 72) : (s.setErr k p).free = s.free := rfl
@[simp] theorem State.setErr_pending (k : Nat) (p : BitVec 72) : (s.setErr k p).pending = s.pending := rfl

@[simp] theorem State.setErr_at_reg (k : Nat) (p : BitVec 72) (x : Nat) : (s.setErr k p).reg x = s.reg x := rfl
@[simp] theorem State.setErr_at_regN (k : Nat) (p : BitVec 72) (x : Nat) : (s.setErr k p).regN x = s.regN x := rfl
@[simp] theorem State.setErr_at_isl (k : Nat) (p : BitVec 72) (x : Nat) : (s.setErr k p).isl x = s.isl x := rfl
@[simp] theorem State.setErr_at_islOn (k : Nat) (p : BitVec 72) (x : Nat) : (s.setErr k p).islOn x = s.islOn x := rfl
@[simp] theorem State.setErr_at_esOf (k : Nat) (p : BitVec 72) (x : Nat) : (s.setErr k p).esOf x = s.esOf x := rfl
@[simp] theorem State.setErr_at_dlOf (k : Nat) (p : BitVec 72) (x : Nat) : (s.setErr k p).dlOf x = s.dlOf x := rfl
@[simp] theorem State.setErr_at_fenced (k : Nat) (p : BitVec 72) (x : Agent) : (s.setErr k p).fenced x = s.fenced x := rfl
@[simp] theorem State.setErr_at_halted (k : Nat) (p : BitVec 72) (x : StopUnit) : (s.setErr k p).halted x = s.halted x := rfl
@[simp] theorem State.setErr_at_now (k : Nat) (p : BitVec 72) : (s.setErr k p).now = s.now := rfl
@[simp] theorem State.setErr_at_key (k : Nat) (p : BitVec 72) (x : Nat) : (s.setErr k p).key x = s.key x := rfl

@[simp] theorem State.store_clk (a : Nat) (bs : List Byte) : (s.store a bs).clk = s.clk := rfl
@[simp] theorem State.store_ring (a : Nat) (bs : List Byte) : (s.store a bs).ring = s.ring := rfl
@[simp] theorem State.store_es (a : Nat) (bs : List Byte) : (s.store a bs).es = s.es := rfl
@[simp] theorem State.store_dl (a : Nat) (bs : List Byte) : (s.store a bs).dl = s.dl := rfl
@[simp] theorem State.store_pw (a : Nat) (bs : List Byte) : (s.store a bs).pw = s.pw := rfl
@[simp] theorem State.store_td (a : Nat) (bs : List Byte) : (s.store a bs).td = s.td := rfl
@[simp] theorem State.store_det (a : Nat) (bs : List Byte) : (s.store a bs).det = s.det := rfl
@[simp] theorem State.store_cfg (a : Nat) (bs : List Byte) : (s.store a bs).cfg = s.cfg := rfl
@[simp] theorem State.store_sh (a : Nat) (bs : List Byte) : (s.store a bs).sh = s.sh := rfl
@[simp] theorem State.store_tt (a : Nat) (bs : List Byte) : (s.store a bs).tt = s.tt := rfl
@[simp] theorem State.store_fh (a : Nat) (bs : List Byte) : (s.store a bs).fh = s.fh := rfl
@[simp] theorem State.store_ds (a : Nat) (bs : List Byte) : (s.store a bs).ds = s.ds := rfl
@[simp] theorem State.store_zl (a : Nat) (bs : List Byte) : (s.store a bs).zl = s.zl := rfl
@[simp] theorem State.store_eg (a : Nat) (bs : List Byte) : (s.store a bs).eg = s.eg := rfl
@[simp] theorem State.store_slots (a : Nat) (bs : List Byte) : (s.store a bs).slots = s.slots := rfl
@[simp] theorem State.store_rtn (a : Nat) (bs : List Byte) : (s.store a bs).rtn = s.rtn := rfl
@[simp] theorem State.store_hm (a : Nat) (bs : List Byte) : (s.store a bs).hm = s.hm := rfl
@[simp] theorem State.store_obs (a : Nat) (bs : List Byte) : (s.store a bs).obs = s.obs := rfl
@[simp] theorem State.store_boot (a : Nat) (bs : List Byte) : (s.store a bs).boot = s.boot := rfl
@[simp] theorem State.store_hi (a : Nat) (bs : List Byte) : (s.store a bs).hi = s.hi := rfl
@[simp] theorem State.store_cu (a : Nat) (bs : List Byte) : (s.store a bs).cu = s.cu := rfl
@[simp] theorem State.store_regs (a : Nat) (bs : List Byte) : (s.store a bs).regs = s.regs := rfl
@[simp] theorem State.store_host (a : Nat) (bs : List Byte) : (s.store a bs).host = s.host := rfl
@[simp] theorem State.store_irq (a : Nat) (bs : List Byte) : (s.store a bs).irq = s.irq := rfl
@[simp] theorem State.store_free (a : Nat) (bs : List Byte) : (s.store a bs).free = s.free := rfl
@[simp] theorem State.store_pending (a : Nat) (bs : List Byte) : (s.store a bs).pending = s.pending := rfl

@[simp] theorem State.store_at_reg (a : Nat) (bs : List Byte) (x : Nat) : (s.store a bs).reg x = s.reg x := rfl
@[simp] theorem State.store_at_regN (a : Nat) (bs : List Byte) (x : Nat) : (s.store a bs).regN x = s.regN x := rfl
@[simp] theorem State.store_at_isl (a : Nat) (bs : List Byte) (x : Nat) : (s.store a bs).isl x = s.isl x := rfl
@[simp] theorem State.store_at_islOn (a : Nat) (bs : List Byte) (x : Nat) : (s.store a bs).islOn x = s.islOn x := rfl
@[simp] theorem State.store_at_esOf (a : Nat) (bs : List Byte) (x : Nat) : (s.store a bs).esOf x = s.esOf x := rfl
@[simp] theorem State.store_at_dlOf (a : Nat) (bs : List Byte) (x : Nat) : (s.store a bs).dlOf x = s.dlOf x := rfl
@[simp] theorem State.store_at_fenced (a : Nat) (bs : List Byte) (x : Agent) : (s.store a bs).fenced x = s.fenced x := rfl
@[simp] theorem State.store_at_halted (a : Nat) (bs : List Byte) (x : StopUnit) : (s.store a bs).halted x = s.halted x := rfl
@[simp] theorem State.store_at_now (a : Nat) (bs : List Byte) : (s.store a bs).now = s.now := rfl
@[simp] theorem State.store_at_key (a : Nat) (bs : List Byte) (x : Nat) : (s.store a bs).key x = s.key x := rfl

@[simp] theorem State.storeNat_clk (a n w : Nat) : (s.storeNat a n w).clk = s.clk := rfl
@[simp] theorem State.storeNat_ring (a n w : Nat) : (s.storeNat a n w).ring = s.ring := rfl
@[simp] theorem State.storeNat_es (a n w : Nat) : (s.storeNat a n w).es = s.es := rfl
@[simp] theorem State.storeNat_dl (a n w : Nat) : (s.storeNat a n w).dl = s.dl := rfl
@[simp] theorem State.storeNat_pw (a n w : Nat) : (s.storeNat a n w).pw = s.pw := rfl
@[simp] theorem State.storeNat_td (a n w : Nat) : (s.storeNat a n w).td = s.td := rfl
@[simp] theorem State.storeNat_det (a n w : Nat) : (s.storeNat a n w).det = s.det := rfl
@[simp] theorem State.storeNat_cfg (a n w : Nat) : (s.storeNat a n w).cfg = s.cfg := rfl
@[simp] theorem State.storeNat_sh (a n w : Nat) : (s.storeNat a n w).sh = s.sh := rfl
@[simp] theorem State.storeNat_tt (a n w : Nat) : (s.storeNat a n w).tt = s.tt := rfl
@[simp] theorem State.storeNat_fh (a n w : Nat) : (s.storeNat a n w).fh = s.fh := rfl
@[simp] theorem State.storeNat_ds (a n w : Nat) : (s.storeNat a n w).ds = s.ds := rfl
@[simp] theorem State.storeNat_zl (a n w : Nat) : (s.storeNat a n w).zl = s.zl := rfl
@[simp] theorem State.storeNat_eg (a n w : Nat) : (s.storeNat a n w).eg = s.eg := rfl
@[simp] theorem State.storeNat_slots (a n w : Nat) : (s.storeNat a n w).slots = s.slots := rfl
@[simp] theorem State.storeNat_rtn (a n w : Nat) : (s.storeNat a n w).rtn = s.rtn := rfl
@[simp] theorem State.storeNat_hm (a n w : Nat) : (s.storeNat a n w).hm = s.hm := rfl
@[simp] theorem State.storeNat_obs (a n w : Nat) : (s.storeNat a n w).obs = s.obs := rfl
@[simp] theorem State.storeNat_boot (a n w : Nat) : (s.storeNat a n w).boot = s.boot := rfl
@[simp] theorem State.storeNat_hi (a n w : Nat) : (s.storeNat a n w).hi = s.hi := rfl
@[simp] theorem State.storeNat_cu (a n w : Nat) : (s.storeNat a n w).cu = s.cu := rfl
@[simp] theorem State.storeNat_regs (a n w : Nat) : (s.storeNat a n w).regs = s.regs := rfl
@[simp] theorem State.storeNat_host (a n w : Nat) : (s.storeNat a n w).host = s.host := rfl
@[simp] theorem State.storeNat_irq (a n w : Nat) : (s.storeNat a n w).irq = s.irq := rfl
@[simp] theorem State.storeNat_free (a n w : Nat) : (s.storeNat a n w).free = s.free := rfl
@[simp] theorem State.storeNat_pending (a n w : Nat) : (s.storeNat a n w).pending = s.pending := rfl

@[simp] theorem State.storeNat_at_reg (a n w : Nat) (x : Nat) : (s.storeNat a n w).reg x = s.reg x := rfl
@[simp] theorem State.storeNat_at_regN (a n w : Nat) (x : Nat) : (s.storeNat a n w).regN x = s.regN x := rfl
@[simp] theorem State.storeNat_at_isl (a n w : Nat) (x : Nat) : (s.storeNat a n w).isl x = s.isl x := rfl
@[simp] theorem State.storeNat_at_islOn (a n w : Nat) (x : Nat) : (s.storeNat a n w).islOn x = s.islOn x := rfl
@[simp] theorem State.storeNat_at_esOf (a n w : Nat) (x : Nat) : (s.storeNat a n w).esOf x = s.esOf x := rfl
@[simp] theorem State.storeNat_at_dlOf (a n w : Nat) (x : Nat) : (s.storeNat a n w).dlOf x = s.dlOf x := rfl
@[simp] theorem State.storeNat_at_fenced (a n w : Nat) (x : Agent) : (s.storeNat a n w).fenced x = s.fenced x := rfl
@[simp] theorem State.storeNat_at_halted (a n w : Nat) (x : StopUnit) : (s.storeNat a n w).halted x = s.halted x := rfl
@[simp] theorem State.storeNat_at_now (a n w : Nat) : (s.storeNat a n w).now = s.now := rfl
@[simp] theorem State.storeNat_at_key (a n w : Nat) (x : Nat) : (s.storeNat a n w).key x = s.key x := rfl

@[simp] theorem State.clearMem_clk (p : Nat → Bool) : (s.clearMem p).clk = s.clk := rfl
@[simp] theorem State.clearMem_ring (p : Nat → Bool) : (s.clearMem p).ring = s.ring := rfl
@[simp] theorem State.clearMem_es (p : Nat → Bool) : (s.clearMem p).es = s.es := rfl
@[simp] theorem State.clearMem_dl (p : Nat → Bool) : (s.clearMem p).dl = s.dl := rfl
@[simp] theorem State.clearMem_pw (p : Nat → Bool) : (s.clearMem p).pw = s.pw := rfl
@[simp] theorem State.clearMem_td (p : Nat → Bool) : (s.clearMem p).td = s.td := rfl
@[simp] theorem State.clearMem_det (p : Nat → Bool) : (s.clearMem p).det = s.det := rfl
@[simp] theorem State.clearMem_cfg (p : Nat → Bool) : (s.clearMem p).cfg = s.cfg := rfl
@[simp] theorem State.clearMem_sh (p : Nat → Bool) : (s.clearMem p).sh = s.sh := rfl
@[simp] theorem State.clearMem_tt (p : Nat → Bool) : (s.clearMem p).tt = s.tt := rfl
@[simp] theorem State.clearMem_fh (p : Nat → Bool) : (s.clearMem p).fh = s.fh := rfl
@[simp] theorem State.clearMem_ds (p : Nat → Bool) : (s.clearMem p).ds = s.ds := rfl
@[simp] theorem State.clearMem_zl (p : Nat → Bool) : (s.clearMem p).zl = s.zl := rfl
@[simp] theorem State.clearMem_eg (p : Nat → Bool) : (s.clearMem p).eg = s.eg := rfl
@[simp] theorem State.clearMem_slots (p : Nat → Bool) : (s.clearMem p).slots = s.slots := rfl
@[simp] theorem State.clearMem_rtn (p : Nat → Bool) : (s.clearMem p).rtn = s.rtn := rfl
@[simp] theorem State.clearMem_hm (p : Nat → Bool) : (s.clearMem p).hm = s.hm := rfl
@[simp] theorem State.clearMem_obs (p : Nat → Bool) : (s.clearMem p).obs = s.obs := rfl
@[simp] theorem State.clearMem_boot (p : Nat → Bool) : (s.clearMem p).boot = s.boot := rfl
@[simp] theorem State.clearMem_hi (p : Nat → Bool) : (s.clearMem p).hi = s.hi := rfl
@[simp] theorem State.clearMem_cu (p : Nat → Bool) : (s.clearMem p).cu = s.cu := rfl
@[simp] theorem State.clearMem_regs (p : Nat → Bool) : (s.clearMem p).regs = s.regs := rfl
@[simp] theorem State.clearMem_host (p : Nat → Bool) : (s.clearMem p).host = s.host := rfl
@[simp] theorem State.clearMem_irq (p : Nat → Bool) : (s.clearMem p).irq = s.irq := rfl
@[simp] theorem State.clearMem_free (p : Nat → Bool) : (s.clearMem p).free = s.free := rfl
@[simp] theorem State.clearMem_pending (p : Nat → Bool) : (s.clearMem p).pending = s.pending := rfl

@[simp] theorem State.clearMem_at_reg (p : Nat → Bool) (x : Nat) : (s.clearMem p).reg x = s.reg x := rfl
@[simp] theorem State.clearMem_at_regN (p : Nat → Bool) (x : Nat) : (s.clearMem p).regN x = s.regN x := rfl
@[simp] theorem State.clearMem_at_isl (p : Nat → Bool) (x : Nat) : (s.clearMem p).isl x = s.isl x := rfl
@[simp] theorem State.clearMem_at_islOn (p : Nat → Bool) (x : Nat) : (s.clearMem p).islOn x = s.islOn x := rfl
@[simp] theorem State.clearMem_at_esOf (p : Nat → Bool) (x : Nat) : (s.clearMem p).esOf x = s.esOf x := rfl
@[simp] theorem State.clearMem_at_dlOf (p : Nat → Bool) (x : Nat) : (s.clearMem p).dlOf x = s.dlOf x := rfl
@[simp] theorem State.clearMem_at_fenced (p : Nat → Bool) (x : Agent) : (s.clearMem p).fenced x = s.fenced x := rfl
@[simp] theorem State.clearMem_at_halted (p : Nat → Bool) (x : StopUnit) : (s.clearMem p).halted x = s.halted x := rfl
@[simp] theorem State.clearMem_at_now (p : Nat → Bool) : (s.clearMem p).now = s.now := rfl
@[simp] theorem State.clearMem_at_key (p : Nat → Bool) (x : Nat) : (s.clearMem p).key x = s.key x := rfl

@[simp] theorem State.setEs_clk (g : Nat) (e : EsArray) : (s.setEs g e).clk = s.clk := rfl
@[simp] theorem State.setEs_ring (g : Nat) (e : EsArray) : (s.setEs g e).ring = s.ring := rfl
@[simp] theorem State.setEs_dl (g : Nat) (e : EsArray) : (s.setEs g e).dl = s.dl := rfl
@[simp] theorem State.setEs_bk (g : Nat) (e : EsArray) : (s.setEs g e).bk = s.bk := rfl
@[simp] theorem State.setEs_pw (g : Nat) (e : EsArray) : (s.setEs g e).pw = s.pw := rfl
@[simp] theorem State.setEs_td (g : Nat) (e : EsArray) : (s.setEs g e).td = s.td := rfl
@[simp] theorem State.setEs_det (g : Nat) (e : EsArray) : (s.setEs g e).det = s.det := rfl
@[simp] theorem State.setEs_cfg (g : Nat) (e : EsArray) : (s.setEs g e).cfg = s.cfg := rfl
@[simp] theorem State.setEs_sh (g : Nat) (e : EsArray) : (s.setEs g e).sh = s.sh := rfl
@[simp] theorem State.setEs_tt (g : Nat) (e : EsArray) : (s.setEs g e).tt = s.tt := rfl
@[simp] theorem State.setEs_fh (g : Nat) (e : EsArray) : (s.setEs g e).fh = s.fh := rfl
@[simp] theorem State.setEs_ds (g : Nat) (e : EsArray) : (s.setEs g e).ds = s.ds := rfl
@[simp] theorem State.setEs_zl (g : Nat) (e : EsArray) : (s.setEs g e).zl = s.zl := rfl
@[simp] theorem State.setEs_eg (g : Nat) (e : EsArray) : (s.setEs g e).eg = s.eg := rfl
@[simp] theorem State.setEs_slots (g : Nat) (e : EsArray) : (s.setEs g e).slots = s.slots := rfl
@[simp] theorem State.setEs_rtn (g : Nat) (e : EsArray) : (s.setEs g e).rtn = s.rtn := rfl
@[simp] theorem State.setEs_hm (g : Nat) (e : EsArray) : (s.setEs g e).hm = s.hm := rfl
@[simp] theorem State.setEs_obs (g : Nat) (e : EsArray) : (s.setEs g e).obs = s.obs := rfl
@[simp] theorem State.setEs_boot (g : Nat) (e : EsArray) : (s.setEs g e).boot = s.boot := rfl
@[simp] theorem State.setEs_hi (g : Nat) (e : EsArray) : (s.setEs g e).hi = s.hi := rfl
@[simp] theorem State.setEs_cu (g : Nat) (e : EsArray) : (s.setEs g e).cu = s.cu := rfl
@[simp] theorem State.setEs_regs (g : Nat) (e : EsArray) : (s.setEs g e).regs = s.regs := rfl
@[simp] theorem State.setEs_mem (g : Nat) (e : EsArray) : (s.setEs g e).mem = s.mem := rfl
@[simp] theorem State.setEs_host (g : Nat) (e : EsArray) : (s.setEs g e).host = s.host := rfl
@[simp] theorem State.setEs_irq (g : Nat) (e : EsArray) : (s.setEs g e).irq = s.irq := rfl
@[simp] theorem State.setEs_free (g : Nat) (e : EsArray) : (s.setEs g e).free = s.free := rfl
@[simp] theorem State.setEs_pending (g : Nat) (e : EsArray) : (s.setEs g e).pending = s.pending := rfl

@[simp] theorem State.setEs_at_reg (g : Nat) (e : EsArray) (x : Nat) : (s.setEs g e).reg x = s.reg x := rfl
@[simp] theorem State.setEs_at_regN (g : Nat) (e : EsArray) (x : Nat) : (s.setEs g e).regN x = s.regN x := rfl
@[simp] theorem State.setEs_at_isl (g : Nat) (e : EsArray) (x : Nat) : (s.setEs g e).isl x = s.isl x := rfl
@[simp] theorem State.setEs_at_islOn (g : Nat) (e : EsArray) (x : Nat) : (s.setEs g e).islOn x = s.islOn x := rfl
@[simp] theorem State.setEs_at_dlOf (g : Nat) (e : EsArray) (x : Nat) : (s.setEs g e).dlOf x = s.dlOf x := rfl
@[simp] theorem State.setEs_at_fenced (g : Nat) (e : EsArray) (x : Agent) : (s.setEs g e).fenced x = s.fenced x := rfl
@[simp] theorem State.setEs_at_halted (g : Nat) (e : EsArray) (x : StopUnit) : (s.setEs g e).halted x = s.halted x := rfl
@[simp] theorem State.setEs_at_now (g : Nat) (e : EsArray) : (s.setEs g e).now = s.now := rfl
@[simp] theorem State.setEs_at_key (g : Nat) (e : EsArray) (x : Nat) : (s.setEs g e).key x = s.key x := rfl
@[simp] theorem State.setEs_at_wordErr (g : Nat) (e : EsArray) (x : Nat) : (s.setEs g e).wordErr x = s.wordErr x := rfl

@[simp] theorem State.setDl_clk (n : Nat) (e : DripSeq) : (s.setDl n e).clk = s.clk := rfl
@[simp] theorem State.setDl_ring (n : Nat) (e : DripSeq) : (s.setDl n e).ring = s.ring := rfl
@[simp] theorem State.setDl_es (n : Nat) (e : DripSeq) : (s.setDl n e).es = s.es := rfl
@[simp] theorem State.setDl_bk (n : Nat) (e : DripSeq) : (s.setDl n e).bk = s.bk := rfl
@[simp] theorem State.setDl_pw (n : Nat) (e : DripSeq) : (s.setDl n e).pw = s.pw := rfl
@[simp] theorem State.setDl_td (n : Nat) (e : DripSeq) : (s.setDl n e).td = s.td := rfl
@[simp] theorem State.setDl_det (n : Nat) (e : DripSeq) : (s.setDl n e).det = s.det := rfl
@[simp] theorem State.setDl_cfg (n : Nat) (e : DripSeq) : (s.setDl n e).cfg = s.cfg := rfl
@[simp] theorem State.setDl_sh (n : Nat) (e : DripSeq) : (s.setDl n e).sh = s.sh := rfl
@[simp] theorem State.setDl_tt (n : Nat) (e : DripSeq) : (s.setDl n e).tt = s.tt := rfl
@[simp] theorem State.setDl_fh (n : Nat) (e : DripSeq) : (s.setDl n e).fh = s.fh := rfl
@[simp] theorem State.setDl_ds (n : Nat) (e : DripSeq) : (s.setDl n e).ds = s.ds := rfl
@[simp] theorem State.setDl_zl (n : Nat) (e : DripSeq) : (s.setDl n e).zl = s.zl := rfl
@[simp] theorem State.setDl_eg (n : Nat) (e : DripSeq) : (s.setDl n e).eg = s.eg := rfl
@[simp] theorem State.setDl_slots (n : Nat) (e : DripSeq) : (s.setDl n e).slots = s.slots := rfl
@[simp] theorem State.setDl_rtn (n : Nat) (e : DripSeq) : (s.setDl n e).rtn = s.rtn := rfl
@[simp] theorem State.setDl_hm (n : Nat) (e : DripSeq) : (s.setDl n e).hm = s.hm := rfl
@[simp] theorem State.setDl_obs (n : Nat) (e : DripSeq) : (s.setDl n e).obs = s.obs := rfl
@[simp] theorem State.setDl_boot (n : Nat) (e : DripSeq) : (s.setDl n e).boot = s.boot := rfl
@[simp] theorem State.setDl_hi (n : Nat) (e : DripSeq) : (s.setDl n e).hi = s.hi := rfl
@[simp] theorem State.setDl_cu (n : Nat) (e : DripSeq) : (s.setDl n e).cu = s.cu := rfl
@[simp] theorem State.setDl_regs (n : Nat) (e : DripSeq) : (s.setDl n e).regs = s.regs := rfl
@[simp] theorem State.setDl_mem (n : Nat) (e : DripSeq) : (s.setDl n e).mem = s.mem := rfl
@[simp] theorem State.setDl_host (n : Nat) (e : DripSeq) : (s.setDl n e).host = s.host := rfl
@[simp] theorem State.setDl_irq (n : Nat) (e : DripSeq) : (s.setDl n e).irq = s.irq := rfl
@[simp] theorem State.setDl_free (n : Nat) (e : DripSeq) : (s.setDl n e).free = s.free := rfl
@[simp] theorem State.setDl_pending (n : Nat) (e : DripSeq) : (s.setDl n e).pending = s.pending := rfl

@[simp] theorem State.setDl_at_reg (n : Nat) (e : DripSeq) (x : Nat) : (s.setDl n e).reg x = s.reg x := rfl
@[simp] theorem State.setDl_at_regN (n : Nat) (e : DripSeq) (x : Nat) : (s.setDl n e).regN x = s.regN x := rfl
@[simp] theorem State.setDl_at_isl (n : Nat) (e : DripSeq) (x : Nat) : (s.setDl n e).isl x = s.isl x := rfl
@[simp] theorem State.setDl_at_islOn (n : Nat) (e : DripSeq) (x : Nat) : (s.setDl n e).islOn x = s.islOn x := rfl
@[simp] theorem State.setDl_at_esOf (n : Nat) (e : DripSeq) (x : Nat) : (s.setDl n e).esOf x = s.esOf x := rfl
@[simp] theorem State.setDl_at_fenced (n : Nat) (e : DripSeq) (x : Agent) : (s.setDl n e).fenced x = s.fenced x := rfl
@[simp] theorem State.setDl_at_halted (n : Nat) (e : DripSeq) (x : StopUnit) : (s.setDl n e).halted x = s.halted x := rfl
@[simp] theorem State.setDl_at_now (n : Nat) (e : DripSeq) : (s.setDl n e).now = s.now := rfl
@[simp] theorem State.setDl_at_key (n : Nat) (e : DripSeq) (x : Nat) : (s.setDl n e).key x = s.key x := rfl
@[simp] theorem State.setDl_at_wordErr (n : Nat) (e : DripSeq) (x : Nat) : (s.setDl n e).wordErr x = s.wordErr x := rfl

@[simp] theorem State.countFenced_clk : s.countFenced.clk = s.clk := rfl
@[simp] theorem State.countFenced_ring : s.countFenced.ring = s.ring := rfl
@[simp] theorem State.countFenced_es : s.countFenced.es = s.es := rfl
@[simp] theorem State.countFenced_dl : s.countFenced.dl = s.dl := rfl
@[simp] theorem State.countFenced_bk : s.countFenced.bk = s.bk := rfl
@[simp] theorem State.countFenced_pw : s.countFenced.pw = s.pw := rfl
@[simp] theorem State.countFenced_td : s.countFenced.td = s.td := rfl
@[simp] theorem State.countFenced_det : s.countFenced.det = s.det := rfl
@[simp] theorem State.countFenced_cfg : s.countFenced.cfg = s.cfg := rfl
@[simp] theorem State.countFenced_sh : s.countFenced.sh = s.sh := rfl
@[simp] theorem State.countFenced_tt : s.countFenced.tt = s.tt := rfl
@[simp] theorem State.countFenced_fh : s.countFenced.fh = s.fh := rfl
@[simp] theorem State.countFenced_ds : s.countFenced.ds = s.ds := rfl
@[simp] theorem State.countFenced_zl : s.countFenced.zl = s.zl := rfl
@[simp] theorem State.countFenced_eg : s.countFenced.eg = s.eg := rfl
@[simp] theorem State.countFenced_slots : s.countFenced.slots = s.slots := rfl
@[simp] theorem State.countFenced_rtn : s.countFenced.rtn = s.rtn := rfl
@[simp] theorem State.countFenced_hm : s.countFenced.hm = s.hm := rfl
@[simp] theorem State.countFenced_obs : s.countFenced.obs = s.obs := rfl
@[simp] theorem State.countFenced_hi : s.countFenced.hi = s.hi := rfl
@[simp] theorem State.countFenced_cu : s.countFenced.cu = s.cu := rfl
@[simp] theorem State.countFenced_regs : s.countFenced.regs = s.regs := rfl
@[simp] theorem State.countFenced_mem : s.countFenced.mem = s.mem := rfl
@[simp] theorem State.countFenced_host : s.countFenced.host = s.host := rfl
@[simp] theorem State.countFenced_irq : s.countFenced.irq = s.irq := rfl
@[simp] theorem State.countFenced_free : s.countFenced.free = s.free := rfl
@[simp] theorem State.countFenced_pending : s.countFenced.pending = s.pending := rfl

@[simp] theorem State.countFenced_at_reg (x : Nat) : s.countFenced.reg x = s.reg x := rfl
@[simp] theorem State.countFenced_at_regN (x : Nat) : s.countFenced.regN x = s.regN x := rfl
@[simp] theorem State.countFenced_at_isl (x : Nat) : s.countFenced.isl x = s.isl x := rfl
@[simp] theorem State.countFenced_at_islOn (x : Nat) : s.countFenced.islOn x = s.islOn x := rfl
@[simp] theorem State.countFenced_at_esOf (x : Nat) : s.countFenced.esOf x = s.esOf x := rfl
@[simp] theorem State.countFenced_at_dlOf (x : Nat) : s.countFenced.dlOf x = s.dlOf x := rfl
@[simp] theorem State.countFenced_at_halted (x : StopUnit) : s.countFenced.halted x = s.halted x := rfl
@[simp] theorem State.countFenced_at_now  : s.countFenced.now = s.now := rfl
@[simp] theorem State.countFenced_at_key (x : Nat) : s.countFenced.key x = s.key x := rfl
@[simp] theorem State.countFenced_at_wordErr (x : Nat) : s.countFenced.wordErr x = s.wordErr x := rfl

/-- What an update changes is what was given. -/
@[simp] theorem State.setEs_at_same (g : Nat) (e : EsArray) : (s.setEs g e).es = tset {} s.es g e := rfl
@[simp] theorem State.setDl_at_same (n : Nat) (e : DripSeq) : (s.setDl n e).dl = tset {} s.dl n e := rfl
@[simp] theorem State.setReg_regs (o v : Nat) :
    (s.setReg o v).regs = tset (regReset o) s.regs o (BitVec.ofNat 32 v) := rfl

end Sys2Proof.Machine
end

