-- ==== Sys2Proof/Laws/Tables.lean ====
section
/-! SUPPORT.  The laws of sparse tables: a read after a write, and that every operation keeps the canonical form. -/

namespace Sys2Proof.Machine

variable {α : Type}

/-- A table sorted from lo on is sorted from any lower bound on. -/
theorem tsorted_mono {lo hi : Nat} {t : Table α} (h : tsorted hi t = true) (hl : lo ≤ hi) : tsorted lo t = true := by
  cases t with
  | nil => rfl
  | cons e t =>
    simp only [tsorted, Bool.and_eq_true, decide_eq_true_eq] at h ⊢
    exact ⟨Nat.le_trans hl h.1, h.2⟩

/-- A key below every listed one reads as the default. -/
theorem tget_below (d : α) {t : Table α} {lo i : Nat} (h : tsorted lo t = true) (hi : i < lo) : tget d t i = d := by
  induction t generalizing lo with
  | nil => rfl
  | cons e t ih =>
    simp only [tsorted, Bool.and_eq_true, decide_eq_true_eq] at h
    simp only [tget]
    rw [if_neg (by omega)]
    exact ih h.2 (by omega)

/-- Placing a value keeps the keys rising. -/
theorem tsorted_tput (v : Option α) {t : Table α} {lo i : Nat} (h : tsorted lo t = true) (hi : lo ≤ i) :
    tsorted lo (tput v t i) = true := by
  induction t generalizing lo with
  | nil => cases v <;> simp [tput, tsorted, hi]
  | cons e t ih =>
    simp only [tsorted, Bool.and_eq_true, decide_eq_true_eq] at h
    simp only [tput]
    split
    · cases v with
      | none => simp [tsorted, h]
      | some y => simp [tsorted, h.2, hi]; omega
    · split
      · cases v with
        | none => exact tsorted_mono h.2 (by omega)
        | some y => simp [tsorted, h]
      · simp only [tsorted, Bool.and_eq_true, decide_eq_true_eq]
        exact ⟨h.1, ih h.2 (by omega)⟩

/-- What a placed key reads as. -/
theorem tget_tput_same (d : α) (v : Option α) {t : Table α} {lo i : Nat} (h : tsorted lo t = true) :
    tget d (tput v t i) i = v.getD d := by
  induction t generalizing lo with
  | nil => cases v <;> simp [tput, tget]
  | cons e t ih =>
    simp only [tsorted, Bool.and_eq_true, decide_eq_true_eq] at h
    simp only [tput]
    split
    · rename_i hlt
      cases v with
      | none =>
        simp only [tget]
        rw [if_neg (by omega)]
        exact tget_below d h.2 (by omega)
      | some y => simp [tget]
    · split
      · rename_i heq
        cases v with
        | none => exact tget_below d h.2 (by omega)
        | some y => simp [tget, heq]
      · rename_i hne
        simp only [tget]
        rw [if_neg hne]
        exact ih h.2

/-- Placing a value leaves every other key as it was. -/
theorem tget_tput_other (d : α) (v : Option α) (t : Table α) {i j : Nat} (h : j ≠ i) :
    tget d (tput v t i) j = tget d t j := by
  induction t with
  | nil => cases v <;> simp [tput, tget, h]
  | cons e t ih =>
    simp only [tput]
    split
    · cases v with
      | none => rfl
      | some y => simp [tget, h]
    · split
      · rename_i heq
        cases v with
        | none => simp [tget, heq.symm, h]
        | some y =>
          have : j ≠ e.1 := by omega
          simp [tget, this]
      · simp [tget, ih]

/-- A read after a write of the same key. -/
theorem tget_tset_same [DecidableEq α] (d : α) {t : Table α} {lo : Nat} (h : tsorted lo t = true) (i : Nat) (v : α) :
    tget d (tset d t i v) i = v := by
  unfold tset
  rw [tget_tput_same d _ h]
  split <;> simp_all

/-- A read after a write of another key. -/
theorem tget_tset_other [DecidableEq α] (d : α) (t : Table α) {i j : Nat} (v : α) (h : j ≠ i) :
    tget d (tset d t i v) j = tget d t j := tget_tput_other d _ t h

/-- Every entry of a placed table is an old one or the placed one. -/
theorem mem_tput (v : Option α) {t : Table α} {i : Nat} {e : Nat × α} (h : e ∈ tput v t i) : e ∈ t ∨ v = some e.2 := by
  induction t with
  | nil => cases v <;> simp_all [tput]
  | cons x t ih =>
    simp only [tput] at h
    split at h
    · cases v <;> simp_all
      rcases h with rfl | h <;> simp_all
    · split at h
      · cases v with
        | none => exact .inl (List.mem_cons_of_mem _ h)
        | some y =>
          simp only [List.mem_cons] at h ⊢
          rcases h with rfl | h
          · exact .inr rfl
          · exact .inl (.inr h)
      · simp only [List.mem_cons] at h ⊢
        rcases h with rfl | h
        · exact .inl (.inl rfl)
        · rcases ih h with h | h
          · exact .inl (.inr h)
          · exact .inr h

/-- A write keeps the canonical form. -/
theorem twf_tset [DecidableEq α] (d : α) {t : Table α} (h : twf d t = true) (i : Nat) (v : α) :
    twf d (tset d t i v) = true := by
  simp only [twf, Bool.and_eq_true, List.all_eq_true, decide_eq_true_eq] at h ⊢
  refine ⟨tsorted_tput _ h.1 (Nat.zero_le i), fun e he => ?_⟩
  rcases mem_tput _ he with h1 | h1
  · exact h.2 e h1
  · split at h1
    · cases h1
    · cases h1; assumption

/-- Removing entries keeps the keys rising. -/
theorem tsorted_filter (p : Nat × α → Bool) {t : Table α} {lo : Nat} (h : tsorted lo t = true) :
    tsorted lo (t.filter p) = true := by
  induction t generalizing lo with
  | nil => rfl
  | cons e t ih =>
    simp only [tsorted, Bool.and_eq_true, decide_eq_true_eq] at h
    simp only [List.filter]
    split
    · simp only [tsorted, Bool.and_eq_true, decide_eq_true_eq]
      exact ⟨h.1, ih h.2⟩
    · exact tsorted_mono (ih h.2) (by omega)

/-- Removing entries keeps the canonical form. -/
theorem twf_filter [DecidableEq α] (d : α) (p : Nat × α → Bool) {t : Table α} (h : twf d t = true) :
    twf d (t.filter p) = true := by
  simp only [twf, Bool.and_eq_true, List.all_eq_true, decide_eq_true_eq] at h ⊢
  exact ⟨tsorted_filter p h.1, fun e he => h.2 e (List.mem_filter.mp he).1⟩

theorem twf_tdrop [DecidableEq α] (d : α) (p : Nat → Bool) {t : Table α} (h : twf d t = true) :
    twf d (tdrop p t) = true := twf_filter d _ h

/-- A dropped key reads as the default, and another as before. -/
theorem tget_filter (d : α) (p : Nat → Bool) (t : Table α) (i : Nat) :
    tget d (t.filter (fun e => p e.1)) i = if p i then tget d t i else d := by
  induction t with
  | nil => simp [tget]
  | cons e t ih =>
    simp only [List.filter]
    split
    · simp only [tget, ih]
      split <;> simp_all
    · rw [ih]
      simp only [tget]
      by_cases hi : i = e.1
      · subst hi; simp_all
      · rw [if_neg hi]

/-- Memory: a byte written reads back, and every other byte as before. -/
theorem rdByte_wrByte (m : Memory) (h : m.wf = true) (a b : Nat) (x : Byte) :
    rdByte (wrByte m a x) b = if b = a then x else rdByte m b := by
  have hs : tsorted 0 m = true := by
    simp only [Memory.wf, twf, Bool.and_eq_true] at h; exact h.1
  split
  · rename_i e
    subst e
    exact tget_tset_same 0 hs b x
  · rename_i e
    exact tget_tset_other 0 m x e

/-- Memory: a write keeps the canonical form. -/
theorem wf_wrByte {m : Memory} (h : m.wf = true) (a : Nat) (x : Byte) : (wrByte m a x).wf = true := twf_tset 0 h a x

/-- Memory: a run of bytes keeps the canonical form. -/
theorem wf_wrBytes (bs : List Byte) : ∀ {m : Memory}, m.wf = true → ∀ a, (wrBytes m a bs).wf = true := by
  induction bs with
  | nil => intro m h a; exact h
  | cons b bs ih => intro m h a; exact ih (wf_wrByte h a b) (a + 1)

/-- Memory: a run of bytes leaves what lies outside it. -/
theorem rdByte_wrBytes_outside (bs : List Byte) :
    ∀ {m : Memory}, m.wf = true → ∀ a b, b < a ∨ a + bs.length ≤ b → rdByte (wrBytes m a bs) b = rdByte m b := by
  induction bs with
  | nil => intro m _ a b _; rfl
  | cons x bs ih =>
    intro m h a b hb
    simp only [List.length_cons] at hb
    simp only [wrBytes]
    rw [ih (wf_wrByte h a x) (a + 1) b (by omega), rdByte_wrByte m h, if_neg (by omega)]

end Sys2Proof.Machine
end

