-- ==== Sys2Proof/Laws/Ops.lean ====
section
/-! SUPPORT.  What each shared operation can do, said once. -/

namespace Sys2Proof.Machine

/-! ### Outcomes -/

theorem onlyIf_true {p : Bool} (h : p = true) (s t : State) : onlyIf p s t = .next t := by simp [onlyIf, h]

theorem onlyIf_false {p : Bool} (h : p = false) (s t : State) : onlyIf p s t = .next s := by simp [onlyIf, h]

/-- A guarded effect either happens whole or not at all. -/
theorem onlyIf_next {p : Bool} {s t u : State} (h : onlyIf p s t = .next u) :
    (p = true ∧ u = t) ∨ (p = false ∧ u = s) := by
  cases p <;> simp_all [onlyIf]

/-- A property that both the old state and the effect have holds of every outcome. -/
theorem onlyIf_keeps {P : State → Prop} {p : Bool} {s t u : State} (h : onlyIf p s t = .next u) (hs : P s)
    (ht : p = true → P t) : P u := by
  rcases onlyIf_next h with ⟨hp, rfl⟩ | ⟨_, rfl⟩
  · exact ht hp
  · exact hs

/-- What an agent's write can do: nothing from a halted core, a count where it is fenced, else the guarded effect. -/
theorem agentIf_next {m : Agent} {p : Bool} {s t u : State} (h : agentIf m p s t = .next u) :
    (s.agentHalted m = true ∧ u = s) ∨ (s.agentHalted m = false ∧ s.fenced m = true ∧ u = s.countFenced) ∨
    (s.agentHalted m = false ∧ s.fenced m = false ∧ p = true ∧ u = t) ∨
    (s.agentHalted m = false ∧ s.fenced m = false ∧ p = false ∧ u = s) := by
  cases h1 : s.agentHalted m <;> cases h2 : s.fenced m <;> cases p <;> simp_all [agentIf, onlyIf]

theorem agentIf_acts {m : Agent} {p : Bool} {s : State} (h : s.agentHalted m = false) (hf : s.fenced m = false)
    (hp : p = true) (t : State) : agentIf m p s t = .next t := by simp [agentIf, h, hf, onlyIf, hp]

theorem agentIf_keeps {P : State → Prop} {m : Agent} {p : Bool} {s t u : State} (h : agentIf m p s t = .next u) (hs : P s)
    (hc : P s.countFenced) (ht : p = true → P t) : P u := by
  rcases agentIf_next h with ⟨_, rfl⟩ | ⟨_, _, rfl⟩ | ⟨_, _, hp, rfl⟩ | ⟨_, _, _, rfl⟩
  · exact hs
  · exact hc
  · exact ht hp
  · exact hs

theorem unlessHalted_runs {s : State} {u : StopUnit} (h : s.halted u = false) (o : Out) : unlessHalted s u o = o := by
  simp [unlessHalted, h]

theorem unlessHalted_stays {s : State} {u : StopUnit} (h : s.halted u = true) (o : Out) : unlessHalted s u o = .next s := by
  simp [unlessHalted, h]

/-- No global stop: nothing is halted. -/
theorem halted_of_running {s : State} (h : s.obs.stopped = false) (u : StopUnit) : s.halted u = false := by
  simp [State.halted, h]

/-- No core of a die whose BASE island is ON is halted while there is no stop. -/
theorem agentHalted_of_running {s : State} {d : Die} (h : s.obs.stopped = false) (hd : s.dieOn d = true) (k : Fin 16) :
    s.agentHalted (.core d k) = false := by
  cases d <;> simp_all [State.agentHalted, State.halted]

/-- The host's functions are not halted. -/
theorem agentHalted_pf (s : State) : s.agentHalted .pf = false := rfl

theorem agentHalted_vf (s : State) (f : Fin 512) : s.agentHalted (.vf f) = false := rfl

/-! ### Registers -/

/-- A register reads back what was written. -/
theorem State.reg_setReg_same (s : State) (h : tsorted 0 s.regs = true) (o v : Nat) :
    (s.setReg o v).reg o = BitVec.ofNat 32 v := tget_tset_same _ h o _

/-- Another register is as before. -/
theorem State.reg_setReg_other (s : State) {o x : Nat} (v : Nat) (h : x ≠ o) : (s.setReg o v).reg x = s.reg x := by
  simp [State.reg, State.setReg, tset, tget_tput_other _ _ _ h]

/-- The register file stays sorted. -/
theorem State.sorted_setReg (s : State) (h : tsorted 0 s.regs = true) (o v : Nat) :
    tsorted 0 (s.setReg o v).regs = true := tsorted_tput _ h (Nat.zero_le o)

theorem State.sorted_setRegB (s : State) (h : tsorted 0 s.regs = true) (o hi lo v : Nat) :
    tsorted 0 (s.setRegB o hi lo v).regs = true := s.sorted_setReg h o _

theorem State.sorted_count (s : State) (h : tsorted 0 s.regs = true) (o n : Nat) :
    tsorted 0 (s.count o n).regs = true := s.sorted_setReg h o _

/-! ### Memory -/

/-- A store keeps the canonical form of memory. -/
theorem State.putBytes_wf (s : State) (a n : Nat) (bs : List Byte) :
    ∀ (b : Nat) {m : Memory}, m.wf = true → (s.putBytes a n b bs m).wf = true := by
  induction bs with
  | nil => intro b m h; exact h
  | cons x xs ih =>
    intro b m h
    simp only [State.putBytes]
    apply ih
    split
    · exact wf_wrByte h _ _
    · exact h

theorem State.store_wf (s : State) (h : s.mem.wf = true) (a : Nat) (bs : List Byte) : (s.store a bs).mem.wf = true :=
  s.putBytes_wf a bs.length bs a h

theorem State.storeNat_wf (s : State) (h : s.mem.wf = true) (a n x : Nat) : (s.storeNat a n x).mem.wf = true :=
  s.store_wf h a _

theorem State.clearMem_wf (s : State) (h : s.mem.wf = true) (p : Nat → Bool) : (s.clearMem p).mem.wf = true :=
  twf_tdrop 0 p h

/-! ### Units -/

theorem State.esOf_setEs_same (s : State) {lo : Nat} (h : tsorted lo s.es = true) (g : Nat) (e : EsArray) :
    (s.setEs g e).esOf g = e := tget_tset_same _ h g e

theorem State.esOf_setEs_other (s : State) {g x : Nat} (e : EsArray) (h : x ≠ g) : (s.setEs g e).esOf x = s.esOf x :=
  tget_tset_other _ _ e h

theorem State.dlOf_setDl_same (s : State) {lo : Nat} (h : tsorted lo s.dl = true) (n : Nat) (e : DripSeq) :
    (s.setDl n e).dlOf n = e := tget_tset_same _ h n e

theorem State.dlOf_setDl_other (s : State) {n x : Nat} (e : DripSeq) (h : x ≠ n) : (s.setDl n e).dlOf x = s.dlOf x :=
  tget_tset_other _ _ e h

/-! ### Islands -/

theorem length_lmod {α : Type} (l : List α) (i : Nat) (f : α → α) : (lmod l i f).length = l.length := by
  induction l generalizing i with
  | nil => cases i <;> rfl
  | cons x xs ih => cases i <;> simp [lmod, ih]

theorem getD_lmod_same {α : Type} (l : List α) (i : Nat) (f : α → α) (d : α) (h : i < l.length) :
    (lmod l i f).getD i d = f (l.getD i d) := by
  induction l generalizing i with
  | nil => simp at h
  | cons x xs ih =>
    cases i with
    | zero => rfl
    | succ i => simpa [lmod] using ih i (by simpa using h)

theorem getD_lmod_other {α : Type} (l : List α) (i j : Nat) (f : α → α) (d : α) (h : j ≠ i) :
    (lmod l i f).getD j d = l.getD j d := by
  induction l generalizing i j with
  | nil => cases i <;> rfl
  | cons x xs ih =>
    cases i with
    | zero => cases j with
      | zero => exact absurd rfl h
      | succ j => rfl
    | succ i => cases j with
      | zero => rfl
      | succ j => simpa [lmod] using ih i j (by omega)

/-- Changing an island changes that island alone. -/
theorem State.isl_modIsl_same (s : State) (i : Nat) (f : Island → Island) (h : i < s.pw.isl.length) :
    (s.modIsl i f).isl i = f (s.isl i) := getD_lmod_same _ i f _ h

theorem State.isl_modIsl_other (s : State) {i j : Nat} (f : Island → Island) (h : j ≠ i) :
    (s.modIsl i f).isl j = s.isl j := getD_lmod_other _ i j f _ h

/-! ### Folds -/

/-- A fold of steps that each keep a property keeps it. -/
theorem foldl_keeps {α : Type} {P : State → Prop} {f : State → α → State} (hf : ∀ s x, P s → P (f s x)) (l : List α) :
    ∀ {s : State}, P s → P (l.foldl f s) := by
  induction l with
  | nil => intro s h; exact h
  | cons x l ih => intro s h; exact ih (hf s x h)

end Sys2Proof.Machine
end

