-- ==== Sys2Proof/Laws/Bits.lean ====
section
/-! SUPPORT.  The laws of bit fields, and of the fields of registers. -/

namespace Sys2Proof.Machine

/-- A number is its upper part, a field and its lower part. -/
theorem split_bits (x hi lo : Nat) (h : lo ≤ hi) :
    x = x / 2 ^ (hi + 1) * 2 ^ (hi + 1) + bitsOf x hi lo * 2 ^ lo + x % 2 ^ lo := by
  unfold bitsOf
  have e : 2 ^ (hi + 1) = 2 ^ lo * 2 ^ (hi + 1 - lo) := by rw [← Nat.pow_add]; congr 1; omega
  have h1 := Nat.div_add_mod x (2 ^ lo)
  have h2 := Nat.div_add_mod (x / 2 ^ lo) (2 ^ (hi + 1 - lo))
  rw [e, ← Nat.div_div_eq_div_mul]
  generalize x / 2 ^ lo / 2 ^ (hi + 1 - lo) = q at *
  generalize x / 2 ^ lo % 2 ^ (hi + 1 - lo) = f at *
  rw [← h2] at h1
  rw [← h1]
  simp only [Nat.mul_add_mod, Nat.mod_mod]
  ring

/-- A number with a field replaced, written with its three parts. -/
theorem withBits_eq (x hi lo v : Nat) (h : lo ≤ hi) :
    withBits x hi lo v = x / 2 ^ (hi + 1) * 2 ^ (hi + 1) + v % 2 ^ (hi + 1 - lo) * 2 ^ lo + x % 2 ^ lo := by
  have e := split_bits x hi lo h
  unfold withBits
  omega

theorem bitsOf_lt (x hi lo : Nat) : bitsOf x hi lo < 2 ^ (hi + 1 - lo) := Nat.mod_lt _ (Nat.two_pow_pos _)

/-- The field that was written. -/
theorem bitsOf_withBits_same (x hi lo v : Nat) (h : lo ≤ hi) :
    bitsOf (withBits x hi lo v) hi lo = v % 2 ^ (hi + 1 - lo) := by
  rw [withBits_eq x hi lo v h]
  unfold bitsOf
  have e : 2 ^ (hi + 1) = 2 ^ (hi + 1 - lo) * 2 ^ lo := by rw [← Nat.pow_add]; congr 1; omega
  have hp := Nat.two_pow_pos lo
  rw [e, ← Nat.mul_assoc, ← Nat.add_mul, Nat.add_comm, Nat.add_mul_div_right _ _ hp,
    Nat.div_eq_of_lt (Nat.mod_lt _ hp), Nat.zero_add, Nat.mul_add_mod', Nat.mod_mod]

/-- A field below the one written is as before. -/
theorem bitsOf_withBits_below (x hi lo v a b : Nat) (h : lo ≤ hi) (ha : a < lo) :
    bitsOf (withBits x hi lo v) a b = bitsOf x a b := by
  have key : ∀ y, bitsOf y a b = y % 2 ^ (a + 1) / 2 ^ b := by
    intro y
    unfold bitsOf
    by_cases hb : b ≤ a + 1
    · have e : 2 ^ (a + 1) = 2 ^ b * 2 ^ (a + 1 - b) := by rw [← Nat.pow_add]; congr 1; omega
      rw [e, Nat.mod_mul_right_div_self]
    · have e1 : a + 1 - b = 0 := by omega
      have e2 : y % 2 ^ (a + 1) / 2 ^ b = 0 := by
        apply Nat.div_eq_of_lt
        exact Nat.lt_of_lt_of_le (Nat.mod_lt _ (Nat.two_pow_pos _)) (Nat.pow_le_pow_right (by omega) (by omega))
      rw [e1, e2, Nat.pow_zero, Nat.mod_one]
  rw [key, key, withBits_eq x hi lo v h]
  congr 1
  have e : 2 ^ lo = 2 ^ (a + 1) * 2 ^ (lo - (a + 1)) := by rw [← Nat.pow_add]; congr 1; omega
  have e' : 2 ^ (hi + 1) = 2 ^ (a + 1) * 2 ^ (hi + 1 - (a + 1)) := by rw [← Nat.pow_add]; congr 1; omega
  have m1 : x % 2 ^ lo % 2 ^ (a + 1) = x % 2 ^ (a + 1) :=
    Nat.mod_mod_of_dvd _ (Dvd.intro _ e.symm)
  rw [Nat.add_mod, m1]
  have m2 : (x / 2 ^ (hi + 1) * 2 ^ (hi + 1) + v % 2 ^ (hi + 1 - lo) * 2 ^ lo) % 2 ^ (a + 1) = 0 := by
    apply Nat.mod_eq_zero_of_dvd
    apply Nat.dvd_add
    · exact Dvd.dvd.mul_left (Dvd.intro _ e'.symm) _
    · exact Dvd.dvd.mul_left (Dvd.intro _ e.symm) _
  rw [m2]; simp

/-- A field above the one written is as before. -/
theorem bitsOf_withBits_above (x hi lo v a b : Nat) (h : lo ≤ hi) (hb : hi < b) :
    bitsOf (withBits x hi lo v) a b = bitsOf x a b := by
  unfold bitsOf
  congr 1
  have e : 2 ^ b = 2 ^ (hi + 1) * 2 ^ (b - (hi + 1)) := by rw [← Nat.pow_add]; congr 1; omega
  rw [e, ← Nat.div_div_eq_div_mul, ← Nat.div_div_eq_div_mul]
  congr 1
  rw [withBits_eq x hi lo v h, Nat.add_assoc, Nat.mul_comm, Nat.mul_add_div (Nat.two_pow_pos _)]
  have l : v % 2 ^ (hi + 1 - lo) * 2 ^ lo + x % 2 ^ lo < 2 ^ (hi + 1) := by
    have e2 : 2 ^ (hi + 1) = 2 ^ (hi + 1 - lo) * 2 ^ lo := by rw [← Nat.pow_add]; congr 1; omega
    have l1 : v % 2 ^ (hi + 1 - lo) < 2 ^ (hi + 1 - lo) := Nat.mod_lt _ (Nat.two_pow_pos _)
    have l2 : x % 2 ^ lo < 2 ^ lo := Nat.mod_lt _ (Nat.two_pow_pos _)
    rw [e2]
    generalize 2 ^ (hi + 1 - lo) = p at *
    generalize v % p = q at *
    calc q * 2 ^ lo + x % 2 ^ lo < q * 2 ^ lo + 2 ^ lo := by omega
      _ = (q + 1) * 2 ^ lo := by ring
      _ ≤ p * 2 ^ lo := Nat.mul_le_mul_right _ l1
  rw [Nat.div_eq_of_lt l, Nat.add_zero]

/-- Replacing a field of a 32-bit number gives a 32-bit number. -/
theorem withBits_lt {x n hi : Nat} (lo v : Nat) (hx : x < 2 ^ n) (h : lo ≤ hi) (hn : hi < n) : withBits x hi lo v < 2 ^ n := by
  rw [withBits_eq x hi lo v h]
  have e : 2 ^ n = 2 ^ (n - (hi + 1)) * 2 ^ (hi + 1) := by rw [← Nat.pow_add]; congr 1; omega
  have l0 : x / 2 ^ (hi + 1) < 2 ^ (n - (hi + 1)) := by
    rw [Nat.div_lt_iff_lt_mul (Nat.two_pow_pos _), ← e]; exact hx
  have l : v % 2 ^ (hi + 1 - lo) * 2 ^ lo + x % 2 ^ lo < 2 ^ (hi + 1) := by
    have e2 : 2 ^ (hi + 1) = 2 ^ (hi + 1 - lo) * 2 ^ lo := by rw [← Nat.pow_add]; congr 1; omega
    have l1 : v % 2 ^ (hi + 1 - lo) < 2 ^ (hi + 1 - lo) := Nat.mod_lt _ (Nat.two_pow_pos _)
    have l2 : x % 2 ^ lo < 2 ^ lo := Nat.mod_lt _ (Nat.two_pow_pos _)
    rw [e2]
    generalize 2 ^ (hi + 1 - lo) = p at *
    generalize v % p = q at *
    calc q * 2 ^ lo + x % 2 ^ lo < q * 2 ^ lo + 2 ^ lo := by omega
      _ = (q + 1) * 2 ^ lo := by ring
      _ ≤ p * 2 ^ lo := Nat.mul_le_mul_right _ l1
  rw [e]
  generalize 2 ^ (n - (hi + 1)) = p at *
  generalize x / 2 ^ (hi + 1) = q at *
  calc _ < q * 2 ^ (hi + 1) + 2 ^ (hi + 1) := by omega
      _ = (q + 1) * 2 ^ (hi + 1) := by ring
      _ ≤ p * 2 ^ (hi + 1) := Nat.mul_le_mul_right _ l0

/-! ### Fields of registers -/

theorem State.regN_lt (s : State) (o : Nat) : s.regN o < 2 ^ 32 := (s.reg o).isLt

theorem State.regN_setReg_same (s : State) (h : tsorted 0 s.regs = true) (o v : Nat) :
    (s.setReg o v).regN o = v % 2 ^ 32 := by
  simp [State.regN, State.reg_setReg_same s h]

theorem State.regN_setReg_other (s : State) {o x : Nat} (v : Nat) (h : x ≠ o) : (s.setReg o v).regN x = s.regN x := by
  simp [State.regN, State.reg_setReg_other s v h]

theorem State.regN_setRegB (s : State) (h : tsorted 0 s.regs = true) (o : Nat) {hi lo : Nat} (v : Nat) (hl : lo ≤ hi)
    (hh : hi < 32) : (s.setRegB o hi lo v).regN o = withBits (s.regN o) hi lo v := by
  unfold State.setRegB
  rw [State.regN_setReg_same s h, Nat.mod_eq_of_lt (withBits_lt lo v (s.regN_lt o) hl hh)]

theorem State.regN_setRegB_other (s : State) {o x hi lo : Nat} (v : Nat) (h : x ≠ o) :
    (s.setRegB o hi lo v).regN x = s.regN x := s.regN_setReg_other _ h

theorem State.regB_setRegB_same (s : State) (h : tsorted 0 s.regs = true) (o : Nat) {hi lo : Nat} (v : Nat) (hl : lo ≤ hi)
    (hh : hi < 32) : (s.setRegB o hi lo v).regB o hi lo = v % 2 ^ (hi + 1 - lo) := by
  unfold State.regB
  rw [s.regN_setRegB h o v hl hh, bitsOf_withBits_same _ _ _ _ hl]

/-- Another field of the register, above or below the one written. -/
theorem State.regB_setRegB_field (s : State) (h : tsorted 0 s.regs = true) (o : Nat) {hi lo a b : Nat} (v : Nat)
    (hl : lo ≤ hi) (hh : hi < 32) (hd : a < lo ∨ hi < b) : (s.setRegB o hi lo v).regB o a b = s.regB o a b := by
  unfold State.regB
  rw [s.regN_setRegB h o v hl hh]
  rcases hd with hd | hd
  · exact bitsOf_withBits_below _ _ _ _ _ _ hl hd
  · exact bitsOf_withBits_above _ _ _ _ _ _ hl hd

theorem bitOf_eq (x i : Nat) : bitOf x i = (bitsOf x i i == 1) := by simp [bitOf, bitsOf]

theorem State.regBit_setRegB_same (s : State) (h : tsorted 0 s.regs = true) (o : Nat) {i : Nat} (v : Nat) (hh : i < 32) :
    (s.setRegB o i i v).regBit o i = (v % 2 == 1) := by
  have e := s.regB_setRegB_same h o (lo := i) v (Nat.le_refl i) hh
  unfold State.regBit
  rw [bitOf_eq]
  unfold State.regB at e
  rw [e]; simp

theorem State.regBit_setRegB_field (s : State) (h : tsorted 0 s.regs = true) (o : Nat) {hi lo i : Nat} (v : Nat)
    (hl : lo ≤ hi) (hh : hi < 32) (hd : i < lo ∨ hi < i) : (s.setRegB o hi lo v).regBit o i = s.regBit o i := by
  have e := s.regB_setRegB_field h o (a := i) (b := i) v hl hh hd
  unfold State.regBit State.regB at *
  rw [bitOf_eq, bitOf_eq, e]

end Sys2Proof.Machine
end

