-- ==== Sys2Proof/Laws/Time.lean ====
section
/-! SUPPORT.  What the arrival of a time can do, said once: the raw counter moves on, and nothing else changes. -/

namespace Sys2Proof.Machine

variable (s : State)

/-- The counter moves to a count, at most the one named, or the state stands. -/
theorem State.reachRaw_spec (n : Nat) : ∃ r, s.td.raw ≤ r ∧ (r = s.td.raw ∨ r ≤ n) ∧
    s.reachRaw n = { s with td := { s.td with raw := r } } := by
  unfold State.reachRaw
  split
  · next h =>
    simp only [Bool.and_eq_true, decide_eq_true_eq] at h
    refine ⟨_, Nat.le_of_lt h.2, .inr ?_, rfl⟩
    unfold State.beforeAdj
    split
    · exact Nat.min_le_left _ _
    · exact Nat.le_refl _
  · exact ⟨s.td.raw, Nat.le_refl _, .inl rfl, rfl⟩

theorem State.reachC_spec (c : Int) : ∃ r, s.td.raw ≤ r ∧ s.reachC c = { s with td := { s.td with raw := r } } := by
  unfold State.reachC
  split
  · obtain ⟨r, h, -, e⟩ := s.reachRaw_spec (s.rawOf c)
    exact ⟨r, h, e⟩
  · exact ⟨s.td.raw, Nat.le_refl _, rfl⟩

theorem State.reachNs_spec (t : Int) : ∃ r, s.td.raw ≤ r ∧ s.reachNs t = { s with td := { s.td with raw := r } } :=
  s.reachC_spec _

/-- A count that has come is not waited for. -/
theorem State.reachRaw_past {n : Nat} (h : n ≤ s.td.raw) : s.reachRaw n = s := by
  obtain ⟨r, h1, h2, e⟩ := s.reachRaw_spec n
  rw [e, show r = s.td.raw by omega]

/-- A time that has come is not waited for. -/
theorem State.reachNs_past {t : Int} (h : s.pastNs t = true) : s.reachNs t = s := by
  unfold State.pastNs State.past at h
  unfold State.reachNs State.reachC
  rw [if_neg (by simpa using h)]

@[simp] theorem State.reachRaw_clk (n : Nat) : (s.reachRaw n).clk = s.clk := by
  obtain ⟨r, -, -, h⟩ := s.reachRaw_spec n; simp only [h]
@[simp] theorem State.reachRaw_ring (n : Nat) : (s.reachRaw n).ring = s.ring := by
  obtain ⟨r, -, -, h⟩ := s.reachRaw_spec n; simp only [h]
@[simp] theorem State.reachRaw_es (n : Nat) : (s.reachRaw n).es = s.es := by
  obtain ⟨r, -, -, h⟩ := s.reachRaw_spec n; simp only [h]
@[simp] theorem State.reachRaw_dl (n : Nat) : (s.reachRaw n).dl = s.dl := by
  obtain ⟨r, -, -, h⟩ := s.reachRaw_spec n; simp only [h]
@[simp] theorem State.reachRaw_bk (n : Nat) : (s.reachRaw n).bk = s.bk := by
  obtain ⟨r, -, -, h⟩ := s.reachRaw_spec n; simp only [h]
@[simp] theorem State.reachRaw_pw (n : Nat) : (s.reachRaw n).pw = s.pw := by
  obtain ⟨r, -, -, h⟩ := s.reachRaw_spec n; simp only [h]
@[simp] theorem State.reachRaw_det (n : Nat) : (s.reachRaw n).det = s.det := by
  obtain ⟨r, -, -, h⟩ := s.reachRaw_spec n; simp only [h]
@[simp] theorem State.reachRaw_cfg (n : Nat) : (s.reachRaw n).cfg = s.cfg := by
  obtain ⟨r, -, -, h⟩ := s.reachRaw_spec n; simp only [h]
@[simp] theorem State.reachRaw_sh (n : Nat) : (s.reachRaw n).sh = s.sh := by
  obtain ⟨r, -, -, h⟩ := s.reachRaw_spec n; simp only [h]
@[simp] theorem State.reachRaw_tt (n : Nat) : (s.reachRaw n).tt = s.tt := by
  obtain ⟨r, -, -, h⟩ := s.reachRaw_spec n; simp only [h]
@[simp] theorem State.reachRaw_fh (n : Nat) : (s.reachRaw n).fh = s.fh := by
  obtain ⟨r, -, -, h⟩ := s.reachRaw_spec n; simp only [h]
@[simp] theorem State.reachRaw_ds (n : Nat) : (s.reachRaw n).ds = s.ds := by
  obtain ⟨r, -, -, h⟩ := s.reachRaw_spec n; simp only [h]
@[simp] theorem State.reachRaw_zl (n : Nat) : (s.reachRaw n).zl = s.zl := by
  obtain ⟨r, -, -, h⟩ := s.reachRaw_spec n; simp only [h]
@[simp] theorem State.reachRaw_eg (n : Nat) : (s.reachRaw n).eg = s.eg := by
  obtain ⟨r, -, -, h⟩ := s.reachRaw_spec n; simp only [h]
@[simp] theorem State.reachRaw_slots (n : Nat) : (s.reachRaw n).slots = s.slots := by
  obtain ⟨r, -, -, h⟩ := s.reachRaw_spec n; simp only [h]
@[simp] theorem State.reachRaw_rtn (n : Nat) : (s.reachRaw n).rtn = s.rtn := by
  obtain ⟨r, -, -, h⟩ := s.reachRaw_spec n; simp only [h]
@[simp] theorem State.reachRaw_hm (n : Nat) : (s.reachRaw n).hm = s.hm := by
  obtain ⟨r, -, -, h⟩ := s.reachRaw_spec n; simp only [h]
@[simp] theorem State.reachRaw_obs (n : Nat) : (s.reachRaw n).obs = s.obs := by
  obtain ⟨r, -, -, h⟩ := s.reachRaw_spec n; simp only [h]
@[simp] theorem State.reachRaw_boot (n : Nat) : (s.reachRaw n).boot = s.boot := by
  obtain ⟨r, -, -, h⟩ := s.reachRaw_spec n; simp only [h]
@[simp] theorem State.reachRaw_hi (n : Nat) : (s.reachRaw n).hi = s.hi := by
  obtain ⟨r, -, -, h⟩ := s.reachRaw_spec n; simp only [h]
@[simp] theorem State.reachRaw_cu (n : Nat) : (s.reachRaw n).cu = s.cu := by
  obtain ⟨r, -, -, h⟩ := s.reachRaw_spec n; simp only [h]
@[simp] theorem State.reachRaw_regs (n : Nat) : (s.reachRaw n).regs = s.regs := by
  obtain ⟨r, -, -, h⟩ := s.reachRaw_spec n; simp only [h]
@[simp] theorem State.reachRaw_mem (n : Nat) : (s.reachRaw n).mem = s.mem := by
  obtain ⟨r, -, -, h⟩ := s.reachRaw_spec n; simp only [h]
@[simp] theorem State.reachRaw_host (n : Nat) : (s.reachRaw n).host = s.host := by
  obtain ⟨r, -, -, h⟩ := s.reachRaw_spec n; simp only [h]
@[simp] theorem State.reachRaw_irq (n : Nat) : (s.reachRaw n).irq = s.irq := by
  obtain ⟨r, -, -, h⟩ := s.reachRaw_spec n; simp only [h]
@[simp] theorem State.reachRaw_free (n : Nat) : (s.reachRaw n).free = s.free := by
  obtain ⟨r, -, -, h⟩ := s.reachRaw_spec n; simp only [h]
@[simp] theorem State.reachRaw_pending (n : Nat) : (s.reachRaw n).pending = s.pending := by
  obtain ⟨r, -, -, h⟩ := s.reachRaw_spec n; simp only [h]

@[simp] theorem State.reachC_clk (c : Int) : (s.reachC c).clk = s.clk := by
  obtain ⟨r, -, h⟩ := s.reachC_spec c; simp only [h]
@[simp] theorem State.reachC_ring (c : Int) : (s.reachC c).ring = s.ring := by
  obtain ⟨r, -, h⟩ := s.reachC_spec c; simp only [h]
@[simp] theorem State.reachC_es (c : Int) : (s.reachC c).es = s.es := by
  obtain ⟨r, -, h⟩ := s.reachC_spec c; simp only [h]
@[simp] theorem State.reachC_dl (c : Int) : (s.reachC c).dl = s.dl := by
  obtain ⟨r, -, h⟩ := s.reachC_spec c; simp only [h]
@[simp] theorem State.reachC_bk (c : Int) : (s.reachC c).bk = s.bk := by
  obtain ⟨r, -, h⟩ := s.reachC_spec c; simp only [h]
@[simp] theorem State.reachC_pw (c : Int) : (s.reachC c).pw = s.pw := by
  obtain ⟨r, -, h⟩ := s.reachC_spec c; simp only [h]
@[simp] theorem State.reachC_det (c : Int) : (s.reachC c).det = s.det := by
  obtain ⟨r, -, h⟩ := s.reachC_spec c; simp only [h]
@[simp] theorem State.reachC_cfg (c : Int) : (s.reachC c).cfg = s.cfg := by
  obtain ⟨r, -, h⟩ := s.reachC_spec c; simp only [h]
@[simp] theorem State.reachC_sh (c : Int) : (s.reachC c).sh = s.sh := by
  obtain ⟨r, -, h⟩ := s.reachC_spec c; simp only [h]
@[simp] theorem State.reachC_tt (c : Int) : (s.reachC c).tt = s.tt := by
  obtain ⟨r, -, h⟩ := s.reachC_spec c; simp only [h]
@[simp] theorem State.reachC_fh (c : Int) : (s.reachC c).fh = s.fh := by
  obtain ⟨r, -, h⟩ := s.reachC_spec c; simp only [h]
@[simp] theorem State.reachC_ds (c : Int) : (s.reachC c).ds = s.ds := by
  obtain ⟨r, -, h⟩ := s.reachC_spec c; simp only [h]
@[simp] theorem State.reachC_zl (c : Int) : (s.reachC c).zl = s.zl := by
  obtain ⟨r, -, h⟩ := s.reachC_spec c; simp only [h]
@[simp] theorem State.reachC_eg (c : Int) : (s.reachC c).eg = s.eg := by
  obtain ⟨r, -, h⟩ := s.reachC_spec c; simp only [h]
@[simp] theorem State.reachC_slots (c : Int) : (s.reachC c).slots = s.slots := by
  obtain ⟨r, -, h⟩ := s.reachC_spec c; simp only [h]
@[simp] theorem State.reachC_rtn (c : Int) : (s.reachC c).rtn = s.rtn := by
  obtain ⟨r, -, h⟩ := s.reachC_spec c; simp only [h]
@[simp] theorem State.reachC_hm (c : Int) : (s.reachC c).hm = s.hm := by
  obtain ⟨r, -, h⟩ := s.reachC_spec c; simp only [h]
@[simp] theorem State.reachC_obs (c : Int) : (s.reachC c).obs = s.obs := by
  obtain ⟨r, -, h⟩ := s.reachC_spec c; simp only [h]
@[simp] theorem State.reachC_boot (c : Int) : (s.reachC c).boot = s.boot := by
  obtain ⟨r, -, h⟩ := s.reachC_spec c; simp only [h]
@[simp] theorem State.reachC_hi (c : Int) : (s.reachC c).hi = s.hi := by
  obtain ⟨r, -, h⟩ := s.reachC_spec c; simp only [h]
@[simp] theorem State.reachC_cu (c : Int) : (s.reachC c).cu = s.cu := by
  obtain ⟨r, -, h⟩ := s.reachC_spec c; simp only [h]
@[simp] theorem State.reachC_regs (c : Int) : (s.reachC c).regs = s.regs := by
  obtain ⟨r, -, h⟩ := s.reachC_spec c; simp only [h]
@[simp] theorem State.reachC_mem (c : Int) : (s.reachC c).mem = s.mem := by
  obtain ⟨r, -, h⟩ := s.reachC_spec c; simp only [h]
@[simp] theorem State.reachC_host (c : Int) : (s.reachC c).host = s.host := by
  obtain ⟨r, -, h⟩ := s.reachC_spec c; simp only [h]
@[simp] theorem State.reachC_irq (c : Int) : (s.reachC c).irq = s.irq := by
  obtain ⟨r, -, h⟩ := s.reachC_spec c; simp only [h]
@[simp] theorem State.reachC_free (c : Int) : (s.reachC c).free = s.free := by
  obtain ⟨r, -, h⟩ := s.reachC_spec c; simp only [h]
@[simp] theorem State.reachC_pending (c : Int) : (s.reachC c).pending = s.pending := by
  obtain ⟨r, -, h⟩ := s.reachC_spec c; simp only [h]

@[simp] theorem State.reachNs_clk (t : Int) : (s.reachNs t).clk = s.clk := by
  obtain ⟨r, -, h⟩ := s.reachNs_spec t; simp only [h]
@[simp] theorem State.reachNs_ring (t : Int) : (s.reachNs t).ring = s.ring := by
  obtain ⟨r, -, h⟩ := s.reachNs_spec t; simp only [h]
@[simp] theorem State.reachNs_es (t : Int) : (s.reachNs t).es = s.es := by
  obtain ⟨r, -, h⟩ := s.reachNs_spec t; simp only [h]
@[simp] theorem State.reachNs_dl (t : Int) : (s.reachNs t).dl = s.dl := by
  obtain ⟨r, -, h⟩ := s.reachNs_spec t; simp only [h]
@[simp] theorem State.reachNs_bk (t : Int) : (s.reachNs t).bk = s.bk := by
  obtain ⟨r, -, h⟩ := s.reachNs_spec t; simp only [h]
@[simp] theorem State.reachNs_pw (t : Int) : (s.reachNs t).pw = s.pw := by
  obtain ⟨r, -, h⟩ := s.reachNs_spec t; simp only [h]
@[simp] theorem State.reachNs_det (t : Int) : (s.reachNs t).det = s.det := by
  obtain ⟨r, -, h⟩ := s.reachNs_spec t; simp only [h]
@[simp] theorem State.reachNs_cfg (t : Int) : (s.reachNs t).cfg = s.cfg := by
  obtain ⟨r, -, h⟩ := s.reachNs_spec t; simp only [h]
@[simp] theorem State.reachNs_sh (t : Int) : (s.reachNs t).sh = s.sh := by
  obtain ⟨r, -, h⟩ := s.reachNs_spec t; simp only [h]
@[simp] theorem State.reachNs_tt (t : Int) : (s.reachNs t).tt = s.tt := by
  obtain ⟨r, -, h⟩ := s.reachNs_spec t; simp only [h]
@[simp] theorem State.reachNs_fh (t : Int) : (s.reachNs t).fh = s.fh := by
  obtain ⟨r, -, h⟩ := s.reachNs_spec t; simp only [h]
@[simp] theorem State.reachNs_ds (t : Int) : (s.reachNs t).ds = s.ds := by
  obtain ⟨r, -, h⟩ := s.reachNs_spec t; simp only [h]
@[simp] theorem State.reachNs_zl (t : Int) : (s.reachNs t).zl = s.zl := by
  obtain ⟨r, -, h⟩ := s.reachNs_spec t; simp only [h]
@[simp] theorem State.reachNs_eg (t : Int) : (s.reachNs t).eg = s.eg := by
  obtain ⟨r, -, h⟩ := s.reachNs_spec t; simp only [h]
@[simp] theorem State.reachNs_slots (t : Int) : (s.reachNs t).slots = s.slots := by
  obtain ⟨r, -, h⟩ := s.reachNs_spec t; simp only [h]
@[simp] theorem State.reachNs_rtn (t : Int) : (s.reachNs t).rtn = s.rtn := by
  obtain ⟨r, -, h⟩ := s.reachNs_spec t; simp only [h]
@[simp] theorem State.reachNs_hm (t : Int) : (s.reachNs t).hm = s.hm := by
  obtain ⟨r, -, h⟩ := s.reachNs_spec t; simp only [h]
@[simp] theorem State.reachNs_obs (t : Int) : (s.reachNs t).obs = s.obs := by
  obtain ⟨r, -, h⟩ := s.reachNs_spec t; simp only [h]
@[simp] theorem State.reachNs_boot (t : Int) : (s.reachNs t).boot = s.boot := by
  obtain ⟨r, -, h⟩ := s.reachNs_spec t; simp only [h]
@[simp] theorem State.reachNs_hi (t : Int) : (s.reachNs t).hi = s.hi := by
  obtain ⟨r, -, h⟩ := s.reachNs_spec t; simp only [h]
@[simp] theorem State.reachNs_cu (t : Int) : (s.reachNs t).cu = s.cu := by
  obtain ⟨r, -, h⟩ := s.reachNs_spec t; simp only [h]
@[simp] theorem State.reachNs_regs (t : Int) : (s.reachNs t).regs = s.regs := by
  obtain ⟨r, -, h⟩ := s.reachNs_spec t; simp only [h]
@[simp] theorem State.reachNs_mem (t : Int) : (s.reachNs t).mem = s.mem := by
  obtain ⟨r, -, h⟩ := s.reachNs_spec t; simp only [h]
@[simp] theorem State.reachNs_host (t : Int) : (s.reachNs t).host = s.host := by
  obtain ⟨r, -, h⟩ := s.reachNs_spec t; simp only [h]
@[simp] theorem State.reachNs_irq (t : Int) : (s.reachNs t).irq = s.irq := by
  obtain ⟨r, -, h⟩ := s.reachNs_spec t; simp only [h]
@[simp] theorem State.reachNs_free (t : Int) : (s.reachNs t).free = s.free := by
  obtain ⟨r, -, h⟩ := s.reachNs_spec t; simp only [h]
@[simp] theorem State.reachNs_pending (t : Int) : (s.reachNs t).pending = s.pending := by
  obtain ⟨r, -, h⟩ := s.reachNs_spec t; simp only [h]

end Sys2Proof.Machine
end

