-- ==== Sys2Proof/Tests/Slice0.lean ====
section
/-! SUPPORT.  Tests of one step each, ill-formed commands, and states that meet the premises of the statements. -/

namespace Sys2Proof.Tests

open Machine

set_option Elab.async false

/-- A module that runs: every island ON, every clock and the link up, its image running. -/
def live : State :=
  { pw := { isl := List.replicate 499 { st := .on } }
    clk := { running := [.aon, .tide, .moor, .pilot, .pcie, .hbmc, .rdc], ocxo := true, tideLock := true, refOut := true }
    boot := { rom := true, running := true, bootOk := true }
    hi := { linkUp := true, perstHigh := true, vfEnable := true } }

/-- Array g ENABLED, in a state of its sequencer. -/
def esAt (g : Nat) (e : EsArray) : State := { live with es := [(g, e)], regs := [(esReg g 0, 1)] }

/-- A stage of one column of k FP8 weights at the base of RD's SRAM. -/
def aStage (k : Nat) : EsStage :=
  { wsrc := 0x030000000000, wscl := 0, nAct := 1, kAct := k, conj := false, wFmt := 1, pitch := 0, spitch := 0 }

def aTile (k : Nat) : EsTile := { stage := aStage k, cols := [List.replicate k 0x38], scales := [], ecc := false, beyond := false }

/-- A pass of m FP8 rows to FP32 outputs. -/
def aPass (m w : Nat) : EsPass :=
  { asrc := 0x030000001000, ascl := 0, dst := 0x030000002000, acc := false, irq := true, wAction := w, m := m, dpitch := 8,
    apitch := 1, aspitch := 0, eMin := 0, exact := true, oFmt := 5, aFmt := 1, sym := false, trunc := false, sh := 0, op := 0,
    layer := 0, seq := 1 }

/-- The state that an outcome answers, live where it answers none. -/
def after : Out → State
  | .next t => t
  | _ => live

/-- The outcome is a next state. -/
def answers : Out → Bool
  | .next _ => true
  | _ => false
/-! ### Witnesses: chapter 01 -/

theorem wit_RingRoute : (Die.hd ≠ Die.pd 0 ∧ ClkDomain.moor ∈ live.clk.running ∧ live.dieOn .hd = true ∧
    live.dieOn (.pd 0) = true ∧ live.masterHalted 0x09C = false ∧
    ∀ p ∈ ringBridges .hd (.pd 0), p ∉ live.ring.down) := by decide +kernel

/-- A transfer on the ring from HD to RD. -/
def aTransfer (cls : RingClass) (made : Nat) : Transfer :=
  { src := .hd, dst := .rd, master := 0x09C, cls := cls, clockwise := true, hops := 5, made := made, payload := [1] }

/-- PD0 at position 1 and RD at 5; HD at 0 and RD at 5 lie five hops apart. -/
theorem test_ring_five_hops : ringClockwise .hd .rd = true ∧ ringClockwise .rd .hd = false ∧ ringHops .rd .hd = 5 := by
  decide

/-- The worked example of R19: from PD0 to GD2 counter-clockwise through HD, PD3 and GD3. -/
theorem test_ring_example : ringClockwise (.pd 0) (.gd 2) = false ∧ ringBridges (.pd 0) (.gd 2) = [0, 9, 8, 7] ∧
    ringLatency (.pd 0) (.gd 2) = 64 := by decide

theorem wit_PackageEvents :
    (let x := aTransfer .bulk 2
     let s : State := { live with ring := { flight := [x] } }
     s.ring.flight = [] ++ x :: [] ∧ x.isOf .hd .rd .bulk = true ∧ s.obs.stopped = false) ∧
    (let r (l : List Transfer) : Ring := { flight := l }
     (r [aTransfer .bulk 0, aTransfer .radio 0]).pickOf 0 true .radio = some (1, false) ∧
       (r [aTransfer .bulk 0, aTransfer .control 0]).pickOf 0 true .radio = none ∧
       (r [aTransfer .bulk 0, aTransfer .control 0]).pickOf 0 true .control = some (1, false) ∧
       (r [aTransfer .bulk 1]).pickOf 1 true .control = none ∧ (r [aTransfer .bulk 1]).pickOf 1 true .bulk = some (0, true)) ∧
    live.fatal = false ∧
    (ClkDomain.fh.always = false ∧ State.reset.domainUsed .fh = false ∧
      (ClkDomain.rdc.always = false ∧ State.reset.domainUsed .rdc = false ∧ State.reset.planLoaded = false)) ∧
    (let s : State := { live with clk := { live.clk with tideLock := false } }
     s.boot.powered = true ∧ s.clk.ocxo = true ∧ s.clk.tideLock = false) := by decide +kernel

/-- R17: at a stop a transit and a local transfer of one class go in turn. -/
theorem test_ring_turn :
    let r : Ring := { flight := [aTransfer .bulk 1, { aTransfer .bulk 0 with src := .pd 0, hops := 4 }] }
    r.pickOf 1 true .bulk = some (1, false) ∧ (r.grant 1 true).pickOf 1 true .bulk = some (0, true) := by decide +kernel

theorem wit_EspalierControl_5 :
    let s := esAt 83 { sfifo := [aStage 1, aStage 2], pfifo := List.replicate 8 (aPass 1 0) }
    Safe s ∧ Drives (.core .rd 0) (arrayDie 83) s ∧ (s.esOf 83).halt ≠ .error ∧ (s.esOf 83).sStall = [] := by
  unfold Drives Safe Acts; decide +kernel

/-! ### Witnesses: chapter 03 -/

theorem wit_EspalierControl_1 :
    let s := esAt 83 { halt := .error, errCode := 7, pushed := 65535, done := 65534 }
    Safe s ∧ Drives (.core .rd 3) (arrayDie 83) s ∧ (s.esOf 83).halt = .error := by
  unfold Drives Safe Acts; decide +kernel

theorem wit_EspalierControl_2 :
    let s := esAt 0 { halt := .aborted, errCode := 7 }
    Safe s ∧ Drives (.core (.pd 0) 3) (arrayDie 0) s ∧ (s.esOf 0).halt = .aborted ∧ (s.esOf 0).halt ≠ .error := by
  unfold Drives Safe Acts; decide +kernel

theorem wit_EspalierControl_3 :
    let s := esAt 79 { pfifo := List.replicate 7 (aPass 1 0), pushed := 65535 }
    Safe s ∧ Drives (.core (.gd 3) 1) (arrayDie 79) s ∧ (s.esOf 79).halt ≠ .error ∧ (s.esOf 79).pStall = [] ∧
      (s.esOf 79).pfifo.length < 8 := by
  unfold Drives Safe Acts; decide +kernel

theorem wit_EspalierControl_4 :
    Safe live ∧ (live.isPf .pf || live.coreMayWrite .pf (arrayDie 83)) = true := by
  unfold Safe; decide +kernel

theorem wit_EspalierStages_1 :
    let s := esAt 83 { sfifo := [aStage 512] }
    Safe s ∧ s.halted (arrayUnit 83) = false ∧ s.esGoes 83 = true ∧ (s.esOf 83).fetching = false ∧
      (s.esOf 83).port = none ∧ (s.esOf 83).headStage.isSome = true := by
  unfold Safe; decide +kernel

theorem wit_EspalierStages_2 :
    let s := esAt 80 { again := [aStage 2], sfifo := [aStage 1], fetching := true }
    Safe s ∧ s.halted (arrayUnit 80) = false ∧ (s.esOf 80).headStage = some (aStage 2) ∧
      s.islOn (arrayIsland 80) = true ∧ (s.esOf 80).fetching = true := by
  unfold Safe; decide +kernel

theorem wit_EspalierStages_3 :
    let s := esAt 0 { sfifo := [aStage 1], port := some (aTile 1) }
    Safe s ∧ s.halted (arrayUnit 0) = false ∧ s.islOn (arrayIsland 0) = true ∧ (s.esOf 0).port = some (aTile 1) ∧
      (s.esOf 0).shadow = none ∧ (s.esOf 0).swapping = false ∧ (s.esOf 0).headStage.isSome = true := by
  unfold Safe; decide +kernel

theorem wit_EspalierStages_4 :
    let s := esAt 79 { pfifo := [aPass 1 1], shadow := some (aTile 1), cntSwap := 2 ^ 64 - 1 }
    Safe s ∧ s.halted (arrayUnit 79) = false ∧ (s.esOf 79).pfifo = aPass 1 1 :: [] ∧ s.esGoes 79 = true ∧
      (aPass 1 1).wAction = 1 ∧ (s.esOf 79).swapping = false ∧ (s.esOf 79).shadow = some (aTile 1) ∧
      (∀ r ∈ (s.esOf 79).runs, r.waiting = false) := by
  unfold Safe; decide +kernel

theorem wit_EspalierStages_5 :
    let s := esAt 64 { halt := .aborting none }
    Safe s ∧ s.halted (arrayUnit 64) = false ∧ (s.esOf 64).halt = .aborting none := by
  unfold Safe; decide +kernel

theorem wit_EspalierStages_6 :
    let s := esAt 63 { halt := .aborting (some (65535, 0)) }
    Safe s ∧ s.halted (arrayUnit 63) = false ∧ (s.esOf 63).halt = .aborting (some (65535, 0)) := by
  unfold Safe; decide +kernel

/-- A run of array 83 of m rows, w of them written, which waits for row u. -/
def aRun (m w u : Nat) : EsRun :=
  { pass := aPass m 1, tile := aTile 1, upto := u, written := w
    rows := List.replicate u { elems := [0x38], scales := [], ecc := false, beyond := false } }

/-- One whose tile met an uncorrectable error. -/
def badRun : EsRun := { aRun 1 0 1 with tile := { aTile 1 with ecc := true } }

theorem wit_EspalierPasses_1 :
    let s := esAt 83 { pfifo := [aPass 2 0], active := some (aTile 1) }
    Safe s ∧ s.halted (arrayUnit 83) = false ∧ (s.esOf 83).pfifo = aPass 2 0 :: [] ∧ (s.esOf 83).pStall = [] ∧
      (s.esOf 83).active = some (aTile 1) ∧ s.passStartCode 83 (aPass 2 0) (some (aTile 1)) = 0 ∧
      Fmt.ofCode (aPass 2 0).aFmt = some .e4m3 ∧ s.esGoes 83 = true ∧ (aPass 2 0).wAction ≠ 1 ∧
      (∀ r ∈ (s.esOf 83).runs, r.waiting = false) := by
  unfold Safe; decide +kernel

theorem wit_EspalierPasses_2 :
    let s := esAt 80 { pfifo := [aPass 0 1], swapping := true }
    Safe s ∧ s.halted (arrayUnit 80) = false ∧ (s.esOf 80).pfifo = aPass 0 1 :: [] ∧
      s.passStartCode 80 (aPass 0 1) (s.esOf 80).active ≠ 0 ∧ s.esGoes 80 = true ∧ (s.esOf 80).swapping = true ∧
      (∀ r ∈ (s.esOf 80).runs, r.waiting = false) := by
  unfold Safe; decide +kernel

theorem wit_EspalierPasses_3 :
    let s := esAt 83 { runs := [aRun 1 1 1, aRun 2 0 1] }
    Safe s ∧ s.halted (arrayUnit 83) = false ∧ (s.esOf 83).runs.find? (·.waiting) = some (aRun 2 0 1) ∧
      s.islOn (arrayIsland 83) = true := by
  unfold Safe; decide +kernel

theorem wit_EspalierPasses_4 :
    let s := esAt 83 { runs := [aRun 2 0 1] }
    Safe s ∧ s.halted (arrayUnit 83) = false ∧ (s.esOf 83).writer = some (aRun 2 0 1) ∧
      s.islOn (arrayIsland 83) = true ∧
      (∀ m ∈ (aRun 2 0 1).group, m < (aRun 2 0 1).upto ∧ s.rowError 83 (aRun 2 0 1) m = none) := by
  unfold Safe; decide +kernel

theorem wit_EspalierPasses_5 :
    let s := esAt 83 { runs := [aRun 1 1 1] }
    Safe s ∧ s.halted (arrayUnit 83) = false ∧ (s.esOf 83).runs = aRun 1 1 1 :: [] ∧
      (aRun 1 1 1).pass.m ≤ (aRun 1 1 1).written := by
  unfold Safe; decide +kernel

theorem wit_EspalierPasses_6 :
    let s := esAt 83 { runs := [badRun] }
    Safe s ∧ s.halted (arrayUnit 83) = false ∧ (s.esOf 83).writer = some badRun ∧
      badRun.group.filterMap (s.rowError 83 badRun) = 6 :: [] ∧ (∀ m ∈ badRun.group, m < badRun.upto) ∧
      (s.esOf 83).halt = .none := by
  unfold Safe; decide +kernel

theorem wit_EspalierStores :
    let s := esAt 83 { runs := [aRun 1 0 1] }
    (s.esOf 83).writer = some (aRun 1 0 1) ∧ (aRun 1 0 1).pass.formatBad = false ∧
      (aRun 1 0 1).pass.tileBad (aRun 1 0 1).tile.stage = false ∧
      Fmt.ofCode (aRun 1 0 1).pass.oFmt = some .fp32 ∧ answers (exec (.esRowWrite ⟨83, [0x030000002000]⟩) s) = true := by
  decide +kernel

theorem wit_EspalierAlone :
    answers (exec (.esCtrlStop (.core .rd 0) 83) live) = true := by
  decide +kernel

/-! ### Witnesses: chapter 04 -/

/-- The Drip sequencer of GDn ENABLED, groups 0 to 31 in Drip mode, in a state of its sequencer. -/
def dlAt (n : Nat) (e : DripSeq) : State :=
  { live with dl := [(n, e)], regs := [(dlReg n 0, 1), (dlReg n 0x040, 0)] }

/-- A job of one lane of one group: a vector of 8 FP8 elements and one column, in GD3. -/
def aJob (lanes : Nat) : DlJob :=
  { first := 0, count := 1, lanes := lanes, ks := 8, v := 1, cols := 1, word := 0x7FFF, sword := 0, wFmt := 1, aFmt := 1
    oFmt := 5, acc := false, irq := true, eMin := 0, asrc := 0x020310000000, dst := 0x020310001000, apitch := 1, dpitch := 1
    op := 0, layer := 0, seq := 1 }

def aVec : ActRow := { elems := List.replicate 8 0x38, scales := [], ecc := false, beyond := false }

theorem wit_DripCommands_1 :
    let s := dlAt 3 { halt := .error, errCode := 7, done := 65535 }
    Safe s ∧ Drives (.core (.gd 3) 1) (.gd 3) s ∧ (s.dlOf 3).halt = .error ∧ (s.dlOf 3).run = none := by
  unfold Drives Safe Acts; decide +kernel

theorem wit_DripCommands_2 :
    let s := dlAt 0 { halt := .aborted, jfifo := List.replicate 7 (aJob 1), pushed := 65535, run := some (aJob 1, [aVec]) }
    Safe s ∧ Drives (.core (.gd 0) 0) (.gd 0) s ∧ (s.dlOf 0).halt = .aborted ∧ (s.dlOf 0).halt ≠ .error ∧
      (s.dlOf 0).jStall = [] ∧ (s.dlOf 0).jfifo.length < 8 ∧ (s.dlOf 0).run = some (aJob 1, [aVec]) := by
  unfold Drives Safe Acts; decide +kernel

theorem wit_DripCommands_9 :
    let s := dlAt 0 { jfifo := List.replicate 8 (aJob 1), jStall := [aJob 2] }
    Safe s ∧ Drives (.core (.gd 0) 0) (.gd 0) s ∧ (s.dlOf 0).jStall = aJob 2 :: [] ∧ (s.dlOf 0).run = none := by
  unfold Drives Safe Acts; decide +kernel

theorem wit_DripCommands_3 :
    Safe live ∧ (live.isPf .pf || live.coreMayWrite .pf (.gd 3)) = true := by
  unfold Safe; decide +kernel

theorem wit_DripCommands_4 :
    let s := dlAt 3 { jfifo := [aJob 1] }
    Safe s ∧ s.halted .inference = false ∧ (s.dlOf 3).jfifo = aJob 1 :: [] ∧ s.dlGoes 3 = true ∧
      (s.dlOf 3).loaded = none := by
  unfold Safe; decide +kernel

theorem wit_DripCommands_5 :
    let s := dlAt 3 { jfifo := [aJob 1], loaded := some [aVec], cntBusy := 2 ^ 64 - 1 }
    Safe s ∧ s.halted .inference = false ∧ (s.dlOf 3).jfifo = aJob 1 :: [] ∧ (s.dlOf 3).jStall = [] ∧
      (s.dlOf 3).loaded = some [aVec] ∧ s.dlGoes 3 = true ∧ (s.dlOf 3).run = none ∧ (s.jobStartCode 3 (aJob 1)).1 = 0 := by
  unfold Safe; decide +kernel

theorem wit_DripCommands_6 :
    let s := dlAt 3 { jfifo := [aJob 129], loaded := some [aVec] }
    Safe s ∧ s.halted .inference = false ∧ (s.dlOf 3).jfifo = aJob 129 :: [] ∧ (s.dlOf 3).loaded = some [aVec] ∧
      s.dlGoes 3 = true ∧ (s.dlOf 3).run = none ∧ (s.jobStartCode 3 (aJob 129)).1 ≠ 0 := by
  unfold Safe; decide +kernel

theorem wit_DripCommands_7 :
    let s := dlAt 3 { run := some (aJob 1, [aVec]), done := 65535 }
    Safe s ∧ s.halted .inference = false ∧ (s.dlOf 3).run = some (aJob 1, [aVec]) ∧
      s.jobError 3 (aJob 1) [aVec] = none ∧ Fmt.ofCode (aJob 1).aFmt = some .e4m3 ∧
      Fmt.ofCode (aJob 1).wFmt = some .e4m3 ∧ Fmt.ofCode (aJob 1).oFmt = some .fp32 := by
  unfold Safe; decide +kernel

theorem wit_DripCommands_8 :
    let v : ActRow := { aVec with ecc := true }
    let s := dlAt 3 { run := some (aJob 1, [v]) }
    Safe s ∧ s.halted .inference = false ∧ (s.dlOf 3).run = some (aJob 1, [v]) ∧
      s.jobError 3 (aJob 1) [v] = some (6, 0) := by
  unfold Safe; decide +kernel

/-! ### Witnesses: chapter 05 -/

/-- The Dredge of a die that stands at a phase. -/
def drAt (d : Die) (x : Dredge) : State := { live with bk := { dredge := [(d.index, x)] } }

theorem wit_BankControl_1 :
    Safe live ∧ Acts .pf live ∧ live.bkMayWrite .pf .hd = true ∧ (191 : Fin 192).val < ruleRegs (.pd 3) := by
  unfold Acts Safe; decide +kernel

theorem wit_BankControl_2 :
    let k := wordKey (.gd 3) 12287 32767
    let s : State := { live with bk := { writeback := [k], err := [(k, 1)] } }
    (12287 : Fin 12288).val < bankCount (.gd 3) ∧ k ∈ s.bk.writeback := by
  decide +kernel

theorem wit_BankControl_3 :
    let s := drAt (.gd 3) { region := 63, bank := 12287 }
    tsorted 0 s.bk.dredge = true ∧ s.halted .inference = false ∧ s.dieOn (.gd 3) = true ∧
      s.regBit (bkReg (.gd 3) 0x0200) 0 = true ∧ (s.dredgeOf (.gd 3)).phase = .idle ∧
      (s.dredgeOf (.gd 3)).started = false ∧ s.dredgeable (.gd 3) (s.dredgeNext (.gd 3)) = true := by
  decide +kernel

theorem wit_BankControl_4 :
    let s : State := { drAt (.gd 3) { region := 62, started := true, lastStart := 1 } with pw := { isl := List.replicate 371 { st := .on } ++ List.replicate 100 {} ++ [{ st := .on }] } }
    let due := (s.dredgeOf (.gd 3)).lastStart + ceilDiv (s.regB (bkReg (.gd 3) 0x0204) 15 0 * 98304) 10
    s.halted .inference = false ∧ s.dieOn (.gd 3) = true ∧ s.regBit (bkReg (.gd 3) 0x0200) 0 = true ∧
      (s.dredgeOf (.gd 3)).phase = .idle ∧ (s.dredgeOf (.gd 3)).started = true ∧ s.td.raw < due ∧
      due ≤ (s.reachRaw due).td.raw ∧ s.dredgeable (.gd 3) (s.dredgeNext (.gd 3)) = false := by
  decide +kernel

theorem wit_BankControl_5 :
    let s := drAt .hd { phase := .copy }
    tsorted 0 s.bk.dredge = true ∧ s.halted .inference = false ∧ (s.dredgeOf .hd).phase = .copy := by
  decide +kernel

/-- A request of a master to a bank, alone there. -/
def aReq (m : Fin 512) (op : BankOp) : BankReq := { master := m, ring := .bulk, waited := 0, op := op }

theorem wit_BankControl_6 :
    let s := drAt (.pd 0) { phase := .march, region := 63 }
    s.halted .inference = false ∧ (s.dredgeOf (.pd 0)).phase = .march := by
  decide +kernel

theorem wit_BankControl_7 :
    let s := drAt (.pd 3) { phase := .restore, region := 63, bank := 3071 }
    tsorted 0 s.bk.dredge = true ∧ s.halted .inference = false ∧ (s.dredgeOf (.pd 3)).phase = .restore := by
  decide +kernel

theorem wit_BankAnswers_1 :
    let a : PAddr := 0x02030000FFF8
    Safe live ∧ tsorted 0 live.bk.rsp = true ∧ tsorted 0 live.bk.err = true ∧ live.masterDown 0x060 = false ∧
      live.fencedAccess 0x060 a.toNat = false ∧ live.accessStatus 0x060 a.toNat = .ok ∧
      bankOf (live.key (a.toNat / 8 * 8)) = some (.gd 3, 127, 63) ∧ live.wordErr (live.key (a.toNat / 8 * 8)) = 0 ∧
      live.granted (.gd 3) 127 (aReq 0x060 .read) ((aReq 0x060 .read).port (.gd 3)) [aReq 0x1F9 .read] = true ∧
      live.granted (.gd 3) 127 (aReq 0x060 (.write 0xFF 7)) ((aReq 0x060 (.write 0xFF 7)).port (.gd 3)) [] = true ∧
      live.granted (.gd 3) 127 (aReq 0x060 .read) .b [] = true ∧ a.toNat % atomicBytes 5 = 0 ∧
      (atomicOp 5 (live.wordAt (live.key (a.toNat / 8 * 8))).toNat 7).isSome = true := by
  unfold Safe; decide +kernel

theorem wit_BankAnswers_2 :
    let a : PAddr := 0x0300_0000_0004
    live.accessStatus 0 a.toNat = .ok ∧ a.toNat % atomicBytes 1 = 0 ∧ (atomicOp 1 0 5).isSome = true ∧
      a.toNat % atomicBytes 2 ≠ 0 ∧ (bankOf (live.key (a.toNat / 8 * 8))).isSome = true := by
  decide +kernel

theorem wit_BankAnswers_3 :
    let s : State := { live with det := { active := true } }
    s.det.active = true ∧ s.accessStatus 0 0x0300_0000_0004 = .ok := by
  decide +kernel

theorem wit_BankAnswers_4 :
    place 0x005FFFFFFFF8 = .hbm 7 0xBFFFFFFF8 ∧ live.islOn (17 * (7 / 2) + 16) = true ∧ 0x005FFFFFFFF8 % 8 = 0 ∧
      live.wordErr 0x005FFFFFFFF8 = 0 ∧ State.reset.islOn (17 * (7 / 2) + 16) = false := by
  decide +kernel

theorem wit_BankAccessFrame :
    let a : PAddr := 0x0300_0000_0008
    Safe live ∧
      answers (exec (.bankAccess (aReq 0 (.write 0x0F 7)) a (some (aReq 0x120 (.write 0xF0 9))) [] 1 0) live) = true ∧
      answers (exec (.bankAtomic (aReq 0 .read) a 1 7 (some (aReq 0x120 .read)) [] 0) live) = true ∧
      answers (exec (.hbmAtomic 0 0x8 1 7 true) live) = true := by
  unfold Safe; decide +kernel

/-- R95: of the requests that wait at port B, one of RADIO goes before one of BULK. -/
theorem test_port_b_class :
    let bulk := aReq 0x1F9 .read
    let radio : BankReq := { aReq 0x0D0 .read with ring := .radio }
    live.granted (.gd 3) 0 bulk .b [radio] = false ∧ live.granted (.gd 3) 0 radio .b [bulk] = true := by
  decide +kernel

/-! ### Witnesses: chapter 06 -/

/-- A descriptor of one sequence: opcode, formats (A + 16 W + 256 output), M, N, K, and RAGGED. -/
def aDesc (op f m n k rag : Nat) : BitVec 512 :=
  BitVec.ofNat 512 (op + f * 2 ^ 48 + m * 2 ^ 64 + n * 2 ^ 96 + k * 2 ^ 128 + 2 ^ 464 + rag * 2 ^ 488)

/-- FP8 operands, or block FP4, to FP32. -/
def f8 : Nat := 1 + 16 + 256 * 5
def f4 : Nat := 3 + 16 * 3 + 256 * 5

def aDescRun (q : BitVec 512) (chunks : Nat) : DescRun :=
  { desc := q, dseq := 1, path := 0, chunks := chunks, tiles := (Desc.parse q).blocks * chunks, det := false, lens := []
    staged := true }

def aCtx (r : Option DescRun) : Ctx :=
  { vf := 512, slot := 15, arrays := [0, 15], scratch := 0x010000000000, scratchLen := 0x100000, extent := 0x010008000000
    extentLen := 0x100000, run := r }

/-- Context 7 of PD0, which runs a descriptor. -/
def ctxAt (r : DescRun) : State := { live with sh := { ctx := [(7, aCtx (some r))] } }

theorem wit_DescriptorArrives_place :
    let q : QDesc := { desc := aDesc 1 f8 1 1 1 0 }
    let s : State := { live with sh := { ctx := [(7, aCtx none)] } }
    let r : State := ctxAt (aDescRun q.desc 1)
    (s.settle.sh.ctx.find? (fun e => e.1 / 8 == (Die.pd 0).index && e.2.vf == 512 && e.2.slot == 15)).map (·.1) = some 7 ∧
      (s.settle.sh.ctx.all (fun e => e.2.run.isNone && e.2.st == .running)) = true ∧
      (r.settle.sh.ctx.find? (fun e => e.1 / 8 == (Die.pd 0).index && e.2.vf == 512 && e.2.slot == 15)).map (·.2.run.isSome) = some true := by
  decide +kernel

/-- A descriptor whose operands and result lie in PD0's SRAM, A at 0x010010000000. -/
def placed (q : BitVec 512) (a : Nat) : BitVec 512 :=
  q ||| BitVec.ofNat 512 (a * 2 ^ 160 + 0x010010001000 * 2 ^ 208 + 0x010010002000 * 2 ^ 256)

theorem wit_TilingSteps_0 :
    let r := { aDescRun (aDesc 1 f8 1 1 1 0) 1 with staged := false }
    let bad : State := { ctxAt r with bk := { err := [(0, 3)] } }
    (ctxAt r).ctxOf (ctxKey (.pd 0) 7) = some (aCtx (some r)) ∧ (aCtx (some r)).run = some r ∧ r.staged = false ∧
      (ctxAt r).copyCode (.pd 0) (Desc.parse r.desc) = 0 ∧ (ctxAt r).outside (.pd 0) (Desc.parse r.desc) ≠ [] ∧
      bad.copyCode (.pd 0) (Desc.parse r.desc) ≠ 0 := by
  decide +kernel

theorem wit_TilingSteps_idle :
    let s : State := { live with sh := { ctx := [(7, aCtx none)] } }
    s.halted (dieUnit (.pd 0)) = false ∧ s.ctxOf (ctxKey (.pd 0) 7) = some (aCtx none) ∧ (aCtx none).run = none ∧
      15 ∈ (aCtx none).arrays := by
  decide +kernel

theorem wit_DescriptorArrives :
    live.halted (dieUnit .rd) = false ∧ live.dieOn .rd = true ∧ 0 < maxCtx .rd ∧
      (Desc.parse (aDesc 1 f8 1 1 1 0)).opcode = 1 ∧ (Desc.parse (aDesc 2 f8 1 1 1 0)).opcode = 2 ∧
      (Desc.parse (aDesc 4 f8 1 1 1 0)).opcode = 4 ∧ (Desc.parse (aDesc 5 f8 1 1 1 0)).opcode = 5 ∧
      (Desc.parse (aDesc 8 f8 1 1 1 0)).opcode = 8 ∧ 0x40 ≤ (Desc.parse (aDesc 0x7F f8 1 1 1 0)).opcode ∧
      (Desc.parse (aDesc 0x7F f8 1 1 1 0)).opcode < 0x80 ∧
      (¬ ((Desc.parse (aDesc 0x80 f8 1 1 1 0)).opcode ∈ [1, 2, 4, 5, 8] ∨ (Desc.parse (aDesc 0x80 f8 1 1 1 0)).isRoutine = true)) ∧
      16 ≤ (Desc.parse (aDesc (1 + 16 * 256) f8 1 1 1 0)).flags := by
  decide +kernel

theorem wit_TilingSteps_1 :
    let r := aDescRun (aDesc 1 f4 1 1 16 0) 1
    let s := ctxAt r
    s.halted (dieUnit (.pd 0)) = false ∧ s.ctxOf (ctxKey (.pd 0) 7) = some (aCtx (some r)) ∧
      (aCtx (some r)).run = some r ∧ (aCtx (some r)).st = .running ∧ (Desc.parse r.desc).fa = .fp4 ∧
      (Desc.parse r.desc).fo ≠ .lps ∧ 0 < (Desc.parse r.desc).blocks ∧ (∀ q ∈ r.spans, q.block ≠ 0) := by
  decide +kernel

theorem wit_TilingSteps_2 :
    let r := aDescRun (aDesc 1 f8 1 1 1 0) 1
    let s := ctxAt r
    (aCtx (some r)).st = .running ∧ r.staged = true ∧ s.handedBack (.pd 0) (aCtx (some r)) = false ∧ r.path ≠ 5 ∧
      15 ∈ (aCtx (some r)).arrays ∧ 15 ∉ (aCtx (some r)).rel ∧ s.islOn (arrayIsland 15) = true ∧ r.roomFor 15 = true ∧
      (Desc.parse r.desc).fa ≠ .fp4 ∧ s.loadNat (aCtx (some r)).tally 8 % 2 ^ 32 < r.tiles ∧
      r.tileSkipped (Desc.parse r.desc) 0 = false ∧
      (aDescRun (aDesc 1 f8 0 1 1 0) 1).tiles ≤ s.loadNat (aCtx (some r)).tally 8 % 2 ^ 32 := by
  decide +kernel

theorem wit_TilingSteps_3 :
    let r := aDescRun (aDesc 1 f8 1 1 1 1) 1
    let p := { aDescRun (aDesc 1 f8 1 1 1 0) 1 with path := 5, running := [{ array := 63, index := 0, next := 0 }] }
    0 < r.tiles ∧ r.tileSkipped (Desc.parse r.desc) 0 = true ∧ p.path = 5 ∧ (∀ q ∈ p.running, q.array ≠ 64) := by
  decide +kernel

theorem wit_TilingSteps_4 :
    let tr : TileRun := { array := 15, index := 1, next := 0 }
    let r := { aDescRun (aDesc 1 f8 1 1 1025 0) 2 with running := [tr] }
    let s := ctxAt r
    let x := Desc.parse r.desc
    let parts : List Partial := r.parts ++ [{ block := tr.index % x.blocks, chunk := tr.index / x.blocks, vals := (s.chunkElems r x tr.index).1 }]
    s.ctxOf (ctxKey (.pd 0) 7) = some (aCtx (some r)) ∧ 15 ∈ (aCtx (some r)).arrays ∧
      r.running.find? (fun q => q.array == 15) = some tr ∧ r.running.filter (fun q => q.array == 15) = [tr] ∧
      bitOf (s.loadNat ((aCtx (some r)).handback 15) 8) 63 = false ∧ s.tileCode r x tr.index = 0 ∧
      (parts.filter (fun q => q.block == tr.index % x.blocks)).length ≠ r.chunks := by
  decide +kernel

theorem wit_TilingSteps_5 :
    let r := aDescRun (aDesc 1 f8 1 1 1 0) 1
    let s : State := { ctxAt r with mem := [(0x010000000080 + 8 * 15 + 7, 0x80)] }
    s.ctxOf (ctxKey (.pd 0) 7) = some (aCtx (some r)) ∧ (aCtx (some r)).st = .running ∧
      bitOf (s.loadNat ((aCtx (some r)).handback 15) 8) 63 = true ∧ 15 ∈ (aCtx (some r)).arrays ∧
      15 ∉ (aCtx (some r)).rel ∧ s.islOn (arrayIsland 15) = true ∧ 15 < (dieArrays (.pd 0)).length ∧
      r.roomFor 15 = true ∧ (∀ q ∈ r.later, arrayInDie q.array ≠ 15) := by
  decide +kernel

/-- A tile that completes its block on the single path, and one whose operand word is lost. -/
theorem wit_TilingSteps_6 :
    let tr : TileRun := { array := 15, index := 0, next := 0 }
    let r := { aDescRun (placed (aDesc 1 f8 1 1 1 0) 0x010010000000) 1 with running := [tr] }
    let s := ctxAt r
    let x := Desc.parse r.desc
    let mine : List Partial := [{ block := 0, chunk := 0, vals := (s.chunkElems r x 0).1 }]
    let u : State := s.noteRanges (tileMaster (.pd 0) r.path 15) (s.tileRanges r x 0)
    let v : State := u.ranPasses 15 512 x.fa (r.blockDims x 0 0 0).1 (r.passes x 0 - tr.next) 0
    let bad : State := { s with bk := { err := [(0x010010000000, 3)] } }
    s.tileCode r x 0 = 0 ∧ mine.length = r.chunks ∧ r.path = 0 ∧ s.selfOverlap x = false ∧
      (v.writeBlock r x 0 mine).2.2 = false ∧ bad.tileCode r x 0 = 6 := by
  decide +kernel

theorem wit_DescriptorRefused :
    live.regBit trcCfg 31 = false ∧ tsorted 0 live.sh.ctx = true ∧
      (live.checkDesc (.pd 0) (Desc.parse (aDesc 1 f8 0 1 1 0)) 1 0).1 ≠ 0 := by
  decide +kernel

/-! ### Witnesses: chapter 07 -/

/-- A submission entry: OPC, FLAGS, slot, RID, NTOK, MAX_NEW, TTL. -/
def anEntry (opc flags slot rid ntok maxNew ttl : Nat) : BitVec 512 :=
  BitVec.ofNat 512 (opc + flags * 2 ^ 8 + slot * 2 ^ 16 + rid * 2 ^ 64 + ntok * 2 ^ 96 + maxNew * 2 ^ 320 + ttl * 2 ^ 352)

/-- Slot 15 READY, of one shard and one layer. -/
def aSlot : Slot :=
  { st := .ready, shards := 1, layers := 1, kvb := 64, vocab := 2, maxCtx := 64, ttlDef := 1, ckptPeer := 0 }

/-- Manifest 262143 of generation 63, that is RID 0xFFFFFF, of VF 511. -/
def manAt (m : Manifest) : State :=
  { live with slots := [(15, aSlot)], hm := { man := [(262143, { m with gen := 63, fn := 512, slot := 15 })] } }

/-- A berth table whose every 64th entry is in use. -/
def runsTable : Nat → Nat → Table Berth
  | 0, _ => []
  | n + 1, k => (k + 63, {}) :: runsTable n (k + 64)

theorem longRuns_runsTable (n k : Nat) : longRuns k (runsTable n k) = longRuns (k + 64 * n) [] := by
  induction n generalizing k with
  | zero => rfl
  | succ n ih =>
    have h : ¬ k + 64 ≤ k + 63 := by omega
    simp only [runsTable, longRuns, h, if_false, Nat.zero_add]
    rw [show k + 63 + 1 = k + 64 by omega, ih (k + 64)]
    simp only [longRuns, show k + 64 + 64 * n = k + 64 * (n + 1) by omega]

theorem length_runsTable (n k : Nat) : (runsTable n k).length = n := by
  induction n generalizing k with
  | zero => rfl
  | succ n ih => simp [runsTable, ih]

theorem wit_TenantCommands_1 :
    let s := manAt {}
    let e := SubEntry.parse (anEntry 1 16 15 0 64 64 0)
    s.halted .inference = false ∧ e.opc = 1 ∧ (s.takeCmd 512 7 (anEntry 1 16 15 0 64 64 0)).submitCheck e = none ∧
      tsorted 0 s.hm.man = true ∧ (s.takeCmd 512 7 (anEntry 1 16 15 0 64 64 0)).nextFree = some 0 ∧
      bitOf e.flags 4 = true ∧ (s.takeCmd 512 7 (anEntry 1 16 15 0 64 64 0)).freeRec (bitOf e.flags 0) = some 0 := by
  decide +kernel

theorem wit_TenantCommands_2 :
    let s := manAt {}
    (SubEntry.parse (anEntry 1 16 15 0 65 64 0)).opc = 1 ∧
      s.submitCheck (SubEntry.parse (anEntry 1 16 15 0 65 64 0)) = some 5 ∧
      s.submitCheck (SubEntry.parse (anEntry 1 16 15 0 64 64 86401)) = some 2 ∧
      s.submitCheck (SubEntry.parse (anEntry 1 16 14 0 64 64 0)) = some 3 := by
  decide +kernel

theorem wit_TenantCommands_3 :
    let s := manAt { st := .paused }
    let e := SubEntry.parse (anEntry 2 31 0 0x3FFFF 0 0 0)
    s.halted .inference = false ∧ e.flags < 32 ∧ e.reserved = false ∧ s.named 512 e.rid = none ∧ e.opc = 2 ∧
      (SubEntry.parse (anEntry 3 31 0 0xFFFFFF 0 0 0)).opc = 3 ∧
      (SubEntry.parse (anEntry 4 31 0 0xFFFFFF 0 0 0)).opc = 4 ∧
      (SubEntry.parse (anEntry 5 31 0 0xFFFFFF 0 0 0)).opc = 5 ∧ s.named 511 0xFFFFFF = none := by
  decide +kernel

theorem wit_TenantCommands_4 :
    let s := manAt { st := .resuming }
    let e := SubEntry.parse (anEntry 2 0 0 0xFFFFFF 0 0 0)
    s.halted .inference = false ∧ e.flags < 32 ∧ e.reserved = false ∧ s.named 512 e.rid = some 262143 ∧
      (s.manOf 262143).pend = 0 ∧ (s.manOf 262143).st = .resuming := by
  decide +kernel

theorem wit_TenantCommands_5 :
    let s := manAt { st := .decode }
    s.named 512 0xFFFFFF = some 262143 ∧ (s.manOf 262143).st = .decode ∧ (s.manOf 262143).leave = .none ∧
      (s.manOf 262143).pend = 0 ∧ (manAt { st := .ready }).named 512 0xFFFFFF = some 262143 ∧
      (manAt { st := .pausing }).named 512 0xFFFFFF = some 262143 := by
  decide +kernel

theorem wit_TenantCommands_6 :
    let s := manAt { st := .paused, expiry := 1 }
    let e := SubEntry.parse (anEntry 3 0 0 0xFFFFFF 64 64 0)
    e.reserved = false ∧ s.named 512 e.rid = some 262143 ∧ (s.manOf 262143).pend = 0 ∧
      (s.manOf 262143).ctx + e.ntok ≤ (s.slotOf (s.manOf 262143).slot).maxCtx ∧ 0 < e.maxNew ∧
      e.maxNew ≤ (s.slotOf (s.manOf 262143).slot).maxCtx ∧ (s.manOf 262143).st = .paused ∧
      s.T < (s.manOf 262143).expiry := by
  decide +kernel

theorem wit_TenantCommands_7 :
    let s := manAt { st := .paused, expiry := 0 }
    let e := SubEntry.parse (anEntry 5 0 0 0xFFFFFF 0 0 86400)
    s.named 512 e.rid = some 262143 ∧ e.opc = 5 ∧ e.ttl ≤ 86400 ∧ (s.manOf 262143).st = .paused ∧
      (s.manOf 262143).expiry ≤ s.T ∧ (SubEntry.parse (anEntry 0 0 0 0 0 0 0)).opc = 0 ∧
      5 < (SubEntry.parse (anEntry 6 0 0 0 0 0 0)).opc := by
  decide +kernel

theorem wit_RequestProgress_1 :
    let s := manAt { st := .admitted, phase := .reading }
    s.halted .inference = false ∧ (s.manOf 262143).phase = .reading ∧ (s.manOf 262143).st = .admitted ∧
      (manAt { st := .resuming, phase := .reading }).manOf 262143 = { st := .resuming, phase := .reading, gen := 63, fn := 512, slot := 15 } := by
  decide +kernel

theorem wit_RequestProgress_2 :
    let s : State := { manAt { st := .resuming, phase := .place } with sh := { eff := [(512, 1)] } }
    s.halted .inference = false ∧ (s.manOf 262143).phase = .place ∧ (s.manOf 262143).st = .resuming ∧
      s.radioOnly = false ∧ (∀ n < 4, s.mayPd (s.manOf 262143).fn n = false) ∧
      (s.manOf 262143).counted.contains (hmBlock + 0x050) = false := by
  decide +kernel

theorem wit_RequestProgress_3 :
    let s : State := { manAt { st := .admitted, phase := .place } with sh := { eff := [(512, 0x80001)] } }
    s.halted .inference = false ∧ (s.manOf 262143).phase = .place ∧ s.radioOnly = false ∧
      s.mayPd (s.manOf 262143).fn 3 = true ∧
      (∀ k < 4, s.mayPd (s.manOf 262143).fn k = true → s.queuedTokens 3 ≤ s.queuedTokens k) ∧
      (∀ k < 3, s.mayPd (s.manOf 262143).fn k = true → s.queuedTokens 3 < s.queuedTokens k) := by
  decide +kernel

/-- A request whose prefill has its turn, after completion records that its die posted. -/
def prefillAt (recs : List DescRec) : State :=
  { live with
    slots := [(15, aSlot)]
    sh := { recs := recs }
    hm := { man := [(262143, { st := .prefill, phase := .running, gen := 63, fn := 512, slot := 15 })], prefills := [262143] } }

theorem wit_RequestProgress_4 :
    let s := prefillAt []
    let m := s.manOf 262143
    let logits : List (BitVec 16) := [0, 1]
    s.halted .inference = false ∧ (0xFFFFFF : BitVec 24).toNat % 2 ^ 18 = 262143 ∧ m.gen = (0xFFFFFF : BitVec 24).toNat / 2 ^ 18 ∧
      m.phase = .running ∧ m.st = .prefill ∧ s.prefillFirst 262143 = true ∧ s.prefillFailed m = false ∧ m.berthsShort = 0 ∧
      logits.length = (s.slotOf m.slot).vocab ∧
      (prefillAt [{ die := 0, vf := 512, slot := 15, irq := false, record := 8 }]).prefillFailed m = true := by
  decide +kernel

theorem wit_RequestProgress_5 :
    let s := manAt { st := .pausing }
    s.halted .inference = false ∧ (s.manOf 262143).st = .pausing ∧ (s.manOf 262143).moves = [] ∧
      (s.manOf 262143).ckptFlight = none ∧ (s.manOf 262143).pend ≠ 3 ∧ tsorted 0 s.hm.man = true := by
  decide +kernel

theorem wit_RequestProgress_6 :
    let s := manAt { st := .pausing, pend := 3 }
    s.halted .inference = false ∧ (s.manOf 262143).st = .pausing ∧ (s.manOf 262143).ckptFlight = none ∧
      (s.manOf 262143).pend = 3 ∧ (s.manOf 262143).moves = [] := by
  decide +kernel

theorem wit_RequestProgress_7 :
    let s := manAt { st := .quiet, quietUntil := 2 ^ 20 }
    s.halted .inference = false ∧ (s.manOf 262143).st = .quiet ∧ s.td.raw < 2 ^ 20 ∧
      (s.manOf 262143).quietUntil ≤ (s.reachRaw (s.manOf 262143).quietUntil).td.raw ∧ tsorted 0 s.hm.man = true := by
  decide +kernel

theorem wit_RequestProgress_8 :
    let m : Manifest := { st := .decode, inBatch := true, selected := true, gen := 63, fn := 512, slot := 15 }
    let s : State := { live with hm := { man := [(262143, m)], stepping := true } }
    s.halted .inference = false ∧ s.hm.stepping = true ∧ s.stepSelected = true ∧ s.inBatch = [262143] := by
  decide +kernel

theorem wit_RequestProgress_9 :
    let s := manAt { st := .decode, inBatch := true }
    s.halted .inference = false ∧ s.hm.stepping = false ∧ s.inBatch ≠ [] ∧ s.radioOnly = false ∧
      (∀ e ∈ s.liveMen, e.2.ckptFlight = none) ∧ (manAt { st := .decode }).inBatch = [] := by
  decide +kernel

theorem wit_BerthsAndCheckpoints_1 :
    let s := manAt { st := .decode }
    let q := manAt { st := .quiet }
    s.halted .inference = false ∧ (s.manOf ((0x3FFFF : BitVec 24).toNat % 2 ^ 18)).gen ≠ (0x3FFFF : BitVec 24).toNat / 2 ^ 18 ∧
      (q.manOf 262143).st = .quiet := by
  decide +kernel

/-- A berth table's last entry that request 0xFFFFFF holds, and a decode step in which its pull runs, with portions left. -/
def pullAt (st : ManSt) (left : List (Nat × Nat × Nat)) : State :=
  { live with
    slots := [(15, { aSlot with shards := 2, layers := 2 })]
    hm := {
      man := [(262143, { st := st, gen := 63, fn := 512, slot := 15, inBatch := true, ext := [(0xFFFFF, 1)], frames := [65535]
                         moves := [(0, .coldPeer, 5)], pulls := left, ckptFlight := some 0, ckptSent := true
                         copies := [{ berth := 0, fill := 64, byStep := true }] })]
      bt := [(0xFFFFF, { valid := true, rid := 0xFFFFFF, tier := .coldPeer, peer := 0 })]
      stepping := true } }

theorem wit_BerthsAndCheckpoints_2 :
    let s := pullAt .decode [(1, 1, 0)]
    let m := s.manOf 262143
    s.halted .inference = false ∧ m.gen = (0xFFFFFF : BitVec 24).toNat / 2 ^ 18 ∧ m.st = .decode ∧
      m.entries[0]? = some 0xFFFFF ∧ m.goal 0 = some (.gd, 65535) ∧ s.portionDue m (1, 1, 0) = true ∧
      (s.slotOf 15).sliceAddr (s.berthOf 0xFFFFF).tier (s.berthOf 0xFFFFF).frame 1 = none ∧
      lrmFirst (· == (1, 1, 0)) m.pulls = [] ∧ tsorted 0 s.hm.man = true ∧ tsorted 0 s.hm.bt = true ∧
      m.copies.find? (fun c => c.berth == 0) = some { berth := 0, fill := 64, byStep := true } ∧
      (s.berthOf 0xFFFFF).fill ≤ 64 ∧ m.ckptFlight = some 0 ∧ m.ckptSent = true := by
  decide +kernel

theorem wit_BerthsAndCheckpoints_portions :
    let s := pullAt .decode [(1, 0, 0), (1, 1, 0)]
    let t := pullAt .pausing [(0, 1, 0), (1, 1, 0)]
    s.portionDue (s.manOf 262143) (1, 0, 0) = true ∧
      (∃ q ∈ lrmFirst (· == (1, 0, 0)) (s.manOf 262143).pulls, q.2.2 = 0 ∧ q.1 = 1) ∧
      t.portionDue (t.manOf 262143) (0, 1, 0) = true ∧ (t.manOf 262143).goal 0 = some (.coldPeer, 5) ∧
      (∃ q ∈ lrmFirst (· == (0, 1, 0)) (t.manOf 262143).pulls, q.2.2 = 0) ∧
      (∀ q ∈ lrmFirst (· == (0, 1, 0)) (t.manOf 262143).pulls, q.2.2 = 0 → q.1 ≠ 0) ∧
      (pullAt .pausing [(1, 1, 0)]).portionDue ((pullAt .pausing [(1, 1, 0)]).manOf 262143) (1, 1, 0) = true := by
  decide +kernel

/-- A berth in a cold frame at address 0, where a word has an uncorrectable error. -/
theorem wit_BerthsAndCheckpoints_bad :
    let p := pullAt .decode [(0, 0, 0)]
    let s : State := { p with
      slots := [(15, { aSlot with coldFrames := 1, bases := List.replicate 16 0 })], bk := { err := [(0, 3)] }
      hm := { p.hm with bt := [(0xFFFFF, { valid := true, rid := 0xFFFFFF, tier := .coldLocal })] } }
    let c := s.berthOf 0xFFFFF
    s.portionDue (s.manOf 262143) (0, 0, 0) = true ∧ (s.slotOf 15).sliceAddr c.tier c.frame 0 = some 0 ∧
      s.rangeBad (0 + 0) (s.slotOf 15).portion = true := by
  decide +kernel

/-- A request held for want of an entry: its four extents are used, and the table goes on with another's entry. -/
theorem wit_BerthsAndCheckpoints_held :
    let m : Manifest := { st := .decode, counted := [hmBlock + 0x044], ext := [(0, 1), (2, 1), (4, 1), (6, 1)] }
    let s : State := { live with hm := { man := [(0, m)], bt := [(7, { valid := true })] } }
    s.halted .inference = false ∧ s.hm.btRun = none ∧
      (∃ e ∈ s.liveMen, e.2.counted.contains (hmBlock + 0x044) = true ∧ s.nextEntry e.2 = none) := by
  decide +kernel

theorem wit_BerthsAndCheckpoints_3 :
    let s : State := { live with hm := { btRun := some { passes := 4, log := 1 } } }
    s.halted .inference = false ∧ s.hm.btRun = some { passes := 4, log := 1 } ∧ 4 ≤ 4 ∧ State.reset.hm.btRun = none ∧
      live.isPf .pf = true := by
  decide +kernel

theorem wit_BerthsAndCheckpoints_4 :
    let s : State := { live with hm := { btRun := some { passes := 1 } } }
    s.halted .inference = false ∧ s.hm.btRun = some { passes := 1 } ∧ s.hm.stepping = false := by
  decide +kernel

theorem few_runs (t : Table Berth) (h : t = runsTable 16384 0) : 16 * longRuns 0 t < 2 ^ 20 - t.length := by
  rw [h, longRuns_runsTable, length_runsTable]
  simp [longRuns]

theorem wit_BerthsAndCheckpoints_rebuild : ∃ t : Table Berth,
    let s : State := { live with hm := { bt := t } }
    s.halted .inference = false ∧ s.hm.btRun = none ∧ 16 * longRuns 0 s.hm.bt < 2 ^ 20 - s.hm.bt.length :=
  ⟨runsTable 16384 0, rfl, rfl, few_runs _ rfl⟩

/-- A slot whose weight package has a digest that is, or is not, the one of its record. -/
def loadingSlot (good : Bool) : Slot :=
  { st := .loading, wdigest := if good then Config.sha3 [] else Config.sha3 [] + 1 }

theorem wit_SlotCommands_digest :
    (let s : State := { live with slots := [(15, loadingSlot true)] }
     s.halted .inference = false ∧ (s.slotOf 15).st = .loading ∧
       Config.sha3 (s.load (s.slotOf 15).wpkgAddr (s.slotOf 15).wpkgLen) = (s.slotOf 15).wdigest) ∧
    (let s : State := { live with slots := [(15, loadingSlot false)] }
     s.halted .inference = false ∧ (s.slotOf 15).st = .loading ∧
       Config.sha3 (s.load (s.slotOf 15).wpkgAddr (s.slotOf 15).wpkgLen) ≠ (s.slotOf 15).wdigest) := by
  refine ⟨⟨rfl, rfl, rfl⟩, rfl, rfl, ?_⟩
  show Config.sha3 [] ≠ Config.sha3 [] + 1
  generalize Config.sha3 [] = x
  bv_omega

theorem wit_SlotCommands_1 :
    live.isPf .pf = true ∧ Acts .pf live ∧ (live.slotOf 15).st = .empty ∧ live.rangeOk 0 128 = true ∧
      live.rangeBad 0 128 = false ∧ parseSlot (live.load 0 128) = none ∧ live.halted .inference = false := by
  unfold Acts; decide +kernel

/-- The least slot record: one shard, one layer, KVB 64, a vocabulary of 2, contexts of 64, TTL 1, no peers. -/
def slotRecord : List Byte :=
  [1, 1, 1, 0, 64, 0, 0, 0, 2, 0, 0, 0, 64, 0, 0, 0, 1, 0, 0, 0] ++ List.replicate 12 0 ++ List.replicate 8 0xFF ++
  List.replicate 88 0

theorem wit_SlotCommands_2 :
    let s : State := { live with mem := (List.range 128).filterMap (fun k => let b := slotRecord.getD k 0; if b = 0 then none else some (k, b)) }
    s.mem.wf = true ∧ (s.slotOf 15).st = .empty ∧ s.rangeOk 0 128 = true ∧ s.rangeBad 0 128 = false ∧
      (parseSlot (s.load 0 128)).isSome = true ∧ s.reg64 (hmBlock + 0x010) (hmBlock + 0x014) = 0 := by
  decide +kernel

theorem wit_SlotCommands_3 :
    let s := manAt { st := .decode }
    let d : State := { live with slots := [(15, { aSlot with st := .draining })] }
    (s.slotOf 15).st = .ready ∧ (∀ e ∈ s.liveMen, e.2.slot = 15 → e.2.st = .decode) ∧ s.slotNamed 15 = true ∧
      tsorted 0 s.hm.man = true ∧ tsorted 0 s.slots = true ∧ (manAt { st := .quiet }).slotNamed 15 = false ∧
      (d.slotOf 15).st = .draining ∧ d.slotNamed 15 = false ∧ (live.slotOf 15).st = .empty ∧ live.isPf .pf = true := by
  decide +kernel

/-- The end of a load that places nothing, for a slot without frames. -/
def emptyLoad : SlotLoad := { fits := true, parts := [], scratch := 0, extent := 0, groups := [], specExact := true }

theorem wit_SlotCommands_load :
    let s : State := { live with slots := [(15, loadingSlot true)] }
    s.halted .inference = false ∧ (s.slotOf 15).st = .loading ∧ emptyLoad.fits = true ∧
      (∀ p ∈ emptyLoad.parts, p.2.1 + p.2.2 ≤ (s.slotOf 15).wpkgLen) ∧
      (∀ g ∈ emptyLoad.groups, (s.isl g).st ≠ .failedShort) ∧ tsorted 0 s.slots = true := by
  decide +kernel

/-- Pools without bytes always fit. -/
theorem firstFit_empty (lo hi : Nat) (used : List (Nat × Nat)) (z : ∀ u ∈ used, u.2 = 0) (h : lo ≤ hi) :
    (firstFit lo hi 0 used).isSome = true := by
  unfold firstFit
  rw [List.find?_isSome]
  refine ⟨lo, by simp, ?_⟩
  simp only [Nat.le_refl, decide_true, Nat.add_zero, h, Bool.and_self, Bool.true_and, List.all_eq_true, Bool.or_eq_true,
    decide_eq_true_eq]
  intro u m
  have := z u m
  omega

theorem region_order (s : State) (j : Nat) : (s.poolRegion j).1 ≤ (s.poolRegion j).2 := by
  unfold State.poolRegion
  simp only
  split
  · exact Nat.add_le_add_left (Nat.mul_le_mul_right _ (Nat.le_add_right _ _)) _
  · split
    · exact Nat.add_le_add_left (Nat.mul_le_mul_right _ (Nat.le_add_right _ _)) _
    · exact Nat.le_add_right _ _

theorem foldl_some (f : Option (List Nat) → Nat → Option (List Nat)) (h : ∀ bs j, ∃ cs, f (some bs) j = some cs) :
    ∀ (js bs : List Nat), ∃ out, js.foldl f (some bs) = some out
  | [], bs => ⟨bs, rfl⟩
  | j :: js, bs => by
    obtain ⟨cs, e⟩ := h bs j
    rw [List.foldl_cons, e]
    exact foldl_some f h js cs

theorem foldl_none (f : Option (List Nat) → Nat → Option (List Nat)) (h : ∀ j, f none j = none) :
    ∀ js : List Nat, js.foldl f none = none
  | [] => rfl
  | j :: js => by rw [List.foldl_cons, h]; exact foldl_none f h js

/-- A slot without frames has its sixteen empty pools. -/
theorem wit_SlotCommands_carve :
    let s : State := { live with slots := [(15, loadingSlot true)] }
    ∃ bases, s.carve (s.slotOf 15) = some bases := by
  intro s
  have z (j : Nat) : (loadingSlot true).poolBytes j = 0 := by
    simp [Slot.poolBytes, loadingSlot]
  have l : s.slotOf 15 = loadingSlot true := rfl
  have b : s.slots = [(15, loadingSlot true)] := rfl
  have e : (loadingSlot true).bases = [] := rfl
  unfold State.carve
  rw [l, b]
  refine foldl_some _ (fun bs j => ?_) _ _
  have f := firstFit_empty (s.poolRegion j).1 (s.poolRegion j).2
    (bs.zipIdx.filterMap (fun x => if s.poolRegion x.2 = s.poolRegion j then some (x.1, 0) else none))
    (by
      intro u m
      rw [List.mem_filterMap] at m
      obtain ⟨x, -, m⟩ := m
      split at m
      · cases m; rfl
      · cases m)
    (region_order s j)
  obtain ⟨a, f⟩ := Option.isSome_iff_exists.mp f
  refine ⟨bs ++ [a], ?_⟩
  simp [z, e, f]

/-- A slot that wants a frame where no die has a berth region. -/
theorem wit_SlotCommands_full :
    let sl : Slot := { loadingSlot true with pdFrames := 1, kvb := 64 }
    let s : State := { live with slots := [(15, sl)] }
    (s.slotOf 15).st = .loading ∧ s.carve (s.slotOf 15) = none := by
  intro sl s
  refine ⟨rfl, ?_⟩
  have l : s.slotOf 15 = sl := rfl
  have b : s.slots = [(15, sl)] := rfl
  have e : sl.bases = [] := rfl
  have f : firstFit (s.poolRegion 0).1 (s.poolRegion 0).2 (sl.poolBytes 0) [] = none := by
    simp only [firstFit, List.map_nil, List.mergeSort_singleton]
    decide +kernel
  have r : List.range 16 = 0 :: (List.range 15).map (· + 1) := by decide
  unfold State.carve
  rw [l, b]
  conv in List.foldl _ _ _ => rw [r]
  rw [List.foldl_cons]
  rw [show (∀ g : Option (List Nat), g = none → List.foldl _ g _ = none) from fun g h => by rw [h]; exact foldl_none _ (fun _ => rfl) _]
  simp [e, f]

theorem wit_SlotCommands_4 :
    let s : State := { live with slots := [(15, { aSlot with st := .draining })] }
    s.halted .inference = false ∧ (s.slotOf 15).st = .draining ∧ s.slotNamed 15 = false ∧
      (live.slotOf 15).st ≠ .ready := by
  decide +kernel

theorem wit_SlotCommands_5 :
    live.isPf .pf = true ∧ (8 : Word).toNat % 512 = 8 ∧ (256 : Word).toNat % 512 ≤ 256 ∧ 256 < (257 : Word).toNat % 512 ∧
      (7 : Word).toNat % 512 < 8 ∧ 1 ≤ (1 : Word).toNat % 512 := by
  decide +kernel

/-! ### Witnesses: chapter 08 -/

/-- An automaton of one state that allows token 1. -/
def anAuto : Automaton := { states := [{ first := 0, count := 1, accept := true }], edges := [{ lo := 1, hi := 1, next := 0 }] }

/-- A request of the running batch, in a slot with a vocabulary of one token or two. -/
def selAt (vocab : Nat) (m : Manifest) : State :=
  { live with
    slots := [(15, { aSlot with vocab := vocab })]
    hm := { stepping := true, man := [(262143, { m with st := .decode, inBatch := true, gen := 63, fn := 512, slot := 15 })] } }

theorem candidates_one : rakeCandidates (List.replicate 128 0) [] [0x3F800000] = [(0, 0x3F800000)] := by
  have h : ((([0x3F800000] : List Nat).zipIdx.map (fun x => (x.2, rakeScore (List.replicate 128 0) [] x.2 x.1))).filter
      (fun x => !isNan x.2)) = [(0, 0x3F800000)] := by decide +kernel
  have w : (([] : List Nat).drop (([] : List Nat).length - fieldAt (List.replicate 128 0) 16 2)) = [] := by decide +kernel
  unfold rakeCandidates
  simp only [w, h, List.mergeSort_singleton]
  decide +kernel

theorem candidates_none : rakeCandidates (List.replicate 128 0) [] [0x7FC00000] = [] := by
  have h : ((([0x7FC00000] : List Nat).zipIdx.map (fun x => (x.2, rakeScore (List.replicate 128 0) [] x.2 x.1))).filter
      (fun x => !isNan x.2)) = [] := by decide +kernel
  have w : (([] : List Nat).drop (([] : List Nat).length - fieldAt (List.replicate 128 0) 16 2)) = [] := by decide +kernel
  unfold rakeCandidates
  simp only [w, h, List.mergeSort_nil]
  decide +kernel

/-- Greedy selection of the only token, and of none where its logit is a NaN. -/
theorem wit_TokenCommands_rake :
    let m : Manifest := { param := List.replicate 128 0 }
    let s := selAt 1 m
    s.halted .inference = false ∧ tsorted 0 s.hm.man = true ∧ s.awaits (s.manOf 262143) = true ∧
      s.pullDone (s.manOf 262143) = true ∧ (s.manOf 262143).sel = false ∧ (s.manOf 262143).spec = false ∧
      ([0x3F800000] : List Word).length = (s.slotOf 15).vocab ∧
      rakeSelect m.param [] [0x3F800000] 0 0 0 = some 0 ∧ rakeSelect m.param [] [0x7FC00000] 0 0 0 = none := by
  refine ⟨by decide +kernel, by decide +kernel, by decide +kernel, by decide +kernel, by decide +kernel, by decide +kernel,
    by decide +kernel, ?_, ?_⟩
  · unfold rakeSelect; rw [candidates_one]; decide +kernel
  · unfold rakeSelect; rw [candidates_none]

theorem wit_RakeDraw :
    let p := (List.replicate 128 (0 : Byte)).set 6 0x80 |>.set 7 0x3F
    fieldAt p 4 4 = 0x3F800000 ∧ rakeCandidates p [] [0x3F800000] = [(0, 0x3F800000)] ∧ fieldAt p 4 4 ≠ 0 := by
  intro p
  have h : ((([0x3F800000] : List Nat).zipIdx.map (fun x => (x.2, rakeScore p [] x.2 x.1))).filter
      (fun x => !isNan x.2)) = [(0, 0x3F800000)] := by decide +kernel
  have w : (([] : List Nat).drop (([] : List Nat).length - fieldAt p 16 2)) = [] := by decide +kernel
  refine ⟨by decide +kernel, ?_, by decide +kernel⟩
  unfold rakeCandidates
  simp only [w, h, List.mergeSort_singleton]
  decide +kernel

theorem words_replicate (n : Nat) : ({ anAuto with edges := List.replicate n ⟨0, 0, 0⟩ } : Automaton).words = 5 + n := by
  simp [Automaton.words, anAuto]

/-- The store with one automaton in its middle: no run of more than half of it, though the words are free. -/
theorem wit_TokenCommands_store :
    let big : Automaton := { anAuto with edges := List.replicate (2 ^ 21) ⟨0, 0, 0⟩ }
    let m : Manifest := { st := .admitted, phase := .store, param := [1, 2] }
    let s : State := { live with hm := { man := [(0, { store := some (2 ^ 21, 1) }), (262143, { m with auto := anAuto })] } }
    s.halted .inference = false ∧ (s.manOf 262143).phase = .store ∧ fieldAt m.param 1 1 = 2 ∧ anAuto.words ≤ s.svFree ∧
      freeRun anAuto.words 0 (s.svUsed.mergeSort (fun a b => decide (a.1 ≤ b.1))) = some 0 ∧
      big.words ≤ s.svFree ∧ freeRun big.words 0 (s.svUsed.mergeSort (fun a b => decide (a.1 ≤ b.1))) = none := by
  intro big m s
  have u : s.svUsed = [(2 ^ 21, 1)] := by decide +kernel
  have w : big.words = 5 + 2 ^ 21 := words_replicate _
  refine ⟨by decide +kernel, by decide +kernel, by decide +kernel, by decide +kernel, ?_, ?_, ?_⟩
  · rw [u, List.mergeSort_singleton]; decide +kernel
  · rw [w]; decide +kernel
  · rw [u, w, List.mergeSort_singleton]; decide +kernel

theorem wit_TokenCommands_full :
    let m : Manifest := { st := .admitted, phase := .store, param := [1, 2], auto := anAuto }
    let s : State := { live with hm := { man := [(0, { store := some (0, 2 ^ 22 - 5) }), (262143, m)] } }
    s.halted .inference = false ∧ (s.manOf 262143).phase = .store ∧ fieldAt m.param 1 1 = 2 ∧ s.svFree < m.auto.words := by
  decide +kernel

theorem wit_TokenCommands_1 :
    let s := selAt 2 { flags := 1, auto := anAuto, param := List.replicate 128 0 }
    let m := s.manOf 262143
    s.awaits m = true ∧ s.pullDone m = true ∧ m.sel = true ∧ m.spec = false ∧
      Machine.sieveSelect m.auto m.autSt [] [0, 0x3F800000] = some 1 ∧
      Machine.sieveSelect m.auto m.autSt [] [0, 0x7FC00000] = none ∧
      (selAt 2 { flags := 3 }).awaits ((selAt 2 { flags := 3 }).manOf 262143) = true := by
  decide +kernel

theorem wit_TokenCommands_2 :
    let s := selAt 2 { flags := 3, auto := anAuto, param := [1, 1, 8] ++ List.replicate 125 0, drafts := [] }
    let m := s.manOf 262143
    m.gen = (0xFFFFFF : BitVec 24).toNat / 2 ^ 18 ∧ (0xFFFFFF : BitVec 24).toNat % 2 ^ 18 = 262143 ∧ m.st = .decode ∧
      tsorted 0 s.hm.man = true ∧ s.awaits m = true ∧ s.pullDone m = true ∧ m.spec = true ∧ m.drafts = [] ∧ m.leave = .none ∧
      (∀ l ∈ ([[0, 0x3F800000]] : List (List Word)), l.length = (s.slotOf m.slot).vocab) ∧
      m.choose m.toks m.autSt [0, 0x3F800000] m.step 0 = some (1, false, 0) ∧
      m.choose m.toks m.autSt [0, 0x7FC00000] m.step 0 = none := by
  decide +kernel

/-- An automaton image of one state without edges, with a number of states in its header. -/
def autImage (ns : Nat) : List Byte := leBytes 4 0x56454953 ++ [1, 0, 0, 0] ++ leBytes 4 ns ++ List.replicate 28 0

/-- A request whose parameter block names an image of 40 bytes at tenant address 0x1000, in a cached page. -/
def imageAt (ns : Nat) (cu : Bool) : State :=
  { live with
    hm := { man := [(262143, { st := .admitted, phase := .store, fn := 512, slot := 15
                               param := [0, 1] ++ List.replicate 54 0 ++ leBytes 8 0x1000 ++ leBytes 4 40 ++ List.replicate 60 0 })] }
    cu := { leaves := [{ fn := 512, pasid := 0, vpage := 1, size := 12, host := 0x1000, writable := true }] }
    host := ((List.range 40).filterMap (fun k => let b := (autImage ns).getD k 0; if b = 0 then none else some (0x1000 + k, b)))
    regs := if cu then [(cuBlock, 1)] else [] }

theorem wit_TokenCommands_image :
    let m := (imageAt 1 true).manOf 262143
    m.phase = .store ∧ fieldAt m.param 1 1 = 1 ∧ ceilDiv (fieldAt m.param 64 4) 8 ≤ (imageAt 1 true).svFree ∧
      (imageAt 1 false).svUsed = [] ∧ freeRun 5 0 [] = some 0 ∧
      ((imageAt 1 true).tenantRead 512 ((imageAt 1 true).sqPasid 512 0) 0x1000 40).2 = some (autImage 1) ∧
      (parseImage (autImage 1) 40 0 2 (stopTokens m.param)).isSome = true ∧
      ((imageAt 0 true).tenantRead 512 0 0x1000 40).2 = some (autImage 0) ∧
      parseImage (autImage 0) 40 0 2 (stopTokens m.param) = none ∧
      ((imageAt 1 false).tenantRead 512 0 0x1000 40).2 = none := by
  decide +kernel

theorem wit_TokenCommands_3 :
    live.isPf .pf = true ∧ live.hm.svRun = none ∧ live.halted .inference = false := by
  decide +kernel

theorem wit_TokenCommands_4 :
    let s : State := { live with hm := { man := [(262143, { st := .admitted, phase := .store })] } }
    s.halted .inference = false ∧ (∃ e ∈ s.liveMen, e.2.phase = .store ∧ e.2.st = .admitted) := by
  decide +kernel

theorem wit_TokenCommands_5 :
    let s (p l : Nat) : State := { live with hm := { svRun := some { passes := p, log := l } } }
    (s 1 0).hm.svRun = some { passes := 1, log := 0 } ∧ (s 1 0).hm.stepping = false ∧
      (s 1 0).halted .inference = false ∧ (s 4 1).hm.svRun = some { passes := 4, log := 1 } := by
  decide +kernel

/-! ### Witnesses: chapter 09 -/

theorem sort_one {α : Type} {le : α → α → Bool} {l : List α} {x : α} (h : l = [x]) : l.mergeSort le = [x] := by
  rw [h, List.mergeSort_singleton]

/-- A context of 8 KiB that holds arrays 0 and 15 of PD0. -/
def smallCtx (st : CtxSt) : Ctx := { aCtx none with st := st, scratchLen := 64, extentLen := 4096 }

/-- Context 7 of PD0, with a save area of 1 MiB in H1. -/
def saveAt (c : Ctx) : State :=
  { live with sh := { ctx := [(7, c)] }, cfg := { loaded := true, mem := [{ save := 1 }] }, regs := [(esReg 0 0, 1), (esReg 15 0, 1)] }

theorem firstFit_nil (lo hi len : Nat) (h : lo + len ≤ hi) : firstFit lo hi len [] = some lo := by
  simp [firstFit, h]

/-- PD0 with a tiling scratch of 32 MiB. -/
def roomy : State := { live with cfg := { loaded := true, mem := [{ scratch := 32 }] } }

theorem wit_DescriptorArrives_new :
    (∃ k c, roomy.settle.canMake (.pd 0) 512 15 = some (k, c)) ∧
      (roomy.settle.sh.ctx.find? (fun e => e.1 / 8 == (Die.pd 0).index && e.2.vf == 512 && e.2.slot == 15)) = none ∧
      roomy.settle.canMake .hd 512 15 = none := by
  have z : roomy.settle.dieCtxs (.pd 0) = [] := by decide +kernel
  have p : roomy.settle.savedFirst (.pd 0) 512 = false := by decide +kernel
  refine ⟨?_, by decide +kernel, ?_⟩
  · unfold State.canMake State.newCtx
    rw [p, z]
    have f : roomy.settle.freeCtx (.pd 0) = some 0 := by decide +kernel
    rw [f]
    simp only [List.map_nil]
    rw [firstFit_nil _ _ _ (by decide +kernel), firstFit_nil _ _ _ (by decide +kernel)]
    exact ⟨_, _, rfl⟩
  · unfold State.canMake State.newCtx
    rw [show roomy.settle.freeCtx .hd = none by decide +kernel]
    simp

theorem saveSlot_empty (c : Ctx) (h : c.imageBytes = 8256) : (saveAt c).saveSlot 0 c = some 0x000C00000000 := by
  show firstFit 0x000C00000000 (0x000C00000000 + 1 * 2 ^ 20) c.imageBytes [] = _
  exact firstFit_nil _ _ _ (by rw [h]; decide)

theorem wit_ContextCommands_save :
    let c : Ctx := { smallCtx .stopping with stopped := true, stopFor := .share }
    let s := saveAt c
    let u := saveAt (smallCtx .saving)
    s.halted .inference = false ∧ tsorted 0 s.sh.ctx = true ∧ s.ctxOf (ctxKey (.pd 0) 7) = some c ∧
      s.saveSlot 0 c = some 0x000C00000000 ∧ c.stopFor = .share ∧
      (∀ e ∈ s.sh.ctx, e.1 / 8 = 0 → e.2.st ≠ .saving ∧ e.2.st ≠ .restoring) ∧
      u.ctxOf (ctxKey (.pd 0) 7) = some (smallCtx .saving) ∧ u.saveSlot 0 (smallCtx .saving) = some 0x000C00000000 ∧
      (u.rangeBad 0x010000000000 64 || u.rangeBad 0x010008000000 4096) = false ∧ u.regBit trcCfg 31 = false :=
  ⟨by decide +kernel, by decide +kernel, by decide +kernel, saveSlot_empty _ (by decide +kernel), by decide +kernel,
    by decide +kernel, by decide +kernel, saveSlot_empty _ (by decide +kernel), by decide +kernel, by decide +kernel⟩

def aBooking (st : TtSt) : TtEntry := { st := st, start := 520000, dur := 10000000, arrays := 0x8000, rwin := 768 }

theorem wit_ContextCommands_1 :
    let s : State := { live with sh := { quantumT := 1000 } }
    let p : State := { s with fh := { unload := none, next := some { tAct := 0, cells := [] } } }
    s.halted .inference = false ∧ p.planLoaded = true ∧ s.planLoaded = false ∧
      (s.reachNs (s.sh.quantumT + s.regN cxBlock * 1000 : Nat)).pastNs (s.sh.quantumT + s.regN cxBlock * 1000 : Nat) = true ∧
      s.pastNs (s.sh.quantumT + s.regN cxBlock * 1000 : Nat) = false := by
  decide +kernel

theorem wit_ContextCommands_2 :
    let s := saveAt (smallCtx .running)
    s.halted (dieUnit (.pd 0)) = false ∧ s.ctxOf (ctxKey (.pd 0) 7) = some (smallCtx .running) ∧
      tsorted 0 s.sh.ctx = true ∧ tsorted 0 s.regs = true ∧ (∀ g ∈ (smallCtx .running).arrays, g < 84) := by
  decide +kernel

theorem wit_ContextCommands_3 :
    let c (f : StopFor) (r : Option DescRun) : Ctx := { smallCtx .stopping with stopFor := f, run := r }
    let s (f : StopFor) (r : Option DescRun) : State := { saveAt (c f r) with regs := [(esReg 0 0, 5), (esReg 15 0, 5)] }
    let r := some (aDescRun (aDesc 1 f8 1 1 1 0) 1)
    (s .share none).ctxOf (ctxKey (.pd 0) 7) = some (c .share none) ∧ (c .share none).stopped = false ∧
      (∀ g ∈ (c .share none).arrays, (s .share none).arrayStopped g = true) ∧
      ([0, 0] : List Nat).length = (c .share none).arrays.length ∧
      (s .booking r).inAffected 0 (c .booking r) = false ∧ (c .booking r).run ≠ none ∧
      ({ s .booking r with tt := { entries := [(0, { aBooking .clearing with affected := [0] })] } } : State).inAffected 0
        (c .booking r) = true := by
  decide +kernel

theorem wit_ContextCommands_4 :
    let s : State := { saveAt (smallCtx .saving) with bk := { err := [(live.key 0x010008000000, 3)] } }
    s.ctxOf (ctxKey (.pd 0) 7) = some (smallCtx .saving) ∧
      (s.rangeBad 0x010000000000 64 || s.rangeBad 0x010008000000 4096) = true := by
  decide +kernel

theorem wit_ContextCommands_5 :
    let c : Ctx := { smallCtx .restoring with restoreFrom := 0x000C00000000 }
    let s := saveAt c
    let b : State := { s with bk := { err := [(live.key 0x000C00000000, 3)] } }
    s.ctxOf (ctxKey (.pd 0) 7) = some c ∧ c.imageBytes = 8256 ∧
      s.rangeBad 0x000C00000000 8256 = false ∧ s.regBit trcCfg 31 = false ∧ b.rangeBad 0x000C00000000 8256 = true := by
  decide +kernel

theorem wit_ContextCommands_6 :
    let e : SavedCtx := { die := 0, ctx := smallCtx .saved, addr := 0x000C00000000, held := [0, 15], num := 7 }
    let s : State := { live with sh := { saved := [e] } }
    s.sh.saved[0]? = some e ∧ s.restorable e = true ∧ s.freeCtx (Die.ofIndex e.die) = some 0 ∧
      (∀ q ∈ s.sh.ctx, q.1 / 8 = e.die → q.2.st ≠ .saving ∧ q.2.st ≠ .restoring) := by
  decide +kernel

theorem wit_ContextCommands_7 :
    live.isPf .pf = true ∧ 20 ≤ (20 : Word).toNat % 2 ^ 11 ∧ (1480 : Word).toNat % 2 ^ 11 ≤ 1480 ∧
      (19 : Word).toNat % 2 ^ 11 < 20 ∧ 1480 < (1481 : Word).toNat % 2 ^ 11 ∧ tsorted 0 live.regs = true := by
  decide +kernel

/-- Entry 63 of PD3's tide table. -/
def ttAt (e : TtEntry) : State :=
  { live with tt := { entries := [(255, e)] }, cfg := { loaded := true, winMax := [0, 0, 0, 768] }
              clk := { live.clk with tideLock := true } }

theorem wit_BookingCommands_1 :
    let s := ttAt { aBooking .free with arrays := 0, rwin := 0 }
    let v : Word := 0x83008000
    let e : TtEntry := { s.ttOf 3 63 with valid := true, arrays := 0x8000, rwin := 768 }
    s.halted .radio = false ∧ (s.ttOf 3 63).live = false ∧ v.getLsbD 31 = true ∧ bitsOf v.toNat 15 0 = 0x8000 ∧
      bitsOf v.toNat 25 16 = 768 ∧ s.ttCheck 3 63 e = 0 ∧ tsorted 0 s.tt.entries = true ∧
      s.ttCheck 3 63 { e with rwin := 769 } = 1 ∧ s.ttCheck 3 63 { e with dur := 10000001 } = 1 ∧
      s.ttCheck 3 63 { e with start := 519999 } = 2 := by
  decide +kernel

theorem wit_BookingCommands_2 :
    let s := ttAt (aBooking .active)
    (s.ttOf 3 63).live = true ∧ (∃ b ∈ s.tt.entries, b.1 / 64 = 3 ∧ b.2.st = .active) ∧
      4096 < (0x1001 + 2 ^ 16 - tget 0 s.tt.taken 3) % 2 ^ 16 ∧
      (0x1000 + 2 ^ 16 - tget 0 s.tt.taken 3) % 2 ^ 16 ≤ 4096 := by
  decide +kernel

theorem wit_BookingCommands_3 :
    let s := ttAt (aBooking .accepted)
    s.halted .inference = false ∧ tsorted 0 s.tt.entries = true ∧ s.ttFree 3 63 = true ∧
      (ttAt (aBooking .late)).ttFree 3 63 = true := by
  decide +kernel

theorem wit_BookingCommands_4 :
    let s : State := ttAt (aBooking .ready)
    let q : State := { s with cfg := { s.cfg with power := List.replicate 8 0x10000 } }
    s.radioOnly = false ∧ q.radioOnly = true ∧ (q.ttOf 3 63).st = .ready ∧ q.halted .inference = false ∧
      (q.reachNs (520000 : Nat)).pastNs (520000 : Nat) = true ∧ (s.reachNs (520000 : Nat)).pastNs (520000 : Nat) = true ∧
      (s.ttOf 3 63).st = .ready ∧ ((ttAt (aBooking .clearing)).ttOf 3 63).st = .clearing := by
  decide +kernel

theorem wit_BookingCommands_5 :
    let s : State := { ttAt (aBooking .late) with sh := { ctx := [(31, { aCtx none with arrays := [63] })] } }
    (s.ttOf 3 63).st = .late ∧ s.ttFree 3 63 = false := by
  decide +kernel

theorem wit_BookingCommands_6 :
    let c : Ctx := { aCtx none with arrays := [62, 63], id := 31 }
    let s : State := { ttAt { aBooking .late with losing := [31] } with sh := { ctx := [(31, c)] } }
    let e := s.ttOf 3 63
    let due : Int := (e.start : Int) - e.margin * 1000
    e.st = .late ∧ (s.reachNs due).pastNs due = true ∧ tsorted 0 s.sh.ctx = true ∧
      s.ctxOf 31 = some c ∧ 31 / 8 = 3 ∧ e.losing.contains c.id = true ∧ c.run = none ∧ 63 ∈ e.named 3 := by
  decide +kernel

theorem wit_BookingCommands_7 :
    let s : State := ttAt (aBooking .active)
    let e := s.ttOf 3 63
    let t := s.reachNs (e.start + e.dur : Nat)
    e.live = true ∧ t.pastNs (e.start + e.dur : Nat) = true ∧ tsorted 0 s.es = true ∧ 63 ∈ s.bookedOnly 3 63 ∧
      t.bookedQueued 3 63 = false := by
  decide +kernel

theorem wit_BookingCommands_stop :
    let s : State := { ttAt { aBooking .accepted with affected := [5] } with
      sh := { ctx := [(31, { aCtx none with arrays := [63], id := 5 })] } }
    s.halted .inference = false ∧ tsorted 0 s.tt.entries = true ∧
      (saveStarts (s.saveQueue 3)).1 = [(518686, 31)] ∧ (s.reachNs 518686).pastNs 518686 = true ∧
      (s.ctxOf 31).isSome = true ∧ (s.ttOf 3 63).st = .accepted ∧ (s.ttOf 3 63).affected.contains 5 = true := by
  intro s
  have h : s.saveQueue 3 = [{ limit := 520000, start := 520000, key := 31, bytes := 2101248 }] := sort_one (by decide +kernel)
  refine ⟨by decide +kernel, by decide +kernel, ?_, by decide +kernel, by decide +kernel, by decide +kernel, by decide +kernel⟩
  rw [h]
  decide +kernel

/-! ### Witnesses: chapter 10 -/

/-- The 64 bytes of a plan's cell 511: configuration 1, port 7, 273 PRBs, VLAN 4095, FDD, one PRACH stream. -/
def cellEntry : List Byte :=
  [0xFF, 0x01, 1, 7, 0x11, 0x01, 0xFF, 0x0F, 5, 0, 0, 0, 4, 0, 0x99, 0] ++ List.replicate 48 0

def aCell : Cell := (Cell.parse cellEntry).1

/-- A plan record of one cell, for T_ACT = 100 ms. -/
def planRecord : List Byte :=
  [0x50, 0x4C, 0x41, 0x4E, 1, 0, 1, 0] ++ leBytes 8 100000000 ++ [128, 0, 0, 0] ++ List.replicate 44 0 ++ cellEntry

def aPlan : Plan := { tAct := 100000000, cells := [aCell] }

/-- A list of bytes at device address 0. -/
def memOf (bs : List Byte) : Memory :=
  (List.range bs.length).filterMap (fun k => let b := bs.getD k 0; if b = 0 then none else some (k, b))

/-- Port 7 runs with the plan of one cell, us µs after the first frame boundary; slots 0 and 19 are configured. -/
def rxAt (us : Int) (x : RxStream) : State :=
  { live with
    fh := { active := some aPlan, rx := if x = {} then [] else [(4, x)]
            notes := [{ cell := 511, frame := 0, slot := 0, uplink := true, late := false },
                      { cell := 511, frame := 0, slot := 19, uplink := true, late := false }] }
    regs := [(fhBlock + 0x020 + 28, 1)]
    td := { base := ((gps0 + us * 1000) * 2 ^ 16).toNat } }

/-- The headers of a frame of port 7's VLAN, of an eCPRI type. -/
def aHdr (typ : Nat) : FhHdr :=
  { transport := .ethernet, tagged := true, len := 9216, typ := typ, vlan := 4095, seq := 0 }

/-- A state that may take the plan of one cell. -/
def planState : State :=
  { live with cfg := { loaded := true, radio := true, planCells := 1, planUnits := 100, planCodes := 2 }, mem := memOf planRecord }

/-- The cell passes every check where its index stands for format C0, once in 160 ms (the 3GPP table is opaque). -/
theorem aCell_checks (h : aCell.prach = some (⟨false, 1, 15000⟩, 1)) :
    planState.checkCells [aCell] (([aCell].map Cell.units).sum) = 0 := by
  have b : planState.badCell aCell = false := by
    have c : CellConfig.ofCode aCell.config = some ⟨1, 273, 4, 4, 100, 690⟩ := by decide +kernel
    unfold State.badCell
    rw [c]
    simp only [h, Option.isNone_some, Bool.or_false]
    decide +kernel
  have l : [aCell].map Cell.prachLoad = [1] := by
    have k : aCell.prachStreams = 1 := by decide +kernel
    simp [Cell.prachLoad, h, k, PrachFormat.weight]
  unfold State.checkCells
  simp only [l, b, List.any_cons, List.any_nil, Bool.or_false]
  decide +kernel

/-- The plan passes every check, given the same. -/
theorem wit_RadioCommands_accept (h : aCell.prach = some (⟨false, 1, 15000⟩, 1)) :
    planState.isPf .pf = true ∧ planState.dieOn .rd = true ∧
      planState.readPlan (planState.reg64 (fhBlock + 0x004) (fhBlock + 0x008)) = some aPlan ∧
      planState.checkPlan aPlan.cells aPlan.tAct = 0 := by
  refine ⟨by decide +kernel, by decide +kernel, by decide +kernel, ?_⟩
  unfold State.checkPlan
  rw [show aPlan.cells = [aCell] from rfl]
  simp only [aCell_checks h]
  decide +kernel

theorem wit_FronthaulCommands_1 :
    let s := rxAt 100 {}
    s.halted .radio = false ∧ s.portUp 7 = true ∧ (s.rxMatch (ifaceOf 7 none) 4095 0).map (·.1) = some 0 ∧
      (s.rxMatch (ifaceOf 7 none) 4095 4).map (·.1) = some 4 ∧ s.rxMatch (ifaceOf 7 none) 4095 8 = none ∧
      (s.txMatch (ifaceOf 7 none) 4095 8).map (·.1) = some 3 ∧ s.rxMatch (ifaceOf 7 none) 4095 9 = none ∧
      s.txMatch (ifaceOf 7 none) 4095 9 = none ∧ (aHdr 0).supported 0 = true ∧ (aHdr 2).supported 2 = true ∧
      ({ typ := 1, scs := 0 } : FhSection).supported = true ∧
      ({ typ := 3, scs := 60000 } : FhSection).supported = false ∧
      FhComp.blockFloat.supported (some 14) = true ∧
      FhComp.blockFloat.supported (some 15) = false ∧
      windowOf aCell (s.tSym aCell.mu 0 0 0) (s.rxTime (portQ 7 none) 0) = 0 ∧ s.slotOff aCell 0 0 true = false ∧
      tsorted 0 s.fh.rx = true := by
  decide +kernel

theorem wit_FronthaulCommands_2 :
    windowOf aCell ((rxAt (-1) {}).tSym aCell.mu 0 0 0) ((rxAt (-1) {}).rxTime (portQ 7 none) 0) = 1 ∧
      windowOf aCell ((rxAt 0 {}).tSym aCell.mu 0 0 0) ((rxAt 0 {}).rxTime (portQ 7 none) 0) = 0 ∧
      windowOf aCell ((rxAt 150 {}).tSym aCell.mu 0 0 0) ((rxAt 150 {}).rxTime (portQ 7 none) 0) = 0 ∧
      windowOf aCell ((rxAt 151 {}).tSym aCell.mu 0 0 0) ((rxAt 151 {}).rxTime (portQ 7 none) 0) = 2 ∧
      windowOf aCell ((rxAt 501 {}).tSym aCell.mu 0 1 0) ((rxAt 501 {}).rxTime (portQ 7 none) 0) = 0 ∧
      (rxAt 501 {}).slotOff aCell 0 1 true = true := by
  decide +kernel

theorem wit_FronthaulCommands_3 :
    let y : RxSym := { frame := 0, slot := 19, sym := 13, prbs := [272], count := 12 }
    let s := (rxAt 9970 { syms := [y] }).reachRaw 0
    let s1 := s.seqCheck 4 0
    s1.halted .radio = false ∧ windowOf aCell (s1.tSym aCell.mu 0 19 13) (s1.rxTime (portQ 7 none) 0) = 0 ∧
      s1.slotOff aCell 0 19 true = false ∧ ((tget {} s.fh.rx 4).symOf 0 19 13).prbs = [272] ∧
      (∃ k < 1, 272 + k ∈ ((tget {} s.fh.rx 4).symOf 0 19 13).prbs) := by
  decide +kernel

theorem wit_FronthaulCommands_4 :
    let y : RxSym := { frame := 0, slot := 0, sym := 0, prbs := [272], count := 12, side := some 0x030000004000 }
    let s := rxAt 0 {}
    let z := rxAt 0 { syms := [y] }
    let close := s.tSym aCell.mu 0 0 0 + fine (aCell.ta4MaxUs * 1000)
    s.fh.active = some aPlan ∧ aPlan.rxStreams[4]? = some (aCell, 4) ∧ s.cellUp aCell = true ∧
      cPast (s.reachC (cOfFine close)).now close = true ∧ (s.reachC (cOfFine close)).slotOff aCell 0 0 true = false ∧
      (List.range aCell.prbs).filter (fun q => !((tget {} s.fh.rx 4).symOf 0 0 0).prbs.contains q) ≠ [] ∧
      ((tget {} s.fh.rx 4).symOf 0 0 0).side = none ∧
      ((tget {} z.fh.rx 4).symOf 0 0 0).side = some 0x030000004000 := by
  decide +kernel

theorem wit_FronthaulCommands_5 :
    let y : RxSym := { frame := 0, slot := 19, sym := 13, prbs := [272], count := 12 }
    let x : RxStream := { syms := [y] }
    let s := rxAt 9970 x
    let due := s.symEnd aCell.mu 0 19 13
    x.syms.find? (fun z => z.frame == 0 && z.slot == 19 && z.sym == 13) = some y ∧ 0 < y.count ∧ y.side = none ∧
      s.fh.rx = [(4, x)] ∧ tsorted 0 s.fh.freeze = true ∧ cPast (s.reachC (cOfFine due)).now due = true := by
  decide +kernel

theorem wit_FronthaulCommands_6 :
    let y : RxSym := { frame := 0, slot := 19, sym := 13, prbs := [272], count := 12, side := some 0 }
    let s : State := { rxAt 9970 { syms := [y] } with
      fh := { (rxAt 9970 { syms := [y] }).fh with freeze := [(511, .symbols 1 [(0, 19, 13)])] } }
    tget .none s.fh.freeze 511 = .symbols 1 [(0, 19, 13)] ∧ s.cellStreams 511 = [0, 1, 2, 3, 4] ∧
      (∀ i ∈ s.cellStreams 511, s.updateOwed [(0, 19, 13)] i = false) ∧ s.dieOn .rd = true ∧
      tsorted 0 s.fh.freeze = true ∧ tsorted 0 s.regs = true ∧ s.isPf .pf = true := by
  decide +kernel

theorem wit_FronthaulCommands_7 :
    1 ≤ bitsOf (0x100 : Word).toNat 15 8 ∧ bitsOf (0x2000 : Word).toNat 15 8 ≤ 32 ∧
      ¬ bitsOf (0x2100 : Word).toNat 15 8 ≤ 32 ∧ live.fh.active = none ∧ live.fh.next = none := by
  decide +kernel

theorem wit_RadioCommands_1 :
    let s := rxAt 0 {}
    let busy : State := { s with fh := { s.fh with prachFree := 10 ^ 30 } }
    let reps : List PrachRep := [{ rx := 4, after := 0, sym := 0, buf := 0x030000000000 }]
    let close := s.tSym aCell.mu 0 0 0 + fine (aCell.ta4MaxUs * 1000)
    let done (u : State) : Int := max close u.fh.prachFree + 1 * PrachFormat.weight ⟨false, 1, 15000⟩ * aCell.prachStreams * 500000
    s.halted .radio = false ∧ s.runCells.find? (fun q => q.cell == 511) = some aCell ∧
      reps.length = 1 * aCell.prachStreams ∧ (∀ r ∈ reps, r.rx.val ∈ (s.cellStreams 511).drop aCell.conf.rx) ∧
      allDistinct reps = true ∧ cPast (s.reachC (cOfFine close)).now close = true ∧ done s ≤ close + fine 200000 ∧
      close + fine 200000 < done busy ∧ tsorted 0 s.fh.freeze = true ∧ tsorted 0 s.regs = true ∧ s.muted 511 = false := by
  decide +kernel

theorem wit_RadioCommands_2 :
    let s := rxAt 8400 {}
    let early := rxAt (-600) {}
    let t := s.reachNs (s.configDue aCell 0 18)
    s.noteOf 511 0 18 true = none ∧ s.noteOf 511 0 18 false = none ∧ t.pastNs (s.configDue aCell 0 18) = true ∧
      s.pastNs (s.configDue aCell 0 18) = true ∧ early.pastNs (early.configDue aCell 0 18) = false ∧
      s.dieOn .rd = true ∧ inHd (s.key 0x038000000000) = true ∧ s.rangeOk 0x038000000000 8 = true := by
  decide +kernel

theorem wit_RadioCommands_3 :
    fftRadices [4, 4, 4, 2] 128 = true ∧ fftRadices [2, 2, 2, 3, 5] 120 = true ∧ fftSizeOk 4096 = true ∧ fftSizeOk 12 = true ∧ live.dieOn .rd = true ∧ tsorted 0 live.fh.fft = true := by
  decide +kernel

theorem wit_RadioCommands_4 :
    let j : FftJob := { src := 0, dst := 0, size := 128, inverse := false, strobe := true }
    let s : State := { live with fh := { fft := [(7, { jobs := [j] })] }, td := { fftStart := [(7, 1)] } }
    (tget {} s.fh.fft 7).jobs = [j] ∧ 0 < tget 0 s.td.fftStart 7 ∧ tsorted 0 s.fh.fft = true := by
  decide +kernel

/-- The allocation of one PRB in cell 511's slot 0, and the passes and bookings behind it. -/
def anAlloc : LlrAlloc := { cell := 511, frame := 0, slot := 0, startPrb := 272, prbs := 1, syms := 1, per := 64 }

theorem wit_RadioCommands_nrx :
    let s : State := { rxAt 0 {} with
      fh := { (rxAt 0 {}).fh with active := some { aPlan with cells := [{ aCell with nrx := 1 }] } }
      tt := { entries := [(0, { aBooking .late with start := 0 })] }
      es := [(83, { done := 5 })] }
    let buf (a : Nat) : NrxBuf := { cell := 511, frame := 0, slot := 0, addr := a, len := 8 }
    s.halted .radio = false ∧ s.dieOn .rd = true ∧ s.runCells.find? (fun x => x.cell == 511) = some { aCell with nrx := 1 } ∧
      inRd 0x030000000000 65535 = true ∧ inRd 0x030000100000 8 = true ∧ s.nrxFree (buf 0x030000000000) = true ∧
      s.passCounted (83, 5) = true ∧ s.passCounted (83, 6) = false ∧ s.passLost (83, 6) = true ∧
      s.bookingBad (0, 0) = true ∧ s.bookingBad (3, 63) = false ∧ llr8 0x7FC00000 = none ∧ llr8 0x3F800000 = some 4 := by
  decide +kernel

theorem wit_RadioCommands_5 :
    live.readPlan 0 = none ∧ live.isPf .pf = true := by
  decide +kernel

theorem wit_RadioCommands_6 :
    let s : State := { planState with mem := memOf (planRecord.set 66 9) }
    (s.readPlan (s.reg64 (fhBlock + 0x004) (fhBlock + 0x008))).map (fun p => s.checkPlan p.cells p.tAct) = some 2 := by
  decide +kernel

theorem wit_RadioCommands_7 :
    let s : State := { live with fh := { active := some aPlan, next := some { aPlan with tAct := 5 }, unload := some 7 } }
    let u : State := { s with fh := { s.fh with unload := some 4 } }
    s.halted .radio = false ∧ s.isPf .pf = true ∧ s.dieOn .rd = true ∧ s.fh.active.isSome = true ∧ s.fh.next.isSome = true ∧
      s.fh.next = some { aPlan with tAct := 5 } ∧ aPlan.cells ≠ [] ∧ (∀ d, s.fh.unload = some d → 5 ≤ d) ∧
      (s.reachNs (5 : Nat)).pastNs (5 : Nat) = true ∧ (∀ p, u.fh.next = some p → 4 < p.tAct) ∧
      (u.reachNs (4 : Nat)).pastNs (4 : Nat) = true ∧ u.armedCells = [] := by
  intro s u
  refine ⟨by decide +kernel, by decide +kernel, by decide +kernel, rfl, rfl, rfl, by decide +kernel, ?_, by decide +kernel, ?_,
    by decide +kernel, by decide +kernel⟩
  · intro d h
    cases h
    decide
  · intro p h
    cases h
    decide

theorem wit_RadioCommands_shed :
    let s : State := { live with
      fh := { active := some aPlan }
      pw := { isl := (List.replicate 499 { st := .on }).set 489 { st := .failedShort } } }
    s.fh.active = some aPlan ∧ aPlan.cells.filter (fun x => (s.toShed aPlan).contains x.cell) = [aCell] ∧
      (s.reachNs (s.slotAfter aCell.mu)).pastNs (s.slotAfter aCell.mu) = true := by
  intro s
  have d : ([aCell].filter (fun c => !s.fh.stopped.contains c.cell)).filter
      (fun c => (s.isl (486 + c.port / 2)).st == .failedShort) = [aCell] := by decide +kernel
  have h : (s.toShed aPlan).contains aCell.cell = true := by
    unfold State.toShed
    rw [show aPlan.cells = [aCell] from rfl]
    simp only [d]
    exact List.contains_iff_mem.mpr (List.mem_append_left _ (List.mem_singleton.mpr rfl))
  refine ⟨rfl, ?_, by decide +kernel⟩
  rw [show aPlan.cells = [aCell] from rfl, List.filter_cons, if_pos h, List.filter_nil]

theorem wit_DibberCommands :
    let d (x : Dibber) : State :=
      { live with fh := { db := [(47, { x with halted := false })] }, regs := [(dbReg 47 0, 0x18)], td := { signals := [94, 95] } }
    let l : DbLoad := { set := .main, reg := .v 31, lanes := 1, bytes := [1, 2, 3, 4], bad := false }
    (d {}).halted .radio = false ∧ (d {}).dbOn 47 = true ∧ tsorted 0 (d {}).fh.db = true ∧ tsorted 0 (d {}).regs = true ∧
      (d {}).dbStrobed 47 false = true ∧ (d {}).dbStrobed 47 true = true ∧
      (d {}).regBit (dbReg 47 0) 3 = true ∧ (d {}).regBit (dbReg 47 0) 4 = true ∧
      ((d {}).dbOf 47).slotPend = false ∧ ((d {}).dbOf 47).symPend = false ∧ ((d {}).dbOf 47).halted = false ∧
      ((d {}).dbOf 47).cur = .main ∧ ((d { cur := .set2 }).dbOf 47).cur = .set2 ∧
      ((d { symPend := true, cur := .set2 }).dbOf 47).symPend = true ∧
      ((d { cur := .set1 }).dbOf 47).cur ≠ .set2 ∧ ((d { cur := .set1 }).dbOf 47).cur ≠ .main ∧
      ((d { loads := [l] }).dbOf 47).loads = [l] ∧
      tsorted 0 ((d { cur := .set1, set1 := { a := [(255, (1, 2))] } }).dbOf 47).regs.a = true ∧
      tsorted 0 ((d { cur := .set1, set1 := { v := [(1023, 1)] } }).dbOf 47).regs.v = true ∧
      inRd 0x030000000000 64 = true ∧ inRd 0x020000000000 64 = false ∧ live.dieOn .rd = true := by
  decide +kernel

/-! ### Witnesses: chapter 11 -/

/-- A job: OPC, FLAGS, HARQ, A, E, bytes 46 to 49 and the word at 50, with its input and output in RD SRAM. -/
def aJobWord (opc flags harq a e b46 b47 b48 b49 w50 : Nat) : Nat :=
  opc + flags * 2 ^ 8 + 511 * 2 ^ 16 + (2 ^ 64 - 1) * 2 ^ 64 + 0x030000000000 * 2 ^ 192 + harq * 2 ^ 240 +
    0x030000010000 * 2 ^ 256 + a * 2 ^ 304 + e * 2 ^ 336 + b46 * 2 ^ 368 + b47 * 2 ^ 376 + b48 * 2 ^ 384 + b49 * 2 ^ 392 +
    w50 * 2 ^ 400

def jobRecs : List Nat :=
  [aJobWord 1 16 16383 24 1 0 1 1 1 0, aJobWord 2 0 0 24 1 0 1 1 0 0, aJobWord 3 0 0 12 18 0 0 0 0 0,
   aJobWord 4 0 0 12 18 1 0 0 0 0, aJobWord 5 0 0 1 16 2 0 64 127 0, aJobWord 6 0 0 1 16 2 0 64 127 0]

/-- Cluster 3 ENABLED, with those six jobs in its table. -/
def dsAt (flags : Nat) : State :=
  { live with
    cfg := { loaded := true, harqRd := 1, harqStack := 7, harqHbm := 1, radio := true }
    regs := [(dsReg 3 0, 1)]
    ds := { cluster := [(3, { jobs := jobRecs.map (fun w => { job := BitVec.ofNat 512 (w + flags * 2 ^ 8) }) })] } }

theorem wit_CodingCommands_1 :
    let s := dsAt 0
    s.halted .radio = false ∧ s.dieOn .rd = true ∧ s.dsOn 3 = true ∧ s.regBit (dsReg 3 0) 0 = true ∧
      s.dsFull 3 = false ∧ s.dsRing (dsReg 3 0x010) < (17 + 2 ^ 16 - (s.dsOf 3).sqHead) % 2 ^ 16 ∧
      (16 + 2 ^ 16 - (s.dsOf 3).sqHead) % 2 ^ 16 ≤ s.dsRing (dsReg 3 0x010) ∧
      ((s.dsOf 3).cqTail + 2 ^ 16 - s.regB (dsReg 3 0x024) 15 0) % 2 ^ 16 < (1 + 2 ^ 16 - s.regB (dsReg 3 0x024) 15 0) % 2 ^ 16 := by
  decide +kernel

theorem wit_CodingCommands_2 :
    let s : State := { dsAt 0 with ds := { cluster := [(3, { jobs := [{ job := BitVec.ofNat 512 (jobRecs.getD 0 0) }] })] } }
    s.halted .radio = false ∧ (s.dsOf 3).jobs = [{ job := BitVec.ofNat 512 (jobRecs.getD 0 0) }] ∧
      (s.setReg (dsReg 3 0) ((2 : Word).toNat &&& 0x31)).dsFull 3 = false ∧ (live.dsOf 3).jobs = [] := by
  decide +kernel

theorem wit_CodingCommands_3 :
    let s (w : Nat) : State := { dsAt 0 with ds := {}, regs := [(dsReg 3 0, 1), (dsReg 3 0x014, 1)], mem := memOf (leBytes 64 w) }
    (∀ w ∈ jobRecs, (DsFields.parse (BitVec.ofNat 512 ((s w).loadNat ((s w).reg64 (dsReg 3 0x008) (dsReg 3 0x00C) + ((s w).dsOf 3).sqHead % (s w).dsRing (dsReg 3 0x010) * 64) 64))).badJob = false) ∧
      (∀ w ∈ jobRecs, (s w).harqRefused (DsFields.parse (BitVec.ofNat 512 w)) = false) ∧
      (∀ w ∈ jobRecs, (DsFields.parse (BitVec.ofNat 512 w)).badAddress = false) ∧
      (∀ w ∈ jobRecs.tail, (DsFields.parse (BitVec.ofNat 512 w)).opc ≠ 1) ∧
      (DsFields.parse (BitVec.ofNat 512 (jobRecs.getD 5 0 + 0x030030000000 * 2 ^ 192))).badAddress = true ∧
      (DsFields.parse (BitVec.ofNat 512 0)).badJob = true ∧ ((s 0).dsOf 3).jobs.length < 256 ∧
      ((s 0).dsOf 3).sqHead ≠ (s 0).regB (dsReg 3 0x014) 15 0 ∧ tsorted 0 (s 0).ds.cluster = true ∧
      (s 0).dsFull 3 = false := by
  decide +kernel

theorem wit_CodingCommands_4 :
    let s : State := { dsAt 0 with ds := { cluster := [(3, { jobs := [{ job := BitVec.ofNat 512 2 }] })] }, td := { raw := 2 ^ 32 } }
    (s.dsOf 3).jobs[0]? = some { job := BitVec.ofNat 512 2 } ∧ s.dsFull 3 = false ∧
      s.pastNs ((DsFields.parse (BitVec.ofNat 512 2)).deadline + 1 : Nat) = true := by
  decide +kernel

/-- Cluster 3 ENABLED, with one job in its table. -/
def jobAt (w : Nat) : State := { dsAt 0 with ds := { cluster := [(3, { jobs := [{ job := BitVec.ofNat 512 w }] })] } }

theorem wit_CodingCommands_5 :
    let s (k : Nat) := jobAt (jobRecs.getD (k - 1) 0)
    (∀ k ∈ [2, 4], ((s k).dsJob 3 0 k).map (fun r => r.2.2.rangeBad r.1.src r.1.inBytes) = some false) ∧
      ((s 3).dsJob 3 0 3).map (fun r => (r.2.2.rangeBad r.1.src r.1.e, r.1.segs.1)) = some (false, 1) ∧
      ((s 5).dsJob 3 0 5).map (fun r => (r.2.2.rangeBad r.1.src r.1.inBytes, r.1.verify)) = some (false, false) ∧
      ((s 6).dsJob 3 0 6).map (fun r => r.2.2.rangeBad r.1.src r.1.e) = some false ∧
      ((s 1).dsJob 3 0 1).map (fun r => (r.1.combine, r.1.keep, r.1.new, r.2.1.sel)) = some (false, false, true, none) ∧
      ((s 1).dsJob 3 0 1).map (fun r => (r.2.2.rangeBad r.1.src r.1.e, r.2.2.keepNoRoom r.1)) = some (false, false) := by
  decide +kernel

theorem wit_CodingCommands_6 :
    (∀ k ∈ [2, 4, 5], let s : State := { jobAt (jobRecs.getD (k - 1) 0) with bk := { err := [(live.key 0x030000000000, 3)] } }
      (s.dsJob 3 0 k).map (fun r => r.2.2.rangeBad r.1.src r.1.inBytes) = some true) ∧
    (∀ k ∈ [1, 3, 6], let s : State := { jobAt (jobRecs.getD (k - 1) 0) with bk := { err := [(live.key 0x030000000000, 3)] } }
      (s.dsJob 3 0 k).map (fun r => r.2.2.rangeBad r.1.src r.1.e) = some true) := by
  decide +kernel

theorem wit_HarqCommands_1 :
    let w : Nat := jobRecs.getD 0 0 + 2 * 2 ^ 8 + 8 * 2 ^ 448 + (gps0.toNat + 740000) * 2 ^ 128
    let x := DsFields.parse (BitVec.ofNat 512 w)
    let s (c : List Byte) : State := { dsAt 0 with
      ds := { cluster := [(3, { jobs := [{ job := BitVec.ofNat 512 w }] })] }, fh := { active := some aPlan }
      td := { base := gps0.toNat * 2 ^ 16 + 700000 * 2 ^ 16 }
      mem := (memOf c).map (fun e => (e.1 + live.key 0x030000000008, e.2)) }
    let word (c : List Byte) : Nat × Nat × Nat :=
      let t := (s c).reachNs x.start
      (t.loadNat (sramBase .rd + x.w56) 8, t.nselSlot aCell x.start)
    (s []).halted .radio = false ∧ (s []).dsOn 3 = true ∧ (s []).regBit (dsReg 3 0) 0 = true ∧ x.opc = 1 ∧ x.nsel = true ∧
      ((s []).dsOf 3).jobs[0]? = some { job := BitVec.ofNat 512 w } ∧
      (s []).runCells.find? (fun q => q.cell == x.cell) = some aCell ∧
      ((s []).reachNs x.start).pastNs x.start = true ∧
      word [0, 0, 1] = (0x10000, 0, 0) ∧ word [0, 0, 3] = (0x30000, 0, 0) ∧ word [] = (0, 0, 0) := by
  decide +kernel

theorem wit_HarqCommands_2 :
    let s := dsAt 0
    s.dieOn .rd = true ∧ s.handleNamed 16382 = false ∧ s.handleNamed 16383 = true ∧ s.ds.freeing = [] ∧ s.ds.wants = [] := by
  decide +kernel

/-- Handle 0 in a state of its record, one block of 192 bytes at the start of the RD pool or of the spill pool. -/
def harqAt (st addr : Nat) : State :=
  (({ dsAt 0 with ds := {} } : State).setHandle 0 { st := st, c := 1, cell := 511, addr := addr, ncb64 := 3, lastUse := 0 })

/-- An LDPC_DEC job with FLAGS for handle 0 or another, of A bits. -/
def decAt (st flags harq a : Nat) : State :=
  { harqAt st (({ dsAt 0 with ds := {} } : State).harqBase + 0x40000) with
    ds := { cluster := [(3, { jobs := [{ job := BitVec.ofNat 512 (aJobWord 1 flags harq a 1 0 1 1 1 0) }] })] } }

theorem wit_CodingCommands_combine :
    ((decAt 1 4 0 24).dsJob 3 0 1).map (fun r =>
        (r.1.combine, r.1.new, r.1.keep, r.2.2.keepNoRoom r.1, (r.2.2.handle r.1.harq).st)) = some (true, false, false, false, 1) ∧
      ((decAt 1 4 0 24).dsJob 3 0 1).map (fun r =>
        r.2.2.rangeBad (r.2.2.handle r.1.harq).addr (r.2.2.handle r.1.harq).len) = some false ∧
      ((decAt 4 4 0 24).dsJob 3 0 1).map (fun r => (r.2.2.keepNoRoom r.1, (r.2.2.handle r.1.harq).st)) = some (false, 4) ∧
      ((decAt 1 8 0 6).dsJob 3 0 1).map (fun r => (r.1.combine, r.1.keep, r.2.2.keepNoRoom r.1)) = some (false, true, false) := by
  decide +kernel

theorem firstFit_none (lo hi len : Nat) (used : List (Nat × Nat)) (h : hi < lo + len) : firstFit lo hi len used = none := by
  unfold firstFit
  rw [List.find?_eq_none]
  intro a _
  simp
  omega

/-- A KEEP of 101 blocks in a pool of 768 KiB: with a record to spill it waits, without one it is not stored. -/
theorem wit_CodingCommands_keep :
    let s (st : Nat) := decAt st 8 16383 844800
    let x := DsFields.parse (BitVec.ofNat 512 (aJobWord 1 8 16383 844800 1 0 1 1 1 0))
    (∀ st ∈ [1, 4], ((s st).dsJob 3 0 1).map (·.1) = some x) ∧ x.combine = false ∧ x.keep = true ∧
      (s 1).keepNoRoom x = true ∧ (s 1).canSpill = true ∧ (s 4).canSpill = false ∧
      ((s 4).keepRecord x []).2 = false := by
  intro s x
  have r (t : State) (h : t.harqBase = (s 1).harqBase) : t.harqRoom false (x.shape.c * ceilDiv x.shape.ncb 64 * 64) = none := by
    unfold State.harqRoom
    rw [h]
    exact firstFit_none _ _ _ _ (by decide +kernel)
  refine ⟨by decide +kernel, by decide +kernel, by decide +kernel, ?_, ?_, ?_, ?_⟩
  · unfold State.keepNoRoom
    simp only [r ((s 1).emptyHandle x.harq) (by decide +kernel)]
    decide +kernel
  · unfold State.canSpill State.spillVictim
    rw [sort_one (x := 0) (by decide +kernel)]
    have u : (s 1).harqUsed true = [] := by decide +kernel
    simp only [List.head?_cons]
    unfold State.harqRoom
    rw [if_pos rfl, u, firstFit_nil _ _ _ (by decide +kernel)]
    rfl
  · unfold State.canSpill State.spillVictim
    rw [show (s 4).handles.filter (fun h => ((s 4).handle h).st == 1 && !(s 4).handleNamed h) = [] by decide +kernel,
      List.mergeSort_nil]
    rfl
  · unfold State.keepRecord
    have n : (((s 4).handle x.harq).st == 1 && ((s 4).handle x.harq).c == x.shape.c &&
        ((s 4).handle x.harq).ncb64 == ceilDiv x.shape.ncb 64) = false := by decide +kernel
    simp only [n, Bool.false_eq_true, if_false, r ((s 4).emptyHandle x.harq) (by decide +kernel)]

theorem wit_HarqCommands_fetch :
    let s := harqAt 2 (({ dsAt 0 with ds := {} } : State).spillBase)
    let big := s.setHandle 0 { s.handle 0 with c := 255, ncb64 := 255 }
    s.dieOn .rd = true ∧ (s.handle 0).st = 2 ∧ s.harqRoom false (s.handle 0).len = some (s.harqBase + 0x40000) ∧
      (big.handle 0).st = 2 ∧ big.harqRoom false (big.handle 0).len = none ∧ 0 ∉ big.ds.wants := by
  intro s big
  refine ⟨by decide +kernel, by decide +kernel, ?_, by decide +kernel, ?_, by decide +kernel⟩
  · have u : s.harqUsed false = [] := by decide +kernel
    unfold State.harqRoom
    rw [u]
    exact firstFit_nil _ _ _ (by decide +kernel)
  · unfold State.harqRoom
    exact firstFit_none _ _ _ _ (by decide +kernel)

theorem wit_HarqCommands_spill :
    let s : State := { harqAt 1 (({ dsAt 0 with ds := {} } : State).harqBase + 0x40000) with ds := { wants := [1] } }
    s.halted .radio = false ∧ s.spillVictim = some 0 ∧ s.harqRoom true (s.handle 0).len = some s.spillBase ∧
      s.harqNeed = true ∧ (∀ y ∈ s.ds.moves, y.toHbm = false) := by
  intro s
  refine ⟨by decide +kernel, ?_, ?_, by decide +kernel, by decide +kernel⟩
  · unfold State.spillVictim
    rw [sort_one (x := 0) (by decide +kernel)]
    rfl
  · have u : s.harqUsed true = [] := by decide +kernel
    unfold State.harqRoom
    rw [u]
    exact firstFit_nil _ _ _ (by decide +kernel)

theorem wit_HarqCommands_3 :
    let a := ({ dsAt 0 with ds := {} } : State).harqBase + 0x40000
    let mv : HarqMove := { handle := 0, toHbm := true, dst := ({ dsAt 0 with ds := {} } : State).spillBase }
    let s : State := { harqAt 3 a with ds := { moves := [mv] } }
    let l : State := { harqAt 4 a with ds := { moves := [mv] } }
    s.halted .radio = false ∧ s.ds.moves.find? (fun m => m.handle == 0) = some mv ∧ s.ds.freeing = [] ∧ s.ds.wants = [] ∧
      (s.handle 0).st = 3 ∧ s.rangeBad (s.handle 0).addr (s.handle 0).len = false ∧
      s.rangeOk (s.handle 0).addr (s.handle 0).len = true ∧ s.rangeOk mv.dst (s.handle 0).len = true ∧
      ({ s with bk := { err := [(s.key a, 3)] } } : State).rangeBad a 192 = true ∧ (l.handle 0).st ≠ 3 := by
  decide +kernel

/-! ### Witnesses: chapter 12 -/

/-- A module whose counter stands at raw, with some registers written. -/
def tdAt (raw : Nat) (rs : Table Word) : State := { live with td := { raw := raw }, regs := rs }

theorem wit_TideCommands_1 :
    live.fnLive 0 = true ∧ tsorted 0 live.td.latch = true ∧ live.fenced (.core (.pd 3) 3) = false ∧
      live.isPf .pf = true ∧ live.mayAdjust .pf = true ∧ live.td.adj = none ∧
      (tdAt 0 [(tdBlock, 1)]).regBit tdBlock 0 = true := by
  decide +kernel

theorem wit_TideCommands_2 :
    live.planLoaded = false ∧ -5000000 ≤ (-5000000 : Word).toInt ∧ (4999999 : Word).toInt ≤ 4999999 ∧
      (-5000001 : Word).toInt < -5000000 ∧ 4999999 < (5000000 : Word).toInt ∧ tsorted 0 live.regs = true ∧
      tsorted 0 live.td.stb = true := by
  decide +kernel

theorem wit_TideCommands_3 :
    let s := tdAt (2 ^ 40) [(tdBlock, 1), (tdBlock + 0x008, 1)]
    let r : State := { tdAt 5 [(tdBlock, 0x31), (tdBlock + 0x008, 1)] with td := { raw := 5, syncSeen := 5, adj := some { at_ := 9, op := 0, v := 0, rate := 0 } } }
    s.regBit tdBlock 0 = true ∧ s.sourceLost 0 = true ∧ s.regB tdBlock 6 4 ≠ 3 ∧ s.srcKind ≠ 0 ∧ tsorted 0 s.regs = true ∧
      s.td.adj = none ∧ r.sourceLost 0 = false ∧ r.regB tdBlock 6 4 = 3 ∧ r.srcKind ≠ 0 ∧ r.td.adj ≠ none ∧
      1100 * 2 ^ 16 ≤ (72089600 : BitVec 96).toInt.natAbs := by
  decide +kernel

theorem wit_TideCommands_4 :
    let s : State := { live with zl := { links := [(35, { st := .up })] } }
    s.linkUp 35 = true := by
  decide +kernel

theorem wit_TideAdjustment :
    let s (op v : Nat) : State := { live with td := { raw := 100, base := 5, adj := some { at_ := 110, op := op, v := v, rate := -1 } } }
    (∀ op < 3, ∃ a, (s op (2 ^ 96 - 1)).td.adj = some a ∧ a.op = op ∧ a.v < 2 ^ 96) ∧ live.clk.tideLock = true ∧
      tsorted 0 (s 1 (2 ^ 95)).regs = true ∧ 2 ^ 95 ≤ 2 ^ 95 ∧ (s 2 0).cAt (64 * 110) ≠ 0 ∧
      (s 1 (2 ^ 95 - 1)).cAt (64 * 110) + (2 ^ 95 - 1) < 2 ^ 96 := by
  decide +kernel

/-- The headers of a PTP message that the ports take. -/
def aPtp : PtpHdr := { domain := 43, ethernet := true, multicast := true, msg := .syncOneStep, seq := 0 }

theorem wit_PtpCommands_1 :
    let s := tdAt 7 [(tdPort 31, 5), (fhBlock + 0x020 + 28, 3)]
    s.halted .radio = false ∧ s.ptpUp 31 = true ∧ s.regBit (tdPort 31) 0 = true ∧ s.regBit (tdPort 31) 2 = true ∧
      aPtp.supported = true := by
  decide +kernel

theorem wit_PtpCommands_2 :
    let e : TcEntry := { q := 31, key := 9, residence := 1, since := 0 }
    let s (l : List TcEntry) : State := { tdAt 0 [(tdPort 31, 0x5D02), (fhBlock + 0x020 + 28, 3)] with td := { raw := 2 ^ 40, tc := l } }
    (s []).halted .radio = false ∧ (s []).ptpUp 31 = true ∧ (s []).regBit (tdPort 31) 0 = false ∧
      (s []).regBit (tdPort 31) 1 = true ∧ (s []).regBit (tdPort 31) 14 = true ∧
      (0 : BitVec 70).toNat ≤ 64 * (s []).td.raw ∧ (s []).regB (tdPort 31) 13 8 < 32 ∧
      (s []).ptpUp ((s []).regB (tdPort 31) 13 8) = true ∧
      ((s []).td.tc.filter (fun e => e.q / 4 == 7)).length < 64 ∧
      (s [e]).td.tc.find? (fun e => e.q == 31 && e.key == (9 : BitVec 104).toNat) = some e ∧
      (s []).td.tc.find? (fun e => e.q == 31 && e.key == (9 : BitVec 104).toNat) = none ∧
      ((s [e]).td.tc.filter (fun e => e.q / 4 == 7))[0]? = some e ∧
      e.since + rawUs 1000000 ≤ ((s [e]).reachRaw (e.since + rawUs 1000000)).td.raw := by
  decide +kernel

theorem wit_StrobeCommands_1 :
    let s : State := tdAt 0 [(stbReg 63 0, 2), (stbReg 63 16, 1000), (tdBlock + 0x0AC, 0x4003F), (dbBlock + 0x2F00, 0x3F3F00)]
    (s.stbTargets 63).at (tget 0 s.td.stb 63) = some 0 ∧ s.stbMode 63 ≠ 0 ∧
      cPast (s.reachC (cOfFine (0 - s.stbAdv 63))).now (0 - s.stbAdv 63) = true ∧
      (tdAt 0 [(stbReg 63 0, 1)]).stbMode 63 ≠ 0 ∧ s.regB (dbBlock + 0x100 * 47) 15 8 = 63 ∧
      s.regB (dbBlock + 0x100 * 47) 23 16 = 63 ∧ s.regBit (tdBlock + 0x0A0 + 4 * 3) 18 = true ∧
      s.regBit (tdBlock + 0x0A0 + 4 * 3) 16 = false ∧ s.regB (tdBlock + 0x0A0 + 4 * 3) 7 0 = 63 := by
  decide +kernel

theorem wit_StrobeCommands_2 :
    (7 : Nat) < dieCores .hd ∧ Acts (.core .hd 7) live ∧ tsorted 0 live.regs = true ∧ tsorted 0 live.td.stb = true ∧
      live.stbMode 63 = 0 := by
  unfold Acts; decide +kernel

theorem wit_StrobeCommands_3 :
    let s : State := tdAt 0 [(ppsReg 1 0, 2), (ppsReg 1 12, 1000)]
    (s.ppsTargets 1).at (tget 0 s.td.pps 1) = some 0 ∧ s.ppsMode 1 ≠ 0 ∧ cPast (s.reachC (cOfFine 0)).now 0 = true ∧
      live.isPf .pf = true ∧ tsorted 0 live.td.pps = true ∧ live.ppsMode 1 = 0 := by
  decide +kernel

theorem wit_StrobeCommands_4 :
    let s := tdAt 0 [(capReg 1 0x14, 0x80000000), (capReg 1 0x18, 2)]
    live.capSelected 1 false = true ∧ tsorted 0 live.td.cap = true ∧ s.capSelected 1 false = true ∧
      (tget {} s.td.cap 1).edges + 1 < max 1 (s.regB (capReg 1 0x18) 23 0) ∧
      max 1 ((tdAt 0 [(capReg 1 0x18, 1)]).regB (capReg 1 0x18) 23 0) ≤ (tget {} live.td.cap 1).edges + 1 ∧
      s.regBit (capReg 1 0x14) 31 = true ∧ (tdAt 0 [(tdBlock + 0x0AC, 0x70000)]).capSelected 5 true = true := by
  decide +kernel

theorem wit_StrobeCommands_5 :
    let s := tdAt 5 [(barCtrl, 1), (tdBlock + 0x08C, 0xFFFFFFFF), (tdBlock + 0x094, 0xFFFFFF)]
    Safe s ∧ s.regBit barCtrl 0 = true ∧ (s.reachC s.barC).past s.barC = true ∧ s.barC < s.now ∧ Acts (.core .hd 7) s ∧
      tsorted 0 s.irq = true ∧ (live.now : Int) ≤ live.barC ∧ Safe live := by
  unfold Acts Safe; decide +kernel

/-! ### Witnesses: chapter 13 -/

/-- Link 35 UP in a fabric that is enabled: this module is 5, module 255 is reached over the link, and the PF's requests
carry job 7. -/
def zlAt (z : Zelic) : State :=
  { live with
    zl := { z with links := [(35, { st := .up, peerModule := 255 })] }
    regs := [(zlBlock, 0x80000005), (zlBlock + 0x400 + 4 * 254, 34), (zlBlock + 0x400 + 4 * 255, 35), (linkReg 35 0, 1),
      (zlBlock + 0x1000, 7)] }

/-- A message of module 255 to this module. -/
def aFrame (typ subop len tag index qaddr : Nat) : ZlFrame :=
  { hdr := BitVec.ofNat 256 (typ + 3 * 2 ^ 6 + 5 * 2 ^ 8 + 255 * 2 ^ 16 + 1 * 2 ^ 24 + tag * 2 ^ 32 + subop * 2 ^ 56 +
      7 * 2 ^ 64 + len * 2 ^ 96 + 100 * 2 ^ 112 + qaddr * 2 ^ 128 + index * 2 ^ 176)
    data := if typ = 1 ∨ typ = 9 then [] else List.replicate len 1 }

/-- Segment 65535 grants job 7 of module 255 every right on 4 KiB of RD SRAM; routine 1023 is job 7's. -/
def quayAt (z : Zelic) : State :=
  ((((zlAt z).storeNat (0x03800E000000 + 32 * 65535) 16 (7 + 7 * 2 ^ 28 + 2 ^ 31 + 255 * 2 ^ 32 + 4096 * 2 ^ 64)).storeNat
    (0x03800E000000 + 32 * 65535 + 16) 6 0x030000000000).storeNat (routineAt 1023) 4 (7 + 2 ^ 31)).storeNat
    (routineAt 1023 + 8) 8 0x030000010000

def aRequest (typ : Nat) : ZlReq := { iss := .fw 43 0, msg := { typ := typ, gen := 1, tag := 131071, dst := 255, len := 256 }, link := some 35 }
def tagAt (r : ZlReq) : State := quayAt { tags := [(131071, { gen := 1, req := some r })] }

theorem wit_ZelicLinks_1 :
    let s : State := { live with zl := { links := [(35, { st := .training })] }, regs := [(linkReg 35 0, 1)] }
    Safe s ∧ tsorted 0 s.zl.links = true ∧ s.isPf .pf = true ∧ (s.linkOf 35).st ≠ .disabled ∧
      (live.linkOf 35).st = .disabled ∧ live.islOn (491 + 35 / 6) = true ∧ (s.linkOf 35).st = .training ∧
      s.regBit (linkReg 35 0) 0 = true ∧ (1 : Word).toNat % 2 = 1 ∧ (2 : Word).toNat % 2 = 0 := by
  unfold Safe; decide +kernel

theorem wit_ZelicLinks_2 :
    let s : State := zlAt {}
    Safe s ∧ s.linkUp 35 = true ∧ s.zlOn = true ∧ (aFrame 13 0 0 0 0 0).parse.typ ∉ zlTypes ∧
      16 ≤ (({ s with zl := { links := [(35, { st := .up, fails := 16 })] } } : State).linkOf 35).fails := by
  unfold Safe; decide +kernel

theorem wit_ZelicLinks_3 :
    let s : State := { zlAt {} with regs := [(zlBlock, 0x80000006), (zlBlock + 0x400 + 4 * 5, 35), (linkReg 35 0, 1)] }
    let m := (aFrame 3 0 4096 0 0 0).parse
    m.typ ∈ zlTypes ∧ m.typ ≤ 12 ∧ (aFrame 3 0 4096 0 0 0).data.length = m.carried ∧
      m.dst ≠ s.moduleId (s.lockSide 35) ∧ min 65535 (m.age + s.regB (linkReg 35 0xC) 15 0) ≤ 40000 ∧
      s.route (s.lockSide 35) m.dst = some 35 ∧ s.linkUp 35 = true := by
  decide +kernel

theorem wit_ZelicLinks_4 :
    let s (d : Word) : State := { zlAt {} with regs := [(zlBlock, 0x80000006), (linkReg 35 0, 1), (linkReg 35 0xC, d)] }
    let m := (aFrame 3 0 1 0 0 0).parse
    40000 < min 65535 (m.age + (s 39901).regB (linkReg 35 0xC) 15 0) ∧
      min 65535 (m.age + (s 39900).regB (linkReg 35 0xC) 15 0) ≤ 40000 ∧ (s 0).route ((s 0).lockSide 35) m.dst = none := by
  decide +kernel

theorem wit_ZelicRequests_1 :
    let s := zlAt {}
    let iss := s.issuer (.core 43 0)
    s.halted .inference = false ∧ s.zlOn = true ∧ s.zl.held = [] ∧ tsorted 0 s.zl.tags = true ∧
      s.jobOf iss ≠ 0xFFFFF ∧ (255 : BitVec 8).toNat ≠ s.moduleId false ∧ s.route false 255 = some 35 ∧
      s.linkUp 35 = true ∧ s.freeTag = some 0 ∧ s.route false 253 = none ∧ s.route false 254 = some 34 ∧
      s.linkUp 34 = false ∧ s.jobOf (s.issuer (.core 43 512)) = 0xFFFFF ∧ (5 : BitVec 8).toNat = s.moduleId false ∧
      (0xFFFF00000FFF : BitVec 48).toNat % 4096 + (1 : Fin 4294967297).val ≤ 4096 := by
  decide +kernel

theorem lowestFree_full (n : Nat) : ∀ k, lowestFree k ((List.range' k n).map (fun g => (g, ({ quar := some 0 } : ZlTag)))) = k + n := by
  induction n with
  | zero => intro k; rfl
  | succ n ih =>
    intro k
    rw [List.range'_succ, List.map_cons, lowestFree]
    simp [ZlTag.busy, ih (k + 1)]
    omega

theorem tsorted_range {α : Type} (v : α) (n : Nat) : ∀ k lo, lo ≤ k → tsorted lo ((List.range' k n).map (fun g => (g, v))) = true := by
  induction n with
  | zero => intro k lo _; rfl
  | succ n ih =>
    intro k lo h
    rw [List.range'_succ, List.map_cons, tsorted]
    simp [h, ih (k + 1) (k + 1) (Nat.le_refl _)]

/-- Every tag is quarantined. -/
theorem wit_ZelicRequests_full :
    let s := zlAt { tags := (List.range' 0 131072).map (fun g => (g, ({ quar := some 0 } : ZlTag))) }
    s.halted .inference = false ∧ s.zlOn = true ∧ s.zl.held = [] ∧ tsorted 0 s.zl.tags = true ∧ s.freeTag = none ∧
      s.jobOf (s.issuer (.core 43 0)) ≠ 0xFFFFF ∧ s.route false 255 = some 35 ∧ s.linkUp 35 = true := by
  refine ⟨rfl, rfl, rfl, tsorted_range _ _ _ _ (Nat.le_refl _), ?_, by decide +kernel, by decide +kernel, by decide +kernel⟩
  unfold State.freeTag
  rw [show (zlAt { tags := (List.range' 0 131072).map (fun g => (g, ({ quar := some 0 } : ZlTag))) }).zl.tags =
    (List.range' 0 131072).map (fun g => (g, ({ quar := some 0 } : ZlTag))) from rfl, lowestFree_full]
  rfl

theorem wit_ZelicRequests_2 :
    ∀ typ ∈ [1, 3, 7, 9],
      let r := { aRequest typ with t0 := some 0 }
      let s := tagAt r
      let u := s.reachRaw (0 + s.deadTarget)
      (s.tagOf 131071).req = some r ∧ r.t0 = some 0 ∧ s.obs.stopped = false ∧ s.zl.held = [] ∧
        tsorted 0 s.zl.tags = true ∧ tsorted 0 s.regs = true ∧ r.msg.typ ∈ [1, 3, 7, 9] ∧
        0 + s.deadTarget ≤ u.td.raw ∧ r.iss.isLock = false ∧ r.copy = none := by
  decide +kernel

theorem wit_ZelicRequests_3 :
    ∀ typ ∈ [5, 11], ∀ l ∈ [none, some 35],
      let r := { aRequest typ with t0 := some 0, retries := 2, link := l }
      let s := tagAt r
      let due := 0 + rawUs (50 * (2 + 1))
      (s.tagOf 131071).req = some r ∧ s.obs.stopped = false ∧ s.zl.held = [] ∧ r.iss.isLock = false ∧ r.copy = none ∧
        tsorted 0 s.zl.tags = true ∧ s.linkUp 35 = true ∧ r.retries < 3 ∧
        due ≤ (s.reachRaw due).td.raw ∧ 0 + rawUs 200 ≤ (s.reachRaw (0 + rawUs 200)).td.raw := by
  decide +kernel

theorem wit_ZelicRequests_4 :
    let s : State := zlAt { tags := [(131071, { gen := 1, quar := some 7 })] }
    (s.tagOf 131071).quar = some 7 ∧ 7 ≤ (s.reachRaw 7).td.raw ∧ s.obs.stopped = false ∧ s.zl.held = [] ∧
      tsorted 0 s.zl.tags = true := by
  decide +kernel

/-- Frames of the six requests, each of a form its check passes. -/
def reqFrame (typ : Nat) : ZlFrame :=
  match typ with
  | 1 => aFrame 1 0 256 131071 0 0xFFFF00000F00
  | 3 => aFrame 3 0 8 131071 0 0xFFFF00000FF8
  | 5 => aFrame 5 2 0 131071 0 0xFFFF00000FF8
  | 7 => aFrame 7 0 8 131071 0xFFFF 0xFFFF00000FF8
  | 9 => aFrame 9 0 8 131071 0xFFFF 0xFFFF00000FF8
  | _ => aFrame 11 0 48 131071 1023 0

theorem wit_ZelicTarget_1 :
    let s := quayAt {}
    Safe s ∧ (∀ typ ∈ [1, 3, 5, 7, 9, 11], Arrives s 35 (reqFrame typ) typ) ∧
      (∀ typ ∈ [1, 3, 5, 7, 9, 11], (s.aged (some 35) (reqFrame typ).parse).valid = true) ∧
      (∀ typ ∈ [1, 3, 5, 7, 9], (s.quayCheck (s.aged (some 35) (reqFrame typ).parse)).2 = .here (0x030000000F00 + if typ = 1 then 0 else 0xF8)) ∧
      (∀ typ ∈ [3, 7, 9], s.rangeOff 0x030000000FF8 8 = false ∧ s.rangeBad 0x030000000FF8 8 = false ∧ s.partBad 0x030000000FF8 8 = false) ∧
      s.rangeOff 0x030000000F00 256 = false ∧ s.rangeBad 0x030000000F00 256 = false ∧
      s.partBad 0x030000000F00 256 = false ∧ s.zl.busyFrom = none ∧ tsorted 0 s.zl.rc = true := by
  unfold Safe Arrives; decide +kernel

theorem wit_ZelicTarget_2 :
    let s := quayAt {}
    (∀ typ ∈ [1, 3, 5, 7, 9, 11], Arrives s 35 { reqFrame typ with hdr := (reqFrame typ).hdr ||| 0x80000000 } typ) ∧
      (∀ typ ∈ [1, 3, 5, 7, 9, 11], (s.aged (some 35) ({ reqFrame typ with hdr := (reqFrame typ).hdr ||| 0x80000000 } : ZlFrame).parse).valid = false) ∧
      (s.quayCheck (s.aged (some 35) (aFrame 1 0 1 0 0 0xFFFE00000000).parse)).2 = .refuse 1 ∧
      (s.quayCheck (s.aged (some 35) (aFrame 1 0 2 0 0 0xFFFF00000FFF).parse)).2 = .refuse 3 ∧
      Arrives s 35 (aFrame 1 0 2 0 0 0xFFFF00000FFF) 1 ∧ s.route (s.lockSide 35) 255 = some 35 ∧ s.linkUp 35 = true := by
  unfold Arrives; decide +kernel

theorem wit_ZelicTarget_3 :
    let q := ((quayAt {}).aged (some 35) (reqFrame 5).parse)
    let c : ZlReply := { src := q.src, tag := q.tag, gen := q.gen, made := 0, reply := { typ := 6, dst := 255 } }
    let s := quayAt { rc := [(35, [c])] }
    (tget [] s.zl.rc 35).find? (fun c => c.src == q.src && c.tag == q.tag && c.gen == q.gen) = some c ∧
      s.route (s.lockSide 35) c.reply.dst = some 35 ∧ s.linkUp 35 = true ∧ s.zl.busyFrom = none ∧
      tsorted 0 s.zl.rc = true ∧ (tget [] (quayAt {}).zl.rc 35).length < 8192 := by
  decide +kernel

theorem wit_ZelicTarget_4 :
    let s := quayAt {}
    let m := s.aged (some 35) (reqFrame 11).parse
    bitOf (s.loadNat (routineAt m.index) 4) 31 = true ∧ bitsOf (s.loadNat (routineAt m.index) 4) 19 0 = m.job ∧
      ¬ 2 ^ s.loadNat (routineAt m.index + 5) 1 ≤ (s.loadNat (routineAt m.index + 16) 2 + 2 ^ 16 - s.loadNat (routineAt m.index + 18) 2) % 2 ^ 16 ∧
      (s.storeNat (routineAt 1023 + 16) 2 1).loadNat (routineAt m.index + 16) 2 = 1 := by
  decide +kernel

theorem wit_ZelicTarget_5 :
    let f (typ : Nat) : ZlFrame := aFrame typ 0 (if typ = 2 ∨ typ = 10 then 8 else 0) 131071 0xFFFF 0
    let s (typ : Nat) : State := tagAt (aRequest (typ - 1))
    (∀ typ ∈ [2, 4, 6, 8, 10, 12], Arrives (s typ) 35 (f typ) typ) ∧
      (∀ typ ∈ [2, 4, 6, 8, 10, 12], (s typ).answers ((s typ).aged (some 35) (f typ).parse) = some (aRequest (typ - 1))) ∧
      (∀ typ ∈ [2, 4, 6, 8, 10, 12], (aRequest (typ - 1)).iss.isLock = false ∧ (s typ).zl.held = [] ∧ tsorted 0 (s typ).zl.tags = true) ∧
      (∀ typ ∈ [2, 4, 6, 8, 10, 12], ((s typ).aged (some 35) (f typ).parse).status = 0) ∧
      (s 10).counterOk 0xFFFF 7 = true ∧ (quayAt {}).answers ((quayAt {}).aged (some 35) (f 2).parse) = none ∧
      ({ f 6 with hdr := (f 6).hdr + 6 * 2 ^ 84 } : ZlFrame).parse.status = 6 := by
  unfold Arrives; decide +kernel

theorem wit_ZelicTarget_collide :
    (let s := quayAt {}
     let m := s.aged (some 35) (reqFrame 3).parse
     (s.zlStoreLost 0x030000000FF8 m.data [0]).2 = true) ∧
      (quayAt { busyFrom := some 0 }).zl.busyFrom ≠ none := by
  decide +kernel

/-- A message of this module to itself. -/
def ownMsg (typ len : Nat) : ZlMsg := { typ := typ, dst := 5, src := 5, tag := 131071, gen := 1, job := 7, len := len }

theorem wit_ZelicTarget_loop :
    ∀ m ∈ [ownMsg 1 0, ownMsg 3 0, ownMsg 5 1, ownMsg 7 0, ownMsg 9 0, ownMsg 11 1, ownMsg 2 0, ownMsg 4 0, ownMsg 6 0,
        ownMsg 8 0, ownMsg 10 0, ownMsg 12 0],
      let m := { m with data := List.replicate m.carried 1 }
      let s := quayAt { loop := [m] }
      let f : ZlFrame := { hdr := BitVec.ofNat 256 (leNat (m.bytes.take 32)), data := m.data }
      leBytes 32 f.hdr.toNat ++ f.data = m.bytes ∧ s.zlOn = true ∧ m.data.length = m.carried ∧ m.dst = s.moduleId false ∧
        m.age ≤ 40000 ∧ s.obs.stopped = false ∧ (m.typ % 2 = 1 → m.valid = false) ∧ (m.typ % 2 = 0 → s.answers m = none) := by
  decide +kernel

theorem wit_ZelicControl_1 :
    let s := zlAt {}
    s.isPf .pf = true ∧ (0x80000000 : Word).getLsbD 31 = true ∧ s.zl.inv = none ∧ s.zlOn = true ∧ live.zlOn = false ∧
      live.fatal = false ∧ tsorted 0 s.regs = true ∧ 5 ≤ (5 : Word).toNat % 2 ^ 10 ∧
      (1000 : Word).toNat % 2 ^ 10 ≤ 1000 ∧ (4 : Word).toNat % 2 ^ 10 < 5 ∧ 1000 < (1001 : Word).toNat % 2 ^ 10 ∧
      (zlAt { inv := some (some 65535) }).zl.inv ≠ none := by
  decide +kernel

theorem wit_ZelicControl_2 :
    let b : ZlBuf := { via := none, src := 5, job := 7, seg := 65535, cls := 3, farModule := 255, farJob := 1, start := 0, since := 0 }
    let c : ZlReply := { src := 255, tag := 0, gen := 1, made := 0, reply := { typ := 6 } }
    let s : State := zlAt { busyFrom := some 0, rc := [(35, [c])], bufs := [b], inv := some (some 65535) }
    let due := b.since + ceilDiv (s.regB lkBlock 23 16 * 98304) 1000
    s.zl.busyFrom = some 0 ∧ 0 + rawUs 250 ≤ (s.reachRaw (0 + rawUs 250)).td.raw ∧ s.obs.stopped = false ∧
      tget [] s.zl.rc 35 = [c] ∧ s.zl.inv = some (some 65535) ∧ s.zl.bufs[0]? = some b ∧ due ≤ (s.reachRaw due).td.raw ∧
      s.zl.held = [] ∧ tsorted 0 s.regs = true ∧ b.farModule ≠ s.moduleId true ∧ s.freeTag = some 0 ∧
      s.zl.sweepT + rawUs 1000 ≤ (s.reachRaw (s.zl.sweepT + rawUs 1000)).td.raw := by
  decide +kernel

/-! ### Witnesses: chapter 14 -/

/-- Port 7 passes frames, us µs after a frame boundary, with queues as given. -/
def egAt (qs : Table EqQueue) (us : Int) : State :=
  { live with
    fh := { active := some aPlan }
    zl := { links := [(35, { st := .up })] }
    eg := { queues := qs }
    regs := [(zlBlock + 0x30000 + 4 * 35, 0x80000010), (zlBlock + 0x30104, 0x40), (fhBlock + 0x020 + 28, 1),
      (fhBlock + 0x30000 + 28, 0x80000010), (fhBlock + 0x30044, 0x40)]
    td := { base := ((gps0 + us * 1000) * 2 ^ 16).toNat } }

def anItem : EqItem := { len := 80 * 2 ^ 16, enq := 0, rel := some (gps0 * 3072), dead := some ((gps0 + 10000) * 3072), body := .frame [1] }
def aMessage : ZlOut := { link := 35, queue := 255, msg := { typ := 2 } }

theorem wit_EgressCommands_full :
    let s := egAt [(2048 * 7 + 1, { items := List.replicate 16384 anItem })] 0
    s.halted .radio = false ∧ s.portUp (28 / 4) = true ∧ 16384 ≤ s.fhDescs (28 / 4) := by
  intro s
  have h : s.portQueues 7 = [2048 * 7 + 1] := by decide +kernel
  have e : (s.eqOf (2048 * 7 + 1)).items.length = 16384 := List.length_replicate
  refine ⟨by decide +kernel, by decide +kernel, ?_⟩
  show 16384 ≤ s.fhDescs 7
  unfold State.fhDescs
  rw [h]
  simp [e]

/-- A frame for stream 3 of the plan's cell: eCPRI message type, then a section of type 1 without extension. -/
def aTxFrame (typ : Byte) : List Byte :=
  List.replicate 12 0 ++ [0x81, 0, 0x0F, 0xFF, 0xAE, 0xFE, 0x10, typ, 0, 0, 0, 8, 0, 0x80, 0x80, 0, 0, 0, 1, 1] ++ List.replicate 14 0

theorem wit_EgressCommands_1 :
    let s := egAt [] 0
    let late : State := { s with fh := { s.fh with notes := [{ cell := 511, frame := 0, slot := 19, uplink := false, late := true }] } }
    s.halted .radio = false ∧ s.portUp (28 / 4) = true ∧ s.fhDescs (28 / 4) < 16384 ∧ s.eg.wait = [] ∧
      s.txCell 3 = some aCell ∧ s.portUp aCell.port = true ∧ s.silent aCell.cell 0 19 = false ∧
      aCell.sub = none ∧ tsorted 0 s.eg.queues = true ∧ s.slotOff aCell 0 19 false = false ∧
      late.slotOff aCell 0 19 false = true ∧
      (∀ k < 2, txSupported aCell (s.txEaxc 3) k (aTxFrame 2) = true) ∧
      txSupported aCell (s.txEaxc 3) 2 (s.uplaneFrame 3 0x030000000000 272 1 (aTxFrame 0)) = true := by
  decide +kernel

theorem wit_EgressCommands_2 :
    let s : State := { egAt [] 0 with zl := { out := [aMessage] } }
    s.zl.out[0]? = some aMessage ∧
      (s.eqOf (16384 + 256 * 35 + 255)).depth + s.zlLen 35 aMessage.msg.body ≤ 65536 * 65536 := by
  decide +kernel

theorem wit_EgressCommands_3 :
    let s := egAt [(2048 * 7 + 1, { items := [anItem, anItem] })] 10
    s.portUp (31 / 4) = true ∧ (s.eqOf (2048 * 7 + 1)).items[0]? = some anItem ∧
      (s.eqOf (2048 * 7 + 1)).items[1]? = some anItem ∧
      cPast (s.reachC (cOfFine ((gps0 + 10000) * 3072))).now ((gps0 + 10000) * 3072) = true ∧ s.halted .radio = false ∧
      s.isSending (2048 * 7 + 1) = false ∧ s.eg.wait = [] ∧ tsorted 0 s.regs = true ∧ tsorted 0 s.eg.queues = true := by
  decide +kernel

theorem wit_EgressCommands_4 :
    let s := egAt [(2048 * 7 + 1, { items := [anItem] })] 0
    let e : EgId := .fh 7 0
    s.egChoice e = some (2048 * 7 + 1, false) ∧ s.egUp e = true ∧ s.sendingOf e.key = none ∧
      s.regBit trcCfg 31 = false ∧ tsorted 0 s.eg.queues = true ∧ tsorted 0 s.eg.sending = true ∧
      tsorted 0 s.eg.v = true ∧ (s.eqOf (2048 * 7 + 1)).items.head? = some anItem := by
  decide +kernel

theorem wit_EgressCommands_5 :
    let it (f : Option Nat) (age : Nat) : EqItem :=
      { len := 36 * 2 ^ 16, enq := 0, body := .zelic { aMessage with fwd := f, msg := { typ := 2, age := age } } }
    let s (f : Option Nat) (age : Nat) := egAt [(16384 + 256 * 35 + 255, { items := [it f age] })] 0
    (∀ f ∈ [none, some 0], ∀ age ∈ [40000, 40001],
      (s f age).egChoice (.zl 35) = some (16384 + 256 * 35 + 255, false) ∧ (s f age).egUp (.zl 35) = true ∧
        (s f age).sendingOf (EgId.zl 35).key = none ∧ min 65535 (age + nsOfCycles ((s f age).td.raw - 0)) = age) := by
  decide +kernel

theorem wit_EgressCommands_6 :
    let s : State := { egAt [(2048 * 7, { items := [{ anItem with rel := none, dead := none }] })] 0 with eg := { queues := [(2048 * 7, { items := [{ anItem with rel := none, dead := none }] })] } }
    s.egChoice (.fh 7 0) = some (2048 * 7, true) := by
  decide +kernel

theorem wit_EgressCommands_7 :
    let q : EqQueue := { items := [anItem, anItem] }
    let s : State := { egAt [] 0 with
      eg := { queues := [(2048 * 7 + 1, q)], sending := [(28, some { queue := 2048 * 7 + 1, since := 0 })] }
      regs := [(fhBlock + 0x020 + 28, 1), (eqReg (2048 * 7 + 1) 4, 1000)] }
    let due := 0 + s.txCycles (EgId.fh 7 0).key anItem.len
    s.sendingOf (EgId.fh 7 0).key = some { queue := 2048 * 7 + 1, since := 0 } ∧
      (s.eqOf (2048 * 7 + 1)).items = anItem :: [anItem] ∧ due ≤ (s.reachRaw due).td.raw ∧
      tsorted 0 s.eg.queues = true ∧ tsorted 0 s.eg.sending = true ∧ s.eg.wait = [] ∧ s.eqRate (2048 * 7 + 1) ≠ 0 := by
  decide +kernel

theorem wit_EgressCommands_8 :
    let s := egAt [] 0
    s.sampling (EqId.fh 7 2047).key = true ∧ s.histBase (EqId.fh 7 2047).key ≠ 0 ∧
      s.sampling (EqId.zl 35 255).key = true ∧ s.histBase (EqId.zl 35 255).key ≠ 0 ∧ s.isPf .pf = true ∧
      s.dieOn .rd = true ∧ tsorted 0 s.regs = true := by
  decide +kernel

/-! ### Witnesses: chapter 15 -/

theorem wit_HostFunctions_1 :
    live.hi.linkUp = true ∧ live.hi.vfEnable = true ∧ tsorted 0 live.regs = true ∧ tsorted 0 live.sh.ctx = true ∧
      live.hi.flr.contains 512 = false ∧
      live.fnLive 512 = true ∧ live.fnLive 0 = true ∧ 0 < 1 ∧ 0xFFF + 1 ≤ 4096 ∧
      bonded (live.bar2 0x3800F000000) = true ∧
      ({ live with hi := { live.hi with flr := [0] } } : State).fnLive 0 = false ∧ live.bar2 0 = 0 := by
  decide +kernel

theorem wit_HostFunctions_2 :
    let s := live.setReg (hiBlock + 0x008) 0x30
    s.fnLive 0 = true ∧ bonded (s.bar2 0) = false ∧ place (s.bar2 0) = .sram .rd 0 ∧ s.addrStatus (s.bar2 0) = .ok ∧
      s.rangeBad (s.bar2 0) 4096 = false ∧ s.bar2Status (s.bar2 0) = 0 ∧ s.pfVoid (s.bar2 0) = false ∧
      s.bar2 0 % 8 = 0 ∧ (0x030000000000 : PAddr).toNat = s.bar2 0 ∧ (∀ n, Die.rd ≠ .gd n) ∧
      (live.setReg (hiBlock + 0x008) 0x40).bar2Status ((live.setReg (hiBlock + 0x008) 0x40).bar2 0) ≠ 0 := by
  decide +kernel

theorem wit_HostFunctions_3 :
    let s : State := { live.setReg (hiBlock + 0x008) 0x30 with pw := { isl := (List.replicate 499 { st := .on }).set 490 { st := .off } } }
    s.addrStatus (s.bar2 0) ≠ .ok ∧ place (s.bar2 0) = .sram .rd 0 ∧ s.fnLive 0 = true ∧ bonded (s.bar2 0) = false := by
  decide +kernel

theorem wit_HostFunctions_4 :
    let s : State := { live with clk := { live.clk with tideLock := true }, boot := { live.boot with phase := .wait } }
    live.boot.powered = true ∧ live.fatal = false ∧ s.clk.tideLock = true ∧ s.hi.perstHigh = true ∧
      s.boot.rom = true ∧ s.boot.phase ≠ .record ∧ 1 ≤ (1 : BitVec 8).toNat ∧ (8 : BitVec 8).toNat ≤ 8 ∧
      ({ live with boot := { live.boot with fatalNow := true } } : State).fatal = true := by
  decide +kernel

theorem wit_HostFunctions_5 :
    let s : State := { live with hi := { live.hi with flr := [512], flrT := 7 } }
    s.hi.flrT + rawUs 2000 ≤ (s.reachRaw (s.hi.flrT + rawUs 2000)).td.raw ∧ (∀ e ∈ s.liveMen, e.2.fn ≠ 511 + 1) ∧
      (512 = 0 ∨ s.hi.vfEnable = true) := by
  decide +kernel

/-- Queue pair 7 of VF 511, of sixteen entries, with its tenant memory in one cached page. -/
def sqAt (x : SubQueue) (y : CompQueue) (mem : Memory) : State :=
  let s : State := { live with
    hi := { live.hi with sq := [(8 * 512 + 7, x)], cq := [(8 * 512 + 7, y)] }
    cu := { leaves := [{ fn := 512, pasid := 0xFFFFF, vpage := 1, size := 12, host := 0x1000, writable := true }] }
    host := mem }
  ((((s.setReg (sqReg 512 7 0) 0x1000).setReg (sqReg 512 7 8) 0x804FFFFF).setReg (sqReg 512 7 0xC) 0x1800).setReg
    (cqReg 512 7 8) 0x804FFFFF).setReg cuBlock 1

theorem wit_HostQueueCommands_1 :
    let s := sqAt { head := 65535, tail := 65535 } { unsignalled := 1 } []
    let due := (s.cqOf 512 7).since + rawUs (s.regB (cqReg 512 7 0x14) 31 20)
    s.fnLive 512 = true ∧ tsorted 0 s.hi.sq = true ∧ tsorted 0 s.hi.cq = true ∧ s.sqOn 512 7 = true ∧
      (s.sqOf 512 7).fault = 0 ∧ (15 + 2 ^ 16 - (s.sqOf 512 7).head) % 2 ^ 16 ≤ s.sqSize 512 7 ∧
      s.sqSize 512 7 < (16 + 2 ^ 16 - (s.sqOf 512 7).head) % 2 ^ 16 ∧ s.cqOn 512 7 = true ∧
      0 < (s.cqOf 512 7).unsignalled ∧ due ≤ (s.reachRaw due).td.raw ∧
      (live.sqOn 512 7 = false ∨ (live.sqOf 512 7).fault ≠ 0) := by
  decide +kernel

theorem wit_HostQueueCommands_2 :
    let s := sqAt { head := 65535, tail := 0 } {} [(0x13C3, 7)]
    let e : BitVec 512 := BitVec.ofNat 512 (7 * 2 ^ 24)
    s.sqOn 512 7 = true ∧ (s.sqOf 512 7).fault = 0 ∧ s.halted .inference = false ∧ s.boot.upd.st ≠ .handover ∧
      (s.sqOf 512 7).head ≠ (s.sqOf 512 7).tail ∧ (s.sqOf 512 7).head < 65536 ∧ (s.sqOf 512 7).tail < 65536 ∧
      (s.tenantRead 512 (s.sqPasid 512 7) (0x1000 + 64 * 15) 64).2 = some (leBytes 64 e.toNat) ∧
      s.reg64 (sqReg 512 7 0) (sqReg 512 7 4) + 64 * ((s.sqOf 512 7).head % s.sqSize 512 7) = 0x1000 + 64 * 15 ∧
      s.cqOn 512 (bitsOf e.toNat 26 24) = true ∧ (s.tenantWrite 512 (s.sqPasid 512 7) 0x1800 (leBytes 4 0)).2 = true := by
  decide +kernel

theorem wit_HostQueueCommands_3 :
    let s := sqAt { head := 65535, tail := 0 } {} []
    (s.tenantRead 512 (s.sqPasid 512 7) (0x1000 + 64 * 15) 64).2 = some (leBytes 64 0) ∧
      s.cqOn 512 (bitsOf (0 : BitVec 512).toNat 26 24) = false ∧
      ((s.setReg (sqReg 512 7 0) 0).tenantRead 512 (s.sqPasid 512 7) (64 * 15) 64).2 = none := by
  decide +kernel

theorem wit_HostQueueCommands_4 :
    let s := sqAt {} { head := 65535, tail := 3 } []
    (s.cqOf 512 7).fault = 0 ∧ (3 + 2 ^ 16 - 65535) % 2 ^ 16 < (4 + 2 ^ 16 - 65535) % 2 ^ 16 ∧
      (s.cqOf 512 7).held = [] ∧ s.cqOn 512 7 = true := by
  decide +kernel

theorem wit_HostQueueCommands_5 :
    let v : Word := 0x80CFFFFF
    live.isPf .pf = true ∧ tsorted 0 live.regs = true ∧ tsorted 0 live.hi.sq = true ∧ tsorted 0 live.hi.cq = true ∧
      v.getLsbD 31 = true ∧ live.sqOn 512 7 = false ∧ live.cqOn 512 7 = false ∧ (live.cqOf 512 7).held = [] ∧
      4 ≤ v.toNat / 2 ^ 20 % 16 ∧ v.toNat / 2 ^ 20 % 16 ≤ 12 := by
  decide +kernel

/-- A walk at a level, with the entry it reads. -/
def walkAt (l : Nat) (v : Nat) (w : Bool) : State :=
  { live with
    cu := { walks := [{ fn := 512, pasid := 0xFFFFF, addr := 0xFFFFFFFFF000, write := w, at_ := .level l, entry := 0 }] }
    host := memOf (leBytes 8 v), regs := [(cuBlock, 1)] }

theorem wit_CustomsCommands_1 :
    let s := walkAt 1 0 false
    live.regBit cuBlock 0 = false ∧ s.regBit cuBlock 0 = true ∧ 2 ^ 48 ≤ (0x1000000000000 : DWord).toNat ∧
      (0xFFFFFFFFFFFF : DWord).toNat < 2 ^ 48 ∧
      s.cu.leaves.find? (fun e => e.fn == 512 && e.pasid == 0xFFFFF && 0xFFFFFFFFFFFF / 2 ^ e.size == e.vpage) = none ∧
      (∀ e ∈ s.cu.tabs, e.fn ≠ 512 ∨ e.pasid ≠ 0xFFFFF) := by
  decide +kernel

theorem wit_CustomsCommands_2 :
    let s := sqAt {} {} []
    let e : Leaf := { fn := 512, pasid := 0xFFFFF, vpage := 1, size := 12, host := 0x1000, writable := true }
    s.regBit cuBlock 0 = true ∧
      s.cu.leaves.find? (fun e => e.fn == 512 && e.pasid == 0xFFFFF && 0x1FFF / 2 ^ e.size == e.vpage) = some e ∧
      e.writable = true := by
  decide +kernel

theorem wit_CustomsCommands_3 :
    let s := walkAt 1 0xFFFFFFFFF003 true
    let k : Walk := { fn := 512, pasid := 0xFFFFF, addr := 0xFFFFFFFFF000, write := true, at_ := .level 1, entry := 0 }
    Safe s ∧ s.cu.walks[0]? = some k ∧ leNat (rdBytes s.host k.entry k.at_.bytes) % 2 = 1 ∧
      bitOf (leNat (rdBytes s.host k.entry k.at_.bytes)) 1 = true ∧ k.cache = true ∧
      leNat (rdBytes (walkAt 4 0 false).host 0 8) % 2 = 0 ∧
      bitOf (leNat (rdBytes (walkAt 4 1 false).host 0 8)) 7 = false ∧ Safe (walkAt 4 1 false) := by
  unfold Safe; decide +kernel

theorem wit_CustomsCommands_4 :
    let s : State := { live with cu := { invBusy := true } }
    live.isPf .pf = true ∧ live.cu.invBusy = false ∧ s.isPf .pf = true ∧ s.cu.invBusy = true ∧
      (∀ w ∈ s.cu.walks, w.cache = true) ∧
      live.cu.sweepT + rawUs 2000 ≤ (live.reachRaw (live.cu.sweepT + rawUs 2000)).td.raw := by
  decide +kernel

/-! ### Witnesses: chapter 16 -/

theorem wit_DeterminismCommands :
    let r := hmBlock + 0x3000 + 0x10 * 512
    live.isPf .pf = true ∧ true ≠ live.det.mode ∧ tsorted 0 live.regs = true ∧ live.regBit (r + 8) 31 = false ∧
      (live.setReg (r + 8) 0x80400000).regBit (r + 8) 31 = true ∧ (0x80C00000 : Word).getLsbD 31 = true ∧
      ({ live with det := { pending := true } } : State).det.pending = true := by
  decide +kernel

/-! ### Witnesses: chapter 17 -/

/-- Island i in a state, the others ON. -/
def islAt (i : Nat) (x : Island) : State :=
  { live with pw := { isl := (List.replicate 499 { st := .on, fwReq := .on }).set i x } }

theorem wit_IslandCommands_1 :
    let s := islAt 496 { st := .latched, fwReq := .on }
    Safe s ∧ s.isPf .pf = true ∧ IslReq.ofCode 2 = some .off ∧ (s.isl 496).st = .latched ∧
      (s.isl 496).st ≠ .failedShort ∧ s.reqIgnored 496 = false ∧
      ((islAt 496 { st := .failedShort }).isl 496).st = .failedShort ∧ (s.isl 495).st ≠ .latched ∧
      (7 : Nat) < dieCores .hd ∧ Acts (.core .hd 7) s ∧ 497 ≤ 497 := by
  unfold Acts Safe; decide +kernel

theorem wit_IslandCommands_2 :
    let s : State := { islAt 490 { st := .on } with fh := { active := some aPlan } }
    IslReq.ofCode 1 = some .ret ∧ s.reqIgnored 490 = true ∧ (s.isl 490).st ≠ .failedShort := by
  decide +kernel

theorem wit_IslandCommands_3 :
    let s := islAt 0 { st := .on, pfReq := .ret, fwReq := .on }
    Safe s ∧ s.islTarget 0 ≠ .on ∧ s.leaveDue 0 = true ∧ islKind 0 = .array 0 ∧ tsorted 0 s.sh.ctx = true ∧
      (islAt 0 { st := .ret, pfReq := .off }).islTarget 0 = .off ∧
      ((islAt 0 { st := .ret, pfReq := .off }).isl 0).st = .ret := by
  unfold Safe; decide +kernel

theorem wit_IslandCommands_4 :
    ((islAt 0 { st := .entering, goal := .ret }).isl 0).goal ≠ .off ∧
      ((islAt 0 { st := .entering, goal := .off }).isl 0).goal = .off := by
  decide +kernel

theorem wit_IslandCommands_5 :
    let s := islAt 496 { st := .ret, fwReq := .on }
    s.wakes 496 = true ∧ s.parentOn 496 = true ∧ (s.isl 496).st = .ret ∧
      ((islAt 496 { st := .exiting }).isl 496).st = .exiting ∧ islKind 490 = .base .rd := by
  decide +kernel

/-- The Sluice in a state, with the budget of the tick before as now. -/
def slAt (x : Sluice) : State :=
  let s : State := { live with pw := { live.pw with sl := x } }
  { s with pw := { s.pw with sl := { x with lastB := some s.budget } } }

theorem wit_SluiceCommands_1 :
    let s := slAt { powerLevel := 11, above := 379 }
    s.boot.powered = true ∧ s.pw.sl.emerg = false ∧ tsorted 0 s.regs = true ∧ s.pw.sl.lastB = some s.budget ∧
      s.budget * 1000 < (2 ^ 24 - 1 : Nat) ∧ 379 ≤ s.pw.sl.above ∧ 0 < s.pw.sl.powerLevel := by
  decide +kernel

theorem wit_SluiceCommands_2 :
    let s := slAt { powerLevel := 0, parked := 4, above := 379, sincePark := 4 }
    s.pw.sl.lastB = some s.budget ∧ s.budget * 1000 < (2 ^ 24 - 1 : Nat) ∧ s.pw.sl.parked < 5 ∧
      4 ≤ s.pw.sl.sincePark ∧
      (slAt { parked := 5, above := 379 }).pw.sl.lastB = some (slAt { parked := 5, above := 379 }).budget ∧
      (slAt { parked := 5, above := 379 }).budget * 1000 < (2 ^ 24 - 1 : Nat) := by
  decide +kernel

theorem wit_SluiceCommands_3 :
    let s := slAt { above := 378 }
    s.pw.sl.lastB = some s.budget ∧ s.budget * 1000 < (2 ^ 24 - 1 : Nat) ∧ s.pw.sl.above < 379 ∧
      ((2 ^ 24 - 1 : Nat) :: s.pw.sl.window).sum + 2700000 ≤ s.budget * 20000000 := by
  decide +kernel

theorem wit_SluiceCommands_4 :
    let s := slAt { powerLevel := 10, sinceLevel := 19 }
    s.pw.sl.lastB = some s.budget ∧ (0 : Nat) * 100 ≤ 95 * s.budget * 1000 ∧
      ((0 : Nat) :: s.pw.sl.window).sum * 100 ≤ 98 * s.budget * 20000000 ∧ s.parkSteps = 0 ∧
      19 ≤ s.pw.sl.sinceLevel ∧ s.pw.sl.powerLevel < 11 := by
  decide +kernel

theorem wit_SluiceCommands_5 :
    let t (v : BitVec 16) : List Int := (v :: List.replicate 9 0).map BitVec.toInt
    (t 840).length = 10 ∧ t 840 = 840 :: List.replicate 9 0 ∧ t 839 = 839 :: List.replicate 9 0 ∧
      t 800 = 800 :: List.replicate 9 0 ∧ t 799 = 799 :: List.replicate 9 0 ∧ t 776 = 776 :: List.replicate 9 0 ∧
      t 775 = 775 :: List.replicate 9 0 ∧ 99 ≤ (slAt { cool := 99 }).pw.sl.cool := by
  decide +kernel

theorem wit_SluiceCommands_6 :
    Safe live ∧ live.boot.running = true ∧ (slAt { boost := [1] }).pw.sl.boost ≠ [] ∧
      (2 : Fin 4).val ≠ live.pw.sl.site ∧ live.pw.sl.parked ≤ 5 ∧ tsorted 0 live.pw.sl.points = true ∧
      1000 ≤ (1000 : Word).toNat ∧ (499 : Word).toNat < 500 ∧ 500 ≤ (500 : Word).toNat ∧ (999 : Word).toNat < 1000 := by
  unfold Safe; decide +kernel

/-! ### Witnesses: chapter 18 -/

/-- The least record: MODULE, MEMORY with 32 MiB of scratch on every die but HD and 769 MiB save areas, RETENTION, POWER and
PLAN, all else zero. -/
def aRecord : List Byte :=
  [0x4D, 0x4B, 0x43, 0x46, 1, 0, 0, 0, 0x08, 0x1A, 0, 0, 0, 0, 0, 0, 1] ++ List.replicate 239 0 ++
  [1, 0, 0, 0, 4, 0, 0, 0] ++ List.replicate 8 0 ++
  [2, 0, 0, 0, 160, 0, 0, 0] ++ (List.replicate 4 (32 :: List.replicate 11 0 ++ [1, 3, 0, 0])).flatten ++
  (List.replicate 5 (32 :: List.replicate 15 0)).flatten ++ List.replicate 16 0 ++
  [3, 0, 0, 0, 0x18, 0x18, 0, 0] ++ List.replicate 6168 0 ++
  [4, 0, 0, 0, 20, 0, 0, 0] ++ List.replicate 24 0 ++
  [5, 0, 0, 0, 8, 0, 0, 0] ++ List.replicate 8 0

/-- An image of one DATA section of 64 zero bytes. -/
def anImage : List Byte :=
  [0x4D, 0x4B, 0x55, 0x46, 1, 0, 0, 0, 0x40, 2, 0, 0, 0, 0, 0, 0, 0, 0, 0, 0, 1] ++ List.replicate 139 0 ++
  [6, 0, 0, 0, 0, 2, 0, 0, 64, 0, 0, 0, 0, 0, 0, 0] ++ List.replicate 400 0

/-- The ROM runs, with a list of bytes of a length at a device address, and the key of 96 zero bytes fused. -/
def romAt (a n : Nat) (bs : List Byte) (phase : BootPhase) (busy : Option Nat) : State :=
  { live with
    mem := (memOf bs).map (fun e => (e.1 + a, e.2))
    regs := [(btBlock + 0x00C, BitVec.ofNat 32 n)]
    boot := { rom := true, phase := phase, busy := busy, powered := true,
              fuses := { key := [some (Config.sha384 (List.replicate 96 0)), none, none, none] } } }

theorem tget_cells (f : Nat → Byte) (b i : Nat) (ks : List Nat) :
    tget (0 : Byte) ((ks.filterMap (fun k => if f k = 0 then none else some (k, f k))).map
      (fun e => (e.1 + b, e.2))) (b + i) = if i ∈ ks then f i else 0 := by
  induction ks with
  | nil => rfl
  | cons k ks ih =>
    rw [List.filterMap_cons]
    by_cases hz : f k = 0
    · by_cases hk : i = k
      · subst hk; simp only [hz, if_true, ih]; simp
      · simp only [hz, if_true, ih, List.mem_cons, hk, false_or]
    · by_cases hk : i = k
      · subst hk; simp only [hz, if_false, List.map_cons, tget, Nat.add_comm b i]; simp
      · have : ¬ b + i = k + b := by omega
        simp only [hz, if_false, List.map_cons, tget, this, ih, List.mem_cons, hk, false_or]

/-- Bytes that stand where a load reads are what it reads. -/
theorem load_cells (s : State) (bs : List Byte) (b : Nat)
    (ok : ∀ i < bs.length, s.addrStatus (b + i) = .ok ∧ s.key (b + i) = b + i)
    (hm : s.mem = (memOf bs).map (fun e => (e.1 + b, e.2))) : s.load b bs.length = bs := by
  have byte : ∀ i < bs.length, s.byteAt (b + i) = bs.getD i 0 := by
    intro i hi
    obtain ⟨hs, hk⟩ := ok i hi
    unfold State.byteAt rdByte
    rw [hs, hk, hm, memOf, tget_cells]
    simp [hi]
  have go : ∀ n k, n + k = bs.length → s.load (b + k) n = bs.drop k := by
    intro n
    induction n with
    | zero => intro k e; simp [State.load, show k = bs.length by omega]
    | succ n ih =>
      intro k e
      unfold State.load
      rw [byte k (by omega), show b + k + 1 = b + (k + 1) by omega, ih (k + 1) (by omega),
        List.drop_eq_getElem_cons (by omega : k < bs.length)]
      simp [show k < bs.length by omega]
  simpa using go bs.length 0 (by omega)

theorem load_hd (s : State) (bs : List Byte) (b : Nat) (lo : 0x038000000000 ≤ b) (hi : b + bs.length ≤ 0x03800F000000)
    (on : s.islOn (baseIsland .hd) = true) (hm : s.mem = (memOf bs).map (fun e => (e.1 + b, e.2))) :
    s.load b bs.length = bs := by
  refine load_cells s bs b (fun i hi' => ?_) hm
  have hp : place (b + i) = .sram .hd (b + i - 0x038000000000) := by
    unfold place inWindow
    rw [if_neg (by omega), if_neg (by omega), if_neg (by omega), if_neg (by omega), if_pos (by omega)]
    rw [if_pos (by simp only [sramSpan]; omega)]
  have hk : s.key (b + i) = b + i := by unfold State.key; rw [hp]
  have hb : bonded (b + i) = false := by
    unfold bonded; rw [decide_eq_false (show ¬ bondedLo ≤ b + i by unfold bondedLo; omega)]; rfl
  exact ⟨by unfold State.addrStatus State.placeStatus; simp [hb, hp, hk, keyIsland, on], hk⟩

theorem load_hbm (s : State) (bs : List Byte) (b : Nat) (hi : b + bs.length ≤ 0x000C00000000)
    (on : s.islOn 16 = true) (up : s.bk.hbmDown = []) (hm : s.mem = (memOf bs).map (fun e => (e.1 + b, e.2))) :
    s.load b bs.length = bs := by
  refine load_cells s bs b (fun i hi' => ?_) hm
  have hp : place (b + i) = .hbm 0 ((b + i) % 0x000C00000000) := by
    unfold place; rw [if_pos (by omega), Nat.div_eq_of_lt (by omega)]
  have hk : s.key (b + i) = b + i := by unfold State.key; rw [hp]
  have hb : bonded (b + i) = false := by
    unfold bonded; rw [decide_eq_false (show ¬ bondedLo ≤ b + i by unfold bondedLo; omega)]; rfl
  exact ⟨by unfold State.addrStatus State.placeStatus; simp [hb, hp, keyIsland, on, up], hk⟩

theorem romAt_mem (a n : Nat) (bs : List Byte) (p : BootPhase) (b : Option Nat) :
    (romAt a n bs p b).mem = (memOf bs).map (fun e => (e.1 + a, e.2)) := rfl

theorem aRecord_config : (recConfig aRecord).isSome = true := by decide +kernel
theorem aRecord_key : (aRecord.drop 64).take 96 = List.replicate 96 0 := by decide +kernel
theorem aRecord_head : recMagic aRecord = true ∧ recLenOk aRecord = true ∧ recFields aRecord = true ∧ fieldAt aRecord 24 8 = 0 ∧
    fieldAt aRecord 6 1 = 0 := by decide +kernel

theorem aRecord_check (s : State) (h : recSigOk aRecord = true)
    (k : s.boot.fuses = { key := [some (Config.sha384 (List.replicate 96 0)), none, none, none] }) :
    ∃ g, s.recCheck aRecord = some g := by
  obtain ⟨g, hg⟩ := Option.isSome_iff_exists.mp aRecord_config
  obtain ⟨a, b, c, d, e⟩ := aRecord_head
  have o : s.recKeyOk aRecord = true := by
    unfold State.recKeyOk keyOk
    rw [k, aRecord_key, e]
    simp [bitOf]
  exact ⟨g, by unfold State.recCheck; rw [a, b, c, d, o, h]; simpa using hg⟩

/-- The record passes every check where its signature verifies; ECDSA is opaque in the model. -/
theorem wit_BootCommands_record (h : recSigOk aRecord = true) :
    let s : State := { romAt 0 0 [] .record none with
      boot := { (romAt 0 0 [] .record none).boot with flash := [aRecord, []] } }
    s.boot.rom = true ∧ s.boot.phase = .record ∧ ∃ c fall g, s.recSelect = some (c, fall, g) := by
  intro s
  obtain ⟨g, hg⟩ := aRecord_check s h rfl
  have n : s.newerCopy = some 0 := by
    have x : recHeaderOk (s.copyOf 0) = true := by decide +kernel
    have y : recHeaderOk (s.copyOf 1) = false := by decide +kernel
    unfold State.newerCopy
    simp [x, y]
  refine ⟨rfl, rfl, 0, false, g, ?_⟩
  have hg : s.recCheck (s.copyOf 0) = some g := hg
  unfold State.recSelect
  simp [n, hg]

theorem wit_BootCommands_program (h : recSigOk aRecord = true) :
    let s := romAt 0x038004000000 6664 aRecord .salvage (some 1)
    s.boot.busy = some 1 ∧ ∃ c r, s.recordTarget = some (c, r) := by
  intro s
  obtain ⟨g, hg⟩ := aRecord_check s h rfl
  have n : s.regN (btBlock + 0x00C) = aRecord.length := by decide +kernel
  have l : s.load 0x038004000000 (s.regN (btBlock + 0x00C)) = aRecord := by
    rw [n]
    exact load_hd s aRecord _ (by decide) (by decide +kernel) (by decide +kernel) (romAt_mem ..)
  have x : ∀ c, s.recCheck (s.copyOf c) = none := by
    have e : ∀ c, s.copyOf c = [] := fun c => by
      match c with
      | 0 => rfl
      | 1 => rfl
      | n + 2 => rfl
    intro c
    rw [e c]
    unfold State.recCheck
    have m : recMagic [] = false := by decide +kernel
    simp [m]
  refine ⟨rfl, 0, aRecord.take (recLen aRecord), ?_⟩
  unfold State.recordTarget
  simp [l, x, hg]

/-- The image passes every check where its signature verifies. -/
theorem anImage_check (s : State) (x : ImageText) (hb : x.bytes = anImage) (hl : x.len = 576)
    (h : Config.ecdsaOk (List.replicate 96 0) (Config.sha384 (anImage.take 416 ++ anImage.drop 512))
      ((anImage.drop 416).take 96) = true)
    (hf : s.boot.fuses = { key := [some (Config.sha384 (List.replicate 96 0)), none, none, none] }) (hr : s.boot.rev = 0) :
    s.imageCheck x = 0 := by
  obtain ⟨len, bytes⟩ := x
  subst hb hl
  have a : ImageText.headerOk ⟨576, anImage⟩ = true := by decide +kernel
  have p : (anImage.drop 64).take 96 = List.replicate 96 0 := by decide +kernel
  have f : ImageText.field ⟨576, anImage⟩ 8 4 = 576 ∧ ImageText.field ⟨576, anImage⟩ 6 1 = 0 ∧
      ImageText.field ⟨576, anImage⟩ 12 1 = 0 ∧ ImageText.field ⟨576, anImage⟩ 13 1 = 0 ∧
      ImageText.field ⟨576, anImage⟩ 14 1 = 0 ∧ ImageText.field ⟨576, anImage⟩ 7 1 = 0 := by decide +kernel
  obtain ⟨f1, f2, f3, f4, f5, f6⟩ := f
  unfold State.imageCheck
  simp [a, p, f1, f2, f3, f4, f5, f6, hf, hr, keyOk, bitOf, -List.reduceReplicate]
  exact h

theorem wit_BootCommands_image
    (h : Config.ecdsaOk (List.replicate 96 0) (Config.sha384 (anImage.take 416 ++ anImage.drop 512))
      ((anImage.drop 416).take 96) = true) :
    let s := romAt 0x038004000000 576 anImage .verify (some 0)
    s.boot.busy = some 0 ∧ s.imageCheck (s.imageAt 0x038004000000) = 0 := by
  intro s
  have n : min (s.regN (btBlock + 0x00C)) 0x4000000 = anImage.length := by decide +kernel
  have b : (s.imageAt 0x038004000000).bytes = anImage := by
    show s.load _ (min (s.regN (btBlock + 0x00C)) 0x4000000) = _
    rw [n]
    exact load_hd s anImage _ (by decide) (by decide +kernel) (by decide +kernel) (romAt_mem ..)
  exact ⟨rfl, anImage_check s _ b (by decide +kernel) h rfl rfl⟩

theorem wit_BootCommands_noImage :
    let s := romAt 0x038004000000 576 [] .verify (some 0)
    let t := romAt 0x038004000000 0 [] .salvage (some 1)
    s.boot.busy = some 0 ∧ s.imageCheck (s.imageAt 0x038004000000) = 1 ∧ t.boot.busy = some 1 ∧ t.recordTarget = none := by
  have a : ((romAt 0x038004000000 576 [] .verify (some 0)).imageAt 0x038004000000).headerOk = false := by decide +kernel
  have l : (romAt 0x038004000000 0 [] .salvage (some 1)).load 0x038004000000
      ((romAt 0x038004000000 0 [] .salvage (some 1)).regN (btBlock + 0x00C)) = [] := by decide +kernel
  have m : recMagic [] = false := by decide +kernel
  refine ⟨rfl, ?_, rfl, ?_⟩
  · unfold State.imageCheck
    simp [a]
  · unfold State.recordTarget State.recCheck
    simp [l, m]

/-- The image runs and a STAGE is in progress, the text at the base of HBM's staging buffer. -/
def stageAt (bs : List Byte) : State :=
  { romAt 0x08000000 576 bs .running none with
    boot := { (romAt 0x08000000 576 bs .running none).boot with running := true, upd := { st := .staging } } }

theorem stage_mem (bs : List Byte) : (stageAt bs).mem = (memOf bs).map (fun e => (e.1 + 0x08000000, e.2)) := rfl

theorem wit_UpdateCommands_stage
    (h : Config.ecdsaOk (List.replicate 96 0) (Config.sha384 (anImage.take 416 ++ anImage.drop 512))
      ((anImage.drop 416).take 96) = true) :
    let s := stageAt anImage
    s.fatal = false ∧ s.boot.upd.st = .staging ∧ s.stageCheck (s.imageAt 0x08000000) = 0 := by
  intro s
  refine ⟨rfl, rfl, ?_⟩
  unfold State.stageCheck
  have n : min (s.regN (btBlock + 0x00C)) 0x4000000 = anImage.length := by decide +kernel
  have b : (s.imageAt 0x08000000).bytes = anImage := by
    show s.load _ (min (s.regN (btBlock + 0x00C)) 0x4000000) = _
    rw [n]
    exact load_hbm s anImage _ (by decide +kernel) (by decide +kernel) rfl (stage_mem ..)
  rw [anImage_check s _ b (by decide +kernel) h rfl rfl]
  decide +kernel

/-- In Salvage mode BOOT needs a copy of the record that passes. -/
theorem wit_BootCommands_salvage (h : recSigOk aRecord = true) :
    let s : State := { romAt 0 0 [] .salvage none with
      boot := { (romAt 0 0 [] .salvage none).boot with flash := [[], aRecord] } }
    let t := romAt 0 0 [] .salvage none
    s.romCmd .pf = true ∧ s.boot.phase = .salvage ∧ s.boot.running = false ∧
      (∃ c, c < 2 ∧ (s.recCheck (s.copyOf c)).isSome = true) ∧ t.boot.phase = .salvage ∧
      (∀ c < 2, t.recCheck (t.copyOf c) = none) := by
  intro s t
  obtain ⟨g, hg⟩ := aRecord_check s h rfl
  have hg : s.recCheck (s.copyOf 1) = some g := hg
  have m : recMagic [] = false := by decide +kernel
  have z : t.recCheck [] = none := by unfold State.recCheck; simp [m]
  refine ⟨by decide +kernel, rfl, rfl, ⟨1, by decide, by rw [hg]; rfl⟩, rfl, ?_⟩
  intro c hc
  match c, hc with
  | 0, _ => exact z
  | 1, _ => exact z

theorem wit_UpdateCommands_noStage :
    let s : State := { live with boot := { live.boot with upd := { st := .staging } } }
    s.fatal = false ∧ s.boot.upd.st = .staging ∧ s.stageCheck (s.imageAt 0x08000000) ≠ 0 := by
  intro s
  have a : (s.imageAt 0x08000000).headerOk = false := by decide +kernel
  refine ⟨rfl, rfl, ?_⟩
  unfold State.stageCheck State.imageCheck
  simp [a]

theorem wit_BootCommands_1 :
    live.isPf .pf = true ∧
      ({ live with boot := { powered := true }, clk := { tideLock := true } } : State).boot.rom = false ∧
      ({ live with boot := { powered := true }, clk := { tideLock := true } } : State).clk.tideLock = true ∧
      ({ live with boot := { rom := true } } : State).boot.phase = .record ∧
      ({ live with boot := { rom := true } } : State).recSelect = none := by
  decide +kernel

theorem wit_BootCommands_2 :
    (romAt 0 0 [] .wait none).romCmd .pf = true ∧ (romAt 0 0 [] .wait none).boot.running = false ∧
      (romAt 0 0 [] .salvage none).romCmd .pf = true ∧ (romAt 0 0 [] .salvage none).boot.phase = .salvage ∧
      ({ live with boot := { live.boot with phase := .running } } : State).romCmd .pf = true ∧
      live.boot.running = true := by
  decide +kernel

theorem wit_BootCommands_3 :
    (7 : Nat) < dieCores .hd ∧ Acts (.core .hd 7) live ∧ live.boot.bootOk = true := by
  unfold Acts; decide +kernel

theorem wit_BootCommands_4 :
    let s : State := { live with boot := { running := true, rom := true } }
    let due := s.boot.startedAt + rawUs (s.cfg.wdt * 1000000)
    Acts (.core .hd 7) s ∧ s.boot.running = true ∧ s.boot.bootOk = false ∧ due ≤ (s.reachRaw due).td.raw := by
  unfold Acts; decide +kernel

theorem wit_UpdateCommands_1 :
    let u (st : UpdSt) : State := { live with boot := { live.boot with upd := { st := st, s := 5 }, debug := true, stby := some {} } }
    (u .staged).isPf .pf = true ∧ (u .idle).boot.running = true ∧
      ((u .idle).boot.upd.st = .idle ∨ (u .idle).boot.upd.st = .done) ∧ (u .staged).boot.upd.st = .staged ∧
      (u .armed).boot.upd.st = .armed ∧ (u .armed).pastNs (u .armed).boot.upd.s = false ∧
      (u .staged).boot.debug = true ∧ (u .armed).fatal = false := by
  decide +kernel

theorem wit_UpdateCommands_2 :
    let u (st : UpdSt) : State := { live with boot := { live.boot with upd := { st := st, s := 5 }, stby := some {} } }
    (u .armed).boot.upd.st = .armed ∧ ((u .armed).reachNs 5).pastNs 5 = true ∧
      (u .handover).boot.upd.st = .handover ∧ ((u .handover).reachNs 300005).pastNs 300005 = true ∧
      (u .handover).boot.stby = some {} ∧ Acts (.core .hd 7) (u .handover) ∧
      (1 : Word).toNat = (u .handover).boot.epoch ∧ (2 : Word).toNat ≠ (u .handover).boot.epoch ∧
      (u .handover).fatal = false ∧
      (u .handover).boot.beatAt + rawUs 100000 ≤ ((u .handover).reachRaw ((u .handover).boot.beatAt + rawUs 100000)).td.raw ∧
      (u .handover).boot.running = true ∧ tsorted 0 (u .handover).regs = true ∧ (u .handover).boot.powered = true := by
  unfold Acts; decide +kernel

theorem wit_UpdateCommands_3 :
    (1 : BitVec 4) ≠ 0 ∧
      lcNext live.boot.fuses.lc live.boot.debug (1 : BitVec 4).toNat = some (.provisioned, false) ∧
      lcNext live.boot.fuses.lc live.boot.debug (2 : BitVec 4).toNat = none := by
  decide +kernel

/-! ### Witnesses: chapter 19 -/

/-- The plan may be armed where its cell's index stands for format C0, once in 160 ms. -/
theorem wit_ServiceCommands_arm (h : aCell.prach = some (⟨false, 1, 15000⟩, 1)) :
    let v : Word := 0x81010005#32
    planState.isPf .pf = true ∧ planState.dieOn .rd = true ∧ v.getLsbD 31 = true ∧ tsorted 0 planState.fh.stby = true ∧
      bitsOf v.toNat 27 26 = 0 ∧
      planState.readPlan (planState.reg64 (fhBlock + 0x004) (fhBlock + 0x008)) = some aPlan ∧
      planState.armCheck (bitsOf v.toNat 25 24) aPlan = 0 := by
  refine ⟨by decide +kernel, by decide +kernel, by decide +kernel, by decide +kernel, by decide +kernel, by decide +kernel, ?_⟩
  have o : planState.otherCells (bitsOf (0x81010005#32).toNat 25 24) = [] := by decide +kernel
  unfold State.armCheck
  rw [show aPlan.cells = [aCell] from rfl, o]
  simpa using aCell_checks h

/-- The primary's cells run, and the standby w watches, 100 µs after a half-millisecond boundary. -/
def watchAt (x : Standby) : State :=
  { rxAt 100 {} with
    fh := { active := some aPlan, stby := [(2, x)] }
    regs := [(hbDst, 0x80000005), (zlBlock, 0x80000000)] }

theorem wit_ServiceCommands_1 :
    let due := live.pw.mg.evalT + rawUs 1000000
    live.boot.running = true ∧ live.fatal = false ∧ due ≤ (live.reachRaw due).td.raw ∧ tsorted 0 live.regs = true ∧
      live.isPf .pf = true := by
  decide +kernel

theorem wit_ServiceCommands_2 :
    let s (b : Bool) (st : SlotSt) : State := { live with slots := [(3, { st := st })], hm := { adopt := { busy := b } } }
    let v : Word := 0x80000013#32
    let w : Word := 0x80000003#32
    (s false .ready).isPf .pf = true ∧ v.getLsbD 31 = true ∧
      ((s false .ready).slotOf (bitsOf v.toNat 3 0)).st = .ready ∧ bitsOf v.toNat 13 4 = 1 ∧
      (s false .ready).hm.adopt.busy = false ∧ (s true .ready).hm.adopt.busy = true ∧
      ((s false .empty).slotOf (bitsOf v.toNat 3 0)).st ≠ .ready ∧ bitsOf w.toNat 13 4 = 0 ∧
      bitsOf (0x80002003#32).toNat 13 4 = 512 ∧ 512 < bitsOf (0x80002013#32).toNat 13 4 ∧
      (s true .ready).halted .inference = false ∧ (s true .ready).fatal = false := by
  decide +kernel

theorem wit_ServiceCommands_3 :
    let v : Word := 0x81010005#32
    live.isPf .pf = true ∧ live.dieOn .rd = true ∧ v.getLsbD 31 = true ∧ tsorted 0 live.fh.stby = true ∧
      bitsOf v.toNat 27 26 = 0 ∧ live.readPlan (live.reg64 (fhBlock + 0x004) (fhBlock + 0x008)) = none := by
  decide +kernel

theorem wit_ServiceCommands_4 :
    let s : State := { planState with mem := memOf (planRecord.set 66 9) }
    let v : Word := 0x81010005#32
    (s.readPlan (s.reg64 (fhBlock + 0x004) (fhBlock + 0x008))).map (fun p => s.armCheck (bitsOf v.toNat 25 24) p) = some 2 := by
  decide +kernel

theorem wit_ServiceCommands_5 :
    let s := watchAt { st := .armed, muted := [511], grace := 15 }
    let v : Word := 0x86000000#32
    s.isPf .pf = true ∧ s.dieOn .rd = true ∧ v.getLsbD 31 = true ∧ bitsOf v.toNat 27 26 = 1 ∧
      (s.stbyOf (bitsOf v.toNat 25 24)).st = .armed ∧ tsorted 0 s.fh.stby = true := by
  decide +kernel

theorem wit_ServiceCommands_6 :
    let s := watchAt { st := .armed, muted := [511], grace := 15 }
    let tm : BitVec 64 := BitVec.ofNat 64 (gps0.toNat + 500000)
    let due : Int := tm.toNat + (s.stbyOf 2).grace * 1000
    let seen := s.store (landing 2) (leBytes 8 tm.toNat ++ List.replicate 71 0 ++ [0x80])
    s.halted .radio = false ∧ s.regBit hbDst 31 = true ∧ s.dieOn .rd = true ∧ s.zlOn = true ∧
      s.isHalfMs tm.toNat = true ∧ s.fh.hbSent < tm.toNat ∧ (s.reachNs tm.toNat).pastNs tm.toNat = true ∧ s.fatal = false ∧
      (s.stbyOf 2).st = .armed ∧ (s.stbyOf 2).checked < tm.toNat ∧ (s.reachNs due).pastNs due = true ∧
      tsorted 0 s.fh.stby = true ∧ tsorted 0 s.fh.taken = true ∧
      (s.reachNs due).covered 2 tm.toNat 511 = false ∧ (seen.reachNs due).covered 2 tm.toNat 511 = true := by
  decide +kernel

/-! ### Witnesses: chapter 20 -/

/-- A stop is armed or in force, its time at us µs of a clock that stands at 2 to the 30 counts. -/
def gsAt (ctrl : Word) (us : Nat) (o : Obs) : State :=
  { live with
    td := { raw := 2 ^ 30 }
    regs := [(tdBlock + 0x1000, ctrl), (tdBlock + 0x1004, BitVec.ofNat 32 (us * 1000))], obs := o }

/-- Sampling is on and one unit is selected. -/
def sampling (b : Nat) : State :=
  { live with regs := [(hmBlock + 0x6004, 0x40000000), (hmBlock + 0x6020 + 4 * (b / 32), BitVec.ofNat 32 (2 ^ (b % 32)))] }

theorem wit_ObserveCommands_1 :
    live.isPf .pf = true ∧ tsorted 0 live.regs = true ∧
      ((0x80000000#32).getLsbD 31 && !live.regBit trcCfg 31) = true ∧
      ((0 : Word).getLsbD 31 && !live.regBit trcCfg 31 || (0 : Word).getLsbD 30 && !live.regBit trcCfg 30) = false := by
  decide +kernel

theorem wit_ObserveCommands_2 :
    let s := gsAt 0 3000000 {}
    let p := gsAt 0 1000 {}
    let h : State := { p with boot := { p.boot with upd := { st := .handover } } }
    s.isPf .pf = true ∧ tsorted 0 s.regs = true ∧ s.regBit gsCtrl 0 = false ∧ s.obs.stopped = false ∧
      s.gsBufferOk = true ∧ s.fatal = false ∧ s.gsPassed = false ∧ (1 : Word).getLsbD 0 = true ∧
      p.gsPassed = true ∧ p.gsBufferOk = true ∧ p.boot.upd.st ≠ .handover ∧ h.gsPassed = true ∧ h.gsBufferOk = true := by
  decide +kernel

theorem wit_ObserveCommands_3 :
    let s := gsAt 0 3000000 { stopped := true }
    let due := s.obs.since + rawUs 40
    s.obs.stopped = true ∧ s.obs.captures = [] ∧ s.obs.captured = false ∧ due ≤ (s.reachRaw due).td.raw ∧
      s.isPf .pf = true := by
  decide +kernel

theorem wit_ObserveCommands_4 :
    ∀ b ∈ [0, 83, 84, 87, 88, 131],
      let s := sampling b
      let n := s.sampledUnits.length
      let due := s.obs.sampleT + ceilDiv (max 10 (s.regB (hmBlock + 0x6000) 31 16) * 98304) (100 * n)
      s.regBit trcCfg 30 = true ∧ s.sampledUnits[s.obs.sampleIx % n]? = some b ∧ due ≤ (s.reachRaw due).td.raw ∧
        s.sampleHalted b = false ∧
        ({ s with obs := { s.obs with stopped := true, inference := true } } : State).sampleHalted b = decide (b < 80 ∨ 84 ≤ b ∧ b < 112) := by
  decide +kernel

theorem wit_ObserveCommands_5 :
    let s := gsAt 1 1000 {}
    let n := gsAt 1 3000000 {}
    s.fatal = false ∧ s.gsMayFire = true ∧ (s.reachNs s.gsT).pastNs s.gsT = true ∧ tsorted 0 s.regs = true ∧
      s.gsPassed = true ∧ (n.reachNs n.gsT).pastNs n.gsT = true ∧ n.gsPassed = false := by
  decide +kernel

/-! ### Witnesses: chapter 22 -/

theorem wit_SmbusCommands_1 :
    ({ live with boot := { live.boot with powered := false } } : State).boot.powered = false := by
  decide +kernel

theorem wit_SmbusCommands_2 :
    let s : State := { live with boot := { live.boot with powered := true } }
    s.boot.powered = true ∧ (17 : BitVec 8).toNat ≤ 17 ∧ 17 < (18 : BitVec 8).toNat ∧ (0 : BitVec 8).toNat = 0 ∧
      8 ≤ (8 : BitVec 8).toNat ∧ (0x7D : BitVec 8).toNat < 0x7E ∧ 0x7F < (0x80 : BitVec 8).toNat ∧
      (0x7E : BitVec 8).toNat = 0x7E ∧ (0x7F : BitVec 8).toNat = 0x7F ∧ ([0] : List Byte) ≠ [0x5A] := by
  decide +kernel

theorem wit_RegisterWrites_1 :
    live.isPf .pf = true ∧ tsorted 0 live.regs = true ∧ blockOf (0x2E0000 : BitVec 28).toNat = none ∧
      blockOf (0x0 : BitVec 28).toNat = some (hiBlock, .hd) ∧ hiBlock ≠ 0xFF00000 ∧
      blockOf (0x2BFFFC : BitVec 28).toNat = some (dlBlock, .gd 3) ∧
      live.mayWriteReg .pf dlBlock (0x2BFFFC - dlBlock) (.gd 3) = false ∧
      ({ live with pw := { isl := [] } } : State).dieOn (.gd 3) = false ∧
      ({ live with pw := { isl := [] } } : State).isPf .pf = true := by
  decide +kernel

theorem wit_RegisterWrites_2 :
    let x : MsixVec := { addrHi := 1, masked := true, pending := true }
    let s : State := { live with hi := { live.hi with msix := [(msixKey 512 15, x)] } }
    s.fnLive ((511 : Fin 512).val + 1) = true ∧ tsorted 0 s.hi.msix = true ∧ (0 : Word).getLsbD 0 = false ∧
      (tget {} s.hi.msix (msixKey 512 15)).pending = true ∧ x.addrHi ≠ 0 ∧ (0xDFFC : BitVec 28).toNat < 0xE000 ∧
      0xE100 ≤ (0xE100 : BitVec 28).toNat := by
  decide +kernel

theorem wit_RegisterWrites_3 :
    let s (d : Bool) (b : LcBase) : State := { live with boot := { live.boot with powered := true, debug := d, fuses := { lc := b } } }
    (s true .manufacture).boot.powered = true ∧ (s true .manufacture).boot.debug = true ∧
      (s false .manufacture).boot.fuses.lc = .manufacture ∧ (s false .provisioned).boot.fuses.lc ≠ .manufacture ∧
      (s false .provisioned).boot.debug = false := by
  decide +kernel

/-! ### Witnesses: chapter 23 -/

/-- Commands of every group of chapters answer next states, so the frames speak of some. -/
theorem wit_Frames : ∀ c ∈ [Instr.registerWrite .pf 0 0, .ocxoStable, .decodeStepStart, .btRebuildStart, .smbModule, .inputDip,
    .updSwitch, .gsFire, .hmAdoptDone], answers (exec c live) = true := by decide +kernel

theorem wit_StepRunsFront :
    let a : TdAdj := { at_ := 1, op := 0, v := 0, rate := 0 }
    let s : State := { live with td := { adj := some a } }
    live.pending = [] ∧ live.clk.tideLock = true ∧ live.td.adj = none ∧ s.td.adj = some a ∧ a.at_ ≤ (s.td.raw + 1) % 2 ^ 64 ∧
      State.reset.clk.tideLock = false ∧ State.reset.td.adj = none := by
  decide +kernel

theorem wit_StepKeepsSafe :
    Safe live := by
  unfold Safe; decide +kernel

theorem wit_FusesBlown :
    (Agent.core .hd 7).isHd = true ∧ Acts (.core .hd 7) live ∧ live.boot.running = true ∧
      answers (exec (.bootOkWrite (.core .hd 7)) live) = true ∧ answers (exec .gsFire live) = true := by
  unfold Acts; decide +kernel

theorem wit_HdIslandsStay :
    live.pw.isl.length = 499 ∧ (live.isl 497).st = .on ∧ (live.isl 498).st = .on ∧
      answers (Machine.step { live with boot := { live.boot with powered := true } }) = true := by
  decide +kernel

/-! ### Ill-formed commands: one for each check of WellFormed.lean -/

theorem wf_ring : (Instr.ringTransferInject .hd .hd ⟨0, .weight⟩ []).wf = false := by decide
theorem wf_uplane_prb : (Instr.fhUplaneRx 0 none (aHdr 0) 0 .blockFloat none 0 0 0 0 272
    [⟨0, List.replicate 24 0⟩, ⟨0, List.replicate 24 0⟩] 0).wf = false := by decide +kernel
theorem wf_uplane_mantissas : (Instr.fhUplaneRx 0 none (aHdr 0) 0 .blockFloat none 0 0 0 0 0 [⟨0, [0]⟩] 0).wf = false := by
  decide +kernel
theorem wf_thermal : (Instr.thermalTick []).wf = false := by decide
theorem wf_march : (Instr.dredgeMarchDone .hd (List.replicate 36865 ⟨0, 0, false⟩)).wf = false := by
  have h (n : Nat) (x : Machine.MarchFail) : (Instr.dredgeMarchDone .hd (List.replicate n x)).wf = decide (n ≤ 512 * 72) := by
    show decide ((List.replicate n x).length ≤ 512 * 72) = _
    rw [List.length_replicate]
  rw [h]
  decide
theorem wf_logits : (Instr.rakeSelect 0 []).wf = false := by decide
theorem wf_sieve : (Instr.sieveSelect 0 []).wf = false := by decide
theorem wf_draft : (Instr.specDraft 0 [[]]).wf = false := by decide
theorem wf_verify : (Instr.specVerify 0 [[]]).wf = false := by decide
theorem wf_prefill : (Instr.prefillDone 0 [] []).wf = false := by decide
theorem wf_load : (Instr.zlRequestIssue (.core 0 0) 0 0 (.load 0 0)).wf = false := by decide
theorem wf_store : (Instr.zlRequestIssue (.core 0 0) 0 0 (.store 0 [])).wf = false := by decide
theorem wf_bar2_empty : (Instr.bar2Write 0 [] []).wf = false := by decide
theorem wf_bar2_page : (Instr.bar2Write 4095 [0, 0] []).wf = false := by decide
theorem wf_smbus : (Instr.smbInvalidCommand 0 (List.replicate 33 0)).wf = false := by decide
theorem wf_register : (Instr.registerWrite .pf 2 0).wf = false := by decide

/-! ### The spec's worked examples -/

/-- R45: 2²⁵, −2²⁵ and 1.0 with B = −32 add to 2³² in either order, which is 1.0. -/
theorem test_lps :
    let t0 : Nat := 2 ^ 57
    let t1 : Nat := 2 ^ 128 - 2 ^ 57
    let t2 : Nat := 2 ^ 32
    lpsAdd (lpsAdd t0 t2).1 t1 = (2 ^ 32, false) ∧ lpsAdd (lpsAdd t0 t1).1 t2 = (2 ^ 32, false) ∧
      FloatFmt.fp32.round (lpsValue (-32) (2 ^ 32)) = (0x3F800000, false) ∧ (fp32Add 0x4C000000 0x3F800000).1 = 0x4C000000 := by
  decide +kernel

/-- R51: the block of 0.078125, −0.01875, 0.0046875 and 0.040625. -/
theorem test_fp4_block :
    fp4Block (([0x3DA00000, 0xBC99999A, 0x3B99999A, 0x3D266666] ++ List.replicate 12 0).map FloatFmt.fp32.value) =
      (0x79, [6, 0xA, 1, 5] ++ List.replicate 12 0, 0) := by decide +kernel

/-- R54: 0.5 times 0.5 with SH = 15 is 0.25. -/
theorem test_q15 : cstore 15 .nearestEven 16 false (cmul false false (0x4000, 0) (0x4000, 0)).1 = (0x2000, false) := by
  decide +kernel

/-- R99: PD1.E3's write and PD1.P2's ADD_I32 of 5 under a rule of bank 0 of PD1. -/
def meetAt (rule : Word) : State :=
  { live with
    mem := [(0x010040000000, 0x10)]
    regs := [(bkReg (.pd 1) 0x4000, rule)] }

theorem test_meet :
    let e (r : Word) : State := after (exec (.bankAtomic (aReq 0x086 .read) 0x010040000000 1 5
      (some (aReq 0x013 (.write 0xFF 0x40000000))) [] 0) (meetAt r))
    (e 0).wordAt 0x010040000000 = 0x40000005 ∧ (e 1).wordAt 0x010040000000 = 0x40000000 ∧
      (e 2).wordAt 0x010040000000 = 0x40000005 ∧
      (tget {} (e 0).bk.rsp 0x086).data = 0x40000000 ∧ (tget {} (e 1).bk.rsp 0x086).data = 0x10 := by decide +kernel

theorem test_collide :
    let s := after (exec (.bankAccess (aReq 0x086 (.write 0xFF 0x99)) 0x010040000000
      (some (aReq 0x013 (.write 0xFF 0x40000000))) [] 0 0) (meetAt 2))
    s.wordAt 0x010040000000 = 0x40000000 ∧ (tget {} s.bk.rsp 0x086).status = .collide ∧
      s.regN (bkReg (.pd 1) (0x8800 + 4 * 0x086)) = 1 := by decide +kernel

/-- R127: tiles 0 to 3 of three sequences of two row blocks. -/
theorem test_tiles :
    let x : Desc := { Desc.parse 0 with opcode := 2, m := 4096, n := 5120, k := 5120, aFmt := 1, wFmt := 1, oFmt := 4, batch := 3 }
    (x.tk, x.nb, x.mb, x.blocks) = (5, 160, 2, 960) ∧
      [1, 2, 3, 0].map x.tileOf = [(0, 1, 0, 0), (1, 0, 0, 0), (1, 1, 0, 0), (0, 0, 0, 0)] ∧
      x.chunks (.pd 0) false 16 = 1 ∧ x.path 1 false false = 1 := by decide +kernel

/-- R135: M = 16, K = 8,192, N = 1,024 with SPLITK, deterministic and not. -/
theorem test_chunks :
    let x : Desc := { Desc.parse 0 with opcode := 1, m := 16, n := 1024, k := 8192, aFmt := 1, wFmt := 1, oFmt := 4, batch := 1, flags := 8 }
    (x.tk, x.nb, x.mb, x.blocks) = (8, 32, 1, 32) ∧
      [(true, 3), (false, 10), (false, 5)].map (fun a => x.chunks (.pd 0) a.1 a.2) = [2, 2, 1] ∧
      (x.path 2 true false, x.path 2 false false, x.path 1 false false) = (2, 3, 1) ∧
      x.scratch 2 2 true = 64 * (16 + 16 * 32 * 16) := by decide +kernel

/-- R169, R170: the four candidates' weights, their sums and the two draws. -/
theorem test_rake :
    [0x41400000, 0x413A746F, 0x4134E8DF, 0x4129D1BD].map (rakeWeight 0x41400000) =
        [2147483648, 1518500250, 1073741824, 536870912] ∧
      runningSums 0 [2147483648, 1518500250, 1073741824, 536870912] = [2147483648, 3665983898, 4739725722, 5276596634] ∧
      0xC000000000000000 * 4739725722 / 2 ^ 64 = 3554794291 := by decide +kernel

/-- R211: w = 9 and a largest component of 0x1234 give e = 5. -/
theorem test_bfp :
    let p := bfpCompress 9 ([4660, -3840, 19] ++ List.replicate 21 0)
    p.1 = 5 ∧ p.2.take 3 = [146, -120, 1] ∧ bfpFits 9 [4660] 4 = false := by decide +kernel

/-- R234, R238: units of the hub plan's three kinds of cell, and the floor of 310 units. -/
theorem test_units :
    let c (conf prbs : Nat) : Nat := Cell.units { aCell with config := conf, prbs := prbs }
    100 * c 7 106 = 1000 ∧ 40 * c 5 273 = 22000 ∧ ceilDiv (36000 + 7 * 31000) 1000 = 253 := by decide +kernel

/-- R249: the uplink allocation of 49,800 bits. -/
theorem test_ldpc_shape :
    let x := ldpcShape 0 49800 0
    (x.c, x.kp, x.z, x.k, x.n, x.ncb, x.ok) = (6, 8328, 384, 8448, 25344, 25344, true) ∧
      (x.filler 7559, x.filler 7560, x.filler 7679, x.filler 7680) = (false, true, true, false) ∧
      ldpcE 69120 6 2 6 0 = 11520 ∧ ldpcE 69120 6 2 6 5 = 11520 ∧ x.k0 0 = 0 ∧ x.k0 1 = 6528 := by decide +kernel

/-- R267: the PF reads TD_RAW_LO at 0x1_3A98_0000. -/
theorem test_tide :
    let s : State := { live with td := { raw := 0x13A980000, anchor := 0x100000000, rate := 28147498
                                         base := 1735689600000000000 * 2 ^ 16 + 2 ^ 15 } }
    let l := tget {} (after (exec (.tdRawLoRead .pf) s)).td.latch 0
    l.raw = 0x13A980000 ∧ s.T = 1735689601000000100 ∧ l.c = 1735689601000000100 * 2 ^ 16 + 2 ^ 15 := by decide +kernel

/-- R323: RATE 7,000 Mb/s at 400 Gb/s: a frame of 7,700 bytes takes the credit to −7,565.25 bytes. -/
theorem test_credit :
    let k := 2048 * 4
    let s : State := { live with regs := [(eqReg k 0x04, 7000), (fhBlock + 0x020 + 16, 1)] }
    s.creditSent k (7700 * 2 ^ 16) = -(756525 * 3 * 2 ^ 16) / 100 := by decide +kernel

/-- R342: the address 0x7F3A_4C12_3A40 under a 2 MiB leaf. -/
theorem test_walk :
    let a : Nat := 0x7F3A4C123A40
    [4, 3, 2].map (fun l => levelIndex l a) = [254, 233, 96] ∧
      judgeLevel 2 a 0x418A400083 true true = .done 0x418A523A40 21 true ∧
      (match judgeContext 0x31 (0x5001 + 2 ^ 64 * 8) with | .read .pasid e _ => e | _ => 0) = 0x5000 + 0x188 := by decide +kernel

/-- R24, R27, R461: indices and addresses of the address map's example. -/
theorem test_map :
    esReg 37 4 = 0x425004 ∧ bkReg (.gd 1) 0x0104 = 0x550104 ∧ cxBlock + 0x1000 + 4 * 17 = 0x261044 ∧
      bgIsland 1 47 = 220 ∧ arrayDie 37 = .pd 2 := by decide +kernel

end Sys2Proof.Tests
end

namespace Sys2Proof
open Machine

/-! ### O51: the state after reset -/

/-- Settles O51: the state after reset lists nothing in its tables, and its 499 islands stand. -/
theorem resetSafe : Obligations.ResetSafe := by
  unfold Obligations.ResetSafe Safe
  decide +kernel

/-! ### What a safe state is made of -/

section
variable {s t : State}

/-- A change that leaves the tables and the list of islands as they are leaves the state safe. -/
theorem Safe.same (h : Safe s) {clk ring bk pw td det cfg sh tt fh ds zl eg slots rtn hm obs boot hi cu irq free pending}
    (hisl : pw.isl = s.pw.isl := by rfl) :
    Safe { s with
      clk := clk, ring := ring, bk := bk, pw := pw, td := td, det := det, cfg := cfg, sh := sh, tt := tt, fh := fh, ds := ds
      zl := zl, eg := eg, slots := slots, rtn := rtn, hm := hm, obs := obs, boot := boot, hi := hi, cu := cu, irq := irq
      free := free, pending := pending } := by
  obtain ⟨hmem, hhost, hregs, hes, hdl, hlen⟩ := h
  exact ⟨hmem, hhost, hregs, hes, hdl, hisl ▸ hlen⟩

theorem Safe.ite {c : Prop} {_ : Decidable c} (hs : Safe s) (ht : Safe t) : Safe (if c then s else t) := by
  split
  · exact hs
  · exact ht

/-- The state of a pair that a pattern takes apart. -/
theorem Safe.of_fst {β : Type} {p : State × β} {b : β} (h : Safe p.1) (e : p = (t, b)) : Safe t := by
  rw [e] at h
  exact h

/-- A fold whose steps each keep the state of a pair safe keeps it safe. -/
theorem Safe.foldl_fst {α β : Type} {f : State × β → α → State × β} (hf : ∀ y x, Safe y.1 → Safe (f y x).1) (l : List α)
    {y : State × β} (hy : Safe y.1) : Safe (l.foldl f y).1 :=
  List.foldlRecOn (motive := fun y => Safe y.1) l f hy (fun y hy x _ => hf y x hy)

/-! ### The updates that the meanings are made of -/

theorem Safe.setReg (h : Safe s) (o v) : Safe (s.setReg o v) := by
  obtain ⟨hmem, hhost, hregs, hes, hdl, hisl⟩ := h
  exact ⟨hmem, hhost, s.sorted_setReg hregs o v, hes, hdl, hisl⟩

theorem Safe.resetRegs (h : Safe s) (lo hi) : Safe (s.resetRegs lo hi) := by
  obtain ⟨hmem, hhost, hregs, hes, hdl, hisl⟩ := h
  exact ⟨hmem, hhost, tsorted_filter _ hregs, hes, hdl, hisl⟩

theorem Safe.modIsl (h : Safe s) (i f) : Safe (s.modIsl i f) := by
  obtain ⟨hmem, hhost, hregs, hes, hdl, hisl⟩ := h
  exact ⟨hmem, hhost, hregs, hes, hdl, (length_lmod ..).trans hisl⟩

theorem Safe.store (h : Safe s) (a bs) : Safe (s.store a bs) := by
  obtain ⟨hmem, hhost, hregs, hes, hdl, hisl⟩ := h
  exact ⟨s.store_wf hmem a bs, hhost, hregs, hes, hdl, hisl⟩

theorem Safe.clearMem (h : Safe s) (p) : Safe (s.clearMem p) := by
  obtain ⟨hmem, hhost, hregs, hes, hdl, hisl⟩ := h
  exact ⟨s.clearMem_wf hmem p, hhost, hregs, hes, hdl, hisl⟩

theorem Safe.putWord (h : Safe s) (k v) : Safe (s.putWord k v) := by
  obtain ⟨hmem, hhost, hregs, hes, hdl, hisl⟩ := h
  exact ⟨wf_wrBytes _ hmem k, hhost, hregs, hes, hdl, hisl⟩

/-- A run of bytes written to host memory. -/
theorem Safe.writeHost (h : Safe s) (a bs) : Safe { s with host := wrBytes s.host a bs } := by
  obtain ⟨hmem, hhost, hregs, hes, hdl, hisl⟩ := h
  exact ⟨hmem, wf_wrBytes _ hhost a, hregs, hes, hdl, hisl⟩

theorem Safe.setEs (h : Safe s) (g e) : Safe (s.setEs g e) := by
  obtain ⟨hmem, hhost, hregs, hes, hdl, hisl⟩ := h
  exact ⟨hmem, hhost, hregs, tsorted_tput _ hes (Nat.zero_le g), hdl, hisl⟩

theorem Safe.setDl (h : Safe s) (n e) : Safe (s.setDl n e) := by
  obtain ⟨hmem, hhost, hregs, hes, hdl, hisl⟩ := h
  exact ⟨hmem, hhost, hregs, hes, tsorted_tput _ hdl (Nat.zero_le n), hisl⟩

end

/-! ### Contents that are dropped -/

section
variable {s : State}

theorem Safe.dropRegs (h : Safe s) (p) : Safe { s with regs := tdrop p s.regs } := by
  obtain ⟨hmem, hhost, hregs, hes, hdl, hisl⟩ := h
  exact ⟨hmem, hhost, tsorted_filter _ hregs, hes, hdl, hisl⟩

theorem Safe.dropEs (h : Safe s) (p) : Safe { s with es := tdrop p s.es } := by
  obtain ⟨hmem, hhost, hregs, hes, hdl, hisl⟩ := h
  exact ⟨hmem, hhost, hregs, tsorted_filter _ hes, hdl, hisl⟩

theorem Safe.dropDl (h : Safe s) (p) : Safe { s with dl := tdrop p s.dl } := by
  obtain ⟨hmem, hhost, hregs, hes, hdl, hisl⟩ := h
  exact ⟨hmem, hhost, hregs, hes, tsorted_filter _ hdl, hisl⟩

/-- The registers that a module reset keeps are in canonical form, whatever the state before it. -/
theorem sorted_keptRegs (s : State) (cold : Bool) : tsorted 0 (s.keptRegs cold) = true := by
  have hwarm : Safe (State.reset.setReg (btBlock + 0x014) (s.regN (btBlock + 0x014))) := Safe.setReg resetSafe ..
  obtain ⟨-, -, hregs, -⟩ : Safe (if cold then _ else _) := .ite hwarm (((hwarm.setReg ..).setReg ..).setReg ..)
  exact hregs

end

/-! ### Outcomes -/

section
variable {s t : State} {o : Option State}

/-- The state of an answer that may be none is safe. -/
def SomeSafe : Option State → Prop
  | none => True
  | some s => Safe s

theorem SomeSafe.of_none : SomeSafe none := trivial

theorem SomeSafe.of_some (h : Safe s) : SomeSafe (some s) := h

theorem SomeSafe.safe (h : SomeSafe o) (e : o = some t) : Safe t := by
  rw [e] at h
  exact h

theorem SomeSafe.ite {c : Prop} {_ : Decidable c} {p : Option State} (ho : SomeSafe o) (hp : SomeSafe p) :
    SomeSafe (if c then o else p) := by
  split
  · exact ho
  · exact hp

theorem SomeSafe.getD (h : SomeSafe o) (hs : Safe s) : Safe (o.getD s) := by
  cases o with
  | none => exact hs
  | some t => exact h.safe rfl

end

section
variable {s t : State}

/-- The command answers a next state, and a safe one. -/
def NextSafe (o : Out) : Prop := ∃ t, o = .next t ∧ Safe t

theorem NextSafe.next (h : Safe s) : NextSafe (.next s) := ⟨s, rfl, h⟩

theorem NextSafe.onlyIf {p : Bool} (hs : Safe s) (ht : Safe t) : NextSafe (onlyIf p s t) := .next (.ite ht hs)

theorem NextSafe.ite {c : Prop} {_ : Decidable c} {o u : Out} (ho : NextSafe o) (hu : NextSafe u) :
    NextSafe (if c then o else u) := by
  split
  · exact ho
  · exact hu

theorem NextSafe.agentIf {m : Agent} {p : Bool} (hs : Safe s) (ht : Safe t) : NextSafe (agentIf m p s t) :=
  .ite (.next hs) (.ite (.next hs.same) (.onlyIf hs ht))

theorem NextSafe.unlessHalted {u : StopUnit} {o : Out} (hs : Safe s) (ho : NextSafe o) : NextSafe (unlessHalted s u o) :=
  .ite (.next hs) ho

end

/-! ### O52: what keeps a state safe

One lemma for each function of the model that answers a state, a state beside other values, or an outcome, in the order of the
model's files.  Only a few functions above write the tables or the list of islands; every other lemma follows the body of its
function: its named states (`extract_lets`), its branches (`split`, `Safe.ite`), its folds (`foldl_keeps`) and its recursion,
and cites the lemmas about the functions it calls.  `nextSafe_` lemmas are about the meanings of commands. -/

section
-- One proof at a time: many proofs at once, each with a stack of its own, pass the limit that the check sets on memory.
set_option Elab.async false
variable {s : State}

/-! ### Sys2Proof/Machine/Ops.lean -/

theorem Safe.setRegB (h : Safe s) (o hi lo v) : Safe (s.setRegB o hi lo v) := h.setReg ..

theorem Safe.countFenced (h : Safe s) : Safe s.countFenced := h.same

theorem Safe.count (h : Safe s) (o n) : Safe (s.count o n) := h.setReg ..

theorem Safe.drew (h : Safe s) (n) : Safe (s.drew n) := h.same

theorem Safe.setErr (h : Safe s) (k p) : Safe (s.setErr k p) := h.same

theorem Safe.irqTo (h : Safe s) (core src) : Safe (s.irqTo core src) := h.same

theorem Safe.sendVec (h : Safe s) (f v) : Safe (s.sendVec f v) := .ite h h.same

theorem Safe.hiErr (h : Safe s) (bit) : Safe (s.hiErr bit) := by
  unfold State.hiErr
  extract_lets t
  have ht : Safe t := h.setReg ..
  exact .ite ht (ht.sendVec ..)

theorem Safe.mgmtEvent (h : Safe s) : Safe s.mgmtEvent := h.sendVec ..

theorem Safe.bootFailed (h : Safe s) : Safe s.bootFailed := .ite h.same h

theorem Safe.raiseFatal (h : Safe s) (cause die) : Safe (s.raiseFatal cause die) := by
  unfold State.raiseFatal
  extract_lets t t₁
  have ht : Safe t := (h.setReg ..).bootFailed
  have ht₁ : Safe t₁ := ht.setRegB ..
  exact .ite h ht₁.same

theorem Safe.fnCount (h : Safe s) (f c n) : Safe (s.fnCount f c n) := h.same

theorem Safe.eccReport (h : Safe s) (m k bad) : Safe (s.eccReport m k bad) := by
  unfold State.eccReport
  split
  · exact h
  · extract_lets _ _ _ s₁ s₂ _ s₃
    have hs₁ : Safe s₁ := h.count ..
    have hs₂ : Safe s₂ := .ite ((hs₁.setReg ..).setReg ..) hs₁
    have hs₃ : Safe s₃ := hs₂.same
    exact .ite (((hs₃.setReg ..).irqTo ..).hiErr ..) hs₂

theorem Safe.noteReads (h : Safe s) (m a n) : Safe (s.noteReads m a n) := by
  unfold State.noteReads
  extract_lets
  exact foldl_keeps (fun t x ht => by
      extract_lets s₁
      have hs₁ : Safe s₁ := ht.eccReport ..
      exact .ite hs₁ hs₁.same) _ h

theorem Safe.storeNat (h : Safe s) (a n x) : Safe (s.storeNat a n x) := h.store ..

/-! ### Sys2Proof/Machine/Time.lean -/

theorem Safe.reachRaw (h : Safe s) (n) : Safe (s.reachRaw n) := .ite h.same h

theorem Safe.reachC (h : Safe s) (c) : Safe (s.reachC c) := .ite (h.reachRaw ..) h

theorem Safe.reachNs (h : Safe s) (t) : Safe (s.reachNs t) := h.reachC ..

theorem Safe.tick (h : Safe s) : Safe s.tick := .ite h.same h

/-! ### Sys2Proof/Machine/Bank.lean -/

theorem Safe.answer (h : Safe s) (m st data) : Safe (s.answer m st data) := h.same

theorem Safe.armWriteback (h : Safe s) (k) : Safe (s.armWriteback k) := h.same

theorem Safe.bondedError (h : Safe s) (k) : Safe (s.bondedError k) := .ite (h.raiseFatal ..) h

theorem Safe.readWord (h : Safe s) (m k) : Safe (s.readWord m k).1 := by
  unfold State.readWord
  split
  · exact h
  · split
    · exact ((h.eccReport ..).drew ..).bondedError ..
    · exact (h.eccReport ..).armWriteback ..

theorem Safe.writeWord (h : Safe s) (m k mask data) : Safe (s.writeWord m k mask data).1 := by
  unfold State.writeWord
  extract_lets r
  have hr : Safe r.1 := h.readWord ..
  split
  · exact h.putWord ..
  · split
    · exact hr
    · exact hr.putWord ..

theorem Safe.collided (h : Safe s) (d m) : Safe (s.collided d m) := by
  unfold State.collided
  extract_lets s₁ s₂
  have hs₁ : Safe s₁ := h.count ..
  have hs₂ : Safe s₂ := .ite (hs₁.count ..) hs₁
  exact .ite hs₂.same hs₂

theorem Safe.storeLost (h : Safe s) (m a bs lost) : Safe (s.storeLost m a bs lost) :=
  .ite (h.store ..) (foldl_keeps (fun t x ht => by
    split
    · exact ht.collided ..
    · exact ht.store ..) _ h)

theorem Safe.doAccess (h : Safe s) (m k op) : Safe (s.doAccess m k op) := by
  unfold State.doAccess
  extract_lets r
  have hr : Safe r.1 := h.readWord ..
  split
  · exact hr.answer ..
  · exact hr.answer ..
  · extract_lets r₁
    have hr₁ : Safe r₁.1 := h.writeWord ..
    exact hr₁.answer ..

theorem Safe.meet (h : Safe s) (d bank k q r) : Safe (s.meet d bank k q r) := by
  unfold State.meet
  split
  · exact .ite (((h.doAccess ..).answer ..).collided ..) (((h.doAccess ..).answer ..).collided ..)
  · exact (h.doAccess ..).doAccess ..
  · exact (h.doAccess ..).doAccess ..

theorem Safe.waitedAt (h : Safe s) (d m waited) : Safe (s.waitedAt d m waited) := .ite (h.count ..) h

theorem Safe.upset (h : Safe s) (k u) : Safe (s.upset k u) := h.setErr ..

theorem Safe.answerFenced (h : Safe s) (m a write) : Safe (s.answerFenced m a write) := (Safe.ite h.countFenced h).answer ..

theorem Safe.setDredge (h : Safe s) (d x) : Safe (s.setDredge d x) := h.same

theorem Safe.copyWord (h : Safe s) (d i) : Safe (s.copyWord d i) := by
  unfold State.copyWord
  extract_lets _ _ t t₁
  have ht : Safe t := h.setDredge ..
  have ht₁ : Safe t₁ := ht.eccReport ..
  exact .ite ht (.ite (ht₁.bondedError ..) (ht₁.setErr ..))

theorem Safe.redirect (h : Safe s) (d bank word) : Safe (s.redirect d bank word) := .ite (h.copyWord ..) h

theorem Safe.accept (h : Safe s) (d bank word q port) : Safe (s.accept d bank word q port) := by
  unfold State.accept
  extract_lets t _ t₁
  have ht : Safe t := h.waitedAt ..
  have ht₁ : Safe t₁ := .ite ht.same ht
  exact ht₁.redirect ..

theorem Safe.alone (h : Safe s) (q port others a write) {f : Die → State → State} (hf : ∀ d t, Safe t → Safe (f d t)) :
    Safe (s.alone q port others a write f) := by
  unfold State.alone
  split
  · exact h.answerFenced ..
  · split
    · exact .ite (hf _ _ (h.accept ..)) h
    · exact h
    · exact h.answer ..

theorem Safe.access (h : Safe s) (q others a) : Safe (s.access q others a) :=
  h.alone _ _ _ _ _ fun _ _ ht => ht.doAccess ..

theorem nextSafe_execBankAccess (h : Safe s) (q addr rival others flips checkFlips) :
    NextSafe (execBankAccess q addr rival others flips checkFlips s) := by
  unfold execBankAccess
  extract_lets _ _ _ t
  have ht : Safe t := .ite (h.upset ..) h
  split
  · exact .next h
  · refine .next ?_
    split
    · exact ht.access ..
    · split
      · exact .ite (ht.access ..) (.ite (((ht.accept ..).accept ..).meet ..) ((ht.access ..).access ..))
      · exact (ht.access ..).access ..

theorem nextSafe_execEccWriteback (h : Safe s) (d bank word) : NextSafe (execEccWriteback d bank word s) := .onlyIf h h.same

theorem Safe.doAtomic (h : Safe s) (d m k a opc x) : Safe (s.doAtomic d m k a opc x).1 := by
  unfold State.doAtomic
  extract_lets _ _ r
  have hr : Safe r.1 := h.readWord ..
  split
  · exact h
  · split
    · exact h.count ..
    · split
      · exact hr
      · split
        · exact h
        · extract_lets
          exact hr.putWord ..

theorem Safe.atomicAnswered (h : Safe s) (d m k a opc x) : Safe (s.atomicAnswered d m k a opc x) := by
  unfold State.atomicAnswered
  extract_lets r t
  have hr : Safe r.1 := h.doAtomic ..
  have ht : Safe t := hr.answer ..
  exact .ite (ht.irqTo ..) ht

theorem nextSafe_execBankAtomic (h : Safe s) (q addr opc operand rival others upset) :
    NextSafe (execBankAtomic q addr opc operand rival others upset s) := by
  unfold execBankAtomic
  extract_lets a k atom single t
  have hatom (d t) (ht : Safe t) : Safe (atom d t) := ht.atomicAnswered ..
  have hsingle {t} (ht : Safe t) (others) : Safe (single t others) := ht.alone _ _ _ _ _ hatom
  have ht : Safe t := .ite (h.upset ..) h
  refine .ite (.next h) (.next ?_)
  split
  · exact hsingle ht _
  · split
    · extract_lets u
      have hu : Safe u := (ht.accept ..).accept ..
      exact .ite (hsingle ht _) (.ite (.ite ((hatom _ _ hu).doAccess ..) (hatom _ _ (hu.doAccess ..))) (ht.access ..))
    · exact (hsingle ht _).access ..

theorem nextSafe_execHbmAtomic (h : Safe s) (m addr opc operand upset) : NextSafe (execHbmAtomic m addr opc operand upset s) := by
  unfold execHbmAtomic
  extract_lets
  split
  · extract_lets
    exact .ite (.next h)
      (.ite (.ite (.next (((h.count ..).hiErr ..).answer ..)) (.next (h.atomicAnswered ..))) (.next (h.answer ..)))
  · exact .next h

theorem nextSafe_execBkCtrlClrEcc (h : Safe s) (m d) : NextSafe (execBkCtrlClrEcc m d s) := .agentIf h (h.resetRegs ..)

theorem nextSafe_execBkCtrlClrConf (h : Safe s) (m d) : NextSafe (execBkCtrlClrConf m d s) :=
  .agentIf h (((h.resetRegs ..).resetRegs ..).resetRegs ..)

theorem nextSafe_execBkRuleWrite (h : Safe s) (m d i v) : NextSafe (execBkRuleWrite m d i v s) := by
  unfold execBkRuleWrite
  extract_lets _ t
  have ht : Safe t := h.setReg ..
  exact .agentIf h (.ite ht.same ht)

theorem nextSafe_execBkDrEnableWrite (h : Safe s) (m d on) : NextSafe (execBkDrEnableWrite m d on s) := .agentIf h (h.setReg ..)

theorem nextSafe_execDredgeRegionStart (h : Safe s) (d) : NextSafe (execDredgeRegionStart d s) := by
  unfold execDredgeRegionStart
  extract_lets _ _ r _ _ _ t
  have hr : Safe r := .ite (h.reachRaw ..) h
  have ht : Safe t := (hr.setDredge ..).count ..
  exact .unlessHalted h (.ite (.onlyIf h (hr.setDredge ..)) (.onlyIf h (.ite (ht.count ..) ht)))

theorem nextSafe_execDredgeCopyDone (h : Safe s) (d) : NextSafe (execDredgeCopyDone d s) := by
  unfold execDredgeCopyDone
  extract_lets _ t
  have ht : Safe t := foldl_keeps (fun _ _ ht₁ => ht₁.copyWord ..) _ h
  exact .unlessHalted h (.onlyIf h (ht.setDredge ..))

theorem Safe.marchFailed (h : Safe s) (d x f) : Safe (s.marchFailed d x f) := by
  unfold State.marchFailed
  extract_lets s₁ _ _ s₂ s₃
  have hs₁ : Safe s₁ := h.count ..
  have hs₂ : Safe s₂ := hs₁.same
  have hs₃ : Safe s₃ := .ite hs₂ ((hs₂.setReg ..).setReg ..)
  exact ((hs₃.setReg ..).irqTo ..).hiErr ..

theorem nextSafe_execDredgeMarchDone (h : Safe s) (d fails) : NextSafe (execDredgeMarchDone d fails s) :=
  .unlessHalted h (.onlyIf h (foldl_keeps (fun _ _ ht => ht.marchFailed ..) _ (h.setDredge ..)))

theorem nextSafe_execDredgeRegionDone (h : Safe s) (d) : NextSafe (execDredgeRegionDone d s) := by
  unfold execDredgeRegionDone
  extract_lets _ _ t
  have ht : Safe t := h.setDredge ..
  exact .unlessHalted h (.onlyIf h (.ite (ht.count ..) ht))

/-! ### Sys2Proof/Machine/Trace.lean -/

theorem Safe.tracePut (h : Safe s) (r) : Safe (s.tracePut r) := by
  unfold State.tracePut
  extract_lets _ t
  have ht : Safe t := h.store ..
  exact ht.same

theorem Safe.traceLost (h : Safe s) : Safe s.traceLost := by
  unfold State.traceLost
  extract_lets t
  have ht : Safe t := h.count ..
  exact ht.same

theorem Safe.traceWrite (h : Safe s) (r) : Safe (s.traceWrite r) := by
  unfold State.traceWrite
  extract_lets u _ t
  have hu : Safe u := h.tracePut ..
  have ht : Safe t := .ite h hu.same
  exact .ite h.traceLost (.ite (ht.tracePut ..) ht.traceLost)

theorem Safe.trace (h : Safe s) (kind unit layer op fn arg) : Safe (s.trace kind unit layer op fn arg) := .ite (h.traceWrite ..) h

theorem Safe.capture (h : Safe s) (c zelic src cls bs) : Safe (s.capture c zelic src cls bs) := by
  unfold State.capture
  extract_lets _ t _ _ t₁
  have ht : Safe t := h.setReg ..
  have ht₁ : Safe t₁ := h.store ..
  exact .ite ht.same ht₁.same

/-! ### Sys2Proof/Machine/EqOps.lean -/

theorem Safe.setEq (h : Safe s) (key x) : Safe (s.setEq key x) := h.same

theorem Safe.setSending (h : Safe s) (e x) : Safe (s.setSending e x) := h.same

theorem Safe.creditUp (h : Safe s) (key) : Safe (s.creditUp key) := h.setEq ..

theorem Safe.tagHead (h : Safe s) (key waking) : Safe (s.tagHead key waking) := by
  unfold State.tagHead
  extract_lets
  split
  · exact h
  · exact h.setEq ..

theorem Safe.eqPush (h : Safe s) (key i) : Safe (s.eqPush key i) := by
  unfold State.eqPush
  extract_lets s₁ _ t
  have hs₁ : Safe s₁ := h.creditUp ..
  have ht : Safe t := hs₁.setEq ..
  exact .ite (ht.tagHead ..) ht

theorem Safe.eqDrop (h : Safe s) (key i) : Safe (s.eqDrop key i) := by
  unfold State.eqDrop
  extract_lets s₁ _ t
  have hs₁ : Safe s₁ := h.creditUp ..
  have ht : Safe t := hs₁.setEq ..
  exact .ite (ht.tagHead ..) ht

theorem Safe.eqClear (h : Safe s) (key) : Safe (s.eqClear key) := h.setEq ..

theorem Safe.fhAdmit (h : Safe s) (p) : Safe (s.fhAdmit p) := by
  unfold State.fhAdmit
  extract_lets _ _ _ _ t
  have ht : Safe t := h.same
  exact foldl_keeps (fun _ _ ht₁ => ht₁.eqPush ..) _ ht

theorem Safe.addNote (h : Safe s) (cell frame slot up late) : Safe (s.addNote cell frame slot up late) := .ite h h.same

theorem Safe.symbolLost (h : Safe s) (k) : Safe (s.symbolLost k) := by
  unfold State.symbolLost
  split
  · exact h
  · extract_lets t
    have ht : Safe t := h.addNote ..
    exact ht.same

theorem Safe.dropLate (h : Safe s) (key) : Safe (s.dropLate key) := by
  unfold State.dropLate
  extract_lets _ _ _ _ s₁ _ t t₁
  have hs₁ : Safe s₁ := h.creditUp ..
  have ht : Safe t := hs₁.setEq ..
  have ht₁ : Safe t₁ := .ite ht (ht.tagHead ..)
  exact .ite h ((foldl_keeps (fun _ _ ht₂ => ht₂.symbolLost ..) _ (ht₁.count ..)).fhAdmit ..)

theorem Safe.dropAllLate (h : Safe s) : Safe s.dropAllLate := foldl_keeps (fun _ _ ht => ht.dropLate ..) _ h

theorem Safe.portsOff (h : Safe s) (pair) : Safe (s.portsOff pair) := by
  unfold State.portsOff
  extract_lets one
  have hone (s p) (h : Safe s) : Safe (one s p) :=
    (foldl_keeps (fun _ _ ht => ht.symbolLost ..) _ (foldl_keeps (fun _ _ ht => ht.eqClear ..) _ h)).same.count ..
  exact hone _ _ (hone _ _ h)

/-! ### Sys2Proof/Machine/Espalier.lean -/

theorem Safe.copySeq (h : Safe s) (g) : Safe (s.copySeq g) := .ite (h.storeNat ..) h

theorem Safe.putEs (h : Safe s) (g e) : Safe (s.putEs g e) := by
  unfold State.putEs
  extract_lets t
  have ht : Safe t := h.setEs ..
  exact .ite ht (ht.copySeq ..)

theorem Safe.esIrq (h : Safe s) (g) : Safe (s.esIrq g) := h.irqTo ..

theorem nextSafe_execEsCtrlEnable (h : Safe s) (m g on irqCore) : NextSafe (execEsCtrlEnable m g on irqCore s) := by
  unfold execEsCtrlEnable
  extract_lets _ _ t
  have ht : Safe t := (h.setRegB ..).setRegB ..
  exact .agentIf h (.ite (ht.setEs ..) ht)

theorem nextSafe_execEsCtrlStop (h : Safe s) (m g) : NextSafe (execEsCtrlStop m g s) := .agentIf h (h.setRegB ..)

theorem nextSafe_execEsCtrlUnstop (h : Safe s) (m g) : NextSafe (execEsCtrlUnstop m g s) := .agentIf h (h.setRegB ..)

theorem Safe.esAbort (h : Safe s) (g) : Safe (s.esAbort g) := h.putEs ..

theorem nextSafe_execEsCtrlAbort (h : Safe s) (m a) : NextSafe (execEsCtrlAbort m a s) := .agentIf h ((h.setEs ..).esAbort ..)

theorem nextSafe_execEsAbortSettle (h : Safe s) (g) : NextSafe (execEsAbortSettle g s) := by
  unfold execEsAbortSettle
  extract_lets
  refine .unlessHalted h ?_
  split
  · exact .next (h.setEs ..)
  · exact .next ((h.setEs ..).esIrq ..)
  · exact .next h

theorem Safe.countPass (h : Safe s) (g) : Safe (s.countPass g) := by
  unfold State.countPass
  split
  · exact h.fnCount ..
  · exact h

theorem nextSafe_execEsCtrlResume (h : Safe s) (m g) : NextSafe (execEsCtrlResume m g s) := by
  unfold execEsCtrlResume
  extract_lets _ t u
  have ht : Safe t := h.putEs ..
  have hu : Safe u := .ite ht (.ite ((ht.countPass ..).esIrq ..) (ht.countPass ..))
  exact .agentIf h hu

theorem nextSafe_execEsCtrlClrCnt (h : Safe s) (m g) : NextSafe (execEsCtrlClrCnt m g s) := .agentIf h (h.setEs ..)

theorem nextSafe_execEsSPush (h : Safe s) (m g) : NextSafe (execEsSPush m g s) := .agentIf h (h.setEs ..)

theorem Safe.wakeArray (h : Safe s) (g) : Safe (s.wakeArray g) := .ite h (h.modIsl ..)

theorem nextSafe_execEsPPush (h : Safe s) (m g) : NextSafe (execEsPPush m g s) := .agentIf h ((h.putEs ..).wakeArray ..)

theorem nextSafe_execEsStageFetch (h : Safe s) (g) : NextSafe (execEsStageFetch g s) := .unlessHalted h (.onlyIf h (h.setEs ..))

theorem Safe.noteRanges (h : Safe s) (m rs) : Safe (s.noteRanges m rs) := foldl_keeps (fun _ _ ht => ht.noteReads ..) _ h

theorem nextSafe_execEsStageDataArrive (h : Safe s) (g) : NextSafe (execEsStageDataArrive g s) := by
  unfold execEsStageDataArrive
  extract_lets
  refine .unlessHalted h ?_
  split
  · extract_lets
    exact .onlyIf h ((h.noteRanges ..).setEs ..)
  · exact .next h

theorem nextSafe_execEsShadowValid (h : Safe s) (g) : NextSafe (execEsShadowValid g s) := .unlessHalted h (.onlyIf h (h.setEs ..))

theorem nextSafe_execEsSwapBegin (h : Safe s) (g waited) : NextSafe (execEsSwapBegin g waited s) := by
  unfold execEsSwapBegin
  extract_lets
  refine .unlessHalted h ?_
  split
  · exact .onlyIf h (h.setEs ..)
  · exact .next h

theorem Safe.noteHeader (h : Safe s) (g p code) : Safe (s.noteHeader g p code) := .ite (h.noteReads ..) h

theorem nextSafe_execEsPassStart (h : Safe s) (g waits) : NextSafe (execEsPassStart g waits s) := by
  unfold execEsPassStart
  extract_lets
  refine .unlessHalted h ?_
  split
  · exact .next h
  · extract_lets _ _ _ t
    have ht : Safe t := h.noteHeader ..
    split
    · extract_lets
      exact .onlyIf h ((ht.noteRanges ..).putEs ..)
    · exact .onlyIf h ((ht.putEs ..).esIrq ..)

theorem nextSafe_execEsOperandArrive (h : Safe s) (g a) : NextSafe (execEsOperandArrive g a s) := by
  unfold execEsOperandArrive
  extract_lets
  refine .unlessHalted h ?_
  split
  · exact .next h
  · extract_lets
    exact .onlyIf h ((h.noteRanges ..).setEs ..)

theorem Safe.writeRow (h : Safe s) (g r m lost) : Safe (s.writeRow g r m lost).1 := by
  unfold State.writeRow
  split
  · extract_lets _ _ _ t s₁ t₁
    have ht : Safe t := (h.store ..).store ..
    have hs₁ : Safe s₁ := .ite (h.noteReads ..) h
    have ht₁ : Safe t₁ := hs₁.storeLost ..
    split
    · exact ht.drew ..
    · split
      · exact ht₁.storeLost ..
      · exact ht₁
  · exact h

theorem nextSafe_execEsRowWrite (h : Safe s) (w) : NextSafe (execEsRowWrite w s) := by
  unfold execEsRowWrite
  extract_lets
  refine .unlessHalted h ?_
  split
  · exact .next h
  · extract_lets _ x
    have hx : Safe x.1 := Safe.foldl_fst (fun y x₁ hy => by
        extract_lets z
        have hz : Safe z.1 := hy.writeRow ..
        exact hz) _ h
    exact .onlyIf h (hx.setEs ..)

theorem nextSafe_execEsPassDone (h : Safe s) (g) : NextSafe (execEsPassDone g s) := by
  unfold execEsPassDone
  extract_lets
  refine .unlessHalted h ?_
  split
  · extract_lets t
    have ht : Safe t := (h.putEs ..).countPass ..
    exact .onlyIf h (.ite (ht.esIrq ..) ht)
  · exact .next h

theorem nextSafe_execEsPassError (h : Safe s) (g) : NextSafe (execEsPassError g s) := by
  unfold execEsPassError
  extract_lets
  refine .unlessHalted h ?_
  split
  · exact .next h
  · split
    · exact .next h
    · exact .onlyIf h ((h.setEs ..).esIrq ..)

theorem nextSafe_execEsCntLoRead (h : Safe s) (m g c) : NextSafe (execEsCntLoRead m g c s) := .onlyIf h (h.setEs ..)

/-! ### Sys2Proof/Machine/ShareOps.lean -/

theorem Safe.takeCxVf (h : Safe s) : Safe s.takeCxVf := h.same

theorem Safe.charge (h : Safe s) (v n) : Safe (s.charge v n) := h.same

theorem Safe.settle (h : Safe s) : Safe s.settle := by
  unfold State.settle
  extract_lets _ u t
  have hu : Safe u := foldl_keeps (fun _ _ ht₁ => .ite (ht₁.charge ..) ht₁) _ h
  have ht : Safe t := .ite h (hu.charge ..)
  exact ht.same

theorem Safe.wakeVf (h : Safe s) (v) : Safe (s.wakeVf v) := by
  unfold State.wakeVf
  extract_lets
  split
  · exact h
  · split
    · exact h
    · exact h.same

/-! ### Sys2Proof/Machine/Tiling.lean -/

theorem Safe.setCtx (h : Safe s) (k c) : Safe (s.setCtx k c) := by
  unfold State.setCtx
  extract_lets s₁
  have hs₁ : Safe s₁ := h.settle
  exact hs₁.same

theorem Safe.giveIdle (h : Safe s) (d) : Safe (s.giveIdle d) := by
  unfold State.giveIdle
  extract_lets s₁
  have hs₁ : Safe s₁ := h.settle
  exact foldl_keeps (fun t x ht => by
      split
      · exact ht
      · extract_lets
        exact .ite ht (ht.setCtx ..)) _ hs₁

theorem Safe.writeBlock (h : Safe s) (r x block chunks) : Safe (s.writeBlock r x block chunks).1 := by
  unfold State.writeBlock
  extract_lets _ _ _ _ _ _ _ _ _ _ go
  have hgo : Safe go.1 := Safe.foldl_fst (fun y x₁ hy => by
      extract_lets
      exact hy.store ..) _ h
  split
  · exact h
  · split
    · exact h
    · split
      · exact hgo.store ..
      · exact hgo

theorem Safe.loseWrites (h : Safe s) (ws) : Safe (s.loseWrites ws) := foldl_keeps (fun _ _ ht => (ht.store ..).drew ..) _ h

theorem Safe.doConvert (h : Safe s) (d x) : Safe (s.doConvert d x).1 := by
  unfold State.doConvert
  extract_lets _ _ _ t u u₁
  have ht : Safe t := h.noteRanges ..
  have hu : Safe u := foldl_keeps (fun _ _ ht₁ => ht₁.store ..) _ ht
  have hu₁ : Safe u₁ := .ite (hu.loseWrites ..) hu
  split
  · exact ht.loseWrites ..
  · split
    · exact ht.loseWrites ..
    · exact hu₁.count ..

theorem Safe.doRoutine (h : Safe s) : Safe s.doRoutine := (h.store ..).drew ..

theorem Safe.traceDesc (h : Safe s) (kind d vf x arg) : Safe (s.traceDesc kind d vf x arg) := h.trace ..

theorem Safe.postRecord (h : Safe s) (d vf slot dseq x r) : Safe (s.postRecord d vf slot dseq x r) := by
  unfold State.postRecord
  extract_lets s₁ _ t
  have hs₁ : Safe s₁ := h.traceDesc ..
  have ht : Safe t := hs₁.same
  exact .ite ht (.ite ht.mgmtEvent (ht.irqTo ..))

theorem Safe.loseScratch (h : Safe s) (c) : Safe (s.loseScratch c) := (h.store ..).drew ..

theorem Safe.runQueue (h : Safe s) (d key c qs) : Safe (s.runQueue d key c qs) := by
  induction qs generalizing s with
  | nil => exact h.setCtx ..
  | cons q qs ih =>
    unfold State.runQueue
    extract_lets x drip avail chunks path chk s₁ t seq u
    have hs₁ : Safe s₁ := .ite (h.noteReads ..) h
    split
    · exact ih (hs₁.postRecord ..)
    · split
      · exact ih (((hs₁.traceDesc ..).doConvert ..).postRecord ..)
      · split
        · exact ih ((hs₁.traceDesc ..).doRoutine.postRecord ..)
        · exact (((hs₁.storeNat ..).storeNat ..).store ..).traceDesc .. |>.setCtx ..

theorem Safe.endDesc (h : Safe s) (d key c r status sub) : Safe (s.endDesc d key c r status sub) :=
  ((h.loseScratch ..).postRecord ..).runQueue ..

theorem Safe.loseBlock (h : Safe s) (r x block) : Safe (s.loseBlock r x block) := h.loseWrites ..

theorem Safe.loseBlocks (h : Safe s) (r) : Safe (s.loseBlocks r) := foldl_keeps (fun _ _ ht => ht.loseBlock ..) _ h

theorem Safe.loseOthers (h : Safe s) (r block) : Safe (s.loseOthers r block) := h.loseBlocks ..

theorem Safe.abortCtx (h : Safe s) (d key) : Safe (s.abortCtx d key) := by
  unfold State.abortCtx
  extract_lets s₁
  have hs₁ : Safe s₁ := h.settle
  split
  · exact hs₁
  · extract_lets t t₁
    have ht : Safe t := by
      unfold t
      split
      · extract_lets
        exact ((hs₁.loseBlocks ..).loseScratch ..).postRecord ..
      · exact hs₁
    have ht₁ : Safe t₁ := foldl_keeps (fun t₂ x ht₂ => by
        extract_lets
        exact ht₂.postRecord ..) _ ht
    exact ht₁.setCtx ..

theorem Safe.stopCtx (h : Safe s) (key why) : Safe (s.stopCtx key why) := by
  unfold State.stopCtx
  split
  · exact h
  · extract_lets t
    have ht : Safe t := foldl_keeps (fun _ _ ht₁ => ht₁.setRegB ..) _ h
    exact ht.setCtx ..

theorem Safe.evict (h : Safe s) (d v) : Safe (s.evict d v) := by
  unfold State.evict
  extract_lets s₁
  have hs₁ : Safe s₁ := h.settle
  split
  · exact hs₁
  · split
    · exact hs₁
    · exact .ite (hs₁.stopCtx ..) hs₁

theorem Safe.placeDesc (h : Safe s) (d vf slot q) : Safe (s.placeDesc d vf slot q) := by
  unfold State.placeDesc
  extract_lets s₁ t _ _ t₁
  have hs₁ : Safe s₁ := h.settle
  have ht : Safe t := hs₁.wakeVf ..
  have ht₁ : Safe t₁ := hs₁.evict ..
  split
  · exact .ite ((hs₁.wakeVf ..).runQueue ..) (hs₁.setCtx ..)
  · split
    · exact ht.same.runQueue ..
    · exact ht₁.same

theorem Safe.goOn (h : Safe s) (d key c) : Safe (s.goOn d key c) := by
  unfold State.goOn
  extract_lets s₁
  have hs₁ : Safe s₁ := h.settle.wakeVf ..
  exact .ite (hs₁.runQueue ..) (hs₁.setCtx ..)

theorem Safe.serveWait (h : Safe s) (d) : Safe (s.serveWait d) := foldl_keeps (fun _ _ ht => ht.placeDesc ..) _ h.same

theorem Safe.descCmd (h : Safe s) (op d vf slot q r90) : NextSafe (s.descCmd op d vf slot q r90) := .onlyIf h (h.placeDesc ..)

theorem nextSafe_execDescGemm (h : Safe s) (d vf slot desc r90) : NextSafe (execDescGemm d vf slot desc r90 s) :=
  .unlessHalted h (h.descCmd ..)

theorem nextSafe_execDescGemmBatched (h : Safe s) (d vf slot desc) : NextSafe (execDescGemmBatched d vf slot desc s) :=
  .unlessHalted h (h.descCmd ..)

theorem nextSafe_execDescConv1d (h : Safe s) (d vf slot desc) : NextSafe (execDescConv1d d vf slot desc s) :=
  .unlessHalted h (h.descCmd ..)

theorem nextSafe_execDescConvert (h : Safe s) (d vf slot desc) : NextSafe (execDescConvert d vf slot desc s) :=
  .unlessHalted h (h.descCmd ..)

theorem nextSafe_execDescGatherGemm (h : Safe s) (d vf slot desc) : NextSafe (execDescGatherGemm d vf slot desc s) :=
  .unlessHalted h (h.descCmd ..)

theorem nextSafe_execDescRoutine (h : Safe s) (d vf slot desc) : NextSafe (execDescRoutine d vf slot desc s) :=
  .unlessHalted h (h.descCmd ..)

theorem nextSafe_execDescBadOpcode (h : Safe s) (d vf slot desc) : NextSafe (execDescBadOpcode d vf slot desc s) :=
  .unlessHalted h (.onlyIf h (h.postRecord ..))

theorem Safe.afterDesc (h : Safe s) (d) : Safe (s.afterDesc d) := h.serveWait ..

theorem nextSafe_execSpanScan (h : Safe s) (d c block) : NextSafe (execSpanScan d c block s) := by
  unfold execSpanScan
  extract_lets
  refine .unlessHalted h ?_
  split
  · exact .next h
  · split
    · exact .next h
    · extract_lets _ _ _ t t₁
      have ht : Safe t := (h.count ..).count ..
      have ht₁ : Safe t₁ := .ite (((ht.loseBlocks ..).endDesc ..).afterDesc ..) (ht.setCtx ..)
      exact .onlyIf h ht₁

theorem nextSafe_execOperandStageCopy (h : Safe s) (d c) : NextSafe (execOperandStageCopy d c s) := by
  unfold execOperandStageCopy
  extract_lets
  refine .unlessHalted h ?_
  split
  · exact .next h
  · split
    · exact .next h
    · extract_lets _ t
      have ht : Safe t := h.noteRanges ..
      exact .onlyIf h (.ite (((ht.loseBlocks ..).endDesc ..).afterDesc ..) ((ht.loseScratch ..).setCtx ..))

theorem Safe.countDone (h : Safe s) (d key c r) : Safe (s.countDone d key c r) := by
  unfold State.countDone
  extract_lets _ t
  have ht : Safe t := (h.storeNat ..).setCtx ..
  exact .ite (ht.endDesc ..) ht

theorem Safe.stageTile (h : Safe s) (g r x block) : Safe (s.stageTile g r x block) := by
  unfold State.stageTile
  extract_lets _ t _ t₁
  have ht : Safe t := foldl_keeps (fun t₂ x₁ ht₂ => by
      extract_lets
      exact ht₂.setReg ..) _ (h.drew ..)
  have ht₁ : Safe t₁ := (ht.setRegB ..).setRegB ..
  exact ht₁.setReg ..

theorem Safe.stageJob (h : Safe s) (n r x block) : Safe (s.stageJob n r x block) := by
  unfold State.stageJob
  extract_lets _ _ t _ t₁
  have ht : Safe t := foldl_keeps (fun t₂ x₁ ht₂ => by
      extract_lets
      exact ht₂.setReg ..) _ (h.drew ..)
  have ht₁ : Safe t₁ := (ht.setRegB ..).setRegB ..
  exact ht₁.setReg ..

theorem Safe.stageFor (h : Safe s) (d g r x block) : Safe (s.stageFor d g r x block) := .ite (h.stageJob ..) (h.stageTile ..)

theorem nextSafe_execTileClaim (h : Safe s) (d c g) : NextSafe (execTileClaim d c g s) := by
  unfold execTileClaim
  extract_lets
  refine .unlessHalted h ?_
  split
  · exact .next h
  · extract_lets _ _ t
    have ht : Safe t := h.storeNat ..
    split
    · exact .next h
    · extract_lets
      exact .onlyIf h (.ite ht (.ite ((ht.countDone ..).afterDesc ..) ((ht.stageFor ..).setCtx ..)))

theorem Safe.ranPasses (h : Safe s) (g vf a rows n sat) : Safe (s.ranPasses g vf a rows n sat) := (h.setEs ..).fnCount ..

theorem Safe.ranJobs (h : Safe s) (n rows) : Safe (s.ranJobs n rows) := h.setDl ..

theorem nextSafe_execTileDone (h : Safe s) (d c g) : NextSafe (execTileDone d c g s) := by
  unfold execTileDone
  extract_lets
  refine .unlessHalted h ?_
  split
  · exact .next h
  · split
    · exact .next h
    · extract_lets
      split
      · exact .next h
      · extract_lets _ _ _ _ _ _ _ _ _ s0 s1 _ w _ t t₁
        have hs0 : Safe s0 := h.noteRanges ..
        have hs1 : Safe s1 := .ite (hs0.ranJobs ..) (hs0.ranPasses ..)
        have hw : Safe w.1 := hs1.writeBlock ..
        have ht : Safe t := .ite (hw.setEs ..) (.ite (hw.count ..) (hw.count ..))
        have ht₁ : Safe t₁ := .ite (ht.loseBlock ..) ht
        exact .ite (.next (((hs0.loseBlocks ..).endDesc ..).afterDesc ..))
          (.ite (.ite (.next (((hs1.loseOthers ..).endDesc ..).afterDesc ..)) (.next ((ht₁.countDone ..).afterDesc ..)))
            (.next ((hs1.countDone ..).afterDesc ..)))

theorem Safe.handBack (h : Safe s) (cx r ts) : Safe (s.handBack cx r ts).1 := Safe.foldl_fst (fun y x hy => by
    extract_lets
    split
    · exact hy
    · exact hy.storeNat ..) _ h

theorem Safe.stopTiles (h : Safe s) (cx r g next) : Safe (s.stopTiles cx r g next).1 := by
  unfold State.stopTiles
  extract_lets
  split
  · exact h
  · extract_lets
    exact h.ranPasses ..

theorem nextSafe_execTileHandback (h : Safe s) (d c g next) : NextSafe (execTileHandback d c g next s) := by
  unfold execTileHandback
  extract_lets
  refine .unlessHalted h ?_
  split
  · exact .next h
  · extract_lets
    split
    · exact .onlyIf h ((h.setCtx ..).giveIdle ..)
    · extract_lets t u
      have ht : Safe t.1 := h.stopTiles ..
      have hu : Safe u.1 := ht.handBack ..
      exact .onlyIf h ((hu.setCtx ..).giveIdle ..)

theorem nextSafe_execHandbackTake (h : Safe s) (d c k g) : NextSafe (execHandbackTake d c k g s) := by
  unfold execHandbackTake
  extract_lets
  refine .unlessHalted h ?_
  split
  · exact .next h
  · extract_lets
    split
    · exact .next h
    · extract_lets _ t _ u
      have ht : Safe t := (h.storeNat ..).stageFor ..
      have hu : Safe u.1 := ht.handBack ..
      exact .onlyIf h (hu.setCtx ..)

theorem nextSafe_execDescriptorAbort (h : Safe s) (d c) : NextSafe (execDescriptorAbort d c s) := by
  unfold execDescriptorAbort
  extract_lets
  refine .unlessHalted h ?_
  split
  · exact .next h
  · split
    · exact .next h
    · exact .next (((h.loseBlocks ..).endDesc ..).afterDesc ..)

/-! ### Sys2Proof/Machine/Customs.lean -/

theorem Safe.cacheLeaf (h : Safe s) (fn pasid addr host log2 w) : Safe (s.cacheLeaf fn pasid addr host log2 w) :=
  .ite h.same h.same

theorem Safe.cacheTab (h : Safe s) (fn pasid at_ v x) : Safe (s.cacheTab fn pasid at_ v x) := by
  unfold State.cacheTab
  extract_lets
  split
  · exact h
  · exact h
  · extract_lets
    exact h.same

theorem Safe.xlateFault (h : Safe s) (fn pasid addr write reason) : Safe (s.xlateFault fn pasid addr write reason) := by
  unfold State.xlateFault
  extract_lets t t₁
  have ht : Safe t := (h.count ..).fnCount ..
  have ht₁ : Safe t₁ := .ite ht (((ht.setReg ..).setReg ..).setReg ..)
  exact ht₁.hiErr ..

theorem Safe.walkAll (h : Safe s) (fn pasid addr write n x) : Safe (s.walkAll fn pasid addr write n x).1 := by
  induction n generalizing s x with
  | zero => exact h
  | succ n ih =>
    cases x with
    | read a e w => exact ih (h.cacheTab ..) _
    | done hst l w => exact h
    | fail r => exact h

theorem Safe.xlate (h : Safe s) (fn pasid addr write) : Safe (s.xlate fn pasid addr write).1 := by
  unfold State.xlate
  extract_lets start r
  have hr : Safe r.1 := h.walkAll ..
  clear_value r start
  split
  · dsimp only
    split
    · exact hr.cacheLeaf ..
    · exact hr
  · exact hr.xlateFault ..
  · exact hr

theorem Safe.hostRead (h : Safe s) (fn pasid k addr n) : Safe (s.hostRead fn pasid k addr n).1 := by
  induction k generalizing s addr n with
  | zero => exact h
  | succ k ih =>
    unfold State.hostRead
    split
    · exact h
    · extract_lets m
      split
      next t _ e => exact (h.xlate ..).of_fst e
      next t _ e =>
        have ht : Safe t := (h.xlate ..).of_fst e
        split
        next u _ e' => exact (ih ht _ _).of_fst e'
        next u e' => exact (ih ht _ _).of_fst e'

theorem Safe.hostWrite (h : Safe s) (fn pasid k addr bs) : Safe (s.hostWrite fn pasid k addr bs).1 := by
  induction k generalizing s addr bs with
  | zero => exact h
  | succ k ih =>
    unfold State.hostWrite
    split
    · exact h
    · extract_lets m
      split
      next t _ e => exact (h.xlate ..).of_fst e
      next t _ e =>
        have ht : Safe t := (h.xlate ..).of_fst e
        exact ih (.ite ht (ht.writeHost ..)) _ _

theorem Safe.tenantRead (h : Safe s) (fn pasid addr n) : Safe (s.tenantRead fn pasid addr n).1 := h.hostRead ..

theorem Safe.tenantWrite (h : Safe s) (fn pasid addr bs) : Safe (s.tenantWrite fn pasid addr bs).1 := h.hostWrite ..

theorem Safe.xlateAnswer (h : Safe s) (fn pasid addr write host reason) : Safe (s.xlateAnswer fn pasid addr write host reason) :=
  h.same

theorem nextSafe_execCustomsTranslate (h : Safe s) (fn pasid addr write) :
    NextSafe (execCustomsTranslate fn pasid addr write s) := by
  unfold execCustomsTranslate
  extract_lets
  refine .next ?_
  split
  · exact h.xlateAnswer ..
  · exact (h.xlateFault ..).xlateAnswer ..
  · extract_lets
    exact h.same

theorem nextSafe_execCustomsWalkReadDone (h : Safe s) (i ok) : NextSafe (execCustomsWalkReadDone i ok s) := by
  unfold execCustomsWalkReadDone
  split
  · exact .next h
  next k _ =>
    extract_lets v x s₁ rest
    have hs₁ : Safe s₁ := .ite (h.cacheTab ..) h
    clear_value x
    refine .next ?_
    split
    · exact (Safe.ite (hs₁.same.cacheLeaf ..) hs₁.same).xlateAnswer ..
    · exact (hs₁.same.xlateFault ..).xlateAnswer ..
    · exact hs₁.same

theorem Safe.dropCached (h : Safe s) (leaf tab walk) : Safe (s.dropCached leaf tab walk) := h.same

theorem Safe.invalidate (h : Safe s) (m leaf tab walk) : NextSafe (s.invalidate m leaf tab walk) := by
  unfold State.invalidate
  extract_lets t
  have ht : Safe t := h.dropCached ..
  exact .agentIf h ht.same

theorem nextSafe_execCuInvRange (h : Safe s) (m fn order) : NextSafe (execCuInvRange m fn order s) := h.invalidate ..

theorem nextSafe_execCuInvInstance (h : Safe s) (m fn) : NextSafe (execCuInvInstance m fn s) := h.invalidate ..

theorem nextSafe_execCuInvFunction (h : Safe s) (m fn) : NextSafe (execCuInvFunction m fn s) := h.invalidate ..

theorem nextSafe_execCuInvAll (h : Safe s) (m) : NextSafe (execCuInvAll m s) := h.invalidate ..

theorem nextSafe_execCuInvDone (h : Safe s) : NextSafe (execCuInvDone s) := .onlyIf h h.same

theorem nextSafe_execCuCacheSweep (h : Safe s) : NextSafe (execCuCacheSweep s) := by
  unfold execCuCacheSweep
  extract_lets u
  have hu : Safe u := h.reachRaw ..
  exact .onlyIf h hu.same

theorem nextSafe_execCuCtrlWrite (h : Safe s) (m v) : NextSafe (execCuCtrlWrite m v s) := .agentIf h (h.setReg ..)

/-! ### Sys2Proof/Machine/HostQueues.lean -/

theorem Safe.setSq (h : Safe s) (f i q) : Safe (s.setSq f i q) := h.same

theorem Safe.setCq (h : Safe s) (f i q) : Safe (s.setCq f i q) := h.same

theorem Safe.queueError (h : Safe s) (f) : Safe (s.queueError f) := (Safe.ite (h.sendVec ..) h).hiErr ..

theorem Safe.sqFault (h : Safe s) (f i code) : Safe (s.sqFault f i code) := .ite ((h.setSq ..).queueError ..) h

theorem Safe.cqFault (h : Safe s) (f i code) : Safe (s.cqFault f i code) := .ite ((h.setCq ..).queueError ..) h

theorem Safe.cqSignal (h : Safe s) (f i) : Safe (s.cqSignal f i) := by
  unfold State.cqSignal
  extract_lets _ _ _ s₁
  have hs₁ : Safe s₁ := h.setCq ..
  exact .ite (hs₁.sendVec ..) hs₁

theorem Safe.cqModerate (h : Safe s) (f i) : Safe (s.cqModerate f i) := by
  unfold State.cqModerate
  extract_lets _ _ s₁
  have hs₁ : Safe s₁ := h.setCq ..
  exact .ite (hs₁.cqSignal ..) hs₁

theorem Safe.countEvent (h : Safe s) (f e) : Safe (s.countEvent f e) := by
  unfold State.countEvent
  extract_lets
  split
  · exact h.fnCount ..
  · exact h.fnCount ..
  · exact h.fnCount ..
  · exact h.fnCount ..
  · exact h

theorem Safe.cqWrite (h : Safe s) (f i e) : Safe (s.cqWrite f i e).1 := by
  unfold State.cqWrite
  extract_lets
  split
  next t e₁ =>
    have ht : Safe t := (h.tenantWrite ..).of_fst e₁
    exact ht.cqFault ..
  next t e₁ =>
    have ht : Safe t := (h.tenantWrite ..).of_fst e₁
    extract_lets _ t₁
    have ht₁ : Safe t₁ := (ht.setCq ..).countEvent ..
    split
    next u e₂ =>
      have hu : Safe u := (ht₁.tenantWrite ..).of_fst e₂
      exact hu.cqModerate ..
    next u e₂ =>
      have hu : Safe u := (ht₁.tenantWrite ..).of_fst e₂
      exact hu.cqFault ..

theorem Safe.postCq (h : Safe s) (f i e) : Safe (s.postCq f i e) := by
  unfold State.postCq
  extract_lets
  split
  · exact h.setCq ..
  · split
    next u e₁ =>
      exact (h.cqWrite ..).of_fst e₁
    next u e₁ =>
      have hu : Safe u := (h.cqWrite ..).of_fst e₁
      extract_lets
      exact hu.setCq ..

theorem Safe.cqFlush (h : Safe s) (f i n) : Safe (s.cqFlush f i n) := by
  induction n generalizing s with
  | zero => exact h
  | succ n ih =>
    unfold State.cqFlush
    split
    · exact h
    · split
      · exact h
      · split
        next t e => exact ih (((h.cqWrite ..).of_fst e).setCq ..)
        next t e => exact (h.cqWrite ..).of_fst e

theorem Safe.fetchEntries (h : Safe s) (f i n) : Safe (s.fetchEntries f i n).1 := by
  induction n generalizing s with
  | zero => exact h
  | succ n ih =>
    unfold State.fetchEntries
    extract_lets q a
    split
    next t e => exact (h.tenantRead ..).of_fst e
    next t bs e =>
      have ht : Safe t := (h.tenantRead ..).of_fst e
      extract_lets e' c u
      split
      · exact ht
      · exact ih (ht.setSq ..).same

theorem nextSafe_execSqTailDoorbell (h : Safe s) (f q tail) : NextSafe (execSqTailDoorbell f q tail s) := by
  unfold execSqTailDoorbell
  extract_lets _ t
  have ht : Safe t := .ite (h.sqFault ..) (h.setSq ..)
  exact .onlyIf h ht

theorem nextSafe_execSqEntryFetch (h : Safe s) (f q n) : NextSafe (execSqEntryFetch f q n s) := by
  unfold execSqEntryFetch
  extract_lets _ g _ w t
  have hg : Safe g.1 := h.fetchEntries ..
  have hw : Safe w.1 := by
    unfold w
    split
    · exact hg
    · exact hg.tenantWrite ..
  have ht : Safe t := .ite (hw.sqFault ..) (.ite hw (hw.sqFault ..))
  exact .unlessHalted h (.onlyIf h ht)

theorem nextSafe_execCqHeadWrite (h : Safe s) (f q head) : NextSafe (execCqHeadWrite f q head s) := by
  unfold execCqHeadWrite
  extract_lets _ t
  have ht : Safe t := .ite (h.cqFault ..) ((h.setCq ..).cqFlush ..)
  exact .onlyIf h ht

theorem nextSafe_execCqModTimer (h : Safe s) (f q) : NextSafe (execCqModTimer f q s) := by
  unfold execCqModTimer
  extract_lets _ t
  have ht : Safe t := h.reachRaw ..
  exact .onlyIf h (ht.cqSignal ..)

theorem nextSafe_execQueueEnable (h : Safe s) (m f i cq v) : NextSafe (execQueueEnable m f i cq v s) := by
  unfold execQueueEnable
  extract_lets _ t _ t₁
  have ht : Safe t := h.setReg ..
  have ht₁ : Safe t₁ := .ite ((ht.setCq ..).cqFlush ..) (ht.setSq ..)
  exact .agentIf h ht₁

theorem nextSafe_execQueueDisable (h : Safe s) (m f i cq) : NextSafe (execQueueDisable m f i cq s) := by
  unfold execQueueDisable
  extract_lets _ t t₁
  have ht : Safe t := h.setReg ..
  have ht₁ : Safe t₁ := .ite (.ite (ht.cqFault ..) ht) (.ite (ht.sqFault ..) ht)
  exact .agentIf h ht₁

/-! ### Sys2Proof/Machine/Harbour.lean -/

theorem Safe.setMan (h : Safe s) (i m) : Safe (s.setMan i m) := by
  unfold State.setMan
  extract_lets t
  have ht : Safe t := h.store ..
  exact ht.same

theorem Safe.modMan (h : Safe s) (i f) : Safe (s.modMan i f) := h.setMan ..

theorem Safe.setBerth (h : Safe s) (k b) : Safe (s.setBerth k b) := by
  unfold State.setBerth
  extract_lets t
  have ht : Safe t := h.store ..
  exact ht.same

theorem Safe.btStart (h : Safe s) : Safe s.btStart := h.same

theorem Safe.waitOnce (h : Safe s) (i o) : Safe (s.waitOnce i o) := .ite h ((h.count ..).setMan ..)

theorem Safe.btHold (h : Safe s) (i) : Safe (s.btHold i) := (h.waitOnce ..).btStart

theorem Safe.addBerth (h : Safe s) (i tier frame) : Safe (s.addBerth i tier frame).1 := by
  unfold State.addBerth
  extract_lets
  split
  · exact h
  · exact (h.setBerth ..).setMan ..

theorem Safe.setWritten (h : Safe s) (i n) : Safe (s.setWritten i n) := by
  unfold State.setWritten
  extract_lets _ t
  have ht : Safe t := foldl_keeps (fun t₁ x ht₁ => by
      extract_lets
      exact .ite ht₁ (ht₁.setBerth ..)) _ h
  exact ht.modMan ..

theorem Safe.putPeer (h : Safe s) (peer a bs) : Safe (s.putPeer peer a bs) := h.same

theorem Safe.sliceStore (h : Safe s) (r t f k o bs) : Safe (s.sliceStore r t f k o bs) := by
  unfold State.sliceStore
  split
  · exact h.store ..
  · exact h.putPeer ..

theorem Safe.copyBerth (h : Safe s) (r t f t' f' got) : Safe (s.copyBerth r t f t' f' got) :=
  foldl_keeps (fun _ _ ht₁ => ht₁.sliceStore ..) _ h

theorem Safe.growBerth (h : Safe s) (i) : Safe (s.growBerth i).1 := by
  unfold State.growBerth
  dsimp only
  split
  · exact h
  · split
    next t e => exact (h.addBerth ..).of_fst e
    next t e =>
      have ht := (h.addBerth ..).of_fst e
      dsimp only
      exact (ht.modMan ..).modMan ..

theorem Safe.issueMirror (h : Safe s) (i byStep) : Safe (s.issueMirror i byStep) := by
  unfold State.issueMirror
  extract_lets
  exact .ite h (foldl_keeps (fun t x ht => by
      extract_lets
      exact .ite ht (((ht.setBerth ..).putPeer ..).setMan ..)) _ h)

theorem Safe.sendRecord (h : Safe s) (i) : Safe (s.sendRecord i) := by
  unfold State.sendRecord
  extract_lets
  split
  · exact .ite ((h.setMan ..).putPeer ..) h
  · exact h

theorem Safe.takeCkpt (h : Safe s) (i) : Safe (s.takeCkpt i) := by
  unfold State.takeCkpt
  extract_lets t
  have ht : Safe t := h.issueMirror ..
  exact .ite ((ht.setMan ..).sendRecord ..) ht

theorem Safe.takeSpare (h : Safe s) (i) : Safe (s.takeSpare i) := .ite h (h.setMan ..)

theorem Safe.releaseBerths (h : Safe s) (i) : Safe (s.releaseBerths i) := by
  unfold State.releaseBerths
  extract_lets
  exact (foldl_keeps (fun _ _ ht => ht.setBerth ..) _ h).modMan ..

theorem Safe.postEvent (h : Safe s) (i event status reason step) : Safe (s.postEvent i event status reason step) := h.postCq ..

theorem Safe.postTokens (h : Safe s) (i first ts n) : Safe (s.postTokens i first ts n) := by
  induction n generalizing s first ts with
  | zero => cases ts <;> exact h
  | succ n ih =>
    cases ts with
    | nil => exact h
    | cons x xs => exact ih (h.postCq ..) _ _

theorem Safe.emitTokens (h : Safe s) (i ts) : Safe (s.emitTokens i ts) := (h.modMan ..).postTokens ..

theorem Safe.flushTokens (h : Safe s) (i) : Safe (s.flushTokens i) := by
  unfold State.flushTokens
  extract_lets
  exact (h.postTokens ..).modMan ..

theorem Safe.writeProv (h : Safe s) (i event part) : Safe (s.writeProv i event part) := by
  unfold State.writeProv
  extract_lets
  split
  · exact h
  · split
    next u e =>
      have hu : Safe u := (h.tenantWrite ..).of_fst e
      exact hu.setReg ..
    next u e =>
      have hu : Safe u := (h.tenantWrite ..).of_fst e
      exact hu.count ..

theorem Safe.dumpStatus (h : Safe s) (f entry tag status len) : Safe (s.dumpStatus f entry tag status len) := by
  unfold State.dumpStatus
  extract_lets _ _ t t₁
  have ht : Safe t := h.tenantWrite ..
  have ht₁ : Safe t₁ := ht.tenantWrite ..
  exact .ite ht₁ (ht₁.fnCount ..)

theorem Safe.bindDumps (h : Safe s) (i) : Safe (s.bindDumps i) := by
  unfold State.bindDumps
  extract_lets
  split
  · exact h
  · split
    next t e =>
      exact (h.tenantRead ..).of_fst e
    next t _ e =>
      have ht : Safe t := (h.tenantRead ..).of_fst e
      exact foldl_keeps (fun t₁ x ht₁ => by
          extract_lets
          exact .ite ht₁ (.ite (ht₁.dumpStatus ..) (ht₁.modMan ..))) _ ht

theorem Safe.writeDump (h : Safe s) (i b d) : Safe (s.writeDump i b d) := by
  unfold State.writeDump
  extract_lets
  split
  · exact h.dumpStatus ..
  · extract_lets
    split
    next t e =>
      have ht : Safe t := (h.tenantWrite ..).of_fst e
      exact ht.dumpStatus ..
    next t e =>
      have ht : Safe t := (h.tenantWrite ..).of_fst e
      split
      next t₁ e₁ =>
        have ht₁ : Safe t₁ := (ht.tenantWrite ..).of_fst e₁
        exact ht₁.dumpStatus ..
      next t₁ e₁ =>
        have ht₁ : Safe t₁ := (ht.tenantWrite ..).of_fst e₁
        exact (ht₁.dumpStatus ..).fnCount ..

theorem Safe.dueDumps (h : Safe s) (i ds) : Safe (s.dueDumps i ds) := foldl_keeps (fun _ _ ht => ht.writeDump ..) _ (h.setMan ..)

theorem Safe.dropDumps (h : Safe s) (i) : Safe (s.dropDumps i) := foldl_keeps (fun _ _ ht => ht.dumpStatus ..) _ (h.setMan ..)

theorem Safe.svLog (h : Safe s) (f words) : Safe (s.svLog f words) := by
  unfold State.svLog
  extract_lets
  split
  · exact h
  · extract_lets
    exact h.same

theorem Safe.svRelease (h : Safe s) (i) : Safe (s.svRelease i) := by
  unfold State.svRelease
  split
  · exact h
  · exact (h.svLog ..).modMan ..

theorem Safe.svPack (h : Safe s) : Safe s.svPack := h.same

theorem Safe.svStart (h : Safe s) : Safe s.svStart := .ite h h.svPack

theorem Safe.freeMan (h : Safe s) (i) : Safe (s.freeMan i) := h.setMan ..

theorem Safe.prefillOver (h : Safe s) (i) : Safe (s.prefillOver i) := by
  unfold State.prefillOver
  extract_lets _ _ t
  have ht : Safe t := h.same
  split
  · exact .ite (ht.modMan ..) ht
  · exact ht

theorem Safe.abortPrefill (h : Safe s) (i) : Safe (s.abortPrefill i) := by
  unfold State.abortPrefill
  extract_lets _ _ _ t t₁
  have ht : Safe t := by
    unfold t
    split
    · exact h.abortCtx ..
    · exact h
  have ht₁ : Safe t₁ := foldl_keeps (fun t₂ x ht₂ => by
      extract_lets
      exact ht₂.postRecord ..) _ ht
  exact .ite (h.prefillOver ..) ((ht₁.same.serveWait ..).prefillOver ..)

theorem Safe.placeAgain (h : Safe s) (i) : Safe (s.placeAgain i) := by
  unfold State.placeAgain
  extract_lets _ _ t
  have ht : Safe t := foldl_keeps (fun _ _ ht₁ => ht₁.setBerth ..) _ (h.abortPrefill ..)
  exact ht.modMan ..

theorem Safe.freeRecord (h : Safe s) (i) : Safe (s.freeRecord i) := .ite (h.putPeer ..) h

theorem Safe.reclaim (h : Safe s) (i) : Safe (s.reclaim i) :=
  (((((h.abortPrefill ..).freeRecord ..).modMan ..).releaseBerths ..).svRelease ..).freeMan ..

theorem Safe.endRequest (h : Safe s) (i event status reason) : Safe (s.endRequest i event status reason) := by
  unfold State.endRequest
  extract_lets t t₁
  have ht : Safe t := (h.flushTokens ..).dropDumps ..
  have ht₁ : Safe t₁ := .ite ht (ht.writeProv ..)
  exact (ht₁.postEvent ..).reclaim ..

theorem Safe.makeReady (h : Safe s) (i) : Safe (s.makeReady i) := by
  unfold State.makeReady
  extract_lets _ t
  have ht : Safe t := h.setMan ..
  exact .ite ht ht.same

theorem Safe.pauseLanded (h : Safe s) (i) : Safe (s.pauseLanded i) := .ite (h.takeCkpt ..) h

theorem Safe.pauseMoves (h : Safe s) (i mv) : Safe (s.pauseMoves i mv) := by
  unfold State.pauseMoves
  extract_lets _ _ _ t
  have ht : Safe t := foldl_keeps (fun t₁ x ht₁ => by
      split
      · extract_lets
        exact ht₁.setBerth ..
      · exact ht₁) _ h
  exact (ht.modMan ..).pauseLanded ..

theorem Safe.pauseBegin (h : Safe s) (i reason cmd) : Safe (s.pauseBegin i reason cmd) := by
  unfold State.pauseBegin
  extract_lets _ s₁ s₂ s₃ s₄
  have hs₁ : Safe s₁ := (h.flushTokens ..).dropDumps ..
  have hs₂ : Safe s₂ := .ite (hs₁.growBerth ..) hs₁
  have hs₃ : Safe s₃ := .ite (hs₂.setWritten ..) hs₂
  have hs₄ : Safe s₄ := hs₃.issueMirror ..
  split
  · exact (h.modMan ..).btHold ..
  · split
    · exact .ite (hs₄.endRequest ..) (hs₄.endRequest ..)
    · exact (hs₄.setMan ..).pauseMoves ..

theorem Safe.turnEnds (h : Safe s) (i reason) : Safe (s.turnEnds i reason) := .ite (h.pauseBegin ..) (h.endRequest ..)

theorem Safe.countSel (h : Safe s) : Safe s.countSel := (h.setReg ..).setReg ..

theorem Safe.acceptToken (h : Safe s) (i tok stop z) : Safe (s.acceptToken i tok stop z) := h.setMan ..

theorem Safe.noToken (h : Safe s) (i) : Safe (s.noToken i) := h.count ..

/-! ### Sys2Proof/Machine/Package.lean -/

theorem nextSafe_execRingTransferInject (h : Safe s) (src dst use payload) :
    NextSafe (execRingTransferInject src dst use payload s) :=
  .onlyIf h h.same

theorem Safe.ringArrive (h : Safe s) (t) : Safe (s.ringArrive t) := h.same

theorem nextSafe_execRingTransferDeliver (h : Safe s) (src dst cls corrected) :
    NextSafe (execRingTransferDeliver src dst cls corrected s) := by
  unfold execRingTransferDeliver
  extract_lets _ u
  have hu : Safe u := h.same
  split
  · exact .next h
  · extract_lets
    exact .next (.ite (hu.capture ..) (hu.ringArrive ..))

theorem Safe.startClock (h : Safe s) (d) : Safe (s.startClock d) := .ite h h.same

theorem nextSafe_execClockDomainStop (h : Safe s) (d) : NextSafe (execClockDomainStop d s) := .onlyIf h h.same

theorem nextSafe_execOcxoStable (h : Safe s) : NextSafe (execOcxoStable s) := .next h.same

/-! ### Sys2Proof/Machine/Radio.lean -/

theorem Safe.abortRd (h : Safe s) : Safe s.abortRd := by
  unfold State.abortRd
  extract_lets _ t
  have ht : Safe t := foldl_keeps (fun _ _ ht₁ => ht₁.abortCtx ..) _ h
  exact foldl_keeps (fun _ _ ht₁ => ht₁.placeAgain ..) _ ht

theorem nextSafe_execFhPlanLoad (h : Safe s) (m) : NextSafe (execFhPlanLoad m s) := by
  unfold execFhPlanLoad
  refine .agentIf h (Safe.mgmtEvent ?_)
  split
  · exact h.same
  · exact .ite (h.abortRd.startClock ..).same h.same

theorem nextSafe_execFhPlanUnload (h : Safe s) (m) : NextSafe (execFhPlanUnload m s) := .agentIf h h.same.mgmtEvent

theorem nextSafe_execFhPlanCancel (h : Safe s) (m) : NextSafe (execFhPlanCancel m s) := .agentIf h h.same.mgmtEvent

theorem Safe.usePlan (h : Safe s) (p) : Safe (s.usePlan p) := h.same

theorem Safe.activatePlan (h : Safe s) (p) : Safe (s.activatePlan p) := by
  unfold State.activatePlan
  extract_lets _ t
  have ht : Safe t := h.usePlan ..
  exact ht.same

theorem Safe.endPlan (h : Safe s) : Safe s.endPlan := by
  unfold State.endPlan
  extract_lets _ t
  have ht : Safe t := h.usePlan ..
  exact ht.same

theorem nextSafe_execCellShed (h : Safe s) : NextSafe (execCellShed s) := by
  unfold execCellShed
  split
  · exact .next h
  · extract_lets v
    clear_value v
    cases v with
    | nil => exact .next h
    | cons c cs => exact .onlyIf h ((h.reachNs ..).same.hiErr ..)

theorem Safe.seqCheck (h : Safe s) (i seq) : Safe (s.seqCheck i seq) := by
  unfold State.seqCheck
  extract_lets _ _ _ t
  have ht : Safe t := h.same
  exact .ite (ht.count ..) ht

theorem Safe.txSeqCheck (h : Safe s) (i seq) : Safe (s.txSeqCheck i seq) := by
  unfold State.txSeqCheck
  extract_lets _ _ t
  have ht : Safe t := h.same
  exact .ite (ht.count ..) ht

theorem nextSafe_execFhCplaneRx (h : Safe s) (port sub h' eaxc sec ext) :
    NextSafe (execFhCplaneRx port sub h' eaxc sec ext s) := by
  unfold execFhCplaneRx
  extract_lets
  refine .unlessHalted h ?_
  refine .onlyIf h ?_
  split
  · exact h.count ..
  · split
    · exact h.seqCheck ..
    · split
      · exact h.txSeqCheck ..
      · exact h.count ..

theorem nextSafe_execFhUplaneRx (h : Safe s) (port sub h' eaxc comp width frame slot sym arrival startPrb prbs buf) :
    NextSafe (execFhUplaneRx port sub h' eaxc comp width frame slot sym arrival startPrb prbs buf s) := by
  unfold execFhUplaneRx
  extract_lets s0
  have hs0 : Safe s0 := h.reachRaw ..
  refine .unlessHalted h ?_
  refine .onlyIf h ?_
  split
  · exact hs0.count ..
  · split
    · split
      · exact hs0.txSeqCheck ..
      · exact hs0.count ..
    · extract_lets s1 _ _ _ _ _ _ s2 s3
      have hs1 : Safe s1 := hs0.seqCheck ..
      have hs2 : Safe s2 := hs1.store ..
      have hs3 : Safe s3 := hs2.count ..
      split
      · exact hs1.count ..
      · exact hs1.count ..
      · exact .ite hs1 (.ite (hs1.count ..) hs3.same)

theorem nextSafe_execFhRxWindowClose (h : Safe s) (i frame slot sym buf) :
    NextSafe (execFhRxWindowClose i frame slot sym buf s) := by
  unfold execFhRxWindowClose
  extract_lets
  refine .unlessHalted h ?_
  split
  · exact .next h
  · split
    · exact .next h
    · extract_lets _ _ s0 _ s1 s2
      have hs0 : Safe s0 := h.reachC ..
      have hs1 : Safe s1 := foldl_keeps (fun _ _ ht => ht.store ..) _ hs0
      have hs2 : Safe s2 := by
        unfold s2
        split
        · exact .ite hs1 (hs1.storeNat ..)
        · exact hs1
      exact .onlyIf h hs2.same

theorem nextSafe_execAgcSymbolUpdate (h : Safe s) (i frame slot sym side) :
    NextSafe (execAgcSymbolUpdate i frame slot sym side s) := by
  unfold execAgcSymbolUpdate
  extract_lets
  refine .unlessHalted h ?_
  split
  · exact .next h
  · split
    · extract_lets _ s0 _ _ _ _ _ _ _ t
      have hs0 : Safe s0 := h.reachC ..
      have ht : Safe t := hs0.store ..
      exact .onlyIf h ht.same
    · exact .next h

theorem nextSafe_execAgcFreezeEnd (h : Safe s) (c) : NextSafe (execAgcFreezeEnd c s) := by
  unfold execAgcFreezeEnd
  extract_lets
  refine .unlessHalted h ?_
  split
  · exact .onlyIf h h.same
  · exact .next h

theorem nextSafe_execFhAgcRel (h : Safe s) (m c) : NextSafe (execFhAgcRel m c s) := .agentIf h h.same

theorem nextSafe_execFhAgcCfgWrite (h : Safe s) (m v) : NextSafe (execFhAgcCfgWrite m v s) := .agentIf h (h.setReg ..)

theorem nextSafe_execFhPortCfgWrite (h : Safe s) (m p v) : NextSafe (execFhPortCfgWrite m p v s) := .agentIf h (h.setReg ..)

theorem Safe.prachReported (h : Safe s) (c core tOcc d) : Safe (s.prachReported c core tOcc d) := by
  unfold State.prachReported
  extract_lets t u _ t₁
  have ht : Safe t := (h.count ..).irqTo ..
  have hu : Safe u := ht.storeNat ..
  have ht₁ : Safe t₁ := .ite ht hu.same
  exact ht₁.same

theorem nextSafe_execPrachOccasion (h : Safe s) (c frame slot core reps) :
    NextSafe (execPrachOccasion c frame slot core reps s) := by
  unfold execPrachOccasion
  refine .unlessHalted h ?_
  split
  · exact .next h
  · extract_lets
    split
    · extract_lets _ _ t _ _ _ r
      have ht : Safe t := h.reachC ..
      have hr : Safe r := ht.drew ..
      exact .onlyIf h (.ite (ht.count ..) (foldl_keeps (fun _ _ ht₁ => ht₁.prachReported ..) _ hr.same))
    · exact .next h

theorem nextSafe_execFftJobQueue (h : Safe s) (e src dst size mode) : NextSafe (execFftJobQueue e src dst size mode s) :=
  .unlessHalted h (.onlyIf h h.same)

theorem nextSafe_execFftJobDone (h : Safe s) (e radices) : NextSafe (execFftJobDone e radices s) := by
  unfold execFftJobDone
  extract_lets
  refine .unlessHalted h ?_
  split
  · exact .next h
  · extract_lets _ _ t
    have ht : Safe t := h.store ..
    exact .onlyIf h ht.same

theorem Safe.configIn (h : Safe s) (c frame slot up) : Safe (s.configIn c frame slot up) :=
  .ite h (.ite ((h.addNote ..).count ..) (h.addNote ..))

theorem nextSafe_execSlotConfigRx (h : Safe s) (c frame slot dirs a) : NextSafe (execSlotConfigRx c frame slot dirs a s) := by
  unfold execSlotConfigRx
  refine .unlessHalted h ?_
  split
  · exact .next h
  · extract_lets t
    have ht : Safe t := .ite (h.configIn ..) h
    exact .onlyIf h (.ite (ht.configIn ..) ht)

theorem Safe.configLate (h : Safe s) (c frame slot up) : NextSafe (s.configLate c frame slot up) := by
  unfold State.configLate
  split
  · exact .next h
  · extract_lets _ t
    have ht : Safe t := h.reachNs ..
    exact .onlyIf h ((ht.addNote ..).count ..)

theorem nextSafe_execUlConfigLate (h : Safe s) (c frame slot) : NextSafe (execUlConfigLate c frame slot s) :=
  .unlessHalted h (h.configLate ..)

theorem nextSafe_execDlConfigLate (h : Safe s) (c frame slot) : NextSafe (execDlConfigLate c frame slot s) :=
  .unlessHalted h (h.configLate ..)

theorem Safe.nrxUse (h : Safe s) (mu bs) : Safe (s.nrxUse mu bs) := h.same

theorem nextSafe_execNrxCompletionWord (h : Safe s) (src dst word n alloc passes bookings) :
    NextSafe (execNrxCompletionWord src dst word n alloc passes bookings s) := by
  unfold execNrxCompletionWord
  extract_lets
  refine .unlessHalted h ?_
  split
  · exact .next h
  · extract_lets _ _ t
    have ht : Safe t := (((h.nrxUse ..).store ..).drew ..).storeNat ..
    exact .onlyIf h (.ite (h.count ..) (.ite ht h))

/-! ### Sys2Proof/Machine/Dibber.lean -/

theorem Safe.setDb (h : Safe s) (c x) : Safe (s.setDb c x) := h.same

theorem Safe.dbRaise (h : Safe s) (c slot) : Safe (s.dbRaise c slot) := by
  unfold State.dbRaise
  extract_lets _ _ _ _ _ s₁
  have hs₁ : Safe s₁ := h.same
  exact .ite hs₁ (.ite ((hs₁.setReg ..).count ..) (hs₁.setDb ..))

theorem nextSafe_execDibberSymIrq (h : Safe s) (c) : NextSafe (execDibberSymIrq c s) := by
  unfold execDibberSymIrq
  extract_lets t
  have ht : Safe t := h.dbRaise ..
  exact .unlessHalted h (.onlyIf h (ht.setDb ..))

theorem nextSafe_execDibberSlotIrq (h : Safe s) (c sym) : NextSafe (execDibberSlotIrq c sym s) := by
  unfold execDibberSlotIrq
  extract_lets t
  have ht : Safe t := (Safe.ite (h.dbRaise ..) h).dbRaise ..
  exact .unlessHalted h (.onlyIf h (ht.setDb ..))

theorem nextSafe_execDibberReti (h : Safe s) (c) : NextSafe (execDibberReti c s) := .unlessHalted h (.onlyIf h (h.setDb ..))

theorem Safe.dbFlags (h : Safe s) (c ovf sat divz) : Safe (s.dbFlags c ovf sat divz) := by
  unfold State.dbFlags
  extract_lets _ s₁ s₂ s₃
  have hs₁ : Safe s₁ := h.setDb ..
  have hs₂ : Safe s₂ := hs₁.setReg ..
  have hs₃ : Safe s₃ := hs₂.setReg ..
  exact hs₃.count ..

theorem Safe.dbLanes (h : Safe s) (c f lanes) : NextSafe (s.dbLanes c f lanes) := .onlyIf h ((h.setDb ..).dbFlags ..)

theorem Safe.dbEcc (h : Safe s) (c bad) : Safe (s.dbEcc c bad) := .ite (h.setReg ..) h

theorem Safe.dbLoad (h : Safe s) (c d src lanes) : Safe (s.dbLoad c d src lanes) := by
  unfold State.dbLoad
  extract_lets x n
  split
  next bs bad t e =>
    have ht : Safe t := by
      cases src with
      | dmem o =>
        cases e
        exact h.dbEcc ..
      | device a =>
        dsimp only at e
        split at e
        · cases e
          exact h.noteReads ..
        · cases e
          exact h
    exact (ht.drew ..).setDb ..

theorem nextSafe_execDibberCmac (h : Safe s) (c acc a b conj neg lanes) : NextSafe (execDibberCmac c acc a b conj neg lanes s) :=
  .unlessHalted h (h.dbLanes ..)

theorem nextSafe_execDibberLaneOp (h : Safe s) (c op lanes) : NextSafe (execDibberLaneOp c op lanes s) := by
  unfold execDibberLaneOp
  refine .unlessHalted h ?_
  split
  · exact .onlyIf h (h.dbLoad ..)
  · exact .onlyIf h (h.setDb ..)
  · exact h.dbLanes ..

theorem Safe.llrRun (h : Safe s) (a al n) : Safe (s.llrRun a al n) := h.same

theorem nextSafe_execDibberStore (h : Safe s) (c acc sh rnd wide symm dst lanes) :
    NextSafe (execDibberStore c acc sh rnd wide symm dst lanes s) := by
  unfold execDibberStore
  extract_lets _ _ _ _ _ s1 _ t
  have hs1 : Safe s1 := h.setDb ..
  have ht : Safe t := by
    unfold t
    split
    · exact h.setDb ..
    · exact h.setDb ..
    · exact .ite (hs1.store ..) hs1
    · exact .ite ((hs1.store ..).llrRun ..) hs1
  exact .unlessHalted h (.onlyIf h (ht.dbFlags ..))

theorem Safe.dbControl (h : Safe s) (c v x) : Safe (s.dbControl c v x) := (h.setReg ..).setDb ..

theorem nextSafe_execDbCtrlReset (h : Safe s) (m c v) : NextSafe (execDbCtrlReset m c v s) := .agentIf h (h.dbControl ..)

theorem nextSafe_execDbCtrlRun (h : Safe s) (m c v) : NextSafe (execDbCtrlRun m c v s) := .agentIf h (h.dbControl ..)

/-! ### Sys2Proof/Machine/Drip.lean -/

theorem Safe.dlIrq (h : Safe s) (n) : Safe (s.dlIrq n) := h.irqTo ..

theorem nextSafe_execDlCtrlEnable (h : Safe s) (m n on irqCore) : NextSafe (execDlCtrlEnable m n on irqCore s) := by
  unfold execDlCtrlEnable
  extract_lets _ _ t
  have ht : Safe t := (h.setRegB ..).setRegB ..
  exact .agentIf h (.ite (ht.setDl ..) ht)

theorem nextSafe_execDlCtrlStop (h : Safe s) (m n) : NextSafe (execDlCtrlStop m n s) := .agentIf h (h.setRegB ..)

theorem nextSafe_execDlCtrlUnstop (h : Safe s) (m n) : NextSafe (execDlCtrlUnstop m n s) := .agentIf h (h.setRegB ..)

theorem Safe.loseOutput (h : Safe s) (j) : Safe (s.loseOutput j) := by
  unfold State.loseOutput
  split
  · exact h
  · exact foldl_keeps (fun t x ht => by
        extract_lets
        exact (ht.store ..).drew ..) _ h

theorem nextSafe_execDlCtrlAbort (h : Safe s) (m n) : NextSafe (execDlCtrlAbort m n s) := by
  unfold execDlCtrlAbort
  extract_lets _ s' _ _ t
  have hs' : Safe s' := by
    unfold s'
    split
    · exact h.loseOutput ..
    · exact h
  have ht : Safe t := hs'.setDl ..
  exact .agentIf h (.ite (ht.dlIrq ..) ht)

theorem nextSafe_execDlCtrlResume (h : Safe s) (m n) : NextSafe (execDlCtrlResume m n s) := .agentIf h (h.setDl ..)

theorem nextSafe_execDlCtrlClrCnt (h : Safe s) (m n) : NextSafe (execDlCtrlClrCnt m n s) := .agentIf h (h.setDl ..)

theorem nextSafe_execDlJPush (h : Safe s) (m n) : NextSafe (execDlJPush m n s) := .agentIf h (h.setDl ..)

theorem nextSafe_execDlActLoad (h : Safe s) (n) : NextSafe (execDlActLoad n s) := by
  unfold execDlActLoad
  extract_lets
  refine .unlessHalted h ?_
  split
  · extract_lets
    exact .onlyIf h ((h.noteRanges ..).setDl ..)
  · exact .next h

theorem nextSafe_execDlJobStart (h : Safe s) (n waited) : NextSafe (execDlJobStart n waited s) := by
  unfold execDlJobStart
  extract_lets
  refine .unlessHalted h ?_
  split
  · extract_lets _ _ t
    have ht : Safe t := .ite (h.setDl ..) (((Safe.ite h (h.loseOutput ..)).setDl ..).dlIrq ..)
    exact .onlyIf h ht
  · exact .next h

theorem Safe.writeVec (h : Safe s) (n j a w o v i) : Safe (s.writeVec n j a w o v i).1 := by
  unfold State.writeVec
  extract_lets _ _ _ _ t
  have ht : Safe t := h.store ..
  split
  · exact ht.store ..
  · exact ht

theorem nextSafe_execDlJobDone (h : Safe s) (n) : NextSafe (execDlJobDone n s) := by
  unfold execDlJobDone
  extract_lets
  refine .unlessHalted h ?_
  split
  · exact .next h
  · split
    · extract_lets x t t₁
      have hx : Safe x.1 := Safe.foldl_fst (fun y x₁ hy => by
          extract_lets z
          have hz : Safe z.1 := hy.writeVec ..
          exact hz) _ h
      have ht : Safe t := (hx.setDl ..).count ..
      have ht₁ : Safe t₁ := ht.trace ..
      exact .next (.ite (ht₁.dlIrq ..) ht₁)
    · exact .next h

theorem nextSafe_execDlJobError (h : Safe s) (n) : NextSafe (execDlJobError n s) := by
  unfold execDlJobError
  extract_lets
  refine .unlessHalted h ?_
  split
  · exact .next h
  · split
    · exact .next h
    · exact .next (((h.loseOutput ..).setDl ..).dlIrq ..)

theorem Safe.groupLeaves (h : Safe s) (n j) : Safe (s.groupLeaves n j) := by
  unfold State.groupLeaves
  extract_lets
  split
  · exact .ite (h.setDl ..) h
  · exact h

theorem nextSafe_execDlCntLoRead (h : Safe s) (m n c) : NextSafe (execDlCntLoRead m n c s) := .onlyIf h (h.setDl ..)

/-! ### Sys2Proof/Machine/ZelicOps.lean -/

theorem Safe.traceZl (h : Safe s) (kind m peer) : Safe (s.traceZl kind m peer) := .ite (h.trace ..) h

theorem Safe.setLink (h : Safe s) (z x) : Safe (s.setLink z x) := h.same

theorem Safe.zlSend (h : Safe s) (o) : Safe (s.zlSend o) := h.same

theorem Safe.zlRespond (h : Safe s) (via m) : Safe (s.zlRespond via m) := by
  unfold State.zlRespond
  extract_lets
  split
  · exact h.same
  · split
    · exact .ite (h.zlSend ..) (h.count ..)
    · exact h.count ..

theorem Safe.setTag (h : Safe s) (t x) : Safe (s.setTag t x) := h.same

theorem Safe.zlDone (h : Safe s) (d) : Safe (s.zlDone d) := h.same

theorem Safe.copyAnswer (h : Safe s) (id status) : Safe (s.copyAnswer id status) := by
  unfold State.copyAnswer
  extract_lets
  split
  · exact h
  · extract_lets
    exact .ite (h.same.zlDone ..) h.same

theorem Safe.releaseTag (h : Safe s) (t r) : Safe (s.releaseTag t r) := h.setTag ..

theorem Safe.zlFail (h : Safe s) (t r status) : Safe (s.zlFail t r status) := by
  unfold State.zlFail
  extract_lets u
  have hu : Safe u := h.releaseTag ..
  split
  · exact hu
  · exact hu.copyAnswer ..
  · exact hu.zlDone ..

theorem Safe.zlUnsent (h : Safe s) (i m copy status) : Safe (s.zlUnsent i m copy status) := by
  unfold State.zlUnsent
  split
  · exact h
  · exact h.copyAnswer ..
  · exact h.zlDone ..

theorem Safe.zlGo (h : Safe s) (i m copy dst origs) : SomeSafe (s.zlGo i m copy dst origs) := by
  unfold State.zlGo
  refine .ite (.of_some (h.zlUnsent ..)) (.ite (.of_some (h.zlUnsent ..)) (.ite (.of_some (h.zlUnsent ..)) ?_))
  split
  · exact .of_none
  · extract_lets gen m' q
    split
    · exact .of_some (h.setTag ..).same
    · exact .of_some ((h.setTag ..).zlSend ..)

theorem Safe.zlChunks (h : Safe s) (i get cls dst addr qaddr left index copy fuel) :
    Safe (s.zlChunks i get cls dst addr qaddr left index copy fuel).1 := by
  induction fuel generalizing s addr qaddr left with
  | zero => exact h
  | succ fuel ih =>
    unfold State.zlChunks
    extract_lets n m u
    have hu : Safe u := .ite h (h.noteReads ..)
    split
    · exact h
    · split
      next v e => exact ih ((hu.zlGo ..).safe e) ..
      next => exact h

theorem Safe.zlTry (h : Safe s) (h') : Safe (s.zlTry h').1 := by
  unfold State.zlTry
  split
  · split
    next u e =>
      exact (h.zlGo ..).safe e
    · exact h
  · split
    · exact h
    · exact h
  · exact h.zlChunks ..

theorem Safe.zlPump (h : Safe s) : Safe s.zlPump := by
  unfold State.zlPump
  extract_lets _ r r₁
  have hr : Safe r.1 := Safe.foldl_fst (fun y x hy => by
      split
      · exact hy
      · split
        next u _ e =>
          exact (hy.zlTry ..).of_fst e
        next u e =>
          have hu : Safe u := (hy.zlTry ..).of_fst e
          exact hu) _ h.same
  have hr₁ : Safe r₁ := hr
  exact hr₁.same

theorem Safe.zlHold (h : Safe s) (h') : Safe (s.zlHold h') := h.same.zlPump

theorem Safe.zlDropOut (h : Safe s) (o) : Safe (s.zlDropOut o) := by
  unfold State.zlDropOut
  split
  · exact h.count ..
  · split
    · exact h
    · split
      · exact h.zlFail ..
      · exact h

theorem Safe.linkLost (h : Safe s) (z st) : Safe (s.linkLost z st) := by
  unfold State.linkLost
  extract_lets _ _ _ t t₁ t₂ _ t₃
  have ht : Safe t := h.setLink ..
  have ht₁ : Safe t₁ := foldl_keeps (fun _ _ ht₂ => ht₂.eqClear ..) _ ht
  have ht₂₁ : Safe t₂ := ht₁.setSending ..
  have ht₃ : Safe t₃ := ht₂₁.same
  exact (foldl_keeps (fun _ _ ht₄ => ht₄.zlDropOut ..) _ ht₃).zlPump

theorem Safe.countDown (h : Safe s) (z) : Safe (s.countDown z) := h.setRegB ..

theorem Safe.linkDown (h : Safe s) (z) : Safe (s.linkDown z) := (h.linkLost ..).countDown ..

theorem Safe.opticsOff (h : Safe s) (k) : Safe (s.opticsOff k) := foldl_keeps (fun _ _ ht => ht.linkLost ..) _ h

theorem Safe.opticsOn (h : Safe s) (k) : Safe (s.opticsOn k) := foldl_keeps (fun t x ht => by
    extract_lets
    exact .ite (ht.setLink ..) ht) _ h

/-! ### Sys2Proof/Machine/Tide.lean -/

theorem nextSafe_execTdRawLoRead (h : Safe s) (m) : NextSafe (execTdRawLoRead m s) := by
  unfold execTdRawLoRead
  extract_lets
  split
  · exact .next h
  · exact .onlyIf h h.same

theorem Safe.stageAdj (h : Safe s) (op v rate) : Safe (s.stageAdj op v rate) := .ite h h.same

theorem nextSafe_execTdAdjRate (h : Safe s) (m) : NextSafe (execTdAdjRate m s) := .agentIf h (h.stageAdj ..)

theorem nextSafe_execTdAdjStep (h : Safe s) (m) : NextSafe (execTdAdjStep m s) := .agentIf h (h.stageAdj ..)

theorem nextSafe_execTdAdjSet (h : Safe s) (m) : NextSafe (execTdAdjSet m s) := .agentIf h (h.stageAdj ..)

theorem nextSafe_execTdSrcWrite (h : Safe s) (m v) : NextSafe (execTdSrcWrite m v s) := .agentIf h (h.setReg ..)

theorem nextSafe_execServoSourceLost (h : Safe s) (announce) : NextSafe (execServoSourceLost announce s) := by
  unfold execServoSourceLost
  extract_lets t
  have ht : Safe t := (h.setRegB ..).setReg ..
  exact .onlyIf h (ht.stageAdj ..)

theorem nextSafe_execServoSourceReturn (h : Safe s) (step v rate) : NextSafe (execServoSourceReturn step v rate s) := by
  unfold execServoSourceReturn
  extract_lets t
  have ht : Safe t := (h.setRegB ..).setReg ..
  exact .onlyIf h (ht.stageAdj ..)

theorem Safe.ptpDeliver (h : Safe s) (q r msg seq) : Safe (s.ptpDeliver q r msg seq) := h.same

theorem Safe.syncNoted (h : Safe s) (q msg) : Safe (s.syncNoted q msg) := .ite h.same h

theorem nextSafe_execPtpRx (h : Safe s) (q h' phase) : NextSafe (execPtpRx q h' phase s) := by
  unfold execPtpRx
  extract_lets _ _ t
  have ht : Safe t := by
    unfold t
    split
    · exact h
    · exact h.same.mgmtEvent
    · exact (h.ptpDeliver ..).syncNoted ..
  exact .unlessHalted h (.onlyIf h ht)

theorem nextSafe_execPtpSyncTx (h : Safe s) (q phase seq corr) : NextSafe (execPtpSyncTx q phase seq corr s) :=
  .unlessHalted h (.onlyIf h h.same)

theorem nextSafe_execPtpTcForward (h : Safe s) (q msg rIn phase key seq corr) :
    NextSafe (execPtpTcForward q msg rIn phase key seq corr s) := by
  unfold execPtpTcForward
  extract_lets fwd r extra send mine entry _ t u
  have hsend (t c) (ht : Safe t) : Safe (send t c) := ht.same
  have ht : Safe t := by
    cases msg with
    | syncTwoStep => exact hsend _ _ (.ite h.same h)
    | followUp =>
      unfold t
      dsimp only
      split
      · exact hsend _ _ h.same
      · exact (hsend _ _ h).count ..
    | _ => exact hsend _ _ h
  exact .unlessHalted h (.onlyIf h (.ite (ht.ptpDeliver ..) ht))

theorem nextSafe_execTcEntryExpire (h : Safe s) (p i) : NextSafe (execTcEntryExpire p i s) := by
  unfold execTcEntryExpire
  split
  · exact .next h
  · extract_lets t
    have ht : Safe t := h.reachRaw ..
    exact .onlyIf h (ht.same.count ..)

theorem Safe.setStb (h : Safe s) (i k) : Safe (s.setStb i k) := h.same

theorem Safe.setPps (h : Safe s) (j k) : Safe (s.setPps j k) := h.same

theorem Safe.pulse (h : Safe s) (k) : Safe (s.pulse k) := h.same

theorem Safe.strobe (h : Safe s) (i) : Safe (s.strobe i) := by
  unfold State.strobe
  extract_lets _ _ _ _ t
  have ht : Safe t := h.same
  exact foldl_keeps (fun _ _ ht₁ => ht₁.pulse ..) _ ht

theorem nextSafe_execStrobeFire (h : Safe s) (i) : NextSafe (execStrobeFire i s) := by
  unfold execStrobeFire
  extract_lets
  split
  · exact .next h
  · extract_lets t
    have ht : Safe t := h.reachC ..
    exact .onlyIf h ((ht.setStb ..).strobe ..)

theorem nextSafe_execTdStbCfgWrite (h : Safe s) (m i v) : NextSafe (execTdStbCfgWrite m i v s) := by
  unfold execTdStbCfgWrite
  extract_lets _ t t'
  have ht : Safe t := .ite (h.setReg ..) (h.setRegB ..)
  have ht' : Safe t' := ht.setStb ..
  exact .agentIf h (.ite ht (.ite (ht'.count ..) ht'))

theorem nextSafe_execTdFrameOfsWrite (h : Safe s) (m v) : NextSafe (execTdFrameOfsWrite m v s) := by
  unfold execTdFrameOfsWrite
  extract_lets _ t u
  have ht : Safe t := h.setReg ..
  have hu : Safe u := foldl_keeps (fun _ _ ht₁ => .ite (ht₁.setStb ..) ht₁) _ ht
  exact .agentIf h hu

theorem nextSafe_execPpsOutPulse (h : Safe s) (j) : NextSafe (execPpsOutPulse j s) := by
  unfold execPpsOutPulse
  extract_lets
  split
  · exact .next h
  · extract_lets t
    have ht : Safe t := h.reachC ..
    exact .onlyIf h ((ht.setPps ..).pulse ..)

theorem nextSafe_execTdPpsCfgWrite (h : Safe s) (m j v) : NextSafe (execTdPpsCfgWrite m j v s) := by
  unfold execTdPpsCfgWrite
  extract_lets t
  have ht : Safe t := h.setReg ..
  exact .agentIf h (.ite ht (ht.setPps ..))

theorem nextSafe_execCaptureEdge (h : Safe s) (i falling phase) : NextSafe (execCaptureEdge i falling phase s) := by
  unfold execCaptureEdge
  extract_lets _ _ _ _ _ _ t t₁ t₂ _ t₃
  have ht : Safe t := h.same
  have ht₁ : Safe t₁ := ht.setReg ..
  have ht₂ : Safe t₂ := .ite (ht₁.count ..) ht₁
  have ht₃ : Safe t₃ := .ite ht₂.same ht₂
  exact .onlyIf h (.ite h.same ht₃)

theorem Safe.esEnableSet (h : Safe s) (g) : Safe (s.esEnableSet g) := by
  unfold State.esEnableSet
  extract_lets _ t
  have ht : Safe t := h.setRegB ..
  exact .ite (ht.setEs ..) ht

theorem Safe.dlEnableSet (h : Safe s) (n) : Safe (s.dlEnableSet n) := by
  unfold State.dlEnableSet
  extract_lets _ t
  have ht : Safe t := h.setRegB ..
  exact .ite (ht.setDl ..) ht

theorem Safe.barFire (h : Safe s) (late) : Safe (s.barFire late) := by
  unfold State.barFire
  extract_lets _ t t₁ t₂
  have ht : Safe t := foldl_keeps (fun _ _ ht₁ => ht₁.esEnableSet ..) _ h
  have ht₁₁ : Safe t₁ := foldl_keeps (fun _ _ ht₂ => ht₂.dlEnableSet ..) _ ht
  have ht₂₁ : Safe t₂ := foldl_keeps (fun _ _ ht₃ => ht₃.irqTo ..) _ ht₁₁
  exact ht₂₁.setReg ..

theorem nextSafe_execBarrierArm (h : Safe s) (m v) : NextSafe (execBarrierArm m v s) := by
  unfold execBarrierArm
  extract_lets t
  have ht : Safe t := h.setReg ..
  exact .agentIf h (.ite (ht.barFire ..) ht)

theorem nextSafe_execBarrierFire (h : Safe s) : NextSafe (execBarrierFire s) := by
  unfold execBarrierFire
  extract_lets t
  have ht : Safe t := h.reachC ..
  exact .onlyIf h (ht.barFire ..)

/-! ### Sys2Proof/Machine/Zelic.lean -/

theorem Safe.quay (h : Safe s) (seg job) : Safe (s.quay seg job).1 := by
  unfold State.quay
  extract_lets
  split
  · exact h
  · split
    · exact h.same
    · exact h

theorem Safe.quayCheck (h : Safe s) (m) : Safe (s.quayCheck m).1 := by
  unfold State.quayCheck
  extract_lets
  split
  next s₁ e =>
    exact (h.quay ..).of_fst e
  next s₁ _ e =>
    have hs₁ : Safe s₁ := (h.quay ..).of_fst e
    extract_lets
    exact hs₁

theorem Safe.countArrival (h : Safe s) (i n) : Safe (s.countArrival i n) := by
  unfold State.countArrival
  extract_lets _ _ t _ _ u u₁
  have ht : Safe t := h.storeNat ..
  have hu : Safe u := (ht.storeNat ..).storeNat ..
  have hu₁ : Safe u₁ := .ite (hu.irqTo ..) hu
  exact .ite h (.ite (.ite hu₁.mgmtEvent hu₁) ht)

theorem Safe.zlRefuse (h : Safe s) (via m status) : Safe (s.zlRefuse via m status) := (h.count ..).zlRespond ..

theorem Safe.zlStoreLost (h : Safe s) (a bs lost) : Safe (s.zlStoreLost a bs lost).1 := h.storeLost ..

theorem Safe.zlWrite (h : Safe s) (a bs lost) : Safe (s.zlWrite a bs lost).1 := by
  unfold State.zlWrite
  extract_lets _ s₁ r
  have hs₁ : Safe s₁ := .ite ((h.noteReads ..).noteReads ..) h
  have hr : Safe r.1 := hs₁.zlStoreLost ..
  split
  · exact h
  · exact hr

theorem Safe.zlRead (h : Safe s) (a n) : Safe (s.zlRead a n).1 := by
  unfold State.zlRead
  extract_lets t
  have ht : Safe t := h.noteReads ..
  split
  · exact h
  · split
    · exact ht
    · exact ht

theorem Safe.zlAtomic (h : Safe s) (a m) : Safe (s.zlAtomic a m).1 := by
  unfold State.zlAtomic
  extract_lets _ _ r r₁
  have hr : Safe r.1 := h.doAtomic ..
  have hr₁ : Safe r₁.1 := h.readWord ..
  split
  · exact h
  · split
    · exact h
    · split
      · split
        · exact hr
        · exact hr
        · exact hr
        · exact hr
        · exact hr
      · split
        · exact hr₁
        · split
          · exact hr₁.putWord ..
          · exact hr₁

theorem Safe.flushBuf (h : Safe s) (b) : Safe (s.flushBuf b) := by
  unfold State.flushBuf
  extract_lets _ _ t
  have ht : Safe t := h.same
  exact (ht.count ..).zlHold ..

theorem Safe.flushOf (h : Safe s) (via m) : Safe (s.flushOf via m) := foldl_keeps (fun _ _ ht => ht.flushBuf ..) _ h

theorem Safe.gather (h : Safe s) (via m e far bs fuel) : Safe (s.gather via m e far bs fuel) := by
  induction fuel generalizing s far bs with
  | zero => exact h
  | succ fuel ih =>
    unfold State.gather
    extract_lets old s₁ b n b' _ t full
    have hs₁ : Safe s₁ := by
      unfold s₁ old
      split
      · exact .ite h (h.flushBuf ..)
      · exact h
    have ht : Safe t := hs₁.same
    exact .ite h (ih (.ite (ht.flushBuf ..) ht) _ _)

theorem Safe.zlFar (h : Safe s) (via m e off) : Safe (s.zlFar via m e off) :=
  .ite (h.zlRefuse ..) (.ite ((h.count ..).zlRespond ..) (.ite (h.gather ..) ((h.flushOf ..).zlHold ..)))

theorem Safe.lockAnswer (h : Safe s) (o status data) : Safe (s.lockAnswer o status data) := h.zlRespond ..

theorem Safe.zlReadReq (h : Safe s) (via m) : Safe (s.zlReadReq via m) := by
  unfold State.zlReadReq
  split
  · exact h.zlRefuse ..
  · split
    next s₁ _ e =>
      have hs₁ : Safe s₁ := (h.quayCheck ..).of_fst e
      exact hs₁.zlRefuse ..
    next s₁ _ _ e =>
      have hs₁ : Safe s₁ := (h.quayCheck ..).of_fst e
      exact hs₁.zlFar ..
    next s₁ _ e =>
      have hs₁ : Safe s₁ := (h.quayCheck ..).of_fst e
      extract_lets r
      have hr : Safe r.1 := hs₁.zlRead ..
      exact hr.zlRespond ..

theorem Safe.zlStoreReq (h : Safe s) (via m lost) : Safe (s.zlStoreReq via m lost) := by
  unfold State.zlStoreReq
  split
  · exact h.zlRefuse ..
  · split
    next s₁ _ e =>
      have hs₁ : Safe s₁ := (h.quayCheck ..).of_fst e
      exact hs₁.zlRefuse ..
    next s₁ _ _ e =>
      have hs₁ : Safe s₁ := (h.quayCheck ..).of_fst e
      exact hs₁.zlFar ..
    next s₁ _ e =>
      have hs₁ : Safe s₁ := (h.quayCheck ..).of_fst e
      extract_lets r
      have hr : Safe r.1 := hs₁.zlWrite ..
      exact hr.zlRespond ..

theorem Safe.zlPutReq (h : Safe s) (via m lost) : Safe (s.zlPutReq via m lost) := by
  unfold State.zlPutReq
  split
  · exact h.zlRefuse ..
  · split
    next s₁ _ e =>
      have hs₁ : Safe s₁ := (h.quayCheck ..).of_fst e
      exact hs₁.zlRefuse ..
    next s₁ _ _ e =>
      have hs₁ : Safe s₁ := (h.quayCheck ..).of_fst e
      exact hs₁.zlFar ..
    next s₁ _ e =>
      have hs₁ : Safe s₁ := (h.quayCheck ..).of_fst e
      extract_lets r t
      have hr : Safe r.1 := hs₁.zlWrite ..
      have ht : Safe t := .ite (hr.countArrival ..) hr
      exact ht.zlRespond ..

theorem Safe.cacheReply (h : Safe s) (via m r) : Safe (s.cacheReply via m r) := by
  unfold State.cacheReply
  extract_lets
  split
  · exact h
  · exact .ite h h.same

theorem Safe.zlOnce (h : Safe s) (via m) {perform : State → State × ZlMsg} (hf : ∀ t, Safe t → Safe (perform t).1) :
    Safe (s.zlOnce via m perform) := by
  unfold State.zlOnce
  extract_lets cache r
  refine .ite (h.zlRefuse ..) (.ite (h.zlRespond ..) ?_)
  split
  · exact (h.count ..).zlRespond ..
  · exact .ite ((h.count ..).zlRespond ..) (((hf _ h).cacheReply ..).zlRespond ..)

theorem Safe.zlAtomicReq (h : Safe s) (via m) : Safe (s.zlAtomicReq via m) := by
  unfold State.zlAtomicReq
  refine h.zlOnce _ _ fun t ht => ?_
  dsimp only
  split
  next u c e => exact ((ht.quayCheck ..).of_fst e).count ..
  next u a b e =>
    have hu : Safe u := (ht.quayCheck ..).of_fst e
    split
    · exact hu.count ..
    · exact hu.count ..
  next u a e => exact Safe.zlAtomic ((ht.quayCheck ..).of_fst e) ..

theorem Safe.zlTrigger (h : Safe s) (via m) : Safe (s.zlTrigger via m).1 := by
  unfold State.zlTrigger
  extract_lets _ _ _ _ _ _ t
  have ht : Safe t := (h.store ..).storeNat ..
  split
  · exact h.count ..
  · split
    · exact h
    · exact ht.irqTo ..

theorem Safe.zlTriggerReq (h : Safe s) (via m) : Safe (s.zlTriggerReq via m) := by
  unfold State.zlTriggerReq
  refine h.zlOnce _ _ fun t ht => ?_
  exact ht.zlTrigger ..

theorem Safe.zlComplete (h : Safe s) (m r status) : Safe (s.zlComplete m r status) := by
  unfold State.zlComplete
  extract_lets t u
  have ht : Safe t := h.releaseTag ..
  have hu : Safe u := by
    unfold u
    split
    · exact foldl_keeps (fun _ _ ht₁ => ht₁.lockAnswer ..) _ ht
    · exact ht.copyAnswer ..
    · exact ht.zlDone ..
  exact hu.zlPump

theorem Safe.zlResponse (h : Safe s) (m) {k : State → ZlReq → State} (hk : ∀ t r, Safe t → Safe (k t r)) :
    Safe (s.zlResponse m k) := by
  unfold State.zlResponse
  split
  · exact h.count ..
  · exact hk _ _ h

theorem Safe.zlAck (h : Safe s) (m) : Safe (s.zlAck m) := by
  unfold State.zlAck
  refine h.zlResponse _ fun t r ht => ?_
  exact ht.zlComplete ..

theorem Safe.zlOnceRsp (h : Safe s) (m) : Safe (s.zlOnceRsp m) := by
  unfold State.zlOnceRsp
  refine h.zlResponse _ fun t r ht => ?_
  extract_lets
  exact .ite (ht.setTag ..) (ht.zlComplete ..)

theorem Safe.zlGetData (h : Safe s) (m) : Safe (s.zlGetData m) := by
  unfold State.zlGetData
  refine h.zlResponse _ fun t r ht => ?_
  extract_lets w
  have hw : Safe w.1 := ht.zlWrite ..
  exact .ite (ht.zlComplete ..)
    (.ite (ht.zlComplete ..) (.ite (ht.zlComplete ..) (.ite ((hw.countArrival ..).zlComplete ..) (hw.zlComplete ..))))

theorem Safe.zlDeliver (h : Safe s) (via m lost) : Safe (s.zlDeliver via m lost) := by
  unfold State.zlDeliver
  split
  · exact h.zlReadReq ..
  · exact h.zlReadReq ..
  · exact h.zlStoreReq ..
  · exact h.zlAtomicReq ..
  · exact h.zlPutReq ..
  · exact h.zlTriggerReq ..
  · exact h.zlOnceRsp ..
  · exact h.zlOnceRsp ..
  · exact h.zlGetData ..
  · exact h.zlAck ..

theorem Safe.zlArrive (h : Safe s) (via f typ lost) : NextSafe (s.zlArrive via f typ lost) := by
  unfold State.zlArrive
  extract_lets _ _ _ _ _ t
  have ht : Safe t := h.same
  exact .onlyIf h (.ite (ht.count ..) (.ite (.ite ht (ht.capture ..)) ((Safe.ite (ht.traceZl ..) ht).zlDeliver ..)))

theorem nextSafe_execZlLoadReq (h : Safe s) (via f) : NextSafe (execZlLoadReq via f s) := h.zlArrive ..

theorem nextSafe_execZlLoadRsp (h : Safe s) (via f) : NextSafe (execZlLoadRsp via f s) := h.zlArrive ..

theorem nextSafe_execZlStore (h : Safe s) (via f lost) : NextSafe (execZlStore via f lost s) := h.zlArrive ..

theorem nextSafe_execZlStoreAck (h : Safe s) (via f) : NextSafe (execZlStoreAck via f s) := h.zlArrive ..

theorem nextSafe_execZlAtomicReq (h : Safe s) (via f) : NextSafe (execZlAtomicReq via f s) := h.zlArrive ..

theorem nextSafe_execZlAtomicRsp (h : Safe s) (via f) : NextSafe (execZlAtomicRsp via f s) := h.zlArrive ..

theorem nextSafe_execZlPutData (h : Safe s) (via f lost) : NextSafe (execZlPutData via f lost s) := h.zlArrive ..

theorem nextSafe_execZlPutAck (h : Safe s) (via f) : NextSafe (execZlPutAck via f s) := h.zlArrive ..

theorem nextSafe_execZlGetReq (h : Safe s) (via f) : NextSafe (execZlGetReq via f s) := h.zlArrive ..

theorem nextSafe_execZlGetData (h : Safe s) (via f) : NextSafe (execZlGetData via f s) := h.zlArrive ..

theorem nextSafe_execZlTrigger (h : Safe s) (via f) : NextSafe (execZlTrigger via f s) := h.zlArrive ..

theorem nextSafe_execZlTrigAck (h : Safe s) (via f) : NextSafe (execZlTrigAck via f s) := h.zlArrive ..

theorem nextSafe_execZlBadType (h : Safe s) (z f) : NextSafe (execZlBadType z f s) := .onlyIf h (h.count ..)

theorem nextSafe_execZlForward (h : Safe s) (z f) : NextSafe (execZlForward z f s) := by
  unfold execZlForward
  extract_lets _ _ _ t
  have ht : Safe t := by
    unfold t
    split
    · exact h.count ..
    · split
      · exact .ite (h.zlSend ..) (h.count ..)
      · exact h.count ..
  exact .onlyIf h ht

theorem nextSafe_execZlLinkCtrlWrite (h : Safe s) (m z v) : NextSafe (execZlLinkCtrlWrite m z v s) := by
  unfold execZlLinkCtrlWrite
  extract_lets _ t t₁
  have ht : Safe t := h.setRegB ..
  have ht₁ : Safe t₁ := .ite (ht.setRegB ..) ht
  exact .agentIf h (.ite (ht₁.linkLost ..) (.ite (ht₁.setLink ..) ht₁))

theorem nextSafe_execLinkTrained (h : Safe s) (z peerModule peerLink delay) :
    NextSafe (execLinkTrained z peerModule peerLink delay s) := by
  unfold execLinkTrained
  extract_lets _ t t₁
  have ht : Safe t := h.setLink ..
  have ht₁ : Safe t₁ := ht.setReg ..
  exact .onlyIf h (.ite (ht₁.linkDown ..) ht₁)

theorem nextSafe_execLinkLoss (h : Safe s) (z) : NextSafe (execLinkLoss z s) := .onlyIf h (h.linkDown ..)

theorem nextSafe_execLinkFlitReplay (h : Safe s) (z ok) : NextSafe (execLinkFlitReplay z ok s) := by
  unfold execLinkFlitReplay
  extract_lets _ t
  have ht : Safe t := h.setRegB ..
  exact .onlyIf h (ht.setLink ..)

theorem nextSafe_execLinkReplayLimit (h : Safe s) (z) : NextSafe (execLinkReplayLimit z s) := .onlyIf h (h.linkDown ..)

theorem nextSafe_execZlTimeFlit (h : Safe s) (z t1 t2 t3 t4) : NextSafe (execZlTimeFlit z t1 t2 t3 t4 s) := .onlyIf h h.same

theorem nextSafe_execZlRequestIssue (h : Safe s) (i cls dst r) : NextSafe (execZlRequestIssue i cls dst r s) :=
  .unlessHalted h (.onlyIf h (h.zlHold ..))

theorem Safe.zlCopy (h : Safe s) (i get cls dst a q len index) : NextSafe (s.zlCopy i get cls dst a q len index) := by
  unfold State.zlCopy
  extract_lets _ _ t
  have ht : Safe t := h.same
  exact .unlessHalted h (.onlyIf h (ht.zlHold ..))

theorem nextSafe_execZlCopyPut (h : Safe s) (i cls dst src q len index) : NextSafe (execZlCopyPut i cls dst src q len index s) :=
  h.zlCopy ..

theorem nextSafe_execZlCopyGet (h : Safe s) (i cls dst dest q len index) :
    NextSafe (execZlCopyGet i cls dst dest q len index s) :=
  h.zlCopy ..

theorem nextSafe_execZlFence (h : Safe s) (i classes) : NextSafe (execZlFence i classes s) :=
  .unlessHalted h (.onlyIf h (h.zlHold ..))

theorem Safe.zlFault (h : Safe s) (t r) : Safe (s.zlFault t r) := by
  unfold State.zlFault
  extract_lets u u₁ u₂
  have hu : Safe u := .ite h ((h.setReg ..).setReg ..)
  have hu₁ : Safe u₁ := (hu.setRegB ..).count ..
  have hu₂ : Safe u₂ := by
    unfold u₂
    split
    · exact hu₁.irqTo ..
    · exact hu₁
  exact hu₂.hiErr ..

theorem nextSafe_execZlRequestTimeout (h : Safe s) (tag) : NextSafe (execZlRequestTimeout tag s) := by
  unfold execZlRequestTimeout
  split
  · exact .next h
  · extract_lets
    split
    · exact .next h
    · extract_lets u
      have hu : Safe u := h.reachRaw ..
      exact .onlyIf h (((hu.zlFault ..).zlFail ..).zlPump)

theorem nextSafe_execZlAtomicRetry (h : Safe s) (tag) : NextSafe (execZlAtomicRetry tag s) := by
  unfold execZlAtomicRetry
  split
  · exact .next h
  · extract_lets
    split
    · exact .next h
    · extract_lets u _ t _ r _ t₁
      have hu : Safe u := h.reachRaw ..
      have ht : Safe t := hu.setTag ..
      have hr : Safe r := ht.setTag ..
      have ht₁ : Safe t₁ := by
        unfold t₁
        split
        · exact .ite (ht.zlSend ..) ht
        · exact hr.same
      exact .onlyIf h ht₁

theorem nextSafe_execZlAtomicFinal (h : Safe s) (tag) : NextSafe (execZlAtomicFinal tag s) := by
  unfold execZlAtomicFinal
  split
  · exact .next h
  · split
    · exact .next h
    · extract_lets u t
      have hu : Safe u := h.reachRaw ..
      have ht : Safe t := .ite (hu.zlFail ..) ((hu.count ..).zlFail ..)
      exact .onlyIf h ht.zlPump

theorem nextSafe_execZlRcExpire (h : Safe s) (z) : NextSafe (execZlRcExpire z s) := by
  unfold execZlRcExpire
  split
  · exact .next h
  · extract_lets u
    have hu : Safe u := h.reachRaw ..
    exact .onlyIf h hu.same

theorem nextSafe_execZlTagRelease (h : Safe s) (tag) : NextSafe (execZlTagRelease tag s) := by
  unfold execZlTagRelease
  split
  · exact .next h
  · extract_lets u
    have hu : Safe u := h.reachRaw ..
    exact .onlyIf h ((hu.setTag ..).zlPump)

theorem nextSafe_execLockFlush (h : Safe s) (i fence) : NextSafe (execLockFlush i fence s) := by
  unfold execLockFlush
  split
  · exact .next h
  · extract_lets _ u
    have hu : Safe u := .ite h (h.reachRaw ..)
    exact .onlyIf h (hu.flushBuf ..)

theorem nextSafe_execZlQtInv (h : Safe s) (m v) : NextSafe (execZlQtInv m v s) := .agentIf h h.same

theorem nextSafe_execZlQtInvDone (h : Safe s) : NextSafe (execZlQtInvDone s) := by
  unfold execZlQtInvDone
  extract_lets
  split
  · exact .next h
  · exact .next h.same

theorem nextSafe_execZlQtSweep (h : Safe s) : NextSafe (execZlQtSweep s) := by
  unfold execZlQtSweep
  extract_lets u
  have hu : Safe u := h.reachRaw ..
  exact .onlyIf h hu.same

theorem nextSafe_execZlEnable (h : Safe s) (m v) : NextSafe (execZlEnable m v s) := by
  unfold execZlEnable
  extract_lets _ t
  have ht : Safe t := .ite (h.setRegB ..) (h.setReg ..)
  exact .agentIf h (.ite ht ht.same)

theorem nextSafe_execZlBusyWindowEnd (h : Safe s) : NextSafe (execZlBusyWindowEnd s) := by
  unfold execZlBusyWindowEnd
  split
  · exact .next h
  · extract_lets u
    have hu : Safe u := h.reachRaw ..
    exact .onlyIf h hu.same

theorem nextSafe_execZlTimeoutWrite (h : Safe s) (m v) : NextSafe (execZlTimeoutWrite m v s) := .agentIf h (h.setReg ..)

/-! ### Sys2Proof/Machine/Egress.lean -/

theorem Safe.fhEnqueue (h : Safe s) (key i) : Safe (s.fhEnqueue key i) := .ite (h.eqPush ..) h.same

theorem Safe.fhStream (h : Safe s) (i kind frame slot sym bytes) : SomeSafe (s.fhStream i kind frame slot sym bytes) := by
  unfold State.fhStream
  split
  · exact .of_none
  · exact .ite (.of_some (h.fhEnqueue ..)) .of_none

theorem nextSafe_execFhTxEnqueue (h : Safe s) (f bytes) : NextSafe (execFhTxEnqueue f bytes s) := by
  unfold execFhTxEnqueue
  extract_lets r
  have hr : SomeSafe r := by
    cases f with
    | ptp q => exact .ite (.of_some (h.fhEnqueue ..)) .of_none
    | uplinkC => exact h.fhStream ..
    | downlinkC => exact h.fhStream ..
    | downlinkU => exact h.fhStream ..
  exact .unlessHalted h (.next (hr.getD h))

theorem nextSafe_execZlTxEnqueue (h : Safe s) (i) : NextSafe (execZlTxEnqueue i s) := by
  unfold execZlTxEnqueue
  extract_lets
  split
  · exact .next h
  · extract_lets
    exact .onlyIf h (h.same.eqPush ..)

theorem nextSafe_execFhTxRelease (h : Safe s) (p q) : NextSafe (execFhTxRelease p q s) := by
  unfold execFhTxRelease
  split
  · exact .next h
  · split
    · exact .next h
    · exact .next (h.reachC ..)

theorem nextSafe_execFhTxDeadline (h : Safe s) (p q i) : NextSafe (execFhTxDeadline p q i s) := by
  unfold execFhTxDeadline
  extract_lets
  split
  · exact .next h
  · split
    · exact .next h
    · extract_lets t
      have ht : Safe t := h.reachC ..
      exact .unlessHalted h (.onlyIf h ((((ht.eqDrop ..).count ..).symbolLost ..).fhAdmit ..))

theorem Safe.zlStart (h : Safe s) (key o) : SomeSafe (s.zlStart key o) := by
  unfold State.zlStart
  split
  · exact .ite .of_none (.of_some (h.setEq ..))
  · extract_lets t
    have ht : Safe t := h.traceZl ..
    refine .ite (.of_some ht) ?_
    split
    · exact .of_some ht
    · exact .of_some (ht.setTag ..)

theorem nextSafe_execEgressSelect (h : Safe s) (e) : NextSafe (execEgressSelect e s) := by
  unfold execEgressSelect
  split
  · exact .next h
  next k ptp _ =>
    extract_lets t _ t' go u
    have ht : Safe t := h.creditUp ..
    have ht' : Safe t' := .ite ht ht.same
    have hgo : Safe go := ht'.setSending ..
    have hu : Safe u := by
      unfold u
      split
      · split
        next v e => exact (hgo.zlStart ..).safe e
        next => exact (h.eqDrop ..).count ..
      · exact hgo
    exact .onlyIf h hu

theorem nextSafe_execEgressTxEnd (h : Safe s) (e) : NextSafe (execEgressTxEnd e s) := by
  unfold execEgressTxEnd
  split
  · exact .next h
  · extract_lets
    split
    · exact .next (h.setSending ..)
    · extract_lets _ t _ _ t₁ _ _ t₂
      have ht : Safe t := h.reachRaw ..
      have ht₁ : Safe t₁ := ((ht.setSending ..).setEq ..).tagHead ..
      have ht₂ : Safe t₂ := by
        unfold t₂
        split
        · exact ht₁.same.fhAdmit ..
        · exact ht₁.same
      exact .onlyIf h ht₂

theorem Safe.addBin (h : Safe s) (a) : Safe (s.addBin a) := h.doAtomic ..

theorem nextSafe_execEgressSample (h : Safe s) (q) : NextSafe (execEgressSample q s) := .onlyIf h ((h.addBin ..).addBin ..)

theorem nextSafe_execEqCfgWrite (h : Safe s) (m q v) : NextSafe (execEqCfgWrite m q v s) := .agentIf h (h.setReg ..)

theorem nextSafe_execEqRateWrite (h : Safe s) (m q v) : NextSafe (execEqRateWrite m q v s) :=
  .agentIf h ((h.creditUp ..).setReg ..)

theorem nextSafe_execEqHicredWrite (h : Safe s) (m q v) : NextSafe (execEqHicredWrite m q v s) := by
  unfold execEqHicredWrite
  extract_lets t
  have ht : Safe t := (h.creditUp ..).setReg ..
  exact .agentIf h (ht.setEq ..)

/-! ### Sys2Proof/Machine/Coding.lean -/

theorem Safe.setDs (h : Safe s) (c x) : Safe (s.setDs c x) := h.same

theorem Safe.dsIrq (h : Safe s) (c) : Safe (s.dsIrq c) := h.irqTo ..

theorem Safe.setHandle (h : Safe s) (h' x) : Safe (s.setHandle h' x) := h.storeNat ..

theorem Safe.emptyHandle (h : Safe s) (h') : Safe (s.emptyHandle h') := h.storeNat ..

theorem Safe.loseHandle (h : Safe s) (h') : Safe (s.loseHandle h') := h.setHandle ..

theorem Safe.harqFetch (h : Safe s) (h') : Safe (s.harqFetch h') := by
  unfold State.harqFetch
  extract_lets _ t
  have ht : Safe t := h.setHandle ..
  split
  · split
    · extract_lets
      exact ht.same
    · exact .ite h h.same
  · exact h

theorem Safe.harqRetry (h : Safe s) : Safe s.harqRetry := foldl_keeps (fun _ _ ht => ht.harqFetch ..) _ h.same

theorem Safe.settleFrees (h : Safe s) : Safe s.settleFrees := (foldl_keeps (fun _ _ ht => ht.emptyHandle ..) _ h.same).harqRetry

theorem Safe.dsComplete (h : Safe s) (c x d) : Safe (s.dsComplete c x d) := by
  unfold State.dsComplete
  extract_lets _ _ _ _ t t₁
  have ht : Safe t := (h.storeNat ..).setDs ..
  have ht₁ : Safe t₁ := (ht.setReg ..).setReg ..
  exact .ite (ht₁.dsIrq ..) ht₁

theorem Safe.dsRemove (h : Safe s) (c i) : Safe (s.dsRemove c i) := (h.setDs ..).settleFrees

theorem Safe.dsEnd (h : Safe s) (c i x d) : Safe (s.dsEnd c i x d) := (h.dsRemove ..).dsComplete ..

theorem Safe.dsReads (h : Safe s) (a n) : Safe (s.dsReads a n) := h.noteReads ..

theorem nextSafe_execDsSqDoorbell (h : Safe s) (m c tail) : NextSafe (execDsSqDoorbell m c tail s) :=
  .agentIf h (.ite ((h.setReg ..).dsIrq ..) (h.setReg ..))

theorem nextSafe_execDsCqHeadWrite (h : Safe s) (m c head) : NextSafe (execDsCqHeadWrite m c head s) :=
  .agentIf h (.ite ((h.setReg ..).dsIrq ..) (h.setReg ..))

theorem nextSafe_execDsJobCopy (h : Safe s) (c) : NextSafe (execDsJobCopy c s) := by
  unfold execDsJobCopy
  extract_lets _ _ _ _ s1 _ _ s2
  have hs1 : Safe s1 := (h.dsReads ..).setDs ..
  have hs2 : Safe s2 := hs1.setDs ..
  exact .unlessHalted h (.onlyIf h (.ite (hs1.dsComplete ..) (.ite (hs1.dsComplete ..) (.ite (hs2.harqFetch ..) hs2))))

theorem Safe.dsJob (h : Safe s) {c i opc x j t} (e : s.dsJob c i opc = some (x, j, t)) : Safe t := by
  unfold State.dsJob at e
  split at e
  · cases e
  · extract_lets y u at e
    have hu : Safe u := .ite h (h.reachNs ..)
    clear_value y u
    split at e
    · cases e
      exact hu
    · cases e

theorem Safe.dsEcc (h : Safe s) (c i x) : Safe (s.dsEcc c i x) := (h.count ..).dsEnd ..

/-- The pair is named by a predicate and the definition unfolded as a function: against the projected pair, or the applied
function, the kernel would evaluate the handle that the definition branches on. -/
theorem keepRecord_of_safe (h : Safe s) (x bufs) {P : State × Bool → Prop} (hP : ∀ t b, Safe t → P (t, b)) :
    P (s.keepRecord x bufs) := by
  generalize hf : @State.keepRecord = f
  delta State.keepRecord at hf
  subst hf
  beta_reduce
  extract_lets sh old n64 reuse s0
  have hs0 : Safe s0 := .ite h (h.emptyHandle ..)
  clear_value reuse s0
  split
  · exact hP _ _ ((hs0.store ..).setHandle ..)
  · exact hP _ _ hs0

theorem Safe.keepRecord (h : Safe s) (x bufs) : Safe (s.keepRecord x bufs).1 :=
  keepRecord_of_safe h x bufs (P := fun p => Safe p.1) fun _ _ ht => ht

theorem Safe.usedHandle (h : Safe s) (h') : Safe (s.usedHandle h') := .ite h (h.setHandle ..)

theorem nextSafe_execDsLdpcDec (h : Safe s) (c i) : NextSafe (execDsLdpcDec c i s) := by
  unfold execDsLdpcDec
  refine .unlessHalted h ?_
  split
  · exact .next h
  next t e =>
    have ht : Safe t := h.dsJob e
    extract_lets _ _ _ _ _ _ _ t₁ t₂ t₃ _ _ _ _ _ _ _ t₄ kept _ t₅ t₆
    have ht₁ : Safe t₁ := ht.dsReads ..
    have ht₂ : Safe t₂ := .ite (ht₁.dsReads ..) ht₁
    have ht₃ : Safe t₃ := .ite ((ht₂.count ..).loseHandle ..) ht₂
    have ht₄ : Safe t₄ := ht₃.store ..
    have hkept : Safe kept.1 := by
      unfold kept
      split
      · exact ht₄.keepRecord ..
      · exact .ite (ht₄.emptyHandle ..) ht₄
    have ht₅ : Safe t₅ := hkept.usedHandle ..
    have ht₆ : Safe t₆ := .ite (ht₅.count ..) ht₅
    exact .ite (.next h) (.ite (.next (ht₁.dsEcc ..)) (.next (ht₆.dsEnd ..)))

theorem nextSafe_execDsLdpcEnc (h : Safe s) (c i) : NextSafe (execDsLdpcEnc c i s) := by
  unfold execDsLdpcEnc
  refine .unlessHalted h ?_
  split
  · exact .next h
  next t e =>
    have ht : Safe t := h.dsJob e
    extract_lets _ t₁
    have ht₁ : Safe t₁ := ht.dsReads ..
    exact .ite (.next (ht₁.dsEcc ..)) (.next ((ht₁.store ..).dsEnd ..))

theorem nextSafe_execDsPolarDec (h : Safe s) (c i) : NextSafe (execDsPolarDec c i s) := by
  unfold execDsPolarDec
  refine .unlessHalted h ?_
  split
  · exact .next h
  next t e =>
    have ht : Safe t := h.dsJob e
    extract_lets _ t₁
    have ht₁ : Safe t₁ := ht.dsReads ..
    exact .ite (.next (ht₁.dsEcc ..)) (.next ((ht₁.store ..).dsEnd ..))

theorem nextSafe_execDsPolarEnc (h : Safe s) (c i) : NextSafe (execDsPolarEnc c i s) := by
  unfold execDsPolarEnc
  refine .unlessHalted h ?_
  split
  · exact .next h
  next t e =>
    have ht : Safe t := h.dsJob e
    extract_lets _ t₁
    have ht₁ : Safe t₁ := ht.dsReads ..
    exact .ite (.next (ht₁.dsEcc ..)) (.next ((ht₁.store ..).dsEnd ..))

theorem nextSafe_execDsTbEnc (h : Safe s) (c i) : NextSafe (execDsTbEnc c i s) := by
  unfold execDsTbEnc
  refine .unlessHalted h ?_
  split
  · exact .next h
  next t e =>
    have ht : Safe t := h.dsJob e
    extract_lets _ t₁ _ _ _ _ t₂ t₃
    have ht₁ : Safe t₁ := ht.dsReads ..
    have ht₂ : Safe t₂ := ht₁.store ..
    have ht₃ : Safe t₃ := .ite (ht₂.count ..) ht₂
    exact .ite (.next (ht₁.dsEcc ..)) (.next (ht₃.dsEnd ..))

theorem nextSafe_execDsTbDec (h : Safe s) (c i) : NextSafe (execDsTbDec c i s) := by
  unfold execDsTbDec
  refine .unlessHalted h ?_
  split
  · exact .next h
  next t e =>
    have ht : Safe t := h.dsJob e
    extract_lets _ t₁
    have ht₁ : Safe t₁ := ht.dsReads ..
    exact .ite (.next (ht₁.dsEcc ..)) (.next ((ht₁.store ..).dsEnd ..))

theorem Safe.notDecoded (h : Safe s) (cell slot) : Safe (s.notDecoded cell slot) := by
  unfold State.notDecoded
  extract_lets t
  have ht : Safe t := h.count ..
  exact ht.same

theorem nextSafe_execDsNselRead (h : Safe s) (c i) : NextSafe (execDsNselRead c i s) := by
  unfold execDsNselRead
  extract_lets
  refine .unlessHalted h ?_
  split
  · exact .next h
  · extract_lets _ t _ _ _ _ _ _ _ _ u
    have ht : Safe t := h.reachNs ..
    have hu : Safe u := ((ht.dsReads ..).setDs ..).count ..
    exact .onlyIf h (.ite (hu.notDecoded ..) hu)

theorem nextSafe_execDsJobLate (h : Safe s) (c i) : NextSafe (execDsJobLate c i s) := by
  unfold execDsJobLate
  refine .unlessHalted h ?_
  split
  · exact .next h
  · extract_lets _ t
    have ht : Safe t := h.reachNs ..
    exact .onlyIf h ((ht.count ..).dsEnd ..)

theorem nextSafe_execDsCtrlAbort (h : Safe s) (m c v) : NextSafe (execDsCtrlAbort m c v s) := by
  unfold execDsCtrlAbort
  extract_lets t
  have ht : Safe t := h.setReg ..
  exact .agentIf h (foldl_keeps (fun t₁ x ht₁ => by
      extract_lets
      exact .ite ht₁ ((Safe.ite (ht₁.loseHandle ..) ht₁).dsEnd ..)) _ ht)

theorem nextSafe_execDsCtrlEnable (h : Safe s) (m c v) : NextSafe (execDsCtrlEnable m c v s) := .agentIf h (h.setReg ..)

theorem nextSafe_execDsHarqFree (h : Safe s) (m h') : NextSafe (execDsHarqFree m h' s) := .agentIf h h.same.settleFrees

theorem nextSafe_execDsHarqPrefetch (h : Safe s) (m h') : NextSafe (execDsHarqPrefetch m h' s) := .agentIf h (h.harqFetch ..)

theorem nextSafe_execHarqSpill (h : Safe s) : NextSafe (execHarqSpill s) := by
  unfold execHarqSpill
  refine .unlessHalted h ?_
  split
  · exact .next h
  · extract_lets _ t
    have ht : Safe t := h.setHandle ..
    split
    · exact .next h
    · extract_lets
      exact .onlyIf h ht.same

theorem nextSafe_execHarqSpillDone (h : Safe s) (h') : NextSafe (execHarqSpillDone h' s) := by
  unfold execHarqSpillDone
  extract_lets
  refine .unlessHalted h ?_
  split
  · exact .next h
  · extract_lets _ t u
    have ht : Safe t := h.same
    have hu : Safe u := .ite ht (.ite ((ht.dsReads ..).loseHandle ..) (((ht.dsReads ..).store ..).setHandle ..))
    exact .next hu.settleFrees

theorem nextSafe_execFhPlanActivate (h : Safe s) : NextSafe (execFhPlanActivate s) := by
  unfold execFhPlanActivate
  extract_lets before done
  have hdone (due f) (hf : ∀ t, Safe t → Safe (f t)) : NextSafe (done due f) :=
    .onlyIf h (hf _ (h.reachNs ..)).same.settleFrees
  have hact (p) : NextSafe (done p.tAct fun t => t.activatePlan p) := hdone _ _ fun _ ht => ht.activatePlan ..
  have hend (d) : NextSafe (done d State.endPlan) := hdone _ _ fun _ ht => ht.endPlan
  refine .unlessHalted h ?_
  split
  · exact .ite (hend _) (hact _)
  · exact hact _
  · exact hend _
  · exact .next h

/-! ### Sys2Proof/Machine/Serving.lean -/

theorem Safe.takeCmd (h : Safe s) (f sq e) : Safe (s.takeCmd f sq e) := by
  unfold State.takeCmd
  extract_lets
  split
  · exact .ite h.same h
  · exact h

theorem Safe.refuse (h : Safe s) (f e rid status) : Safe (s.refuse f e rid status) := by
  unfold State.refuse
  extract_lets s₁
  have hs₁ : Safe s₁ := .ite ((h.count ..).fnCount ..) h
  exact hs₁.postCq ..

theorem Safe.ack (h : Safe s) (f e) : Safe (s.ack f e) := h.postCq ..

theorem Safe.allocMan (h : Safe s) : Safe s.allocMan := .ite h.same h.same

theorem nextSafe_execSubmit (h : Safe s) (f sq entry) : NextSafe (execSubmit f sq entry s) := by
  unfold execSubmit
  extract_lets _ t _ _ t₁
  have ht : Safe t := h.takeCmd ..
  have ht₁ : Safe t₁ := .ite ht (ht.drew ..)
  refine .unlessHalted h ?_
  refine .onlyIf h ?_
  split
  · exact ht.refuse ..
  · exact ht.refuse ..
  · extract_lets _ u
    have hu : Safe u := (ht₁.allocMan.setMan ..).postEvent ..
    exact .ite hu ((hu.count ..).endRequest ..)

theorem Safe.requestCmd (h : Safe s) (opc f sq entry) {act : SubEntry → Nat → Manifest → State → State}
    (hact : ∀ e i m t, Safe t → Safe (act e i m t)) : NextSafe (s.requestCmd opc f sq entry act) := by
  unfold State.requestCmd
  extract_lets e t
  have ht : Safe t := h.takeCmd ..
  refine .unlessHalted h (.onlyIf h (.ite (ht.refuse ..) ?_))
  split
  · exact ht.refuse ..
  · exact hact _ _ _ _ ht

theorem nextSafe_execPause (h : Safe s) (f sq entry) : NextSafe (execPause f sq entry s) := by
  unfold execPause
  refine h.requestCmd _ _ _ _ fun e i m t ht => ?_
  split
  · exact ht.refuse ..
  · split
    · exact (ht.setMan ..).ack ..
    · exact (ht.setMan ..).ack ..
    · exact (ht.setMan ..).ack ..
    · exact (ht.ack ..).pauseBegin ..
    · exact (ht.setMan ..).ack ..
    · exact ht.refuse ..

theorem Safe.doResume (h : Safe s) (i entry) : Safe (s.doResume i entry) := by
  unfold State.doResume
  extract_lets _ t
  have ht : Safe t := h.postEvent ..
  exact .ite (((ht.setMan ..).bindDumps ..).makeReady ..) (ht.setMan ..)

theorem nextSafe_execResume (h : Safe s) (f sq entry) : NextSafe (execResume f sq entry s) := by
  unfold execResume
  refine h.requestCmd _ _ _ _ fun e i m t ht => ?_
  dsimp only
  split
  · exact ht.refuse ..
  · exact .ite ((ht.setMan ..).ack ..) (((ht.setMan ..).ack ..).doResume ..)

theorem nextSafe_execCancel (h : Safe s) (f sq entry) : NextSafe (execCancel f sq entry s) := by
  unfold execCancel
  refine h.requestCmd _ _ _ _ fun e i m t ht => ?_
  split
  · exact .ite (ht.refuse ..) ((ht.setMan ..).ack ..)
  · exact (ht.ack ..).endRequest ..
  · exact (ht.ack ..).endRequest ..
  · exact (ht.ack ..).endRequest ..
  · exact (ht.ack ..).endRequest ..
  · exact (ht.ack ..).endRequest ..
  · exact (ht.ack ..).endRequest ..
  · exact ht.refuse ..

theorem nextSafe_execTouch (h : Safe s) (f sq entry) : NextSafe (execTouch f sq entry s) := by
  unfold execTouch
  refine h.requestCmd _ _ _ _ fun e i m t ht => ?_
  extract_lets
  split
  · exact ht.refuse ..
  · split
    · exact (ht.setMan ..).ack ..
    · exact .ite (ht.refuse ..) ((ht.setMan ..).ack ..)
    · exact ht.refuse ..

theorem nextSafe_execSqBadOpcode (h : Safe s) (f sq entry) : NextSafe (execSqBadOpcode f sq entry s) := by
  unfold execSqBadOpcode
  extract_lets _ t
  have ht : Safe t := h.takeCmd ..
  exact .unlessHalted h (.onlyIf h ((ht.drew ..).refuse ..))

theorem Safe.promptRead (h : Safe s) (i e) : Safe (s.promptRead i e) := by
  unfold State.promptRead
  extract_lets
  split
  next t e₁ =>
    have ht : Safe t := (h.tenantRead ..).of_fst e₁
    exact ht.endRequest ..
  next t _ e₁ =>
    have ht : Safe t := (h.tenantRead ..).of_fst e₁
    split
    next t₁ e₂ =>
      have ht₁ : Safe t₁ := (ht.tenantRead ..).of_fst e₂
      exact ht₁.endRequest ..
    next t₁ _ e₂ =>
      have ht₁ : Safe t₁ := (ht.tenantRead ..).of_fst e₂
      extract_lets
      split
      · exact ht₁.endRequest ..
      · extract_lets
        split
        · exact ht₁.endRequest ..
        · split
          · exact (ht₁.setMan ..).bindDumps ..
          · split
            · exact (ht₁.setMan ..).bindDumps ..
            · split
              next t₂ e₃ =>
                have ht₂ : Safe t₂ := (ht₁.tenantRead ..).of_fst e₃
                exact ht₂.endRequest ..
              next t₂ _ e₃ =>
                have ht₂ : Safe t₂ := (ht₁.tenantRead ..).of_fst e₃
                split
                · exact ht₂.endRequest ..
                · exact (ht₂.setMan ..).bindDumps ..

theorem Safe.appendRead (h : Safe s) (i e) : Safe (s.appendRead i e) := by
  unfold State.appendRead
  extract_lets
  split
  next t e₁ =>
    have ht : Safe t := (h.tenantRead ..).of_fst e₁
    exact ht.endRequest ..
  next t _ e₁ =>
    have ht : Safe t := (h.tenantRead ..).of_fst e₁
    extract_lets
    split
    · exact ht.endRequest ..
    · exact (ht.setMan ..).bindDumps ..

theorem nextSafe_execPromptReadDone (h : Safe s) (i) : NextSafe (execPromptReadDone i s) :=
  .unlessHalted h (.onlyIf h (.ite (h.promptRead ..) (h.appendRead ..)))

theorem Safe.contextFor (h : Safe s) (d vf slot) : Safe (s.contextFor d vf slot).1 := by
  unfold State.contextFor
  split
  · exact h
  · split
    · exact h
    · exact h.evict ..

theorem Safe.addBerths (h : Safe s) (i fs) : Safe (s.addBerths i fs).1 := by
  induction fs generalizing s with
  | nil => exact h
  | cons p fs ih =>
    unfold State.addBerths
    split
    next u e => exact ih ((h.addBerth ..).of_fst e)
    next u e => exact (h.addBerth ..).of_fst e

theorem Safe.growPrefill (h : Safe s) (i n) : Safe (s.growPrefill i n) := by
  unfold State.growPrefill
  extract_lets
  split
  · exact h
  · split
    · exact h.waitOnce ..
    · split
      next u e =>
        have hu : Safe u := (h.addBerths ..).of_fst e
        exact hu.modMan ..
      next u e =>
        have hu : Safe u := (h.addBerths ..).of_fst e
        exact hu.btHold ..

theorem Safe.placePrefill (h : Safe s) (i n got) : Safe (s.placePrefill i n got) := by
  unfold State.placePrefill
  extract_lets m r part sram rest
  clear_value part sram
  refine .ite (h.waitOnce ..) ?_
  split
  next v e => exact (h.contextFor ..).of_fst e
  next v e =>
    have hv : Safe v := (h.contextFor ..).of_fst e
    extract_lets t
    have ht : Safe t := by
      unfold t
      split
      · exact (hv.copyBerth ..).setBerth ..
      · exact hv
    split
    · exact h.btHold ..
    next u e => exact (((ht.addBerths ..).of_fst e).modMan ..).same

theorem nextSafe_execPrefillPlace (h : Safe s) (i peer) : NextSafe (execPrefillPlace i peer s) := by
  unfold execPrefillPlace
  extract_lets
  refine .unlessHalted h ?_
  split
  · refine .onlyIf h ?_
    split
    · exact h.waitOnce ..
    · exact (h.modMan ..).placePrefill ..
  · exact .onlyIf h (h.growPrefill ..)

theorem Safe.firstToken (h : Safe s) (i logits dumps) : Safe (s.firstToken i logits dumps) := by
  unfold State.firstToken
  extract_lets _ u
  have hu : Safe u := .ite h h.countSel
  split
  · exact (h.noToken ..).endRequest ..
  · extract_lets u₁
    have hu₁ : Safe u₁ := ((hu.acceptToken ..).emitTokens ..).dueDumps ..
    split
    · exact hu₁.turnEnds ..
    · exact .ite (hu₁.pauseBegin ..) (hu₁.makeReady ..)

theorem Safe.arrival (h : Safe s) (rid) {act : Nat → Manifest → State} (hact : ∀ i m, Safe (act i m)) :
    Safe (s.arrival rid act) := .ite (hact ..) (h.count ..)

theorem nextSafe_execPrefillDone (h : Safe s) (rid logits dumps) : NextSafe (execPrefillDone rid logits dumps s) := by
  unfold execPrefillDone
  refine .unlessHalted h ?_
  refine .next ?_
  refine h.arrival _ fun i m => ?_
  extract_lets t t₁
  have ht : Safe t := ((h.setWritten ..).modMan ..).fnCount ..
  have ht₁ : Safe t₁ := (ht.prefillOver ..).issueMirror ..
  exact .ite h (.ite (h.endRequest ..) (.ite h (ht₁.firstToken ..)))

theorem Safe.afterStep (h : Safe s) (dumps i) : Safe (s.afterStep dumps i) := by
  unfold State.afterStep
  extract_lets t _ u
  have ht : Safe t := (h.modMan ..).dueDumps ..
  have hu : Safe u := .ite (ht.growBerth ..) ht
  split
  · exact ht.endRequest ..
  · exact ht.reclaim ..
  · exact ht.endRequest ..
  · exact ht.endRequest ..
  · exact .ite (ht.pauseBegin ..) (ht.pauseBegin ..)
  · exact ht.pauseBegin ..
  · exact .ite (ht.pauseBegin ..) (ht.endRequest ..)
  · exact hu.setWritten ..

theorem Safe.rejoin (h : Safe s) (i) : Safe (s.rejoin i) := by
  unfold State.rejoin
  extract_lets _ t g t₁
  have ht : Safe t := h.takeSpare ..
  have hg : Safe g.1 := by
    unfold g
    split
    · exact ht.growBerth ..
    · exact ht
  have ht₁ : Safe t₁ := .ite (hg.takeSpare ..) hg
  exact .ite (h.setMan ..) (.ite ((ht₁.btHold ..).modMan ..) (.ite ((ht₁.waitOnce ..).modMan ..) (ht₁.modMan ..)))

theorem Safe.joinBatch (h : Safe s) (i) : Safe (s.joinBatch i) := by
  unfold State.joinBatch
  extract_lets _ _ _ t
  have ht : Safe t := h.setMan ..
  exact .ite h (.ite (h.waitOnce ..) (.ite ((ht.growBerth ..).rejoin ..) ht))

theorem Safe.sitOut (h : Safe s) (slot) : Safe (s.sitOut slot) := foldl_keeps (fun _ _ ht => .ite (ht.fnCount ..) ht) _ h

theorem Safe.formBatch (h : Safe s) (slot) : Safe (s.formBatch slot) := by
  unfold State.formBatch
  extract_lets _ t t₁ u
  have ht : Safe t := foldl_keeps (fun _ _ ht₂ => ht₂.rejoin ..) _ h
  have ht₁ : Safe t₁ := foldl_keeps (fun _ _ ht₂ => ht₂.joinBatch ..) _ ht
  have hu : Safe u := .ite ht₁ (ht₁.sitOut ..)
  exact hu.same

theorem Safe.nextBatch (h : Safe s) (ks) : Safe (s.nextBatch ks) := by
  induction ks generalizing s with
  | nil => exact h.same
  | cons k ks ih => exact .ite (ih (h.formBatch ..)) (h.formBatch ..)

theorem Safe.chargeStep (h : Safe s) (is_) : Safe (s.chargeStep is_) := foldl_keeps (fun _ _ ht => ht.charge ..) _ h.settle

theorem Safe.checkpointAll (h : Safe s) : Safe s.checkpointAll := by
  unfold State.checkpointAll
  extract_lets _ t
  have ht : Safe t := foldl_keeps (fun _ _ ht₁ => ht₁.takeCkpt ..) _ h
  exact .ite h.same (.ite h ht.same)

theorem Safe.endStep (h : Safe s) (dumps) : Safe (s.endStep dumps) := by
  unfold State.endStep
  extract_lets _ u _ u₁ u₂ u₃
  have hu : Safe u := h.chargeStep ..
  have hu₁ : Safe u₁ := hu.same
  have hu₂ : Safe u₂ := hu₁.trace ..
  have hu₃ : Safe u₃ := .ite (foldl_keeps (fun _ _ ht => ht.modMan ..) _ hu₂) hu₂
  exact (foldl_keeps (fun _ _ ht => ht.afterStep ..) _ hu₃).checkpointAll

theorem Safe.leaveIdle (h : Safe s) (dumps) : Safe (s.leaveIdle dumps) := foldl_keeps (fun _ _ ht => ht.afterStep ..) _ h

theorem Safe.formNext (h : Safe s) : Safe s.formNext := by
  unfold State.formNext
  extract_lets _ t t₁
  have ht : Safe t := h.same
  have ht₁ : Safe t₁ := foldl_keeps (fun _ _ ht₂ => ht₂.modMan ..) _ ht
  exact .ite ht₁.same (ht₁.nextBatch ..)

theorem nextSafe_execDecodeStepBoundary (h : Safe s) (dumps) : NextSafe (execDecodeStepBoundary dumps s) :=
  .unlessHalted h (.onlyIf h (((Safe.ite (h.endStep ..) h).leaveIdle ..).formNext))

theorem Safe.startStep (h : Safe s) (i) : Safe (s.startStep i) := by
  unfold State.startStep
  extract_lets _ _ t
  have ht : Safe t := .ite h (h.setMan ..)
  exact ht.issueMirror ..

theorem nextSafe_execDecodeStepStart (h : Safe s) : NextSafe (execDecodeStepStart s) := by
  unfold execDecodeStepStart
  extract_lets t
  have ht : Safe t := foldl_keeps (fun _ _ ht₁ => ht₁.startStep ..) _ h
  exact .unlessHalted h (.onlyIf h ht.same)

theorem Safe.berthLands (h : Safe s) (i j t f) : Safe (s.berthLands i j t f) := by
  unfold State.berthLands
  extract_lets
  split
  · exact h
  · extract_lets _ _ _ u
    have hu : Safe u := h.setBerth ..
    exact hu.modMan ..

theorem nextSafe_execBerthSliceArrive (h : Safe s) (rid berth slice layer data) :
    NextSafe (execBerthSliceArrive rid berth slice layer data s) := by
  unfold execBerthSliceArrive
  extract_lets
  refine .unlessHalted h ?_
  refine .next ?_
  refine h.arrival _ fun i m => ?_
  extract_lets
  split
  · extract_lets _ _ t t₁ u
    have ht : Safe t := h.sliceStore ..
    have ht₁ : Safe t₁ := ht.modMan ..
    have hu : Safe u := ht₁.berthLands ..
    exact .ite h (.ite (h.setMan ..) (.ite ht₁ (.ite (ht₁.setBerth ..) (.ite (hu.pauseLanded ..) hu))))
  · exact h

theorem nextSafe_execPullSourceError (h : Safe s) (rid peer) : NextSafe (execPullSourceError rid peer s) := by
  unfold execPullSourceError
  refine .unlessHalted h ?_
  refine .next ?_
  refine h.arrival _ fun i m => ?_
  exact .ite (h.setMan ..) h

theorem nextSafe_execMirrorCopyDone (h : Safe s) (rid berth) : NextSafe (execMirrorCopyDone rid berth s) := by
  unfold execMirrorCopyDone
  refine .unlessHalted h ?_
  refine .next ?_
  refine h.arrival _ fun i m => ?_
  extract_lets
  split
  · extract_lets _ t t₁
    have ht : Safe t := h.setMan ..
    have ht₁ : Safe t₁ := .ite ht ((ht.putPeer ..).setBerth ..)
    exact ht₁.sendRecord ..
  · exact h

theorem nextSafe_execCheckpointCommit (h : Safe s) (rid) : NextSafe (execCheckpointCommit rid s) := by
  unfold execCheckpointCommit
  refine .unlessHalted h ?_
  refine .next ?_
  refine h.arrival _ fun i m => ?_
  split
  · exact .ite (h.setMan ..) h
  · exact h

theorem nextSafe_execCheckpointFail (h : Safe s) (rid) : NextSafe (execCheckpointFail rid s) := by
  unfold execCheckpointFail
  refine .unlessHalted h ?_
  refine .next ?_
  refine h.arrival _ fun i m => ?_
  exact .ite ((h.setMan ..).count ..) h

theorem nextSafe_execPauseComplete (h : Safe s) (i) : NextSafe (execPauseComplete i s) := by
  unfold execPauseComplete
  extract_lets _ t t₁
  have ht : Safe t := (h.writeProv ..).postEvent ..
  have ht₁ : Safe t₁ := ht.modMan ..
  exact .unlessHalted h (.onlyIf h (.ite (ht₁.doResume ..) ht₁))

theorem nextSafe_execExpirySweep (h : Safe s) : NextSafe (execExpirySweep s) := by
  unfold execExpirySweep
  extract_lets t
  have ht : Safe t := h.reachNs ..
  exact .unlessHalted h (.next (foldl_keeps (fun _ _ ht₁ => ht₁.endRequest ..) _ ht))

theorem nextSafe_execManifestQuietEnd (h : Safe s) (i) : NextSafe (execManifestQuietEnd i s) := by
  unfold execManifestQuietEnd
  extract_lets _ t u
  have ht : Safe t := h.reachRaw ..
  have hu : Safe u := ht.setMan ..
  exact .unlessHalted h (.onlyIf h hu.same)

theorem nextSafe_execBtRebuildStart (h : Safe s) : NextSafe (execBtRebuildStart s) := .unlessHalted h (.onlyIf h h.btStart)

theorem nextSafe_execHmBtStart (h : Safe s) (m) : NextSafe (execHmBtStart m s) := .agentIf h h.btStart

theorem Safe.writeShadow (h : Safe s) : Safe s.writeShadow := by
  unfold State.writeShadow
  extract_lets _ t
  have ht : Safe t := h.clearMem ..
  exact foldl_keeps (fun _ _ ht₁ => ht₁.store ..) _ ht

theorem nextSafe_execBtRebuildPassEnd (h : Safe s) : NextSafe (execBtRebuildPassEnd s) := by
  unfold execBtRebuildPassEnd
  extract_lets t
  have ht : Safe t := h.writeShadow
  split
  · exact .next h
  · exact .unlessHalted h (.next ht.same)

theorem nextSafe_execBtFlip (h : Safe s) : NextSafe (execBtFlip s) := by
  unfold execBtFlip
  extract_lets _ _ t t₁
  have ht : Safe t := h.same
  have ht₁ : Safe t₁ := foldl_keeps (fun _ _ ht₂ => ht₂.modMan ..) _ ht
  exact .unlessHalted h (.onlyIf h ht₁)

theorem nextSafe_execBtRebuildRestart (h : Safe s) : NextSafe (execBtRebuildRestart s) := .unlessHalted h (.onlyIf h h.same)

theorem Safe.setSlot (h : Safe s) (k r) : Safe (s.setSlot k r) := h.same

theorem Safe.slotError (h : Safe s) (k code) : Safe (s.slotError k code) := h.same

theorem nextSafe_execHmSlotLoad (h : Safe s) (m k) : NextSafe (execHmSlotLoad m k s) := by
  unfold execHmSlotLoad
  extract_lets
  refine .agentIf h ?_
  split
  · exact (h.slotError ..).mgmtEvent
  · split
    · exact (h.slotError ..).setSlot ..
    · exact (h.slotError ..).mgmtEvent

theorem nextSafe_execSlotLoadDone (h : Safe s) (k r) : NextSafe (execSlotLoadDone k r s) := by
  unfold execSlotLoadDone
  extract_lets _ _ _ _ t
  have ht : Safe t := foldl_keeps (fun _ _ ht₁ => ht₁.store ..) _ h
  refine .unlessHalted h ?_
  refine .onlyIf h ?_
  split
  · exact ((h.setSlot ..).slotError ..).mgmtEvent
  · split
    · exact ((h.setSlot ..).slotError ..).mgmtEvent
    · exact ((ht.setSlot ..).slotError ..).mgmtEvent

theorem nextSafe_execHmSlotUnload (h : Safe s) (m k) : NextSafe (execHmSlotUnload m k s) :=
  .agentIf h (.ite ((h.setSlot ..).slotError ..) ((h.slotError ..).mgmtEvent))

theorem Safe.unloadAll (h : Safe s) (k) : Safe (s.unloadAll k) := foldl_keeps (fun t x ht => by
    extract_lets
    exact .ite (ht.setMan ..) (ht.endRequest ..)) _ h

theorem nextSafe_execHmSlotUnloadForce (h : Safe s) (m k) : NextSafe (execHmSlotUnloadForce m k s) := by
  unfold execHmSlotUnloadForce
  extract_lets _ t
  have ht : Safe t := (h.setSlot ..).unloadAll ..
  exact .agentIf h (.ite ((Safe.ite ht ((ht.setSlot ..).mgmtEvent)).slotError ..) ((h.slotError ..).mgmtEvent))

theorem nextSafe_execSlotDrainDone (h : Safe s) (k) : NextSafe (execSlotDrainDone k s) :=
  .unlessHalted h (.onlyIf h ((h.setSlot ..).mgmtEvent))

theorem nextSafe_execHmCkptWrite (h : Safe s) (m v) : NextSafe (execHmCkptWrite m v s) := .agentIf h (h.setReg ..)

theorem nextSafe_execHmQuietWrite (h : Safe s) (m v) : NextSafe (execHmQuietWrite m v s) := .agentIf h (h.setReg ..)

/-! ### Sys2Proof/Machine/HostReset.lean -/

theorem Safe.endQuietly (h : Safe s) (p) : Safe (s.endQuietly p) :=
  foldl_keeps (fun _ _ ht => .ite (ht.modMan ..) ((ht.modMan ..).reclaim ..)) _ h

theorem Safe.dropContexts (h : Safe s) (p) : Safe (s.dropContexts p) := by
  unfold State.dropContexts
  extract_lets s₁ _ t
  have hs₁ : Safe s₁ := foldl_keeps (fun _ _ ht₁ => ht₁.abortCtx ..) _ h
  have ht : Safe t := hs₁.same
  exact foldl_keeps (fun _ _ ht₁ => ht₁.serveWait ..) _ ht

theorem Safe.flrFns (h : Safe s) (p) : Safe (s.flrFns p) := by
  unfold State.flrFns
  extract_lets _ s₁ s₂ s₃ s₄
  have hs₄ : Safe s₄ := ((Safe.endQuietly h.same p).dropContexts p).dropCached ..
  clear_value s₄
  obtain ⟨hmem, hhost, hregs, hes, hdl, hisl⟩ := hs₄
  exact ⟨hmem, hhost, tsorted_filter _ hregs, hes, hdl, hisl⟩

theorem Safe.flrVfs (h : Safe s) (p) : Safe (s.flrVfs p) := by
  unfold State.flrVfs
  extract_lets t
  have ht : Safe t := h.flrFns ..
  exact ht.same

theorem Safe.hiReset (h : Safe s) : Safe s.hiReset := by
  unfold State.hiReset
  extract_lets t t₁ t₂
  have ht : Safe t := (h.flrVfs ..).flrFns ..
  have ht₁ : Safe t₁ := (ht.resetRegs ..).resetRegs ..
  have ht₂ : Safe t₂ := ht₁.dropCached ..
  exact ht₂.same

theorem nextSafe_execVfFlr (h : Safe s) (v) : NextSafe (execVfFlr v s) := .onlyIf h (h.flrVfs ..)

theorem nextSafe_execVfEnableClear (h : Safe s) : NextSafe (execVfEnableClear s) := by
  unfold execVfEnableClear
  extract_lets t
  have ht : Safe t := h.flrVfs ..
  exact .onlyIf h ht.same

theorem nextSafe_execVfFlrComplete (h : Safe s) (v) : NextSafe (execVfFlrComplete v s) := by
  unfold execVfFlrComplete
  extract_lets t
  have ht : Safe t := h.reachRaw ..
  exact .onlyIf h ht.same

theorem nextSafe_execVfEnableSet (h : Safe s) : NextSafe (execVfEnableSet s) := .onlyIf h h.same

theorem nextSafe_execPfFlr (h : Safe s) : NextSafe (execPfFlr s) := .onlyIf h h.hiReset

theorem Safe.linkLow (h : Safe s) : Safe s.linkLow := h.same

theorem nextSafe_execPcieLinkDown (h : Safe s) : NextSafe (execPcieLinkDown s) := .onlyIf h h.hiReset.linkLow

theorem nextSafe_execPerstAssert (h : Safe s) : NextSafe (execPerstAssert s) := by
  unfold execPerstAssert
  extract_lets t
  have ht : Safe t := h.hiReset.linkLow
  exact .onlyIf h ht.same

theorem nextSafe_execPerstDeassert (h : Safe s) : NextSafe (execPerstDeassert s) := .next h.same

theorem nextSafe_execPcieLinkTrained (h : Safe s) (x16 gt64 flit) : NextSafe (execPcieLinkTrained x16 gt64 flit s) :=
  .onlyIf h h.same

theorem nextSafe_execPciPmStateWrite (h : Safe s) (f d3) : NextSafe (execPciPmStateWrite f d3 s) := .onlyIf h h.same

theorem Safe.barAnswer (h : Safe s) (data status) : Safe (s.barAnswer data status) := h.same

theorem nextSafe_execBar0BadAccess (h : Safe s) (f write) : NextSafe (execBar0BadAccess f write s) := by
  unfold execBar0BadAccess
  extract_lets t
  have ht : Safe t := .ite (h.count ..) h
  exact .onlyIf h (.ite ht (ht.barAnswer ..))

theorem nextSafe_execBar2Read (h : Safe s) (o n) : NextSafe (execBar2Read o n s) := by
  unfold execBar2Read
  extract_lets _ _ t
  have ht : Safe t := .ite (.ite ((h.noteReads ..).barAnswer ..) (h.barAnswer ..)) (h.barAnswer ..)
  exact .onlyIf h ht

theorem nextSafe_execBar2Write (h : Safe s) (o data lost) : NextSafe (execBar2Write o data lost s) := by
  unfold execBar2Write
  extract_lets _ _ t
  have ht : Safe t := .ite (h.count ..) (h.storeLost ..)
  exact .onlyIf h ht

theorem nextSafe_execFatalError (h : Safe s) (cause die) : NextSafe (execFatalError cause die s) := .onlyIf h (h.raiseFatal ..)

theorem nextSafe_execBridgeDown (h : Safe s) (p) : NextSafe (execBridgeDown p s) := .next (h.same.raiseFatal ..)

/-! ### Sys2Proof/Machine/Select.lean -/

theorem Safe.stepSelect (h : Safe s) (i logits) : Safe (s.stepSelect i logits) := by
  unfold State.stepSelect
  extract_lets _ t
  have ht : Safe t := .ite h h.countSel
  split
  · exact (h.noToken ..).modMan ..
  · exact ((ht.acceptToken ..).emitTokens ..).modMan ..

theorem nextSafe_execRakeSelect (h : Safe s) (rid logits) : NextSafe (execRakeSelect rid logits s) := by
  unfold execRakeSelect
  refine .unlessHalted h ?_
  refine .next ?_
  refine h.arrival _ fun i m => ?_
  exact .ite (h.stepSelect ..) h

theorem nextSafe_execSieveSelect (h : Safe s) (rid logits) : NextSafe (execSieveSelect rid logits s) := by
  unfold execSieveSelect
  refine .unlessHalted h ?_
  refine .next ?_
  refine h.arrival _ fun i m => ?_
  exact .ite (h.stepSelect ..) h

theorem nextSafe_execSpecDraft (h : Safe s) (rid logits) : NextSafe (execSpecDraft rid logits s) := by
  unfold execSpecDraft
  refine .unlessHalted h ?_
  refine .next ?_
  refine h.arrival _ fun i m => ?_
  extract_lets _ t t₁
  have ht : Safe t := ((h.setMan ..).count ..).fnCount ..
  have ht₁ : Safe t₁ := .ite ht (foldl_keeps (fun _ _ ht₂ => ht₂.countSel) _ ht)
  exact .ite ht₁ h

theorem Safe.verify (h : Safe s) (i j xs ls) : Safe (s.verify i j xs ls).1 := by
  induction ls generalizing s j xs with
  | nil =>
    unfold State.verify
    exact h
  | cons l ls ih =>
    unfold State.verify
    extract_lets m
    split
    · exact h
    next tok stop z _ =>
      extract_lets t
      have ht : Safe t := (Safe.ite h h.countSel).acceptToken ..
      split
      · split
        · split
          · exact ht
          · exact ih ht _ _
        · exact ht
      · exact ht

theorem nextSafe_execSpecVerify (h : Safe s) (rid logits) : NextSafe (execSpecVerify rid logits s) := by
  unfold execSpecVerify
  refine .unlessHalted h ?_
  refine .next ?_
  refine h.arrival _ fun i m => ?_
  extract_lets r t t₁ t₂
  have hr : Safe r.1 := h.verify ..
  have ht : Safe t := ((hr.count ..).fnCount ..).emitTokens ..
  have ht₁ : Safe t₁ := ht.modMan ..
  have ht₂ : Safe t₂ := .ite ((ht₁.noToken ..).modMan ..) ht₁
  exact .ite ht₂ h

theorem Safe.svPlace (h : Safe s) (i a auto) : Safe (s.svPlace i a auto) := by
  unfold State.svPlace
  extract_lets t
  have ht : Safe t := h.store ..
  exact (ht.svLog ..).modMan ..

theorem nextSafe_execSieveImageLoad (h : Safe s) (i) : NextSafe (execSieveImageLoad i s) := by
  unfold execSieveImageLoad
  extract_lets _ _ _ _ t
  have ht : Safe t := by
    unfold t
    split
    · exact (h.count ..).endRequest ..
    · split
      · exact h.svStart
      · split
        · exact h.svPlace ..
        · split
          next t₁ e =>
            have ht₁ : Safe t₁ := (h.tenantRead ..).of_fst e
            exact ht₁.endRequest ..
          next t₁ _ e =>
            have ht₁ : Safe t₁ := (h.tenantRead ..).of_fst e
            split
            · exact ht₁.endRequest ..
            · exact (ht₁.svPlace ..).modMan ..
  exact .unlessHalted h (.onlyIf h ht)

theorem nextSafe_execSvStoreStart (h : Safe s) (m) : NextSafe (execSvStoreStart m s) := .agentIf h h.svStart

theorem nextSafe_execSvRebuildStart (h : Safe s) : NextSafe (execSvRebuildStart s) := .unlessHalted h (.onlyIf h h.svStart)

theorem Safe.svWriteShadow (h : Safe s) : Safe s.svWriteShadow := foldl_keeps (fun _ _ ht => ht.store ..) _ h

theorem nextSafe_execSvRebuildPassEnd (h : Safe s) : NextSafe (execSvRebuildPassEnd s) := by
  unfold execSvRebuildPassEnd
  extract_lets t
  have ht : Safe t := h.svWriteShadow
  split
  · exact .next h
  · exact .unlessHalted h (.next ht.same)

theorem nextSafe_execSvStoreFlip (h : Safe s) : NextSafe (execSvStoreFlip s) := by
  unfold execSvStoreFlip
  extract_lets t _ t₁
  have ht : Safe t := foldl_keeps (fun _ _ ht₂ => ht₂.modMan ..) _ h
  have ht₁ : Safe t₁ := ht.same
  exact .unlessHalted h (.onlyIf h ht₁)

theorem nextSafe_execSvRebuildRestart (h : Safe s) : NextSafe (execSvRebuildRestart s) := by
  unfold execSvRebuildRestart
  extract_lets _ t
  have ht : Safe t := h.svPack
  exact .unlessHalted h (.onlyIf h ht.same)

/-! ### Sys2Proof/Machine/Sharing.lean -/

theorem Safe.shrink (h : Safe s) (key target) : Safe (s.shrink key target) := by
  unfold State.shrink
  split
  · exact h
  · extract_lets
    exact h.setCtx ..

theorem Safe.reassign (h : Safe s) (d) : Safe (s.reassign d) := by
  unfold State.reassign
  extract_lets _ _ t
  have ht : Safe t := foldl_keeps (fun _ _ ht₁ => ht₁.shrink ..) _ h
  exact ht.giveIdle ..

theorem nextSafe_execQuantumBoundary (h : Safe s) : NextSafe (execQuantumBoundary s) := by
  unfold execQuantumBoundary
  extract_lets _ t _ t₁ u
  have ht : Safe t := (h.reachNs ..).settle
  have ht₁ : Safe t₁ := ht.same.takeCxVf
  have hu : Safe u := foldl_keeps (fun _ _ ht₂ => ht₂.reassign ..) _ ht₁
  exact .unlessHalted h (.onlyIf h (.ite hu (hu.reassign ..)))

theorem nextSafe_execContextStop (h : Safe s) (d c) : NextSafe (execContextStop d c s) :=
  .unlessHalted h (.onlyIf h (h.stopCtx ..))

theorem Safe.unstop (h : Safe s) (d key) : Safe (s.unstop d key) := by
  unfold State.unstop
  split
  · extract_lets
    exact .ite (h.goOn ..) h
  · exact h

theorem nextSafe_execContextStopDone (h : Safe s) (d c nexts) : NextSafe (execContextStopDone d c nexts s) := by
  unfold execContextStopDone
  extract_lets
  split
  · exact .next h
  · extract_lets _ t u v
    have ht : Safe t := foldl_keeps (fun _ _ ht₁ => ht₁.esAbort ..) _ h
    have hu : Safe u.1 := Safe.foldl_fst (fun y x hy => by
        extract_lets y₁
        have hy₁ : Safe y₁.1 := hy.stopTiles ..
        exact hy₁.handBack ..) _ ht
    have hv : Safe v := hu.setCtx ..
    exact .unlessHalted h (.onlyIf h ((hv.unstop ..).giveIdle ..))

theorem Safe.traceSave (h : Safe s) (kind n num c) : Safe (s.traceSave kind n num c) := h.trace ..

theorem Safe.saveError (h : Safe s) (n c) : Safe (s.saveError n c) := by
  unfold State.saveError
  extract_lets t
  have ht : Safe t := (h.count ..).hiErr ..
  exact foldl_keeps (fun _ _ ht₁ => ht₁.endRequest ..) _ ht

theorem nextSafe_execContextSaveBegin (h : Safe s) (n c) : NextSafe (execContextSaveBegin n c s) := by
  unfold execContextSaveBegin
  extract_lets
  split
  · exact .next h
  · exact .unlessHalted h (.onlyIf h ((h.setCtx ..).traceSave ..))

theorem nextSafe_execContextSaveEnd (h : Safe s) (n c) : NextSafe (execContextSaveEnd n c s) := by
  unfold execContextSaveEnd
  extract_lets
  split
  · exact .next h
  · extract_lets _ _ t _ t₁ _ _ t₂
    have ht : Safe t := (h.store ..).store ..
    have ht₁ : Safe t₁ := ((ht.setCtx ..).count ..).fnCount ..
    have ht₂ : Safe t₂ := ht₁.same
    exact .unlessHalted h (.onlyIf h ((Safe.ite ((h.saveError ..).setCtx ..) (ht₂.traceSave ..)).serveWait ..))

theorem nextSafe_execContextRestoreBegin (h : Safe s) (k) : NextSafe (execContextRestoreBegin k s) := by
  unfold execContextRestoreBegin
  extract_lets
  split
  · exact .next h
  · extract_lets
    split
    · exact .next h
    · exact .unlessHalted h (.onlyIf h (h.same.setCtx ..))

theorem nextSafe_execContextRestoreEnd (h : Safe s) (n c) : NextSafe (execContextRestoreEnd n c s) := by
  unfold execContextRestoreEnd
  extract_lets
  split
  · exact .next h
  · extract_lets _ _ t t₁
    have ht : Safe t := (h.store ..).store ..
    have ht₁ : Safe t₁ := (ht.count ..).traceSave ..
    exact .unlessHalted h (.onlyIf h (.ite (((h.saveError ..).setCtx ..).serveWait ..) (ht₁.goOn ..)))

theorem nextSafe_execCxQuantumWrite (h : Safe s) (m v) : NextSafe (execCxQuantumWrite m v s) := .agentIf h (h.setReg ..)

theorem nextSafe_execCxMarginWrite (h : Safe s) (m v) : NextSafe (execCxMarginWrite m v s) := .agentIf h (h.setReg ..)

theorem nextSafe_execCxVfWrite (h : Safe s) (m f v) : NextSafe (execCxVfWrite m f v s) := .agentIf h (h.settle.setReg ..)

theorem Safe.setTt (h : Safe s) (n i e) : Safe (s.setTt n i e) := by
  unfold State.setTt
  extract_lets s₁ _ _ t
  have hs₁ : Safe s₁ := h.settle
  have ht : Safe t := hs₁.same
  exact .ite ht (ht.trace ..)

theorem Safe.ttIrq (h : Safe s) (e) : Safe (s.ttIrq e) := h.irqTo ..

theorem nextSafe_execTtEntrySubmit (h : Safe s) (m n i v) : NextSafe (execTtEntrySubmit m n i v s) := by
  unfold execTtEntrySubmit
  extract_lets _ _ _ _ _ t
  have ht : Safe t := .ite (((h.setTt ..).count ..).ttIrq ..) ((h.setTt ..).count ..)
  exact .agentIf h ht

theorem Safe.discardBooked (h : Safe s) (n i) : Safe (s.discardBooked n i) := foldl_keeps (fun t x ht => by
    extract_lets
    exact ht.putEs ..) _ h

theorem Safe.ttOver (h : Safe s) (n i st) : Safe (s.ttOver n i st) := by
  unfold State.ttOver
  extract_lets _ t
  have ht : Safe t := h.setTt ..
  exact foldl_keeps (fun _ _ ht₁ => ht₁.unstop ..) _ ht

theorem nextSafe_execTtEntryCancel (h : Safe s) (m n i) : NextSafe (execTtEntryCancel m n i s) :=
  .agentIf h ((h.discardBooked ..).ttOver ..)

theorem Safe.ttStop (h : Safe s) (n key) : Safe (s.ttStop n key) := by
  unfold State.ttStop
  extract_lets
  exact (foldl_keeps (fun t x ht => by
      extract_lets
      exact ht.setTt ..) _ h).stopCtx ..

theorem nextSafe_execTtStopDue (h : Safe s) (n) : NextSafe (execTtStopDue n s) := by
  unfold execTtStopDue
  split
  · exact .next h
  · extract_lets t
    have ht : Safe t := h.reachNs ..
    exact .unlessHalted h (.onlyIf h (ht.ttStop ..))

theorem nextSafe_execTtReleaseDue (h : Safe s) (n i) : NextSafe (execTtReleaseDue n i s) := by
  unfold execTtReleaseDue
  extract_lets _ _ t _ u
  have ht : Safe t := h.reachNs ..
  have hu : Safe u := foldl_keeps (fun t₁ x ht₁ => by
      split
      · exact ht₁
      · extract_lets
        exact ht₁.setCtx ..) _ ht
  exact .unlessHalted h (.onlyIf h hu)

theorem nextSafe_execTtReady (h : Safe s) (n i) : NextSafe (execTtReady n i s) :=
  .unlessHalted h (.onlyIf h ((h.setTt ..).ttIrq ..))

theorem Safe.ttActivate (h : Safe s) (n i e) : Safe (s.ttActivate n i e) := by
  unfold State.ttActivate
  extract_lets _ t _ t₁
  have ht : Safe t := h.setTt ..
  have ht₁ : Safe t₁ := ht.same
  exact .ite ht (ht₁.storeNat ..)

theorem nextSafe_execTtStart (h : Safe s) (n i) : NextSafe (execTtStart n i s) := by
  unfold execTtStart
  extract_lets _ t
  have ht : Safe t := h.reachNs ..
  exact .unlessHalted h (.onlyIf h (.ite (ht.ttActivate ..) (((ht.setTt ..).count ..).ttIrq ..)))

theorem nextSafe_execTtLateArrayFree (h : Safe s) (n i) : NextSafe (execTtLateArrayFree n i s) :=
  .unlessHalted h (.onlyIf h (.ite (h.ttActivate ..) (h.setTt ..)))

theorem nextSafe_execTtEnd (h : Safe s) (n i) : NextSafe (execTtEnd n i s) := by
  unfold execTtEnd
  extract_lets _ t u u₁
  have ht : Safe t := h.reachNs ..
  have hu : Safe u := ht.discardBooked ..
  have hu₁ : Safe u₁ := .ite (hu.count ..) hu
  exact .unlessHalted h (.onlyIf h (hu₁.ttOver ..))

theorem Safe.takeRecord (h : Safe s) (n b) : Safe (s.takeRecord n b) := by
  unfold State.takeRecord
  extract_lets _ _ _ t
  have ht : Safe t := foldl_keeps (fun t₁ x ht₁ => by
      extract_lets
      split
      · exact .ite ht₁ (ht₁.setReg ..)
      · exact ht₁) _ h
  exact .ite (h.count ..) (.ite ht (.ite (ht.putEs ..) ((ht.putEs ..).wakeArray ..)))

theorem Safe.takeRecords (h : Safe s) (n k) : Safe (s.takeRecords n k) := by
  induction k generalizing s with
  | zero => exact h
  | succ k ih => exact ih ((h.takeRecord ..).same.storeNat ..)

theorem nextSafe_execTtRingDoorbell (h : Safe s) (m n v) : NextSafe (execTtRingDoorbell m n v s) := by
  unfold execTtRingDoorbell
  extract_lets _ _ _ t
  have ht : Safe t := h.same
  exact .agentIf h (.ite (h.count ..) (ht.takeRecords ..))

/-! ### Sys2Proof/Machine/Islands.lean -/

theorem Safe.askRelease (h : Safe s) (i) : Safe (s.askRelease i) := by
  unfold State.askRelease
  extract_lets
  split
  · exact .ite h h.same
  · exact h

theorem nextSafe_execIslandPfReq (h : Safe s) (m i req) : NextSafe (execIslandPfReq m i req s) := by
  unfold execIslandPfReq
  extract_lets refused t
  have hrefused : Safe refused := h.modIsl ..
  have ht : Safe t := by
    unfold t
    split
    · exact hrefused
    · exact .ite hrefused ((h.modIsl ..).askRelease ..)
  exact .agentIf h ht

theorem nextSafe_execIslandFwReq (h : Safe s) (m i req) : NextSafe (execIslandFwReq m i req s) := by
  unfold execIslandFwReq
  extract_lets t
  have ht : Safe t := by
    unfold t
    split
    · exact h
    · exact .ite h ((h.modIsl ..).askRelease ..)
  exact .agentIf h ht

theorem Safe.clusterLost (h : Safe s) (c) : Safe (s.clusterLost c) := by
  unfold State.clusterLost
  extract_lets _ t
  have ht : Safe t := foldl_keeps (fun t₁ x ht₁ => by
      extract_lets
      exact .ite (ht₁.loseHandle ..) ht₁) _ h
  exact (ht.setDs ..).irqTo ..

theorem Safe.dredgeLeaves (h : Safe s) (i) : Safe (s.dredgeLeaves i) := by
  unfold State.dredgeLeaves
  extract_lets _ _ _ _ t
  have ht : Safe t := h.setDredge ..
  exact .ite (.ite (ht.count ..) ht) h

theorem Safe.unitsOff (h : Safe s) (i off) : Safe (s.unitsOff i off) := by
  unfold State.unitsOff
  split
  · exact h.setEs ..
  · exact h.groupLeaves ..
  · exact foldl_keeps (fun t x ht => by
        extract_lets
        exact ht.same) _ h
  · split
    · exact h.clusterLost ..
    · exact h
  · exact h.portsOff ..
  · exact h.opticsOff ..
  · exact h

theorem Safe.dropArray (h : Safe s) (g) : Safe (s.dropArray g) := foldl_keeps (fun t x ht => by
    extract_lets
    split
    · exact ht.setCtx ..
    · extract_lets u
      have hu : Safe u.1 := ht.handBack ..
      exact hu.setCtx ..) _ h.settle

theorem nextSafe_execIslandEntryBegin (h : Safe s) (i) : NextSafe (execIslandEntryBegin i s) := by
  unfold execIslandEntryBegin
  extract_lets _ _ _ t t₁ t₂
  have ht : Safe t := by
    unfold t
    split
    · exact h.dropArray ..
    · exact h
  have ht₁ : Safe t₁ := (ht.dredgeLeaves ..).unitsOff ..
  have ht₂ : Safe t₂ := ht₁.modIsl ..
  exact .onlyIf h ht₂

theorem Safe.rewriteRules (h : Safe s) (d) : Safe (s.rewriteRules d) := foldl_keeps (fun t x ht => by
    split
    · exact ht.setReg ..
    · exact ht) _ h

theorem Safe.dieLost (h : Safe s) (d) : Safe (s.dieLost d) := by
  unfold State.dieLost
  extract_lets gs _ _ t t₁ b t₂
  have ht : Safe t := (h.dropEs _).same
  have ht₁ : Safe t₁ := foldl_keeps (fun _ _ hu => hu.resetRegs ..) _ ht
  have ht₂ : Safe t₂ := ht₁.resetRegs ..
  clear_value t₂
  cases d with
  | gd n =>
    obtain ⟨hmem, hhost, hregs, hes, hdl, hisl⟩ := ht₂.resetRegs (dlReg n 0) (dlReg n 0 + 0x1000)
    exact ⟨hmem, hhost, hregs, hes, tsorted_filter _ hdl, hisl⟩
  | rd => exact ((ht₂.resetRegs ..).resetRegs ..).resetRegs .. |>.same
  | _ => exact ht₂

theorem Safe.contentsLost (h : Safe s) (i) : Safe (s.contentsLost i) := by
  unfold State.contentsLost
  extract_lets t
  have ht : Safe t := h.modIsl ..
  split
  · exact (ht.dieLost ..).clearMem ..
  · exact ht.dieLost ..
  · exact ht

theorem nextSafe_execIslandEntryDone (h : Safe s) (i) : NextSafe (execIslandEntryDone i s) := by
  unfold execIslandEntryDone
  extract_lets _ _ t
  have ht : Safe t := h.modIsl ..
  exact .onlyIf h (.ite (ht.contentsLost ..) ht)

theorem Safe.clockFor (h : Safe s) (i) : Safe (s.clockFor i) := h.same

theorem nextSafe_execIslandExitBegin (h : Safe s) (i) : NextSafe (execIslandExitBegin i s) := by
  unfold execIslandExitBegin
  extract_lets _ t
  have ht : Safe t := h.modIsl ..
  exact .onlyIf h (ht.clockFor ..)

theorem Safe.failRequest (h : Safe s) (i) : Safe (s.failRequest i) := .ite (h.modMan ..) (h.endRequest ..)

theorem Safe.groupLost (h : Safe s) (i kept) : Safe (s.groupLost i kept) := by
  unfold State.groupLost
  extract_lets _ _ t
  have ht : Safe t := foldl_keeps (fun _ _ ht₁ => ht₁.failRequest ..) _ h
  exact foldl_keeps (fun t₁ x ht₁ => by
      extract_lets _ u
      have hu : Safe u := (ht₁.setSlot ..).unloadAll ..
      exact .ite hu ((hu.setSlot ..).mgmtEvent)) _ ht

theorem Safe.loadCores (h : Safe s) (d x bankB data) : Safe (s.loadCores d x bankB data) := h.same

theorem Safe.loadHdBank (h : Safe s) (x bankB) : Safe (s.loadHdBank x bankB) := h.same

theorem Safe.unitsOn (h : Safe s) (i) : Safe (s.unitsOn i) := by
  unfold State.unitsOn
  split
  · exact h.opticsOn ..
  · exact .ite h (foldl_keeps (fun t x ht => by
        extract_lets
        exact ht.same) _ h)
  · exact .ite h ((h.loadCores ..).loadCores ..)
  · exact h

theorem Safe.applyRetain (h : Safe s) (d) : Safe (s.applyRetain d) := by
  unfold State.applyRetain
  extract_lets
  split
  · exact h
  · split
    · exact foldl_keeps (fun _ _ ht => ht.setReg ..) _ h
    · exact h.setReg ..
    · exact h.setReg ..
    · exact h.setReg ..

theorem nextSafe_execIslandExitDone (h : Safe s) (i) : NextSafe (execIslandExitDone i s) := by
  unfold execIslandExitDone
  extract_lets _ _ t t₁ t₂ t₃
  have ht : Safe t := h.clearMem ..
  have ht₁ : Safe t₁ := by
    unfold t₁
    split
    · exact .ite ht (ht.groupLost ..)
    · exact ht
  have ht₂ : Safe t₂ := by
    unfold t₂
    split
    · exact .ite ht₁ ((ht₁.applyRetain ..).rewriteRules ..)
    · exact ht₁
  have ht₃ : Safe t₃ := .ite (ht₂.modIsl ..) ((ht₂.modIsl ..).unitsOn ..)
  exact .onlyIf h ht₃

theorem nextSafe_execIslandRelease (h : Safe s) (m i) : NextSafe (execIslandRelease m i s) :=
  .agentIf h ((h.modIsl ..).unitsOn ..)

theorem Safe.arrayFailed (h : Safe s) (g) : Safe (s.arrayFailed g) := (foldl_keeps (fun _ _ ht => ht.ttIrq ..) _ h).dropArray ..

theorem nextSafe_execIslandShort (h : Safe s) (i) : NextSafe (execIslandShort i s) := by
  unfold execIslandShort
  extract_lets _ _ t t₁ t₂ t₃ t₄
  have ht : Safe t := .ite ((h.dredgeLeaves ..).unitsOff ..) h
  have ht₁ : Safe t₁ := by
    unfold t₁
    split
    · exact ht.arrayFailed ..
    · exact ht.groupLost ..
    · exact ht
  have ht₂ : Safe t₂ := (ht₁.modIsl ..).contentsLost ..
  have ht₃ : Safe t₃ := (ht₂.setReg ..).count ..
  have ht₄ : Safe t₄ := ht₃.hiErr ..
  refine .onlyIf h ?_
  split
  · exact ht₄.raiseFatal ..
  · exact ht₄

/-! ### Sys2Proof/Machine/Sluice.lean -/

theorem Safe.modSluice (h : Safe s) (f) : Safe (s.modSluice f) := h.same

theorem nextSafe_execOperatingPointChange (h : Safe s) (k) : NextSafe (execOperatingPointChange k s) := .next (h.modSluice ..)

theorem Safe.stopDie (h : Safe s) (d) : Safe (s.stopDie d) := foldl_keeps (fun _ _ ht => ht.stopCtx ..) _ h

theorem Safe.resumeDie (h : Safe s) (d) : Safe (s.resumeDie d) :=
  .ite h ((foldl_keeps (fun _ _ ht => ht.unstop ..) _ h).giveIdle ..)

theorem Safe.reparked (h : Safe s) : Safe s.reparked := foldl_keeps (fun _ _ ht => .ite (ht.stopDie ..) (ht.resumeDie ..)) _ h

theorem Safe.parkSome (h : Safe s) (n) : Safe (s.parkSome n) := ((h.modSluice ..).count ..).reparked

theorem Safe.stepDown (h : Safe s) : Safe s.stepDown := .ite ((h.modSluice ..).count ..) (.ite (h.parkSome ..) h)

theorem nextSafe_execSluiceTick (h : Safe s) (mw) : NextSafe (execSluiceTick mw s) := by
  unfold execSluiceTick
  extract_lets _ _ _ _ _ _ _ _ t
  have ht : Safe t := h.modSluice ..
  exact .onlyIf h (.ite ht (.ite (.ite ht.stepDown ht) (.ite ((ht.modSluice ..).reparked) (.ite (ht.modSluice ..) ht))))

theorem nextSafe_execInputLimitEmergency (h : Safe s) : NextSafe (execInputLimitEmergency s) := by
  unfold execInputLimitEmergency
  extract_lets t
  have ht : Safe t := (h.parkSome ..).modSluice ..
  exact .next ((ht.setReg ..).count ..)

theorem nextSafe_execEmergencyClear (h : Safe s) : NextSafe (execEmergencyClear s) := .next (h.modSluice ..)

theorem nextSafe_execThermalTick (h : Safe s) (temps) : NextSafe (execThermalTick temps s) := by
  unfold execThermalTick
  extract_lets _ _ _ t u v
  have ht : Safe t := h.modSluice ..
  have hu : Safe u := .ite (((ht.modSluice ..).count ..).reparked) (.ite (ht.modSluice ..) (.ite (ht.modSluice ..) ht))
  have hv : Safe v := .ite ((hu.modSluice ..).reparked) hu
  exact .onlyIf h hv

theorem Safe.allOff (h : Safe s) : Safe s.allOff := foldl_keeps (fun t x ht => by
    extract_lets t₁
    have ht₁ : Safe t₁ := .ite ((ht.dredgeLeaves ..).unitsOff ..) ht
    exact .ite ht ((ht₁.modIsl ..).contentsLost ..)) _ h

theorem nextSafe_execThermalTrip (h : Safe s) (d) : NextSafe (execThermalTrip d s) := .next (h.allOff.raiseFatal ..)

theorem nextSafe_execBoostHour (h : Safe s) : NextSafe (execBoostHour s) := by
  unfold execBoostHour
  extract_lets _ t
  have ht : Safe t := h.modSluice ..
  exact .next (.ite ht.same ht)

theorem nextSafe_execSitePwrChange (h : Safe s) (v) : NextSafe (execSitePwrChange v s) := by
  unfold execSitePwrChange
  extract_lets t
  have ht : Safe t := (h.modSluice ..).mgmtEvent
  exact .onlyIf h (.ite ht ht.reparked)

theorem nextSafe_execThrottleAssert (h : Safe s) (lowNs) : NextSafe (execThrottleAssert lowNs s) := by
  unfold execThrottleAssert
  extract_lets on
  have hon : Safe on := h.modSluice ..
  exact .next (.ite hon (.ite h ((Safe.ite hon h).drew ..)))

theorem nextSafe_execThrottleRelease (h : Safe s) : NextSafe (execThrottleRelease s) := .next (h.modSluice ..)

/-! ### Sys2Proof/Machine/Record.lean -/

theorem Safe.wakeBases (h : Safe s) : Safe s.wakeBases := foldl_keeps (fun _ _ ht => ht.modIsl ..) _ h

theorem nextSafe_execConfigRecordDone (h : Safe s) : NextSafe (execConfigRecordDone s) := by
  unfold execConfigRecordDone
  extract_lets _ t
  have ht : Safe t := by
    unfold t
    split
    · extract_lets u
      have hu : Safe u := h.same
      exact foldl_keeps (fun _ _ ht₁ => ht₁.applyRetain ..) _ (hu.store ..)
    · exact h.same
  exact .onlyIf h ht.wakeBases

theorem Safe.fillRegs (h : Safe s) (base count n b off) : Safe (s.fillRegs base count n b off) := foldl_keeps (fun t x ht => by
    extract_lets
    exact ht.setReg ..) _ h

theorem Safe.applyItems (h : Safe s) : Safe s.applyItems := by
  unfold State.applyItems
  extract_lets _ _ u u₁ t _ t₁
  have hu : Safe u := (h.setRegB ..).setReg ..
  have hu₁ : Safe u₁ := foldl_keeps (fun _ _ ht₂ => ht₂.setReg ..) _ hu
  have ht : Safe t := .ite h ((hu₁.fillRegs ..).fillRegs ..)
  have ht₁ : Safe t₁ := .ite ht (((((ht.setReg ..).setReg ..).fillRegs ..).fillRegs ..).fillRegs ..)
  split
  · exact (((ht₁.setReg ..).setReg ..).setReg ..).setReg ..
  · exact ht₁

/-! ### Sys2Proof/Machine/BootRom.lean -/

theorem Safe.spoilCopy (h : Safe s) (c n) : Safe (s.spoilCopy c n) := h.same.drew ..

theorem Safe.cutRecord (h : Safe s) : Safe s.cutRecord := by
  unfold State.cutRecord
  split
  · exact h.spoilCopy ..
  · exact h

theorem Safe.wipeBonded (h : Safe s) : Safe s.wipeBonded := by
  unfold State.wipeBonded
  extract_lets t
  have ht : Safe t := h.clearMem ..
  exact ht.same

theorem Safe.moduleReset (h : Safe s) (cold) : Safe (s.moduleReset cold) := by
  have hr : Safe State.reset := resetSafe
  unfold State.moduleReset
  generalize State.reset = r at hr
  obtain ⟨-, -, -, hes, hdl, hisl⟩ := hr
  extract_lets s₁ s₂
  have hs₁ : Safe s₁ := h.cutRecord.bootFailed
  obtain ⟨hmem, hhost, -⟩ : Safe s₂ := .ite hs₁.wipeBonded hs₁
  clear_value s₂
  refine ⟨twf_filter _ _ hmem, hhost, sorted_keptRegs s₂ cold, hes, hdl, ?_⟩
  cases cold <;> exact hisl

theorem nextSafe_execBtResetWarm (h : Safe s) (m) : NextSafe (execBtResetWarm m s) := .onlyIf h (h.moduleReset ..)

theorem nextSafe_execBtResetCold (h : Safe s) (m) : NextSafe (execBtResetCold m s) := .onlyIf h (h.moduleReset ..)

theorem Safe.powerOn (h : Safe s) : Safe s.powerOn := by
  obtain ⟨-, hhost, -⟩ := h.cutRecord
  have hr : Safe State.reset := resetSafe
  unfold State.powerOn
  generalize State.reset = r at hr
  obtain ⟨hmem, -, hregs, hes, hdl, hisl⟩ := hr
  exact ⟨hmem, hhost, hregs, hes, hdl, hisl⟩

theorem nextSafe_execPowerOn (h : Safe s) : NextSafe (execPowerOn s) := .next h.powerOn

theorem Safe.powerOff (h : Safe s) : Safe s.powerOff := by
  have ht := h.powerOn
  unfold State.powerOff
  generalize s.powerOn = t at ht
  obtain ⟨hmem, hhost, hregs, hes, hdl, hisl⟩ := ht
  exact ⟨hmem, hhost, hregs, hes, hdl, List.length_map .. |>.trans hisl⟩

theorem nextSafe_execInputInvalid (h : Safe s) : NextSafe (execInputInvalid s) := .next h.powerOff

theorem nextSafe_execInputOvervoltage (h : Safe s) : NextSafe (execInputOvervoltage s) := .next h.powerOff

theorem nextSafe_execInputDip (h : Safe s) : NextSafe (execInputDip s) := .next h

theorem nextSafe_execRomStart (h : Safe s) (strapLow) : NextSafe (execRomStart strapLow s) := by
  unfold execRomStart
  extract_lets _ _ t
  have ht : Safe t := .ite h (h.modSluice ..)
  exact .onlyIf h ht.same

theorem Safe.loadData (h : Safe s) (x bankB) : Safe (s.loadData x bankB) := Safe.foldl_fst (fun _ _ hy => hy.store ..) _ h

theorem Safe.loadDibbers (h : Safe s) (x bankB) : Safe (s.loadDibbers x bankB) := foldl_keeps (fun t x₁ ht => by
    extract_lets
    exact ht.same) _ h

theorem Safe.loadDies (h : Safe s) (x) : Safe (s.loadDies x) :=
  foldl_keeps (fun _ _ ht => ht.loadCores ..) _ ((h.loadHdBank ..).loadHdBank ..)

theorem Safe.stageDies (h : Safe s) (x) : Safe (s.stageDies x) := foldl_keeps (fun _ _ ht => ht.loadCores ..) _ (h.loadHdBank ..)

theorem Safe.useImage (h : Safe s) (x) : Safe (s.useImage x) := h.same

theorem Safe.romResult (h : Safe s) (code) : Safe (s.romResult code) := h.same

theorem nextSafe_execRomBoot (h : Safe s) (m) : NextSafe (execRomBoot m s) := by
  unfold execRomBoot
  extract_lets _ _ t
  have ht : Safe t := .ite (h.romResult ..) h.same
  exact .onlyIf h ht

theorem Safe.startImage (h : Safe s) (x) : Safe (s.startImage x) := by
  unfold State.startImage
  extract_lets t
  have ht : Safe t := ((((h.loadData ..).loadDibbers ..).loadDies ..).useImage ..).applyItems
  exact ht.same

theorem nextSafe_execRomBootDone (h : Safe s) (info) : NextSafe (execRomBootDone info s) := by
  unfold execRomBootDone
  extract_lets _ _ _ t
  have ht : Safe t := h.same
  exact .onlyIf h (.ite (ht.startImage ..) ht)

theorem nextSafe_execRomRecord (h : Safe s) (m) : NextSafe (execRomRecord m s) := by
  unfold execRomRecord
  extract_lets _ t
  have ht : Safe t := .ite h.same (h.romResult ..)
  exact .onlyIf h ht

theorem nextSafe_execRomRecordDone (h : Safe s) (flashOk) : NextSafe (execRomRecordDone flashOk s) := by
  unfold execRomRecordDone
  extract_lets _ t r _ u
  have ht : Safe t := h.same
  have hr : Safe r := ht.romResult ..
  have hu : Safe u := by
    unfold u
    split
    · exact ht.romResult ..
    · exact .ite hr.same ((ht.spoilCopy ..).romResult ..)
  exact .onlyIf h hu

theorem nextSafe_execRomExit (h : Safe s) (m) : NextSafe (execRomExit m s) := by
  unfold execRomExit
  extract_lets _ t
  have ht : Safe t := h.same.moduleReset ..
  exact .onlyIf h (.ite ht (h.romResult ..))

theorem nextSafe_execBootOkWrite (h : Safe s) (m) : NextSafe (execBootOkWrite m s) := .agentIf h h.same

theorem nextSafe_execSalvageReqWrite (h : Safe s) (m) : NextSafe (execSalvageReqWrite m s) := .agentIf h h.same

theorem nextSafe_execBootWatchdog (h : Safe s) : NextSafe (execBootWatchdog s) := by
  unfold execBootWatchdog
  extract_lets _ t
  have ht : Safe t := h.reachRaw ..
  exact .onlyIf h (ht.moduleReset ..)

/-! ### Sys2Proof/Machine/Determinism.lean -/

theorem nextSafe_execHmDetWrite (h : Safe s) (m mode) : NextSafe (execHmDetWrite m mode s) := .agentIf h h.same

theorem nextSafe_execDetPropagated (h : Safe s) : NextSafe (execDetPropagated s) := .onlyIf h h.same

theorem nextSafe_execHmProvCfgWrite (h : Safe s) (m f v) : NextSafe (execHmProvCfgWrite m f v s) := by
  unfold execHmProvCfgWrite
  extract_lets _ _ _ _ _ t
  have ht : Safe t := h.setReg ..
  exact .agentIf h (.ite (ht.setReg ..) ht)

/-! ### Sys2Proof/Machine/Update.lean -/

theorem Safe.setUpd (h : Safe s) (f) : Safe (s.setUpd f) := h.same

theorem nextSafe_execUpdStage (h : Safe s) (m) : NextSafe (execUpdStage m s) := .onlyIf h (.ite (h.setUpd ..) (h.setUpd ..))

theorem nextSafe_execUpdStageDone (h : Safe s) (info) : NextSafe (execUpdStageDone info s) := by
  unfold execUpdStageDone
  extract_lets _ _ _ t
  have ht : Safe t := ((h.loadData ..).loadDibbers ..).stageDies ..
  exact .onlyIf h (.ite ht.same (h.setUpd ..))

theorem nextSafe_execUpdDiscard (h : Safe s) (m) : NextSafe (execUpdDiscard m s) := .onlyIf h h.same

theorem Safe.updAim (h : Safe s) : Safe s.updAim := h.setUpd ..

theorem nextSafe_execUpdArm (h : Safe s) (m) : NextSafe (execUpdArm m s) := .onlyIf h ((h.setUpd ..).updAim)

theorem nextSafe_execUpdDisarm (h : Safe s) (m) : NextSafe (execUpdDisarm m s) := .onlyIf h (h.setUpd ..)

theorem nextSafe_execUpdSwitch (h : Safe s) : NextSafe (execUpdSwitch s) := by
  unfold execUpdSwitch
  extract_lets t
  have ht : Safe t := h.reachNs ..
  exact .onlyIf h ht.same

theorem Safe.updDone (h : Safe s) : Safe s.updDone := by
  unfold State.updDone
  split
  · exact h
  · extract_lets t
    have ht : Safe t := h.useImage ..
    exact ht.same.mgmtEvent

theorem nextSafe_execUpdAbandon (h : Safe s) : NextSafe (execUpdAbandon s) := by
  unfold execUpdAbandon
  extract_lets _ t
  have ht : Safe t := h.reachNs ..
  exact .onlyIf h ht.same

theorem nextSafe_execHelmGive (h : Safe s) (m epoch) : NextSafe (execHelmGive m epoch s) := by
  unfold execHelmGive
  extract_lets _ t
  have ht : Safe t := h.same
  exact .agentIf h (.ite ht.updDone ht)

theorem nextSafe_execHelmBeat (h : Safe s) (m epoch) : NextSafe (execHelmBeat m epoch s) := .agentIf h h.same

theorem nextSafe_execHelmBeatTimeout (h : Safe s) : NextSafe (execHelmBeatTimeout s) := by
  unfold execHelmBeatTimeout
  extract_lets _ t
  have ht : Safe t := h.reachRaw ..
  exact .onlyIf h (ht.raiseFatal ..)

theorem Safe.lcChange (h : Safe s) (lc debug) : Safe (s.lcChange lc debug) := by
  unfold State.lcChange
  extract_lets t
  have ht : Safe t := h.wipeBonded
  exact ht.same

theorem nextSafe_execLcRequest (h : Safe s) (m req) : NextSafe (execLcRequest m req s) := by
  unfold execLcRequest
  extract_lets _ t
  have ht : Safe t := by
    unfold t
    split
    · exact h.lcChange ..
    · exact h.same
  exact .agentIf h ht

theorem nextSafe_execLcExitDebug (h : Safe s) (m) : NextSafe (execLcExitDebug m s) := .agentIf h (h.lcChange ..)

theorem nextSafe_execTamperEvent (h : Safe s) (src) : NextSafe (execTamperEvent src s) := by
  unfold execTamperEvent
  extract_lets t _ t₁
  have ht : Safe t := (h.setReg ..).wipeBonded
  have ht₁ : Safe t₁ := ht.same
  exact .onlyIf h (.ite ht₁ (ht₁.raiseFatal ..))

theorem nextSafe_execLidClose (h : Safe s) : NextSafe (execLidClose s) := .onlyIf h h.same

/-! ### Sys2Proof/Machine/Service.lean -/

theorem Safe.sampled (h : Safe s) (m now least) : Safe (s.sampled m now least) := h.setReg ..

theorem Safe.sample (h : Safe s) (x) : Safe (s.sample x) := by
  unfold State.sample
  split
  · exact .ite (h.sampled ..) (h.sampled ..)
  · exact h.sampled ..

theorem Safe.evaluated (h : Safe s) : Safe s.evaluated := by
  unfold State.evaluated
  extract_lets _ s₁
  have hs₁ : Safe s₁ := h.same
  exact .ite hs₁ ((hs₁.setReg ..).hiErr ..)

theorem Safe.hbmErrors (h : Safe s) (h') : Safe (s.hbmErrors h') := (h.count ..).count ..

theorem nextSafe_execMarginEval (h : Safe s) (mons hbm) : NextSafe (execMarginEval mons hbm s) := by
  unfold execMarginEval
  extract_lets _ t
  have ht : Safe t := h.reachRaw ..
  exact .onlyIf h ((foldl_keeps (fun _ _ ht₂ => ht₂.hbmErrors ..) _ (foldl_keeps (fun _ _ ht₁ => ht₁.sample ..) _ ht)).evaluated)

theorem nextSafe_execMarginMinReset (h : Safe s) (m r) : NextSafe (execMarginMinReset m r s) := .agentIf h (h.setReg ..)

theorem nextSafe_execHmAdopt (h : Safe s) (m v) : NextSafe (execHmAdopt m v s) := .agentIf h h.same

theorem Safe.adoptEntry (h : Safe s) (old new status) : Safe (s.adoptEntry old new status) := by
  unfold State.adoptEntry
  extract_lets _ t
  have ht : Safe t := h.store ..
  exact ht.same

theorem Safe.adoptBerths (h : Safe s) (i fs) : SomeSafe (s.adoptBerths i fs) := by
  induction fs generalizing s with
  | nil => exact .of_some h
  | cons p fs ih =>
    unfold State.adoptBerths
    extract_lets r t
    have ht : Safe t := h.copyBerth ..
    split
    next u e => exact ih ((ht.addBerth ..).of_fst e)
    next => exact .of_none

theorem Safe.adoptOne (h : Safe s) (k) : Safe (s.adoptOne k) := by
  unfold State.adoptOne
  extract_lets
  split
  · exact h
  · split
    · exact h.adoptEntry ..
    · exact h.adoptEntry ..
    · extract_lets
      split
      · exact h.adoptEntry ..
      · split
        · exact h.adoptEntry ..
        next t e =>
          have ht : Safe t := (((h.allocMan.drew ..).setMan ..).adoptBerths ..).safe e
          extract_lets t₁
          have ht₁ : Safe t₁ := (ht.setWritten ..).store ..
          exact ht₁.adoptEntry ..

theorem nextSafe_execHmAdoptDone (h : Safe s) : NextSafe (execHmAdoptDone s) := by
  unfold execHmAdoptDone
  extract_lets t
  have ht : Safe t := foldl_keeps (fun _ _ ht₁ => ht₁.adoptOne ..) _ h
  exact .unlessHalted h (.onlyIf h ht.same)

theorem Safe.setStby (h : Safe s) (w x) : Safe (s.setStby w x) := h.same

theorem nextSafe_execStbyArm (h : Safe s) (m v) : NextSafe (execStbyArm m v s) := by
  unfold execStbyArm
  refine .agentIf h ?_
  split
  · exact h.setStby ..
  · exact .ite ((h.abortRd.usePlan ..).setStby ..) (h.setStby ..)

theorem nextSafe_execStbyDisarm (h : Safe s) (m v) : NextSafe (execStbyDisarm m v s) := by
  unfold execStbyDisarm
  extract_lets _ _ _ t
  have ht : Safe t := (h.usePlan ..).setStby ..
  exact .agentIf h ht

theorem nextSafe_execHeartbeatSend (h : Safe s) (t) : NextSafe (execHeartbeatSend t s) := by
  unfold execHeartbeatSend
  extract_lets u _ _ v
  have hu : Safe u := h.reachNs ..
  have hv : Safe v := hu.same
  exact .unlessHalted h (.onlyIf h (hv.zlHold ..))

theorem nextSafe_execStandbyCheck (h : Safe s) (w t) : NextSafe (execStandbyCheck w t s) := by
  unfold execStandbyCheck
  extract_lets _ _ u _ v _ v₁
  have hu : Safe u := h.reachNs ..
  have hv : Safe v := hu.setStby ..
  have hv₁ : Safe v₁ := hv.same
  exact .unlessHalted h (.onlyIf h (.ite hv₁.mgmtEvent hv₁))

/-! ### Sys2Proof/Machine/Observe.lean -/

theorem nextSafe_execHmTrcRdWrite (h : Safe s) (m v) : NextSafe (execHmTrcRdWrite m v s) := .agentIf h (h.setReg ..)

theorem nextSafe_execHmTrcCfgWrite (h : Safe s) (m v) : NextSafe (execHmTrcCfgWrite m v s) := by
  unfold execHmTrcCfgWrite
  extract_lets _ t u
  have ht : Safe t := h.setReg ..
  have hu : Safe u := ht.setReg ..
  exact .agentIf h (.ite hu.same ht)

theorem nextSafe_execObsSample (h : Safe s) (u pc stall layer op fn) : NextSafe (execObsSample u pc stall layer op fn s) := by
  unfold execObsSample
  extract_lets _ _ t _ v r
  have ht : Safe t := h.reachRaw ..
  have hv : Safe v := ht.traceWrite ..
  have hr : Safe r := .ite ht hv
  exact .onlyIf h hr.same

theorem Safe.lateBookings (h : Safe s) : Safe s.lateBookings := foldl_keeps (fun t x ht => by
    extract_lets
    exact ((ht.setTt ..).count ..).ttIrq ..) _ h

theorem Safe.traceStop (h : Safe s) (release inf) : Safe (s.traceStop release inf) := h.trace ..

theorem Safe.gsFire (h : Safe s) (late) : Safe (s.gsFire late) := by
  unfold State.gsFire
  extract_lets _ t t₁
  have ht : Safe t := h.setReg ..
  have ht₁ : Safe t₁ := .ite ht.lateBookings ht
  exact ht₁.same.traceStop ..

theorem nextSafe_execGsArm (h : Safe s) (m v) : NextSafe (execGsArm m v s) := by
  unfold execGsArm
  extract_lets _ t
  have ht : Safe t := h.setReg ..
  exact .agentIf h (.ite (ht.gsFire ..) ht)

theorem nextSafe_execGsFire (h : Safe s) : NextSafe (execGsFire s) := by
  unfold execGsFire
  extract_lets t
  have ht : Safe t := h.reachNs ..
  exact .onlyIf h (ht.gsFire ..)

theorem nextSafe_execGsCaptureClose (h : Safe s) : NextSafe (execGsCaptureClose s) := by
  unfold execGsCaptureClose
  extract_lets _ t
  have ht : Safe t := h.reachRaw ..
  exact .onlyIf h ht.same

theorem Safe.deliverCapture (h : Safe s) (c) : Safe (s.deliverCapture c) := by
  unfold State.deliverCapture
  split
  · exact h.ringArrive ..
  · exact h.zlDeliver ..

theorem Safe.gsRelease (h : Safe s) : Safe s.gsRelease := by
  unfold State.gsRelease
  extract_lets _ _ _ _ t
  have ht : Safe t := h.same
  exact (foldl_keeps (fun _ _ ht₁ => ht₁.deliverCapture ..) _ ht).traceStop ..

theorem nextSafe_execGsRelease (h : Safe s) (m) : NextSafe (execGsRelease m s) := .agentIf h h.gsRelease

/-! ### Sys2Proof/Machine/TideStep.lean -/

theorem Safe.applyAdj (h : Safe s) (a) : Safe (s.applyAdj a) := h.same

theorem Safe.countBack (h : Safe s) : Safe s.countBack := (h.count ..).setReg ..

theorem Safe.stbStep (h : Safe s) (i) : Safe (s.stbStep i) := .ite (((h.setStb ..).strobe ..).count ..) h

theorem Safe.ppsStep (h : Safe s) (j) : Safe (s.ppsStep j) := .ite ((h.setPps ..).pulse ..) h

theorem Safe.barStep (h : Safe s) (old) : Safe (s.barStep old) := .ite (h.barFire ..) h

theorem Safe.overdueStops (h : Safe s) (n) : Safe (s.overdueStops n) := foldl_keeps (fun _ _ ht => ht.ttStop ..) _ h

theorem Safe.gsStep (h : Safe s) (old) : Safe (s.gsStep old) := .ite (h.gsFire ..) h

theorem Safe.updStep (h : Safe s) (old back) : Safe (s.updStep old back) := .ite h.updAim h

theorem Safe.stepForward (h : Safe s) (old) : Safe (s.stepForward old) := by
  unfold State.stepForward
  extract_lets t t₁ t₂ t₃ t₄
  have ht : Safe t := foldl_keeps (fun _ _ ht₁ => ht₁.stbStep ..) _ h
  have ht₁₁ : Safe t₁ := foldl_keeps (fun _ _ ht₂ => ht₂.ppsStep ..) _ ht
  have ht₂₁ : Safe t₂ := ht₁₁.barStep ..
  have ht₃ : Safe t₃ := .ite ht₂₁ (foldl_keeps (fun _ _ ht₄ => ht₄.overdueStops ..) _ ht₂₁)
  have ht₄₁ : Safe t₄ := .ite ht₃ ht₃.dropAllLate
  exact (ht₄₁.updStep ..).gsStep ..

theorem Safe.adjNow (h : Safe s) (a) : Safe (s.adjNow a) := by
  unfold State.adjNow
  extract_lets u _ _ t _ t₁
  have hu : Safe u := h.settle
  have ht : Safe t := hu.applyAdj ..
  have ht₁ : Safe t₁ := ht.same
  exact .ite (ht₁.countBack.updStep ..) (.ite (ht₁.stepForward ..) ht₁)

theorem nextSafe_execTdAdjApply (h : Safe s) : NextSafe (execTdAdjApply s) := by
  unfold execTdAdjApply
  extract_lets
  split
  · exact .next h
  · extract_lets t
    have ht : Safe t := .ite h.same h
    exact .onlyIf h (ht.adjNow ..)

theorem Safe.idle (h : Safe s) : Safe s.idle := by
  unfold State.idle
  extract_lets t
  have ht : Safe t := h.tick
  split
  · exact .ite (ht.adjNow ..) ht
  · exact ht

/-! ### Sys2Proof/Machine/Smb.lean -/

theorem Safe.smbAnswer (h : Safe s) (r) : Safe (s.smbAnswer r) := h.same

theorem nextSafe_execSmbStatus (h : Safe s) (inlet outlet) : NextSafe (execSmbStatus inlet outlet s) := .next (h.smbAnswer ..)

theorem nextSafe_execSmbModule (h : Safe s) : NextSafe (execSmbModule s) := .next (h.smbAnswer ..)

theorem nextSafe_execSmbDieSel (h : Safe s) (d) : NextSafe (execSmbDieSel d s) := .next (.ite h.same (h.smbAnswer ..))

theorem nextSafe_execSmbDieId (h : Safe s) : NextSafe (execSmbDieId s) := .next (h.smbAnswer ..)

theorem nextSafe_execSmbFwDigest (h : Safe s) : NextSafe (execSmbFwDigest s) := .next (h.smbAnswer ..)

theorem nextSafe_execSmbStbyDigest (h : Safe s) : NextSafe (execSmbStbyDigest s) := .next (h.smbAnswer ..)

theorem nextSafe_execSmbMargin (h : Safe s) : NextSafe (execSmbMargin s) := .next (h.smbAnswer ..)

theorem nextSafe_execSmbWarmReset (h : Safe s) : NextSafe (execSmbWarmReset s) :=
  .next (.ite ((h.moduleReset ..).smbAnswer ..) (h.smbAnswer ..))

theorem nextSafe_execSmbColdReset (h : Safe s) : NextSafe (execSmbColdReset s) :=
  .next (.ite ((h.moduleReset ..).smbAnswer ..) (h.smbAnswer ..))

theorem nextSafe_execSmbInvalidCommand (h : Safe s) (code data) : NextSafe (execSmbInvalidCommand code data s) :=
  .onlyIf h (h.smbAnswer ..)

/-! ### Sys2Proof/Machine/Misc.lean -/

theorem nextSafe_execTidePllLock (h : Safe s) : NextSafe (execTidePllLock s) := .onlyIf h h.same

theorem nextSafe_execUartRx (h : Safe s) (c) : NextSafe (execUartRx c s) := .onlyIf h h.same

theorem Safe.plainWrite (h : Safe s) (m b o v) : Safe (s.plainWrite m b o v) := by
  unfold State.plainWrite
  extract_lets
  split
  · exact h
  · extract_lets t
    have ht : Safe t := h.setReg ..
    split
    · exact h
    · split
      · exact ht.setReg ..
      · exact ht

theorem Safe.ttWrite (h : Safe s) (o v) : Safe (s.ttWrite o v) := by
  unfold State.ttWrite
  extract_lets
  split
  · exact h
  · split
    · exact h.setTt ..
    · exact h.setTt ..
    · exact h.setTt ..
    · exact .ite h (h.setTt ..)
    · exact h

theorem Safe.msixWrite (h : Safe s) (f k w v) : Safe (s.msixWrite f k w v) := h.same

theorem Safe.gsPlain (h : Safe s) (v) : Safe (s.gsPlain v) := .ite h (h.setReg ..)

theorem Safe.errMaskWrite (h : Safe s) (m v) : Safe (s.errMaskWrite m v) := by
  unfold State.errMaskWrite
  extract_lets t
  have ht : Safe t := h.plainWrite ..
  exact .ite (ht.sendVec ..) ht

theorem Safe.regWrite (h : Safe s) (m b o v) : Safe (s.regWrite m b o v) :=
  .ite h.same
    (.ite (.ite (h.modIsl ..) h)
      (.ite (.ite h.same h) (.ite (h.ttWrite ..) (.ite (h.errMaskWrite ..) (.ite (h.gsPlain ..) (h.plainWrite ..))))))

theorem nextSafe_execRegisterWrite (h : Safe s) (m o v) : NextSafe (execRegisterWrite m o v s) := by
  unfold execRegisterWrite
  split
  · exact .onlyIf h (h.msixWrite ..)
  · split
    · exact .next h
    · exact .ite (.onlyIf h (h.msixWrite ..)) (.agentIf h (h.regWrite ..))

/-! ### O52: every command and the idle step keep a safe state safe -/

/-- Every command answers a next state, and a safe one. -/
theorem nextSafe_exec (h : Safe s) (c : Instr) : NextSafe (exec c s) := by
  cases c with
  | ringTransferInject => exact nextSafe_execRingTransferInject h ..
  | ringTransferDeliver => exact nextSafe_execRingTransferDeliver h ..
  | bridgeDown => exact nextSafe_execBridgeDown h ..
  | clockDomainStop => exact nextSafe_execClockDomainStop h ..
  | ocxoStable => exact nextSafe_execOcxoStable h
  | esCtrlEnable => exact nextSafe_execEsCtrlEnable h ..
  | esCtrlStop => exact nextSafe_execEsCtrlStop h ..
  | esCtrlUnstop => exact nextSafe_execEsCtrlUnstop h ..
  | esCtrlAbort => exact nextSafe_execEsCtrlAbort h ..
  | esAbortSettle => exact nextSafe_execEsAbortSettle h ..
  | esCtrlResume => exact nextSafe_execEsCtrlResume h ..
  | esCtrlClrCnt => exact nextSafe_execEsCtrlClrCnt h ..
  | esSPush => exact nextSafe_execEsSPush h ..
  | esPPush => exact nextSafe_execEsPPush h ..
  | esStageFetch => exact nextSafe_execEsStageFetch h ..
  | esStageDataArrive => exact nextSafe_execEsStageDataArrive h ..
  | esShadowValid => exact nextSafe_execEsShadowValid h ..
  | esSwapBegin => exact nextSafe_execEsSwapBegin h ..
  | esPassStart => exact nextSafe_execEsPassStart h ..
  | esOperandArrive => exact nextSafe_execEsOperandArrive h ..
  | esRowWrite => exact nextSafe_execEsRowWrite h ..
  | esPassDone => exact nextSafe_execEsPassDone h ..
  | esPassError => exact nextSafe_execEsPassError h ..
  | esCntLoRead => exact nextSafe_execEsCntLoRead h ..
  | dlCtrlEnable => exact nextSafe_execDlCtrlEnable h ..
  | dlCtrlStop => exact nextSafe_execDlCtrlStop h ..
  | dlCtrlUnstop => exact nextSafe_execDlCtrlUnstop h ..
  | dlCtrlAbort => exact nextSafe_execDlCtrlAbort h ..
  | dlCtrlResume => exact nextSafe_execDlCtrlResume h ..
  | dlCtrlClrCnt => exact nextSafe_execDlCtrlClrCnt h ..
  | dlJPush => exact nextSafe_execDlJPush h ..
  | dlActLoad => exact nextSafe_execDlActLoad h ..
  | dlJobStart => exact nextSafe_execDlJobStart h ..
  | dlJobDone => exact nextSafe_execDlJobDone h ..
  | dlJobError => exact nextSafe_execDlJobError h ..
  | dlCntLoRead => exact nextSafe_execDlCntLoRead h ..
  | bankAccess => exact nextSafe_execBankAccess h ..
  | eccWriteback => exact nextSafe_execEccWriteback h ..
  | bankAtomic => exact nextSafe_execBankAtomic h ..
  | hbmAtomic => exact nextSafe_execHbmAtomic h ..
  | bkCtrlClrEcc => exact nextSafe_execBkCtrlClrEcc h ..
  | bkCtrlClrConf => exact nextSafe_execBkCtrlClrConf h ..
  | bkRuleWrite => exact nextSafe_execBkRuleWrite h ..
  | bkDrEnableWrite => exact nextSafe_execBkDrEnableWrite h ..
  | dredgeRegionStart => exact nextSafe_execDredgeRegionStart h ..
  | dredgeCopyDone => exact nextSafe_execDredgeCopyDone h ..
  | dredgeMarchDone => exact nextSafe_execDredgeMarchDone h ..
  | dredgeRegionDone => exact nextSafe_execDredgeRegionDone h ..
  | descGemm => exact nextSafe_execDescGemm h ..
  | descGemmBatched => exact nextSafe_execDescGemmBatched h ..
  | descConv1d => exact nextSafe_execDescConv1d h ..
  | descConvert => exact nextSafe_execDescConvert h ..
  | descGatherGemm => exact nextSafe_execDescGatherGemm h ..
  | descRoutine => exact nextSafe_execDescRoutine h ..
  | descBadOpcode => exact nextSafe_execDescBadOpcode h ..
  | spanScan => exact nextSafe_execSpanScan h ..
  | tileClaim => exact nextSafe_execTileClaim h ..
  | operandStageCopy => exact nextSafe_execOperandStageCopy h ..
  | tileDone => exact nextSafe_execTileDone h ..
  | tileHandback => exact nextSafe_execTileHandback h ..
  | handbackTake => exact nextSafe_execHandbackTake h ..
  | descriptorAbort => exact nextSafe_execDescriptorAbort h ..
  | submit => exact nextSafe_execSubmit h ..
  | pause => exact nextSafe_execPause h ..
  | resume => exact nextSafe_execResume h ..
  | cancel => exact nextSafe_execCancel h ..
  | touch => exact nextSafe_execTouch h ..
  | sqBadOpcode => exact nextSafe_execSqBadOpcode h ..
  | promptReadDone => exact nextSafe_execPromptReadDone h ..
  | prefillPlace => exact nextSafe_execPrefillPlace h ..
  | prefillDone => exact nextSafe_execPrefillDone h ..
  | decodeStepBoundary => exact nextSafe_execDecodeStepBoundary h ..
  | decodeStepStart => exact nextSafe_execDecodeStepStart h
  | berthSliceArrive => exact nextSafe_execBerthSliceArrive h ..
  | pullSourceError => exact nextSafe_execPullSourceError h ..
  | mirrorCopyDone => exact nextSafe_execMirrorCopyDone h ..
  | checkpointCommit => exact nextSafe_execCheckpointCommit h ..
  | checkpointFail => exact nextSafe_execCheckpointFail h ..
  | pauseComplete => exact nextSafe_execPauseComplete h ..
  | expirySweep => exact nextSafe_execExpirySweep h
  | manifestQuietEnd => exact nextSafe_execManifestQuietEnd h ..
  | btRebuildStart => exact nextSafe_execBtRebuildStart h
  | hmBtStart => exact nextSafe_execHmBtStart h ..
  | btRebuildPassEnd => exact nextSafe_execBtRebuildPassEnd h
  | btFlip => exact nextSafe_execBtFlip h
  | btRebuildRestart => exact nextSafe_execBtRebuildRestart h
  | hmSlotLoad => exact nextSafe_execHmSlotLoad h ..
  | slotLoadDone => exact nextSafe_execSlotLoadDone h ..
  | hmSlotUnload => exact nextSafe_execHmSlotUnload h ..
  | hmSlotUnloadForce => exact nextSafe_execHmSlotUnloadForce h ..
  | slotDrainDone => exact nextSafe_execSlotDrainDone h ..
  | hmCkptWrite => exact nextSafe_execHmCkptWrite h ..
  | hmQuietWrite => exact nextSafe_execHmQuietWrite h ..
  | rakeSelect => exact nextSafe_execRakeSelect h ..
  | sieveSelect => exact nextSafe_execSieveSelect h ..
  | specDraft => exact nextSafe_execSpecDraft h ..
  | specVerify => exact nextSafe_execSpecVerify h ..
  | sieveImageLoad => exact nextSafe_execSieveImageLoad h ..
  | svStoreStart => exact nextSafe_execSvStoreStart h ..
  | svRebuildStart => exact nextSafe_execSvRebuildStart h
  | svRebuildPassEnd => exact nextSafe_execSvRebuildPassEnd h
  | svStoreFlip => exact nextSafe_execSvStoreFlip h
  | svRebuildRestart => exact nextSafe_execSvRebuildRestart h
  | quantumBoundary => exact nextSafe_execQuantumBoundary h
  | contextStop => exact nextSafe_execContextStop h ..
  | contextStopDone => exact nextSafe_execContextStopDone h ..
  | contextSaveBegin => exact nextSafe_execContextSaveBegin h ..
  | contextSaveEnd => exact nextSafe_execContextSaveEnd h ..
  | contextRestoreBegin => exact nextSafe_execContextRestoreBegin h ..
  | contextRestoreEnd => exact nextSafe_execContextRestoreEnd h ..
  | cxQuantumWrite => exact nextSafe_execCxQuantumWrite h ..
  | cxMarginWrite => exact nextSafe_execCxMarginWrite h ..
  | cxVfWrite => exact nextSafe_execCxVfWrite h ..
  | ttEntrySubmit => exact nextSafe_execTtEntrySubmit h ..
  | ttEntryCancel => exact nextSafe_execTtEntryCancel h ..
  | ttStopDue => exact nextSafe_execTtStopDue h ..
  | ttReleaseDue => exact nextSafe_execTtReleaseDue h ..
  | ttReady => exact nextSafe_execTtReady h ..
  | ttStart => exact nextSafe_execTtStart h ..
  | ttLateArrayFree => exact nextSafe_execTtLateArrayFree h ..
  | ttEnd => exact nextSafe_execTtEnd h ..
  | ttRingDoorbell => exact nextSafe_execTtRingDoorbell h ..
  | fhCplaneRx => exact nextSafe_execFhCplaneRx h ..
  | fhUplaneRx => exact nextSafe_execFhUplaneRx h ..
  | agcSymbolUpdate => exact nextSafe_execAgcSymbolUpdate h ..
  | agcFreezeEnd => exact nextSafe_execAgcFreezeEnd h ..
  | fhAgcRel => exact nextSafe_execFhAgcRel h ..
  | fhAgcCfgWrite => exact nextSafe_execFhAgcCfgWrite h ..
  | fhPortCfgWrite => exact nextSafe_execFhPortCfgWrite h ..
  | prachOccasion => exact nextSafe_execPrachOccasion h ..
  | fftJobQueue => exact nextSafe_execFftJobQueue h ..
  | fftJobDone => exact nextSafe_execFftJobDone h ..
  | dibberSymIrq => exact nextSafe_execDibberSymIrq h ..
  | dibberSlotIrq => exact nextSafe_execDibberSlotIrq h ..
  | dibberReti => exact nextSafe_execDibberReti h ..
  | dibberCmac => exact nextSafe_execDibberCmac h ..
  | dibberStore => exact nextSafe_execDibberStore h ..
  | dibberLaneOp => exact nextSafe_execDibberLaneOp h ..
  | dbCtrlReset => exact nextSafe_execDbCtrlReset h ..
  | dbCtrlRun => exact nextSafe_execDbCtrlRun h ..
  | slotConfigRx => exact nextSafe_execSlotConfigRx h ..
  | ulConfigLate => exact nextSafe_execUlConfigLate h ..
  | dlConfigLate => exact nextSafe_execDlConfigLate h ..
  | nrxCompletionWord => exact nextSafe_execNrxCompletionWord h ..
  | fhPlanLoad => exact nextSafe_execFhPlanLoad h ..
  | fhPlanUnload => exact nextSafe_execFhPlanUnload h ..
  | fhPlanCancel => exact nextSafe_execFhPlanCancel h ..
  | fhPlanActivate => exact nextSafe_execFhPlanActivate h
  | cellShed => exact nextSafe_execCellShed h
  | dsSqDoorbell => exact nextSafe_execDsSqDoorbell h ..
  | dsCqHeadWrite => exact nextSafe_execDsCqHeadWrite h ..
  | dsJobCopy => exact nextSafe_execDsJobCopy h ..
  | dsLdpcDec => exact nextSafe_execDsLdpcDec h ..
  | dsLdpcEnc => exact nextSafe_execDsLdpcEnc h ..
  | dsPolarDec => exact nextSafe_execDsPolarDec h ..
  | dsPolarEnc => exact nextSafe_execDsPolarEnc h ..
  | dsTbEnc => exact nextSafe_execDsTbEnc h ..
  | dsTbDec => exact nextSafe_execDsTbDec h ..
  | dsNselRead => exact nextSafe_execDsNselRead h ..
  | dsJobLate => exact nextSafe_execDsJobLate h ..
  | dsCtrlAbort => exact nextSafe_execDsCtrlAbort h ..
  | dsCtrlEnable => exact nextSafe_execDsCtrlEnable h ..
  | dsHarqFree => exact nextSafe_execDsHarqFree h ..
  | dsHarqPrefetch => exact nextSafe_execDsHarqPrefetch h ..
  | harqSpill => exact nextSafe_execHarqSpill h
  | harqSpillDone => exact nextSafe_execHarqSpillDone h ..
  | tdRawLoRead => exact nextSafe_execTdRawLoRead h ..
  | tdAdjRate => exact nextSafe_execTdAdjRate h ..
  | tdAdjStep => exact nextSafe_execTdAdjStep h ..
  | tdAdjSet => exact nextSafe_execTdAdjSet h ..
  | tdAdjApply => exact nextSafe_execTdAdjApply h
  | tdSrcWrite => exact nextSafe_execTdSrcWrite h ..
  | tdFrameOfsWrite => exact nextSafe_execTdFrameOfsWrite h ..
  | ptpRx => exact nextSafe_execPtpRx h ..
  | ptpSyncTx => exact nextSafe_execPtpSyncTx h ..
  | ptpTcForward => exact nextSafe_execPtpTcForward h ..
  | tcEntryExpire => exact nextSafe_execTcEntryExpire h ..
  | zlTimeFlit => exact nextSafe_execZlTimeFlit h ..
  | servoSourceLost => exact nextSafe_execServoSourceLost h ..
  | servoSourceReturn => exact nextSafe_execServoSourceReturn h ..
  | strobeFire => exact nextSafe_execStrobeFire h ..
  | tdStbCfgWrite => exact nextSafe_execTdStbCfgWrite h ..
  | ppsOutPulse => exact nextSafe_execPpsOutPulse h ..
  | tdPpsCfgWrite => exact nextSafe_execTdPpsCfgWrite h ..
  | captureEdge => exact nextSafe_execCaptureEdge h ..
  | barrierArm => exact nextSafe_execBarrierArm h ..
  | barrierFire => exact nextSafe_execBarrierFire h
  | zlLinkCtrlWrite => exact nextSafe_execZlLinkCtrlWrite h ..
  | linkTrained => exact nextSafe_execLinkTrained h ..
  | linkLoss => exact nextSafe_execLinkLoss h ..
  | linkFlitReplay => exact nextSafe_execLinkFlitReplay h ..
  | linkReplayLimit => exact nextSafe_execLinkReplayLimit h ..
  | zlRequestIssue => exact nextSafe_execZlRequestIssue h ..
  | zlForward => exact nextSafe_execZlForward h ..
  | zlLoadReq => exact nextSafe_execZlLoadReq h ..
  | zlLoadRsp => exact nextSafe_execZlLoadRsp h ..
  | zlStore => exact nextSafe_execZlStore h ..
  | zlStoreAck => exact nextSafe_execZlStoreAck h ..
  | zlAtomicReq => exact nextSafe_execZlAtomicReq h ..
  | zlAtomicRsp => exact nextSafe_execZlAtomicRsp h ..
  | zlPutData => exact nextSafe_execZlPutData h ..
  | zlPutAck => exact nextSafe_execZlPutAck h ..
  | zlGetReq => exact nextSafe_execZlGetReq h ..
  | zlGetData => exact nextSafe_execZlGetData h ..
  | zlTrigger => exact nextSafe_execZlTrigger h ..
  | zlTrigAck => exact nextSafe_execZlTrigAck h ..
  | zlBadType => exact nextSafe_execZlBadType h ..
  | zlCopyPut => exact nextSafe_execZlCopyPut h ..
  | zlCopyGet => exact nextSafe_execZlCopyGet h ..
  | zlFence => exact nextSafe_execZlFence h ..
  | zlRequestTimeout => exact nextSafe_execZlRequestTimeout h ..
  | zlAtomicRetry => exact nextSafe_execZlAtomicRetry h ..
  | zlAtomicFinal => exact nextSafe_execZlAtomicFinal h ..
  | zlRcExpire => exact nextSafe_execZlRcExpire h ..
  | zlTagRelease => exact nextSafe_execZlTagRelease h ..
  | lockFlush => exact nextSafe_execLockFlush h ..
  | zlQtInv => exact nextSafe_execZlQtInv h ..
  | zlQtInvDone => exact nextSafe_execZlQtInvDone h
  | zlQtSweep => exact nextSafe_execZlQtSweep h
  | zlEnable => exact nextSafe_execZlEnable h ..
  | zlBusyWindowEnd => exact nextSafe_execZlBusyWindowEnd h
  | zlTimeoutWrite => exact nextSafe_execZlTimeoutWrite h ..
  | fhTxEnqueue => exact nextSafe_execFhTxEnqueue h ..
  | zlTxEnqueue => exact nextSafe_execZlTxEnqueue h ..
  | fhTxRelease => exact nextSafe_execFhTxRelease h ..
  | fhTxDeadline => exact nextSafe_execFhTxDeadline h ..
  | egressSelect => exact nextSafe_execEgressSelect h ..
  | egressTxEnd => exact nextSafe_execEgressTxEnd h ..
  | egressSample => exact nextSafe_execEgressSample h ..
  | eqCfgWrite => exact nextSafe_execEqCfgWrite h ..
  | eqRateWrite => exact nextSafe_execEqRateWrite h ..
  | eqHicredWrite => exact nextSafe_execEqHicredWrite h ..
  | pcieLinkTrained => exact nextSafe_execPcieLinkTrained h ..
  | pcieLinkDown => exact nextSafe_execPcieLinkDown h
  | perstAssert => exact nextSafe_execPerstAssert h
  | pfFlr => exact nextSafe_execPfFlr h
  | vfFlr => exact nextSafe_execVfFlr h ..
  | vfEnableClear => exact nextSafe_execVfEnableClear h
  | vfFlrComplete => exact nextSafe_execVfFlrComplete h ..
  | bar0BadAccess => exact nextSafe_execBar0BadAccess h ..
  | bar2Read => exact nextSafe_execBar2Read h ..
  | bar2Write => exact nextSafe_execBar2Write h ..
  | sqTailDoorbell => exact nextSafe_execSqTailDoorbell h ..
  | sqEntryFetch => exact nextSafe_execSqEntryFetch h ..
  | cqHeadWrite => exact nextSafe_execCqHeadWrite h ..
  | cqModTimer => exact nextSafe_execCqModTimer h ..
  | queueEnable => exact nextSafe_execQueueEnable h ..
  | queueDisable => exact nextSafe_execQueueDisable h ..
  | customsTranslate => exact nextSafe_execCustomsTranslate h ..
  | customsWalkReadDone => exact nextSafe_execCustomsWalkReadDone h ..
  | cuInvRange => exact nextSafe_execCuInvRange h ..
  | cuInvInstance => exact nextSafe_execCuInvInstance h ..
  | cuInvFunction => exact nextSafe_execCuInvFunction h ..
  | cuInvAll => exact nextSafe_execCuInvAll h ..
  | cuInvDone => exact nextSafe_execCuInvDone h
  | cuCacheSweep => exact nextSafe_execCuCacheSweep h
  | cuCtrlWrite => exact nextSafe_execCuCtrlWrite h ..
  | fatalError => exact nextSafe_execFatalError h ..
  | hmDetWrite => exact nextSafe_execHmDetWrite h ..
  | detPropagated => exact nextSafe_execDetPropagated h
  | hmProvCfgWrite => exact nextSafe_execHmProvCfgWrite h ..
  | islandPfReq => exact nextSafe_execIslandPfReq h ..
  | islandFwReq => exact nextSafe_execIslandFwReq h ..
  | islandEntryBegin => exact nextSafe_execIslandEntryBegin h ..
  | islandEntryDone => exact nextSafe_execIslandEntryDone h ..
  | islandExitBegin => exact nextSafe_execIslandExitBegin h ..
  | islandExitDone => exact nextSafe_execIslandExitDone h ..
  | islandRelease => exact nextSafe_execIslandRelease h ..
  | islandShort => exact nextSafe_execIslandShort h ..
  | sluiceTick => exact nextSafe_execSluiceTick h ..
  | operatingPointChange => exact nextSafe_execOperatingPointChange h ..
  | inputLimitEmergency => exact nextSafe_execInputLimitEmergency h
  | emergencyClear => exact nextSafe_execEmergencyClear h
  | thermalTick => exact nextSafe_execThermalTick h ..
  | thermalTrip => exact nextSafe_execThermalTrip h ..
  | boostHour => exact nextSafe_execBoostHour h
  | sitePwrChange => exact nextSafe_execSitePwrChange h ..
  | throttleAssert => exact nextSafe_execThrottleAssert h ..
  | throttleRelease => exact nextSafe_execThrottleRelease h
  | powerOn => exact nextSafe_execPowerOn h
  | btResetWarm => exact nextSafe_execBtResetWarm h ..
  | btResetCold => exact nextSafe_execBtResetCold h ..
  | romStart => exact nextSafe_execRomStart h ..
  | configRecordDone => exact nextSafe_execConfigRecordDone h
  | romBoot => exact nextSafe_execRomBoot h ..
  | romBootDone => exact nextSafe_execRomBootDone h ..
  | romRecord => exact nextSafe_execRomRecord h ..
  | romRecordDone => exact nextSafe_execRomRecordDone h ..
  | romExit => exact nextSafe_execRomExit h ..
  | bootOkWrite => exact nextSafe_execBootOkWrite h ..
  | bootWatchdog => exact nextSafe_execBootWatchdog h
  | salvageReqWrite => exact nextSafe_execSalvageReqWrite h ..
  | updStage => exact nextSafe_execUpdStage h ..
  | updStageDone => exact nextSafe_execUpdStageDone h ..
  | updDiscard => exact nextSafe_execUpdDiscard h ..
  | updArm => exact nextSafe_execUpdArm h ..
  | updDisarm => exact nextSafe_execUpdDisarm h ..
  | updSwitch => exact nextSafe_execUpdSwitch h
  | helmGive => exact nextSafe_execHelmGive h ..
  | updAbandon => exact nextSafe_execUpdAbandon h
  | helmBeat => exact nextSafe_execHelmBeat h ..
  | helmBeatTimeout => exact nextSafe_execHelmBeatTimeout h
  | lcRequest => exact nextSafe_execLcRequest h ..
  | lcExitDebug => exact nextSafe_execLcExitDebug h ..
  | tamperEvent => exact nextSafe_execTamperEvent h ..
  | marginEval => exact nextSafe_execMarginEval h ..
  | marginMinReset => exact nextSafe_execMarginMinReset h ..
  | hmAdopt => exact nextSafe_execHmAdopt h ..
  | hmAdoptDone => exact nextSafe_execHmAdoptDone h
  | stbyArm => exact nextSafe_execStbyArm h ..
  | stbyDisarm => exact nextSafe_execStbyDisarm h ..
  | heartbeatSend => exact nextSafe_execHeartbeatSend h ..
  | standbyCheck => exact nextSafe_execStandbyCheck h ..
  | obsSample => exact nextSafe_execObsSample h ..
  | hmTrcRdWrite => exact nextSafe_execHmTrcRdWrite h ..
  | hmTrcCfgWrite => exact nextSafe_execHmTrcCfgWrite h ..
  | gsArm => exact nextSafe_execGsArm h ..
  | gsFire => exact nextSafe_execGsFire h
  | gsCaptureClose => exact nextSafe_execGsCaptureClose h
  | gsRelease => exact nextSafe_execGsRelease h ..
  | smbStatus => exact nextSafe_execSmbStatus h ..
  | smbModule => exact nextSafe_execSmbModule h
  | smbDieSel => exact nextSafe_execSmbDieSel h ..
  | smbDieId => exact nextSafe_execSmbDieId h
  | smbFwDigest => exact nextSafe_execSmbFwDigest h
  | smbStbyDigest => exact nextSafe_execSmbStbyDigest h
  | smbMargin => exact nextSafe_execSmbMargin h
  | smbWarmReset => exact nextSafe_execSmbWarmReset h
  | smbColdReset => exact nextSafe_execSmbColdReset h
  | smbInvalidCommand => exact nextSafe_execSmbInvalidCommand h ..
  | inputDip => exact nextSafe_execInputDip h
  | inputInvalid => exact nextSafe_execInputInvalid h
  | inputOvervoltage => exact nextSafe_execInputOvervoltage h
  | registerWrite => exact nextSafe_execRegisterWrite h ..
  | tidePllLock => exact nextSafe_execTidePllLock h
  | perstDeassert => exact nextSafe_execPerstDeassert h
  | pciPmStateWrite => exact nextSafe_execPciPmStateWrite h ..
  | vfEnableSet => exact nextSafe_execVfEnableSet h
  | lidClose => exact nextSafe_execLidClose h
  | uartRx => exact nextSafe_execUartRx h ..
  | fhRxWindowClose => exact nextSafe_execFhRxWindowClose h ..

end

/-- Settles O52: the idle step moves the clock on, and every command keeps the state safe. -/
theorem stepKeepsSafe : Obligations.StepKeepsSafe := by
  unfold Obligations.StepKeepsSafe
  intro s h
  unfold Machine.step
  split
  · exact NextSafe.next h.idle
  · exact nextSafe_exec h.same _

/-! ### O55: a frame that CLR_ECC breaks -/

/-- The module at power-on, but for a value stored beside the registers of HD's bank page (R98): at the odd offset 0x0101, inside
BK_ECC_CORR.  The state is in canonical form all the same. -/
def strayRegister : State := { regs := [(bkReg .hd 0x0101, 1)] }

theorem safe_strayRegister : Safe strayRegister := by
  unfold Safe
  decide +kernel

/-- The registers that CLR_ECC names stand at multiples of 4. -/
theorem four_dvd_of_mem_clrEcc_regSets {m : Agent} {d : Die} {r : RegSet} {o : Nat}
    (hr : r ∈ (Instr.bkCtrlClrEcc m d).regSets) (ho : r.has o) : 4 ∣ o := by
  obtain rfl : r = .grid (bkBlock + 0x0100) 10 0x10000 2 4 := List.mem_singleton.mp hr
  obtain ⟨i, j, -, -, e⟩ := ho
  simp only [RegSet.grid, bkBlock] at e
  omega

/-- CLR_ECC by an agent that may write the page clears every offset from BK_ECC_CORR up to the end of BK_ECC_UNC. -/
theorem exec_clrEcc {m : Agent} {d : Die} {s : State} (ha : s.agentHalted m = false) (hf : s.fenced m = false)
    (hw : s.bkMayWrite m d = true) :
    exec (.bkCtrlClrEcc m d) s = .next (s.resetRegs (bkReg d 0x0100) (bkReg d 0x0108)) :=
  agentIf_acts ha hf hw _

/-- Refutes O55: CLR_ECC and CLR_CONF drop whatever the register file holds in a range of offsets (`State.resetRegs`), but their
frames name only the registers at multiples of 4 in it.  A value stored at offset 0x0101 of HD's bank page is lost to a
CLR_ECC, and no register set of the command holds that offset. -/
theorem not_frameEngines : ¬ Obligations.FrameEngines := by
  unfold Obligations.FrameEngines
  intro h
  obtain ⟨-, hregs, -⟩ := h (.bkCtrlClrEcc (.core .hd 0) .hd) (by decide) (by decide) strayRegister _
    (exec_clrEcc (by decide +kernel) (by decide +kernel) (by decide +kernel))
  have hkept := hregs (bkReg .hd 0x0101) (fun ⟨_, hr, ho⟩ =>
    absurd (four_dvd_of_mem_clrEcc_regSets hr ho) (by decide))
  have hlost : (strayRegister.resetRegs (bkReg .hd 0x0100) (bkReg .hd 0x0108)).reg (bkReg .hd 0x0101) ≠
      strayRegister.reg (bkReg .hd 0x0101) := by decide +kernel
  exact hlost hkept

end Sys2Proof

namespace Sys2Proof
open Machine

/-! ### O1: the ring's routes -/

/-- The route goes the way of fewer hops, and at five hops the way that the parity of its source's position gives. -/
theorem ringRoute_cases (a b : Die) :
    (hopsClockwise a b < 5 → ringClockwise a b = true ∧ ringHops a b = hopsClockwise a b) ∧
    (5 < hopsClockwise a b → ringClockwise a b = false ∧ ringHops a b = 10 - hopsClockwise a b) ∧
    (hopsClockwise a b = 5 → ringHops a b = 5 ∧ (ringClockwise a b = true ↔ a.position % 2 = 0)) := by
  unfold ringClockwise ringHops
  refine ⟨fun h => ⟨if_pos h, by omega⟩, fun h => ⟨?_, by omega⟩, fun h => ⟨by omega, ?_⟩⟩
  · rw [if_neg (by omega), if_pos h]
  · simp [h]

/-- Settles O1: what is put on the ring carries its issuer, its class and the route of its two dies. -/
theorem ringRoute : Obligations.RingRoute := by
  unfold Obligations.RingRoute
  intro s a b m kind payload hab hmoor ha hb hm hdown
  refine ⟨_, onlyIf_true ?_ _ _, _, rfl, rfl, rfl, rfl, rfl, rfl, rfl, ringRoute_cases a b⟩
  simpa [hab, hmoor, ha, hb, hm] using hdown

/-! ### O2: the ring, the bridges, the clocks and the PLLs -/

/-- A transfer with the hops that it has made left out of account. -/
def Machine.Transfer.unmoved (x : Transfer) : Transfer := { x with made := 0 }

/-- Two states of the ring that differ in the hops made, the turns, the counts and the bridges alone. -/
def SameTraffic (r q : Ring) : Prop :=
  q.flight.map Transfer.unmoved = r.flight.map Transfer.unmoved ∧ q.arrived = r.arrived

theorem map_lmod {α β : Type} {f : α → α} {g : α → β} (h : ∀ x, g (f x) = g x) (l : List α) (i : Nat) :
    (lmod l i f).map g = l.map g := by
  induction l generalizing i with
  | nil => rfl
  | cons x xs ih => cases i <;> simp [lmod, h, ih]

theorem map_lrmFirst {α : Type} {p : α → Bool} {f : α → α} (h : ∀ x, p (f x) = p x) (l : List α) :
    (lrmFirst p l).map f = lrmFirst p (l.map f) := by
  induction l with
  | nil => rfl
  | cons x xs ih =>
    simp only [lrmFirst, List.map_cons, h]
    split
    · rfl
    · rw [List.map_cons, ih]

theorem lrmFirst_append_cons {α : Type} {p : α → Bool} {l r : List α} {x : α} (hl : ∀ y ∈ l, p y = false) (hx : p x = true) :
    lrmFirst p (l ++ x :: r) = l ++ r := by
  induction l with
  | nil => simp [lrmFirst, hx]
  | cons y l ih =>
    obtain ⟨hy, hl⟩ := List.forall_mem_cons.mp hl
    simp [lrmFirst, hy, ih hl]

/-- What a grant does to the transfer that leaves the stop, in the order of the classes. -/
theorem flight_grant {r : Ring} {p i : Nat} {cw transit : Bool}
    (h : r.pickOf p cw .radio = some (i, transit) ∨
      (r.pickOf p cw .radio = none ∧ r.pickOf p cw .control = some (i, transit)) ∨
      (r.pickOf p cw .radio = none ∧ r.pickOf p cw .control = none ∧ r.pickOf p cw .bulk = some (i, transit))) :
    (r.grant p cw).flight = lmod r.flight i (fun t => { t with made := t.made + 1 }) := by
  unfold Ring.grant
  obtain h | ⟨h₁, h⟩ | ⟨h₁, h₂, h⟩ := h
  · simp [h]
  · simp [h₁, h]
  · simp [h₁, h₂, h]

theorem sameTraffic_grant {r q : Ring} (h : SameTraffic r q) (p : Nat) (cw : Bool) : SameTraffic r (q.grant p cw) := by
  unfold Ring.grant
  split
  · exact h
  · obtain ⟨hflight, harrived⟩ := h
    exact ⟨(map_lmod (g := Transfer.unmoved) (f := fun t => { t with made := t.made + 1 }) (fun _ => rfl) ..).trans hflight, harrived⟩

theorem sameTraffic_round {r q : Ring} (h : SameTraffic r q) : SameTraffic r q.round :=
  List.foldlRecOn (motive := SameTraffic r) _ _ h fun _ hq _ _ => sameTraffic_grant hq ..

theorem sameTraffic_carry {r q : Ring} (h : SameTraffic r q) (a b : Die) (cls : RingClass) (n : Nat) :
    SameTraffic r (Ring.carry a b cls n q) := by
  induction n generalizing q with
  | zero => exact h
  | succ n ih =>
    unfold Ring.carry
    split
    · exact h
    · exact ih (sameTraffic_round h)

/-- The oldest transfer of a pair and class leaves the ring, wherever the stops have taken the others meanwhile. -/
theorem flight_delivered {q : Ring} {a b : Die} {cls : RingClass} {l r : List Transfer} {x : Transfer}
    (hl : ∀ y ∈ l, y.isOf a b cls = false) (hx : x.isOf a b cls = true)
    (hq : q.flight.map Transfer.unmoved = (l ++ x :: r).map Transfer.unmoved) :
    (lrmFirst (Transfer.isOf a b cls) q.flight).map Transfer.unmoved = (l ++ r).map Transfer.unmoved := by
  have hof (y : Transfer) : y.unmoved.isOf a b cls = y.isOf a b cls := rfl
  rw [map_lrmFirst hof, hq, ← map_lrmFirst hof, lrmFirst_append_cons hl hx]

theorem runs_ringTransferDeliver {s : State} {a b : Die} {cls : RingClass} {l r : List Transfer} {x : Transfer}
    (hs : s.ring.flight = l ++ x :: r) (hl : ∀ y ∈ l, y.isOf a b cls = false) (hx : x.isOf a b cls = true)
    (hrun : s.obs.stopped = false) (cor : List (Fin 10)) :
    Runs (.ringTransferDeliver a b cls cor) s (fun t =>
      t.ring.flight.map Transfer.unmoved = (l ++ r).map Transfer.unmoved ∧
      t.ring.arrived = s.ring.arrived ++ [{ x with made := x.hops }]) := by
  obtain ⟨hflight, harrived⟩ := sameTraffic_carry (r := s.ring) ⟨rfl, rfl⟩ a b cls s.ring.due
  have hfind : s.ring.flight.find? (Transfer.isOf a b cls) = some x := by
    rw [hs, List.find?_append, List.find?_eq_none.mpr (by simpa using hl)]
    simp [hx]
  have hexec : exec (.ringTransferDeliver a b cls cor) s = execRingTransferDeliver a b cls cor s := rfl
  unfold Runs
  rw [hexec, execRingTransferDeliver, hfind]
  simp only [hrun, Bool.false_and, Bool.false_eq_true, if_false]
  exact ⟨_, rfl, flight_delivered hl hx (hs ▸ hflight), congrArg (· ++ _) harrived⟩

theorem regN_bootFailed (s : State) (o : Nat) : s.bootFailed.regN o = s.regN o := by
  unfold State.bootFailed
  split <;> rfl

/-- BT_FATAL holds the cause and the die of the first fatal error (R425). -/
theorem regN_raiseFatal {s : State} (h : tsorted 0 s.regs = true) (hf : s.fatal = false) (cause die : Nat) :
    (s.raiseFatal cause die).regN (btBlock + 0x300) = 2 ^ 31 + die % 256 * 2 ^ 16 + cause % 256 := by
  have hf' : ¬ s.boot.fatalNow = true := Bool.eq_false_iff.mp hf
  unfold State.raiseFatal
  rw [if_neg hf']
  calc (((s.setReg (btBlock + 0x300) _).bootFailed).setRegB (tdBlock + 0x1000) 0 0 0).regN (btBlock + 0x300)
      = (s.setReg (btBlock + 0x300) (2 ^ 31 + die % 256 * 2 ^ 16 + cause % 256)).regN (btBlock + 0x300) := by
        rw [State.regN_setRegB_other _ _ (by decide), regN_bootFailed]
    _ = _ := by
        rw [s.regN_setReg_same h]
        omega

theorem fatal_raiseFatal (s : State) (cause die : Nat) : (s.raiseFatal cause die).fatal = true := by
  unfold State.raiseFatal
  split
  · assumption
  · rfl

theorem ring_raiseFatal (s : State) (cause die : Nat) : (s.raiseFatal cause die).ring = s.ring := by
  unfold State.raiseFatal State.bootFailed
  split
  · rfl
  · dsimp only
    split <;> rfl

theorem runs_bridgeDown {s : State} (h : Safe s) (hf : s.fatal = false) (p : Fin 10) :
    Runs (.bridgeDown p) s (fun t => p.val ∈ t.ring.down ∧ t.fatal = true ∧
      t.regN (btBlock + 0x300) = 2 ^ 31 + 0xFF * 2 ^ 16 + 1) := by
  obtain ⟨-, -, hregs, -⟩ := h
  refine ⟨_, rfl, ?_, fatal_raiseFatal .., ?_⟩
  · rw [ring_raiseFatal]
    dsimp only
    split
    · simp_all
    · exact List.mem_append_right _ (List.mem_singleton_self _)
  · refine (regN_raiseFatal ?_ ?_ 1 0xFF).trans rfl
    · exact hregs
    · exact hf

theorem runs_clockDomainStop {s : State} {d : ClkDomain} (hd : d.always = false) (hu : s.domainUsed d = false)
    (hplan : d = .rdc → s.planLoaded = false) :
    Runs (.clockDomainStop d) s (fun t =>
      d ∉ t.clk.running ∧ ∀ x, x ≠ d → (x ∈ t.clk.running ↔ x ∈ s.clk.running)) := by
  refine ⟨_, onlyIf_true ?_ _ _, by simp, fun x hx => by simp [hx]⟩
  by_cases h : d = .rdc
  · simp [hd, hu, hplan h]
  · simp [hd, hu, h]

theorem runs_tidePllLock {s : State} (hp : s.boot.powered = true) (ho : s.clk.ocxo = true) (hl : s.clk.tideLock = false) :
    Runs .tidePllLock s (fun t => t.clk.tideLock = true ∧ t.clk.refOut = true ∧ t.td.raw = 0 ∧ t.now = 0 ∧
      ∀ d ∈ [ClkDomain.tide, .moor, .pilot, .pcie], d ∈ t.clk.running) := by
  refine ⟨_, onlyIf_true (by simp [hp, ho, hl]) _ _, rfl, rfl, rfl,
    by simp [State.now, State.cAt, cExact], fun d hd => ?_⟩
  by_cases h : d ∈ s.clk.running
  · exact List.mem_append_left _ h
  · exact List.mem_append_right _ (List.mem_filter.mpr ⟨hd, by simpa using h⟩)

/-- Settles O2, from the lemmas about each of the commands. -/
theorem packageEvents : Obligations.PackageEvents := by
  unfold Obligations.PackageEvents
  exact ⟨fun s a b cls cor l r x hs hl hx hrun => runs_ringTransferDeliver hs hl hx hrun cor,
    fun r p cw i transit h => flight_grant h,
    fun s p h hf => runs_bridgeDown h hf p,
    fun s d hd hu hplan => runs_clockDomainStop hd hu hplan,
    fun s => rfl,
    fun s hp ho hl => runs_tidePllLock hp ho hl⟩

end Sys2Proof

namespace Sys2Proof
open Machine

/-! ### O50: the state after reset -/

/-- A register of a row stands at the row's base and strides. -/
theorem has_iff {r : RegRow} (h : 0 < r.s1) {o : Nat} :
    r.has o = true ↔ ∃ j < r.n2, ∃ i < r.n1, o = r.base + j * r.s2 + i * r.s1 := by
  simp only [RegRow.has, Bool.and_eq_true, decide_eq_true_eq, List.any_eq_true, List.mem_range, beq_iff_eq]
  constructor
  · rintro ⟨-, j, hj, ⟨hb, hz⟩, hi⟩
    refine ⟨j, hj, _, hi, ?_⟩
    rw [Nat.div_mul_cancel (Nat.dvd_of_mod_eq_zero hz)]
    omega
  · rintro ⟨j, hj, i, hi, rfl⟩
    refine ⟨by omega, j, hj, ⟨by omega, ?_⟩, ?_⟩ <;> rw [Nat.add_sub_cancel_left]
    · exact Nat.mul_mod_left ..
    · rwa [Nat.mul_div_cancel _ h]

/-- The row has no register from lo to hi among those that stand m above a multiple of d: in each of its columns the first
register from lo on is missing or beyond hi, or all its registers stand at another distance above a multiple of d. -/
def misses (lo hi d m : Nat) (r : RegRow) : Bool :=
  (List.range r.n2).all (fun j =>
    let b := r.base + j * r.s2
    let i := (lo + r.s1 - 1 - b) / r.s1
    decide (r.n1 ≤ i) || decide (hi < b + i * r.s1)) ||
  (r.s1 % d == 0 && r.s2 % d == 0 && r.base % d != m)

theorem not_has_of_misses {r : RegRow} {lo hi d m o : Nat} (hr : misses lo hi d m r = true) (hs : 0 < r.s1) (hlo : lo ≤ o)
    (hhi : o ≤ hi) (hm : o % d = m) : r.has o = false := by
  refine Bool.eq_false_iff.mpr fun h => ?_
  obtain ⟨j, hj, i, hi', rfl⟩ := (has_iff hs).mp h
  simp only [misses, Bool.or_eq_true, List.all_eq_true, List.mem_range, decide_eq_true_eq, Bool.and_eq_true, beq_iff_eq,
    bne_iff_ne] at hr
  obtain hr | ⟨⟨h₁, h₂⟩, h₃⟩ := hr
  · have hfirst : (lo + r.s1 - 1 - (r.base + j * r.s2)) / r.s1 ≤ i := by
      rw [← Nat.lt_succ_iff, Nat.div_lt_iff_lt_mul hs, Nat.succ_mul]
      omega
    have := Nat.mul_le_mul_right r.s1 hfirst
    have := hr j hj
    omega
  · refine h₃ ?_
    rw [← hm, Nat.add_mod, Nat.mul_mod i, h₁, Nat.add_mod r.base, Nat.mul_mod j, h₂]
    simp

theorem regRows_strides : ∀ r ∈ regRows, 0 < r.s1 := by decide +kernel

/-- Where every earlier row misses the registers of a range and residue, those of the n-th row read its value. -/
theorem regReset_of_row (n : Nat) {r : RegRow} {lo hi d m o : Nat} (hr : regRows[n]? = some r)
    (hpre : (regRows.take n).all (misses lo hi d m) = true) (hlo : lo ≤ o) (hhi : o ≤ hi) (hm : o % d = m)
    (hhas : r.has o = true) : regReset o = BitVec.ofNat 32 r.reset := by
  obtain ⟨hn, hr⟩ := List.getElem?_eq_some_iff.mp hr
  have hrow : regRow o = some r := by
    refine List.find?_eq_some_iff_getElem.mpr ⟨hhas, n, hn, hr, fun j hj => ?_⟩
    have hmem : regRows[j] ∈ regRows.take n := List.mem_take_iff_getElem.mpr ⟨j, by omega, rfl⟩
    rw [not_has_of_misses (List.all_eq_true.mp hpre _ hmem) (regRows_strides _ (List.getElem_mem _)) hlo hhi hm]
    rfl
  unfold regReset
  rw [hrow]

theorem isl_reset : ∀ i < 499, (State.reset.isl i).st = if i = 497 ∨ i = 498 then .on else .off := by
  intro i hi
  have h : State.reset.isl i = Island.atReset i := by
    simp [State.isl, State.reset, hi]
  simp only [h, Island.atReset, show 497 ≤ i ↔ i = 497 ∨ i = 498 by omega]
  split <;> rfl

/-- The rules of the prompt dies' banks (R100). -/
theorem regReset_bkRule (n : Fin 4) {i : Nat} (hi : i < 192) : regReset (bkReg (.pd n) (0x4000 + 4 * i)) = 0xAAAAAAAA := by
  have hpre : ∀ n : Fin 4, (regRows.take 38).all (misses (bkReg (.pd n) 0x4000) (bkReg (.pd n) 0x42FC) 1 0) = true := by
    decide +kernel
  refine regReset_of_row 38 rfl (hpre n) ?_ ?_ (Nat.mod_one _) ((has_iff (by decide)).mpr ⟨n, n.isLt, i, hi, ?_⟩) <;>
    simp only [bkReg, Die.index] <;> omega

/-- The shares of the functions (R203). -/
theorem regReset_cxVf {f : Nat} (hf : f < 513) : regReset (cxBlock + 0x1000 + 4 * f) = 0x1F0001 := by
  exact regReset_of_row 149 (lo := cxBlock + 0x1000) (hi := cxBlock + 0x1800) rfl (by decide +kernel) (by omega) (by omega)
    (Nat.mod_one _) ((has_iff (by decide)).mpr ⟨0, by decide, f, hf, by dsimp only; omega⟩)

theorem eqReg_fh (p : Fin 8) (q : Fin 2048) (o : Nat) :
    eqReg (EqId.fh p q).key o = fhBlock + 0x40000 + 0x8000 * p + 0x10 * q + o := by
  rw [eqReg, EqId.key, if_pos (by omega)]
  omega

theorem eqReg_zl (z : Fin 36) (q : Fin 256) (o : Nat) :
    eqReg (EqId.zl z q).key o = zlBlock + 0x40000 + 0x1000 * z + 0x10 * q + o := by
  rw [eqReg, EqId.key, if_neg (by omega)]
  omega

/-- A register of a page of fronthaul queues, o above the first. -/
theorem regReset_eq_fh (n o : Nat) {r : RegRow} (hr : regRows[n]? = some r)
    (hpre : (regRows.take n).all (misses (fhBlock + 0x40000) (fhBlock + 0x7FFFF) 0x10 o) = true)
    (hrow : r.base = fhBlock + 0x40000 + o ∧ r.n1 = 2048 ∧ r.s1 = 0x10 ∧ r.n2 = 8 ∧ r.s2 = 0x8000) (ho : o < 0x10)
    (p : Fin 8) (q : Fin 2048) : regReset (eqReg (EqId.fh p q).key o) = BitVec.ofNat 32 r.reset := by
  obtain ⟨hb, hn1, hs1, hn2, hs2⟩ := hrow
  rw [eqReg_fh]
  refine regReset_of_row n hr hpre (by omega) (by omega) ?_
    ((has_iff (by omega)).mpr ⟨p, by omega, q, by omega, by rw [hb, hs1, hs2]; omega⟩)
  simp only [fhBlock]
  omega

/-- A register of a page of Zelic queues, o above the first. -/
theorem regReset_eq_zl (n o : Nat) {r : RegRow} (hr : regRows[n]? = some r)
    (hpre : (regRows.take n).all (misses (zlBlock + 0x40000) (zlBlock + 0x63FFF) 0x10 o) = true)
    (hrow : r.base = zlBlock + 0x40000 + o ∧ r.n1 = 256 ∧ r.s1 = 0x10 ∧ r.n2 = 36 ∧ r.s2 = 0x1000) (ho : o < 0x10)
    (z : Fin 36) (q : Fin 256) : regReset (eqReg (EqId.zl z q).key o) = BitVec.ofNat 32 r.reset := by
  obtain ⟨hb, hn1, hs1, hn2, hs2⟩ := hrow
  rw [eqReg_zl]
  refine regReset_of_row n hr hpre (by omega) (by omega) ?_
    ((has_iff (by omega)).mpr ⟨z, by omega, q, by omega, by rw [hb, hs1, hs2]; omega⟩)
  simp only [zlBlock]
  omega

/-- The configuration and the high credit of the egress queues (R328). -/
theorem regReset_eq (q : EqId) : regReset (eqReg q.key 0) = 1 ∧ regReset (eqReg q.key 8) = 0x4000 := by
  cases q with
  | fh p q => exact ⟨regReset_eq_fh 178 0 rfl (by decide +kernel) (by decide) (by decide) p q,
      regReset_eq_fh 180 8 rfl (by decide +kernel) (by decide) (by decide) p q⟩
  | zl z q => exact ⟨regReset_eq_zl 167 0 rfl (by decide +kernel) (by decide) (by decide) z q,
      regReset_eq_zl 169 8 rfl (by decide +kernel) (by decide) (by decide) z q⟩

/-- Settles O50: the parts by evaluation, and the registers of a large family by the row that lists them. -/
theorem resetState : Obligations.ResetState := by
  unfold Obligations.ResetState
  have hpages : ∀ n : Fin 4, regReset (bkReg (.gd n) 0x0204) = 0x0AB4 ∧ regReset (bkReg (.pd n) 0x0204) = 0x2AE4 ∧
      regReset (bkReg (.pd n) 0x0200) = 1 := by decide +kernel
  refine ⟨rfl, rfl, by decide +kernel, isl_reset, rfl, rfl, rfl, rfl, rfl, rfl, fun _ => rfl, fun _ => rfl, fun _ => rfl,
    by decide +kernel, by decide +kernel, fun n => ?_, by decide +kernel, by decide +kernel, by decide +kernel,
    by decide +kernel, fun f hf => regReset_cxVf hf, by decide +kernel, by decide +kernel, by decide +kernel, regReset_eq⟩
  obtain ⟨hgd, hpd, hen⟩ := hpages n
  exact ⟨hgd, hpd, hen, fun i hi => regReset_bkRule n hi⟩

end Sys2Proof

namespace Sys2Proof
open Machine

/-! ### What most commands keep: the islands, the power and the fuses -/

/-- The islands, the power and the fuses are the same in both states. -/
structure Kept (s t : State) : Prop where
  isl : t.pw.isl = s.pw.isl
  powered : t.boot.powered = s.boot.powered
  fuses : t.boot.fuses = s.boot.fuses

section
variable {s₀ s t : State}

theorem Kept.refl (s : State) : Kept s s := ⟨rfl, rfl, rfl⟩

/-- A state whose islands, power and fuses are those of one that keeps them. -/
theorem Kept.of_eq (h : Kept s₀ s) (hisl : t.pw.isl = s.pw.isl := by rfl) (hpow : t.boot.powered = s.boot.powered := by rfl)
    (hfuses : t.boot.fuses = s.boot.fuses := by rfl) : Kept s₀ t :=
  ⟨hisl.trans h.isl, hpow.trans h.powered, hfuses.trans h.fuses⟩

/-- A change that leaves the islands, the power and the fuses, the sequencers, the registers and the memories as they are. -/
theorem Kept.same (h : Kept s₀ s) {clk ring bk pw td det cfg sh tt fh ds zl eg slots rtn hm obs boot hi cu irq free pending}
    (hisl : pw.isl = s.pw.isl := by rfl) (hpow : boot.powered = s.boot.powered := by rfl)
    (hfuses : boot.fuses = s.boot.fuses := by rfl) :
    Kept s₀ { s with
      clk := clk, ring := ring, bk := bk, pw := pw, td := td, det := det, cfg := cfg, sh := sh, tt := tt, fh := fh, ds := ds
      zl := zl, eg := eg, slots := slots, rtn := rtn, hm := hm, obs := obs, boot := boot, hi := hi, cu := cu, irq := irq
      free := free, pending := pending } :=
  h.of_eq hisl hpow hfuses

theorem Kept.ite {c : Prop} {_ : Decidable c} (hs : Kept s₀ s) (ht : Kept s₀ t) : Kept s₀ (if c then s else t) := by
  split
  · exact hs
  · exact ht

/-- The state of a pair that a pattern takes apart. -/
theorem Kept.of_fst {β : Type} {p : State × β} {b : β} (h : Kept s₀ p.1) (e : p = (t, b)) : Kept s₀ t := by
  rw [e] at h
  exact h

/-- A fold whose steps each keep the parts keeps them. -/
theorem Kept.foldl_fst {α β : Type} {f : State × β → α → State × β} (hf : ∀ y x, Kept s₀ y.1 → Kept s₀ (f y x).1)
    (l : List α) {y : State × β} (hy : Kept s₀ y.1) : Kept s₀ (l.foldl f y).1 :=
  List.foldlRecOn (motive := fun y => Kept s₀ y.1) l f hy (fun y hy x _ => hf y x hy)

/-- An answer that may be none keeps the parts. -/
def SomeKept (s₀ : State) : Option State → Prop
  | none => True
  | some s => Kept s₀ s

theorem SomeKept.of_none : SomeKept s₀ none := trivial

theorem SomeKept.of_some (h : Kept s₀ s) : SomeKept s₀ (some s) := h

theorem SomeKept.kept {o : Option State} (h : SomeKept s₀ o) (e : o = some t) : Kept s₀ t := by
  rw [e] at h
  exact h

theorem SomeKept.ite {c : Prop} {_ : Decidable c} {o p : Option State} (ho : SomeKept s₀ o) (hp : SomeKept s₀ p) :
    SomeKept s₀ (if c then o else p) := by
  split
  · exact ho
  · exact hp

theorem SomeKept.getD {o : Option State} (h : SomeKept s₀ o) (hs : Kept s₀ s) : Kept s₀ (o.getD s) := by
  cases o with
  | none => exact hs
  | some t => exact h.kept rfl

/-- The command answers a next state, and one that keeps the parts. -/
def NextKept (s₀ : State) (o : Out) : Prop := ∃ t, o = .next t ∧ Kept s₀ t

theorem NextKept.next (h : Kept s₀ s) : NextKept s₀ (.next s) := ⟨s, rfl, h⟩

theorem NextKept.onlyIf {p : Bool} (hs : Kept s₀ s) (ht : Kept s₀ t) : NextKept s₀ (onlyIf p s t) := .next (.ite ht hs)

theorem NextKept.ite {c : Prop} {_ : Decidable c} {o u : Out} (ho : NextKept s₀ o) (hu : NextKept s₀ u) :
    NextKept s₀ (if c then o else u) := by
  split
  · exact ho
  · exact hu

theorem NextKept.agentIf {m : Agent} {p : Bool} (hs : Kept s₀ s) (ht : Kept s₀ t) : NextKept s₀ (agentIf m p s t) :=
  .ite (.next hs) (.ite (.next hs.same) (.onlyIf hs ht))

theorem NextKept.unlessHalted {u : StopUnit} {o : Out} (hs : Kept s₀ s) (ho : NextKept s₀ o) :
    NextKept s₀ (unlessHalted s u o) :=
  .ite (.next hs) ho

theorem Kept.setReg (h : Kept s₀ s) (o v) : Kept s₀ (s.setReg o v) := h.of_eq
theorem Kept.resetRegs (h : Kept s₀ s) (lo hi) : Kept s₀ (s.resetRegs lo hi) := h.of_eq
theorem Kept.store (h : Kept s₀ s) (a bs) : Kept s₀ (s.store a bs) := h.of_eq
theorem Kept.clearMem (h : Kept s₀ s) (p) : Kept s₀ (s.clearMem p) := h.of_eq
theorem Kept.putWord (h : Kept s₀ s) (k v) : Kept s₀ (s.putWord k v) := h.of_eq
theorem Kept.writeHost (h : Kept s₀ s) (a bs) : Kept s₀ { s with host := wrBytes s.host a bs } := h.of_eq
theorem Kept.setEs (h : Kept s₀ s) (g e) : Kept s₀ (s.setEs g e) := h.of_eq
theorem Kept.setDl (h : Kept s₀ s) (n e) : Kept s₀ (s.setDl n e) := h.of_eq
theorem Kept.dropEs (h : Kept s₀ s) (p) : Kept s₀ { s with es := tdrop p s.es } := h.of_eq
theorem Kept.dropDl (h : Kept s₀ s) (p) : Kept s₀ { s with dl := tdrop p s.dl } := h.of_eq

end

/-! ### The functions that keep the islands, the power and the fuses

One lemma for each function of the model that answers a state, a state beside other values, or an outcome, in the order of the
model's files, but for the few functions that move islands, reset the module or blow fuses.  As in the lemmas for O52 a proof
follows the body of its function: its named states (`extract_lets`), its branches (`split`, `Kept.ite`), its folds
(`foldl_keeps`) and its recursion, and cites the lemmas about the functions it calls.  `nextKept_` lemmas are about the meanings
of commands, and `nextKept_exec` gathers them. -/

section
-- One proof at a time: many proofs at once, each with a stack of its own, pass the limit that the check sets on memory.
set_option Elab.async false
variable {s₀ s : State}

/-! ### Sys2Proof/Machine/Ops.lean -/

theorem Kept.setRegB (h : Kept s₀ s) (o hi lo v) : Kept s₀ (s.setRegB o hi lo v) := h.setReg ..

theorem Kept.countFenced (h : Kept s₀ s) : Kept s₀ s.countFenced := h.same

theorem Kept.count (h : Kept s₀ s) (o n) : Kept s₀ (s.count o n) := h.setReg ..

theorem Kept.drew (h : Kept s₀ s) (n) : Kept s₀ (s.drew n) := h.same

theorem Kept.setErr (h : Kept s₀ s) (k p) : Kept s₀ (s.setErr k p) := h.same

theorem Kept.irqTo (h : Kept s₀ s) (core src) : Kept s₀ (s.irqTo core src) := h.same

theorem Kept.sendVec (h : Kept s₀ s) (f v) : Kept s₀ (s.sendVec f v) := .ite h h.same

theorem Kept.hiErr (h : Kept s₀ s) (bit) : Kept s₀ (s.hiErr bit) := by
  unfold State.hiErr
  extract_lets t
  have ht : Kept s₀ t := h.setReg ..
  exact .ite ht (ht.sendVec ..)

theorem Kept.mgmtEvent (h : Kept s₀ s) : Kept s₀ s.mgmtEvent := h.sendVec ..

theorem Kept.bootFailed (h : Kept s₀ s) : Kept s₀ s.bootFailed := .ite h.same h

theorem Kept.raiseFatal (h : Kept s₀ s) (cause die) : Kept s₀ (s.raiseFatal cause die) := by
  unfold State.raiseFatal
  extract_lets t t₁
  have ht : Kept s₀ t := (h.setReg ..).bootFailed
  have ht₁ : Kept s₀ t₁ := ht.setRegB ..
  exact .ite h ht₁.same

theorem Kept.fnCount (h : Kept s₀ s) (f c n) : Kept s₀ (s.fnCount f c n) := h.same

theorem Kept.eccReport (h : Kept s₀ s) (m k bad) : Kept s₀ (s.eccReport m k bad) := by
  unfold State.eccReport
  split
  · exact h
  · extract_lets _ _ _ s₁ s₂ _ s₃
    have hs₁ : Kept s₀ s₁ := h.count ..
    have hs₂ : Kept s₀ s₂ := .ite ((hs₁.setReg ..).setReg ..) hs₁
    have hs₃ : Kept s₀ s₃ := hs₂.same
    exact .ite (((hs₃.setReg ..).irqTo ..).hiErr ..) hs₂

theorem Kept.noteReads (h : Kept s₀ s) (m a n) : Kept s₀ (s.noteReads m a n) := by
  unfold State.noteReads
  extract_lets
  exact foldl_keeps (fun t x ht => by
      extract_lets s₁
      have hs₁ : Kept s₀ s₁ := ht.eccReport ..
      exact .ite hs₁ hs₁.same) _ h

theorem Kept.storeNat (h : Kept s₀ s) (a n x) : Kept s₀ (s.storeNat a n x) := h.store ..

/-! ### Sys2Proof/Machine/Time.lean -/

theorem Kept.reachRaw (h : Kept s₀ s) (n) : Kept s₀ (s.reachRaw n) := .ite h.same h

theorem Kept.reachC (h : Kept s₀ s) (c) : Kept s₀ (s.reachC c) := .ite (h.reachRaw ..) h

theorem Kept.reachNs (h : Kept s₀ s) (t) : Kept s₀ (s.reachNs t) := h.reachC ..

theorem Kept.tick (h : Kept s₀ s) : Kept s₀ s.tick := .ite h.same h

/-! ### Sys2Proof/Machine/Bank.lean -/

theorem Kept.answer (h : Kept s₀ s) (m st data) : Kept s₀ (s.answer m st data) := h.same

theorem Kept.armWriteback (h : Kept s₀ s) (k) : Kept s₀ (s.armWriteback k) := h.same

theorem Kept.bondedError (h : Kept s₀ s) (k) : Kept s₀ (s.bondedError k) := .ite (h.raiseFatal ..) h

theorem Kept.readWord (h : Kept s₀ s) (m k) : Kept s₀ (s.readWord m k).1 := by
  unfold State.readWord
  split
  · exact h
  · split
    · exact ((h.eccReport ..).drew ..).bondedError ..
    · exact (h.eccReport ..).armWriteback ..

theorem Kept.writeWord (h : Kept s₀ s) (m k mask data) : Kept s₀ (s.writeWord m k mask data).1 := by
  unfold State.writeWord
  extract_lets r
  have hr : Kept s₀ r.1 := h.readWord ..
  split
  · exact h.putWord ..
  · split
    · exact hr
    · exact hr.putWord ..

theorem Kept.collided (h : Kept s₀ s) (d m) : Kept s₀ (s.collided d m) := by
  unfold State.collided
  extract_lets s₁ s₂
  have hs₁ : Kept s₀ s₁ := h.count ..
  have hs₂ : Kept s₀ s₂ := .ite (hs₁.count ..) hs₁
  exact .ite hs₂.same hs₂

theorem Kept.storeLost (h : Kept s₀ s) (m a bs lost) : Kept s₀ (s.storeLost m a bs lost) :=
  .ite (h.store ..) (foldl_keeps (fun t x ht => by
    split
    · exact ht.collided ..
    · exact ht.store ..) _ h)

theorem Kept.doAccess (h : Kept s₀ s) (m k op) : Kept s₀ (s.doAccess m k op) := by
  unfold State.doAccess
  extract_lets r
  have hr : Kept s₀ r.1 := h.readWord ..
  split
  · exact hr.answer ..
  · exact hr.answer ..
  · extract_lets r₁
    have hr₁ : Kept s₀ r₁.1 := h.writeWord ..
    exact hr₁.answer ..

theorem Kept.meet (h : Kept s₀ s) (d bank k q r) : Kept s₀ (s.meet d bank k q r) := by
  unfold State.meet
  split
  · exact .ite (((h.doAccess ..).answer ..).collided ..) (((h.doAccess ..).answer ..).collided ..)
  · exact (h.doAccess ..).doAccess ..
  · exact (h.doAccess ..).doAccess ..

theorem Kept.waitedAt (h : Kept s₀ s) (d m waited) : Kept s₀ (s.waitedAt d m waited) := .ite (h.count ..) h

theorem Kept.upset (h : Kept s₀ s) (k u) : Kept s₀ (s.upset k u) := h.setErr ..

theorem Kept.answerFenced (h : Kept s₀ s) (m a write) : Kept s₀ (s.answerFenced m a write) := (Kept.ite h.countFenced h).answer ..

theorem Kept.setDredge (h : Kept s₀ s) (d x) : Kept s₀ (s.setDredge d x) := h.same

theorem Kept.copyWord (h : Kept s₀ s) (d i) : Kept s₀ (s.copyWord d i) := by
  unfold State.copyWord
  extract_lets _ _ t t₁
  have ht : Kept s₀ t := h.setDredge ..
  have ht₁ : Kept s₀ t₁ := ht.eccReport ..
  exact .ite ht (.ite (ht₁.bondedError ..) (ht₁.setErr ..))

theorem Kept.redirect (h : Kept s₀ s) (d bank word) : Kept s₀ (s.redirect d bank word) := .ite (h.copyWord ..) h

theorem Kept.accept (h : Kept s₀ s) (d bank word q port) : Kept s₀ (s.accept d bank word q port) := by
  unfold State.accept
  extract_lets t _ t₁
  have ht : Kept s₀ t := h.waitedAt ..
  have ht₁ : Kept s₀ t₁ := .ite ht.same ht
  exact ht₁.redirect ..

theorem Kept.alone (h : Kept s₀ s) (q port others a write) {f : Die → State → State} (hf : ∀ d t, Kept s₀ t → Kept s₀ (f d t)) :
    Kept s₀ (s.alone q port others a write f) := by
  unfold State.alone
  split
  · exact h.answerFenced ..
  · split
    · exact .ite (hf _ _ (h.accept ..)) h
    · exact h
    · exact h.answer ..

theorem Kept.access (h : Kept s₀ s) (q others a) : Kept s₀ (s.access q others a) :=
  h.alone _ _ _ _ _ fun _ _ ht => ht.doAccess ..

theorem nextKept_execBankAccess (h : Kept s₀ s) (q addr rival others flips checkFlips) :
    NextKept s₀ (execBankAccess q addr rival others flips checkFlips s) := by
  unfold execBankAccess
  extract_lets _ _ _ t
  have ht : Kept s₀ t := .ite (h.upset ..) h
  split
  · exact .next h
  · refine .next ?_
    split
    · exact ht.access ..
    · split
      · exact .ite (ht.access ..) (.ite (((ht.accept ..).accept ..).meet ..) ((ht.access ..).access ..))
      · exact (ht.access ..).access ..

theorem nextKept_execEccWriteback (h : Kept s₀ s) (d bank word) : NextKept s₀ (execEccWriteback d bank word s) := .onlyIf h h.same

theorem Kept.doAtomic (h : Kept s₀ s) (d m k a opc x) : Kept s₀ (s.doAtomic d m k a opc x).1 := by
  unfold State.doAtomic
  extract_lets _ _ r
  have hr : Kept s₀ r.1 := h.readWord ..
  split
  · exact h
  · split
    · exact h.count ..
    · split
      · exact hr
      · split
        · exact h
        · extract_lets
          exact hr.putWord ..

theorem Kept.atomicAnswered (h : Kept s₀ s) (d m k a opc x) : Kept s₀ (s.atomicAnswered d m k a opc x) := by
  unfold State.atomicAnswered
  extract_lets r t
  have hr : Kept s₀ r.1 := h.doAtomic ..
  have ht : Kept s₀ t := hr.answer ..
  exact .ite (ht.irqTo ..) ht

theorem nextKept_execBankAtomic (h : Kept s₀ s) (q addr opc operand rival others upset) :
    NextKept s₀ (execBankAtomic q addr opc operand rival others upset s) := by
  unfold execBankAtomic
  extract_lets a k atom single t
  have hatom (d t) (ht : Kept s₀ t) : Kept s₀ (atom d t) := ht.atomicAnswered ..
  have hsingle {t} (ht : Kept s₀ t) (others) : Kept s₀ (single t others) := ht.alone _ _ _ _ _ hatom
  have ht : Kept s₀ t := .ite (h.upset ..) h
  refine .ite (.next h) (.next ?_)
  split
  · exact hsingle ht _
  · split
    · extract_lets u
      have hu : Kept s₀ u := (ht.accept ..).accept ..
      exact .ite (hsingle ht _) (.ite (.ite ((hatom _ _ hu).doAccess ..) (hatom _ _ (hu.doAccess ..))) (ht.access ..))
    · exact (hsingle ht _).access ..

theorem nextKept_execHbmAtomic (h : Kept s₀ s) (m addr opc operand upset) : NextKept s₀ (execHbmAtomic m addr opc operand upset s) := by
  unfold execHbmAtomic
  extract_lets
  split
  · extract_lets
    exact .ite (.next h)
      (.ite (.ite (.next (((h.count ..).hiErr ..).answer ..)) (.next (h.atomicAnswered ..))) (.next (h.answer ..)))
  · exact .next h

theorem nextKept_execBkCtrlClrEcc (h : Kept s₀ s) (m d) : NextKept s₀ (execBkCtrlClrEcc m d s) := .agentIf h (h.resetRegs ..)

theorem nextKept_execBkCtrlClrConf (h : Kept s₀ s) (m d) : NextKept s₀ (execBkCtrlClrConf m d s) :=
  .agentIf h (((h.resetRegs ..).resetRegs ..).resetRegs ..)

theorem nextKept_execBkRuleWrite (h : Kept s₀ s) (m d i v) : NextKept s₀ (execBkRuleWrite m d i v s) := by
  unfold execBkRuleWrite
  extract_lets _ t
  have ht : Kept s₀ t := h.setReg ..
  exact .agentIf h (.ite ht.same ht)

theorem nextKept_execBkDrEnableWrite (h : Kept s₀ s) (m d on) : NextKept s₀ (execBkDrEnableWrite m d on s) := .agentIf h (h.setReg ..)

theorem nextKept_execDredgeRegionStart (h : Kept s₀ s) (d) : NextKept s₀ (execDredgeRegionStart d s) := by
  unfold execDredgeRegionStart
  extract_lets _ _ r _ _ _ t
  have hr : Kept s₀ r := .ite (h.reachRaw ..) h
  have ht : Kept s₀ t := (hr.setDredge ..).count ..
  exact .unlessHalted h (.ite (.onlyIf h (hr.setDredge ..)) (.onlyIf h (.ite (ht.count ..) ht)))

theorem nextKept_execDredgeCopyDone (h : Kept s₀ s) (d) : NextKept s₀ (execDredgeCopyDone d s) := by
  unfold execDredgeCopyDone
  extract_lets _ t
  have ht : Kept s₀ t := foldl_keeps (fun _ _ ht₁ => ht₁.copyWord ..) _ h
  exact .unlessHalted h (.onlyIf h (ht.setDredge ..))

theorem Kept.marchFailed (h : Kept s₀ s) (d x f) : Kept s₀ (s.marchFailed d x f) := by
  unfold State.marchFailed
  extract_lets s₁ _ _ s₂ s₃
  have hs₁ : Kept s₀ s₁ := h.count ..
  have hs₂ : Kept s₀ s₂ := hs₁.same
  have hs₃ : Kept s₀ s₃ := .ite hs₂ ((hs₂.setReg ..).setReg ..)
  exact ((hs₃.setReg ..).irqTo ..).hiErr ..

theorem nextKept_execDredgeMarchDone (h : Kept s₀ s) (d fails) : NextKept s₀ (execDredgeMarchDone d fails s) :=
  .unlessHalted h (.onlyIf h (foldl_keeps (fun _ _ ht => ht.marchFailed ..) _ (h.setDredge ..)))

theorem nextKept_execDredgeRegionDone (h : Kept s₀ s) (d) : NextKept s₀ (execDredgeRegionDone d s) := by
  unfold execDredgeRegionDone
  extract_lets _ _ t
  have ht : Kept s₀ t := h.setDredge ..
  exact .unlessHalted h (.onlyIf h (.ite (ht.count ..) ht))

/-! ### Sys2Proof/Machine/Trace.lean -/

theorem Kept.tracePut (h : Kept s₀ s) (r) : Kept s₀ (s.tracePut r) := by
  unfold State.tracePut
  extract_lets _ t
  have ht : Kept s₀ t := h.store ..
  exact ht.same

theorem Kept.traceLost (h : Kept s₀ s) : Kept s₀ s.traceLost := by
  unfold State.traceLost
  extract_lets t
  have ht : Kept s₀ t := h.count ..
  exact ht.same

theorem Kept.traceWrite (h : Kept s₀ s) (r) : Kept s₀ (s.traceWrite r) := by
  unfold State.traceWrite
  extract_lets u _ t
  have hu : Kept s₀ u := h.tracePut ..
  have ht : Kept s₀ t := .ite h hu.same
  exact .ite h.traceLost (.ite (ht.tracePut ..) ht.traceLost)

theorem Kept.trace (h : Kept s₀ s) (kind unit layer op fn arg) : Kept s₀ (s.trace kind unit layer op fn arg) := .ite (h.traceWrite ..) h

theorem Kept.capture (h : Kept s₀ s) (c zelic src cls bs) : Kept s₀ (s.capture c zelic src cls bs) := by
  unfold State.capture
  extract_lets _ t _ _ t₁
  have ht : Kept s₀ t := h.setReg ..
  have ht₁ : Kept s₀ t₁ := h.store ..
  exact .ite ht.same ht₁.same

/-! ### Sys2Proof/Machine/EqOps.lean -/

theorem Kept.setEq (h : Kept s₀ s) (key x) : Kept s₀ (s.setEq key x) := h.same

theorem Kept.setSending (h : Kept s₀ s) (e x) : Kept s₀ (s.setSending e x) := h.same

theorem Kept.creditUp (h : Kept s₀ s) (key) : Kept s₀ (s.creditUp key) := h.setEq ..

theorem Kept.tagHead (h : Kept s₀ s) (key waking) : Kept s₀ (s.tagHead key waking) := by
  unfold State.tagHead
  extract_lets
  split
  · exact h
  · exact h.setEq ..

theorem Kept.eqPush (h : Kept s₀ s) (key i) : Kept s₀ (s.eqPush key i) := by
  unfold State.eqPush
  extract_lets s₁ _ t
  have hs₁ : Kept s₀ s₁ := h.creditUp ..
  have ht : Kept s₀ t := hs₁.setEq ..
  exact .ite (ht.tagHead ..) ht

theorem Kept.eqDrop (h : Kept s₀ s) (key i) : Kept s₀ (s.eqDrop key i) := by
  unfold State.eqDrop
  extract_lets s₁ _ t
  have hs₁ : Kept s₀ s₁ := h.creditUp ..
  have ht : Kept s₀ t := hs₁.setEq ..
  exact .ite (ht.tagHead ..) ht

theorem Kept.eqClear (h : Kept s₀ s) (key) : Kept s₀ (s.eqClear key) := h.setEq ..

theorem Kept.fhAdmit (h : Kept s₀ s) (p) : Kept s₀ (s.fhAdmit p) := by
  unfold State.fhAdmit
  extract_lets _ _ _ _ t
  have ht : Kept s₀ t := h.same
  exact foldl_keeps (fun _ _ ht₁ => ht₁.eqPush ..) _ ht

theorem Kept.addNote (h : Kept s₀ s) (cell frame slot up late) : Kept s₀ (s.addNote cell frame slot up late) := .ite h h.same

theorem Kept.symbolLost (h : Kept s₀ s) (k) : Kept s₀ (s.symbolLost k) := by
  unfold State.symbolLost
  split
  · exact h
  · extract_lets t
    have ht : Kept s₀ t := h.addNote ..
    exact ht.same

theorem Kept.dropLate (h : Kept s₀ s) (key) : Kept s₀ (s.dropLate key) := by
  unfold State.dropLate
  extract_lets _ _ _ _ s₁ _ t t₁
  have hs₁ : Kept s₀ s₁ := h.creditUp ..
  have ht : Kept s₀ t := hs₁.setEq ..
  have ht₁ : Kept s₀ t₁ := .ite ht (ht.tagHead ..)
  exact .ite h ((foldl_keeps (fun _ _ ht₂ => ht₂.symbolLost ..) _ (ht₁.count ..)).fhAdmit ..)

theorem Kept.dropAllLate (h : Kept s₀ s) : Kept s₀ s.dropAllLate := foldl_keeps (fun _ _ ht => ht.dropLate ..) _ h

theorem Kept.portsOff (h : Kept s₀ s) (pair) : Kept s₀ (s.portsOff pair) := by
  unfold State.portsOff
  extract_lets one
  have hone (s p) (h : Kept s₀ s) : Kept s₀ (one s p) :=
    (foldl_keeps (fun _ _ ht => ht.symbolLost ..) _ (foldl_keeps (fun _ _ ht => ht.eqClear ..) _ h)).same.count ..
  exact hone _ _ (hone _ _ h)

/-! ### Sys2Proof/Machine/Espalier.lean -/

theorem Kept.copySeq (h : Kept s₀ s) (g) : Kept s₀ (s.copySeq g) := .ite (h.storeNat ..) h

theorem Kept.putEs (h : Kept s₀ s) (g e) : Kept s₀ (s.putEs g e) := by
  unfold State.putEs
  extract_lets t
  have ht : Kept s₀ t := h.setEs ..
  exact .ite ht (ht.copySeq ..)

theorem Kept.esIrq (h : Kept s₀ s) (g) : Kept s₀ (s.esIrq g) := h.irqTo ..

theorem nextKept_execEsCtrlEnable (h : Kept s₀ s) (m g on irqCore) : NextKept s₀ (execEsCtrlEnable m g on irqCore s) := by
  unfold execEsCtrlEnable
  extract_lets _ _ t
  have ht : Kept s₀ t := (h.setRegB ..).setRegB ..
  exact .agentIf h (.ite (ht.setEs ..) ht)

theorem nextKept_execEsCtrlStop (h : Kept s₀ s) (m g) : NextKept s₀ (execEsCtrlStop m g s) := .agentIf h (h.setRegB ..)

theorem nextKept_execEsCtrlUnstop (h : Kept s₀ s) (m g) : NextKept s₀ (execEsCtrlUnstop m g s) := .agentIf h (h.setRegB ..)

theorem Kept.esAbort (h : Kept s₀ s) (g) : Kept s₀ (s.esAbort g) := h.putEs ..

theorem nextKept_execEsCtrlAbort (h : Kept s₀ s) (m a) : NextKept s₀ (execEsCtrlAbort m a s) := .agentIf h ((h.setEs ..).esAbort ..)

theorem nextKept_execEsAbortSettle (h : Kept s₀ s) (g) : NextKept s₀ (execEsAbortSettle g s) := by
  unfold execEsAbortSettle
  extract_lets
  refine .unlessHalted h ?_
  split
  · exact .next (h.setEs ..)
  · exact .next ((h.setEs ..).esIrq ..)
  · exact .next h

theorem Kept.countPass (h : Kept s₀ s) (g) : Kept s₀ (s.countPass g) := by
  unfold State.countPass
  split
  · exact h.fnCount ..
  · exact h

theorem nextKept_execEsCtrlResume (h : Kept s₀ s) (m g) : NextKept s₀ (execEsCtrlResume m g s) := by
  unfold execEsCtrlResume
  extract_lets _ t u
  have ht : Kept s₀ t := h.putEs ..
  have hu : Kept s₀ u := .ite ht (.ite ((ht.countPass ..).esIrq ..) (ht.countPass ..))
  exact .agentIf h hu

theorem nextKept_execEsCtrlClrCnt (h : Kept s₀ s) (m g) : NextKept s₀ (execEsCtrlClrCnt m g s) := .agentIf h (h.setEs ..)

theorem nextKept_execEsSPush (h : Kept s₀ s) (m g) : NextKept s₀ (execEsSPush m g s) := .agentIf h (h.setEs ..)

theorem nextKept_execEsStageFetch (h : Kept s₀ s) (g) : NextKept s₀ (execEsStageFetch g s) := .unlessHalted h (.onlyIf h (h.setEs ..))

theorem Kept.noteRanges (h : Kept s₀ s) (m rs) : Kept s₀ (s.noteRanges m rs) := foldl_keeps (fun _ _ ht => ht.noteReads ..) _ h

theorem nextKept_execEsStageDataArrive (h : Kept s₀ s) (g) : NextKept s₀ (execEsStageDataArrive g s) := by
  unfold execEsStageDataArrive
  extract_lets
  refine .unlessHalted h ?_
  split
  · extract_lets
    exact .onlyIf h ((h.noteRanges ..).setEs ..)
  · exact .next h

theorem nextKept_execEsShadowValid (h : Kept s₀ s) (g) : NextKept s₀ (execEsShadowValid g s) := .unlessHalted h (.onlyIf h (h.setEs ..))

theorem nextKept_execEsSwapBegin (h : Kept s₀ s) (g waited) : NextKept s₀ (execEsSwapBegin g waited s) := by
  unfold execEsSwapBegin
  extract_lets
  refine .unlessHalted h ?_
  split
  · exact .onlyIf h (h.setEs ..)
  · exact .next h

theorem Kept.noteHeader (h : Kept s₀ s) (g p code) : Kept s₀ (s.noteHeader g p code) := .ite (h.noteReads ..) h

theorem nextKept_execEsPassStart (h : Kept s₀ s) (g waits) : NextKept s₀ (execEsPassStart g waits s) := by
  unfold execEsPassStart
  extract_lets
  refine .unlessHalted h ?_
  split
  · exact .next h
  · extract_lets _ _ _ t
    have ht : Kept s₀ t := h.noteHeader ..
    split
    · extract_lets
      exact .onlyIf h ((ht.noteRanges ..).putEs ..)
    · exact .onlyIf h ((ht.putEs ..).esIrq ..)

theorem nextKept_execEsOperandArrive (h : Kept s₀ s) (g a) : NextKept s₀ (execEsOperandArrive g a s) := by
  unfold execEsOperandArrive
  extract_lets
  refine .unlessHalted h ?_
  split
  · exact .next h
  · extract_lets
    exact .onlyIf h ((h.noteRanges ..).setEs ..)

theorem Kept.writeRow (h : Kept s₀ s) (g r m lost) : Kept s₀ (s.writeRow g r m lost).1 := by
  unfold State.writeRow
  split
  · extract_lets _ _ _ t s₁ t₁
    have ht : Kept s₀ t := (h.store ..).store ..
    have hs₁ : Kept s₀ s₁ := .ite (h.noteReads ..) h
    have ht₁ : Kept s₀ t₁ := hs₁.storeLost ..
    split
    · exact ht.drew ..
    · split
      · exact ht₁.storeLost ..
      · exact ht₁
  · exact h

theorem nextKept_execEsRowWrite (h : Kept s₀ s) (w) : NextKept s₀ (execEsRowWrite w s) := by
  unfold execEsRowWrite
  extract_lets
  refine .unlessHalted h ?_
  split
  · exact .next h
  · extract_lets _ x
    have hx : Kept s₀ x.1 := Kept.foldl_fst (fun y x₁ hy => by
        extract_lets z
        have hz : Kept s₀ z.1 := hy.writeRow ..
        exact hz) _ h
    exact .onlyIf h (hx.setEs ..)

theorem nextKept_execEsPassDone (h : Kept s₀ s) (g) : NextKept s₀ (execEsPassDone g s) := by
  unfold execEsPassDone
  extract_lets
  refine .unlessHalted h ?_
  split
  · extract_lets t
    have ht : Kept s₀ t := (h.putEs ..).countPass ..
    exact .onlyIf h (.ite (ht.esIrq ..) ht)
  · exact .next h

theorem nextKept_execEsPassError (h : Kept s₀ s) (g) : NextKept s₀ (execEsPassError g s) := by
  unfold execEsPassError
  extract_lets
  refine .unlessHalted h ?_
  split
  · exact .next h
  · split
    · exact .next h
    · exact .onlyIf h ((h.setEs ..).esIrq ..)

theorem nextKept_execEsCntLoRead (h : Kept s₀ s) (m g c) : NextKept s₀ (execEsCntLoRead m g c s) := .onlyIf h (h.setEs ..)

/-! ### Sys2Proof/Machine/ShareOps.lean -/

theorem Kept.takeCxVf (h : Kept s₀ s) : Kept s₀ s.takeCxVf := h.same

theorem Kept.charge (h : Kept s₀ s) (v n) : Kept s₀ (s.charge v n) := h.same

theorem Kept.settle (h : Kept s₀ s) : Kept s₀ s.settle := by
  unfold State.settle
  extract_lets _ u t
  have hu : Kept s₀ u := foldl_keeps (fun _ _ ht₁ => .ite (ht₁.charge ..) ht₁) _ h
  have ht : Kept s₀ t := .ite h (hu.charge ..)
  exact ht.same

theorem Kept.wakeVf (h : Kept s₀ s) (v) : Kept s₀ (s.wakeVf v) := by
  unfold State.wakeVf
  extract_lets
  split
  · exact h
  · split
    · exact h
    · exact h.same

/-! ### Sys2Proof/Machine/Tiling.lean -/

theorem Kept.setCtx (h : Kept s₀ s) (k c) : Kept s₀ (s.setCtx k c) := by
  unfold State.setCtx
  extract_lets s₁
  have hs₁ : Kept s₀ s₁ := h.settle
  exact hs₁.same

theorem Kept.giveIdle (h : Kept s₀ s) (d) : Kept s₀ (s.giveIdle d) := by
  unfold State.giveIdle
  extract_lets s₁
  have hs₁ : Kept s₀ s₁ := h.settle
  exact foldl_keeps (fun t x ht => by
      split
      · exact ht
      · extract_lets
        exact .ite ht (ht.setCtx ..)) _ hs₁

theorem Kept.writeBlock (h : Kept s₀ s) (r x block chunks) : Kept s₀ (s.writeBlock r x block chunks).1 := by
  unfold State.writeBlock
  extract_lets _ _ _ _ _ _ _ _ _ _ go
  have hgo : Kept s₀ go.1 := Kept.foldl_fst (fun y x₁ hy => by
      extract_lets
      exact hy.store ..) _ h
  split
  · exact h
  · split
    · exact h
    · split
      · exact hgo.store ..
      · exact hgo

theorem Kept.loseWrites (h : Kept s₀ s) (ws) : Kept s₀ (s.loseWrites ws) := foldl_keeps (fun _ _ ht => (ht.store ..).drew ..) _ h

theorem Kept.doConvert (h : Kept s₀ s) (d x) : Kept s₀ (s.doConvert d x).1 := by
  unfold State.doConvert
  extract_lets _ _ _ t u u₁
  have ht : Kept s₀ t := h.noteRanges ..
  have hu : Kept s₀ u := foldl_keeps (fun _ _ ht₁ => ht₁.store ..) _ ht
  have hu₁ : Kept s₀ u₁ := .ite (hu.loseWrites ..) hu
  split
  · exact ht.loseWrites ..
  · split
    · exact ht.loseWrites ..
    · exact hu₁.count ..

theorem Kept.doRoutine (h : Kept s₀ s) : Kept s₀ s.doRoutine := (h.store ..).drew ..

theorem Kept.traceDesc (h : Kept s₀ s) (kind d vf x arg) : Kept s₀ (s.traceDesc kind d vf x arg) := h.trace ..

theorem Kept.postRecord (h : Kept s₀ s) (d vf slot dseq x r) : Kept s₀ (s.postRecord d vf slot dseq x r) := by
  unfold State.postRecord
  extract_lets s₁ _ t
  have hs₁ : Kept s₀ s₁ := h.traceDesc ..
  have ht : Kept s₀ t := hs₁.same
  exact .ite ht (.ite ht.mgmtEvent (ht.irqTo ..))

theorem Kept.loseScratch (h : Kept s₀ s) (c) : Kept s₀ (s.loseScratch c) := (h.store ..).drew ..

theorem Kept.runQueue (h : Kept s₀ s) (d key c qs) : Kept s₀ (s.runQueue d key c qs) := by
  induction qs generalizing s with
  | nil => exact h.setCtx ..
  | cons q qs ih =>
    unfold State.runQueue
    extract_lets x drip avail chunks path chk s₁ t seq u
    have hs₁ : Kept s₀ s₁ := .ite (h.noteReads ..) h
    split
    · exact ih (hs₁.postRecord ..)
    · split
      · exact ih (((hs₁.traceDesc ..).doConvert ..).postRecord ..)
      · split
        · exact ih ((hs₁.traceDesc ..).doRoutine.postRecord ..)
        · exact (((hs₁.storeNat ..).storeNat ..).store ..).traceDesc .. |>.setCtx ..

theorem Kept.endDesc (h : Kept s₀ s) (d key c r status sub) : Kept s₀ (s.endDesc d key c r status sub) :=
  ((h.loseScratch ..).postRecord ..).runQueue ..

theorem Kept.loseBlock (h : Kept s₀ s) (r x block) : Kept s₀ (s.loseBlock r x block) := h.loseWrites ..

theorem Kept.loseBlocks (h : Kept s₀ s) (r) : Kept s₀ (s.loseBlocks r) := foldl_keeps (fun _ _ ht => ht.loseBlock ..) _ h

theorem Kept.loseOthers (h : Kept s₀ s) (r block) : Kept s₀ (s.loseOthers r block) := h.loseBlocks ..

theorem Kept.abortCtx (h : Kept s₀ s) (d key) : Kept s₀ (s.abortCtx d key) := by
  unfold State.abortCtx
  extract_lets s₁
  have hs₁ : Kept s₀ s₁ := h.settle
  split
  · exact hs₁
  · extract_lets t t₁
    have ht : Kept s₀ t := by
      unfold t
      split
      · extract_lets
        exact ((hs₁.loseBlocks ..).loseScratch ..).postRecord ..
      · exact hs₁
    have ht₁ : Kept s₀ t₁ := foldl_keeps (fun t₂ x ht₂ => by
        extract_lets
        exact ht₂.postRecord ..) _ ht
    exact ht₁.setCtx ..

theorem Kept.stopCtx (h : Kept s₀ s) (key why) : Kept s₀ (s.stopCtx key why) := by
  unfold State.stopCtx
  split
  · exact h
  · extract_lets t
    have ht : Kept s₀ t := foldl_keeps (fun _ _ ht₁ => ht₁.setRegB ..) _ h
    exact ht.setCtx ..

theorem Kept.evict (h : Kept s₀ s) (d v) : Kept s₀ (s.evict d v) := by
  unfold State.evict
  extract_lets s₁
  have hs₁ : Kept s₀ s₁ := h.settle
  split
  · exact hs₁
  · split
    · exact hs₁
    · exact .ite (hs₁.stopCtx ..) hs₁

theorem Kept.placeDesc (h : Kept s₀ s) (d vf slot q) : Kept s₀ (s.placeDesc d vf slot q) := by
  unfold State.placeDesc
  extract_lets s₁ t _ _ t₁
  have hs₁ : Kept s₀ s₁ := h.settle
  have ht : Kept s₀ t := hs₁.wakeVf ..
  have ht₁ : Kept s₀ t₁ := hs₁.evict ..
  split
  · exact .ite ((hs₁.wakeVf ..).runQueue ..) (hs₁.setCtx ..)
  · split
    · exact ht.same.runQueue ..
    · exact ht₁.same

theorem Kept.goOn (h : Kept s₀ s) (d key c) : Kept s₀ (s.goOn d key c) := by
  unfold State.goOn
  extract_lets s₁
  have hs₁ : Kept s₀ s₁ := h.settle.wakeVf ..
  exact .ite (hs₁.runQueue ..) (hs₁.setCtx ..)

theorem Kept.serveWait (h : Kept s₀ s) (d) : Kept s₀ (s.serveWait d) := foldl_keeps (fun _ _ ht => ht.placeDesc ..) _ h.same

theorem Kept.descCmd (h : Kept s₀ s) (op d vf slot q r90) : NextKept s₀ (s.descCmd op d vf slot q r90) := .onlyIf h (h.placeDesc ..)

theorem nextKept_execDescGemm (h : Kept s₀ s) (d vf slot desc r90) : NextKept s₀ (execDescGemm d vf slot desc r90 s) :=
  .unlessHalted h (h.descCmd ..)

theorem nextKept_execDescGemmBatched (h : Kept s₀ s) (d vf slot desc) : NextKept s₀ (execDescGemmBatched d vf slot desc s) :=
  .unlessHalted h (h.descCmd ..)

theorem nextKept_execDescConv1d (h : Kept s₀ s) (d vf slot desc) : NextKept s₀ (execDescConv1d d vf slot desc s) :=
  .unlessHalted h (h.descCmd ..)

theorem nextKept_execDescConvert (h : Kept s₀ s) (d vf slot desc) : NextKept s₀ (execDescConvert d vf slot desc s) :=
  .unlessHalted h (h.descCmd ..)

theorem nextKept_execDescGatherGemm (h : Kept s₀ s) (d vf slot desc) : NextKept s₀ (execDescGatherGemm d vf slot desc s) :=
  .unlessHalted h (h.descCmd ..)

theorem nextKept_execDescRoutine (h : Kept s₀ s) (d vf slot desc) : NextKept s₀ (execDescRoutine d vf slot desc s) :=
  .unlessHalted h (h.descCmd ..)

theorem nextKept_execDescBadOpcode (h : Kept s₀ s) (d vf slot desc) : NextKept s₀ (execDescBadOpcode d vf slot desc s) :=
  .unlessHalted h (.onlyIf h (h.postRecord ..))

theorem Kept.afterDesc (h : Kept s₀ s) (d) : Kept s₀ (s.afterDesc d) := h.serveWait ..

theorem nextKept_execSpanScan (h : Kept s₀ s) (d c block) : NextKept s₀ (execSpanScan d c block s) := by
  unfold execSpanScan
  extract_lets
  refine .unlessHalted h ?_
  split
  · exact .next h
  · split
    · exact .next h
    · extract_lets _ _ _ t t₁
      have ht : Kept s₀ t := (h.count ..).count ..
      have ht₁ : Kept s₀ t₁ := .ite (((ht.loseBlocks ..).endDesc ..).afterDesc ..) (ht.setCtx ..)
      exact .onlyIf h ht₁

theorem nextKept_execOperandStageCopy (h : Kept s₀ s) (d c) : NextKept s₀ (execOperandStageCopy d c s) := by
  unfold execOperandStageCopy
  extract_lets
  refine .unlessHalted h ?_
  split
  · exact .next h
  · split
    · exact .next h
    · extract_lets _ t
      have ht : Kept s₀ t := h.noteRanges ..
      exact .onlyIf h (.ite (((ht.loseBlocks ..).endDesc ..).afterDesc ..) ((ht.loseScratch ..).setCtx ..))

theorem Kept.countDone (h : Kept s₀ s) (d key c r) : Kept s₀ (s.countDone d key c r) := by
  unfold State.countDone
  extract_lets _ t
  have ht : Kept s₀ t := (h.storeNat ..).setCtx ..
  exact .ite (ht.endDesc ..) ht

theorem Kept.stageTile (h : Kept s₀ s) (g r x block) : Kept s₀ (s.stageTile g r x block) := by
  unfold State.stageTile
  extract_lets _ t _ t₁
  have ht : Kept s₀ t := foldl_keeps (fun t₂ x₁ ht₂ => by
      extract_lets
      exact ht₂.setReg ..) _ (h.drew ..)
  have ht₁ : Kept s₀ t₁ := (ht.setRegB ..).setRegB ..
  exact ht₁.setReg ..

theorem Kept.stageJob (h : Kept s₀ s) (n r x block) : Kept s₀ (s.stageJob n r x block) := by
  unfold State.stageJob
  extract_lets _ _ t _ t₁
  have ht : Kept s₀ t := foldl_keeps (fun t₂ x₁ ht₂ => by
      extract_lets
      exact ht₂.setReg ..) _ (h.drew ..)
  have ht₁ : Kept s₀ t₁ := (ht.setRegB ..).setRegB ..
  exact ht₁.setReg ..

theorem Kept.stageFor (h : Kept s₀ s) (d g r x block) : Kept s₀ (s.stageFor d g r x block) := .ite (h.stageJob ..) (h.stageTile ..)

theorem nextKept_execTileClaim (h : Kept s₀ s) (d c g) : NextKept s₀ (execTileClaim d c g s) := by
  unfold execTileClaim
  extract_lets
  refine .unlessHalted h ?_
  split
  · exact .next h
  · extract_lets _ _ t
    have ht : Kept s₀ t := h.storeNat ..
    split
    · exact .next h
    · extract_lets
      exact .onlyIf h (.ite ht (.ite ((ht.countDone ..).afterDesc ..) ((ht.stageFor ..).setCtx ..)))

theorem Kept.ranPasses (h : Kept s₀ s) (g vf a rows n sat) : Kept s₀ (s.ranPasses g vf a rows n sat) := (h.setEs ..).fnCount ..

theorem Kept.ranJobs (h : Kept s₀ s) (n rows) : Kept s₀ (s.ranJobs n rows) := h.setDl ..

theorem nextKept_execTileDone (h : Kept s₀ s) (d c g) : NextKept s₀ (execTileDone d c g s) := by
  unfold execTileDone
  extract_lets
  refine .unlessHalted h ?_
  split
  · exact .next h
  · split
    · exact .next h
    · extract_lets
      split
      · exact .next h
      · extract_lets _ _ _ _ _ _ _ _ _ s0 s1 _ w _ t t₁
        have hs0 : Kept s₀ s0 := h.noteRanges ..
        have hs1 : Kept s₀ s1 := .ite (hs0.ranJobs ..) (hs0.ranPasses ..)
        have hw : Kept s₀ w.1 := hs1.writeBlock ..
        have ht : Kept s₀ t := .ite (hw.setEs ..) (.ite (hw.count ..) (hw.count ..))
        have ht₁ : Kept s₀ t₁ := .ite (ht.loseBlock ..) ht
        exact .ite (.next (((hs0.loseBlocks ..).endDesc ..).afterDesc ..))
          (.ite (.ite (.next (((hs1.loseOthers ..).endDesc ..).afterDesc ..)) (.next ((ht₁.countDone ..).afterDesc ..)))
            (.next ((hs1.countDone ..).afterDesc ..)))

theorem Kept.handBack (h : Kept s₀ s) (cx r ts) : Kept s₀ (s.handBack cx r ts).1 := Kept.foldl_fst (fun y x hy => by
    extract_lets
    split
    · exact hy
    · exact hy.storeNat ..) _ h

theorem Kept.stopTiles (h : Kept s₀ s) (cx r g next) : Kept s₀ (s.stopTiles cx r g next).1 := by
  unfold State.stopTiles
  extract_lets
  split
  · exact h
  · extract_lets
    exact h.ranPasses ..

theorem nextKept_execTileHandback (h : Kept s₀ s) (d c g next) : NextKept s₀ (execTileHandback d c g next s) := by
  unfold execTileHandback
  extract_lets
  refine .unlessHalted h ?_
  split
  · exact .next h
  · extract_lets
    split
    · exact .onlyIf h ((h.setCtx ..).giveIdle ..)
    · extract_lets t u
      have ht : Kept s₀ t.1 := h.stopTiles ..
      have hu : Kept s₀ u.1 := ht.handBack ..
      exact .onlyIf h ((hu.setCtx ..).giveIdle ..)

theorem nextKept_execHandbackTake (h : Kept s₀ s) (d c k g) : NextKept s₀ (execHandbackTake d c k g s) := by
  unfold execHandbackTake
  extract_lets
  refine .unlessHalted h ?_
  split
  · exact .next h
  · extract_lets
    split
    · exact .next h
    · extract_lets _ t _ u
      have ht : Kept s₀ t := (h.storeNat ..).stageFor ..
      have hu : Kept s₀ u.1 := ht.handBack ..
      exact .onlyIf h (hu.setCtx ..)

theorem nextKept_execDescriptorAbort (h : Kept s₀ s) (d c) : NextKept s₀ (execDescriptorAbort d c s) := by
  unfold execDescriptorAbort
  extract_lets
  refine .unlessHalted h ?_
  split
  · exact .next h
  · split
    · exact .next h
    · exact .next (((h.loseBlocks ..).endDesc ..).afterDesc ..)

/-! ### Sys2Proof/Machine/Customs.lean -/

theorem Kept.cacheLeaf (h : Kept s₀ s) (fn pasid addr host log2 w) : Kept s₀ (s.cacheLeaf fn pasid addr host log2 w) :=
  .ite h.same h.same

theorem Kept.cacheTab (h : Kept s₀ s) (fn pasid at_ v x) : Kept s₀ (s.cacheTab fn pasid at_ v x) := by
  unfold State.cacheTab
  extract_lets
  split
  · exact h
  · exact h
  · extract_lets
    exact h.same

theorem Kept.xlateFault (h : Kept s₀ s) (fn pasid addr write reason) : Kept s₀ (s.xlateFault fn pasid addr write reason) := by
  unfold State.xlateFault
  extract_lets t t₁
  have ht : Kept s₀ t := (h.count ..).fnCount ..
  have ht₁ : Kept s₀ t₁ := .ite ht (((ht.setReg ..).setReg ..).setReg ..)
  exact ht₁.hiErr ..

theorem Kept.walkAll (h : Kept s₀ s) (fn pasid addr write n x) : Kept s₀ (s.walkAll fn pasid addr write n x).1 := by
  induction n generalizing s x with
  | zero => exact h
  | succ n ih =>
    cases x with
    | read a e w => exact ih (h.cacheTab ..) _
    | done hst l w => exact h
    | fail r => exact h

theorem Kept.xlate (h : Kept s₀ s) (fn pasid addr write) : Kept s₀ (s.xlate fn pasid addr write).1 := by
  unfold State.xlate
  extract_lets start r
  have hr : Kept s₀ r.1 := h.walkAll ..
  clear_value r start
  split
  · dsimp only
    split
    · exact hr.cacheLeaf ..
    · exact hr
  · exact hr.xlateFault ..
  · exact hr

theorem Kept.hostRead (h : Kept s₀ s) (fn pasid k addr n) : Kept s₀ (s.hostRead fn pasid k addr n).1 := by
  induction k generalizing s addr n with
  | zero => exact h
  | succ k ih =>
    unfold State.hostRead
    split
    · exact h
    · extract_lets m
      split
      next t _ e => exact (h.xlate ..).of_fst e
      next t _ e =>
        have ht : Kept s₀ t := (h.xlate ..).of_fst e
        split
        next u _ e' => exact (ih ht _ _).of_fst e'
        next u e' => exact (ih ht _ _).of_fst e'

theorem Kept.hostWrite (h : Kept s₀ s) (fn pasid k addr bs) : Kept s₀ (s.hostWrite fn pasid k addr bs).1 := by
  induction k generalizing s addr bs with
  | zero => exact h
  | succ k ih =>
    unfold State.hostWrite
    split
    · exact h
    · extract_lets m
      split
      next t _ e => exact (h.xlate ..).of_fst e
      next t _ e =>
        have ht : Kept s₀ t := (h.xlate ..).of_fst e
        exact ih (.ite ht (ht.writeHost ..)) _ _

theorem Kept.tenantRead (h : Kept s₀ s) (fn pasid addr n) : Kept s₀ (s.tenantRead fn pasid addr n).1 := h.hostRead ..

theorem Kept.tenantWrite (h : Kept s₀ s) (fn pasid addr bs) : Kept s₀ (s.tenantWrite fn pasid addr bs).1 := h.hostWrite ..

theorem Kept.xlateAnswer (h : Kept s₀ s) (fn pasid addr write host reason) : Kept s₀ (s.xlateAnswer fn pasid addr write host reason) :=
  h.same

theorem nextKept_execCustomsTranslate (h : Kept s₀ s) (fn pasid addr write) :
    NextKept s₀ (execCustomsTranslate fn pasid addr write s) := by
  unfold execCustomsTranslate
  extract_lets
  refine .next ?_
  split
  · exact h.xlateAnswer ..
  · exact (h.xlateFault ..).xlateAnswer ..
  · extract_lets
    exact h.same

theorem nextKept_execCustomsWalkReadDone (h : Kept s₀ s) (i ok) : NextKept s₀ (execCustomsWalkReadDone i ok s) := by
  unfold execCustomsWalkReadDone
  split
  · exact .next h
  next k _ =>
    extract_lets v x s₁ rest
    have hs₁ : Kept s₀ s₁ := .ite (h.cacheTab ..) h
    clear_value x
    refine .next ?_
    split
    · exact (Kept.ite (hs₁.same.cacheLeaf ..) hs₁.same).xlateAnswer ..
    · exact (hs₁.same.xlateFault ..).xlateAnswer ..
    · exact hs₁.same

theorem Kept.dropCached (h : Kept s₀ s) (leaf tab walk) : Kept s₀ (s.dropCached leaf tab walk) := h.same

theorem Kept.invalidate (h : Kept s₀ s) (m leaf tab walk) : NextKept s₀ (s.invalidate m leaf tab walk) := by
  unfold State.invalidate
  extract_lets t
  have ht : Kept s₀ t := h.dropCached ..
  exact .agentIf h ht.same

theorem nextKept_execCuInvRange (h : Kept s₀ s) (m fn order) : NextKept s₀ (execCuInvRange m fn order s) := h.invalidate ..

theorem nextKept_execCuInvInstance (h : Kept s₀ s) (m fn) : NextKept s₀ (execCuInvInstance m fn s) := h.invalidate ..

theorem nextKept_execCuInvFunction (h : Kept s₀ s) (m fn) : NextKept s₀ (execCuInvFunction m fn s) := h.invalidate ..

theorem nextKept_execCuInvAll (h : Kept s₀ s) (m) : NextKept s₀ (execCuInvAll m s) := h.invalidate ..

theorem nextKept_execCuInvDone (h : Kept s₀ s) : NextKept s₀ (execCuInvDone s) := .onlyIf h h.same

theorem nextKept_execCuCacheSweep (h : Kept s₀ s) : NextKept s₀ (execCuCacheSweep s) := by
  unfold execCuCacheSweep
  extract_lets u
  have hu : Kept s₀ u := h.reachRaw ..
  exact .onlyIf h hu.same

theorem nextKept_execCuCtrlWrite (h : Kept s₀ s) (m v) : NextKept s₀ (execCuCtrlWrite m v s) := .agentIf h (h.setReg ..)

/-! ### Sys2Proof/Machine/HostQueues.lean -/

theorem Kept.setSq (h : Kept s₀ s) (f i q) : Kept s₀ (s.setSq f i q) := h.same

theorem Kept.setCq (h : Kept s₀ s) (f i q) : Kept s₀ (s.setCq f i q) := h.same

theorem Kept.queueError (h : Kept s₀ s) (f) : Kept s₀ (s.queueError f) := (Kept.ite (h.sendVec ..) h).hiErr ..

theorem Kept.sqFault (h : Kept s₀ s) (f i code) : Kept s₀ (s.sqFault f i code) := .ite ((h.setSq ..).queueError ..) h

theorem Kept.cqFault (h : Kept s₀ s) (f i code) : Kept s₀ (s.cqFault f i code) := .ite ((h.setCq ..).queueError ..) h

theorem Kept.cqSignal (h : Kept s₀ s) (f i) : Kept s₀ (s.cqSignal f i) := by
  unfold State.cqSignal
  extract_lets _ _ _ s₁
  have hs₁ : Kept s₀ s₁ := h.setCq ..
  exact .ite (hs₁.sendVec ..) hs₁

theorem Kept.cqModerate (h : Kept s₀ s) (f i) : Kept s₀ (s.cqModerate f i) := by
  unfold State.cqModerate
  extract_lets _ _ s₁
  have hs₁ : Kept s₀ s₁ := h.setCq ..
  exact .ite (hs₁.cqSignal ..) hs₁

theorem Kept.countEvent (h : Kept s₀ s) (f e) : Kept s₀ (s.countEvent f e) := by
  unfold State.countEvent
  extract_lets
  split
  · exact h.fnCount ..
  · exact h.fnCount ..
  · exact h.fnCount ..
  · exact h.fnCount ..
  · exact h

theorem Kept.cqWrite (h : Kept s₀ s) (f i e) : Kept s₀ (s.cqWrite f i e).1 := by
  unfold State.cqWrite
  extract_lets
  split
  next t e₁ =>
    have ht : Kept s₀ t := (h.tenantWrite ..).of_fst e₁
    exact ht.cqFault ..
  next t e₁ =>
    have ht : Kept s₀ t := (h.tenantWrite ..).of_fst e₁
    extract_lets _ t₁
    have ht₁ : Kept s₀ t₁ := (ht.setCq ..).countEvent ..
    split
    next u e₂ =>
      have hu : Kept s₀ u := (ht₁.tenantWrite ..).of_fst e₂
      exact hu.cqModerate ..
    next u e₂ =>
      have hu : Kept s₀ u := (ht₁.tenantWrite ..).of_fst e₂
      exact hu.cqFault ..

theorem Kept.postCq (h : Kept s₀ s) (f i e) : Kept s₀ (s.postCq f i e) := by
  unfold State.postCq
  extract_lets
  split
  · exact h.setCq ..
  · split
    next u e₁ =>
      exact (h.cqWrite ..).of_fst e₁
    next u e₁ =>
      have hu : Kept s₀ u := (h.cqWrite ..).of_fst e₁
      extract_lets
      exact hu.setCq ..

theorem Kept.cqFlush (h : Kept s₀ s) (f i n) : Kept s₀ (s.cqFlush f i n) := by
  induction n generalizing s with
  | zero => exact h
  | succ n ih =>
    unfold State.cqFlush
    split
    · exact h
    · split
      · exact h
      · split
        next t e => exact ih (((h.cqWrite ..).of_fst e).setCq ..)
        next t e => exact (h.cqWrite ..).of_fst e

theorem Kept.fetchEntries (h : Kept s₀ s) (f i n) : Kept s₀ (s.fetchEntries f i n).1 := by
  induction n generalizing s with
  | zero => exact h
  | succ n ih =>
    unfold State.fetchEntries
    extract_lets q a
    split
    next t e => exact (h.tenantRead ..).of_fst e
    next t bs e =>
      have ht : Kept s₀ t := (h.tenantRead ..).of_fst e
      extract_lets e' c u
      split
      · exact ht
      · exact ih (ht.setSq ..).same

theorem nextKept_execSqTailDoorbell (h : Kept s₀ s) (f q tail) : NextKept s₀ (execSqTailDoorbell f q tail s) := by
  unfold execSqTailDoorbell
  extract_lets _ t
  have ht : Kept s₀ t := .ite (h.sqFault ..) (h.setSq ..)
  exact .onlyIf h ht

theorem nextKept_execSqEntryFetch (h : Kept s₀ s) (f q n) : NextKept s₀ (execSqEntryFetch f q n s) := by
  unfold execSqEntryFetch
  extract_lets _ g _ w t
  have hg : Kept s₀ g.1 := h.fetchEntries ..
  have hw : Kept s₀ w.1 := by
    unfold w
    split
    · exact hg
    · exact hg.tenantWrite ..
  have ht : Kept s₀ t := .ite (hw.sqFault ..) (.ite hw (hw.sqFault ..))
  exact .unlessHalted h (.onlyIf h ht)

theorem nextKept_execCqHeadWrite (h : Kept s₀ s) (f q head) : NextKept s₀ (execCqHeadWrite f q head s) := by
  unfold execCqHeadWrite
  extract_lets _ t
  have ht : Kept s₀ t := .ite (h.cqFault ..) ((h.setCq ..).cqFlush ..)
  exact .onlyIf h ht

theorem nextKept_execCqModTimer (h : Kept s₀ s) (f q) : NextKept s₀ (execCqModTimer f q s) := by
  unfold execCqModTimer
  extract_lets _ t
  have ht : Kept s₀ t := h.reachRaw ..
  exact .onlyIf h (ht.cqSignal ..)

theorem nextKept_execQueueEnable (h : Kept s₀ s) (m f i cq v) : NextKept s₀ (execQueueEnable m f i cq v s) := by
  unfold execQueueEnable
  extract_lets _ t _ t₁
  have ht : Kept s₀ t := h.setReg ..
  have ht₁ : Kept s₀ t₁ := .ite ((ht.setCq ..).cqFlush ..) (ht.setSq ..)
  exact .agentIf h ht₁

theorem nextKept_execQueueDisable (h : Kept s₀ s) (m f i cq) : NextKept s₀ (execQueueDisable m f i cq s) := by
  unfold execQueueDisable
  extract_lets _ t t₁
  have ht : Kept s₀ t := h.setReg ..
  have ht₁ : Kept s₀ t₁ := .ite (.ite (ht.cqFault ..) ht) (.ite (ht.sqFault ..) ht)
  exact .agentIf h ht₁

/-! ### Sys2Proof/Machine/Harbour.lean -/

theorem Kept.setMan (h : Kept s₀ s) (i m) : Kept s₀ (s.setMan i m) := by
  unfold State.setMan
  extract_lets t
  have ht : Kept s₀ t := h.store ..
  exact ht.same

theorem Kept.modMan (h : Kept s₀ s) (i f) : Kept s₀ (s.modMan i f) := h.setMan ..

theorem Kept.setBerth (h : Kept s₀ s) (k b) : Kept s₀ (s.setBerth k b) := by
  unfold State.setBerth
  extract_lets t
  have ht : Kept s₀ t := h.store ..
  exact ht.same

theorem Kept.btStart (h : Kept s₀ s) : Kept s₀ s.btStart := h.same

theorem Kept.waitOnce (h : Kept s₀ s) (i o) : Kept s₀ (s.waitOnce i o) := .ite h ((h.count ..).setMan ..)

theorem Kept.btHold (h : Kept s₀ s) (i) : Kept s₀ (s.btHold i) := (h.waitOnce ..).btStart

theorem Kept.addBerth (h : Kept s₀ s) (i tier frame) : Kept s₀ (s.addBerth i tier frame).1 := by
  unfold State.addBerth
  extract_lets
  split
  · exact h
  · exact (h.setBerth ..).setMan ..

theorem Kept.setWritten (h : Kept s₀ s) (i n) : Kept s₀ (s.setWritten i n) := by
  unfold State.setWritten
  extract_lets _ t
  have ht : Kept s₀ t := foldl_keeps (fun t₁ x ht₁ => by
      extract_lets
      exact .ite ht₁ (ht₁.setBerth ..)) _ h
  exact ht.modMan ..

theorem Kept.putPeer (h : Kept s₀ s) (peer a bs) : Kept s₀ (s.putPeer peer a bs) := h.same

theorem Kept.sliceStore (h : Kept s₀ s) (r t f k o bs) : Kept s₀ (s.sliceStore r t f k o bs) := by
  unfold State.sliceStore
  split
  · exact h.store ..
  · exact h.putPeer ..

theorem Kept.copyBerth (h : Kept s₀ s) (r t f t' f' got) : Kept s₀ (s.copyBerth r t f t' f' got) :=
  foldl_keeps (fun _ _ ht₁ => ht₁.sliceStore ..) _ h

theorem Kept.growBerth (h : Kept s₀ s) (i) : Kept s₀ (s.growBerth i).1 := by
  unfold State.growBerth
  dsimp only
  split
  · exact h
  · split
    next t e => exact (h.addBerth ..).of_fst e
    next t e =>
      have ht := (h.addBerth ..).of_fst e
      dsimp only
      exact (ht.modMan ..).modMan ..

theorem Kept.issueMirror (h : Kept s₀ s) (i byStep) : Kept s₀ (s.issueMirror i byStep) := by
  unfold State.issueMirror
  extract_lets
  exact .ite h (foldl_keeps (fun t x ht => by
      extract_lets
      exact .ite ht (((ht.setBerth ..).putPeer ..).setMan ..)) _ h)

theorem Kept.sendRecord (h : Kept s₀ s) (i) : Kept s₀ (s.sendRecord i) := by
  unfold State.sendRecord
  extract_lets
  split
  · exact .ite ((h.setMan ..).putPeer ..) h
  · exact h

theorem Kept.takeCkpt (h : Kept s₀ s) (i) : Kept s₀ (s.takeCkpt i) := by
  unfold State.takeCkpt
  extract_lets t
  have ht : Kept s₀ t := h.issueMirror ..
  exact .ite ((ht.setMan ..).sendRecord ..) ht

theorem Kept.takeSpare (h : Kept s₀ s) (i) : Kept s₀ (s.takeSpare i) := .ite h (h.setMan ..)

theorem Kept.releaseBerths (h : Kept s₀ s) (i) : Kept s₀ (s.releaseBerths i) := by
  unfold State.releaseBerths
  extract_lets
  exact (foldl_keeps (fun _ _ ht => ht.setBerth ..) _ h).modMan ..

theorem Kept.postEvent (h : Kept s₀ s) (i event status reason step) : Kept s₀ (s.postEvent i event status reason step) := h.postCq ..

theorem Kept.postTokens (h : Kept s₀ s) (i first ts n) : Kept s₀ (s.postTokens i first ts n) := by
  induction n generalizing s first ts with
  | zero => cases ts <;> exact h
  | succ n ih =>
    cases ts with
    | nil => exact h
    | cons x xs => exact ih (h.postCq ..) _ _

theorem Kept.emitTokens (h : Kept s₀ s) (i ts) : Kept s₀ (s.emitTokens i ts) := (h.modMan ..).postTokens ..

theorem Kept.flushTokens (h : Kept s₀ s) (i) : Kept s₀ (s.flushTokens i) := by
  unfold State.flushTokens
  extract_lets
  exact (h.postTokens ..).modMan ..

theorem Kept.writeProv (h : Kept s₀ s) (i event part) : Kept s₀ (s.writeProv i event part) := by
  unfold State.writeProv
  extract_lets
  split
  · exact h
  · split
    next u e =>
      have hu : Kept s₀ u := (h.tenantWrite ..).of_fst e
      exact hu.setReg ..
    next u e =>
      have hu : Kept s₀ u := (h.tenantWrite ..).of_fst e
      exact hu.count ..

theorem Kept.dumpStatus (h : Kept s₀ s) (f entry tag status len) : Kept s₀ (s.dumpStatus f entry tag status len) := by
  unfold State.dumpStatus
  extract_lets _ _ t t₁
  have ht : Kept s₀ t := h.tenantWrite ..
  have ht₁ : Kept s₀ t₁ := ht.tenantWrite ..
  exact .ite ht₁ (ht₁.fnCount ..)

theorem Kept.bindDumps (h : Kept s₀ s) (i) : Kept s₀ (s.bindDumps i) := by
  unfold State.bindDumps
  extract_lets
  split
  · exact h
  · split
    next t e =>
      exact (h.tenantRead ..).of_fst e
    next t _ e =>
      have ht : Kept s₀ t := (h.tenantRead ..).of_fst e
      exact foldl_keeps (fun t₁ x ht₁ => by
          extract_lets
          exact .ite ht₁ (.ite (ht₁.dumpStatus ..) (ht₁.modMan ..))) _ ht

theorem Kept.writeDump (h : Kept s₀ s) (i b d) : Kept s₀ (s.writeDump i b d) := by
  unfold State.writeDump
  extract_lets
  split
  · exact h.dumpStatus ..
  · extract_lets
    split
    next t e =>
      have ht : Kept s₀ t := (h.tenantWrite ..).of_fst e
      exact ht.dumpStatus ..
    next t e =>
      have ht : Kept s₀ t := (h.tenantWrite ..).of_fst e
      split
      next t₁ e₁ =>
        have ht₁ : Kept s₀ t₁ := (ht.tenantWrite ..).of_fst e₁
        exact ht₁.dumpStatus ..
      next t₁ e₁ =>
        have ht₁ : Kept s₀ t₁ := (ht.tenantWrite ..).of_fst e₁
        exact (ht₁.dumpStatus ..).fnCount ..

theorem Kept.dueDumps (h : Kept s₀ s) (i ds) : Kept s₀ (s.dueDumps i ds) := foldl_keeps (fun _ _ ht => ht.writeDump ..) _ (h.setMan ..)

theorem Kept.dropDumps (h : Kept s₀ s) (i) : Kept s₀ (s.dropDumps i) := foldl_keeps (fun _ _ ht => ht.dumpStatus ..) _ (h.setMan ..)

theorem Kept.svLog (h : Kept s₀ s) (f words) : Kept s₀ (s.svLog f words) := by
  unfold State.svLog
  extract_lets
  split
  · exact h
  · extract_lets
    exact h.same

theorem Kept.svRelease (h : Kept s₀ s) (i) : Kept s₀ (s.svRelease i) := by
  unfold State.svRelease
  split
  · exact h
  · exact (h.svLog ..).modMan ..

theorem Kept.svPack (h : Kept s₀ s) : Kept s₀ s.svPack := h.same

theorem Kept.svStart (h : Kept s₀ s) : Kept s₀ s.svStart := .ite h h.svPack

theorem Kept.freeMan (h : Kept s₀ s) (i) : Kept s₀ (s.freeMan i) := h.setMan ..

theorem Kept.prefillOver (h : Kept s₀ s) (i) : Kept s₀ (s.prefillOver i) := by
  unfold State.prefillOver
  extract_lets _ _ t
  have ht : Kept s₀ t := h.same
  split
  · exact .ite (ht.modMan ..) ht
  · exact ht

theorem Kept.abortPrefill (h : Kept s₀ s) (i) : Kept s₀ (s.abortPrefill i) := by
  unfold State.abortPrefill
  extract_lets _ _ _ t t₁
  have ht : Kept s₀ t := by
    unfold t
    split
    · exact h.abortCtx ..
    · exact h
  have ht₁ : Kept s₀ t₁ := foldl_keeps (fun t₂ x ht₂ => by
      extract_lets
      exact ht₂.postRecord ..) _ ht
  exact .ite (h.prefillOver ..) ((ht₁.same.serveWait ..).prefillOver ..)

theorem Kept.placeAgain (h : Kept s₀ s) (i) : Kept s₀ (s.placeAgain i) := by
  unfold State.placeAgain
  extract_lets _ _ t
  have ht : Kept s₀ t := foldl_keeps (fun _ _ ht₁ => ht₁.setBerth ..) _ (h.abortPrefill ..)
  exact ht.modMan ..

theorem Kept.freeRecord (h : Kept s₀ s) (i) : Kept s₀ (s.freeRecord i) := .ite (h.putPeer ..) h

theorem Kept.reclaim (h : Kept s₀ s) (i) : Kept s₀ (s.reclaim i) :=
  (((((h.abortPrefill ..).freeRecord ..).modMan ..).releaseBerths ..).svRelease ..).freeMan ..

theorem Kept.endRequest (h : Kept s₀ s) (i event status reason) : Kept s₀ (s.endRequest i event status reason) := by
  unfold State.endRequest
  extract_lets t t₁
  have ht : Kept s₀ t := (h.flushTokens ..).dropDumps ..
  have ht₁ : Kept s₀ t₁ := .ite ht (ht.writeProv ..)
  exact (ht₁.postEvent ..).reclaim ..

theorem Kept.makeReady (h : Kept s₀ s) (i) : Kept s₀ (s.makeReady i) := by
  unfold State.makeReady
  extract_lets _ t
  have ht : Kept s₀ t := h.setMan ..
  exact .ite ht ht.same

theorem Kept.pauseLanded (h : Kept s₀ s) (i) : Kept s₀ (s.pauseLanded i) := .ite (h.takeCkpt ..) h

theorem Kept.pauseMoves (h : Kept s₀ s) (i mv) : Kept s₀ (s.pauseMoves i mv) := by
  unfold State.pauseMoves
  extract_lets _ _ _ t
  have ht : Kept s₀ t := foldl_keeps (fun t₁ x ht₁ => by
      split
      · extract_lets
        exact ht₁.setBerth ..
      · exact ht₁) _ h
  exact (ht.modMan ..).pauseLanded ..

theorem Kept.pauseBegin (h : Kept s₀ s) (i reason cmd) : Kept s₀ (s.pauseBegin i reason cmd) := by
  unfold State.pauseBegin
  extract_lets _ s₁ s₂ s₃ s₄
  have hs₁ : Kept s₀ s₁ := (h.flushTokens ..).dropDumps ..
  have hs₂ : Kept s₀ s₂ := .ite (hs₁.growBerth ..) hs₁
  have hs₃ : Kept s₀ s₃ := .ite (hs₂.setWritten ..) hs₂
  have hs₄ : Kept s₀ s₄ := hs₃.issueMirror ..
  split
  · exact (h.modMan ..).btHold ..
  · split
    · exact .ite (hs₄.endRequest ..) (hs₄.endRequest ..)
    · exact (hs₄.setMan ..).pauseMoves ..

theorem Kept.turnEnds (h : Kept s₀ s) (i reason) : Kept s₀ (s.turnEnds i reason) := .ite (h.pauseBegin ..) (h.endRequest ..)

theorem Kept.countSel (h : Kept s₀ s) : Kept s₀ s.countSel := (h.setReg ..).setReg ..

theorem Kept.acceptToken (h : Kept s₀ s) (i tok stop z) : Kept s₀ (s.acceptToken i tok stop z) := h.setMan ..

theorem Kept.noToken (h : Kept s₀ s) (i) : Kept s₀ (s.noToken i) := h.count ..

/-! ### Sys2Proof/Machine/Package.lean -/

theorem nextKept_execRingTransferInject (h : Kept s₀ s) (src dst use payload) :
    NextKept s₀ (execRingTransferInject src dst use payload s) :=
  .onlyIf h h.same

theorem Kept.ringArrive (h : Kept s₀ s) (t) : Kept s₀ (s.ringArrive t) := h.same

theorem nextKept_execRingTransferDeliver (h : Kept s₀ s) (src dst cls corrected) :
    NextKept s₀ (execRingTransferDeliver src dst cls corrected s) := by
  unfold execRingTransferDeliver
  extract_lets _ u
  have hu : Kept s₀ u := h.same
  split
  · exact .next h
  · extract_lets
    exact .next (.ite (hu.capture ..) (hu.ringArrive ..))

theorem Kept.startClock (h : Kept s₀ s) (d) : Kept s₀ (s.startClock d) := .ite h h.same

theorem nextKept_execClockDomainStop (h : Kept s₀ s) (d) : NextKept s₀ (execClockDomainStop d s) := .onlyIf h h.same

theorem nextKept_execOcxoStable (h : Kept s₀ s) : NextKept s₀ (execOcxoStable s) := .next h.same

/-! ### Sys2Proof/Machine/Radio.lean -/

theorem Kept.abortRd (h : Kept s₀ s) : Kept s₀ s.abortRd := by
  unfold State.abortRd
  extract_lets _ t
  have ht : Kept s₀ t := foldl_keeps (fun _ _ ht₁ => ht₁.abortCtx ..) _ h
  exact foldl_keeps (fun _ _ ht₁ => ht₁.placeAgain ..) _ ht

theorem nextKept_execFhPlanLoad (h : Kept s₀ s) (m) : NextKept s₀ (execFhPlanLoad m s) := by
  unfold execFhPlanLoad
  refine .agentIf h (Kept.mgmtEvent ?_)
  split
  · exact h.same
  · exact .ite (h.abortRd.startClock ..).same h.same

theorem nextKept_execFhPlanUnload (h : Kept s₀ s) (m) : NextKept s₀ (execFhPlanUnload m s) := .agentIf h h.same.mgmtEvent

theorem nextKept_execFhPlanCancel (h : Kept s₀ s) (m) : NextKept s₀ (execFhPlanCancel m s) := .agentIf h h.same.mgmtEvent

theorem Kept.usePlan (h : Kept s₀ s) (p) : Kept s₀ (s.usePlan p) := h.same

theorem Kept.activatePlan (h : Kept s₀ s) (p) : Kept s₀ (s.activatePlan p) := by
  unfold State.activatePlan
  extract_lets _ t
  have ht : Kept s₀ t := h.usePlan ..
  exact ht.same

theorem Kept.endPlan (h : Kept s₀ s) : Kept s₀ s.endPlan := by
  unfold State.endPlan
  extract_lets _ t
  have ht : Kept s₀ t := h.usePlan ..
  exact ht.same

theorem nextKept_execCellShed (h : Kept s₀ s) : NextKept s₀ (execCellShed s) := by
  unfold execCellShed
  split
  · exact .next h
  · extract_lets v
    clear_value v
    cases v with
    | nil => exact .next h
    | cons c cs => exact .onlyIf h ((h.reachNs ..).same.hiErr ..)

theorem Kept.seqCheck (h : Kept s₀ s) (i seq) : Kept s₀ (s.seqCheck i seq) := by
  unfold State.seqCheck
  extract_lets _ _ _ t
  have ht : Kept s₀ t := h.same
  exact .ite (ht.count ..) ht

theorem Kept.txSeqCheck (h : Kept s₀ s) (i seq) : Kept s₀ (s.txSeqCheck i seq) := by
  unfold State.txSeqCheck
  extract_lets _ _ t
  have ht : Kept s₀ t := h.same
  exact .ite (ht.count ..) ht

theorem nextKept_execFhCplaneRx (h : Kept s₀ s) (port sub h' eaxc sec ext) :
    NextKept s₀ (execFhCplaneRx port sub h' eaxc sec ext s) := by
  unfold execFhCplaneRx
  extract_lets
  refine .unlessHalted h ?_
  refine .onlyIf h ?_
  split
  · exact h.count ..
  · split
    · exact h.seqCheck ..
    · split
      · exact h.txSeqCheck ..
      · exact h.count ..

theorem nextKept_execFhUplaneRx (h : Kept s₀ s) (port sub h' eaxc comp width frame slot sym arrival startPrb prbs buf) :
    NextKept s₀ (execFhUplaneRx port sub h' eaxc comp width frame slot sym arrival startPrb prbs buf s) := by
  unfold execFhUplaneRx
  extract_lets s0
  have hs0 : Kept s₀ s0 := h.reachRaw ..
  refine .unlessHalted h ?_
  refine .onlyIf h ?_
  split
  · exact hs0.count ..
  · split
    · split
      · exact hs0.txSeqCheck ..
      · exact hs0.count ..
    · extract_lets s1 _ _ _ _ _ _ s2 s3
      have hs1 : Kept s₀ s1 := hs0.seqCheck ..
      have hs2 : Kept s₀ s2 := hs1.store ..
      have hs3 : Kept s₀ s3 := hs2.count ..
      split
      · exact hs1.count ..
      · exact hs1.count ..
      · exact .ite hs1 (.ite (hs1.count ..) hs3.same)

theorem nextKept_execFhRxWindowClose (h : Kept s₀ s) (i frame slot sym buf) :
    NextKept s₀ (execFhRxWindowClose i frame slot sym buf s) := by
  unfold execFhRxWindowClose
  extract_lets
  refine .unlessHalted h ?_
  split
  · exact .next h
  · split
    · exact .next h
    · extract_lets _ _ s0 _ s1 s2
      have hs0 : Kept s₀ s0 := h.reachC ..
      have hs1 : Kept s₀ s1 := foldl_keeps (fun _ _ ht => ht.store ..) _ hs0
      have hs2 : Kept s₀ s2 := by
        unfold s2
        split
        · exact .ite hs1 (hs1.storeNat ..)
        · exact hs1
      exact .onlyIf h hs2.same

theorem nextKept_execAgcSymbolUpdate (h : Kept s₀ s) (i frame slot sym side) :
    NextKept s₀ (execAgcSymbolUpdate i frame slot sym side s) := by
  unfold execAgcSymbolUpdate
  extract_lets
  refine .unlessHalted h ?_
  split
  · exact .next h
  · split
    · extract_lets _ s0 _ _ _ _ _ _ _ t
      have hs0 : Kept s₀ s0 := h.reachC ..
      have ht : Kept s₀ t := hs0.store ..
      exact .onlyIf h ht.same
    · exact .next h

theorem nextKept_execAgcFreezeEnd (h : Kept s₀ s) (c) : NextKept s₀ (execAgcFreezeEnd c s) := by
  unfold execAgcFreezeEnd
  extract_lets
  refine .unlessHalted h ?_
  split
  · exact .onlyIf h h.same
  · exact .next h

theorem nextKept_execFhAgcRel (h : Kept s₀ s) (m c) : NextKept s₀ (execFhAgcRel m c s) := .agentIf h h.same

theorem nextKept_execFhAgcCfgWrite (h : Kept s₀ s) (m v) : NextKept s₀ (execFhAgcCfgWrite m v s) := .agentIf h (h.setReg ..)

theorem nextKept_execFhPortCfgWrite (h : Kept s₀ s) (m p v) : NextKept s₀ (execFhPortCfgWrite m p v s) := .agentIf h (h.setReg ..)

theorem Kept.prachReported (h : Kept s₀ s) (c core tOcc d) : Kept s₀ (s.prachReported c core tOcc d) := by
  unfold State.prachReported
  extract_lets t u _ t₁
  have ht : Kept s₀ t := (h.count ..).irqTo ..
  have hu : Kept s₀ u := ht.storeNat ..
  have ht₁ : Kept s₀ t₁ := .ite ht hu.same
  exact ht₁.same

theorem nextKept_execPrachOccasion (h : Kept s₀ s) (c frame slot core reps) :
    NextKept s₀ (execPrachOccasion c frame slot core reps s) := by
  unfold execPrachOccasion
  refine .unlessHalted h ?_
  split
  · exact .next h
  · extract_lets
    split
    · extract_lets _ _ t _ _ _ r
      have ht : Kept s₀ t := h.reachC ..
      have hr : Kept s₀ r := ht.drew ..
      exact .onlyIf h (.ite (ht.count ..) (foldl_keeps (fun _ _ ht₁ => ht₁.prachReported ..) _ hr.same))
    · exact .next h

theorem nextKept_execFftJobQueue (h : Kept s₀ s) (e src dst size mode) : NextKept s₀ (execFftJobQueue e src dst size mode s) :=
  .unlessHalted h (.onlyIf h h.same)

theorem nextKept_execFftJobDone (h : Kept s₀ s) (e radices) : NextKept s₀ (execFftJobDone e radices s) := by
  unfold execFftJobDone
  extract_lets
  refine .unlessHalted h ?_
  split
  · exact .next h
  · extract_lets _ _ t
    have ht : Kept s₀ t := h.store ..
    exact .onlyIf h ht.same

theorem Kept.configIn (h : Kept s₀ s) (c frame slot up) : Kept s₀ (s.configIn c frame slot up) :=
  .ite h (.ite ((h.addNote ..).count ..) (h.addNote ..))

theorem nextKept_execSlotConfigRx (h : Kept s₀ s) (c frame slot dirs a) : NextKept s₀ (execSlotConfigRx c frame slot dirs a s) := by
  unfold execSlotConfigRx
  refine .unlessHalted h ?_
  split
  · exact .next h
  · extract_lets t
    have ht : Kept s₀ t := .ite (h.configIn ..) h
    exact .onlyIf h (.ite (ht.configIn ..) ht)

theorem Kept.configLate (h : Kept s₀ s) (c frame slot up) : NextKept s₀ (s.configLate c frame slot up) := by
  unfold State.configLate
  split
  · exact .next h
  · extract_lets _ t
    have ht : Kept s₀ t := h.reachNs ..
    exact .onlyIf h ((ht.addNote ..).count ..)

theorem nextKept_execUlConfigLate (h : Kept s₀ s) (c frame slot) : NextKept s₀ (execUlConfigLate c frame slot s) :=
  .unlessHalted h (h.configLate ..)

theorem nextKept_execDlConfigLate (h : Kept s₀ s) (c frame slot) : NextKept s₀ (execDlConfigLate c frame slot s) :=
  .unlessHalted h (h.configLate ..)

theorem Kept.nrxUse (h : Kept s₀ s) (mu bs) : Kept s₀ (s.nrxUse mu bs) := h.same

theorem nextKept_execNrxCompletionWord (h : Kept s₀ s) (src dst word n alloc passes bookings) :
    NextKept s₀ (execNrxCompletionWord src dst word n alloc passes bookings s) := by
  unfold execNrxCompletionWord
  extract_lets
  refine .unlessHalted h ?_
  split
  · exact .next h
  · extract_lets _ _ t
    have ht : Kept s₀ t := (((h.nrxUse ..).store ..).drew ..).storeNat ..
    exact .onlyIf h (.ite (h.count ..) (.ite ht h))

/-! ### Sys2Proof/Machine/Dibber.lean -/

theorem Kept.setDb (h : Kept s₀ s) (c x) : Kept s₀ (s.setDb c x) := h.same

theorem Kept.dbRaise (h : Kept s₀ s) (c slot) : Kept s₀ (s.dbRaise c slot) := by
  unfold State.dbRaise
  extract_lets _ _ _ _ _ s₁
  have hs₁ : Kept s₀ s₁ := h.same
  exact .ite hs₁ (.ite ((hs₁.setReg ..).count ..) (hs₁.setDb ..))

theorem nextKept_execDibberSymIrq (h : Kept s₀ s) (c) : NextKept s₀ (execDibberSymIrq c s) := by
  unfold execDibberSymIrq
  extract_lets t
  have ht : Kept s₀ t := h.dbRaise ..
  exact .unlessHalted h (.onlyIf h (ht.setDb ..))

theorem nextKept_execDibberSlotIrq (h : Kept s₀ s) (c sym) : NextKept s₀ (execDibberSlotIrq c sym s) := by
  unfold execDibberSlotIrq
  extract_lets t
  have ht : Kept s₀ t := (Kept.ite (h.dbRaise ..) h).dbRaise ..
  exact .unlessHalted h (.onlyIf h (ht.setDb ..))

theorem nextKept_execDibberReti (h : Kept s₀ s) (c) : NextKept s₀ (execDibberReti c s) := .unlessHalted h (.onlyIf h (h.setDb ..))

theorem Kept.dbFlags (h : Kept s₀ s) (c ovf sat divz) : Kept s₀ (s.dbFlags c ovf sat divz) := by
  unfold State.dbFlags
  extract_lets _ s₁ s₂ s₃
  have hs₁ : Kept s₀ s₁ := h.setDb ..
  have hs₂ : Kept s₀ s₂ := hs₁.setReg ..
  have hs₃ : Kept s₀ s₃ := hs₂.setReg ..
  exact hs₃.count ..

theorem Kept.dbLanes (h : Kept s₀ s) (c f lanes) : NextKept s₀ (s.dbLanes c f lanes) := .onlyIf h ((h.setDb ..).dbFlags ..)

theorem Kept.dbEcc (h : Kept s₀ s) (c bad) : Kept s₀ (s.dbEcc c bad) := .ite (h.setReg ..) h

theorem Kept.dbLoad (h : Kept s₀ s) (c d src lanes) : Kept s₀ (s.dbLoad c d src lanes) := by
  unfold State.dbLoad
  extract_lets x n
  split
  next bs bad t e =>
    have ht : Kept s₀ t := by
      cases src with
      | dmem o =>
        cases e
        exact h.dbEcc ..
      | device a =>
        dsimp only at e
        split at e
        · cases e
          exact h.noteReads ..
        · cases e
          exact h
    exact (ht.drew ..).setDb ..

theorem nextKept_execDibberCmac (h : Kept s₀ s) (c acc a b conj neg lanes) : NextKept s₀ (execDibberCmac c acc a b conj neg lanes s) :=
  .unlessHalted h (h.dbLanes ..)

theorem nextKept_execDibberLaneOp (h : Kept s₀ s) (c op lanes) : NextKept s₀ (execDibberLaneOp c op lanes s) := by
  unfold execDibberLaneOp
  refine .unlessHalted h ?_
  split
  · exact .onlyIf h (h.dbLoad ..)
  · exact .onlyIf h (h.setDb ..)
  · exact h.dbLanes ..

theorem Kept.llrRun (h : Kept s₀ s) (a al n) : Kept s₀ (s.llrRun a al n) := h.same

theorem nextKept_execDibberStore (h : Kept s₀ s) (c acc sh rnd wide symm dst lanes) :
    NextKept s₀ (execDibberStore c acc sh rnd wide symm dst lanes s) := by
  unfold execDibberStore
  extract_lets _ _ _ _ _ s1 _ t
  have hs1 : Kept s₀ s1 := h.setDb ..
  have ht : Kept s₀ t := by
    unfold t
    split
    · exact h.setDb ..
    · exact h.setDb ..
    · exact .ite (hs1.store ..) hs1
    · exact .ite ((hs1.store ..).llrRun ..) hs1
  exact .unlessHalted h (.onlyIf h (ht.dbFlags ..))

theorem Kept.dbControl (h : Kept s₀ s) (c v x) : Kept s₀ (s.dbControl c v x) := (h.setReg ..).setDb ..

theorem nextKept_execDbCtrlReset (h : Kept s₀ s) (m c v) : NextKept s₀ (execDbCtrlReset m c v s) := .agentIf h (h.dbControl ..)

theorem nextKept_execDbCtrlRun (h : Kept s₀ s) (m c v) : NextKept s₀ (execDbCtrlRun m c v s) := .agentIf h (h.dbControl ..)

/-! ### Sys2Proof/Machine/Drip.lean -/

theorem Kept.dlIrq (h : Kept s₀ s) (n) : Kept s₀ (s.dlIrq n) := h.irqTo ..

theorem nextKept_execDlCtrlEnable (h : Kept s₀ s) (m n on irqCore) : NextKept s₀ (execDlCtrlEnable m n on irqCore s) := by
  unfold execDlCtrlEnable
  extract_lets _ _ t
  have ht : Kept s₀ t := (h.setRegB ..).setRegB ..
  exact .agentIf h (.ite (ht.setDl ..) ht)

theorem nextKept_execDlCtrlStop (h : Kept s₀ s) (m n) : NextKept s₀ (execDlCtrlStop m n s) := .agentIf h (h.setRegB ..)

theorem nextKept_execDlCtrlUnstop (h : Kept s₀ s) (m n) : NextKept s₀ (execDlCtrlUnstop m n s) := .agentIf h (h.setRegB ..)

theorem Kept.loseOutput (h : Kept s₀ s) (j) : Kept s₀ (s.loseOutput j) := by
  unfold State.loseOutput
  split
  · exact h
  · exact foldl_keeps (fun t x ht => by
        extract_lets
        exact (ht.store ..).drew ..) _ h

theorem nextKept_execDlCtrlAbort (h : Kept s₀ s) (m n) : NextKept s₀ (execDlCtrlAbort m n s) := by
  unfold execDlCtrlAbort
  extract_lets _ s' _ _ t
  have hs' : Kept s₀ s' := by
    unfold s'
    split
    · exact h.loseOutput ..
    · exact h
  have ht : Kept s₀ t := hs'.setDl ..
  exact .agentIf h (.ite (ht.dlIrq ..) ht)

theorem nextKept_execDlCtrlResume (h : Kept s₀ s) (m n) : NextKept s₀ (execDlCtrlResume m n s) := .agentIf h (h.setDl ..)

theorem nextKept_execDlCtrlClrCnt (h : Kept s₀ s) (m n) : NextKept s₀ (execDlCtrlClrCnt m n s) := .agentIf h (h.setDl ..)

theorem nextKept_execDlJPush (h : Kept s₀ s) (m n) : NextKept s₀ (execDlJPush m n s) := .agentIf h (h.setDl ..)

theorem nextKept_execDlActLoad (h : Kept s₀ s) (n) : NextKept s₀ (execDlActLoad n s) := by
  unfold execDlActLoad
  extract_lets
  refine .unlessHalted h ?_
  split
  · extract_lets
    exact .onlyIf h ((h.noteRanges ..).setDl ..)
  · exact .next h

theorem nextKept_execDlJobStart (h : Kept s₀ s) (n waited) : NextKept s₀ (execDlJobStart n waited s) := by
  unfold execDlJobStart
  extract_lets
  refine .unlessHalted h ?_
  split
  · extract_lets _ _ t
    have ht : Kept s₀ t := .ite (h.setDl ..) (((Kept.ite h (h.loseOutput ..)).setDl ..).dlIrq ..)
    exact .onlyIf h ht
  · exact .next h

theorem Kept.writeVec (h : Kept s₀ s) (n j a w o v i) : Kept s₀ (s.writeVec n j a w o v i).1 := by
  unfold State.writeVec
  extract_lets _ _ _ _ t
  have ht : Kept s₀ t := h.store ..
  split
  · exact ht.store ..
  · exact ht

theorem nextKept_execDlJobDone (h : Kept s₀ s) (n) : NextKept s₀ (execDlJobDone n s) := by
  unfold execDlJobDone
  extract_lets
  refine .unlessHalted h ?_
  split
  · exact .next h
  · split
    · extract_lets x t t₁
      have hx : Kept s₀ x.1 := Kept.foldl_fst (fun y x₁ hy => by
          extract_lets z
          have hz : Kept s₀ z.1 := hy.writeVec ..
          exact hz) _ h
      have ht : Kept s₀ t := (hx.setDl ..).count ..
      have ht₁ : Kept s₀ t₁ := ht.trace ..
      exact .next (.ite (ht₁.dlIrq ..) ht₁)
    · exact .next h

theorem nextKept_execDlJobError (h : Kept s₀ s) (n) : NextKept s₀ (execDlJobError n s) := by
  unfold execDlJobError
  extract_lets
  refine .unlessHalted h ?_
  split
  · exact .next h
  · split
    · exact .next h
    · exact .next (((h.loseOutput ..).setDl ..).dlIrq ..)

theorem Kept.groupLeaves (h : Kept s₀ s) (n j) : Kept s₀ (s.groupLeaves n j) := by
  unfold State.groupLeaves
  extract_lets
  split
  · exact .ite (h.setDl ..) h
  · exact h

theorem nextKept_execDlCntLoRead (h : Kept s₀ s) (m n c) : NextKept s₀ (execDlCntLoRead m n c s) := .onlyIf h (h.setDl ..)

/-! ### Sys2Proof/Machine/ZelicOps.lean -/

theorem Kept.traceZl (h : Kept s₀ s) (kind m peer) : Kept s₀ (s.traceZl kind m peer) := .ite (h.trace ..) h

theorem Kept.setLink (h : Kept s₀ s) (z x) : Kept s₀ (s.setLink z x) := h.same

theorem Kept.zlSend (h : Kept s₀ s) (o) : Kept s₀ (s.zlSend o) := h.same

theorem Kept.zlRespond (h : Kept s₀ s) (via m) : Kept s₀ (s.zlRespond via m) := by
  unfold State.zlRespond
  extract_lets
  split
  · exact h.same
  · split
    · exact .ite (h.zlSend ..) (h.count ..)
    · exact h.count ..

theorem Kept.setTag (h : Kept s₀ s) (t x) : Kept s₀ (s.setTag t x) := h.same

theorem Kept.zlDone (h : Kept s₀ s) (d) : Kept s₀ (s.zlDone d) := h.same

theorem Kept.copyAnswer (h : Kept s₀ s) (id status) : Kept s₀ (s.copyAnswer id status) := by
  unfold State.copyAnswer
  extract_lets
  split
  · exact h
  · extract_lets
    exact .ite (h.same.zlDone ..) h.same

theorem Kept.releaseTag (h : Kept s₀ s) (t r) : Kept s₀ (s.releaseTag t r) := h.setTag ..

theorem Kept.zlFail (h : Kept s₀ s) (t r status) : Kept s₀ (s.zlFail t r status) := by
  unfold State.zlFail
  extract_lets u
  have hu : Kept s₀ u := h.releaseTag ..
  split
  · exact hu
  · exact hu.copyAnswer ..
  · exact hu.zlDone ..

theorem Kept.zlUnsent (h : Kept s₀ s) (i m copy status) : Kept s₀ (s.zlUnsent i m copy status) := by
  unfold State.zlUnsent
  split
  · exact h
  · exact h.copyAnswer ..
  · exact h.zlDone ..

theorem Kept.zlGo (h : Kept s₀ s) (i m copy dst origs) : SomeKept s₀ (s.zlGo i m copy dst origs) := by
  unfold State.zlGo
  refine .ite (.of_some (h.zlUnsent ..)) (.ite (.of_some (h.zlUnsent ..)) (.ite (.of_some (h.zlUnsent ..)) ?_))
  split
  · exact .of_none
  · extract_lets gen m' q
    split
    · exact .of_some (h.setTag ..).same
    · exact .of_some ((h.setTag ..).zlSend ..)

theorem Kept.zlChunks (h : Kept s₀ s) (i get cls dst addr qaddr left index copy fuel) :
    Kept s₀ (s.zlChunks i get cls dst addr qaddr left index copy fuel).1 := by
  induction fuel generalizing s addr qaddr left with
  | zero => exact h
  | succ fuel ih =>
    unfold State.zlChunks
    extract_lets n m u
    have hu : Kept s₀ u := .ite h (h.noteReads ..)
    split
    · exact h
    · split
      next v e => exact ih ((hu.zlGo ..).kept e) ..
      next => exact h

theorem Kept.zlTry (h : Kept s₀ s) (h') : Kept s₀ (s.zlTry h').1 := by
  unfold State.zlTry
  split
  · split
    next u e =>
      exact (h.zlGo ..).kept e
    · exact h
  · split
    · exact h
    · exact h
  · exact h.zlChunks ..

theorem Kept.zlPump (h : Kept s₀ s) : Kept s₀ s.zlPump := by
  unfold State.zlPump
  extract_lets _ r r₁
  have hr : Kept s₀ r.1 := Kept.foldl_fst (fun y x hy => by
      split
      · exact hy
      · split
        next u _ e =>
          exact (hy.zlTry ..).of_fst e
        next u e =>
          have hu : Kept s₀ u := (hy.zlTry ..).of_fst e
          exact hu) _ h.same
  have hr₁ : Kept s₀ r₁ := hr
  exact hr₁.same

theorem Kept.zlHold (h : Kept s₀ s) (h') : Kept s₀ (s.zlHold h') := h.same.zlPump

theorem Kept.zlDropOut (h : Kept s₀ s) (o) : Kept s₀ (s.zlDropOut o) := by
  unfold State.zlDropOut
  split
  · exact h.count ..
  · split
    · exact h
    · split
      · exact h.zlFail ..
      · exact h

theorem Kept.linkLost (h : Kept s₀ s) (z st) : Kept s₀ (s.linkLost z st) := by
  unfold State.linkLost
  extract_lets _ _ _ t t₁ t₂ _ t₃
  have ht : Kept s₀ t := h.setLink ..
  have ht₁ : Kept s₀ t₁ := foldl_keeps (fun _ _ ht₂ => ht₂.eqClear ..) _ ht
  have ht₂₁ : Kept s₀ t₂ := ht₁.setSending ..
  have ht₃ : Kept s₀ t₃ := ht₂₁.same
  exact (foldl_keeps (fun _ _ ht₄ => ht₄.zlDropOut ..) _ ht₃).zlPump

theorem Kept.countDown (h : Kept s₀ s) (z) : Kept s₀ (s.countDown z) := h.setRegB ..

theorem Kept.linkDown (h : Kept s₀ s) (z) : Kept s₀ (s.linkDown z) := (h.linkLost ..).countDown ..

theorem Kept.opticsOff (h : Kept s₀ s) (k) : Kept s₀ (s.opticsOff k) := foldl_keeps (fun _ _ ht => ht.linkLost ..) _ h

theorem Kept.opticsOn (h : Kept s₀ s) (k) : Kept s₀ (s.opticsOn k) := foldl_keeps (fun t x ht => by
    extract_lets
    exact .ite (ht.setLink ..) ht) _ h

/-! ### Sys2Proof/Machine/Tide.lean -/

theorem nextKept_execTdRawLoRead (h : Kept s₀ s) (m) : NextKept s₀ (execTdRawLoRead m s) := by
  unfold execTdRawLoRead
  extract_lets
  split
  · exact .next h
  · exact .onlyIf h h.same

theorem Kept.stageAdj (h : Kept s₀ s) (op v rate) : Kept s₀ (s.stageAdj op v rate) := .ite h h.same

theorem nextKept_execTdAdjRate (h : Kept s₀ s) (m) : NextKept s₀ (execTdAdjRate m s) := .agentIf h (h.stageAdj ..)

theorem nextKept_execTdAdjStep (h : Kept s₀ s) (m) : NextKept s₀ (execTdAdjStep m s) := .agentIf h (h.stageAdj ..)

theorem nextKept_execTdAdjSet (h : Kept s₀ s) (m) : NextKept s₀ (execTdAdjSet m s) := .agentIf h (h.stageAdj ..)

theorem nextKept_execTdSrcWrite (h : Kept s₀ s) (m v) : NextKept s₀ (execTdSrcWrite m v s) := .agentIf h (h.setReg ..)

theorem nextKept_execServoSourceLost (h : Kept s₀ s) (announce) : NextKept s₀ (execServoSourceLost announce s) := by
  unfold execServoSourceLost
  extract_lets t
  have ht : Kept s₀ t := (h.setRegB ..).setReg ..
  exact .onlyIf h (ht.stageAdj ..)

theorem nextKept_execServoSourceReturn (h : Kept s₀ s) (step v rate) : NextKept s₀ (execServoSourceReturn step v rate s) := by
  unfold execServoSourceReturn
  extract_lets t
  have ht : Kept s₀ t := (h.setRegB ..).setReg ..
  exact .onlyIf h (ht.stageAdj ..)

theorem Kept.ptpDeliver (h : Kept s₀ s) (q r msg seq) : Kept s₀ (s.ptpDeliver q r msg seq) := h.same

theorem Kept.syncNoted (h : Kept s₀ s) (q msg) : Kept s₀ (s.syncNoted q msg) := .ite h.same h

theorem nextKept_execPtpRx (h : Kept s₀ s) (q h' phase) : NextKept s₀ (execPtpRx q h' phase s) := by
  unfold execPtpRx
  extract_lets _ _ t
  have ht : Kept s₀ t := by
    unfold t
    split
    · exact h
    · exact h.same.mgmtEvent
    · exact (h.ptpDeliver ..).syncNoted ..
  exact .unlessHalted h (.onlyIf h ht)

theorem nextKept_execPtpSyncTx (h : Kept s₀ s) (q phase seq corr) : NextKept s₀ (execPtpSyncTx q phase seq corr s) :=
  .unlessHalted h (.onlyIf h h.same)

theorem nextKept_execPtpTcForward (h : Kept s₀ s) (q msg rIn phase key seq corr) :
    NextKept s₀ (execPtpTcForward q msg rIn phase key seq corr s) := by
  unfold execPtpTcForward
  extract_lets fwd r extra send mine entry _ t u
  have hsend (t c) (ht : Kept s₀ t) : Kept s₀ (send t c) := ht.same
  have ht : Kept s₀ t := by
    cases msg with
    | syncTwoStep => exact hsend _ _ (.ite h.same h)
    | followUp =>
      unfold t
      dsimp only
      split
      · exact hsend _ _ h.same
      · exact (hsend _ _ h).count ..
    | _ => exact hsend _ _ h
  exact .unlessHalted h (.onlyIf h (.ite (ht.ptpDeliver ..) ht))

theorem nextKept_execTcEntryExpire (h : Kept s₀ s) (p i) : NextKept s₀ (execTcEntryExpire p i s) := by
  unfold execTcEntryExpire
  split
  · exact .next h
  · extract_lets t
    have ht : Kept s₀ t := h.reachRaw ..
    exact .onlyIf h (ht.same.count ..)

theorem Kept.setStb (h : Kept s₀ s) (i k) : Kept s₀ (s.setStb i k) := h.same

theorem Kept.setPps (h : Kept s₀ s) (j k) : Kept s₀ (s.setPps j k) := h.same

theorem Kept.pulse (h : Kept s₀ s) (k) : Kept s₀ (s.pulse k) := h.same

theorem Kept.strobe (h : Kept s₀ s) (i) : Kept s₀ (s.strobe i) := by
  unfold State.strobe
  extract_lets _ _ _ _ t
  have ht : Kept s₀ t := h.same
  exact foldl_keeps (fun _ _ ht₁ => ht₁.pulse ..) _ ht

theorem nextKept_execStrobeFire (h : Kept s₀ s) (i) : NextKept s₀ (execStrobeFire i s) := by
  unfold execStrobeFire
  extract_lets
  split
  · exact .next h
  · extract_lets t
    have ht : Kept s₀ t := h.reachC ..
    exact .onlyIf h ((ht.setStb ..).strobe ..)

theorem nextKept_execTdStbCfgWrite (h : Kept s₀ s) (m i v) : NextKept s₀ (execTdStbCfgWrite m i v s) := by
  unfold execTdStbCfgWrite
  extract_lets _ t t'
  have ht : Kept s₀ t := .ite (h.setReg ..) (h.setRegB ..)
  have ht' : Kept s₀ t' := ht.setStb ..
  exact .agentIf h (.ite ht (.ite (ht'.count ..) ht'))

theorem nextKept_execTdFrameOfsWrite (h : Kept s₀ s) (m v) : NextKept s₀ (execTdFrameOfsWrite m v s) := by
  unfold execTdFrameOfsWrite
  extract_lets _ t u
  have ht : Kept s₀ t := h.setReg ..
  have hu : Kept s₀ u := foldl_keeps (fun _ _ ht₁ => .ite (ht₁.setStb ..) ht₁) _ ht
  exact .agentIf h hu

theorem nextKept_execPpsOutPulse (h : Kept s₀ s) (j) : NextKept s₀ (execPpsOutPulse j s) := by
  unfold execPpsOutPulse
  extract_lets
  split
  · exact .next h
  · extract_lets t
    have ht : Kept s₀ t := h.reachC ..
    exact .onlyIf h ((ht.setPps ..).pulse ..)

theorem nextKept_execTdPpsCfgWrite (h : Kept s₀ s) (m j v) : NextKept s₀ (execTdPpsCfgWrite m j v s) := by
  unfold execTdPpsCfgWrite
  extract_lets t
  have ht : Kept s₀ t := h.setReg ..
  exact .agentIf h (.ite ht (ht.setPps ..))

theorem nextKept_execCaptureEdge (h : Kept s₀ s) (i falling phase) : NextKept s₀ (execCaptureEdge i falling phase s) := by
  unfold execCaptureEdge
  extract_lets _ _ _ _ _ _ t t₁ t₂ _ t₃
  have ht : Kept s₀ t := h.same
  have ht₁ : Kept s₀ t₁ := ht.setReg ..
  have ht₂ : Kept s₀ t₂ := .ite (ht₁.count ..) ht₁
  have ht₃ : Kept s₀ t₃ := .ite ht₂.same ht₂
  exact .onlyIf h (.ite h.same ht₃)

theorem Kept.esEnableSet (h : Kept s₀ s) (g) : Kept s₀ (s.esEnableSet g) := by
  unfold State.esEnableSet
  extract_lets _ t
  have ht : Kept s₀ t := h.setRegB ..
  exact .ite (ht.setEs ..) ht

theorem Kept.dlEnableSet (h : Kept s₀ s) (n) : Kept s₀ (s.dlEnableSet n) := by
  unfold State.dlEnableSet
  extract_lets _ t
  have ht : Kept s₀ t := h.setRegB ..
  exact .ite (ht.setDl ..) ht

theorem Kept.barFire (h : Kept s₀ s) (late) : Kept s₀ (s.barFire late) := by
  unfold State.barFire
  extract_lets _ t t₁ t₂
  have ht : Kept s₀ t := foldl_keeps (fun _ _ ht₁ => ht₁.esEnableSet ..) _ h
  have ht₁₁ : Kept s₀ t₁ := foldl_keeps (fun _ _ ht₂ => ht₂.dlEnableSet ..) _ ht
  have ht₂₁ : Kept s₀ t₂ := foldl_keeps (fun _ _ ht₃ => ht₃.irqTo ..) _ ht₁₁
  exact ht₂₁.setReg ..

theorem nextKept_execBarrierArm (h : Kept s₀ s) (m v) : NextKept s₀ (execBarrierArm m v s) := by
  unfold execBarrierArm
  extract_lets t
  have ht : Kept s₀ t := h.setReg ..
  exact .agentIf h (.ite (ht.barFire ..) ht)

theorem nextKept_execBarrierFire (h : Kept s₀ s) : NextKept s₀ (execBarrierFire s) := by
  unfold execBarrierFire
  extract_lets t
  have ht : Kept s₀ t := h.reachC ..
  exact .onlyIf h (ht.barFire ..)

/-! ### Sys2Proof/Machine/Zelic.lean -/

theorem Kept.quay (h : Kept s₀ s) (seg job) : Kept s₀ (s.quay seg job).1 := by
  unfold State.quay
  extract_lets
  split
  · exact h
  · split
    · exact h.same
    · exact h

theorem Kept.quayCheck (h : Kept s₀ s) (m) : Kept s₀ (s.quayCheck m).1 := by
  unfold State.quayCheck
  extract_lets
  split
  next s₁ e =>
    exact (h.quay ..).of_fst e
  next s₁ _ e =>
    have hs₁ : Kept s₀ s₁ := (h.quay ..).of_fst e
    extract_lets
    exact hs₁

theorem Kept.countArrival (h : Kept s₀ s) (i n) : Kept s₀ (s.countArrival i n) := by
  unfold State.countArrival
  extract_lets _ _ t _ _ u u₁
  have ht : Kept s₀ t := h.storeNat ..
  have hu : Kept s₀ u := (ht.storeNat ..).storeNat ..
  have hu₁ : Kept s₀ u₁ := .ite (hu.irqTo ..) hu
  exact .ite h (.ite (.ite hu₁.mgmtEvent hu₁) ht)

theorem Kept.zlRefuse (h : Kept s₀ s) (via m status) : Kept s₀ (s.zlRefuse via m status) := (h.count ..).zlRespond ..

theorem Kept.zlStoreLost (h : Kept s₀ s) (a bs lost) : Kept s₀ (s.zlStoreLost a bs lost).1 := h.storeLost ..

theorem Kept.zlWrite (h : Kept s₀ s) (a bs lost) : Kept s₀ (s.zlWrite a bs lost).1 := by
  unfold State.zlWrite
  extract_lets _ s₁ r
  have hs₁ : Kept s₀ s₁ := .ite ((h.noteReads ..).noteReads ..) h
  have hr : Kept s₀ r.1 := hs₁.zlStoreLost ..
  split
  · exact h
  · exact hr

theorem Kept.zlRead (h : Kept s₀ s) (a n) : Kept s₀ (s.zlRead a n).1 := by
  unfold State.zlRead
  extract_lets t
  have ht : Kept s₀ t := h.noteReads ..
  split
  · exact h
  · split
    · exact ht
    · exact ht

theorem Kept.zlAtomic (h : Kept s₀ s) (a m) : Kept s₀ (s.zlAtomic a m).1 := by
  unfold State.zlAtomic
  extract_lets _ _ r r₁
  have hr : Kept s₀ r.1 := h.doAtomic ..
  have hr₁ : Kept s₀ r₁.1 := h.readWord ..
  split
  · exact h
  · split
    · exact h
    · split
      · split
        · exact hr
        · exact hr
        · exact hr
        · exact hr
        · exact hr
      · split
        · exact hr₁
        · split
          · exact hr₁.putWord ..
          · exact hr₁

theorem Kept.flushBuf (h : Kept s₀ s) (b) : Kept s₀ (s.flushBuf b) := by
  unfold State.flushBuf
  extract_lets _ _ t
  have ht : Kept s₀ t := h.same
  exact (ht.count ..).zlHold ..

theorem Kept.flushOf (h : Kept s₀ s) (via m) : Kept s₀ (s.flushOf via m) := foldl_keeps (fun _ _ ht => ht.flushBuf ..) _ h

theorem Kept.gather (h : Kept s₀ s) (via m e far bs fuel) : Kept s₀ (s.gather via m e far bs fuel) := by
  induction fuel generalizing s far bs with
  | zero => exact h
  | succ fuel ih =>
    unfold State.gather
    extract_lets old s₁ b n b' _ t full
    have hs₁ : Kept s₀ s₁ := by
      unfold s₁ old
      split
      · exact .ite h (h.flushBuf ..)
      · exact h
    have ht : Kept s₀ t := hs₁.same
    exact .ite h (ih (.ite (ht.flushBuf ..) ht) _ _)

theorem Kept.zlFar (h : Kept s₀ s) (via m e off) : Kept s₀ (s.zlFar via m e off) :=
  .ite (h.zlRefuse ..) (.ite ((h.count ..).zlRespond ..) (.ite (h.gather ..) ((h.flushOf ..).zlHold ..)))

theorem Kept.lockAnswer (h : Kept s₀ s) (o status data) : Kept s₀ (s.lockAnswer o status data) := h.zlRespond ..

theorem Kept.zlReadReq (h : Kept s₀ s) (via m) : Kept s₀ (s.zlReadReq via m) := by
  unfold State.zlReadReq
  split
  · exact h.zlRefuse ..
  · split
    next s₁ _ e =>
      have hs₁ : Kept s₀ s₁ := (h.quayCheck ..).of_fst e
      exact hs₁.zlRefuse ..
    next s₁ _ _ e =>
      have hs₁ : Kept s₀ s₁ := (h.quayCheck ..).of_fst e
      exact hs₁.zlFar ..
    next s₁ _ e =>
      have hs₁ : Kept s₀ s₁ := (h.quayCheck ..).of_fst e
      extract_lets r
      have hr : Kept s₀ r.1 := hs₁.zlRead ..
      exact hr.zlRespond ..

theorem Kept.zlStoreReq (h : Kept s₀ s) (via m lost) : Kept s₀ (s.zlStoreReq via m lost) := by
  unfold State.zlStoreReq
  split
  · exact h.zlRefuse ..
  · split
    next s₁ _ e =>
      have hs₁ : Kept s₀ s₁ := (h.quayCheck ..).of_fst e
      exact hs₁.zlRefuse ..
    next s₁ _ _ e =>
      have hs₁ : Kept s₀ s₁ := (h.quayCheck ..).of_fst e
      exact hs₁.zlFar ..
    next s₁ _ e =>
      have hs₁ : Kept s₀ s₁ := (h.quayCheck ..).of_fst e
      extract_lets r
      have hr : Kept s₀ r.1 := hs₁.zlWrite ..
      exact hr.zlRespond ..

theorem Kept.zlPutReq (h : Kept s₀ s) (via m lost) : Kept s₀ (s.zlPutReq via m lost) := by
  unfold State.zlPutReq
  split
  · exact h.zlRefuse ..
  · split
    next s₁ _ e =>
      have hs₁ : Kept s₀ s₁ := (h.quayCheck ..).of_fst e
      exact hs₁.zlRefuse ..
    next s₁ _ _ e =>
      have hs₁ : Kept s₀ s₁ := (h.quayCheck ..).of_fst e
      exact hs₁.zlFar ..
    next s₁ _ e =>
      have hs₁ : Kept s₀ s₁ := (h.quayCheck ..).of_fst e
      extract_lets r t
      have hr : Kept s₀ r.1 := hs₁.zlWrite ..
      have ht : Kept s₀ t := .ite (hr.countArrival ..) hr
      exact ht.zlRespond ..

theorem Kept.cacheReply (h : Kept s₀ s) (via m r) : Kept s₀ (s.cacheReply via m r) := by
  unfold State.cacheReply
  extract_lets
  split
  · exact h
  · exact .ite h h.same

theorem Kept.zlOnce (h : Kept s₀ s) (via m) {perform : State → State × ZlMsg} (hf : ∀ t, Kept s₀ t → Kept s₀ (perform t).1) :
    Kept s₀ (s.zlOnce via m perform) := by
  unfold State.zlOnce
  extract_lets cache r
  refine .ite (h.zlRefuse ..) (.ite (h.zlRespond ..) ?_)
  split
  · exact (h.count ..).zlRespond ..
  · exact .ite ((h.count ..).zlRespond ..) (((hf _ h).cacheReply ..).zlRespond ..)

theorem Kept.zlAtomicReq (h : Kept s₀ s) (via m) : Kept s₀ (s.zlAtomicReq via m) := by
  unfold State.zlAtomicReq
  refine h.zlOnce _ _ fun t ht => ?_
  dsimp only
  split
  next u c e => exact ((ht.quayCheck ..).of_fst e).count ..
  next u a b e =>
    have hu : Kept s₀ u := (ht.quayCheck ..).of_fst e
    split
    · exact hu.count ..
    · exact hu.count ..
  next u a e => exact Kept.zlAtomic ((ht.quayCheck ..).of_fst e) ..

theorem Kept.zlTrigger (h : Kept s₀ s) (via m) : Kept s₀ (s.zlTrigger via m).1 := by
  unfold State.zlTrigger
  extract_lets _ _ _ _ _ _ t
  have ht : Kept s₀ t := (h.store ..).storeNat ..
  split
  · exact h.count ..
  · split
    · exact h
    · exact ht.irqTo ..

theorem Kept.zlTriggerReq (h : Kept s₀ s) (via m) : Kept s₀ (s.zlTriggerReq via m) := by
  unfold State.zlTriggerReq
  refine h.zlOnce _ _ fun t ht => ?_
  exact ht.zlTrigger ..

theorem Kept.zlComplete (h : Kept s₀ s) (m r status) : Kept s₀ (s.zlComplete m r status) := by
  unfold State.zlComplete
  extract_lets t u
  have ht : Kept s₀ t := h.releaseTag ..
  have hu : Kept s₀ u := by
    unfold u
    split
    · exact foldl_keeps (fun _ _ ht₁ => ht₁.lockAnswer ..) _ ht
    · exact ht.copyAnswer ..
    · exact ht.zlDone ..
  exact hu.zlPump

theorem Kept.zlResponse (h : Kept s₀ s) (m) {k : State → ZlReq → State} (hk : ∀ t r, Kept s₀ t → Kept s₀ (k t r)) :
    Kept s₀ (s.zlResponse m k) := by
  unfold State.zlResponse
  split
  · exact h.count ..
  · exact hk _ _ h

theorem Kept.zlAck (h : Kept s₀ s) (m) : Kept s₀ (s.zlAck m) := by
  unfold State.zlAck
  refine h.zlResponse _ fun t r ht => ?_
  exact ht.zlComplete ..

theorem Kept.zlOnceRsp (h : Kept s₀ s) (m) : Kept s₀ (s.zlOnceRsp m) := by
  unfold State.zlOnceRsp
  refine h.zlResponse _ fun t r ht => ?_
  extract_lets
  exact .ite (ht.setTag ..) (ht.zlComplete ..)

theorem Kept.zlGetData (h : Kept s₀ s) (m) : Kept s₀ (s.zlGetData m) := by
  unfold State.zlGetData
  refine h.zlResponse _ fun t r ht => ?_
  extract_lets w
  have hw : Kept s₀ w.1 := ht.zlWrite ..
  exact .ite (ht.zlComplete ..)
    (.ite (ht.zlComplete ..) (.ite (ht.zlComplete ..) (.ite ((hw.countArrival ..).zlComplete ..) (hw.zlComplete ..))))

theorem Kept.zlDeliver (h : Kept s₀ s) (via m lost) : Kept s₀ (s.zlDeliver via m lost) := by
  unfold State.zlDeliver
  split
  · exact h.zlReadReq ..
  · exact h.zlReadReq ..
  · exact h.zlStoreReq ..
  · exact h.zlAtomicReq ..
  · exact h.zlPutReq ..
  · exact h.zlTriggerReq ..
  · exact h.zlOnceRsp ..
  · exact h.zlOnceRsp ..
  · exact h.zlGetData ..
  · exact h.zlAck ..

theorem Kept.zlArrive (h : Kept s₀ s) (via f typ lost) : NextKept s₀ (s.zlArrive via f typ lost) := by
  unfold State.zlArrive
  extract_lets _ _ _ _ _ t
  have ht : Kept s₀ t := h.same
  exact .onlyIf h (.ite (ht.count ..) (.ite (.ite ht (ht.capture ..)) ((Kept.ite (ht.traceZl ..) ht).zlDeliver ..)))

theorem nextKept_execZlLoadReq (h : Kept s₀ s) (via f) : NextKept s₀ (execZlLoadReq via f s) := h.zlArrive ..

theorem nextKept_execZlLoadRsp (h : Kept s₀ s) (via f) : NextKept s₀ (execZlLoadRsp via f s) := h.zlArrive ..

theorem nextKept_execZlStore (h : Kept s₀ s) (via f lost) : NextKept s₀ (execZlStore via f lost s) := h.zlArrive ..

theorem nextKept_execZlStoreAck (h : Kept s₀ s) (via f) : NextKept s₀ (execZlStoreAck via f s) := h.zlArrive ..

theorem nextKept_execZlAtomicReq (h : Kept s₀ s) (via f) : NextKept s₀ (execZlAtomicReq via f s) := h.zlArrive ..

theorem nextKept_execZlAtomicRsp (h : Kept s₀ s) (via f) : NextKept s₀ (execZlAtomicRsp via f s) := h.zlArrive ..

theorem nextKept_execZlPutData (h : Kept s₀ s) (via f lost) : NextKept s₀ (execZlPutData via f lost s) := h.zlArrive ..

theorem nextKept_execZlPutAck (h : Kept s₀ s) (via f) : NextKept s₀ (execZlPutAck via f s) := h.zlArrive ..

theorem nextKept_execZlGetReq (h : Kept s₀ s) (via f) : NextKept s₀ (execZlGetReq via f s) := h.zlArrive ..

theorem nextKept_execZlGetData (h : Kept s₀ s) (via f) : NextKept s₀ (execZlGetData via f s) := h.zlArrive ..

theorem nextKept_execZlTrigger (h : Kept s₀ s) (via f) : NextKept s₀ (execZlTrigger via f s) := h.zlArrive ..

theorem nextKept_execZlTrigAck (h : Kept s₀ s) (via f) : NextKept s₀ (execZlTrigAck via f s) := h.zlArrive ..

theorem nextKept_execZlBadType (h : Kept s₀ s) (z f) : NextKept s₀ (execZlBadType z f s) := .onlyIf h (h.count ..)

theorem nextKept_execZlForward (h : Kept s₀ s) (z f) : NextKept s₀ (execZlForward z f s) := by
  unfold execZlForward
  extract_lets _ _ _ t
  have ht : Kept s₀ t := by
    unfold t
    split
    · exact h.count ..
    · split
      · exact .ite (h.zlSend ..) (h.count ..)
      · exact h.count ..
  exact .onlyIf h ht

theorem nextKept_execZlLinkCtrlWrite (h : Kept s₀ s) (m z v) : NextKept s₀ (execZlLinkCtrlWrite m z v s) := by
  unfold execZlLinkCtrlWrite
  extract_lets _ t t₁
  have ht : Kept s₀ t := h.setRegB ..
  have ht₁ : Kept s₀ t₁ := .ite (ht.setRegB ..) ht
  exact .agentIf h (.ite (ht₁.linkLost ..) (.ite (ht₁.setLink ..) ht₁))

theorem nextKept_execLinkTrained (h : Kept s₀ s) (z peerModule peerLink delay) :
    NextKept s₀ (execLinkTrained z peerModule peerLink delay s) := by
  unfold execLinkTrained
  extract_lets _ t t₁
  have ht : Kept s₀ t := h.setLink ..
  have ht₁ : Kept s₀ t₁ := ht.setReg ..
  exact .onlyIf h (.ite (ht₁.linkDown ..) ht₁)

theorem nextKept_execLinkLoss (h : Kept s₀ s) (z) : NextKept s₀ (execLinkLoss z s) := .onlyIf h (h.linkDown ..)

theorem nextKept_execLinkFlitReplay (h : Kept s₀ s) (z ok) : NextKept s₀ (execLinkFlitReplay z ok s) := by
  unfold execLinkFlitReplay
  extract_lets _ t
  have ht : Kept s₀ t := h.setRegB ..
  exact .onlyIf h (ht.setLink ..)

theorem nextKept_execLinkReplayLimit (h : Kept s₀ s) (z) : NextKept s₀ (execLinkReplayLimit z s) := .onlyIf h (h.linkDown ..)

theorem nextKept_execZlTimeFlit (h : Kept s₀ s) (z t1 t2 t3 t4) : NextKept s₀ (execZlTimeFlit z t1 t2 t3 t4 s) := .onlyIf h h.same

theorem nextKept_execZlRequestIssue (h : Kept s₀ s) (i cls dst r) : NextKept s₀ (execZlRequestIssue i cls dst r s) :=
  .unlessHalted h (.onlyIf h (h.zlHold ..))

theorem Kept.zlCopy (h : Kept s₀ s) (i get cls dst a q len index) : NextKept s₀ (s.zlCopy i get cls dst a q len index) := by
  unfold State.zlCopy
  extract_lets _ _ t
  have ht : Kept s₀ t := h.same
  exact .unlessHalted h (.onlyIf h (ht.zlHold ..))

theorem nextKept_execZlCopyPut (h : Kept s₀ s) (i cls dst src q len index) : NextKept s₀ (execZlCopyPut i cls dst src q len index s) :=
  h.zlCopy ..

theorem nextKept_execZlCopyGet (h : Kept s₀ s) (i cls dst dest q len index) :
    NextKept s₀ (execZlCopyGet i cls dst dest q len index s) :=
  h.zlCopy ..

theorem nextKept_execZlFence (h : Kept s₀ s) (i classes) : NextKept s₀ (execZlFence i classes s) :=
  .unlessHalted h (.onlyIf h (h.zlHold ..))

theorem Kept.zlFault (h : Kept s₀ s) (t r) : Kept s₀ (s.zlFault t r) := by
  unfold State.zlFault
  extract_lets u u₁ u₂
  have hu : Kept s₀ u := .ite h ((h.setReg ..).setReg ..)
  have hu₁ : Kept s₀ u₁ := (hu.setRegB ..).count ..
  have hu₂ : Kept s₀ u₂ := by
    unfold u₂
    split
    · exact hu₁.irqTo ..
    · exact hu₁
  exact hu₂.hiErr ..

theorem nextKept_execZlRequestTimeout (h : Kept s₀ s) (tag) : NextKept s₀ (execZlRequestTimeout tag s) := by
  unfold execZlRequestTimeout
  split
  · exact .next h
  · extract_lets
    split
    · exact .next h
    · extract_lets u
      have hu : Kept s₀ u := h.reachRaw ..
      exact .onlyIf h (((hu.zlFault ..).zlFail ..).zlPump)

theorem nextKept_execZlAtomicRetry (h : Kept s₀ s) (tag) : NextKept s₀ (execZlAtomicRetry tag s) := by
  unfold execZlAtomicRetry
  split
  · exact .next h
  · extract_lets
    split
    · exact .next h
    · extract_lets u _ t _ r _ t₁
      have hu : Kept s₀ u := h.reachRaw ..
      have ht : Kept s₀ t := hu.setTag ..
      have hr : Kept s₀ r := ht.setTag ..
      have ht₁ : Kept s₀ t₁ := by
        unfold t₁
        split
        · exact .ite (ht.zlSend ..) ht
        · exact hr.same
      exact .onlyIf h ht₁

theorem nextKept_execZlAtomicFinal (h : Kept s₀ s) (tag) : NextKept s₀ (execZlAtomicFinal tag s) := by
  unfold execZlAtomicFinal
  split
  · exact .next h
  · split
    · exact .next h
    · extract_lets u t
      have hu : Kept s₀ u := h.reachRaw ..
      have ht : Kept s₀ t := .ite (hu.zlFail ..) ((hu.count ..).zlFail ..)
      exact .onlyIf h ht.zlPump

theorem nextKept_execZlRcExpire (h : Kept s₀ s) (z) : NextKept s₀ (execZlRcExpire z s) := by
  unfold execZlRcExpire
  split
  · exact .next h
  · extract_lets u
    have hu : Kept s₀ u := h.reachRaw ..
    exact .onlyIf h hu.same

theorem nextKept_execZlTagRelease (h : Kept s₀ s) (tag) : NextKept s₀ (execZlTagRelease tag s) := by
  unfold execZlTagRelease
  split
  · exact .next h
  · extract_lets u
    have hu : Kept s₀ u := h.reachRaw ..
    exact .onlyIf h ((hu.setTag ..).zlPump)

theorem nextKept_execLockFlush (h : Kept s₀ s) (i fence) : NextKept s₀ (execLockFlush i fence s) := by
  unfold execLockFlush
  split
  · exact .next h
  · extract_lets _ u
    have hu : Kept s₀ u := .ite h (h.reachRaw ..)
    exact .onlyIf h (hu.flushBuf ..)

theorem nextKept_execZlQtInv (h : Kept s₀ s) (m v) : NextKept s₀ (execZlQtInv m v s) := .agentIf h h.same

theorem nextKept_execZlQtInvDone (h : Kept s₀ s) : NextKept s₀ (execZlQtInvDone s) := by
  unfold execZlQtInvDone
  extract_lets
  split
  · exact .next h
  · exact .next h.same

theorem nextKept_execZlQtSweep (h : Kept s₀ s) : NextKept s₀ (execZlQtSweep s) := by
  unfold execZlQtSweep
  extract_lets u
  have hu : Kept s₀ u := h.reachRaw ..
  exact .onlyIf h hu.same

theorem nextKept_execZlEnable (h : Kept s₀ s) (m v) : NextKept s₀ (execZlEnable m v s) := by
  unfold execZlEnable
  extract_lets _ t
  have ht : Kept s₀ t := .ite (h.setRegB ..) (h.setReg ..)
  exact .agentIf h (.ite ht ht.same)

theorem nextKept_execZlBusyWindowEnd (h : Kept s₀ s) : NextKept s₀ (execZlBusyWindowEnd s) := by
  unfold execZlBusyWindowEnd
  split
  · exact .next h
  · extract_lets u
    have hu : Kept s₀ u := h.reachRaw ..
    exact .onlyIf h hu.same

theorem nextKept_execZlTimeoutWrite (h : Kept s₀ s) (m v) : NextKept s₀ (execZlTimeoutWrite m v s) := .agentIf h (h.setReg ..)

/-! ### Sys2Proof/Machine/Egress.lean -/

theorem Kept.fhEnqueue (h : Kept s₀ s) (key i) : Kept s₀ (s.fhEnqueue key i) := .ite (h.eqPush ..) h.same

theorem Kept.fhStream (h : Kept s₀ s) (i kind frame slot sym bytes) : SomeKept s₀ (s.fhStream i kind frame slot sym bytes) := by
  unfold State.fhStream
  split
  · exact .of_none
  · exact .ite (.of_some (h.fhEnqueue ..)) .of_none

theorem nextKept_execFhTxEnqueue (h : Kept s₀ s) (f bytes) : NextKept s₀ (execFhTxEnqueue f bytes s) := by
  unfold execFhTxEnqueue
  extract_lets r
  have hr : SomeKept s₀ r := by
    cases f with
    | ptp q => exact .ite (.of_some (h.fhEnqueue ..)) .of_none
    | uplinkC => exact h.fhStream ..
    | downlinkC => exact h.fhStream ..
    | downlinkU => exact h.fhStream ..
  exact .unlessHalted h (.next (hr.getD h))

theorem nextKept_execZlTxEnqueue (h : Kept s₀ s) (i) : NextKept s₀ (execZlTxEnqueue i s) := by
  unfold execZlTxEnqueue
  extract_lets
  split
  · exact .next h
  · extract_lets
    exact .onlyIf h (h.same.eqPush ..)

theorem nextKept_execFhTxRelease (h : Kept s₀ s) (p q) : NextKept s₀ (execFhTxRelease p q s) := by
  unfold execFhTxRelease
  split
  · exact .next h
  · split
    · exact .next h
    · exact .next (h.reachC ..)

theorem nextKept_execFhTxDeadline (h : Kept s₀ s) (p q i) : NextKept s₀ (execFhTxDeadline p q i s) := by
  unfold execFhTxDeadline
  extract_lets
  split
  · exact .next h
  · split
    · exact .next h
    · extract_lets t
      have ht : Kept s₀ t := h.reachC ..
      exact .unlessHalted h (.onlyIf h ((((ht.eqDrop ..).count ..).symbolLost ..).fhAdmit ..))

theorem Kept.zlStart (h : Kept s₀ s) (key o) : SomeKept s₀ (s.zlStart key o) := by
  unfold State.zlStart
  split
  · exact .ite .of_none (.of_some (h.setEq ..))
  · extract_lets t
    have ht : Kept s₀ t := h.traceZl ..
    refine .ite (.of_some ht) ?_
    split
    · exact .of_some ht
    · exact .of_some (ht.setTag ..)

theorem nextKept_execEgressSelect (h : Kept s₀ s) (e) : NextKept s₀ (execEgressSelect e s) := by
  unfold execEgressSelect
  split
  · exact .next h
  next k ptp _ =>
    extract_lets t _ t' go u
    have ht : Kept s₀ t := h.creditUp ..
    have ht' : Kept s₀ t' := .ite ht ht.same
    have hgo : Kept s₀ go := ht'.setSending ..
    have hu : Kept s₀ u := by
      unfold u
      split
      · split
        next v e => exact (hgo.zlStart ..).kept e
        next => exact (h.eqDrop ..).count ..
      · exact hgo
    exact .onlyIf h hu

theorem nextKept_execEgressTxEnd (h : Kept s₀ s) (e) : NextKept s₀ (execEgressTxEnd e s) := by
  unfold execEgressTxEnd
  split
  · exact .next h
  · extract_lets
    split
    · exact .next (h.setSending ..)
    · extract_lets _ t _ _ t₁ _ _ t₂
      have ht : Kept s₀ t := h.reachRaw ..
      have ht₁ : Kept s₀ t₁ := ((ht.setSending ..).setEq ..).tagHead ..
      have ht₂ : Kept s₀ t₂ := by
        unfold t₂
        split
        · exact ht₁.same.fhAdmit ..
        · exact ht₁.same
      exact .onlyIf h ht₂

theorem Kept.addBin (h : Kept s₀ s) (a) : Kept s₀ (s.addBin a) := h.doAtomic ..

theorem nextKept_execEgressSample (h : Kept s₀ s) (q) : NextKept s₀ (execEgressSample q s) := .onlyIf h ((h.addBin ..).addBin ..)

theorem nextKept_execEqCfgWrite (h : Kept s₀ s) (m q v) : NextKept s₀ (execEqCfgWrite m q v s) := .agentIf h (h.setReg ..)

theorem nextKept_execEqRateWrite (h : Kept s₀ s) (m q v) : NextKept s₀ (execEqRateWrite m q v s) :=
  .agentIf h ((h.creditUp ..).setReg ..)

theorem nextKept_execEqHicredWrite (h : Kept s₀ s) (m q v) : NextKept s₀ (execEqHicredWrite m q v s) := by
  unfold execEqHicredWrite
  extract_lets t
  have ht : Kept s₀ t := (h.creditUp ..).setReg ..
  exact .agentIf h (ht.setEq ..)

/-! ### Sys2Proof/Machine/Coding.lean -/

theorem Kept.setDs (h : Kept s₀ s) (c x) : Kept s₀ (s.setDs c x) := h.same

theorem Kept.dsIrq (h : Kept s₀ s) (c) : Kept s₀ (s.dsIrq c) := h.irqTo ..

theorem Kept.setHandle (h : Kept s₀ s) (h' x) : Kept s₀ (s.setHandle h' x) := h.storeNat ..

theorem Kept.emptyHandle (h : Kept s₀ s) (h') : Kept s₀ (s.emptyHandle h') := h.storeNat ..

theorem Kept.loseHandle (h : Kept s₀ s) (h') : Kept s₀ (s.loseHandle h') := h.setHandle ..

theorem Kept.harqFetch (h : Kept s₀ s) (h') : Kept s₀ (s.harqFetch h') := by
  unfold State.harqFetch
  extract_lets _ t
  have ht : Kept s₀ t := h.setHandle ..
  split
  · split
    · extract_lets
      exact ht.same
    · exact .ite h h.same
  · exact h

theorem Kept.harqRetry (h : Kept s₀ s) : Kept s₀ s.harqRetry := foldl_keeps (fun _ _ ht => ht.harqFetch ..) _ h.same

theorem Kept.settleFrees (h : Kept s₀ s) : Kept s₀ s.settleFrees := (foldl_keeps (fun _ _ ht => ht.emptyHandle ..) _ h.same).harqRetry

theorem Kept.dsComplete (h : Kept s₀ s) (c x d) : Kept s₀ (s.dsComplete c x d) := by
  unfold State.dsComplete
  extract_lets _ _ _ _ t t₁
  have ht : Kept s₀ t := (h.storeNat ..).setDs ..
  have ht₁ : Kept s₀ t₁ := (ht.setReg ..).setReg ..
  exact .ite (ht₁.dsIrq ..) ht₁

theorem Kept.dsRemove (h : Kept s₀ s) (c i) : Kept s₀ (s.dsRemove c i) := (h.setDs ..).settleFrees

theorem Kept.dsEnd (h : Kept s₀ s) (c i x d) : Kept s₀ (s.dsEnd c i x d) := (h.dsRemove ..).dsComplete ..

theorem Kept.dsReads (h : Kept s₀ s) (a n) : Kept s₀ (s.dsReads a n) := h.noteReads ..

theorem nextKept_execDsSqDoorbell (h : Kept s₀ s) (m c tail) : NextKept s₀ (execDsSqDoorbell m c tail s) :=
  .agentIf h (.ite ((h.setReg ..).dsIrq ..) (h.setReg ..))

theorem nextKept_execDsCqHeadWrite (h : Kept s₀ s) (m c head) : NextKept s₀ (execDsCqHeadWrite m c head s) :=
  .agentIf h (.ite ((h.setReg ..).dsIrq ..) (h.setReg ..))

theorem nextKept_execDsJobCopy (h : Kept s₀ s) (c) : NextKept s₀ (execDsJobCopy c s) := by
  unfold execDsJobCopy
  extract_lets _ _ _ _ s1 _ _ s2
  have hs1 : Kept s₀ s1 := (h.dsReads ..).setDs ..
  have hs2 : Kept s₀ s2 := hs1.setDs ..
  exact .unlessHalted h (.onlyIf h (.ite (hs1.dsComplete ..) (.ite (hs1.dsComplete ..) (.ite (hs2.harqFetch ..) hs2))))

theorem Kept.dsJob (h : Kept s₀ s) {c i opc x j t} (e : s.dsJob c i opc = some (x, j, t)) : Kept s₀ t := by
  unfold State.dsJob at e
  split at e
  · cases e
  · extract_lets y u at e
    have hu : Kept s₀ u := .ite h (h.reachNs ..)
    clear_value y u
    split at e
    · cases e
      exact hu
    · cases e

theorem Kept.dsEcc (h : Kept s₀ s) (c i x) : Kept s₀ (s.dsEcc c i x) := (h.count ..).dsEnd ..

/-- The pair is named by a predicate and the definition unfolded as a function: against the projected pair, or the applied
function, the kernel would evaluate the handle that the definition branches on. -/
theorem keepRecord_of_kept (h : Kept s₀ s) (x bufs) {P : State × Bool → Prop} (hP : ∀ t b, Kept s₀ t → P (t, b)) :
    P (s.keepRecord x bufs) := by
  generalize hf : @State.keepRecord = f
  delta State.keepRecord at hf
  subst hf
  beta_reduce
  extract_lets sh old n64 reuse s0
  have hs0 : Kept s₀ s0 := .ite h (h.emptyHandle ..)
  clear_value reuse s0
  split
  · exact hP _ _ ((hs0.store ..).setHandle ..)
  · exact hP _ _ hs0

theorem Kept.keepRecord (h : Kept s₀ s) (x bufs) : Kept s₀ (s.keepRecord x bufs).1 :=
  keepRecord_of_kept h x bufs (P := fun p => Kept s₀ p.1) fun _ _ ht => ht

theorem Kept.usedHandle (h : Kept s₀ s) (h') : Kept s₀ (s.usedHandle h') := .ite h (h.setHandle ..)

theorem nextKept_execDsLdpcDec (h : Kept s₀ s) (c i) : NextKept s₀ (execDsLdpcDec c i s) := by
  unfold execDsLdpcDec
  refine .unlessHalted h ?_
  split
  · exact .next h
  next t e =>
    have ht : Kept s₀ t := h.dsJob e
    extract_lets _ _ _ _ _ _ _ t₁ t₂ t₃ _ _ _ _ _ _ _ t₄ kept _ t₅ t₆
    have ht₁ : Kept s₀ t₁ := ht.dsReads ..
    have ht₂ : Kept s₀ t₂ := .ite (ht₁.dsReads ..) ht₁
    have ht₃ : Kept s₀ t₃ := .ite ((ht₂.count ..).loseHandle ..) ht₂
    have ht₄ : Kept s₀ t₄ := ht₃.store ..
    have hkept : Kept s₀ kept.1 := by
      unfold kept
      split
      · exact ht₄.keepRecord ..
      · exact .ite (ht₄.emptyHandle ..) ht₄
    have ht₅ : Kept s₀ t₅ := hkept.usedHandle ..
    have ht₆ : Kept s₀ t₆ := .ite (ht₅.count ..) ht₅
    exact .ite (.next h) (.ite (.next (ht₁.dsEcc ..)) (.next (ht₆.dsEnd ..)))

theorem nextKept_execDsLdpcEnc (h : Kept s₀ s) (c i) : NextKept s₀ (execDsLdpcEnc c i s) := by
  unfold execDsLdpcEnc
  refine .unlessHalted h ?_
  split
  · exact .next h
  next t e =>
    have ht : Kept s₀ t := h.dsJob e
    extract_lets _ t₁
    have ht₁ : Kept s₀ t₁ := ht.dsReads ..
    exact .ite (.next (ht₁.dsEcc ..)) (.next ((ht₁.store ..).dsEnd ..))

theorem nextKept_execDsPolarDec (h : Kept s₀ s) (c i) : NextKept s₀ (execDsPolarDec c i s) := by
  unfold execDsPolarDec
  refine .unlessHalted h ?_
  split
  · exact .next h
  next t e =>
    have ht : Kept s₀ t := h.dsJob e
    extract_lets _ t₁
    have ht₁ : Kept s₀ t₁ := ht.dsReads ..
    exact .ite (.next (ht₁.dsEcc ..)) (.next ((ht₁.store ..).dsEnd ..))

theorem nextKept_execDsPolarEnc (h : Kept s₀ s) (c i) : NextKept s₀ (execDsPolarEnc c i s) := by
  unfold execDsPolarEnc
  refine .unlessHalted h ?_
  split
  · exact .next h
  next t e =>
    have ht : Kept s₀ t := h.dsJob e
    extract_lets _ t₁
    have ht₁ : Kept s₀ t₁ := ht.dsReads ..
    exact .ite (.next (ht₁.dsEcc ..)) (.next ((ht₁.store ..).dsEnd ..))

theorem nextKept_execDsTbEnc (h : Kept s₀ s) (c i) : NextKept s₀ (execDsTbEnc c i s) := by
  unfold execDsTbEnc
  refine .unlessHalted h ?_
  split
  · exact .next h
  next t e =>
    have ht : Kept s₀ t := h.dsJob e
    extract_lets _ t₁ _ _ _ _ t₂ t₃
    have ht₁ : Kept s₀ t₁ := ht.dsReads ..
    have ht₂ : Kept s₀ t₂ := ht₁.store ..
    have ht₃ : Kept s₀ t₃ := .ite (ht₂.count ..) ht₂
    exact .ite (.next (ht₁.dsEcc ..)) (.next (ht₃.dsEnd ..))

theorem nextKept_execDsTbDec (h : Kept s₀ s) (c i) : NextKept s₀ (execDsTbDec c i s) := by
  unfold execDsTbDec
  refine .unlessHalted h ?_
  split
  · exact .next h
  next t e =>
    have ht : Kept s₀ t := h.dsJob e
    extract_lets _ t₁
    have ht₁ : Kept s₀ t₁ := ht.dsReads ..
    exact .ite (.next (ht₁.dsEcc ..)) (.next ((ht₁.store ..).dsEnd ..))

theorem Kept.notDecoded (h : Kept s₀ s) (cell slot) : Kept s₀ (s.notDecoded cell slot) := by
  unfold State.notDecoded
  extract_lets t
  have ht : Kept s₀ t := h.count ..
  exact ht.same

theorem nextKept_execDsNselRead (h : Kept s₀ s) (c i) : NextKept s₀ (execDsNselRead c i s) := by
  unfold execDsNselRead
  extract_lets
  refine .unlessHalted h ?_
  split
  · exact .next h
  · extract_lets _ t _ _ _ _ _ _ _ _ u
    have ht : Kept s₀ t := h.reachNs ..
    have hu : Kept s₀ u := ((ht.dsReads ..).setDs ..).count ..
    exact .onlyIf h (.ite (hu.notDecoded ..) hu)

theorem nextKept_execDsJobLate (h : Kept s₀ s) (c i) : NextKept s₀ (execDsJobLate c i s) := by
  unfold execDsJobLate
  refine .unlessHalted h ?_
  split
  · exact .next h
  · extract_lets _ t
    have ht : Kept s₀ t := h.reachNs ..
    exact .onlyIf h ((ht.count ..).dsEnd ..)

theorem nextKept_execDsCtrlAbort (h : Kept s₀ s) (m c v) : NextKept s₀ (execDsCtrlAbort m c v s) := by
  unfold execDsCtrlAbort
  extract_lets t
  have ht : Kept s₀ t := h.setReg ..
  exact .agentIf h (foldl_keeps (fun t₁ x ht₁ => by
      extract_lets
      exact .ite ht₁ ((Kept.ite (ht₁.loseHandle ..) ht₁).dsEnd ..)) _ ht)

theorem nextKept_execDsCtrlEnable (h : Kept s₀ s) (m c v) : NextKept s₀ (execDsCtrlEnable m c v s) := .agentIf h (h.setReg ..)

theorem nextKept_execDsHarqFree (h : Kept s₀ s) (m h') : NextKept s₀ (execDsHarqFree m h' s) := .agentIf h h.same.settleFrees

theorem nextKept_execDsHarqPrefetch (h : Kept s₀ s) (m h') : NextKept s₀ (execDsHarqPrefetch m h' s) := .agentIf h (h.harqFetch ..)

theorem nextKept_execHarqSpill (h : Kept s₀ s) : NextKept s₀ (execHarqSpill s) := by
  unfold execHarqSpill
  refine .unlessHalted h ?_
  split
  · exact .next h
  · extract_lets _ t
    have ht : Kept s₀ t := h.setHandle ..
    split
    · exact .next h
    · extract_lets
      exact .onlyIf h ht.same

theorem nextKept_execHarqSpillDone (h : Kept s₀ s) (h') : NextKept s₀ (execHarqSpillDone h' s) := by
  unfold execHarqSpillDone
  extract_lets
  refine .unlessHalted h ?_
  split
  · exact .next h
  · extract_lets _ t u
    have ht : Kept s₀ t := h.same
    have hu : Kept s₀ u := .ite ht (.ite ((ht.dsReads ..).loseHandle ..) (((ht.dsReads ..).store ..).setHandle ..))
    exact .next hu.settleFrees

theorem nextKept_execFhPlanActivate (h : Kept s₀ s) : NextKept s₀ (execFhPlanActivate s) := by
  unfold execFhPlanActivate
  extract_lets before done
  have hdone (due f) (hf : ∀ t, Kept s₀ t → Kept s₀ (f t)) : NextKept s₀ (done due f) :=
    .onlyIf h (hf _ (h.reachNs ..)).same.settleFrees
  have hact (p) : NextKept s₀ (done p.tAct fun t => t.activatePlan p) := hdone _ _ fun _ ht => ht.activatePlan ..
  have hend (d) : NextKept s₀ (done d State.endPlan) := hdone _ _ fun _ ht => ht.endPlan
  refine .unlessHalted h ?_
  split
  · exact .ite (hend _) (hact _)
  · exact hact _
  · exact hend _
  · exact .next h

/-! ### Sys2Proof/Machine/Serving.lean -/

theorem Kept.takeCmd (h : Kept s₀ s) (f sq e) : Kept s₀ (s.takeCmd f sq e) := by
  unfold State.takeCmd
  extract_lets
  split
  · exact .ite h.same h
  · exact h

theorem Kept.refuse (h : Kept s₀ s) (f e rid status) : Kept s₀ (s.refuse f e rid status) := by
  unfold State.refuse
  extract_lets s₁
  have hs₁ : Kept s₀ s₁ := .ite ((h.count ..).fnCount ..) h
  exact hs₁.postCq ..

theorem Kept.ack (h : Kept s₀ s) (f e) : Kept s₀ (s.ack f e) := h.postCq ..

theorem Kept.allocMan (h : Kept s₀ s) : Kept s₀ s.allocMan := .ite h.same h.same

theorem nextKept_execSubmit (h : Kept s₀ s) (f sq entry) : NextKept s₀ (execSubmit f sq entry s) := by
  unfold execSubmit
  extract_lets _ t _ _ t₁
  have ht : Kept s₀ t := h.takeCmd ..
  have ht₁ : Kept s₀ t₁ := .ite ht (ht.drew ..)
  refine .unlessHalted h ?_
  refine .onlyIf h ?_
  split
  · exact ht.refuse ..
  · exact ht.refuse ..
  · extract_lets _ u
    have hu : Kept s₀ u := (ht₁.allocMan.setMan ..).postEvent ..
    exact .ite hu ((hu.count ..).endRequest ..)

theorem Kept.requestCmd (h : Kept s₀ s) (opc f sq entry) {act : SubEntry → Nat → Manifest → State → State}
    (hact : ∀ e i m t, Kept s₀ t → Kept s₀ (act e i m t)) : NextKept s₀ (s.requestCmd opc f sq entry act) := by
  unfold State.requestCmd
  extract_lets e t
  have ht : Kept s₀ t := h.takeCmd ..
  refine .unlessHalted h (.onlyIf h (.ite (ht.refuse ..) ?_))
  split
  · exact ht.refuse ..
  · exact hact _ _ _ _ ht

theorem nextKept_execPause (h : Kept s₀ s) (f sq entry) : NextKept s₀ (execPause f sq entry s) := by
  unfold execPause
  refine h.requestCmd _ _ _ _ fun e i m t ht => ?_
  split
  · exact ht.refuse ..
  · split
    · exact (ht.setMan ..).ack ..
    · exact (ht.setMan ..).ack ..
    · exact (ht.setMan ..).ack ..
    · exact (ht.ack ..).pauseBegin ..
    · exact (ht.setMan ..).ack ..
    · exact ht.refuse ..

theorem Kept.doResume (h : Kept s₀ s) (i entry) : Kept s₀ (s.doResume i entry) := by
  unfold State.doResume
  extract_lets _ t
  have ht : Kept s₀ t := h.postEvent ..
  exact .ite (((ht.setMan ..).bindDumps ..).makeReady ..) (ht.setMan ..)

theorem nextKept_execResume (h : Kept s₀ s) (f sq entry) : NextKept s₀ (execResume f sq entry s) := by
  unfold execResume
  refine h.requestCmd _ _ _ _ fun e i m t ht => ?_
  dsimp only
  split
  · exact ht.refuse ..
  · exact .ite ((ht.setMan ..).ack ..) (((ht.setMan ..).ack ..).doResume ..)

theorem nextKept_execCancel (h : Kept s₀ s) (f sq entry) : NextKept s₀ (execCancel f sq entry s) := by
  unfold execCancel
  refine h.requestCmd _ _ _ _ fun e i m t ht => ?_
  split
  · exact .ite (ht.refuse ..) ((ht.setMan ..).ack ..)
  · exact (ht.ack ..).endRequest ..
  · exact (ht.ack ..).endRequest ..
  · exact (ht.ack ..).endRequest ..
  · exact (ht.ack ..).endRequest ..
  · exact (ht.ack ..).endRequest ..
  · exact (ht.ack ..).endRequest ..
  · exact ht.refuse ..

theorem nextKept_execTouch (h : Kept s₀ s) (f sq entry) : NextKept s₀ (execTouch f sq entry s) := by
  unfold execTouch
  refine h.requestCmd _ _ _ _ fun e i m t ht => ?_
  extract_lets
  split
  · exact ht.refuse ..
  · split
    · exact (ht.setMan ..).ack ..
    · exact .ite (ht.refuse ..) ((ht.setMan ..).ack ..)
    · exact ht.refuse ..

theorem nextKept_execSqBadOpcode (h : Kept s₀ s) (f sq entry) : NextKept s₀ (execSqBadOpcode f sq entry s) := by
  unfold execSqBadOpcode
  extract_lets _ t
  have ht : Kept s₀ t := h.takeCmd ..
  exact .unlessHalted h (.onlyIf h ((ht.drew ..).refuse ..))

theorem Kept.promptRead (h : Kept s₀ s) (i e) : Kept s₀ (s.promptRead i e) := by
  unfold State.promptRead
  extract_lets
  split
  next t e₁ =>
    have ht : Kept s₀ t := (h.tenantRead ..).of_fst e₁
    exact ht.endRequest ..
  next t _ e₁ =>
    have ht : Kept s₀ t := (h.tenantRead ..).of_fst e₁
    split
    next t₁ e₂ =>
      have ht₁ : Kept s₀ t₁ := (ht.tenantRead ..).of_fst e₂
      exact ht₁.endRequest ..
    next t₁ _ e₂ =>
      have ht₁ : Kept s₀ t₁ := (ht.tenantRead ..).of_fst e₂
      extract_lets
      split
      · exact ht₁.endRequest ..
      · extract_lets
        split
        · exact ht₁.endRequest ..
        · split
          · exact (ht₁.setMan ..).bindDumps ..
          · split
            · exact (ht₁.setMan ..).bindDumps ..
            · split
              next t₂ e₃ =>
                have ht₂ : Kept s₀ t₂ := (ht₁.tenantRead ..).of_fst e₃
                exact ht₂.endRequest ..
              next t₂ _ e₃ =>
                have ht₂ : Kept s₀ t₂ := (ht₁.tenantRead ..).of_fst e₃
                split
                · exact ht₂.endRequest ..
                · exact (ht₂.setMan ..).bindDumps ..

theorem Kept.appendRead (h : Kept s₀ s) (i e) : Kept s₀ (s.appendRead i e) := by
  unfold State.appendRead
  extract_lets
  split
  next t e₁ =>
    have ht : Kept s₀ t := (h.tenantRead ..).of_fst e₁
    exact ht.endRequest ..
  next t _ e₁ =>
    have ht : Kept s₀ t := (h.tenantRead ..).of_fst e₁
    extract_lets
    split
    · exact ht.endRequest ..
    · exact (ht.setMan ..).bindDumps ..

theorem nextKept_execPromptReadDone (h : Kept s₀ s) (i) : NextKept s₀ (execPromptReadDone i s) :=
  .unlessHalted h (.onlyIf h (.ite (h.promptRead ..) (h.appendRead ..)))

theorem Kept.contextFor (h : Kept s₀ s) (d vf slot) : Kept s₀ (s.contextFor d vf slot).1 := by
  unfold State.contextFor
  split
  · exact h
  · split
    · exact h
    · exact h.evict ..

theorem Kept.addBerths (h : Kept s₀ s) (i fs) : Kept s₀ (s.addBerths i fs).1 := by
  induction fs generalizing s with
  | nil => exact h
  | cons p fs ih =>
    unfold State.addBerths
    split
    next u e => exact ih ((h.addBerth ..).of_fst e)
    next u e => exact (h.addBerth ..).of_fst e

theorem Kept.growPrefill (h : Kept s₀ s) (i n) : Kept s₀ (s.growPrefill i n) := by
  unfold State.growPrefill
  extract_lets
  split
  · exact h
  · split
    · exact h.waitOnce ..
    · split
      next u e =>
        have hu : Kept s₀ u := (h.addBerths ..).of_fst e
        exact hu.modMan ..
      next u e =>
        have hu : Kept s₀ u := (h.addBerths ..).of_fst e
        exact hu.btHold ..

theorem Kept.placePrefill (h : Kept s₀ s) (i n got) : Kept s₀ (s.placePrefill i n got) := by
  unfold State.placePrefill
  extract_lets m r part sram rest
  clear_value part sram
  refine .ite (h.waitOnce ..) ?_
  split
  next v e => exact (h.contextFor ..).of_fst e
  next v e =>
    have hv : Kept s₀ v := (h.contextFor ..).of_fst e
    extract_lets t
    have ht : Kept s₀ t := by
      unfold t
      split
      · exact (hv.copyBerth ..).setBerth ..
      · exact hv
    split
    · exact h.btHold ..
    next u e => exact (((ht.addBerths ..).of_fst e).modMan ..).same

theorem nextKept_execPrefillPlace (h : Kept s₀ s) (i peer) : NextKept s₀ (execPrefillPlace i peer s) := by
  unfold execPrefillPlace
  extract_lets
  refine .unlessHalted h ?_
  split
  · refine .onlyIf h ?_
    split
    · exact h.waitOnce ..
    · exact (h.modMan ..).placePrefill ..
  · exact .onlyIf h (h.growPrefill ..)

theorem Kept.firstToken (h : Kept s₀ s) (i logits dumps) : Kept s₀ (s.firstToken i logits dumps) := by
  unfold State.firstToken
  extract_lets _ u
  have hu : Kept s₀ u := .ite h h.countSel
  split
  · exact (h.noToken ..).endRequest ..
  · extract_lets u₁
    have hu₁ : Kept s₀ u₁ := ((hu.acceptToken ..).emitTokens ..).dueDumps ..
    split
    · exact hu₁.turnEnds ..
    · exact .ite (hu₁.pauseBegin ..) (hu₁.makeReady ..)

theorem Kept.arrival (h : Kept s₀ s) (rid) {act : Nat → Manifest → State} (hact : ∀ i m, Kept s₀ (act i m)) :
    Kept s₀ (s.arrival rid act) := .ite (hact ..) (h.count ..)

theorem nextKept_execPrefillDone (h : Kept s₀ s) (rid logits dumps) : NextKept s₀ (execPrefillDone rid logits dumps s) := by
  unfold execPrefillDone
  refine .unlessHalted h ?_
  refine .next ?_
  refine h.arrival _ fun i m => ?_
  extract_lets t t₁
  have ht : Kept s₀ t := ((h.setWritten ..).modMan ..).fnCount ..
  have ht₁ : Kept s₀ t₁ := (ht.prefillOver ..).issueMirror ..
  exact .ite h (.ite (h.endRequest ..) (.ite h (ht₁.firstToken ..)))

theorem Kept.afterStep (h : Kept s₀ s) (dumps i) : Kept s₀ (s.afterStep dumps i) := by
  unfold State.afterStep
  extract_lets t _ u
  have ht : Kept s₀ t := (h.modMan ..).dueDumps ..
  have hu : Kept s₀ u := .ite (ht.growBerth ..) ht
  split
  · exact ht.endRequest ..
  · exact ht.reclaim ..
  · exact ht.endRequest ..
  · exact ht.endRequest ..
  · exact .ite (ht.pauseBegin ..) (ht.pauseBegin ..)
  · exact ht.pauseBegin ..
  · exact .ite (ht.pauseBegin ..) (ht.endRequest ..)
  · exact hu.setWritten ..

theorem Kept.rejoin (h : Kept s₀ s) (i) : Kept s₀ (s.rejoin i) := by
  unfold State.rejoin
  extract_lets _ t g t₁
  have ht : Kept s₀ t := h.takeSpare ..
  have hg : Kept s₀ g.1 := by
    unfold g
    split
    · exact ht.growBerth ..
    · exact ht
  have ht₁ : Kept s₀ t₁ := .ite (hg.takeSpare ..) hg
  exact .ite (h.setMan ..) (.ite ((ht₁.btHold ..).modMan ..) (.ite ((ht₁.waitOnce ..).modMan ..) (ht₁.modMan ..)))

theorem Kept.joinBatch (h : Kept s₀ s) (i) : Kept s₀ (s.joinBatch i) := by
  unfold State.joinBatch
  extract_lets _ _ _ t
  have ht : Kept s₀ t := h.setMan ..
  exact .ite h (.ite (h.waitOnce ..) (.ite ((ht.growBerth ..).rejoin ..) ht))

theorem Kept.sitOut (h : Kept s₀ s) (slot) : Kept s₀ (s.sitOut slot) := foldl_keeps (fun _ _ ht => .ite (ht.fnCount ..) ht) _ h

theorem Kept.formBatch (h : Kept s₀ s) (slot) : Kept s₀ (s.formBatch slot) := by
  unfold State.formBatch
  extract_lets _ t t₁ u
  have ht : Kept s₀ t := foldl_keeps (fun _ _ ht₂ => ht₂.rejoin ..) _ h
  have ht₁ : Kept s₀ t₁ := foldl_keeps (fun _ _ ht₂ => ht₂.joinBatch ..) _ ht
  have hu : Kept s₀ u := .ite ht₁ (ht₁.sitOut ..)
  exact hu.same

theorem Kept.nextBatch (h : Kept s₀ s) (ks) : Kept s₀ (s.nextBatch ks) := by
  induction ks generalizing s with
  | nil => exact h.same
  | cons k ks ih => exact .ite (ih (h.formBatch ..)) (h.formBatch ..)

theorem Kept.chargeStep (h : Kept s₀ s) (is_) : Kept s₀ (s.chargeStep is_) := foldl_keeps (fun _ _ ht => ht.charge ..) _ h.settle

theorem Kept.checkpointAll (h : Kept s₀ s) : Kept s₀ s.checkpointAll := by
  unfold State.checkpointAll
  extract_lets _ t
  have ht : Kept s₀ t := foldl_keeps (fun _ _ ht₁ => ht₁.takeCkpt ..) _ h
  exact .ite h.same (.ite h ht.same)

theorem Kept.endStep (h : Kept s₀ s) (dumps) : Kept s₀ (s.endStep dumps) := by
  unfold State.endStep
  extract_lets _ u _ u₁ u₂ u₃
  have hu : Kept s₀ u := h.chargeStep ..
  have hu₁ : Kept s₀ u₁ := hu.same
  have hu₂ : Kept s₀ u₂ := hu₁.trace ..
  have hu₃ : Kept s₀ u₃ := .ite (foldl_keeps (fun _ _ ht => ht.modMan ..) _ hu₂) hu₂
  exact (foldl_keeps (fun _ _ ht => ht.afterStep ..) _ hu₃).checkpointAll

theorem Kept.leaveIdle (h : Kept s₀ s) (dumps) : Kept s₀ (s.leaveIdle dumps) := foldl_keeps (fun _ _ ht => ht.afterStep ..) _ h

theorem Kept.formNext (h : Kept s₀ s) : Kept s₀ s.formNext := by
  unfold State.formNext
  extract_lets _ t t₁
  have ht : Kept s₀ t := h.same
  have ht₁ : Kept s₀ t₁ := foldl_keeps (fun _ _ ht₂ => ht₂.modMan ..) _ ht
  exact .ite ht₁.same (ht₁.nextBatch ..)

theorem nextKept_execDecodeStepBoundary (h : Kept s₀ s) (dumps) : NextKept s₀ (execDecodeStepBoundary dumps s) :=
  .unlessHalted h (.onlyIf h (((Kept.ite (h.endStep ..) h).leaveIdle ..).formNext))

theorem Kept.startStep (h : Kept s₀ s) (i) : Kept s₀ (s.startStep i) := by
  unfold State.startStep
  extract_lets _ _ t
  have ht : Kept s₀ t := .ite h (h.setMan ..)
  exact ht.issueMirror ..

theorem nextKept_execDecodeStepStart (h : Kept s₀ s) : NextKept s₀ (execDecodeStepStart s) := by
  unfold execDecodeStepStart
  extract_lets t
  have ht : Kept s₀ t := foldl_keeps (fun _ _ ht₁ => ht₁.startStep ..) _ h
  exact .unlessHalted h (.onlyIf h ht.same)

theorem Kept.berthLands (h : Kept s₀ s) (i j t f) : Kept s₀ (s.berthLands i j t f) := by
  unfold State.berthLands
  extract_lets
  split
  · exact h
  · extract_lets _ _ _ u
    have hu : Kept s₀ u := h.setBerth ..
    exact hu.modMan ..

theorem nextKept_execBerthSliceArrive (h : Kept s₀ s) (rid berth slice layer data) :
    NextKept s₀ (execBerthSliceArrive rid berth slice layer data s) := by
  unfold execBerthSliceArrive
  extract_lets
  refine .unlessHalted h ?_
  refine .next ?_
  refine h.arrival _ fun i m => ?_
  extract_lets
  split
  · extract_lets _ _ t t₁ u
    have ht : Kept s₀ t := h.sliceStore ..
    have ht₁ : Kept s₀ t₁ := ht.modMan ..
    have hu : Kept s₀ u := ht₁.berthLands ..
    exact .ite h (.ite (h.setMan ..) (.ite ht₁ (.ite (ht₁.setBerth ..) (.ite (hu.pauseLanded ..) hu))))
  · exact h

theorem nextKept_execPullSourceError (h : Kept s₀ s) (rid peer) : NextKept s₀ (execPullSourceError rid peer s) := by
  unfold execPullSourceError
  refine .unlessHalted h ?_
  refine .next ?_
  refine h.arrival _ fun i m => ?_
  exact .ite (h.setMan ..) h

theorem nextKept_execMirrorCopyDone (h : Kept s₀ s) (rid berth) : NextKept s₀ (execMirrorCopyDone rid berth s) := by
  unfold execMirrorCopyDone
  refine .unlessHalted h ?_
  refine .next ?_
  refine h.arrival _ fun i m => ?_
  extract_lets
  split
  · extract_lets _ t t₁
    have ht : Kept s₀ t := h.setMan ..
    have ht₁ : Kept s₀ t₁ := .ite ht ((ht.putPeer ..).setBerth ..)
    exact ht₁.sendRecord ..
  · exact h

theorem nextKept_execCheckpointCommit (h : Kept s₀ s) (rid) : NextKept s₀ (execCheckpointCommit rid s) := by
  unfold execCheckpointCommit
  refine .unlessHalted h ?_
  refine .next ?_
  refine h.arrival _ fun i m => ?_
  split
  · exact .ite (h.setMan ..) h
  · exact h

theorem nextKept_execCheckpointFail (h : Kept s₀ s) (rid) : NextKept s₀ (execCheckpointFail rid s) := by
  unfold execCheckpointFail
  refine .unlessHalted h ?_
  refine .next ?_
  refine h.arrival _ fun i m => ?_
  exact .ite ((h.setMan ..).count ..) h

theorem nextKept_execPauseComplete (h : Kept s₀ s) (i) : NextKept s₀ (execPauseComplete i s) := by
  unfold execPauseComplete
  extract_lets _ t t₁
  have ht : Kept s₀ t := (h.writeProv ..).postEvent ..
  have ht₁ : Kept s₀ t₁ := ht.modMan ..
  exact .unlessHalted h (.onlyIf h (.ite (ht₁.doResume ..) ht₁))

theorem nextKept_execExpirySweep (h : Kept s₀ s) : NextKept s₀ (execExpirySweep s) := by
  unfold execExpirySweep
  extract_lets t
  have ht : Kept s₀ t := h.reachNs ..
  exact .unlessHalted h (.next (foldl_keeps (fun _ _ ht₁ => ht₁.endRequest ..) _ ht))

theorem nextKept_execManifestQuietEnd (h : Kept s₀ s) (i) : NextKept s₀ (execManifestQuietEnd i s) := by
  unfold execManifestQuietEnd
  extract_lets _ t u
  have ht : Kept s₀ t := h.reachRaw ..
  have hu : Kept s₀ u := ht.setMan ..
  exact .unlessHalted h (.onlyIf h hu.same)

theorem nextKept_execBtRebuildStart (h : Kept s₀ s) : NextKept s₀ (execBtRebuildStart s) := .unlessHalted h (.onlyIf h h.btStart)

theorem nextKept_execHmBtStart (h : Kept s₀ s) (m) : NextKept s₀ (execHmBtStart m s) := .agentIf h h.btStart

theorem Kept.writeShadow (h : Kept s₀ s) : Kept s₀ s.writeShadow := by
  unfold State.writeShadow
  extract_lets _ t
  have ht : Kept s₀ t := h.clearMem ..
  exact foldl_keeps (fun _ _ ht₁ => ht₁.store ..) _ ht

theorem nextKept_execBtRebuildPassEnd (h : Kept s₀ s) : NextKept s₀ (execBtRebuildPassEnd s) := by
  unfold execBtRebuildPassEnd
  extract_lets t
  have ht : Kept s₀ t := h.writeShadow
  split
  · exact .next h
  · exact .unlessHalted h (.next ht.same)

theorem nextKept_execBtFlip (h : Kept s₀ s) : NextKept s₀ (execBtFlip s) := by
  unfold execBtFlip
  extract_lets _ _ t t₁
  have ht : Kept s₀ t := h.same
  have ht₁ : Kept s₀ t₁ := foldl_keeps (fun _ _ ht₂ => ht₂.modMan ..) _ ht
  exact .unlessHalted h (.onlyIf h ht₁)

theorem nextKept_execBtRebuildRestart (h : Kept s₀ s) : NextKept s₀ (execBtRebuildRestart s) := .unlessHalted h (.onlyIf h h.same)

theorem Kept.setSlot (h : Kept s₀ s) (k r) : Kept s₀ (s.setSlot k r) := h.same

theorem Kept.slotError (h : Kept s₀ s) (k code) : Kept s₀ (s.slotError k code) := h.same

theorem nextKept_execHmSlotLoad (h : Kept s₀ s) (m k) : NextKept s₀ (execHmSlotLoad m k s) := by
  unfold execHmSlotLoad
  extract_lets
  refine .agentIf h ?_
  split
  · exact (h.slotError ..).mgmtEvent
  · split
    · exact (h.slotError ..).setSlot ..
    · exact (h.slotError ..).mgmtEvent

theorem nextKept_execSlotLoadDone (h : Kept s₀ s) (k r) : NextKept s₀ (execSlotLoadDone k r s) := by
  unfold execSlotLoadDone
  extract_lets _ _ _ _ t
  have ht : Kept s₀ t := foldl_keeps (fun _ _ ht₁ => ht₁.store ..) _ h
  refine .unlessHalted h ?_
  refine .onlyIf h ?_
  split
  · exact ((h.setSlot ..).slotError ..).mgmtEvent
  · split
    · exact ((h.setSlot ..).slotError ..).mgmtEvent
    · exact ((ht.setSlot ..).slotError ..).mgmtEvent

theorem nextKept_execHmSlotUnload (h : Kept s₀ s) (m k) : NextKept s₀ (execHmSlotUnload m k s) :=
  .agentIf h (.ite ((h.setSlot ..).slotError ..) ((h.slotError ..).mgmtEvent))

theorem Kept.unloadAll (h : Kept s₀ s) (k) : Kept s₀ (s.unloadAll k) := foldl_keeps (fun t x ht => by
    extract_lets
    exact .ite (ht.setMan ..) (ht.endRequest ..)) _ h

theorem nextKept_execHmSlotUnloadForce (h : Kept s₀ s) (m k) : NextKept s₀ (execHmSlotUnloadForce m k s) := by
  unfold execHmSlotUnloadForce
  extract_lets _ t
  have ht : Kept s₀ t := (h.setSlot ..).unloadAll ..
  exact .agentIf h (.ite ((Kept.ite ht ((ht.setSlot ..).mgmtEvent)).slotError ..) ((h.slotError ..).mgmtEvent))

theorem nextKept_execSlotDrainDone (h : Kept s₀ s) (k) : NextKept s₀ (execSlotDrainDone k s) :=
  .unlessHalted h (.onlyIf h ((h.setSlot ..).mgmtEvent))

theorem nextKept_execHmCkptWrite (h : Kept s₀ s) (m v) : NextKept s₀ (execHmCkptWrite m v s) := .agentIf h (h.setReg ..)

theorem nextKept_execHmQuietWrite (h : Kept s₀ s) (m v) : NextKept s₀ (execHmQuietWrite m v s) := .agentIf h (h.setReg ..)

/-! ### Sys2Proof/Machine/HostReset.lean -/

theorem Kept.endQuietly (h : Kept s₀ s) (p) : Kept s₀ (s.endQuietly p) :=
  foldl_keeps (fun _ _ ht => .ite (ht.modMan ..) ((ht.modMan ..).reclaim ..)) _ h

theorem Kept.dropContexts (h : Kept s₀ s) (p) : Kept s₀ (s.dropContexts p) := by
  unfold State.dropContexts
  extract_lets s₁ _ t
  have hs₁ : Kept s₀ s₁ := foldl_keeps (fun _ _ ht₁ => ht₁.abortCtx ..) _ h
  have ht : Kept s₀ t := hs₁.same
  exact foldl_keeps (fun _ _ ht₁ => ht₁.serveWait ..) _ ht

theorem Kept.flrFns (h : Kept s₀ s) (p) : Kept s₀ (s.flrFns p) := by
  unfold State.flrFns
  extract_lets _ s₁ s₂ s₃ s₄
  have hs₄ : Kept s₀ s₄ := ((Kept.endQuietly h.same p).dropContexts p).dropCached ..
  clear_value s₄
  exact hs₄.of_eq

theorem Kept.flrVfs (h : Kept s₀ s) (p) : Kept s₀ (s.flrVfs p) := by
  unfold State.flrVfs
  extract_lets t
  have ht : Kept s₀ t := h.flrFns ..
  exact ht.same

theorem Kept.hiReset (h : Kept s₀ s) : Kept s₀ s.hiReset := by
  unfold State.hiReset
  extract_lets t t₁ t₂
  have ht : Kept s₀ t := (h.flrVfs ..).flrFns ..
  have ht₁ : Kept s₀ t₁ := (ht.resetRegs ..).resetRegs ..
  have ht₂ : Kept s₀ t₂ := ht₁.dropCached ..
  exact ht₂.same

theorem nextKept_execVfFlr (h : Kept s₀ s) (v) : NextKept s₀ (execVfFlr v s) := .onlyIf h (h.flrVfs ..)

theorem nextKept_execVfEnableClear (h : Kept s₀ s) : NextKept s₀ (execVfEnableClear s) := by
  unfold execVfEnableClear
  extract_lets t
  have ht : Kept s₀ t := h.flrVfs ..
  exact .onlyIf h ht.same

theorem nextKept_execVfFlrComplete (h : Kept s₀ s) (v) : NextKept s₀ (execVfFlrComplete v s) := by
  unfold execVfFlrComplete
  extract_lets t
  have ht : Kept s₀ t := h.reachRaw ..
  exact .onlyIf h ht.same

theorem nextKept_execVfEnableSet (h : Kept s₀ s) : NextKept s₀ (execVfEnableSet s) := .onlyIf h h.same

theorem nextKept_execPfFlr (h : Kept s₀ s) : NextKept s₀ (execPfFlr s) := .onlyIf h h.hiReset

theorem Kept.linkLow (h : Kept s₀ s) : Kept s₀ s.linkLow := h.same

theorem nextKept_execPcieLinkDown (h : Kept s₀ s) : NextKept s₀ (execPcieLinkDown s) := .onlyIf h h.hiReset.linkLow

theorem nextKept_execPerstAssert (h : Kept s₀ s) : NextKept s₀ (execPerstAssert s) := by
  unfold execPerstAssert
  extract_lets t
  have ht : Kept s₀ t := h.hiReset.linkLow
  exact .onlyIf h ht.same

theorem nextKept_execPerstDeassert (h : Kept s₀ s) : NextKept s₀ (execPerstDeassert s) := .next h.same

theorem nextKept_execPcieLinkTrained (h : Kept s₀ s) (x16 gt64 flit) : NextKept s₀ (execPcieLinkTrained x16 gt64 flit s) :=
  .onlyIf h h.same

theorem nextKept_execPciPmStateWrite (h : Kept s₀ s) (f d3) : NextKept s₀ (execPciPmStateWrite f d3 s) := .onlyIf h h.same

theorem Kept.barAnswer (h : Kept s₀ s) (data status) : Kept s₀ (s.barAnswer data status) := h.same

theorem nextKept_execBar0BadAccess (h : Kept s₀ s) (f write) : NextKept s₀ (execBar0BadAccess f write s) := by
  unfold execBar0BadAccess
  extract_lets t
  have ht : Kept s₀ t := .ite (h.count ..) h
  exact .onlyIf h (.ite ht (ht.barAnswer ..))

theorem nextKept_execBar2Read (h : Kept s₀ s) (o n) : NextKept s₀ (execBar2Read o n s) := by
  unfold execBar2Read
  extract_lets _ _ t
  have ht : Kept s₀ t := .ite (.ite ((h.noteReads ..).barAnswer ..) (h.barAnswer ..)) (h.barAnswer ..)
  exact .onlyIf h ht

theorem nextKept_execBar2Write (h : Kept s₀ s) (o data lost) : NextKept s₀ (execBar2Write o data lost s) := by
  unfold execBar2Write
  extract_lets _ _ t
  have ht : Kept s₀ t := .ite (h.count ..) (h.storeLost ..)
  exact .onlyIf h ht

theorem nextKept_execFatalError (h : Kept s₀ s) (cause die) : NextKept s₀ (execFatalError cause die s) := .onlyIf h (h.raiseFatal ..)

theorem nextKept_execBridgeDown (h : Kept s₀ s) (p) : NextKept s₀ (execBridgeDown p s) := .next (h.same.raiseFatal ..)

/-! ### Sys2Proof/Machine/Select.lean -/

theorem Kept.stepSelect (h : Kept s₀ s) (i logits) : Kept s₀ (s.stepSelect i logits) := by
  unfold State.stepSelect
  extract_lets _ t
  have ht : Kept s₀ t := .ite h h.countSel
  split
  · exact (h.noToken ..).modMan ..
  · exact ((ht.acceptToken ..).emitTokens ..).modMan ..

theorem nextKept_execRakeSelect (h : Kept s₀ s) (rid logits) : NextKept s₀ (execRakeSelect rid logits s) := by
  unfold execRakeSelect
  refine .unlessHalted h ?_
  refine .next ?_
  refine h.arrival _ fun i m => ?_
  exact .ite (h.stepSelect ..) h

theorem nextKept_execSieveSelect (h : Kept s₀ s) (rid logits) : NextKept s₀ (execSieveSelect rid logits s) := by
  unfold execSieveSelect
  refine .unlessHalted h ?_
  refine .next ?_
  refine h.arrival _ fun i m => ?_
  exact .ite (h.stepSelect ..) h

theorem nextKept_execSpecDraft (h : Kept s₀ s) (rid logits) : NextKept s₀ (execSpecDraft rid logits s) := by
  unfold execSpecDraft
  refine .unlessHalted h ?_
  refine .next ?_
  refine h.arrival _ fun i m => ?_
  extract_lets _ t t₁
  have ht : Kept s₀ t := ((h.setMan ..).count ..).fnCount ..
  have ht₁ : Kept s₀ t₁ := .ite ht (foldl_keeps (fun _ _ ht₂ => ht₂.countSel) _ ht)
  exact .ite ht₁ h

theorem Kept.verify (h : Kept s₀ s) (i j xs ls) : Kept s₀ (s.verify i j xs ls).1 := by
  induction ls generalizing s j xs with
  | nil =>
    unfold State.verify
    exact h
  | cons l ls ih =>
    unfold State.verify
    extract_lets m
    split
    · exact h
    next tok stop z _ =>
      extract_lets t
      have ht : Kept s₀ t := (Kept.ite h h.countSel).acceptToken ..
      split
      · split
        · split
          · exact ht
          · exact ih ht _ _
        · exact ht
      · exact ht

theorem nextKept_execSpecVerify (h : Kept s₀ s) (rid logits) : NextKept s₀ (execSpecVerify rid logits s) := by
  unfold execSpecVerify
  refine .unlessHalted h ?_
  refine .next ?_
  refine h.arrival _ fun i m => ?_
  extract_lets r t t₁ t₂
  have hr : Kept s₀ r.1 := h.verify ..
  have ht : Kept s₀ t := ((hr.count ..).fnCount ..).emitTokens ..
  have ht₁ : Kept s₀ t₁ := ht.modMan ..
  have ht₂ : Kept s₀ t₂ := .ite ((ht₁.noToken ..).modMan ..) ht₁
  exact .ite ht₂ h

theorem Kept.svPlace (h : Kept s₀ s) (i a auto) : Kept s₀ (s.svPlace i a auto) := by
  unfold State.svPlace
  extract_lets t
  have ht : Kept s₀ t := h.store ..
  exact (ht.svLog ..).modMan ..

theorem nextKept_execSieveImageLoad (h : Kept s₀ s) (i) : NextKept s₀ (execSieveImageLoad i s) := by
  unfold execSieveImageLoad
  extract_lets _ _ _ _ t
  have ht : Kept s₀ t := by
    unfold t
    split
    · exact (h.count ..).endRequest ..
    · split
      · exact h.svStart
      · split
        · exact h.svPlace ..
        · split
          next t₁ e =>
            have ht₁ : Kept s₀ t₁ := (h.tenantRead ..).of_fst e
            exact ht₁.endRequest ..
          next t₁ _ e =>
            have ht₁ : Kept s₀ t₁ := (h.tenantRead ..).of_fst e
            split
            · exact ht₁.endRequest ..
            · exact (ht₁.svPlace ..).modMan ..
  exact .unlessHalted h (.onlyIf h ht)

theorem nextKept_execSvStoreStart (h : Kept s₀ s) (m) : NextKept s₀ (execSvStoreStart m s) := .agentIf h h.svStart

theorem nextKept_execSvRebuildStart (h : Kept s₀ s) : NextKept s₀ (execSvRebuildStart s) := .unlessHalted h (.onlyIf h h.svStart)

theorem Kept.svWriteShadow (h : Kept s₀ s) : Kept s₀ s.svWriteShadow := foldl_keeps (fun _ _ ht => ht.store ..) _ h

theorem nextKept_execSvRebuildPassEnd (h : Kept s₀ s) : NextKept s₀ (execSvRebuildPassEnd s) := by
  unfold execSvRebuildPassEnd
  extract_lets t
  have ht : Kept s₀ t := h.svWriteShadow
  split
  · exact .next h
  · exact .unlessHalted h (.next ht.same)

theorem nextKept_execSvStoreFlip (h : Kept s₀ s) : NextKept s₀ (execSvStoreFlip s) := by
  unfold execSvStoreFlip
  extract_lets t _ t₁
  have ht : Kept s₀ t := foldl_keeps (fun _ _ ht₂ => ht₂.modMan ..) _ h
  have ht₁ : Kept s₀ t₁ := ht.same
  exact .unlessHalted h (.onlyIf h ht₁)

theorem nextKept_execSvRebuildRestart (h : Kept s₀ s) : NextKept s₀ (execSvRebuildRestart s) := by
  unfold execSvRebuildRestart
  extract_lets _ t
  have ht : Kept s₀ t := h.svPack
  exact .unlessHalted h (.onlyIf h ht.same)

/-! ### Sys2Proof/Machine/Sharing.lean -/

theorem Kept.shrink (h : Kept s₀ s) (key target) : Kept s₀ (s.shrink key target) := by
  unfold State.shrink
  split
  · exact h
  · extract_lets
    exact h.setCtx ..

theorem Kept.reassign (h : Kept s₀ s) (d) : Kept s₀ (s.reassign d) := by
  unfold State.reassign
  extract_lets _ _ t
  have ht : Kept s₀ t := foldl_keeps (fun _ _ ht₁ => ht₁.shrink ..) _ h
  exact ht.giveIdle ..

theorem nextKept_execQuantumBoundary (h : Kept s₀ s) : NextKept s₀ (execQuantumBoundary s) := by
  unfold execQuantumBoundary
  extract_lets _ t _ t₁ u
  have ht : Kept s₀ t := (h.reachNs ..).settle
  have ht₁ : Kept s₀ t₁ := ht.same.takeCxVf
  have hu : Kept s₀ u := foldl_keeps (fun _ _ ht₂ => ht₂.reassign ..) _ ht₁
  exact .unlessHalted h (.onlyIf h (.ite hu (hu.reassign ..)))

theorem nextKept_execContextStop (h : Kept s₀ s) (d c) : NextKept s₀ (execContextStop d c s) :=
  .unlessHalted h (.onlyIf h (h.stopCtx ..))

theorem Kept.unstop (h : Kept s₀ s) (d key) : Kept s₀ (s.unstop d key) := by
  unfold State.unstop
  split
  · extract_lets
    exact .ite (h.goOn ..) h
  · exact h

theorem nextKept_execContextStopDone (h : Kept s₀ s) (d c nexts) : NextKept s₀ (execContextStopDone d c nexts s) := by
  unfold execContextStopDone
  extract_lets
  split
  · exact .next h
  · extract_lets _ t u v
    have ht : Kept s₀ t := foldl_keeps (fun _ _ ht₁ => ht₁.esAbort ..) _ h
    have hu : Kept s₀ u.1 := Kept.foldl_fst (fun y x hy => by
        extract_lets y₁
        have hy₁ : Kept s₀ y₁.1 := hy.stopTiles ..
        exact hy₁.handBack ..) _ ht
    have hv : Kept s₀ v := hu.setCtx ..
    exact .unlessHalted h (.onlyIf h ((hv.unstop ..).giveIdle ..))

theorem Kept.traceSave (h : Kept s₀ s) (kind n num c) : Kept s₀ (s.traceSave kind n num c) := h.trace ..

theorem Kept.saveError (h : Kept s₀ s) (n c) : Kept s₀ (s.saveError n c) := by
  unfold State.saveError
  extract_lets t
  have ht : Kept s₀ t := (h.count ..).hiErr ..
  exact foldl_keeps (fun _ _ ht₁ => ht₁.endRequest ..) _ ht

theorem nextKept_execContextSaveBegin (h : Kept s₀ s) (n c) : NextKept s₀ (execContextSaveBegin n c s) := by
  unfold execContextSaveBegin
  extract_lets
  split
  · exact .next h
  · exact .unlessHalted h (.onlyIf h ((h.setCtx ..).traceSave ..))

theorem nextKept_execContextSaveEnd (h : Kept s₀ s) (n c) : NextKept s₀ (execContextSaveEnd n c s) := by
  unfold execContextSaveEnd
  extract_lets
  split
  · exact .next h
  · extract_lets _ _ t _ t₁ _ _ t₂
    have ht : Kept s₀ t := (h.store ..).store ..
    have ht₁ : Kept s₀ t₁ := ((ht.setCtx ..).count ..).fnCount ..
    have ht₂ : Kept s₀ t₂ := ht₁.same
    exact .unlessHalted h (.onlyIf h ((Kept.ite ((h.saveError ..).setCtx ..) (ht₂.traceSave ..)).serveWait ..))

theorem nextKept_execContextRestoreBegin (h : Kept s₀ s) (k) : NextKept s₀ (execContextRestoreBegin k s) := by
  unfold execContextRestoreBegin
  extract_lets
  split
  · exact .next h
  · extract_lets
    split
    · exact .next h
    · exact .unlessHalted h (.onlyIf h (h.same.setCtx ..))

theorem nextKept_execContextRestoreEnd (h : Kept s₀ s) (n c) : NextKept s₀ (execContextRestoreEnd n c s) := by
  unfold execContextRestoreEnd
  extract_lets
  split
  · exact .next h
  · extract_lets _ _ t t₁
    have ht : Kept s₀ t := (h.store ..).store ..
    have ht₁ : Kept s₀ t₁ := (ht.count ..).traceSave ..
    exact .unlessHalted h (.onlyIf h (.ite (((h.saveError ..).setCtx ..).serveWait ..) (ht₁.goOn ..)))

theorem nextKept_execCxQuantumWrite (h : Kept s₀ s) (m v) : NextKept s₀ (execCxQuantumWrite m v s) := .agentIf h (h.setReg ..)

theorem nextKept_execCxMarginWrite (h : Kept s₀ s) (m v) : NextKept s₀ (execCxMarginWrite m v s) := .agentIf h (h.setReg ..)

theorem nextKept_execCxVfWrite (h : Kept s₀ s) (m f v) : NextKept s₀ (execCxVfWrite m f v s) := .agentIf h (h.settle.setReg ..)

theorem Kept.setTt (h : Kept s₀ s) (n i e) : Kept s₀ (s.setTt n i e) := by
  unfold State.setTt
  extract_lets s₁ _ _ t
  have hs₁ : Kept s₀ s₁ := h.settle
  have ht : Kept s₀ t := hs₁.same
  exact .ite ht (ht.trace ..)

theorem Kept.ttIrq (h : Kept s₀ s) (e) : Kept s₀ (s.ttIrq e) := h.irqTo ..

theorem nextKept_execTtEntrySubmit (h : Kept s₀ s) (m n i v) : NextKept s₀ (execTtEntrySubmit m n i v s) := by
  unfold execTtEntrySubmit
  extract_lets _ _ _ _ _ t
  have ht : Kept s₀ t := .ite (((h.setTt ..).count ..).ttIrq ..) ((h.setTt ..).count ..)
  exact .agentIf h ht

theorem Kept.discardBooked (h : Kept s₀ s) (n i) : Kept s₀ (s.discardBooked n i) := foldl_keeps (fun t x ht => by
    extract_lets
    exact ht.putEs ..) _ h

theorem Kept.ttOver (h : Kept s₀ s) (n i st) : Kept s₀ (s.ttOver n i st) := by
  unfold State.ttOver
  extract_lets _ t
  have ht : Kept s₀ t := h.setTt ..
  exact foldl_keeps (fun _ _ ht₁ => ht₁.unstop ..) _ ht

theorem nextKept_execTtEntryCancel (h : Kept s₀ s) (m n i) : NextKept s₀ (execTtEntryCancel m n i s) :=
  .agentIf h ((h.discardBooked ..).ttOver ..)

theorem Kept.ttStop (h : Kept s₀ s) (n key) : Kept s₀ (s.ttStop n key) := by
  unfold State.ttStop
  extract_lets
  exact (foldl_keeps (fun t x ht => by
      extract_lets
      exact ht.setTt ..) _ h).stopCtx ..

theorem nextKept_execTtStopDue (h : Kept s₀ s) (n) : NextKept s₀ (execTtStopDue n s) := by
  unfold execTtStopDue
  split
  · exact .next h
  · extract_lets t
    have ht : Kept s₀ t := h.reachNs ..
    exact .unlessHalted h (.onlyIf h (ht.ttStop ..))

theorem nextKept_execTtReleaseDue (h : Kept s₀ s) (n i) : NextKept s₀ (execTtReleaseDue n i s) := by
  unfold execTtReleaseDue
  extract_lets _ _ t _ u
  have ht : Kept s₀ t := h.reachNs ..
  have hu : Kept s₀ u := foldl_keeps (fun t₁ x ht₁ => by
      split
      · exact ht₁
      · extract_lets
        exact ht₁.setCtx ..) _ ht
  exact .unlessHalted h (.onlyIf h hu)

theorem nextKept_execTtReady (h : Kept s₀ s) (n i) : NextKept s₀ (execTtReady n i s) :=
  .unlessHalted h (.onlyIf h ((h.setTt ..).ttIrq ..))

theorem Kept.ttActivate (h : Kept s₀ s) (n i e) : Kept s₀ (s.ttActivate n i e) := by
  unfold State.ttActivate
  extract_lets _ t _ t₁
  have ht : Kept s₀ t := h.setTt ..
  have ht₁ : Kept s₀ t₁ := ht.same
  exact .ite ht (ht₁.storeNat ..)

theorem nextKept_execTtStart (h : Kept s₀ s) (n i) : NextKept s₀ (execTtStart n i s) := by
  unfold execTtStart
  extract_lets _ t
  have ht : Kept s₀ t := h.reachNs ..
  exact .unlessHalted h (.onlyIf h (.ite (ht.ttActivate ..) (((ht.setTt ..).count ..).ttIrq ..)))

theorem nextKept_execTtLateArrayFree (h : Kept s₀ s) (n i) : NextKept s₀ (execTtLateArrayFree n i s) :=
  .unlessHalted h (.onlyIf h (.ite (h.ttActivate ..) (h.setTt ..)))

theorem nextKept_execTtEnd (h : Kept s₀ s) (n i) : NextKept s₀ (execTtEnd n i s) := by
  unfold execTtEnd
  extract_lets _ t u u₁
  have ht : Kept s₀ t := h.reachNs ..
  have hu : Kept s₀ u := ht.discardBooked ..
  have hu₁ : Kept s₀ u₁ := .ite (hu.count ..) hu
  exact .unlessHalted h (.onlyIf h (hu₁.ttOver ..))

/-! ### Sys2Proof/Machine/Islands.lean -/

theorem Kept.askRelease (h : Kept s₀ s) (i) : Kept s₀ (s.askRelease i) := by
  unfold State.askRelease
  extract_lets
  split
  · exact .ite h h.same
  · exact h

theorem Kept.clusterLost (h : Kept s₀ s) (c) : Kept s₀ (s.clusterLost c) := by
  unfold State.clusterLost
  extract_lets _ t
  have ht : Kept s₀ t := foldl_keeps (fun t₁ x ht₁ => by
      extract_lets
      exact .ite (ht₁.loseHandle ..) ht₁) _ h
  exact (ht.setDs ..).irqTo ..

theorem Kept.dredgeLeaves (h : Kept s₀ s) (i) : Kept s₀ (s.dredgeLeaves i) := by
  unfold State.dredgeLeaves
  extract_lets _ _ _ _ t
  have ht : Kept s₀ t := h.setDredge ..
  exact .ite (.ite (ht.count ..) ht) h

theorem Kept.unitsOff (h : Kept s₀ s) (i off) : Kept s₀ (s.unitsOff i off) := by
  unfold State.unitsOff
  split
  · exact h.setEs ..
  · exact h.groupLeaves ..
  · exact foldl_keeps (fun t x ht => by
        extract_lets
        exact ht.same) _ h
  · split
    · exact h.clusterLost ..
    · exact h
  · exact h.portsOff ..
  · exact h.opticsOff ..
  · exact h

theorem Kept.dropArray (h : Kept s₀ s) (g) : Kept s₀ (s.dropArray g) := foldl_keeps (fun t x ht => by
    extract_lets
    split
    · exact ht.setCtx ..
    · extract_lets u
      have hu : Kept s₀ u.1 := ht.handBack ..
      exact hu.setCtx ..) _ h.settle

theorem Kept.rewriteRules (h : Kept s₀ s) (d) : Kept s₀ (s.rewriteRules d) := foldl_keeps (fun t x ht => by
    split
    · exact ht.setReg ..
    · exact ht) _ h

theorem Kept.dieLost (h : Kept s₀ s) (d) : Kept s₀ (s.dieLost d) := by
  unfold State.dieLost
  extract_lets gs _ _ t t₁ b t₂
  have ht : Kept s₀ t := (h.dropEs _).same
  have ht₁ : Kept s₀ t₁ := foldl_keeps (fun _ _ hu => hu.resetRegs ..) _ ht
  have ht₂ : Kept s₀ t₂ := ht₁.resetRegs ..
  clear_value t₂
  cases d with
  | gd n =>
    exact (ht₂.resetRegs ..).dropDl ..
  | rd => exact ((ht₂.resetRegs ..).resetRegs ..).resetRegs .. |>.same
  | _ => exact ht₂

theorem Kept.clockFor (h : Kept s₀ s) (i) : Kept s₀ (s.clockFor i) := h.same

theorem Kept.failRequest (h : Kept s₀ s) (i) : Kept s₀ (s.failRequest i) := .ite (h.modMan ..) (h.endRequest ..)

theorem Kept.groupLost (h : Kept s₀ s) (i kept) : Kept s₀ (s.groupLost i kept) := by
  unfold State.groupLost
  extract_lets _ _ t
  have ht : Kept s₀ t := foldl_keeps (fun _ _ ht₁ => ht₁.failRequest ..) _ h
  exact foldl_keeps (fun t₁ x ht₁ => by
      extract_lets _ u
      have hu : Kept s₀ u := (ht₁.setSlot ..).unloadAll ..
      exact .ite hu ((hu.setSlot ..).mgmtEvent)) _ ht

theorem Kept.loadCores (h : Kept s₀ s) (d x bankB data) : Kept s₀ (s.loadCores d x bankB data) := h.same

theorem Kept.loadHdBank (h : Kept s₀ s) (x bankB) : Kept s₀ (s.loadHdBank x bankB) := h.same

theorem Kept.unitsOn (h : Kept s₀ s) (i) : Kept s₀ (s.unitsOn i) := by
  unfold State.unitsOn
  split
  · exact h.opticsOn ..
  · exact .ite h (foldl_keeps (fun t x ht => by
        extract_lets
        exact ht.same) _ h)
  · exact .ite h ((h.loadCores ..).loadCores ..)
  · exact h

theorem Kept.applyRetain (h : Kept s₀ s) (d) : Kept s₀ (s.applyRetain d) := by
  unfold State.applyRetain
  extract_lets
  split
  · exact h
  · split
    · exact foldl_keeps (fun _ _ ht => ht.setReg ..) _ h
    · exact h.setReg ..
    · exact h.setReg ..
    · exact h.setReg ..

theorem Kept.arrayFailed (h : Kept s₀ s) (g) : Kept s₀ (s.arrayFailed g) := (foldl_keeps (fun _ _ ht => ht.ttIrq ..) _ h).dropArray ..

/-! ### Sys2Proof/Machine/Sluice.lean -/

theorem Kept.modSluice (h : Kept s₀ s) (f) : Kept s₀ (s.modSluice f) := h.same

theorem nextKept_execOperatingPointChange (h : Kept s₀ s) (k) : NextKept s₀ (execOperatingPointChange k s) := .next (h.modSluice ..)

theorem Kept.stopDie (h : Kept s₀ s) (d) : Kept s₀ (s.stopDie d) := foldl_keeps (fun _ _ ht => ht.stopCtx ..) _ h

theorem Kept.resumeDie (h : Kept s₀ s) (d) : Kept s₀ (s.resumeDie d) :=
  .ite h ((foldl_keeps (fun _ _ ht => ht.unstop ..) _ h).giveIdle ..)

theorem Kept.reparked (h : Kept s₀ s) : Kept s₀ s.reparked := foldl_keeps (fun _ _ ht => .ite (ht.stopDie ..) (ht.resumeDie ..)) _ h

theorem Kept.parkSome (h : Kept s₀ s) (n) : Kept s₀ (s.parkSome n) := ((h.modSluice ..).count ..).reparked

theorem Kept.stepDown (h : Kept s₀ s) : Kept s₀ s.stepDown := .ite ((h.modSluice ..).count ..) (.ite (h.parkSome ..) h)

theorem nextKept_execSluiceTick (h : Kept s₀ s) (mw) : NextKept s₀ (execSluiceTick mw s) := by
  unfold execSluiceTick
  extract_lets _ _ _ _ _ _ _ _ t
  have ht : Kept s₀ t := h.modSluice ..
  exact .onlyIf h (.ite ht (.ite (.ite ht.stepDown ht) (.ite ((ht.modSluice ..).reparked) (.ite (ht.modSluice ..) ht))))

theorem nextKept_execInputLimitEmergency (h : Kept s₀ s) : NextKept s₀ (execInputLimitEmergency s) := by
  unfold execInputLimitEmergency
  extract_lets t
  have ht : Kept s₀ t := (h.parkSome ..).modSluice ..
  exact .next ((ht.setReg ..).count ..)

theorem nextKept_execEmergencyClear (h : Kept s₀ s) : NextKept s₀ (execEmergencyClear s) := .next (h.modSluice ..)

theorem nextKept_execThermalTick (h : Kept s₀ s) (temps) : NextKept s₀ (execThermalTick temps s) := by
  unfold execThermalTick
  extract_lets _ _ _ t u v
  have ht : Kept s₀ t := h.modSluice ..
  have hu : Kept s₀ u := .ite (((ht.modSluice ..).count ..).reparked) (.ite (ht.modSluice ..) (.ite (ht.modSluice ..) ht))
  have hv : Kept s₀ v := .ite ((hu.modSluice ..).reparked) hu
  exact .onlyIf h hv

theorem nextKept_execBoostHour (h : Kept s₀ s) : NextKept s₀ (execBoostHour s) := by
  unfold execBoostHour
  extract_lets _ t
  have ht : Kept s₀ t := h.modSluice ..
  exact .next (.ite ht.same ht)

theorem nextKept_execSitePwrChange (h : Kept s₀ s) (v) : NextKept s₀ (execSitePwrChange v s) := by
  unfold execSitePwrChange
  extract_lets t
  have ht : Kept s₀ t := (h.modSluice ..).mgmtEvent
  exact .onlyIf h (.ite ht ht.reparked)

theorem nextKept_execThrottleAssert (h : Kept s₀ s) (lowNs) : NextKept s₀ (execThrottleAssert lowNs s) := by
  unfold execThrottleAssert
  extract_lets on
  have hon : Kept s₀ on := h.modSluice ..
  exact .next (.ite hon (.ite h ((Kept.ite hon h).drew ..)))

theorem nextKept_execThrottleRelease (h : Kept s₀ s) : NextKept s₀ (execThrottleRelease s) := .next (h.modSluice ..)

/-! ### Sys2Proof/Machine/Record.lean -/

theorem Kept.fillRegs (h : Kept s₀ s) (base count n b off) : Kept s₀ (s.fillRegs base count n b off) := foldl_keeps (fun t x ht => by
    extract_lets
    exact ht.setReg ..) _ h

theorem Kept.applyItems (h : Kept s₀ s) : Kept s₀ s.applyItems := by
  unfold State.applyItems
  extract_lets _ _ u u₁ t _ t₁
  have hu : Kept s₀ u := (h.setRegB ..).setReg ..
  have hu₁ : Kept s₀ u₁ := foldl_keeps (fun _ _ ht₂ => ht₂.setReg ..) _ hu
  have ht : Kept s₀ t := .ite h ((hu₁.fillRegs ..).fillRegs ..)
  have ht₁ : Kept s₀ t₁ := .ite ht (((((ht.setReg ..).setReg ..).fillRegs ..).fillRegs ..).fillRegs ..)
  split
  · exact (((ht₁.setReg ..).setReg ..).setReg ..).setReg ..
  · exact ht₁

/-! ### Sys2Proof/Machine/BootRom.lean -/

theorem Kept.spoilCopy (h : Kept s₀ s) (c n) : Kept s₀ (s.spoilCopy c n) := h.same.drew ..

theorem Kept.wipeBonded (h : Kept s₀ s) : Kept s₀ s.wipeBonded := by
  unfold State.wipeBonded
  extract_lets t
  have ht : Kept s₀ t := h.clearMem ..
  exact ht.same

theorem nextKept_execInputDip (h : Kept s₀ s) : NextKept s₀ (execInputDip s) := .next h

theorem nextKept_execRomStart (h : Kept s₀ s) (strapLow) : NextKept s₀ (execRomStart strapLow s) := by
  unfold execRomStart
  extract_lets _ _ t
  have ht : Kept s₀ t := .ite h (h.modSluice ..)
  exact .onlyIf h ⟨ht.isl, h.powered, h.fuses⟩

theorem Kept.loadData (h : Kept s₀ s) (x bankB) : Kept s₀ (s.loadData x bankB) := Kept.foldl_fst (fun _ _ hy => hy.store ..) _ h

theorem Kept.loadDibbers (h : Kept s₀ s) (x bankB) : Kept s₀ (s.loadDibbers x bankB) := foldl_keeps (fun t x₁ ht => by
    extract_lets
    exact ht.same) _ h

theorem Kept.loadDies (h : Kept s₀ s) (x) : Kept s₀ (s.loadDies x) :=
  foldl_keeps (fun _ _ ht => ht.loadCores ..) _ ((h.loadHdBank ..).loadHdBank ..)

theorem Kept.stageDies (h : Kept s₀ s) (x) : Kept s₀ (s.stageDies x) := foldl_keeps (fun _ _ ht => ht.loadCores ..) _ (h.loadHdBank ..)

theorem Kept.useImage (h : Kept s₀ s) (x) : Kept s₀ (s.useImage x) := h.same

theorem Kept.romResult (h : Kept s₀ s) (code) : Kept s₀ (s.romResult code) := h.same

theorem nextKept_execRomBoot (h : Kept s₀ s) (m) : NextKept s₀ (execRomBoot m s) := by
  unfold execRomBoot
  extract_lets _ _ t
  have ht : Kept s₀ t := .ite (h.romResult ..) h.same
  exact .onlyIf h ht

theorem Kept.startImage (h : Kept s₀ s) (x) : Kept s₀ (s.startImage x) := by
  unfold State.startImage
  extract_lets t
  have ht : Kept s₀ t := ((((h.loadData ..).loadDibbers ..).loadDies ..).useImage ..).applyItems
  exact ht.same

theorem nextKept_execRomBootDone (h : Kept s₀ s) (info) : NextKept s₀ (execRomBootDone info s) := by
  unfold execRomBootDone
  extract_lets _ _ _ t
  have ht : Kept s₀ t := h.same
  exact .onlyIf h (.ite (ht.startImage ..) ht)

theorem nextKept_execRomRecord (h : Kept s₀ s) (m) : NextKept s₀ (execRomRecord m s) := by
  unfold execRomRecord
  extract_lets _ t
  have ht : Kept s₀ t := .ite h.same (h.romResult ..)
  exact .onlyIf h ht

theorem nextKept_execRomRecordDone (h : Kept s₀ s) (flashOk) : NextKept s₀ (execRomRecordDone flashOk s) := by
  unfold execRomRecordDone
  extract_lets _ t r _ u
  have ht : Kept s₀ t := h.same
  have hr : Kept s₀ r := ht.romResult ..
  have hu : Kept s₀ u := by
    unfold u
    split
    · exact ht.romResult ..
    · exact .ite hr.same ((ht.spoilCopy ..).romResult ..)
  exact .onlyIf h hu

theorem nextKept_execSalvageReqWrite (h : Kept s₀ s) (m) : NextKept s₀ (execSalvageReqWrite m s) := .agentIf h h.same

/-! ### Sys2Proof/Machine/Determinism.lean -/

theorem nextKept_execHmDetWrite (h : Kept s₀ s) (m mode) : NextKept s₀ (execHmDetWrite m mode s) := .agentIf h h.same

theorem nextKept_execDetPropagated (h : Kept s₀ s) : NextKept s₀ (execDetPropagated s) := .onlyIf h h.same

theorem nextKept_execHmProvCfgWrite (h : Kept s₀ s) (m f v) : NextKept s₀ (execHmProvCfgWrite m f v s) := by
  unfold execHmProvCfgWrite
  extract_lets _ _ _ _ _ t
  have ht : Kept s₀ t := h.setReg ..
  exact .agentIf h (.ite (ht.setReg ..) ht)

/-! ### Sys2Proof/Machine/Update.lean -/

theorem Kept.setUpd (h : Kept s₀ s) (f) : Kept s₀ (s.setUpd f) := h.same

theorem nextKept_execUpdStage (h : Kept s₀ s) (m) : NextKept s₀ (execUpdStage m s) := .onlyIf h (.ite (h.setUpd ..) (h.setUpd ..))

theorem nextKept_execUpdStageDone (h : Kept s₀ s) (info) : NextKept s₀ (execUpdStageDone info s) := by
  unfold execUpdStageDone
  extract_lets _ _ _ t
  have ht : Kept s₀ t := ((h.loadData ..).loadDibbers ..).stageDies ..
  clear_value t
  exact .onlyIf h (.ite ht.same (h.setUpd ..))

theorem nextKept_execUpdDiscard (h : Kept s₀ s) (m) : NextKept s₀ (execUpdDiscard m s) := .onlyIf h h.same

theorem Kept.updAim (h : Kept s₀ s) : Kept s₀ s.updAim := by
  unfold State.updAim
  exact h.setUpd _

theorem nextKept_execUpdArm (h : Kept s₀ s) (m) : NextKept s₀ (execUpdArm m s) := .onlyIf h ((h.setUpd ..).updAim)

theorem nextKept_execUpdDisarm (h : Kept s₀ s) (m) : NextKept s₀ (execUpdDisarm m s) := .onlyIf h (h.setUpd ..)

theorem nextKept_execUpdSwitch (h : Kept s₀ s) : NextKept s₀ (execUpdSwitch s) := by
  unfold execUpdSwitch
  extract_lets t
  have ht : Kept s₀ t := h.reachNs ..
  exact .onlyIf h ht.same

theorem Kept.updDone (h : Kept s₀ s) : Kept s₀ s.updDone := by
  unfold State.updDone
  split
  · exact h
  · extract_lets t
    have ht : Kept s₀ t := h.useImage ..
    exact ht.same.mgmtEvent

theorem nextKept_execUpdAbandon (h : Kept s₀ s) : NextKept s₀ (execUpdAbandon s) := by
  unfold execUpdAbandon
  extract_lets _ t
  have ht : Kept s₀ t := h.reachNs ..
  exact .onlyIf h ht.same

theorem nextKept_execHelmGive (h : Kept s₀ s) (m epoch) : NextKept s₀ (execHelmGive m epoch s) := by
  unfold execHelmGive
  extract_lets _ t
  have ht : Kept s₀ t := h.same
  exact .agentIf h (.ite ht.updDone ht)

theorem nextKept_execHelmBeat (h : Kept s₀ s) (m epoch) : NextKept s₀ (execHelmBeat m epoch s) := .agentIf h h.same

theorem nextKept_execHelmBeatTimeout (h : Kept s₀ s) : NextKept s₀ (execHelmBeatTimeout s) := by
  unfold execHelmBeatTimeout
  extract_lets _ t
  have ht : Kept s₀ t := h.reachRaw ..
  exact .onlyIf h (ht.raiseFatal ..)

/-- DEBUG changes, and the fused base stays (R416). -/
theorem Kept.lcChange (h : Kept s₀ s) (debug) : Kept s₀ (s.lcChange s.boot.fuses.lc debug) := h.wipeBonded.same

theorem nextKept_execLcExitDebug (h : Kept s₀ s) (m) : NextKept s₀ (execLcExitDebug m s) := .agentIf h (h.lcChange ..)

theorem nextKept_execTamperEvent (h : Kept s₀ s) (src) : NextKept s₀ (execTamperEvent src s) := by
  unfold execTamperEvent
  extract_lets t _ t₁
  have ht : Kept s₀ t := (h.setReg ..).wipeBonded
  have ht₁ : Kept s₀ t₁ := ht.same
  exact .onlyIf h (.ite ht₁ (ht₁.raiseFatal ..))

theorem nextKept_execLidClose (h : Kept s₀ s) : NextKept s₀ (execLidClose s) := .onlyIf h h.same

/-! ### Sys2Proof/Machine/Service.lean -/

theorem Kept.sampled (h : Kept s₀ s) (m now least) : Kept s₀ (s.sampled m now least) := h.setReg ..

theorem Kept.sample (h : Kept s₀ s) (x) : Kept s₀ (s.sample x) := by
  unfold State.sample
  split
  · exact .ite (h.sampled ..) (h.sampled ..)
  · exact h.sampled ..

theorem Kept.evaluated (h : Kept s₀ s) : Kept s₀ s.evaluated := by
  unfold State.evaluated
  extract_lets _ s₁
  have hs₁ : Kept s₀ s₁ := h.same
  exact .ite hs₁ ((hs₁.setReg ..).hiErr ..)

theorem Kept.hbmErrors (h : Kept s₀ s) (h') : Kept s₀ (s.hbmErrors h') := (h.count ..).count ..

theorem nextKept_execMarginEval (h : Kept s₀ s) (mons hbm) : NextKept s₀ (execMarginEval mons hbm s) := by
  unfold execMarginEval
  extract_lets _ t
  have ht : Kept s₀ t := h.reachRaw ..
  exact .onlyIf h ((foldl_keeps (fun _ _ ht₂ => ht₂.hbmErrors ..) _ (foldl_keeps (fun _ _ ht₁ => ht₁.sample ..) _ ht)).evaluated)

theorem nextKept_execMarginMinReset (h : Kept s₀ s) (m r) : NextKept s₀ (execMarginMinReset m r s) := .agentIf h (h.setReg ..)

theorem nextKept_execHmAdopt (h : Kept s₀ s) (m v) : NextKept s₀ (execHmAdopt m v s) := .agentIf h h.same

theorem Kept.adoptEntry (h : Kept s₀ s) (old new status) : Kept s₀ (s.adoptEntry old new status) := by
  unfold State.adoptEntry
  extract_lets _ t
  have ht : Kept s₀ t := h.store ..
  exact ht.same

theorem Kept.adoptBerths (h : Kept s₀ s) (i fs) : SomeKept s₀ (s.adoptBerths i fs) := by
  induction fs generalizing s with
  | nil => exact .of_some h
  | cons p fs ih =>
    unfold State.adoptBerths
    extract_lets r t
    have ht : Kept s₀ t := h.copyBerth ..
    split
    next u e => exact ih ((ht.addBerth ..).of_fst e)
    next => exact .of_none

theorem Kept.adoptOne (h : Kept s₀ s) (k) : Kept s₀ (s.adoptOne k) := by
  unfold State.adoptOne
  extract_lets
  split
  · exact h
  · split
    · exact h.adoptEntry ..
    · exact h.adoptEntry ..
    · extract_lets
      split
      · exact h.adoptEntry ..
      · split
        · exact h.adoptEntry ..
        next t e =>
          have ht : Kept s₀ t := (((h.allocMan.drew ..).setMan ..).adoptBerths ..).kept e
          extract_lets t₁
          have ht₁ : Kept s₀ t₁ := (ht.setWritten ..).store ..
          exact ht₁.adoptEntry ..

theorem nextKept_execHmAdoptDone (h : Kept s₀ s) : NextKept s₀ (execHmAdoptDone s) := by
  unfold execHmAdoptDone
  extract_lets t
  have ht : Kept s₀ t := foldl_keeps (fun _ _ ht₁ => ht₁.adoptOne ..) _ h
  exact .unlessHalted h (.onlyIf h ht.same)

theorem Kept.setStby (h : Kept s₀ s) (w x) : Kept s₀ (s.setStby w x) := h.same

theorem nextKept_execStbyArm (h : Kept s₀ s) (m v) : NextKept s₀ (execStbyArm m v s) := by
  unfold execStbyArm
  refine .agentIf h ?_
  split
  · exact h.setStby ..
  · exact .ite ((h.abortRd.usePlan ..).setStby ..) (h.setStby ..)

theorem nextKept_execStbyDisarm (h : Kept s₀ s) (m v) : NextKept s₀ (execStbyDisarm m v s) := by
  unfold execStbyDisarm
  extract_lets _ _ _ t
  have ht : Kept s₀ t := (h.usePlan ..).setStby ..
  exact .agentIf h ht

theorem nextKept_execHeartbeatSend (h : Kept s₀ s) (t) : NextKept s₀ (execHeartbeatSend t s) := by
  unfold execHeartbeatSend
  extract_lets u _ _ v
  have hu : Kept s₀ u := h.reachNs ..
  have hv : Kept s₀ v := hu.same
  exact .unlessHalted h (.onlyIf h (hv.zlHold ..))

theorem nextKept_execStandbyCheck (h : Kept s₀ s) (w t) : NextKept s₀ (execStandbyCheck w t s) := by
  unfold execStandbyCheck
  extract_lets _ _ u _ v _ v₁
  have hu : Kept s₀ u := h.reachNs ..
  have hv : Kept s₀ v := hu.setStby ..
  have hv₁ : Kept s₀ v₁ := hv.same
  exact .unlessHalted h (.onlyIf h (.ite hv₁.mgmtEvent hv₁))

/-! ### Sys2Proof/Machine/Observe.lean -/

theorem nextKept_execHmTrcRdWrite (h : Kept s₀ s) (m v) : NextKept s₀ (execHmTrcRdWrite m v s) := .agentIf h (h.setReg ..)

theorem nextKept_execHmTrcCfgWrite (h : Kept s₀ s) (m v) : NextKept s₀ (execHmTrcCfgWrite m v s) := by
  unfold execHmTrcCfgWrite
  extract_lets _ t u
  have ht : Kept s₀ t := h.setReg ..
  have hu : Kept s₀ u := ht.setReg ..
  exact .agentIf h (.ite hu.same ht)

theorem nextKept_execObsSample (h : Kept s₀ s) (u pc stall layer op fn) : NextKept s₀ (execObsSample u pc stall layer op fn s) := by
  unfold execObsSample
  extract_lets _ _ t _ v r
  have ht : Kept s₀ t := h.reachRaw ..
  have hv : Kept s₀ v := ht.traceWrite ..
  have hr : Kept s₀ r := .ite ht hv
  exact .onlyIf h hr.same

theorem Kept.lateBookings (h : Kept s₀ s) : Kept s₀ s.lateBookings := foldl_keeps (fun t x ht => by
    extract_lets
    exact ((ht.setTt ..).count ..).ttIrq ..) _ h

theorem Kept.traceStop (h : Kept s₀ s) (release inf) : Kept s₀ (s.traceStop release inf) := h.trace ..

theorem Kept.gsFire (h : Kept s₀ s) (late) : Kept s₀ (s.gsFire late) := by
  unfold State.gsFire
  extract_lets _ t t₁
  have ht : Kept s₀ t := h.setReg ..
  have ht₁ : Kept s₀ t₁ := .ite ht.lateBookings ht
  exact ht₁.same.traceStop ..

theorem nextKept_execGsArm (h : Kept s₀ s) (m v) : NextKept s₀ (execGsArm m v s) := by
  unfold execGsArm
  extract_lets _ t
  have ht : Kept s₀ t := h.setReg ..
  exact .agentIf h (.ite (ht.gsFire ..) ht)

theorem nextKept_execGsFire (h : Kept s₀ s) : NextKept s₀ (execGsFire s) := by
  unfold execGsFire
  extract_lets t
  have ht : Kept s₀ t := h.reachNs ..
  exact .onlyIf h (ht.gsFire ..)

theorem nextKept_execGsCaptureClose (h : Kept s₀ s) : NextKept s₀ (execGsCaptureClose s) := by
  unfold execGsCaptureClose
  extract_lets _ t
  have ht : Kept s₀ t := h.reachRaw ..
  exact .onlyIf h ht.same

theorem Kept.deliverCapture (h : Kept s₀ s) (c) : Kept s₀ (s.deliverCapture c) := by
  unfold State.deliverCapture
  split
  · exact h.ringArrive ..
  · exact h.zlDeliver ..

theorem Kept.gsRelease (h : Kept s₀ s) : Kept s₀ s.gsRelease := by
  unfold State.gsRelease
  extract_lets _ _ _ _ t
  have ht : Kept s₀ t := h.same
  exact (foldl_keeps (fun _ _ ht₁ => ht₁.deliverCapture ..) _ ht).traceStop ..

theorem nextKept_execGsRelease (h : Kept s₀ s) (m) : NextKept s₀ (execGsRelease m s) := .agentIf h h.gsRelease

/-! ### Sys2Proof/Machine/TideStep.lean -/

theorem Kept.applyAdj (h : Kept s₀ s) (a) : Kept s₀ (s.applyAdj a) := h.same

theorem Kept.countBack (h : Kept s₀ s) : Kept s₀ s.countBack := (h.count ..).setReg ..

theorem Kept.stbStep (h : Kept s₀ s) (i) : Kept s₀ (s.stbStep i) := .ite (((h.setStb ..).strobe ..).count ..) h

theorem Kept.ppsStep (h : Kept s₀ s) (j) : Kept s₀ (s.ppsStep j) := .ite ((h.setPps ..).pulse ..) h

theorem Kept.barStep (h : Kept s₀ s) (old) : Kept s₀ (s.barStep old) := .ite (h.barFire ..) h

theorem Kept.overdueStops (h : Kept s₀ s) (n) : Kept s₀ (s.overdueStops n) := foldl_keeps (fun _ _ ht => ht.ttStop ..) _ h

theorem Kept.gsStep (h : Kept s₀ s) (old) : Kept s₀ (s.gsStep old) := .ite (h.gsFire ..) h

theorem Kept.updStep (h : Kept s₀ s) (old back) : Kept s₀ (s.updStep old back) := .ite h.updAim h

theorem Kept.stepForward (h : Kept s₀ s) (old) : Kept s₀ (s.stepForward old) := by
  unfold State.stepForward
  extract_lets t t₁ t₂ t₃ t₄
  have ht : Kept s₀ t := foldl_keeps (fun _ _ ht₁ => ht₁.stbStep ..) _ h
  have ht₁₁ : Kept s₀ t₁ := foldl_keeps (fun _ _ ht₂ => ht₂.ppsStep ..) _ ht
  have ht₂₁ : Kept s₀ t₂ := ht₁₁.barStep ..
  have ht₃ : Kept s₀ t₃ := .ite ht₂₁ (foldl_keeps (fun _ _ ht₄ => ht₄.overdueStops ..) _ ht₂₁)
  have ht₄₁ : Kept s₀ t₄ := .ite ht₃ ht₃.dropAllLate
  exact (ht₄₁.updStep ..).gsStep ..

theorem Kept.adjNow (h : Kept s₀ s) (a) : Kept s₀ (s.adjNow a) := by
  unfold State.adjNow
  extract_lets u _ _ t _ t₁
  have hu : Kept s₀ u := h.settle
  have ht : Kept s₀ t := hu.applyAdj ..
  have ht₁ : Kept s₀ t₁ := ht.same
  exact .ite (ht₁.countBack.updStep ..) (.ite (ht₁.stepForward ..) ht₁)

theorem nextKept_execTdAdjApply (h : Kept s₀ s) : NextKept s₀ (execTdAdjApply s) := by
  unfold execTdAdjApply
  extract_lets
  split
  · exact .next h
  · extract_lets t
    have ht : Kept s₀ t := .ite h.same h
    exact .onlyIf h (ht.adjNow ..)

theorem Kept.idle (h : Kept s₀ s) : Kept s₀ s.idle := by
  unfold State.idle
  extract_lets t
  have ht : Kept s₀ t := h.tick
  split
  · exact .ite (ht.adjNow ..) ht
  · exact ht

/-! ### Sys2Proof/Machine/Smb.lean -/

theorem Kept.smbAnswer (h : Kept s₀ s) (r) : Kept s₀ (s.smbAnswer r) := h.same

theorem nextKept_execSmbStatus (h : Kept s₀ s) (inlet outlet) : NextKept s₀ (execSmbStatus inlet outlet s) := .next (h.smbAnswer ..)

theorem nextKept_execSmbModule (h : Kept s₀ s) : NextKept s₀ (execSmbModule s) := .next (h.smbAnswer ..)

theorem nextKept_execSmbDieSel (h : Kept s₀ s) (d) : NextKept s₀ (execSmbDieSel d s) := .next (.ite h.same (h.smbAnswer ..))

theorem nextKept_execSmbDieId (h : Kept s₀ s) : NextKept s₀ (execSmbDieId s) := .next (h.smbAnswer ..)

theorem nextKept_execSmbFwDigest (h : Kept s₀ s) : NextKept s₀ (execSmbFwDigest s) := .next (h.smbAnswer ..)

theorem nextKept_execSmbStbyDigest (h : Kept s₀ s) : NextKept s₀ (execSmbStbyDigest s) := .next (h.smbAnswer ..)

theorem nextKept_execSmbMargin (h : Kept s₀ s) : NextKept s₀ (execSmbMargin s) := .next (h.smbAnswer ..)

theorem nextKept_execSmbInvalidCommand (h : Kept s₀ s) (code data) : NextKept s₀ (execSmbInvalidCommand code data s) :=
  .onlyIf h (h.smbAnswer ..)

/-! ### Sys2Proof/Machine/Misc.lean -/

theorem nextKept_execTidePllLock (h : Kept s₀ s) : NextKept s₀ (execTidePllLock s) := .onlyIf h h.same

theorem nextKept_execUartRx (h : Kept s₀ s) (c) : NextKept s₀ (execUartRx c s) := .onlyIf h h.same

theorem Kept.plainWrite (h : Kept s₀ s) (m b o v) : Kept s₀ (s.plainWrite m b o v) := by
  unfold State.plainWrite
  extract_lets
  split
  · exact h
  · extract_lets t
    have ht : Kept s₀ t := h.setReg ..
    split
    · exact h
    · split
      · exact ht.setReg ..
      · exact ht

theorem Kept.ttWrite (h : Kept s₀ s) (o v) : Kept s₀ (s.ttWrite o v) := by
  unfold State.ttWrite
  extract_lets
  split
  · exact h
  · split
    · exact h.setTt ..
    · exact h.setTt ..
    · exact h.setTt ..
    · exact .ite h (h.setTt ..)
    · exact h

theorem Kept.gsPlain (h : Kept s₀ s) (v) : Kept s₀ (s.gsPlain v) := .ite h (h.setReg ..)

theorem Kept.errMaskWrite (h : Kept s₀ s) (m v) : Kept s₀ (s.errMaskWrite m v) := by
  unfold State.errMaskWrite
  extract_lets t
  have ht : Kept s₀ t := h.plainWrite ..
  exact .ite (ht.sendVec ..) ht

/-! ### Every command but those that move islands, the power or fuses -/

/-- The commands that may change a request or the state of an island, the power or a fuse: requests and moves of islands, passes
that wake an array's, trips, resets, the power itself, and what blows fuses.  A register write is among them for REFUSED. -/
def Instr.altersKept : Instr → Bool
  | .esPPush _ _ | .ttRingDoorbell _ _ _ | .islandPfReq _ _ _ | .islandFwReq _ _ _ | .islandEntryBegin _
  | .islandEntryDone _ | .islandExitBegin _ | .islandExitDone _ | .islandRelease _ _ | .islandShort _ | .thermalTrip _
  | .configRecordDone | .btResetWarm _ | .btResetCold _ | .powerOn | .inputInvalid | .inputOvervoltage | .romExit _
  | .bootOkWrite _ | .bootWatchdog | .lcRequest _ _ | .smbWarmReset | .smbColdReset | .registerWrite _ _ _ => true
  | _ => false

/-- Every other command answers a next state, and one with the islands, the power and the fuses of the state before. -/
theorem nextKept_exec (h : Kept s₀ s) (c : Instr) (hc : c.altersKept = false) : NextKept s₀ (exec c s) := by
  cases c with
  | ringTransferInject => exact nextKept_execRingTransferInject h ..
  | ringTransferDeliver => exact nextKept_execRingTransferDeliver h ..
  | bridgeDown => exact nextKept_execBridgeDown h ..
  | clockDomainStop => exact nextKept_execClockDomainStop h ..
  | ocxoStable => exact nextKept_execOcxoStable h
  | esCtrlEnable => exact nextKept_execEsCtrlEnable h ..
  | esCtrlStop => exact nextKept_execEsCtrlStop h ..
  | esCtrlUnstop => exact nextKept_execEsCtrlUnstop h ..
  | esCtrlAbort => exact nextKept_execEsCtrlAbort h ..
  | esAbortSettle => exact nextKept_execEsAbortSettle h ..
  | esCtrlResume => exact nextKept_execEsCtrlResume h ..
  | esCtrlClrCnt => exact nextKept_execEsCtrlClrCnt h ..
  | esSPush => exact nextKept_execEsSPush h ..
  | esPPush => contradiction
  | esStageFetch => exact nextKept_execEsStageFetch h ..
  | esStageDataArrive => exact nextKept_execEsStageDataArrive h ..
  | esShadowValid => exact nextKept_execEsShadowValid h ..
  | esSwapBegin => exact nextKept_execEsSwapBegin h ..
  | esPassStart => exact nextKept_execEsPassStart h ..
  | esOperandArrive => exact nextKept_execEsOperandArrive h ..
  | esRowWrite => exact nextKept_execEsRowWrite h ..
  | esPassDone => exact nextKept_execEsPassDone h ..
  | esPassError => exact nextKept_execEsPassError h ..
  | esCntLoRead => exact nextKept_execEsCntLoRead h ..
  | dlCtrlEnable => exact nextKept_execDlCtrlEnable h ..
  | dlCtrlStop => exact nextKept_execDlCtrlStop h ..
  | dlCtrlUnstop => exact nextKept_execDlCtrlUnstop h ..
  | dlCtrlAbort => exact nextKept_execDlCtrlAbort h ..
  | dlCtrlResume => exact nextKept_execDlCtrlResume h ..
  | dlCtrlClrCnt => exact nextKept_execDlCtrlClrCnt h ..
  | dlJPush => exact nextKept_execDlJPush h ..
  | dlActLoad => exact nextKept_execDlActLoad h ..
  | dlJobStart => exact nextKept_execDlJobStart h ..
  | dlJobDone => exact nextKept_execDlJobDone h ..
  | dlJobError => exact nextKept_execDlJobError h ..
  | dlCntLoRead => exact nextKept_execDlCntLoRead h ..
  | bankAccess => exact nextKept_execBankAccess h ..
  | eccWriteback => exact nextKept_execEccWriteback h ..
  | bankAtomic => exact nextKept_execBankAtomic h ..
  | hbmAtomic => exact nextKept_execHbmAtomic h ..
  | bkCtrlClrEcc => exact nextKept_execBkCtrlClrEcc h ..
  | bkCtrlClrConf => exact nextKept_execBkCtrlClrConf h ..
  | bkRuleWrite => exact nextKept_execBkRuleWrite h ..
  | bkDrEnableWrite => exact nextKept_execBkDrEnableWrite h ..
  | dredgeRegionStart => exact nextKept_execDredgeRegionStart h ..
  | dredgeCopyDone => exact nextKept_execDredgeCopyDone h ..
  | dredgeMarchDone => exact nextKept_execDredgeMarchDone h ..
  | dredgeRegionDone => exact nextKept_execDredgeRegionDone h ..
  | descGemm => exact nextKept_execDescGemm h ..
  | descGemmBatched => exact nextKept_execDescGemmBatched h ..
  | descConv1d => exact nextKept_execDescConv1d h ..
  | descConvert => exact nextKept_execDescConvert h ..
  | descGatherGemm => exact nextKept_execDescGatherGemm h ..
  | descRoutine => exact nextKept_execDescRoutine h ..
  | descBadOpcode => exact nextKept_execDescBadOpcode h ..
  | spanScan => exact nextKept_execSpanScan h ..
  | tileClaim => exact nextKept_execTileClaim h ..
  | operandStageCopy => exact nextKept_execOperandStageCopy h ..
  | tileDone => exact nextKept_execTileDone h ..
  | tileHandback => exact nextKept_execTileHandback h ..
  | handbackTake => exact nextKept_execHandbackTake h ..
  | descriptorAbort => exact nextKept_execDescriptorAbort h ..
  | submit => exact nextKept_execSubmit h ..
  | pause => exact nextKept_execPause h ..
  | resume => exact nextKept_execResume h ..
  | cancel => exact nextKept_execCancel h ..
  | touch => exact nextKept_execTouch h ..
  | sqBadOpcode => exact nextKept_execSqBadOpcode h ..
  | promptReadDone => exact nextKept_execPromptReadDone h ..
  | prefillPlace => exact nextKept_execPrefillPlace h ..
  | prefillDone => exact nextKept_execPrefillDone h ..
  | decodeStepBoundary => exact nextKept_execDecodeStepBoundary h ..
  | decodeStepStart => exact nextKept_execDecodeStepStart h
  | berthSliceArrive => exact nextKept_execBerthSliceArrive h ..
  | pullSourceError => exact nextKept_execPullSourceError h ..
  | mirrorCopyDone => exact nextKept_execMirrorCopyDone h ..
  | checkpointCommit => exact nextKept_execCheckpointCommit h ..
  | checkpointFail => exact nextKept_execCheckpointFail h ..
  | pauseComplete => exact nextKept_execPauseComplete h ..
  | expirySweep => exact nextKept_execExpirySweep h
  | manifestQuietEnd => exact nextKept_execManifestQuietEnd h ..
  | btRebuildStart => exact nextKept_execBtRebuildStart h
  | hmBtStart => exact nextKept_execHmBtStart h ..
  | btRebuildPassEnd => exact nextKept_execBtRebuildPassEnd h
  | btFlip => exact nextKept_execBtFlip h
  | btRebuildRestart => exact nextKept_execBtRebuildRestart h
  | hmSlotLoad => exact nextKept_execHmSlotLoad h ..
  | slotLoadDone => exact nextKept_execSlotLoadDone h ..
  | hmSlotUnload => exact nextKept_execHmSlotUnload h ..
  | hmSlotUnloadForce => exact nextKept_execHmSlotUnloadForce h ..
  | slotDrainDone => exact nextKept_execSlotDrainDone h ..
  | hmCkptWrite => exact nextKept_execHmCkptWrite h ..
  | hmQuietWrite => exact nextKept_execHmQuietWrite h ..
  | rakeSelect => exact nextKept_execRakeSelect h ..
  | sieveSelect => exact nextKept_execSieveSelect h ..
  | specDraft => exact nextKept_execSpecDraft h ..
  | specVerify => exact nextKept_execSpecVerify h ..
  | sieveImageLoad => exact nextKept_execSieveImageLoad h ..
  | svStoreStart => exact nextKept_execSvStoreStart h ..
  | svRebuildStart => exact nextKept_execSvRebuildStart h
  | svRebuildPassEnd => exact nextKept_execSvRebuildPassEnd h
  | svStoreFlip => exact nextKept_execSvStoreFlip h
  | svRebuildRestart => exact nextKept_execSvRebuildRestart h
  | quantumBoundary => exact nextKept_execQuantumBoundary h
  | contextStop => exact nextKept_execContextStop h ..
  | contextStopDone => exact nextKept_execContextStopDone h ..
  | contextSaveBegin => exact nextKept_execContextSaveBegin h ..
  | contextSaveEnd => exact nextKept_execContextSaveEnd h ..
  | contextRestoreBegin => exact nextKept_execContextRestoreBegin h ..
  | contextRestoreEnd => exact nextKept_execContextRestoreEnd h ..
  | cxQuantumWrite => exact nextKept_execCxQuantumWrite h ..
  | cxMarginWrite => exact nextKept_execCxMarginWrite h ..
  | cxVfWrite => exact nextKept_execCxVfWrite h ..
  | ttEntrySubmit => exact nextKept_execTtEntrySubmit h ..
  | ttEntryCancel => exact nextKept_execTtEntryCancel h ..
  | ttStopDue => exact nextKept_execTtStopDue h ..
  | ttReleaseDue => exact nextKept_execTtReleaseDue h ..
  | ttReady => exact nextKept_execTtReady h ..
  | ttStart => exact nextKept_execTtStart h ..
  | ttLateArrayFree => exact nextKept_execTtLateArrayFree h ..
  | ttEnd => exact nextKept_execTtEnd h ..
  | ttRingDoorbell => contradiction
  | fhCplaneRx => exact nextKept_execFhCplaneRx h ..
  | fhUplaneRx => exact nextKept_execFhUplaneRx h ..
  | agcSymbolUpdate => exact nextKept_execAgcSymbolUpdate h ..
  | agcFreezeEnd => exact nextKept_execAgcFreezeEnd h ..
  | fhAgcRel => exact nextKept_execFhAgcRel h ..
  | fhAgcCfgWrite => exact nextKept_execFhAgcCfgWrite h ..
  | fhPortCfgWrite => exact nextKept_execFhPortCfgWrite h ..
  | prachOccasion => exact nextKept_execPrachOccasion h ..
  | fftJobQueue => exact nextKept_execFftJobQueue h ..
  | fftJobDone => exact nextKept_execFftJobDone h ..
  | dibberSymIrq => exact nextKept_execDibberSymIrq h ..
  | dibberSlotIrq => exact nextKept_execDibberSlotIrq h ..
  | dibberReti => exact nextKept_execDibberReti h ..
  | dibberCmac => exact nextKept_execDibberCmac h ..
  | dibberStore => exact nextKept_execDibberStore h ..
  | dibberLaneOp => exact nextKept_execDibberLaneOp h ..
  | dbCtrlReset => exact nextKept_execDbCtrlReset h ..
  | dbCtrlRun => exact nextKept_execDbCtrlRun h ..
  | slotConfigRx => exact nextKept_execSlotConfigRx h ..
  | ulConfigLate => exact nextKept_execUlConfigLate h ..
  | dlConfigLate => exact nextKept_execDlConfigLate h ..
  | nrxCompletionWord => exact nextKept_execNrxCompletionWord h ..
  | fhPlanLoad => exact nextKept_execFhPlanLoad h ..
  | fhPlanUnload => exact nextKept_execFhPlanUnload h ..
  | fhPlanCancel => exact nextKept_execFhPlanCancel h ..
  | fhPlanActivate => exact nextKept_execFhPlanActivate h
  | cellShed => exact nextKept_execCellShed h
  | dsSqDoorbell => exact nextKept_execDsSqDoorbell h ..
  | dsCqHeadWrite => exact nextKept_execDsCqHeadWrite h ..
  | dsJobCopy => exact nextKept_execDsJobCopy h ..
  | dsLdpcDec => exact nextKept_execDsLdpcDec h ..
  | dsLdpcEnc => exact nextKept_execDsLdpcEnc h ..
  | dsPolarDec => exact nextKept_execDsPolarDec h ..
  | dsPolarEnc => exact nextKept_execDsPolarEnc h ..
  | dsTbEnc => exact nextKept_execDsTbEnc h ..
  | dsTbDec => exact nextKept_execDsTbDec h ..
  | dsNselRead => exact nextKept_execDsNselRead h ..
  | dsJobLate => exact nextKept_execDsJobLate h ..
  | dsCtrlAbort => exact nextKept_execDsCtrlAbort h ..
  | dsCtrlEnable => exact nextKept_execDsCtrlEnable h ..
  | dsHarqFree => exact nextKept_execDsHarqFree h ..
  | dsHarqPrefetch => exact nextKept_execDsHarqPrefetch h ..
  | harqSpill => exact nextKept_execHarqSpill h
  | harqSpillDone => exact nextKept_execHarqSpillDone h ..
  | tdRawLoRead => exact nextKept_execTdRawLoRead h ..
  | tdAdjRate => exact nextKept_execTdAdjRate h ..
  | tdAdjStep => exact nextKept_execTdAdjStep h ..
  | tdAdjSet => exact nextKept_execTdAdjSet h ..
  | tdAdjApply => exact nextKept_execTdAdjApply h
  | tdSrcWrite => exact nextKept_execTdSrcWrite h ..
  | tdFrameOfsWrite => exact nextKept_execTdFrameOfsWrite h ..
  | ptpRx => exact nextKept_execPtpRx h ..
  | ptpSyncTx => exact nextKept_execPtpSyncTx h ..
  | ptpTcForward => exact nextKept_execPtpTcForward h ..
  | tcEntryExpire => exact nextKept_execTcEntryExpire h ..
  | zlTimeFlit => exact nextKept_execZlTimeFlit h ..
  | servoSourceLost => exact nextKept_execServoSourceLost h ..
  | servoSourceReturn => exact nextKept_execServoSourceReturn h ..
  | strobeFire => exact nextKept_execStrobeFire h ..
  | tdStbCfgWrite => exact nextKept_execTdStbCfgWrite h ..
  | ppsOutPulse => exact nextKept_execPpsOutPulse h ..
  | tdPpsCfgWrite => exact nextKept_execTdPpsCfgWrite h ..
  | captureEdge => exact nextKept_execCaptureEdge h ..
  | barrierArm => exact nextKept_execBarrierArm h ..
  | barrierFire => exact nextKept_execBarrierFire h
  | zlLinkCtrlWrite => exact nextKept_execZlLinkCtrlWrite h ..
  | linkTrained => exact nextKept_execLinkTrained h ..
  | linkLoss => exact nextKept_execLinkLoss h ..
  | linkFlitReplay => exact nextKept_execLinkFlitReplay h ..
  | linkReplayLimit => exact nextKept_execLinkReplayLimit h ..
  | zlRequestIssue => exact nextKept_execZlRequestIssue h ..
  | zlForward => exact nextKept_execZlForward h ..
  | zlLoadReq => exact nextKept_execZlLoadReq h ..
  | zlLoadRsp => exact nextKept_execZlLoadRsp h ..
  | zlStore => exact nextKept_execZlStore h ..
  | zlStoreAck => exact nextKept_execZlStoreAck h ..
  | zlAtomicReq => exact nextKept_execZlAtomicReq h ..
  | zlAtomicRsp => exact nextKept_execZlAtomicRsp h ..
  | zlPutData => exact nextKept_execZlPutData h ..
  | zlPutAck => exact nextKept_execZlPutAck h ..
  | zlGetReq => exact nextKept_execZlGetReq h ..
  | zlGetData => exact nextKept_execZlGetData h ..
  | zlTrigger => exact nextKept_execZlTrigger h ..
  | zlTrigAck => exact nextKept_execZlTrigAck h ..
  | zlBadType => exact nextKept_execZlBadType h ..
  | zlCopyPut => exact nextKept_execZlCopyPut h ..
  | zlCopyGet => exact nextKept_execZlCopyGet h ..
  | zlFence => exact nextKept_execZlFence h ..
  | zlRequestTimeout => exact nextKept_execZlRequestTimeout h ..
  | zlAtomicRetry => exact nextKept_execZlAtomicRetry h ..
  | zlAtomicFinal => exact nextKept_execZlAtomicFinal h ..
  | zlRcExpire => exact nextKept_execZlRcExpire h ..
  | zlTagRelease => exact nextKept_execZlTagRelease h ..
  | lockFlush => exact nextKept_execLockFlush h ..
  | zlQtInv => exact nextKept_execZlQtInv h ..
  | zlQtInvDone => exact nextKept_execZlQtInvDone h
  | zlQtSweep => exact nextKept_execZlQtSweep h
  | zlEnable => exact nextKept_execZlEnable h ..
  | zlBusyWindowEnd => exact nextKept_execZlBusyWindowEnd h
  | zlTimeoutWrite => exact nextKept_execZlTimeoutWrite h ..
  | fhTxEnqueue => exact nextKept_execFhTxEnqueue h ..
  | zlTxEnqueue => exact nextKept_execZlTxEnqueue h ..
  | fhTxRelease => exact nextKept_execFhTxRelease h ..
  | fhTxDeadline => exact nextKept_execFhTxDeadline h ..
  | egressSelect => exact nextKept_execEgressSelect h ..
  | egressTxEnd => exact nextKept_execEgressTxEnd h ..
  | egressSample => exact nextKept_execEgressSample h ..
  | eqCfgWrite => exact nextKept_execEqCfgWrite h ..
  | eqRateWrite => exact nextKept_execEqRateWrite h ..
  | eqHicredWrite => exact nextKept_execEqHicredWrite h ..
  | pcieLinkTrained => exact nextKept_execPcieLinkTrained h ..
  | pcieLinkDown => exact nextKept_execPcieLinkDown h
  | perstAssert => exact nextKept_execPerstAssert h
  | pfFlr => exact nextKept_execPfFlr h
  | vfFlr => exact nextKept_execVfFlr h ..
  | vfEnableClear => exact nextKept_execVfEnableClear h
  | vfFlrComplete => exact nextKept_execVfFlrComplete h ..
  | bar0BadAccess => exact nextKept_execBar0BadAccess h ..
  | bar2Read => exact nextKept_execBar2Read h ..
  | bar2Write => exact nextKept_execBar2Write h ..
  | sqTailDoorbell => exact nextKept_execSqTailDoorbell h ..
  | sqEntryFetch => exact nextKept_execSqEntryFetch h ..
  | cqHeadWrite => exact nextKept_execCqHeadWrite h ..
  | cqModTimer => exact nextKept_execCqModTimer h ..
  | queueEnable => exact nextKept_execQueueEnable h ..
  | queueDisable => exact nextKept_execQueueDisable h ..
  | customsTranslate => exact nextKept_execCustomsTranslate h ..
  | customsWalkReadDone => exact nextKept_execCustomsWalkReadDone h ..
  | cuInvRange => exact nextKept_execCuInvRange h ..
  | cuInvInstance => exact nextKept_execCuInvInstance h ..
  | cuInvFunction => exact nextKept_execCuInvFunction h ..
  | cuInvAll => exact nextKept_execCuInvAll h ..
  | cuInvDone => exact nextKept_execCuInvDone h
  | cuCacheSweep => exact nextKept_execCuCacheSweep h
  | cuCtrlWrite => exact nextKept_execCuCtrlWrite h ..
  | fatalError => exact nextKept_execFatalError h ..
  | hmDetWrite => exact nextKept_execHmDetWrite h ..
  | detPropagated => exact nextKept_execDetPropagated h
  | hmProvCfgWrite => exact nextKept_execHmProvCfgWrite h ..
  | islandPfReq => contradiction
  | islandFwReq => contradiction
  | islandEntryBegin => contradiction
  | islandEntryDone => contradiction
  | islandExitBegin => contradiction
  | islandExitDone => contradiction
  | islandRelease => contradiction
  | islandShort => contradiction
  | sluiceTick => exact nextKept_execSluiceTick h ..
  | operatingPointChange => exact nextKept_execOperatingPointChange h ..
  | inputLimitEmergency => exact nextKept_execInputLimitEmergency h
  | emergencyClear => exact nextKept_execEmergencyClear h
  | thermalTick => exact nextKept_execThermalTick h ..
  | thermalTrip => contradiction
  | boostHour => exact nextKept_execBoostHour h
  | sitePwrChange => exact nextKept_execSitePwrChange h ..
  | throttleAssert => exact nextKept_execThrottleAssert h ..
  | throttleRelease => exact nextKept_execThrottleRelease h
  | powerOn => contradiction
  | btResetWarm => contradiction
  | btResetCold => contradiction
  | romStart => exact nextKept_execRomStart h ..
  | configRecordDone => contradiction
  | romBoot => exact nextKept_execRomBoot h ..
  | romBootDone => exact nextKept_execRomBootDone h ..
  | romRecord => exact nextKept_execRomRecord h ..
  | romRecordDone => exact nextKept_execRomRecordDone h ..
  | romExit => contradiction
  | bootOkWrite => contradiction
  | bootWatchdog => contradiction
  | salvageReqWrite => exact nextKept_execSalvageReqWrite h ..
  | updStage => exact nextKept_execUpdStage h ..
  | updStageDone => exact nextKept_execUpdStageDone h ..
  | updDiscard => exact nextKept_execUpdDiscard h ..
  | updArm => exact nextKept_execUpdArm h ..
  | updDisarm => exact nextKept_execUpdDisarm h ..
  | updSwitch => exact nextKept_execUpdSwitch h
  | helmGive => exact nextKept_execHelmGive h ..
  | updAbandon => exact nextKept_execUpdAbandon h
  | helmBeat => exact nextKept_execHelmBeat h ..
  | helmBeatTimeout => exact nextKept_execHelmBeatTimeout h
  | lcRequest => contradiction
  | lcExitDebug => exact nextKept_execLcExitDebug h ..
  | tamperEvent => exact nextKept_execTamperEvent h ..
  | marginEval => exact nextKept_execMarginEval h ..
  | marginMinReset => exact nextKept_execMarginMinReset h ..
  | hmAdopt => exact nextKept_execHmAdopt h ..
  | hmAdoptDone => exact nextKept_execHmAdoptDone h
  | stbyArm => exact nextKept_execStbyArm h ..
  | stbyDisarm => exact nextKept_execStbyDisarm h ..
  | heartbeatSend => exact nextKept_execHeartbeatSend h ..
  | standbyCheck => exact nextKept_execStandbyCheck h ..
  | obsSample => exact nextKept_execObsSample h ..
  | hmTrcRdWrite => exact nextKept_execHmTrcRdWrite h ..
  | hmTrcCfgWrite => exact nextKept_execHmTrcCfgWrite h ..
  | gsArm => exact nextKept_execGsArm h ..
  | gsFire => exact nextKept_execGsFire h
  | gsCaptureClose => exact nextKept_execGsCaptureClose h
  | gsRelease => exact nextKept_execGsRelease h ..
  | smbStatus => exact nextKept_execSmbStatus h ..
  | smbModule => exact nextKept_execSmbModule h
  | smbDieSel => exact nextKept_execSmbDieSel h ..
  | smbDieId => exact nextKept_execSmbDieId h
  | smbFwDigest => exact nextKept_execSmbFwDigest h
  | smbStbyDigest => exact nextKept_execSmbStbyDigest h
  | smbMargin => exact nextKept_execSmbMargin h
  | smbWarmReset => contradiction
  | smbColdReset => contradiction
  | smbInvalidCommand => exact nextKept_execSmbInvalidCommand h ..
  | inputDip => exact nextKept_execInputDip h
  | inputInvalid => contradiction
  | inputOvervoltage => contradiction
  | registerWrite => contradiction
  | tidePllLock => exact nextKept_execTidePllLock h
  | perstDeassert => exact nextKept_execPerstDeassert h
  | pciPmStateWrite => exact nextKept_execPciPmStateWrite h ..
  | vfEnableSet => exact nextKept_execVfEnableSet h
  | lidClose => exact nextKept_execLidClose h
  | uartRx => exact nextKept_execUartRx h ..
  | fhRxWindowClose => exact nextKept_execFhRxWindowClose h ..

end



/-! ### O54: PI.HD.AON and PI.HD.BASE -/

/-- While the module is powered, PI.HD.BASE and PI.HD.AON are ON (R28). -/
structure HdUp (s : State) : Prop where
  on : s.boot.powered = true → ∀ i, i = 497 ∨ i = 498 → (s.isl i).st = .on

section
variable {s t : State}

theorem Kept.isl_eq (h : Kept s t) (i : Nat) : t.isl i = s.isl i := congrArg (·.getD i { st := .failedShort }) h.isl

theorem NextKept.kept {o : Out} (h : NextKept s o) (e : o = .next t) : Kept s t := by
  obtain ⟨u, hu, hk⟩ := h
  cases hu.symm.trans e
  exact hk

theorem HdUp.of_eq (h : HdUp s) (hisl : t.pw.isl = s.pw.isl := by rfl) (hpow : t.boot.powered = s.boot.powered := by rfl) :
    HdUp t := by
  refine ⟨fun hp i hi => ?_⟩
  rw [State.isl, hisl]
  exact h.on (hpow ▸ hp) i hi

theorem HdUp.of_kept (h : HdUp s) (k : Kept s t) : HdUp t := h.of_eq k.isl k.powered

theorem HdUp.of_next (h : HdUp s) (e : (.next s : Out) = .next t) : HdUp t := Host.Outcome.next.inj e ▸ h

theorem HdUp.ite {c : Prop} {_ : Decidable c} (hs : HdUp s) (ht : HdUp t) : HdUp (if c then s else t) := by
  split
  · exact hs
  · exact ht

/-- A change of an island, which leaves HD's two ON. -/
theorem HdUp.modIsl (h : HdUp s) {i : Nat} {f : Island → Island}
    (hf : s.boot.powered = true → i = 497 ∨ i = 498 → (f (s.isl i)).st = .on) : HdUp (s.modIsl i f) := by
  refine ⟨fun hp j hj => ?_⟩
  have hs : (s.isl j).st = .on := h.on hp j hj
  by_cases hij : j = i
  · subst hij
    by_cases hlen : j < s.pw.isl.length
    · rw [State.isl_modIsl_same s j f hlen]
      exact hf hp hj
    · rw [State.isl, List.getD_eq_default _ _ (by omega)] at hs
      cases hs
  · rwa [State.isl_modIsl_other s f hij]

/-- A change of an island that leaves its state. -/
theorem HdUp.modIsl_of_st (h : HdUp s) {i : Nat} {f : Island → Island} (hf : ∀ x, (f x).st = x.st) : HdUp (s.modIsl i f) :=
  h.modIsl fun hp hi => (hf _).trans (h.on hp i hi)

/-- A change of another island. -/
theorem HdUp.modIsl_of_lt (h : HdUp s) {i : Nat} (hi : i < 497) (f : Island → Island) : HdUp (s.modIsl i f) :=
  h.modIsl fun _ hi' => by omega

/-- After a reset the islands stand as at power-on. -/
theorem HdUp.of_reset (h : t.pw.isl = State.reset.pw.isl) : HdUp t := by
  refine ⟨fun _ i hi => ?_⟩
  rw [State.isl, h]
  obtain rfl | rfl := hi <;> decide +kernel

/-! #### Requests -/

theorem HdUp.wakeArray (h : HdUp s) (g : Nat) : HdUp (s.wakeArray g) := .ite h (h.modIsl_of_st fun _ => rfl)

theorem hdUp_execEsPPush (h : HdUp s) {m g} (e : execEsPPush m g s = .next t) : HdUp t :=
  agentIf_keeps e h h.of_eq fun _ => (h.of_kept (.putEs (.refl s) ..)).wakeArray ..

/-- The islands that a booking's record leaves are those before it, but that its array's is woken. -/
theorem HdUp.takeRecord (h : HdUp s) (n b) : HdUp (s.takeRecord n b) := by
  unfold State.takeRecord
  extract_lets _ _ _ t
  have ht : Kept s t := foldl_keeps (fun t₁ x ht₁ => by
      extract_lets
      split
      · exact .ite ht₁ (ht₁.setReg ..)
      · exact ht₁) _ (.refl s)
  exact .ite h.of_eq (.ite (h.of_kept ht) (.ite (h.of_kept (ht.putEs ..)) ((h.of_kept (ht.putEs ..)).wakeArray ..)))

theorem HdUp.takeRecords (h : HdUp s) (n k) : HdUp (s.takeRecords n k) := by
  induction k generalizing s with
  | zero => exact h
  | succ k ih => exact ih ((h.takeRecord n _).of_kept (.storeNat (.same (.refl _)) ..))

theorem hdUp_execTtRingDoorbell (h : HdUp s) {m n v} (e : execTtRingDoorbell m n v s = .next t) : HdUp t := by
  refine agentIf_keeps e h h.of_eq fun _ => .ite h.of_eq (HdUp.takeRecords ?_ ..)
  exact h.of_eq

theorem hdUp_execIslandPfReq (h : HdUp s) {m i req} (e : execIslandPfReq m i req s = .next t) : HdUp t := by
  have hrefused : HdUp (s.modIsl i fun x => { x with refused := true }) := h.modIsl_of_st fun _ => rfl
  refine agentIf_keeps e h h.of_eq fun _ => ?_
  split
  next => exact hrefused
  next r _ =>
    have hreq : HdUp (s.modIsl i fun x => { x with pfReq := r }) := h.modIsl_of_st fun _ => rfl
    exact .ite hrefused (hreq.of_kept (.askRelease (.refl _) _))

theorem hdUp_execIslandFwReq (h : HdUp s) {m i req} (e : execIslandFwReq m i req s = .next t) : HdUp t := by
  refine agentIf_keeps e h h.of_eq fun _ => ?_
  split
  next => exact h
  next r _ =>
    have hreq : HdUp (s.modIsl i fun x => { x with fwReq := r }) := h.modIsl_of_st fun _ => rfl
    exact .ite h (hreq.of_kept (.askRelease (.refl _) _))

theorem HdUp.wakeBases (h : HdUp s) : HdUp s.wakeBases :=
  foldl_keeps (fun _ _ ht => ht.modIsl_of_st fun _ => by split <;> rfl) _ h

theorem hdUp_execConfigRecordDone (h : HdUp s) (e : execConfigRecordDone s = .next t) : HdUp t := by
  refine onlyIf_keeps e h fun _ => HdUp.wakeBases ?_
  split
  · exact h.of_kept (foldl_keeps (fun _ _ hu => hu.applyRetain ..) _ (.store (.same (.refl s)) ..))
  · exact h.of_eq

theorem HdUp.regWrite (h : HdUp s) (m b o v) : HdUp (s.regWrite m b o v) := by
  have hs : Kept s s := .refl s
  exact .ite h.of_eq (.ite (.ite (h.modIsl_of_st fun _ => rfl) h) (.ite (.ite h.of_eq h) (.ite (h.of_kept (hs.ttWrite ..))
    (.ite (h.of_kept (hs.errMaskWrite ..)) (.ite (h.of_kept (hs.gsPlain ..)) (h.of_kept (hs.plainWrite ..)))))))

theorem hdUp_execRegisterWrite (h : HdUp s) {m o v} (e : execRegisterWrite m o v s = .next t) : HdUp t := by
  unfold execRegisterWrite at e
  split at e
  · exact onlyIf_keeps e h fun _ => h.of_eq
  · split at e
    · exact h.of_next e
    · split at e
      · exact onlyIf_keeps e h fun _ => h.of_eq
      · exact agentIf_keeps e h h.of_eq fun _ => h.regWrite ..

/-! #### Moves of islands -/

theorem HdUp.contentsLost (h : HdUp s) (i) : HdUp (s.contentsLost i) := by
  have ht : HdUp (s.modIsl i fun x => { x with kept := 0 }) := h.modIsl_of_st fun _ => rfl
  have hk : Kept _ (s.modIsl i fun x => { x with kept := 0 }) := .refl _
  unfold State.contentsLost
  split
  · exact ht.of_kept ((hk.dieLost ..).clearMem ..)
  · exact ht.of_kept (hk.dieLost ..)
  · exact ht

/-- No request takes PI.HD.BASE or PI.HD.AON out of ON (R28, R370). -/
theorem leaveDue_hd (s : State) {i : Nat} (hi : i = 497 ∨ i = 498) : s.leaveDue i = false := by
  obtain rfl | rfl := hi <;> rfl

/-- The state in which an island begins its entry: what it loses has gone, and its own state is still to change. -/
def leftBy (s : State) (i : Nat) : State :=
  ((match islKind i with
    | .array g => s.dropArray g
    | _ => s).dredgeLeaves i).unitsOff i (s.islTarget i == IslReq.off)

theorem kept_leftBy (s : State) (i : Nat) : Kept s (leftBy s i) := by
  refine .unitsOff (.dredgeLeaves ?_ _) ..
  split
  · exact .dropArray (.refl s) _
  · exact .refl s

theorem execIslandEntryBegin_eq (s : State) (i : Fin 499) :
    execIslandEntryBegin i s = onlyIf (s.islTarget i != .on &&
        ((((s.isl i).st == .on || (s.isl i).st == .latched) && s.leaveDue i) || ((s.isl i).st == .ret && s.islTarget i == .off))) s
      ((leftBy s i).modIsl i (fun x => { x with
        st := .entering, goal := s.islTarget i
        kept := if (s.isl i).st == .on || (s.isl i).st == .latched then s.retMask i else x.kept })) := rfl

theorem hdUp_execIslandEntryBegin (h : HdUp s) {i} (e : execIslandEntryBegin i s = .next t) : HdUp t := by
  rw [execIslandEntryBegin_eq] at e
  have hk := kept_leftBy s i
  refine onlyIf_keeps e h fun hgo => (h.of_kept hk).modIsl fun hp hi => ?_
  simp [h.on (hk.powered ▸ hp) i hi, leaveDue_hd s hi] at hgo

theorem hdUp_execIslandEntryDone (h : HdUp s) {i} (e : execIslandEntryDone i s = .next t) : HdUp t := by
  refine onlyIf_keeps e h fun hgo => ?_
  have hmove (st : IslState) : HdUp (s.modIsl i fun x => { x with st := st }) := h.modIsl fun hp hi => by
    simp [h.on hp i hi] at hgo
  exact .ite ((hmove _).contentsLost ..) (hmove _)

theorem hdUp_execIslandExitBegin (h : HdUp s) {i} (e : execIslandExitBegin i s = .next t) : HdUp t := by
  refine onlyIf_keeps e h fun hgo => HdUp.of_kept (h.modIsl fun hp hi => ?_) (.clockFor (.refl _) _)
  simp [h.on hp i hi] at hgo

/-- The state in which an island ends its exit: what was not retained is cleared, and its own state is still to change. -/
def readiedBy (s : State) (i : Nat) : State :=
  let t := s.clearMem (clearedKey i (s.isl i).kept)
  let t := match islKind i with
    | .bankGroup _ _ => if (s.isl i).kept = 2 ^ 128 - 1 then t else t.groupLost i (s.isl i).kept
    | _ => t
  match islKind i with
  | .base d => if (s.isl i).fromRet then t else (t.applyRetain d).rewriteRules d
  | _ => t

theorem kept_readiedBy (s : State) (i : Nat) : Kept s (readiedBy s i) := by
  unfold readiedBy
  extract_lets t u
  have ht : Kept s t := .clearMem (.refl s) _
  have hu : Kept s u := by
    unfold u
    split
    · exact .ite ht (ht.groupLost ..)
    · exact ht
  split
  · exact .ite hu ((hu.applyRetain _).rewriteRules _)
  · exact hu

theorem execIslandExitDone_eq (s : State) (i : Fin 499) :
    execIslandExitDone i s = onlyIf ((s.isl i).st == .exiting) s
      (if (islKind i).pads then (readiedBy s i).modIsl i (fun x => { x with st := .latched })
      else ((readiedBy s i).modIsl i (fun x => { x with st := .on })).unitsOn i) := rfl

theorem hdUp_execIslandExitDone (h : HdUp s) {i} (e : execIslandExitDone i s = .next t) : HdUp t := by
  rw [execIslandExitDone_eq] at e
  have hk := kept_readiedBy s i
  refine onlyIf_keeps e h fun hgo => .ite ((h.of_kept hk).modIsl fun hp hi => ?_)
    (((h.of_kept hk).modIsl fun _ _ => rfl).of_kept (.unitsOn (.refl _) _))
  simp [h.on (hk.powered ▸ hp) i hi] at hgo

theorem hdUp_execIslandRelease (h : HdUp s) {m i} (e : execIslandRelease m i s = .next t) : HdUp t :=
  agentIf_keeps e h h.of_eq fun _ => (h.modIsl fun _ _ => rfl).of_kept (.unitsOn (.refl _) _)

/-- The state in which the switches of a shorted island open: what it loses has gone, and its own state is still to change. -/
def shortedBy (s : State) (i : Nat) : State :=
  let t := if (s.isl i).st == .on || (s.isl i).st == .latched then (s.dredgeLeaves i).unitsOff i true else s
  match islKind i with
  | .array g => t.arrayFailed g
  | .bankGroup _ _ => t.groupLost i 0
  | _ => t

theorem kept_shortedBy (s : State) (i : Nat) : Kept s (shortedBy s i) := by
  unfold shortedBy
  extract_lets t
  have ht : Kept s t := .ite (.unitsOff (.dredgeLeaves (.refl s) _) ..) (.refl s)
  split
  · exact ht.arrayFailed _
  · exact ht.groupLost ..
  · exact ht

/-- PW_STATUS, a count and HI_ERR_CAUSE tell of a short (R374, R391). -/
def reportShort (s : State) : State := ((s.setReg pwBlock (s.regN pwBlock ||| 0x100)).count (pwBlock + 0x024) 1).hiErr 5

/-- A short of a BASE island is fatal (R374). -/
def fatalShort (s : State) (i : Nat) : State :=
  match islKind i with
  | .base d => s.raiseFatal 2 d.index
  | _ => s

theorem kept_fatalShort (s : State) (i : Nat) : Kept s (fatalShort s i) := by
  unfold fatalShort
  split
  · exact .raiseFatal (.refl s) ..
  · exact .refl s

theorem execIslandShort_eq (s : State) (i : Fin 499) :
    execIslandShort i s = onlyIf (decide (i.val < 497) && ((s.isl i).st == .on || (s.isl i).st == .latched ||
        (s.isl i).st == .entering || (s.isl i).st == .exiting)) s
      (fatalShort (reportShort (((shortedBy s i).modIsl i (fun x => { x with st := .failedShort })).contentsLost i)) i) := rfl

theorem hdUp_execIslandShort (h : HdUp s) {i} (e : execIslandShort i s = .next t) : HdUp t := by
  rw [execIslandShort_eq] at e
  refine onlyIf_keeps e h fun hgo => ?_
  have hi : i.val < 497 := of_decide_eq_true (Bool.and_eq_true_iff.mp hgo).1
  have ht := (((h.of_kept (kept_shortedBy s i)).modIsl_of_lt hi fun x => { x with st := .failedShort }).contentsLost i)
  exact (ht.of_kept (.hiErr (.count (.setReg (.refl _) ..) ..) _)).of_kept (kept_fatalShort ..)

theorem HdUp.allOff (h : HdUp s) : HdUp s.allOff :=
  List.foldlRecOn _ _ h fun u hu i hi => by
    have hk : Kept u (if (u.isl i).st == .on || (u.isl i).st == .latched then (u.dredgeLeaves i).unitsOff i true else u) :=
      .ite (.unitsOff (.dredgeLeaves (.refl u) ..) ..) (.refl u)
    exact .ite hu (((hu.of_kept hk).modIsl_of_lt (List.mem_range.mp hi) _).contentsLost ..)

theorem hdUp_execThermalTrip (h : HdUp s) {d} (e : execThermalTrip d s = .next t) : HdUp t :=
  (h.allOff.of_kept (.raiseFatal (.refl _) ..)).of_next e

/-! #### Power and resets -/

theorem hdUp_moduleReset (s : State) (cold : Bool) : HdUp (s.moduleReset cold) := by
  refine .of_reset ?_
  unfold State.moduleReset
  generalize State.reset = r
  cases cold <;> rfl

theorem hdUp_powerOn (s : State) : HdUp s.powerOn := .of_reset (by unfold State.powerOn; rfl)

theorem hdUp_powerOff (s : State) : HdUp s.powerOff := by
  have hoff : s.powerOff.boot.powered = false := by rw [State.powerOff]
  exact ⟨fun hp => absurd (hoff.symm.trans hp) Bool.false_ne_true⟩

theorem hdUp_execLcRequest (h : HdUp s) {m req} (e : execLcRequest m req s = .next t) : HdUp t := by
  refine agentIf_keeps e h h.of_eq fun _ => ?_
  split
  · exact h.of_eq
  · exact h.of_eq

/-- Every command leaves PI.HD.BASE and PI.HD.AON ON while the module is powered. -/
theorem hdUp_exec (h : HdUp s) {c : Instr} (e : exec c s = .next t) : HdUp t := by
  cases c with
  | esPPush => exact hdUp_execEsPPush h e
  | ttRingDoorbell => exact hdUp_execTtRingDoorbell h e
  | islandPfReq => exact hdUp_execIslandPfReq h e
  | islandFwReq => exact hdUp_execIslandFwReq h e
  | islandEntryBegin => exact hdUp_execIslandEntryBegin h e
  | islandEntryDone => exact hdUp_execIslandEntryDone h e
  | islandExitBegin => exact hdUp_execIslandExitBegin h e
  | islandExitDone => exact hdUp_execIslandExitDone h e
  | islandRelease => exact hdUp_execIslandRelease h e
  | islandShort => exact hdUp_execIslandShort h e
  | thermalTrip => exact hdUp_execThermalTrip h e
  | configRecordDone => exact hdUp_execConfigRecordDone h e
  | btResetWarm => exact onlyIf_keeps e h fun _ => hdUp_moduleReset ..
  | btResetCold => exact onlyIf_keeps e h fun _ => hdUp_moduleReset ..
  | powerOn => exact (hdUp_powerOn s).of_next e
  | inputInvalid => exact (hdUp_powerOff s).of_next e
  | inputOvervoltage => exact (hdUp_powerOff s).of_next e
  | romExit => exact onlyIf_keeps e h fun _ => .ite (hdUp_moduleReset ..) h.of_eq
  | bootOkWrite => exact agentIf_keeps e h h.of_eq fun _ => h.of_eq
  | bootWatchdog => exact onlyIf_keeps e h fun _ => hdUp_moduleReset ..
  | lcRequest => exact hdUp_execLcRequest h e
  | smbWarmReset => exact (HdUp.ite ((hdUp_moduleReset ..).of_kept (.smbAnswer (.refl _) _)) h.of_eq).of_next e
  | smbColdReset => exact (HdUp.ite ((hdUp_moduleReset ..).of_kept (.smbAnswer (.refl _) _)) h.of_eq).of_next e
  | registerWrite => exact hdUp_execRegisterWrite h e
  | _ => exact h.of_kept ((nextKept_exec (.refl s) _ rfl).kept e)

end

/-- Settles O54: it holds after reset, the idle step moves no island, and every command keeps it. -/
theorem hdIslandsStay : Obligations.HdIslandsStay := by
  unfold Obligations.HdIslandsStay
  refine ⟨(HdUp.of_reset rfl).on, fun s t _ h e => ?_⟩
  replace h : HdUp s := ⟨h⟩
  refine HdUp.on ?_
  unfold Machine.step at e
  split at e
  · exact (h.of_kept (.idle (.refl s))).of_next e
  · exact hdUp_exec h.of_eq e

end Sys2Proof

namespace Sys2Proof
open Machine

/-! ### O41: the commands of the islands -/

section
variable {s t : State} {i : Fin 499} {m : Agent}

/-! #### What the operations on islands leave -/

/-- A changed island of a state whose 499 islands stand. -/
theorem isl_modIsl (hs : Safe s) (k : Kept s t) (i : Fin 499) (f : Island → Island) : (t.modIsl i f).isl i = f (s.isl i) := by
  obtain ⟨-, -, -, -, -, hlen⟩ := hs
  rw [State.isl_modIsl_same t i f (by rw [k.isl, hlen]; exact i.isLt), k.isl_eq]

/-- In OFF nothing is retained. -/
theorem isl_contentsLost (hs : Safe s) (i : Fin 499) : (s.contentsLost i).isl i = { s.isl i with kept := 0 } := by
  have hk : Kept (s.modIsl i fun x => { x with kept := 0 }) (s.contentsLost i) := by
    unfold State.contentsLost
    split
    · exact .clearMem (.dieLost (.refl _) _) _
    · exact .dieLost (.refl _) _
    · exact .refl _
  rw [hk.isl_eq, isl_modIsl hs (.refl s)]

theorem islLocked_iff (s : State) (i : Nat) : s.islLocked i = true ↔ 497 ≤ i ∨ (s.isl i).st = .failedShort := by
  simp [State.islLocked]

theorem not_islLocked (hi : i.val < 497) (hst : (s.isl i).st ≠ .failedShort) : ¬ s.islLocked i = true := by
  rw [islLocked_iff]
  exact not_or_intro (by omega) hst

/-- A write of an agent that acts, outside its command's occasion. -/
theorem agentIf_ignored {p : Bool} (ha : Acts m s) (hp : p = false) (t : State) : agentIf m p s t = .next s := by
  obtain ⟨hrun, hfree⟩ := ha
  simp [agentIf, hrun, hfree, onlyIf_false hp]

/-! #### Requests -/

/-- PF_REQ: a value of 3 sets REFUSED. -/
theorem exec_islandPfReq_none (hm : s.hdOrPf m = true) (ha : Acts m s) {req : Fin 4} (hr : IslReq.ofCode req = none) :
    exec (.islandPfReq m i req) s = .next (s.modIsl i (fun x => { x with refused := true })) := by
  obtain ⟨hrun, hfree⟩ := ha
  refine (agentIf_acts hrun hfree hm _).trans (congrArg _ ?_)
  rw [hr]

/-- PF_REQ: a request is taken, or refused where the island is locked or may not leave ON. -/
theorem exec_islandPfReq_some (hm : s.hdOrPf m = true) (ha : Acts m s) {req : Fin 4} {r : IslReq}
    (hr : IslReq.ofCode req = some r) :
    exec (.islandPfReq m i req) s = .next (if s.islLocked i ∨ (r ≠ .on ∧ s.reqIgnored i = true)
      then s.modIsl i (fun x => { x with refused := true })
      else (s.modIsl i (fun x => { x with pfReq := r })).askRelease i) := by
  obtain ⟨hrun, hfree⟩ := ha
  refine (agentIf_acts hrun hfree hm _).trans (congrArg _ ?_)
  rw [hr]

theorem exec_islandFwReq_some (hm : m.isHd = true) (ha : Acts m s) {req : Fin 4} {r : IslReq}
    (hr : IslReq.ofCode req = some r) :
    exec (.islandFwReq m i req) s = .next (if s.islLocked i ∨ (r ≠ .on ∧ s.fwIgnored i = true) then s
      else (s.modIsl i (fun x => { x with fwReq := r })).askRelease i) := by
  obtain ⟨hrun, hfree⟩ := ha
  refine (agentIf_acts hrun hfree hm _).trans (congrArg _ ?_)
  rw [hr]

/-- PF_REQ: a value of 3, and any write of an island that is locked, sets REFUSED. -/
theorem exec_islandPfReq_locked (hm : s.hdOrPf m = true) (ha : Acts m s) {req : Fin 4}
    (h : req.val = 3 ∨ 497 ≤ i.val ∨ (s.isl i).st = .failedShort) :
    exec (.islandPfReq m i req) s = .next (s.modIsl i (fun x => { x with refused := true })) := by
  cases hr : IslReq.ofCode req with
  | none => exact exec_islandPfReq_none hm ha hr
  | some r =>
    have hne : req.val ≠ 3 := fun h3 => by simp [IslReq.ofCode, h3] at hr
    have hlock : s.islLocked i = true := (islLocked_iff s i).mpr (h.resolve_left hne)
    exact (exec_islandPfReq_some hm ha hr).trans (congrArg _ (if_pos (.inl hlock)))

/-- PF_REQ holds what was taken. -/
theorem runs_islandPfReq (hs : Safe s) (hm : s.hdOrPf m = true) (ha : Acts m s) {req : Fin 4} {r : IslReq}
    (hr : IslReq.ofCode req = some r) (hlock : ¬ s.islLocked i = true) (h : r = .on ∨ s.reqIgnored i = false) :
    Runs (.islandPfReq m i req) s (fun t => t.isl i = { s.isl i with pfReq := r }) := by
  have htaken : ¬ (s.islLocked i ∨ (r ≠ .on ∧ s.reqIgnored i = true)) := by
    rintro (hl | ⟨hne, hig⟩)
    · exact hlock hl
    · simp_all
  refine ⟨_, (exec_islandPfReq_some hm ha hr).trans (congrArg _ (if_neg htaken)), ?_⟩
  exact ((Kept.askRelease (.refl _) _).isl_eq i).trans (isl_modIsl hs (.refl s) ..)

/-- FW_REQ holds what was taken. -/
theorem runs_islandFwReq (hs : Safe s) (hm : m.isHd = true) (ha : Acts m s) {req : Fin 4} {r : IslReq}
    (hr : IslReq.ofCode req = some r) (hlock : ¬ s.islLocked i = true) (h : r = .on ∨ s.fwIgnored i = false) :
    Runs (.islandFwReq m i req) s (fun t => t.isl i = { s.isl i with fwReq := r }) := by
  have htaken : ¬ (s.islLocked i ∨ (r ≠ .on ∧ s.fwIgnored i = true)) := by
    rintro (hl | ⟨hne, hig⟩)
    · exact hlock hl
    · simp_all
  refine ⟨_, (exec_islandFwReq_some hm ha hr).trans (congrArg _ (if_neg htaken)), ?_⟩
  exact ((Kept.askRelease (.refl _) _).isl_eq i).trans (isl_modIsl hs (.refl s) ..)

/-- RELEASE takes LATCHED to ON (R373). -/
theorem runs_islandRelease (hs : Safe s) (hm : s.hdOrPf m = true) (ha : Acts m s) (hst : (s.isl i).st = .latched) :
    Runs (.islandRelease m i) s (fun t => t.isl i = { s.isl i with st := .on }) := by
  obtain ⟨hrun, hfree⟩ := ha
  refine ⟨_, agentIf_acts hrun hfree (by simp [hm, hst]) _, ?_⟩
  exact ((Kept.unitsOn (.refl _) _).isl_eq i).trans (isl_modIsl hs (.refl s) ..)

/-! #### Entry -/

/-- What an array's leaving does to one of the contexts that hold it. -/
def dropFrom (g : Nat) (s : State) (e : Nat × Ctx) : State :=
  let cx := { e.2 with arrays := e.2.arrays.filter (· != g), rel := e.2.rel.filter (· != g) }
  match cx.run with
  | none => s.setCtx e.1 (some cx)
  | some r =>
    let u := s.handBack cx { r with running := r.running.filter (fun q => q.array != g) }
      (r.running.filter (fun q => q.array == g))
    u.1.setCtx e.1 (some { cx with run := some u.2 })

theorem dropArray_eq (s : State) (g : Nat) :
    s.dropArray g = (s.settle.sh.ctx.filter (fun e => e.2.arrays.contains g)).foldl (dropFrom g) s.settle := rfl

theorem ctx_settle (s : State) : s.settle.sh.ctx = s.sh.ctx := by
  have hfold (l : List (Nat × Ctx)) (dt : Nat) : (l.foldl (fun (u : State) (e : Nat × Ctx) =>
      if e.2.st = .running ∧ (e.1 / 8 < 4 ∨ e.1 / 8 = 8) then u.charge e.2.vf (dt * e.2.arrays.length) else u) s).sh.ctx =
      s.sh.ctx := by
    refine List.foldlRecOn (motive := fun u : State => u.sh.ctx = s.sh.ctx) _ _ rfl fun u hu e _ => ?_
    split
    · exact hu
    · exact hu
  unfold State.settle
  extract_lets dt u t
  have ht : t.sh.ctx = s.sh.ctx := by
    unfold t
    split
    · rfl
    · exact hfold ..
  exact ht

theorem ctx_setCtx (s : State) (k : Nat) (c : Option Ctx) : (s.setCtx k c).sh.ctx = tput c s.sh.ctx k :=
  congrArg (tput c · k) (ctx_settle s)

theorem sh_handBack (s : State) (cx : Ctx) (r : DescRun) (ts : List TileRun) : (s.handBack cx r ts).1.sh = s.sh := by
  refine List.foldlRecOn (motive := fun y : State × DescRun => y.1.sh = s.sh) _ _ rfl fun y hy q _ => ?_
  dsimp only
  split
  · exact hy
  · exact hy

/-- The context stands without the array afterwards, and every other one as before. -/
theorem ctx_dropFrom (s : State) (g : Nat) (e : Nat × Ctx) :
    ∃ c : Ctx, g ∉ c.arrays ∧ (dropFrom g s e).sh.ctx = tput (some c) s.sh.ctx e.1 := by
  unfold dropFrom
  extract_lets _ cx
  have hcx : g ∉ cx.arrays := by simp [cx]
  split
  · exact ⟨cx, hcx, ctx_setCtx ..⟩
  · extract_lets u
    refine ⟨{ cx with run := some u.2 }, hcx, ?_⟩
    rw [ctx_setCtx, sh_handBack]

/-- The keys of a sorted table lie at or above its bound. -/
theorem le_key_of_mem {α : Type} {l : Table α} {lo : Nat} {e : Nat × α} (hl : tsorted lo l = true) (h : e ∈ l) : lo ≤ e.1 := by
  induction l generalizing lo with
  | nil => exact absurd h List.not_mem_nil
  | cons a l ih =>
    simp only [tsorted, Bool.and_eq_true, decide_eq_true_eq] at hl
    obtain ⟨hlo, hl⟩ := hl
    obtain rfl | h := List.mem_cons.mp h
    · exact hlo
    · exact (Nat.le_trans hlo (Nat.le_succ _)).trans (ih hl h)

/-- A placed table lists the placed value, and the old ones of other keys. -/
theorem eq_or_mem_of_mem_tput {α : Type} {v : α} {l : Table α} {lo k : Nat} {e : Nat × α} (hl : tsorted lo l = true)
    (h : e ∈ tput (some v) l k) : e = (k, v) ∨ (e ∈ l ∧ e.1 ≠ k) := by
  induction l generalizing lo with
  | nil => exact .inl (List.mem_singleton.mp h)
  | cons a l ih =>
    simp only [tsorted, Bool.and_eq_true, decide_eq_true_eq] at hl
    obtain ⟨-, hl⟩ := hl
    have hkey : e ∈ l → a.1 < e.1 := le_key_of_mem hl
    simp only [tput] at h
    split at h
    next hk =>
      obtain rfl | h := List.mem_cons.mp h
      · exact .inl rfl
      · refine .inr ⟨h, ?_⟩
        obtain rfl | h := List.mem_cons.mp h
        · exact hk.ne'
        · exact (hk.trans (hkey h)).ne'
    split at h
    next hk =>
      obtain rfl | h := List.mem_cons.mp h
      · exact .inl (by rw [hk])
      · exact .inr ⟨List.mem_cons_of_mem _ h, hk ▸ (hkey h).ne'⟩
    next hk =>
      obtain rfl | h := List.mem_cons.mp h
      · exact .inr ⟨List.mem_cons_self, Ne.symm hk⟩
      · obtain h | ⟨h, hne⟩ := ih hl h
        · exact .inl h
        · exact .inr ⟨List.mem_cons_of_mem _ h, hne⟩

/-- Once every context that held the array has dropped it, none holds it. -/
theorem not_mem_arrays_foldl_dropFrom {g : Nat} (l : List (Nat × Ctx)) :
    ∀ {s : State}, tsorted 0 s.sh.ctx = true → (∀ e ∈ s.sh.ctx, g ∈ e.2.arrays → e ∈ l) →
      ∀ e ∈ (l.foldl (dropFrom g) s).sh.ctx, g ∉ e.2.arrays := by
  induction l with
  | nil => intro s _ h e he hg; exact absurd (h e he hg) List.not_mem_nil
  | cons a l ih =>
    intro s hs h
    obtain ⟨c, hc, hctx⟩ := ctx_dropFrom s g a
    refine ih (hctx ▸ tsorted_tput _ hs (Nat.zero_le _)) fun e he hg => ?_
    rw [hctx] at he
    obtain rfl | ⟨he, hkey⟩ := eq_or_mem_of_mem_tput hs he
    · exact absurd hg hc
    · obtain rfl | hel := List.mem_cons.mp (h e he hg)
      · exact absurd rfl hkey
      · exact hel

/-- An array that leaves ON leaves its context (R132, R185). -/
theorem not_mem_arrays_dropArray {g : Nat} (hs : tsorted 0 s.sh.ctx = true) :
    ∀ e ∈ (s.dropArray g).sh.ctx, g ∉ e.2.arrays := by
  rw [dropArray_eq]
  refine not_mem_arrays_foldl_dropFrom _ (ctx_settle s ▸ hs) fun e he hg => ?_
  exact List.mem_filter.mpr ⟨he, by simpa using hg⟩

theorem sh_dredgeLeaves (s : State) (i : Nat) : (s.dredgeLeaves i).sh = s.sh := by
  unfold State.dredgeLeaves
  extract_lets
  split
  · split <;> rfl
  · rfl

/-- A request to leave ON takes effect: the island enters, its mask latched, and an array is in no context (R107, R370). -/
theorem runs_islandEntryBegin (hs : Safe s) (ht : s.islTarget i ≠ .on) (hst : (s.isl i).st = .on ∨ (s.isl i).st = .latched)
    (hdue : s.leaveDue i = true) :
    Runs (.islandEntryBegin i) s (fun t =>
      t.isl i = { s.isl i with st := .entering, goal := s.islTarget i, kept := s.retMask i } ∧
      (tsorted 0 s.sh.ctx = true → ∀ g, islKind i = .array g → ∀ e ∈ t.sh.ctx, g ∉ e.2.arrays)) := by
  have hon : ((s.isl i).st == .on || (s.isl i).st == .latched) = true := by simpa using hst
  refine ⟨_, (execIslandEntryBegin_eq s i).trans (onlyIf_true (by simp [ht, hon, hdue]) ..), ?_, fun hctx g hg => ?_⟩
  · rw [isl_modIsl hs (kept_leftBy s i), if_pos hon]
  · have hsh : (leftBy s i).sh.ctx = (s.dropArray g).sh.ctx := by
      simp only [leftBy, hg, State.unitsOff]
      exact congrArg (·.ctx) (sh_dredgeLeaves ..)
    exact hsh ▸ not_mem_arrays_dropArray hctx

/-- From RET an island goes on to OFF (R368). -/
theorem runs_islandEntryBegin_ret (hs : Safe s) (hst : (s.isl i).st = .ret) (ht : s.islTarget i = .off) :
    Runs (.islandEntryBegin i) s (fun t => t.isl i = { s.isl i with st := .entering, goal := .off }) := by
  refine ⟨_, (execIslandEntryBegin_eq s i).trans (onlyIf_true (by simp [ht, hst]) ..), ?_⟩
  refine (isl_modIsl hs (kept_leftBy s i) ..).trans ?_
  simp [ht, hst]

theorem exec_islandEntryDone_ret (hst : (s.isl i).st = .entering) (hgoal : (s.isl i).goal ≠ .off) :
    exec (.islandEntryDone i) s = .next (s.modIsl i (fun x => { x with st := .ret })) := by
  refine (onlyIf_true (by simp [hst]) _ _).trans ?_
  simp [hgoal]

theorem runs_islandEntryDone_off (hs : Safe s) (hst : (s.isl i).st = .entering) (hgoal : (s.isl i).goal = .off) :
    Runs (.islandEntryDone i) s (fun t => t.isl i = { s.isl i with st := .off, kept := 0 }) := by
  refine ⟨_, (onlyIf_true (by simp [hst]) _ _).trans (congrArg _ (if_pos (by simp [hgoal]))), ?_⟩
  refine (isl_contentsLost (hs.modIsl ..) i).trans ?_
  rw [isl_modIsl hs (.refl s)]
  simp [hgoal]

/-! #### Exit -/

/-- A wake begins the exit, and no clock stops for it (R25, R372). -/
theorem runs_islandExitBegin (hs : Safe s) (hst : (s.isl i).st = .off ∨ (s.isl i).st = .ret) (hw : s.wakes i = true)
    (hp : s.parentOn i = true) :
    Runs (.islandExitBegin i) s (fun t =>
      t.isl i = { s.isl i with st := .exiting, fromRet := (s.isl i).st == .ret } ∧
      ∀ d : ClkDomain, d ∈ s.clk.running → d ∈ t.clk.running) := by
  have hst' : ((s.isl i).st == .off || (s.isl i).st == .ret) = true := by simpa using hst
  refine ⟨_, onlyIf_true (by simp [hst', hw, hp]) _ _, ?_, fun d hd => List.mem_append_left _ hd⟩
  exact ((Kept.clockFor (.refl _) _).isl_eq i).trans (isl_modIsl hs (.refl s) ..)

/-- Exit ends in LATCHED where the island has pads, and otherwise in ON (R371, R373). -/
theorem runs_islandExitDone (hs : Safe s) (hst : (s.isl i).st = .exiting) :
    Runs (.islandExitDone i) s (fun t => (t.isl i).st = if (islKind i).pads then .latched else .on) := by
  refine ⟨_, (execIslandExitDone_eq s i).trans (onlyIf_true (by simp [hst]) ..), ?_⟩
  have hk := kept_readiedBy s i
  beta_reduce
  split
  · rw [isl_modIsl hs hk]
  · rw [(Kept.unitsOn (.refl _) _).isl_eq, isl_modIsl hs hk]

/-! #### Shorts -/

theorem regN_hiErr_other {o : Nat} (s : State) (bit : Nat) (ho : o ≠ hiBlock + 0x00C) : (s.hiErr bit).regN o = s.regN o := by
  have hvec (u : State) (f v : Nat) : (u.sendVec f v).regN o = u.regN o := by
    unfold State.sendVec
    split <;> rfl
  unfold State.hiErr
  extract_lets t
  have ht : t.regN o = s.regN o := s.regN_setReg_other _ ho
  split
  · exact ht
  · exact (hvec ..).trans ht

theorem regN_raiseFatal_other {o : Nat} (s : State) (cause die : Nat) (ho : o ≠ btBlock + 0x300) (ho' : o ≠ tdBlock + 0x1000) :
    (s.raiseFatal cause die).regN o = s.regN o := by
  unfold State.raiseFatal
  extract_lets u t
  have hu : u.regN o = s.regN o := (regN_bootFailed ..).trans (s.regN_setReg_other _ ho)
  have ht : t.regN o = s.regN o := (u.regN_setRegB_other _ ho').trans hu
  split
  · rfl
  · exact ht

theorem bitOf_or (x i : Nat) : bitOf (x ||| 2 ^ i) i = true := by
  have h : (x ||| 2 ^ i).testBit i = true := by simp
  rw [Nat.testBit_eq_decide_div_mod_eq] at h
  simpa [bitOf] using h

/-- PW_STATUS.SHORT is set. -/
theorem regBit_reportShort (h : tsorted 0 s.regs = true) : (reportShort s).regBit pwBlock 8 = true := by
  have hreg : (reportShort s).regN pwBlock = s.regN pwBlock ||| 0x100 := by
    calc (reportShort s).regN pwBlock
        = (s.setReg pwBlock (s.regN pwBlock ||| 0x100)).regN pwBlock := by
          rw [reportShort, regN_hiErr_other _ _ (by decide), State.count, State.regN_setReg_other _ _ (by decide)]
      _ = s.regN pwBlock ||| 0x100 := by
          rw [s.regN_setReg_same h]
          exact Nat.mod_eq_of_lt (Nat.or_lt_two_pow (s.regN_lt _) (by decide))
  rw [State.regBit, hreg]
  exact bitOf_or _ 8

theorem regBit_fatalShort (s : State) (i : Nat) : (fatalShort s i).regBit pwBlock 8 = s.regBit pwBlock 8 := by
  unfold fatalShort
  split
  · rw [State.regBit, regN_raiseFatal_other _ _ _ (by decide) (by decide)]
    rfl
  · rfl

theorem safe_shortedBy (hs : Safe s) (i : Nat) : Safe (shortedBy s i) := by
  unfold shortedBy
  extract_lets t
  have ht : Safe t := .ite ((hs.dredgeLeaves ..).unitsOff ..) hs
  split
  · exact ht.arrayFailed ..
  · exact ht.groupLost ..
  · exact ht

theorem kept_reportShort (s : State) : Kept s (reportShort s) := .hiErr (.count (.setReg (.refl s) ..) ..) _

/-- A short locks the island as FAILED_SHORT and sets PW_STATUS.SHORT, and on a BASE it is fatal (R374). -/
theorem runs_islandShort (hs : Safe s) (hi : i.val < 497)
    (hst : (s.isl i).st = .on ∨ (s.isl i).st = .latched ∨ (s.isl i).st = .entering ∨ (s.isl i).st = .exiting) :
    Runs (.islandShort i) s (fun t =>
      (t.isl i).st = .failedShort ∧ t.regBit pwBlock 8 = true ∧ ∀ d, islKind i = .base d → t.fatal = true) := by
  have hlocked : Safe ((shortedBy s i).modIsl i fun x => { x with st := .failedShort }) := (safe_shortedBy hs i).modIsl ..
  obtain ⟨-, -, hregs, -, -, -⟩ := hlocked.contentsLost i
  refine ⟨_, (execIslandShort_eq s i).trans (onlyIf_true (by simp [hi, or_assoc, hst]) ..), ?_, ?_, fun d hd => ?_⟩
  · rw [(kept_fatalShort ..).isl_eq, (kept_reportShort _).isl_eq, isl_contentsLost hlocked, isl_modIsl hs (kept_shortedBy s i)]
  · exact (regBit_fatalShort ..).trans (regBit_reportShort hregs)
  · rw [fatalShort, hd]
    exact fatal_raiseFatal ..

end

/-- Settles O41, from the lemmas about each of the commands. -/
theorem islandCommands : Obligations.IslandCommands := by
  unfold Obligations.IslandCommands
  intro s i hs
  refine ⟨fun m hm ha => ⟨fun req h => exec_islandPfReq_locked hm ha h, fun req r hr hi hst => ⟨fun hne hig => ?_, fun h => ?_⟩,
      runs_islandRelease hs hm ha, fun hst => agentIf_ignored ha (by simp [hst]) _⟩,
    fun m hm ha req r hr => ⟨fun hi hst h => ?_, fun h => ?_⟩,
    fun ht => ⟨runs_islandEntryBegin hs ht, runs_islandEntryBegin_ret hs⟩,
    fun hst => ⟨exec_islandEntryDone_ret hst, runs_islandEntryDone_off hs hst⟩,
    runs_islandExitBegin hs, runs_islandExitDone hs, runs_islandShort hs, fun hi => onlyIf_false (by simp [hi]) ..⟩
  · exact (exec_islandPfReq_some hm ha hr).trans (congrArg _ (if_pos (.inr ⟨hne, hig⟩)))
  · exact runs_islandPfReq hs hm ha hr (not_islLocked hi hst) h
  · exact runs_islandFwReq hs hm ha hr (not_islLocked hi hst) h
  · refine (exec_islandFwReq_some hm ha hr).trans (congrArg _ (if_pos ?_))
    rwa [islLocked_iff, or_assoc]

end Sys2Proof

namespace Sys2Proof
open Machine

/-! ### Where stores land: memory outside named keys, and the keys of addresses -/

theorem length_leBytes (n x : Nat) : (leBytes n x).length = n := by
  induction n generalizing x with
  | zero => rfl
  | succ n ih => exact congrArg (· + 1) (ih _)

theorem length_freeBytes (k n : Nat) : (freeBytes k n).length = n := by
  induction n generalizing k with
  | zero => rfl
  | succ n ih => exact congrArg (· + 1) (ih _)

/-- An offset that `place` answers lies in its die's span. -/
theorem lt_span_of_place {a : Nat} {d : Die} {off : Nat} (h : place a = .sram d off) : off < sramSpan d := by
  have hwindow {d' : Die} {x : Nat} (hw : inWindow d' x = .sram d off) : off < sramSpan d := by
    unfold inWindow at hw
    split at hw
    next hx =>
      obtain ⟨rfl, rfl⟩ := Place.sram.inj hw
      exact hx
    next => cases hw
  unfold place at h
  split_ifs at h
  all_goals exact hwindow h

/-- The pages of the generation dies' Drip sequencers, which hold the modes of the bank groups (R78, R86). -/
def dlPage (o : Nat) : Prop := dlBlock ≤ o ∧ o < dlBlock + 0x10000

/-- Where the modes of the bank groups stay, every address names the key it named. -/
theorem key_of_dlPage {s t : State} (h : ∀ o, dlPage o → t.reg o = s.reg o) (a : Nat) : t.key a = s.key a := by
  unfold State.key
  split
  next n off hplace =>
    have hoff : off < 0xC0000000 := lt_span_of_place hplace
    have hmode : t.bgStripe n (off / 0x2000000) = s.bgStripe n (off / 0x2000000) := by
      unfold State.bgStripe State.regBit State.regN
      rw [h _ ⟨by omega, by omega⟩]
    rw [hmode]
  next => rfl

/-- From s to t memory outside the keys that p names stays, and so do the modes of the bank groups. -/
structure Within (p : Nat → Prop) (s t : State) : Prop where
  mem : MemKept p s t
  reg : ∀ o, dlPage o → t.reg o = s.reg o

section
variable {p : Nat → Prop} {s t : State}

theorem Within.refl (p : Nat → Prop) (s : State) : Within p s s := ⟨fun _ _ => rfl, fun _ _ => rfl⟩

theorem Within.key (h : Within p s t) (a : Nat) : t.key a = s.key a := key_of_dlPage h.reg a

/-- A state whose memory and registers are those of one that stays within p. -/
theorem Within.of_eq {u : State} (h : Within p s t) (hmem : u.mem = t.mem := by rfl) (hregs : u.regs = t.regs := by rfl) :
    Within p s u := by
  refine ⟨fun a ha => ?_, fun o ho => ?_⟩
  · rw [hmem]
    exact h.mem a ha
  · refine Eq.trans ?_ (h.reg o ho)
    unfold State.reg
    rw [hregs]

theorem Within.ite {c : Prop} {_ : Decidable c} {u : State} (ht : Within p s t) (hu : Within p s u) :
    Within p s (if c then t else u) := by
  split
  · exact ht
  · exact hu

/-- A register outside the pages of the Drip sequencers is written. -/
theorem Within.setReg (h : Within p s t) {o : Nat} (ho : ¬ dlPage o) (v : Nat) : Within p s (t.setReg o v) := by
  refine ⟨h.mem, fun x hx => ?_⟩
  rw [t.reg_setReg_other v (by rintro rfl; exact ho hx)]
  exact h.reg x hx

theorem Within.count (h : Within p s t) {o : Nat} (ho : ¬ dlPage o) (n : Nat) : Within p s (t.count o n) := h.setReg ho _

theorem Within.sendVec (h : Within p s t) (f v) : Within p s (t.sendVec f v) := .ite h h.of_eq

theorem Within.hiErr (h : Within p s t) (bit) : Within p s (t.hiErr bit) := by
  have hcause : Within p s (t.setReg (hiBlock + 0x00C) (t.regN (hiBlock + 0x00C) ||| 2 ^ bit)) :=
    h.setReg (by unfold dlPage; decide) _
  exact .ite hcause (hcause.sendVec ..)

/-- The pages of the banks lie above those of the Drip sequencers (R461). -/
theorem not_dlPage_of_bkBlock_le {o : Nat} (h : bkBlock ≤ o) : ¬ dlPage o :=
  fun ho => absurd (Nat.lt_of_le_of_lt h ho.2) (by decide)

theorem not_dlPage_bkPage (d o : Nat) : ¬ dlPage (bkBlock + 0x10000 * d + o) := not_dlPage_of_bkBlock_le (by omega)

theorem Within.eccReport (h : Within p s t) (m k bad) : Within p s (t.eccReport m k bad) := by
  unfold State.eccReport
  split
  · exact h
  · extract_lets b _ _ t₁ t₂ _ t₃
    have hpage (o : Nat) : ¬ dlPage (b + o) := not_dlPage_bkPage _ o
    have h₁ : Within p s t₁ := h.count (by split <;> exact hpage _) _
    have h₂ : Within p s t₂ := .ite ((h₁.setReg (hpage _) _).setReg (hpage _) _) h₁
    have h₃ : Within p s t₃ := h₂.of_eq
    exact .ite (((h₃.setReg (hpage _) _).of_eq).hiErr _) h₂

theorem Within.noteReads (h : Within p s t) (m a n) : Within p s (t.noteReads m a n) := by
  unfold State.noteReads
  extract_lets
  refine foldl_keeps (fun u k hu => ?_) _ h
  extract_lets u₁
  have hu₁ : Within p s u₁ := hu.eccReport ..
  exact .ite hu₁ hu₁.of_eq

theorem Within.collided (h : Within p s t) (d m) : Within p s (t.collided d m) := by
  unfold State.collided
  extract_lets t₁ t₂
  have h₁ : Within p s t₁ := h.count (not_dlPage_bkPage _ _) _
  have h₂ : Within p s t₂ := .ite (h₁.count (by unfold dlPage; decide) _) h₁
  exact .ite h₂.of_eq h₂

/-- Bytes that are put at addresses whose keys p names. -/
theorem memKept_putBytes (t : State) (a n : Nat) (bs : List Byte) :
    ∀ (b : Nat) (m : Memory), (∀ i < bs.length, p (t.key (b + i))) → ∀ k, ¬ p k → rdByte (t.putBytes a n b bs m) k = rdByte m k := by
  induction bs with
  | nil => exact fun _ _ _ _ _ => rfl
  | cons x xs ih =>
    intro b m hp k hk
    have hrest : ∀ i < xs.length, p (t.key (b + 1 + i)) := fun i hi => by
      rw [Nat.add_right_comm]
      exact hp (i + 1) (Nat.succ_lt_succ hi)
    refine (ih (b + 1) _ hrest k hk).trans ?_
    split
    · exact tget_tset_other 0 m x (by rintro rfl; exact hk (hp 0 (Nat.succ_pos _)))
    · rfl

/-- A store at addresses whose keys p names. -/
theorem Within.store (h : Within p s t) {a : Nat} {bs : List Byte} (hp : ∀ i < bs.length, p (s.key (a + i))) :
    Within p s (t.store a bs) := by
  have hput : ∀ i < bs.length, p (t.key (a + i)) := fun i hi => by
    rw [h.key]
    exact hp i hi
  exact ⟨fun k hk => (memKept_putBytes t a bs.length bs a t.mem hput k hk).trans (h.mem k hk), h.reg⟩

/-- The part of a write that falls into a word lies within the write. -/
theorem wordChunks_within {a : Nat} {bs : List Byte} {c : Nat × List Byte} (hc : c ∈ wordChunks a bs) :
    a ≤ c.1 ∧ c.1 + c.2.length ≤ max c.1 (a + bs.length) := by
  obtain ⟨i, -, rfl⟩ := List.mem_map.mp hc
  simp only [List.length_take, List.length_drop]
  omega

/-- A write of which some words may lose a collision, at addresses whose keys p names. -/
theorem Within.storeLost (h : Within p s t) (m lost) {a : Nat} {bs : List Byte} (hp : ∀ i < bs.length, p (s.key (a + i))) :
    Within p s (t.storeLost m a bs lost) := by
  refine .ite (h.store hp) (List.foldlRecOn (motive := Within p s) _ _ h fun u hu c hc => ?_)
  split
  · exact hu.collided ..
  · refine hu.store fun i hi => ?_
    have hlo := (wordChunks_within hc).1
    have hhi := (wordChunks_within hc).2
    have hi' : c.1 - a + i < bs.length := by omega
    have := hp _ hi'
    rwa [show a + (c.1 - a + i) = c.1 + i by omega] at this

end

/-! ### O7: the stores of an Espalier array -/

/-- The result of a complex column (R58). -/
def complexRes : ColRes → Bool
  | .cplx .. => true
  | _ => false

/-- A column's result is complex where its operands are CI16 (R58, R68). -/
theorem complexRes_colResult (a w : Fmt) (exact eMin conj x xs y ys k) :
    complexRes (colResult a w exact eMin conj x xs y ys k).1 = true ↔ a = .ci16 := by
  have hreal : ∀ (a : Fmt) {r : ColRes}, a ≠ .ci16 → complexRes r = false → (complexRes r = true ↔ a = .ci16) :=
    fun _ _ ha hr => by simp [ha, hr]
  unfold colResult
  split
  next => simp [complexRes]
  next =>
    refine hreal _ (by decide) ?_
    dsimp only
    split <;> rfl
  next hc _ =>
    refine hreal _ hc ?_
    dsimp only
    split
    · split <;> rfl
    · split <;> rfl

/-- A plain store of a column's result writes an element's bytes (R68). -/
theorem length_plain {r : ColRes} {o : Fmt} (h : complexRes r = true → o = .ci16 ∨ o = .ci32) (b sh rnd symm) :
    (r.plain o b sh rnd symm).1.length = o.bytes := by
  unfold ColRes.plain
  split
  next => exact length_leBytes ..
  next hne =>
    obtain rfl | rfl := h rfl
    · exact absurd rfl hne
    · exact length_leBytes ..
  next => exact length_leBytes ..
  next => exact length_leBytes ..

/-- A store that adds onto its destination writes an element's bytes (R64). -/
theorem length_accum {r : ColRes} {o : Fmt} (h : complexRes r = true ↔ o = .ci16 ∨ o = .ci32) (ho : accOk o = true) (b prior) :
    (r.accum o b prior).1.length = o.bytes := by
  unfold ColRes.accum
  dsimp only
  split
  next =>
    obtain rfl | rfl := h.mp rfl
    · cases ho
    · exact length_leBytes ..
  next => exact length_leBytes ..
  next => exact length_leBytes ..
  next hc _ hl =>
    have hreal : complexRes r = false := by
      cases r
      case cplx => exact absurd rfl (hc _ _)
      all_goals rfl
    have hbytes : o.bytes = 4 := by
      cases o <;> simp_all [accOk, Fmt.bytes]
    rw [hbytes]
    exact length_leBytes ..

/-- Complex outputs are those of CI16 operands (R32). -/
theorem complex_of_outOk {a o : Fmt} (h : Fmt.outOk a o = true) : a = .ci16 ↔ o = .ci16 ∨ o = .ci32 := by
  cases o <;> cases a <;> simp_all [Fmt.outOk, Fmt.isFp8]

/-- A fold that appends n elements for each item. -/
theorem length_foldl_append {α β γ : Type} {f : List β × γ → α → List β × γ} {n : Nat} {l : List α}
    (hf : ∀ y, ∀ x ∈ l, (f y x).1.length = y.1.length + n) (y : List β × γ) :
    (l.foldl f y).1.length = y.1.length + l.length * n := by
  induction l generalizing y with
  | nil => simp
  | cons x l ih =>
    obtain ⟨hx, hl⟩ := List.forall_mem_cons.mp fun x hx y => hf y x hx
    rw [List.foldl_cons, ih fun y x h => hl x h y, hx, List.length_cons]
    ring

section
variable {r : EsRun} {a w o : Fmt}

/-- What the checks of a pass's start say of its formats (R72). -/
theorem ok_of_formatBad {p : EsPass} (ha : Fmt.ofCode p.aFmt = some a) (ho : Fmt.ofCode p.oFmt = some o)
    (h : p.formatBad = false) : Fmt.outOk a o = true ∧ (p.acc = true → accOk o = true) := by
  simp only [EsPass.formatBad, ha, ho, Bool.or_eq_false_iff, Bool.not_eq_false'] at h
  simp_all

/-- A row's bytes fill its destination range (R43, R62). -/
theorem length_rowBytes (s : State) (m : Nat) (hout : Fmt.outOk a o = true) (hacc : r.pass.acc = true → accOk o = true) :
    (s.rowBytes r a w o m).1.length = (r.pass.dstRange o r.tile.stage.nAct m).2 := by
  unfold State.rowBytes
  extract_lets t p b dst rnd cols
  have hcols : cols * o.bytes = (r.pass.dstRange o r.tile.stage.nAct m).2 := by
    unfold cols EsPass.dstRange
    split
    next h => simp [h, Fmt.bytes]
    next => rfl
  refine (length_foldl_append (n := o.bytes) (fun y c hc => ?_) _).trans ?_
  · extract_lets x res z
    have hres : complexRes res.1 = true ↔ o = .ci16 ∨ o = .ci32 := by
      unfold res
      split
      next => rw [complexRes_colResult, complex_of_outOk hout]
      next hpad =>
        have hlps : o = .lps := by
          by_contra hne
          simp [cols, hne, hpad] at hc
        simp [complexRes, hlps]
    have hz : z.1.length = o.bytes := by
      unfold z
      split
      next h => exact length_accum hres (hacc h) ..
      next => exact length_plain hres.mp ..
    simp [hz]
  · simp [hcols]

theorem length_lpsHeader (base src flags) : (lpsHeader base src flags).length = 16 := by
  simp [lpsHeader, length_leBytes]

/-- The keys where the presented rows of a pass may be stored: their destination ranges, and the header of an LPS
destination. -/
def groupKey (s : State) (r : EsRun) (o : Fmt) (k : Nat) : Prop :=
  (∃ m ∈ r.group, ∃ i < (r.pass.dstRange o r.tile.stage.nAct m).2,
    k = s.key ((r.pass.dstRange o r.tile.stage.nAct m).1 + i)) ∨
  (o = .lps ∧ ∃ i < 16, k = s.key (r.pass.dst + i))

/-- A presented row is stored in its destination and, where that is LPS, in its header (R43, R61, R62, R102). -/
theorem Within.writeRow {s t : State} {m : Nat} (h : Within (groupKey s r o) s t) (hm : m ∈ r.group)
    (ho : Fmt.ofCode r.pass.oFmt = some o) (hbad : r.pass.formatBad = false) (g lost) :
    Within (groupKey s r o) s (t.writeRow g r m lost).1 := by
  have hrow {bs : List Byte} (hbs : bs.length = (r.pass.dstRange o r.tile.stage.nAct m).2) :
      ∀ i < bs.length, groupKey s r o (s.key ((r.pass.dstRange o r.tile.stage.nAct m).1 + i)) :=
    fun i hi => .inl ⟨m, hm, i, hbs ▸ hi, rfl⟩
  have hheader {bs : List Byte} (hbs : bs.length = if o = .lps then 16 else 0) :
      ∀ i < bs.length, groupKey s r o (s.key (r.pass.dst + i)) := fun i hi => by
    rw [hbs] at hi
    split at hi
    next hlps => exact .inr ⟨hlps, i, hi, rfl⟩
    next => exact absurd hi (Nat.not_lt_zero i)
  unfold State.writeRow
  split
  next a w o' ha hw ho' =>
    obtain rfl : o = o' := Option.some.inj (ho.symm.trans ho')
    obtain ⟨hout, hacc⟩ := ok_of_formatBad ha ho hbad
    extract_lets x d n u t₁ t₂ old
    have hx : x.1.length = d.2 := length_rowBytes t m hout hacc
    have hu : Within (groupKey s r o) s u := (h.store (hrow (length_freeBytes ..))).store (hheader (length_freeBytes ..))
    have h₁ : Within (groupKey s r o) s t₁ := .ite (h.noteReads ..) h
    have h₂ : Within (groupKey s r o) s t₂ := h₁.storeLost _ _ (hrow hx)
    split
    · exact hu.of_eq
    · split
      next hlps => exact h₂.storeLost _ _ (hheader (by rw [if_pos hlps, length_lpsHeader]))
      next => exact h₂
  next => exact h

/-- The command of a unit does nothing where the unit is halted. -/
theorem unlessHalted_next {u : StopUnit} {c : Out} {s t : State} (h : unlessHalted s u c = .next t) : t = s ∨ c = .next t := by
  unfold unlessHalted at h
  split at h
  · exact .inl (Host.Outcome.next.inj h).symm
  · exact .inr h

/-- A row write stores in the destinations of the presented rows (R63, R64). -/
theorem within_execEsRowWrite {s t : State} {x : EsStore} (hr : (s.esOf x.array).writer = some r)
    (ho : Fmt.ofCode r.pass.oFmt = some o) (hbad : r.pass.formatBad = false) (e : execEsRowWrite x s = .next t) :
    Within (groupKey s r o) s t := by
  unfold execEsRowWrite at e
  obtain rfl | e := unlessHalted_next e
  · exact .refl ..
  · simp only [hr] at e
    refine onlyIf_keeps e (.refl ..) fun _ => Within.of_eq (t := (r.group.foldl _ (s, 0)).1) ?_
    exact List.foldlRecOn (motive := fun y : State × Nat => Within (groupKey s r o) s y.1) _ _ (.refl ..)
      fun y hy m hm => hy.writeRow hm ho hbad ..

end

/-- Settles O7: each presented row is stored in its own destination, and the command stores nothing else. -/
theorem espalierStores : Obligations.EspalierStores := by
  unfold Obligations.EspalierStores
  exact fun _ _ _ _ _ _ hr hbad _ ho e => (within_execEsRowWrite hr ho hbad e).mem

end Sys2Proof

namespace Sys2Proof
open Machine

/-! ### O8: the commands of the Drip sequencers -/

section
variable {s : State} {m : Agent} {n : Fin 4}

theorem agentIf_drives {d : Die} (h : Drives m d s) (t : State) : agentIf m (s.coreMayWrite m d) s t = .next t := by
  obtain ⟨⟨hrun, hfree⟩, hwrite⟩ := h
  exact agentIf_acts hrun hfree hwrite t

theorem dlOf_setDl (h : Safe s) (n : Nat) (e : DripSeq) : (s.setDl n e).dlOf n = e := by
  obtain ⟨-, -, -, -, hdl, -⟩ := h
  exact s.dlOf_setDl_same hdl n e

theorem dlOf_setDl_dlIrq (h : Safe s) (n : Fin 4) (e : DripSeq) : ((s.setDl n e).dlIrq n).dlOf n = e := dlOf_setDl h n e

/-! #### What the helpers of the commands leave -/

theorem dl_loseOutput (s : State) (j : DlJob) : (s.loseOutput j).dl = s.dl := by
  unfold State.loseOutput
  split
  · rfl
  · exact foldl_keeps (P := fun t => t.dl = s.dl) (fun t v ht => ((t.store _ _).drew_dl _).trans ((t.store_dl ..).trans ht)) _ rfl

/-- An error that is reported writes no memory, and nothing of the radio. -/
theorem hiErr_keeps (s : State) (bit : Nat) : (s.hiErr bit).mem = s.mem ∧ (s.hiErr bit).fh = s.fh := by
  unfold State.hiErr State.sendVec
  extract_lets t
  have ht : t.mem = s.mem ∧ t.fh = s.fh := ⟨rfl, rfl⟩
  split_ifs
  · exact ht
  · exact ht
  · exact ht

theorem eccReport_keeps (s : State) (m k : Nat) (bad : Bool) :
    (s.eccReport m k bad).mem = s.mem ∧ (s.eccReport m k bad).fh = s.fh := by
  unfold State.eccReport
  split
  · exact ⟨rfl, rfl⟩
  · extract_lets b _ _ t₁ t₂ _ t₃
    have ht₂ : t₂.mem = s.mem ∧ t₂.fh = s.fh := by
      unfold t₂
      split <;> exact ⟨rfl, rfl⟩
    obtain ⟨hmem, hfh⟩ := ht₂
    split
    · exact ⟨(hiErr_keeps ..).1.trans hmem, (hiErr_keeps ..).2.trans hfh⟩
    · exact ⟨hmem, hfh⟩

theorem noteReads_keeps (s : State) (m a n : Nat) : (s.noteReads m a n).mem = s.mem ∧ (s.noteReads m a n).fh = s.fh := by
  refine foldl_keeps (P := fun t => t.mem = s.mem ∧ t.fh = s.fh) (fun t k ⟨hmem, hfh⟩ => ?_) _ ⟨rfl, rfl⟩
  obtain ⟨hmem', hfh'⟩ := eccReport_keeps t m k (t.wordBad k)
  dsimp only
  split
  · exact ⟨hmem'.trans hmem, hfh'.trans hfh⟩
  · exact ⟨hmem'.trans hmem, hfh'.trans hfh⟩

theorem mem_noteRanges (s : State) (m : Nat) (rs : List (Nat × Nat)) : (s.noteRanges m rs).mem = s.mem :=
  foldl_keeps (P := fun t => t.mem = s.mem) (fun t r ht => (noteReads_keeps t m r.1 r.2).1.trans ht) _ rfl

theorem dl_traceWrite (s : State) (r : List Byte) : (s.traceWrite r).dl = s.dl := by
  unfold State.traceWrite
  split
  · rfl
  · dsimp only
    split_ifs <;> rfl

theorem dl_trace (s : State) (kind unit layer op fn arg : Nat) : (s.trace kind unit layer op fn arg).dl = s.dl := by
  unfold State.trace
  dsimp only
  split
  · exact dl_traceWrite ..
  · rfl

/-- The count, the trace record and the interrupt at a job's end leave the sequencer. -/
theorem dlOf_done (h : Safe s) (n : Fin 4) (e : DripSeq) (irq : Bool) (o k kind unit layer op fn arg : Nat) :
    (if irq = true then (((s.setDl n e).count o k).trace kind unit layer op fn arg).dlIrq n
      else ((s.setDl n e).count o k).trace kind unit layer op fn arg).dlOf n = e := by
  have htrace : (((s.setDl n e).count o k).trace kind unit layer op fn arg).dlOf n = e :=
    (congrArg (fun dl => tget ({} : DripSeq) dl n.val) (dl_trace ..)).trans (dlOf_setDl h n e)
  split
  · exact htrace
  · exact htrace

/-! #### DL_CTRL and the job FIFO -/

/-- DL_CTRL with ENABLE and IRQ_CORE as written (R86). -/
def dlEnableRegs (s : State) (n : Fin 4) (on : Bool) (k : BitVec 1) : State :=
  (s.setRegB (dlReg n 0) 0 0 (b2n on)).setRegB (dlReg n 0) 4 4 k.toNat

theorem regBit_dlEnableRegs (hs : Safe s) (on : Bool) (k : BitVec 1) : (dlEnableRegs s n on k).regBit (dlReg n 0) 0 = on := by
  obtain ⟨-, -, hregs, -⟩ := hs
  have hregs' := s.sorted_setRegB hregs (dlReg n 0) 0 0 (b2n on)
  unfold dlEnableRegs
  rw [State.regBit_setRegB_field _ hregs' _ _ (by decide) (by decide) (by decide), s.regBit_setRegB_same hregs _ _ (by decide)]
  cases on <;> rfl

theorem regB_dlEnableRegs (hs : Safe s) (on : Bool) (k : BitVec 1) :
    (dlEnableRegs s n on k).regB (dlReg n 0) 4 4 = k.toNat := by
  obtain ⟨-, -, hregs, -⟩ := hs
  have hregs' := s.sorted_setRegB hregs (dlReg n 0) 0 0 (b2n on)
  exact (State.regB_setRegB_same _ hregs' _ _ (by decide) (by decide)).trans (Nat.mod_eq_of_lt k.isLt)

theorem runs_dlCtrlEnable (hs : Safe s) (hd : Drives m (.gd n) s) (on : Bool) (k : BitVec 1) :
    Runs (.dlCtrlEnable m n on k) s (fun t =>
      t.regBit (dlReg n 0) 0 = on ∧ t.regB (dlReg n 0) 4 4 = k.toNat ∧
      (on = true → (s.dlOf n).halt = .aborted → (t.dlOf n).halt = .none ∧ (t.dlOf n).errCode = 0)) := by
  have hbit := regBit_dlEnableRegs (n := n) hs on k
  have hcore := regB_dlEnableRegs (n := n) hs on k
  refine ⟨_, agentIf_drives hd _, ?_⟩
  split
  · exact ⟨hbit, hcore, fun _ _ => by rw [dlOf_setDl ((hs.setRegB ..).setRegB ..)]; exact ⟨rfl, rfl⟩⟩
  next hleft => exact ⟨hbit, hcore, fun hon hhalt => absurd (by simp [hon, hhalt]) hleft⟩

theorem runs_dlCtrlStop (hs : Safe s) (hd : Drives m (.gd n) s) :
    Runs (.dlCtrlStop m n) s (fun t => t.regBit (dlReg n 0) 2 = true) := by
  obtain ⟨-, -, hregs, -⟩ := hs
  exact ⟨_, agentIf_drives hd _, s.regBit_setRegB_same hregs _ _ (by decide)⟩

theorem runs_dlCtrlUnstop (hs : Safe s) (hd : Drives m (.gd n) s) :
    Runs (.dlCtrlUnstop m n) s (fun t => t.regBit (dlReg n 0) 2 = false) := by
  obtain ⟨-, -, hregs, -⟩ := hs
  exact ⟨_, agentIf_drives hd _, s.regBit_setRegB_same hregs _ _ (by decide)⟩

/-- The jobs that wait enter an empty FIFO, the oldest first, with the push values from PUSHED on (R71). -/
theorem head_refill {e : DripSeq} {q : DlJob} {rest : List DlJob} (hf : e.jfifo = []) (hq : e.jStall = q :: rest) :
    e.refill.jfifo.head? = some { q with seq := (e.pushed + 1) % 65536 } := by
  simp [DripSeq.refill, hf, hq]

/-- Where no push waits the FIFO stays. -/
theorem refill_of_jStall (e : DripSeq) (h : e.jStall = []) : e.refill.jfifo = e.jfifo ∧ e.refill.pushed = e.pushed % 65536 := by
  simp [DripSeq.refill, h]

/-- A push enters a FIFO that has room, and PUSHED advances (R71). -/
theorem refill_push {e : DripSeq} (h : e.jStall = []) (hlen : e.jfifo.length < 8) (j : DlJob) :
    ({ e with jStall := e.jStall ++ [j] } : DripSeq).refill.pushed = (e.pushed + 1) % 65536 ∧
    ({ e with jStall := e.jStall ++ [j] } : DripSeq).refill.jfifo = e.jfifo ++ [{ j with seq := (e.pushed + 1) % 65536 }] := by
  obtain ⟨r, hr⟩ : ∃ r, 8 - e.jfifo.length = r + 1 := ⟨7 - e.jfifo.length, by omega⟩
  simp [DripSeq.refill, h, hr]

/-- What an ABORT leaves of the sequencer, before the pushes that waited enter (R73, R87). -/
def dlAborted (e : DripSeq) : DripSeq :=
  let idle : DripSeq := { e with
    jfifo := [], loaded := none, run := none, pushed := e.done, errCode := 0, lost := none, halt := .aborted }
  match e.run with
  | some (j, _) => { idle with halt := .error, errCode := 7, errSeq := j.seq, errGroup := j.first }
  | none => idle

/-- Whatever ran, both slot sets and the FIFO are empty after an ABORT, and PUSHED is DONE (R73). -/
theorem dlAborted_empty (e : DripSeq) :
    (dlAborted e).jfifo = [] ∧ (dlAborted e).jStall = e.jStall ∧ (dlAborted e).pushed = e.done ∧ (dlAborted e).done = e.done ∧
      (dlAborted e).loaded = none ∧ (dlAborted e).run = none := by
  unfold dlAborted
  extract_lets
  split
  · exact ⟨rfl, rfl, rfl, rfl, rfl, rfl⟩
  · exact ⟨rfl, rfl, rfl, rfl, rfl, rfl⟩

/-- What an ABORT does to memory: a running job's output is lost (R87). -/
def dlAbortLost (s : State) (n : Fin 4) : State :=
  match (s.dlOf n).run with
  | some (j, _) => s.loseOutput j
  | none => s

theorem exec_dlCtrlAbort (hs : Safe s) (hd : Drives m (.gd n) s) : Runs (.dlCtrlAbort m n) s (fun t =>
    t.dlOf n = (dlAborted (s.dlOf n)).refill ∧ t.mem = (dlAbortLost s n).mem) := by
  have hlost : Safe (dlAbortLost s n) := by
    unfold dlAbortLost
    split
    · exact hs.loseOutput _
    · exact hs
  have hset := dlOf_setDl hlost n (dlAborted (s.dlOf n)).refill
  refine ⟨_, agentIf_drives hd _, ?_⟩
  split
  · exact ⟨hset, rfl⟩
  · exact ⟨hset, rfl⟩

theorem runs_dlCtrlAbort (hs : Safe s) (hd : Drives m (.gd n) s) :
    Runs (.dlCtrlAbort m n) s (fun t =>
      (t.dlOf n).loaded = none ∧ (t.dlOf n).run = none ∧ (t.dlOf n).done = (s.dlOf n).done ∧
      ((s.dlOf n).jStall = [] → (t.dlOf n).jfifo = [] ∧ (t.dlOf n).pushed = (s.dlOf n).done % 65536) ∧
      (∀ q rest, (s.dlOf n).jStall = q :: rest →
        (t.dlOf n).jfifo.head? = some { q with seq := ((s.dlOf n).done + 1) % 65536 }) ∧
      ((s.dlOf n).run = none → (t.dlOf n).halt = .aborted ∧ t.mem = s.mem) ∧
      (∀ j vs, (s.dlOf n).run = some (j, vs) →
        (t.dlOf n).halt = .error ∧ (t.dlOf n).errCode = 7 ∧ (t.dlOf n).errSeq = j.seq)) := by
  obtain ⟨t, he, hdl, hmem⟩ := exec_dlCtrlAbort hs hd
  obtain ⟨hfifo, hstall, hpushed, hdone, hloaded, hrun⟩ := dlAborted_empty (s.dlOf n)
  refine ⟨t, he, ?_⟩
  beta_reduce
  rw [hdl, hmem]
  refine ⟨hloaded, hrun, hdone, fun h => ?_, fun q rest h => ?_, fun h => ?_, fun j vs h => ?_⟩
  · obtain ⟨hrefill, hval⟩ := refill_of_jStall _ (hstall.trans h)
    exact ⟨hrefill.trans hfifo, hpushed ▸ hval⟩
  · exact hpushed ▸ head_refill hfifo (hstall.trans h)
  · simp [dlAborted, dlAbortLost, DripSeq.refill, h]
  · simp [dlAborted, DripSeq.refill, h]

theorem runs_dlCtrlResume (hs : Safe s) (hd : Drives m (.gd n) s) (hhalt : (s.dlOf n).halt = .error) :
    Runs (.dlCtrlResume m n) s (fun t =>
      (t.dlOf n).halt = .none ∧ (t.dlOf n).errCode = 0 ∧ (t.dlOf n).jfifo = (s.dlOf n).jfifo ∧
      (t.dlOf n).done = if (s.dlOf n).errCode = 7 then (s.dlOf n).done else ((s.dlOf n).done + 1) % 65536) := by
  obtain ⟨⟨hrun, hfree⟩, hwrite⟩ := hd
  refine ⟨_, agentIf_acts hrun hfree (by simp [hwrite, hhalt]) _, ?_⟩
  beta_reduce
  rw [dlOf_setDl hs]
  exact ⟨rfl, rfl, rfl, rfl⟩

theorem runs_dlCtrlClrCnt (hs : Safe s) (hd : Drives m (.gd n) s) :
    Runs (.dlCtrlClrCnt m n) s (fun t => (t.dlOf n).cntBusy = 0 ∧ (t.dlOf n).cntWait = 0) := by
  refine ⟨_, agentIf_drives hd _, ?_⟩
  beta_reduce
  rw [dlOf_setDl hs]
  exact ⟨rfl, rfl⟩

theorem runs_dlJPush (hs : Safe s) (hd : Drives m (.gd n) s) (hhalt : (s.dlOf n).halt ≠ .error) :
    Runs (.dlJPush m n) s (fun t =>
      t.dlOf n = ({ s.dlOf n with jStall := (s.dlOf n).jStall ++ [dlJobRegs s n] } : DripSeq).refill ∧
      ((s.dlOf n).jStall = [] → (s.dlOf n).jfifo.length < 8 →
        (t.dlOf n).pushed = ((s.dlOf n).pushed + 1) % 65536 ∧
        (t.dlOf n).jfifo = (s.dlOf n).jfifo ++ [{ dlJobRegs s n with seq := ((s.dlOf n).pushed + 1) % 65536 }])) := by
  obtain ⟨⟨hrun, hfree⟩, hwrite⟩ := hd
  refine ⟨_, agentIf_acts hrun hfree (by simp [hwrite, hhalt]) _, ?_⟩
  beta_reduce
  rw [dlOf_setDl hs]
  exact ⟨rfl, fun hstall hlen => refill_push hstall hlen _⟩

/-- A push in ERROR is discarded (R71). -/
theorem exec_dlJPush_error (hd : Drives m (.gd n) s) (hhalt : (s.dlOf n).halt = .error) : exec (.dlJPush m n) s = .next s :=
  agentIf_ignored hd.1 (by simp [hhalt]) _

theorem runs_dlCntLoRead (hs : Safe s) (h : (s.isPf m || s.coreMayWrite m (.gd n)) = true) (c : Fin 2) :
    Runs (.dlCntLoRead m n c) s (fun t => (t.dlOf n).latch = lmod (s.dlOf n).latch c
      (fun _ => (if c.val = 0 then (s.dlOf n).cntBusy else (s.dlOf n).cntWait) / 2 ^ 32)) := by
  refine ⟨_, onlyIf_true h _ _, ?_⟩
  beta_reduce
  rw [dlOf_setDl hs]

/-! #### Jobs -/

section
variable {j : DlJob} {rest : List DlJob} {vs : List ActRow}

theorem runs_dlActLoad (hs : Safe s) (hhalt : s.halted .inference = false) (hj : (s.dlOf n).jfifo = j :: rest)
    (hgo : s.dlGoes n = true) (hl : (s.dlOf n).loaded = none) :
    Runs (.dlActLoad n) s (fun t => (t.dlOf n).loaded = some (s.readVecs n j) ∧ t.mem = s.mem) := by
  have he : exec (.dlActLoad n) s = execDlActLoad n s := rfl
  unfold Runs
  rw [he, execDlActLoad, unlessHalted_runs hhalt]
  simp only [hj]
  refine ⟨_, onlyIf_true (by simp [hgo, hl]) _ _, ?_, mem_noteRanges ..⟩
  rw [dlOf_setDl (hs.noteRanges ..)]

theorem runs_dlJobStart (hs : Safe s) (hhalt : s.halted .inference = false) (hj : (s.dlOf n).jfifo = j :: rest)
    (hstall : (s.dlOf n).jStall = []) (hl : (s.dlOf n).loaded = some vs) (hgo : s.dlGoes n = true)
    (hrun : (s.dlOf n).run = none) (hcode : (s.jobStartCode n j).1 = 0) (w : Nat) :
    Runs (.dlJobStart n w) s (fun t =>
      (t.dlOf n).run = some (j, vs) ∧ (t.dlOf n).jfifo = rest ∧ (t.dlOf n).loaded = none ∧
      (t.dlOf n).cntBusy = ((s.dlOf n).cntBusy + j.readCycles) % 2 ^ 64 ∧ t.mem = s.mem) := by
  have he : exec (.dlJobStart n w) s = execDlJobStart n w s := rfl
  unfold Runs
  rw [he, execDlJobStart, unlessHalted_runs hhalt]
  simp only [hj, hl]
  refine ⟨_, onlyIf_true (by simp [hgo, hrun]) _ _, ?_⟩
  rw [if_pos hcode, dlOf_setDl hs]
  exact ⟨rfl, (refill_of_jStall _ (by exact hstall)).1, rfl, rfl, rfl⟩

theorem runs_dlJobStart_error (hs : Safe s) (hhalt : s.halted .inference = false) (hj : (s.dlOf n).jfifo = j :: rest)
    (hl : (s.dlOf n).loaded = some vs) (hgo : s.dlGoes n = true) (hrun : (s.dlOf n).run = none)
    (hcode : (s.jobStartCode n j).1 ≠ 0) (w : Nat) :
    Runs (.dlJobStart n w) s (fun t =>
      (t.dlOf n).halt = .error ∧ (t.dlOf n).errCode = (s.jobStartCode n j).1 ∧
      (t.dlOf n).errGroup = (s.jobStartCode n j).2 ∧ (t.dlOf n).errSeq = j.seq ∧ (t.dlOf n).run = none ∧
      ((s.jobStartCode n j).1 = 5 → t.mem = s.mem)) := by
  have he : exec (.dlJobStart n w) s = execDlJobStart n w s := rfl
  unfold Runs
  rw [he, execDlJobStart, unlessHalted_runs hhalt]
  simp only [hj, hl]
  refine ⟨_, onlyIf_true (by simp [hgo, hrun]) _ _, ?_⟩
  rw [if_neg hcode]
  have hlost : Safe (if (s.jobStartCode n j).1 = 5 then s else s.loseOutput j) := .ite hs (hs.loseOutput _)
  rw [dlOf_setDl_dlIrq hlost]
  exact ⟨rfl, rfl, rfl, rfl, hrun, fun h5 => by rw [if_pos h5]; rfl⟩

theorem runs_dlJobDone {a w o : Fmt} (hs : Safe s) (hhalt : s.halted .inference = false) (hrun : (s.dlOf n).run = some (j, vs))
    (he : s.jobError n j vs = none) (ha : Fmt.ofCode j.aFmt = some a) (hw : Fmt.ofCode j.wFmt = some w)
    (ho : Fmt.ofCode j.oFmt = some o) :
    Runs (.dlJobDone n) s (fun t => (t.dlOf n).run = none ∧ (t.dlOf n).done = ((s.dlOf n).done + 1) % 65536) := by
  have hexec : exec (.dlJobDone n) s = execDlJobDone n s := rfl
  unfold Runs
  rw [hexec, execDlJobDone, unlessHalted_runs hhalt]
  simp only [hrun, he, ha, hw, ho]
  refine ⟨_, rfl, ?_⟩
  rw [dlOf_done]
  · exact ⟨rfl, rfl⟩
  · exact List.foldlRecOn (motive := fun y : State × Nat => Safe y.1) _ _ hs fun _ hy _ _ => hy.writeVec ..

theorem runs_dlJobError {code g : Nat} (hs : Safe s) (hhalt : s.halted .inference = false)
    (hrun : (s.dlOf n).run = some (j, vs)) (he : s.jobError n j vs = some (code, g)) :
    Runs (.dlJobError n) s (fun t =>
      (t.dlOf n).run = none ∧ (t.dlOf n).halt = .error ∧ (t.dlOf n).errCode = code ∧ (t.dlOf n).errGroup = g ∧
      (t.dlOf n).errSeq = j.seq ∧ (t.dlOf n).done = (s.dlOf n).done) := by
  have hexec : exec (.dlJobError n) s = execDlJobError n s := rfl
  unfold Runs
  rw [hexec, execDlJobError, unlessHalted_runs hhalt]
  simp only [hrun, he]
  refine ⟨_, rfl, ?_⟩
  rw [dlOf_setDl_dlIrq (hs.loseOutput _)]
  exact ⟨rfl, rfl, rfl, rfl, rfl, rfl⟩

end

end

/-- Settles O8, from the lemmas about each of the commands. -/
theorem dripCommands : Obligations.DripCommands := by
  unfold Obligations.DripCommands
  refine ⟨fun s m n hs hd => ⟨runs_dlCtrlEnable hs hd, runs_dlCtrlStop hs hd, runs_dlCtrlUnstop hs hd, runs_dlCtrlAbort hs hd,
      runs_dlCtrlResume hs hd, runs_dlCtrlClrCnt hs hd, runs_dlJPush hs hd, exec_dlJPush_error hd⟩,
    fun s m n c hs h => runs_dlCntLoRead hs h c, fun s n hs hhalt => ⟨?_, ?_, ?_, ?_, ?_⟩⟩
  · exact fun j rest hj hgo hl => runs_dlActLoad hs hhalt hj hgo hl
  · exact fun j rest vs w hj hstall hl hgo hrun hcode => runs_dlJobStart hs hhalt hj hstall hl hgo hrun hcode w
  · exact fun j rest vs w hj hl hgo hrun hcode => runs_dlJobStart_error hs hhalt hj hl hgo hrun hcode w
  · exact fun j vs a w o hrun he ha hw ho => runs_dlJobDone hs hhalt hrun he ha hw ho
  · exact fun j vs code g hrun he => runs_dlJobError hs hhalt hrun he

end Sys2Proof

namespace Sys2Proof
open Machine

/-! ### O25: the Dibbers -/

/-! #### Register sets and the table of Dibbers -/

section
variable {s : State} {c : Fin 48}

theorem dbOf_setDb (h : tsorted 0 s.fh.db = true) (c : Fin 48) (x : Dibber) : (s.setDb c x).dbOf c = x :=
  tget_tset_same _ h c.val x

theorem sorted_setDb (h : tsorted 0 s.fh.db = true) (c : Fin 48) (x : Dibber) : tsorted 0 (s.setDb c x).fh.db = true :=
  tsorted_tput _ h (Nat.zero_le _)

theorem regs_setRegs (x : Dibber) (r : DbRegs) : (x.setRegs r).regs = r := by
  unfold Dibber.setRegs
  split <;> simp_all [Dibber.regs]

/-- New registers of the set in use leave the rest of the Dibber. -/
theorem setRegs_keeps (x : Dibber) (r : DbRegs) :
    (x.setRegs r).cur = x.cur ∧ (x.setRegs r).halted = x.halted ∧ (x.setRegs r).loads = x.loads ∧ (x.setRegs r).dmem = x.dmem := by
  unfold Dibber.setRegs
  split <;> exact ⟨rfl, rfl, rfl, rfl⟩

/-- An instruction moves the program counter of the set in use. -/
theorem regs_stepPc (x : Dibber) : x.stepPc.regs = { x.regs with pc := (x.regs.pc + 1) % 2 ^ 16 } := regs_setRegs ..

/-- It leaves the vector registers, and the accumulators too. -/
theorem vec_stepPc (x : Dibber) (v : Fin 32) (l : Nat) : x.stepPc.regs.vec v l = x.regs.vec v l := by
  rw [regs_stepPc]
  rfl

theorem acc_stepPc (x : Dibber) (a : Fin 8) (l : Nat) : x.stepPc.regs.acc a l = x.regs.acc a l := by
  rw [regs_stepPc]
  rfl

theorem halted_stepPc (x : Dibber) : x.stepPc.halted = x.halted := (setRegs_keeps ..).2.1

/-- The flags that an operation sets leave all of the Dibber but its saturation counts. -/
theorem dbOf_dbFlags (h : tsorted 0 s.fh.db = true) (ovf sat : List Nat) (divz : Bool) :
    (s.dbFlags c ovf sat divz).dbOf c =
      { s.dbOf c with laneSat := sat.foldl (fun t l => tmod 0 t l (· + 1)) (s.dbOf c).laneSat } :=
  dbOf_setDb h c _

theorem dbFlags_keeps (h : tsorted 0 s.fh.db = true) (ovf sat : List Nat) (divz : Bool) :
    ((s.dbFlags c ovf sat divz).dbOf c).regs = (s.dbOf c).regs ∧ ((s.dbFlags c ovf sat divz).dbOf c).dmem = (s.dbOf c).dmem := by
  rw [dbOf_dbFlags h]
  exact ⟨rfl, rfl⟩

theorem mem_dbFlags (s : State) (c : Fin 48) (ovf sat : List Nat) (divz : Bool) :
    (s.dbFlags c ovf sat divz).mem = s.mem := rfl

/-! #### Interrupts -/

/-- The strobe that raises SYM or SLOT is taken off those that have fired. -/
def strobeTaken (s : State) (c : Fin 48) (slot : Bool) : State :=
  { s with td := { s.td with signals := lrmFirst (· == 2 * c.val + b2n slot) s.td.signals } }

theorem dbRaise_eq (s : State) (c : Fin 48) (slot : Bool) :
    s.dbRaise c slot =
      if !s.regBit (dbReg c 0) (if slot then 4 else 3) || !s.dbOn c then strobeTaken s c slot
      else if (if slot then (s.dbOf c).slotPend else (s.dbOf c).symPend) then
        ((strobeTaken s c slot).setReg (dbReg c 0x08) (s.regN (dbReg c 0x08) ||| (if slot then 16 else 8))).count (dbReg c 0x14) 1
      else (strobeTaken s c slot).setDb c
        (if slot then { s.dbOf c with slotPend := true } else { s.dbOf c with symPend := true }) := rfl

/-- A SYM that is enabled and not pending yet becomes pending (R222). -/
theorem dbRaise_sym (hon : s.dbOn c = true) (hen : s.regBit (dbReg c 0) 3 = true) (hx : (s.dbOf c).symPend = false) :
    s.dbRaise c false = (strobeTaken s c false).setDb c { s.dbOf c with symPend := true } := by
  simp [dbRaise_eq, hen, hon, hx]

/-- A SLOT that is enabled and not pending yet becomes pending (R222). -/
theorem dbRaise_slot (hon : s.dbOn c = true) (hen : s.regBit (dbReg c 0) 4 = true) (hx : (s.dbOf c).slotPend = false) :
    s.dbRaise c true = (strobeTaken s c true).setDb c { s.dbOf c with slotPend := true } := by
  simp [dbRaise_eq, hen, hon, hx]

/-- A count goes up by one whatever another register has taken before. -/
theorem regN_count_setReg {o x : Nat} (h : tsorted 0 s.regs = true) (v : Nat) (hx : x ≠ o) :
    ((s.setReg o v).count x 1).regN x = (satAdd (s.reg x) 1).toNat := by
  unfold State.count
  rw [State.regN_setReg_same _ (s.sorted_setReg h o v), s.reg_setReg_other v hx, Nat.mod_eq_of_lt (BitVec.isLt _)]

/-- A SYM that is pending already is lost and counted (R222). -/
theorem dbRaise_sym_lost (hon : s.dbOn c = true) (hen : s.regBit (dbReg c 0) 3 = true) (hx : (s.dbOf c).symPend = true) :
    s.dbRaise c false = ((strobeTaken s c false).setReg (dbReg c 0x08) (s.regN (dbReg c 0x08) ||| 8)).count (dbReg c 0x14) 1 := by
  simp [dbRaise_eq, hen, hon, hx]

theorem sorted_ite {p : Prop} {_ : Decidable p} {t : State} (hs : tsorted 0 s.fh.db = true) (ht : tsorted 0 t.fh.db = true) :
    tsorted 0 (if p then s else t).fh.db = true := by
  split
  · exact hs
  · exact ht

theorem sorted_dbRaise (h : tsorted 0 s.fh.db = true) (c : Fin 48) (slot : Bool) :
    tsorted 0 (s.dbRaise c slot).fh.db = true := by
  rw [dbRaise_eq]
  refine sorted_ite h ?_
  refine sorted_ite h ?_
  exact sorted_setDb (s := strobeTaken s c slot) h c _

/-- A halted core, and one that is in another set, leaves a pending SYM (R222). -/
theorem take_of_busy {x : Dibber} (hslot : x.slotPend = false) (h : x.halted = true ∨ x.cur ≠ .main) (b : Bool) :
    x.take b = x := by
  unfold Dibber.take
  obtain h | h := h <;> simp [h, hslot]

/-- A running core in MAIN takes a SYM (R222). -/
theorem take_sym {x : Dibber} (hrun : x.halted = false) (hslot : x.slotPend = false) (hsym : x.symPend = false)
    (hcur : x.cur = .main) (b : Bool) : ({ x with symPend := true } : Dibber).take b = { x with cur := .set1 } := by
  cases x
  simp_all [Dibber.take]

/-- A running core takes a SLOT in MAIN and in SET1, which is then held (R222). -/
theorem take_slot {x : Dibber} (hrun : x.halted = false) (hslot : x.slotPend = false) (hcur : x.cur ≠ .set2) (b : Bool) :
    ({ x with slotPend := true } : Dibber).take b =
      { x with held1 := x.held1 || x.cur == .set1, cur := .set2, bankB := b } := by
  cases x
  simp_all [Dibber.take]

/-- SET2 is not left for another SLOT (R222). -/
theorem take_of_set2 {x : Dibber} (hcur : x.cur = .set2) (b : Bool) : x.take b = x := by
  simp [Dibber.take, hcur]

section
variable (hhalt : s.halted .radio = false) (hdb : tsorted 0 s.fh.db = true)
include hhalt hdb

/-- A SYM is raised, and the core then takes what is pending (R222). -/
theorem runs_dibberSymIrq (hst : s.dbStrobed c false = true) :
    Runs (.dibberSymIrq c) s (fun t => t.dbOf c = ((s.dbRaise c false).dbOf c).take s.bankNow ∧
      t.regs = (s.dbRaise c false).regs) :=
  ⟨_, (unlessHalted_runs hhalt _).trans (onlyIf_true hst _ _), dbOf_setDb (sorted_dbRaise hdb ..) c _, rfl⟩

theorem runs_dibberSlotIrq (hst : s.dbStrobed c true = true) :
    Runs (.dibberSlotIrq c false) s (fun t => t.dbOf c = ((s.dbRaise c true).dbOf c).take s.bankNow) :=
  ⟨_, (unlessHalted_runs hhalt _).trans (onlyIf_true (by simp [hst]) _ _), dbOf_setDb (sorted_dbRaise hdb ..) c _⟩

/-- Of a SYM and a SLOT in the same cycle the SYM is raised first, so that it stays pending (R222). -/
theorem runs_dibberSlotIrq_sym (hst : s.dbStrobed c true = true) (hst' : s.dbStrobed c false = true) :
    Runs (.dibberSlotIrq c true) s (fun t => t.dbOf c = (((s.dbRaise c false).dbRaise c true).dbOf c).take s.bankNow) :=
  ⟨_, (unlessHalted_runs hhalt _).trans (onlyIf_true (by simp [hst, hst']) _ _),
    dbOf_setDb (sorted_dbRaise (sorted_dbRaise hdb ..) ..) c _⟩

end

section
variable (hhalt : s.halted .radio = false) (hon : s.dbOn c = true) (hdb : tsorted 0 s.fh.db = true)
include hon hdb

theorem dbOf_dbRaise_sym (hen : s.regBit (dbReg c 0) 3 = true) (hsym : (s.dbOf c).symPend = false) :
    (s.dbRaise c false).dbOf c = { s.dbOf c with symPend := true } := by
  rw [dbRaise_sym hon hen hsym]
  exact dbOf_setDb (s := strobeTaken s c false) hdb c _

theorem dbOf_dbRaise_slot (hen : s.regBit (dbReg c 0) 4 = true) (hslot : (s.dbOf c).slotPend = false) :
    (s.dbRaise c true).dbOf c = { s.dbOf c with slotPend := true } := by
  rw [dbRaise_slot hon hen hslot]
  exact dbOf_setDb (s := strobeTaken s c true) hdb c _

/-- Both become pending where neither was. -/
theorem dbOf_dbRaise_both (hen : s.regBit (dbReg c 0) 3 = true) (hen' : s.regBit (dbReg c 0) 4 = true)
    (hsym : (s.dbOf c).symPend = false) (hslot : (s.dbOf c).slotPend = false) :
    ((s.dbRaise c false).dbRaise c true).dbOf c = { s.dbOf c with symPend := true, slotPend := true } := by
  have hsorted := sorted_dbRaise hdb c false
  have hx := dbOf_dbRaise_sym hon hdb hen hsym
  have hkept : (s.dbRaise c false).dbOn c = true ∧ (s.dbRaise c false).regBit (dbReg c 0) 4 = true := by
    rw [dbRaise_sym hon hen hsym]
    exact ⟨hon, hen'⟩
  rw [dbOf_dbRaise_slot hkept.1 hsorted hkept.2 (by rw [hx]; exact hslot), hx]

include hhalt

/-- A SYM switches from MAIN to SET1 (R222). -/
theorem runs_dibberSymIrq_taken (hst : s.dbStrobed c false = true) (hen : s.regBit (dbReg c 0) 3 = true)
    (hslot : (s.dbOf c).slotPend = false) (hsym : (s.dbOf c).symPend = false) (hrun : (s.dbOf c).halted = false)
    (hcur : (s.dbOf c).cur = .main) : Runs (.dibberSymIrq c) s (fun t => t.dbOf c = { s.dbOf c with cur := .set1 }) := by
  obtain ⟨t, ht, hx, -⟩ := runs_dibberSymIrq hhalt hdb hst
  refine ⟨t, ht, hx.trans ?_⟩
  rw [dbOf_dbRaise_sym hon hdb hen hsym]
  exact take_sym hrun hslot hsym hcur _

theorem runs_dibberSymIrq_waits (hst : s.dbStrobed c false = true) (hen : s.regBit (dbReg c 0) 3 = true)
    (hslot : (s.dbOf c).slotPend = false) (hsym : (s.dbOf c).symPend = false)
    (hbusy : (s.dbOf c).halted = true ∨ (s.dbOf c).cur ≠ .main) :
    Runs (.dibberSymIrq c) s (fun t => t.dbOf c = { s.dbOf c with symPend := true }) := by
  obtain ⟨t, ht, hx, -⟩ := runs_dibberSymIrq hhalt hdb hst
  refine ⟨t, ht, hx.trans ?_⟩
  rw [dbOf_dbRaise_sym hon hdb hen hsym]
  exact take_of_busy (x := { s.dbOf c with symPend := true }) hslot hbusy _

theorem runs_dibberSymIrq_lost (hst : s.dbStrobed c false = true) (hen : s.regBit (dbReg c 0) 3 = true)
    (hslot : (s.dbOf c).slotPend = false) (hsym : (s.dbOf c).symPend = true)
    (hbusy : (s.dbOf c).halted = true ∨ (s.dbOf c).cur ≠ .main) (hregs : tsorted 0 s.regs = true) :
    Runs (.dibberSymIrq c) s (fun t => t.dbOf c = s.dbOf c ∧
      t.regN (dbReg c 0x14) = (satAdd (s.reg (dbReg c 0x14)) 1).toNat) := by
  obtain ⟨t, ht, hx, hr⟩ := runs_dibberSymIrq hhalt hdb hst
  rw [dbRaise_sym_lost hon hen hsym] at hx hr
  refine ⟨t, ht, hx.trans (take_of_busy hslot hbusy _), ?_⟩
  have hreg : t.regN (dbReg c 0x14) = (((strobeTaken s c false).setReg (dbReg c 0x08) (s.regN (dbReg c 0x08) ||| 8)).count
      (dbReg c 0x14) 1).regN (dbReg c 0x14) := by
    simp only [State.regN, State.reg, hr]
  exact hreg.trans (regN_count_setReg (s := strobeTaken s c false) hregs _ (by unfold dbReg; omega))

theorem runs_dibberSlotIrq_taken (hst : s.dbStrobed c true = true) (hen : s.regBit (dbReg c 0) 4 = true)
    (hrun : (s.dbOf c).halted = false) (hslot : (s.dbOf c).slotPend = false) (hcur : (s.dbOf c).cur ≠ .set2) :
    Runs (.dibberSlotIrq c false) s (fun t => t.dbOf c =
      { s.dbOf c with cur := .set2, held1 := (s.dbOf c).held1 || (s.dbOf c).cur == .set1, bankB := s.bankNow }) := by
  obtain ⟨t, ht, hx⟩ := runs_dibberSlotIrq hhalt hdb hst
  refine ⟨t, ht, hx.trans ?_⟩
  rw [dbOf_dbRaise_slot hon hdb hen hslot]
  exact take_slot hrun hslot hcur _

theorem runs_dibberSlotIrq_waits (hst : s.dbStrobed c true = true) (hen : s.regBit (dbReg c 0) 4 = true)
    (hslot : (s.dbOf c).slotPend = false) (hcur : (s.dbOf c).cur = .set2) :
    Runs (.dibberSlotIrq c false) s (fun t => t.dbOf c = { s.dbOf c with slotPend := true }) := by
  obtain ⟨t, ht, hx⟩ := runs_dibberSlotIrq hhalt hdb hst
  refine ⟨t, ht, hx.trans ?_⟩
  rw [dbOf_dbRaise_slot hon hdb hen hslot]
  exact take_of_set2 (x := { s.dbOf c with slotPend := true }) hcur _

/-- Of a SYM and a SLOT in the same cycle the SLOT is taken (R222). -/
theorem runs_dibberSlotIrq_both (hst : s.dbStrobed c true = true) (hen : s.regBit (dbReg c 0) 4 = true)
    (hrun : (s.dbOf c).halted = false) (hslot : (s.dbOf c).slotPend = false) (hcur : (s.dbOf c).cur ≠ .set2)
    (hst' : s.dbStrobed c false = true) (hen' : s.regBit (dbReg c 0) 3 = true) (hsym : (s.dbOf c).symPend = false) :
    Runs (.dibberSlotIrq c true) s (fun t => t.dbOf c =
      { s.dbOf c with
        symPend := true, cur := .set2, held1 := (s.dbOf c).held1 || (s.dbOf c).cur == .set1, bankB := s.bankNow }) := by
  obtain ⟨t, ht, hx⟩ := runs_dibberSlotIrq_sym hhalt hdb hst hst'
  refine ⟨t, ht, hx.trans ?_⟩
  rw [dbOf_dbRaise_both hon hdb hen' hen hsym hslot]
  exact take_slot (x := { s.dbOf c with symPend := true }) hrun hslot hcur _

theorem runs_dibberReti (hrun : (s.dbOf c).halted = false) (hcur : (s.dbOf c).cur ≠ .main) :
    Runs (.dibberReti c) s (fun t =>
      t.dbOf c = if (s.dbOf c).slotPend then { s.dbOf c with slotPend := false, cur := .set2, bankB := s.bankNow }
        else if (s.dbOf c).held1 then { s.dbOf c with held1 := false, cur := .set1 }
        else if (s.dbOf c).symPend then { s.dbOf c with symPend := false, cur := .set1 } else { s.dbOf c with cur := .main }) :=
  ⟨_, (unlessHalted_runs hhalt _).trans (onlyIf_true (by simp [hon, hrun, hcur]) _ _), dbOf_setDb hdb c _⟩

end

/-! #### Lanes -/

theorem mem_lanesOf {lanes : BitVec 32} {l : Nat} : l ∈ lanesOf lanes ↔ l < 32 ∧ lanes.getLsbD l = true := by
  simp [lanesOf]

theorem nodup_lanesOf (lanes : BitVec 32) : (lanesOf lanes).Nodup := List.nodup_range.filter _

/-- A fold that writes each lane of a list of different lanes, of the lane's own value before: P is what the writes keep. -/
theorem foldl_lanes {R V : Type} {P : R → Prop} {get : R → Nat → V} {put : R → Nat → R} {val : Nat → V → V}
    (hP : ∀ r l, P r → P (put r l)) (hsame : ∀ r l, P r → get (put r l) l = val l (get r l))
    (hother : ∀ r l k, k ≠ l → get (put r l) k = get r k) {ls : List Nat} (hls : ls.Nodup) {r : R} (hr : P r) (k : Nat) :
    get (ls.foldl put r) k = if k ∈ ls then val k (get r k) else get r k := by
  induction ls generalizing r with
  | nil => rfl
  | cons l ls ih =>
    obtain ⟨hl, hls⟩ := List.nodup_cons.mp hls
    rw [List.foldl_cons, ih hls (hP r l hr)]
    by_cases hk : k = l
    · subst hk
      simp [hl, hsame r k hr]
    · simp [hk, hother r l k hk]

/-- The registers that an operation leaves: each lane's in turn. -/
theorem regs_runLanes (f : DbRegs → Nat → LaneOut) (r : DbRegs) (ls : List Nat) :
    (runLanes f r ls).1 = ls.foldl (fun r l => (f r l).regs) r := by
  have hfold (y : DbRegs × List Nat × List Nat × Bool) : (ls.foldl (fun acc l =>
      let o := f acc.1 l
      (o.regs, if o.ovf then l :: acc.2.1 else acc.2.1, if o.sat then l :: acc.2.2.1 else acc.2.2.1,
        acc.2.2.2 || o.divz)) y).1 = ls.foldl (fun r l => (f r l).regs) y.1 := by
    induction ls generalizing y with
    | nil => rfl
    | cons l ls ih => exact ih _
  exact hfold _

theorem acc_setAcc_same {r : DbRegs} (h : tsorted 0 r.a = true) (a : Fin 8) (l : Nat) (x : Int × Int) :
    (r.setAcc a l x).acc a l = x := tget_tset_same _ h _ _

theorem acc_setAcc_other (r : DbRegs) (a : Fin 8) {l k : Nat} (x : Int × Int) (hk : k ≠ l) :
    (r.setAcc a l x).acc a k = r.acc a k := tget_tset_other _ _ _ (by omega)

theorem sorted_setAcc {r : DbRegs} (h : tsorted 0 r.a = true) (a : Fin 8) (l : Nat) (x : Int × Int) :
    tsorted 0 (r.setAcc a l x).a = true := tsorted_tput _ h (Nat.zero_le _)

theorem vec_setVec_same {r : DbRegs} (h : tsorted 0 r.v = true) (v : Fin 32) (l x : Nat) :
    (r.setVec v l x).vec v l = x % 2 ^ 32 := by
  simp [DbRegs.vec, DbRegs.setVec, tget_tset_same _ h]

theorem vec_setVec_other (r : DbRegs) (v : Fin 32) {l k : Nat} (x : Nat) (hk : k ≠ l) :
    (r.setVec v l x).vec v k = r.vec v k := congrArg BitVec.toNat (tget_tset_other _ _ _ (by omega))

theorem sorted_setVec {r : DbRegs} (h : tsorted 0 r.v = true) (v : Fin 32) (l x : Nat) :
    tsorted 0 (r.setVec v l x).v = true := tsorted_tput _ h (Nat.zero_le _)

/-- One lane's multiply-accumulate (R52, R53). -/
def cmacLane (acc : Fin 8) (a b : Fin 32) (conj neg : Bool) (r : DbRegs) (l : Nat) : LaneOut :=
  let p := cmul conj neg (ci16 (r.vec a l)) (ci16 (r.vec b l))
  let old := r.acc acc l
  let re := acc40 old.1 p.1
  let im := acc40 old.2 p.2
  { regs := r.setAcc acc l (re.1, im.1), ovf := re.2 || im.2 }

/-- What it makes of a lane's accumulator, of the vectors of r. -/
def cmacSum (a b : Fin 32) (conj neg : Bool) (r : DbRegs) (l : Nat) (old : Int × Int) : Int × Int :=
  let p := cmul conj neg (ci16 (r.vec a l)) (ci16 (r.vec b l))
  ((acc40 old.1 p.1).1, (acc40 old.2 p.2).1)

/-- Each selected lane adds its own product to its accumulator. -/
theorem acc_runLanes_cmac {r : DbRegs} (h : tsorted 0 r.a = true) (acc : Fin 8) (a b : Fin 32) (conj neg : Bool)
    (lanes : BitVec 32) (k : Nat) : (runLanes (cmacLane acc a b conj neg) r (lanesOf lanes)).1.acc acc k =
      if k ∈ lanesOf lanes then cmacSum a b conj neg r k (r.acc acc k) else r.acc acc k := by
  rw [regs_runLanes]
  refine foldl_lanes (P := fun q : DbRegs => tsorted 0 q.a = true ∧ q.v = r.v) (get := fun q => q.acc acc) ?_ ?_ ?_ (nodup_lanesOf _)
    ⟨h, rfl⟩ k
  · exact fun q l ⟨hq, hv⟩ => ⟨sorted_setAcc hq .., hv⟩
  · intro q l ⟨hq, hv⟩
    refine (acc_setAcc_same hq ..).trans ?_
    simp only [cmacSum, DbRegs.vec, hv]
  · exact fun q l k hk => acc_setAcc_other q acc _ hk

/-- The lane operations but for a load's issue and its arrival. -/
theorem exec_dibberLaneOp (hhalt : s.halted .radio = false) (op : LaneOp) (lanes : BitVec 32)
    (hload : ∀ d src, op ≠ .load d src) (harr : op ≠ .arrive) :
    exec (.dibberLaneOp c op lanes) s = s.dbLanes c op.lane lanes := by
  refine (unlessHalted_runs hhalt _).trans ?_
  cases op
  case load d src => exact absurd rfl (hload d src)
  case arrive => exact absurd rfl harr
  all_goals rfl

section
variable (hhalt : s.halted .radio = false) (hon : s.dbOn c = true) (hdb : tsorted 0 s.fh.db = true)
include hon

/-- An operation of a running core on its selected lanes. -/
theorem dbLanes_runs (hrun : (s.dbOf c).halted = false) (f : DbRegs → Nat → LaneOut) (lanes : BitVec 32) :
    s.dbLanes c f lanes = (let y := (s.dbOf c).stepPc
      let o := runLanes f y.regs (lanesOf lanes)
      .next ((s.setDb c (y.setRegs o.1)).dbFlags c o.2.1 o.2.2.1 o.2.2.2)) :=
  onlyIf_true (by simp [hon, halted_stepPc, hrun]) _ _

include hhalt

include hdb

theorem runs_dibberCmac (hrun : (s.dbOf c).halted = false) (acc : Fin 8) (a b : Fin 32) (conj neg : Bool) (lanes : BitVec 32)
    (ha : tsorted 0 (s.dbOf c).regs.a = true) :
    Runs (.dibberCmac c acc a b conj neg lanes) s (fun t => ∀ l < 32, (t.dbOf c).regs.acc acc l =
      if lanes.getLsbD l then cmacSum a b conj neg (s.dbOf c).regs l ((s.dbOf c).regs.acc acc l)
      else (s.dbOf c).regs.acc acc l) := by
  refine ⟨_, (unlessHalted_runs hhalt _).trans (dbLanes_runs hon hrun (cmacLane acc a b conj neg) lanes), fun l hl => ?_⟩
  have hstep : tsorted 0 (s.dbOf c).stepPc.regs.a = true := by
    rw [regs_stepPc]
    exact ha
  rw [(dbFlags_keeps (sorted_setDb hdb c _) ..).1, dbOf_setDb hdb, regs_setRegs, acc_runLanes_cmac hstep, acc_stepPc]
  simp only [mem_lanesOf, hl, true_and, cmacSum, vec_stepPc]

end

/-! #### Loads -/

theorem fh_dbEcc (s : State) (c : Fin 48) (bad : Bool) : (s.dbEcc c bad).fh = s.fh := by
  unfold State.dbEcc
  split <;> rfl

/-- A load that joins those on their way, in a state whose Dibbers are those of s. -/
theorem loads_joined {t : State} (hdb : tsorted 0 s.fh.db = true) (ht : t.fh = s.fh) (c : Fin 48) (n : Nat) (l : DbLoad) :
    (((t.drew n).setDb c { (s.dbOf c).stepPc with loads := (s.dbOf c).stepPc.loads ++ [l] }).dbOf c).loads =
      (s.dbOf c).loads ++ [l] := by
  have hsorted : tsorted 0 (t.drew n).fh.db = true := by
    rw [t.drew_fh, ht]
    exact hdb
  obtain ⟨-, -, hloads, -⟩ := setRegs_keeps (s.dbOf c) { (s.dbOf c).regs with pc := ((s.dbOf c).regs.pc + 1) % 2 ^ 16 }
  exact (congrArg Dibber.loads (dbOf_setDb hsorted c _)).trans (congrArg (· ++ [l]) hloads)

/-- A load that is issued joins those on their way, of the set in use (R221). -/
theorem loads_dbLoad (hdb : tsorted 0 s.fh.db = true) (c : Fin 48) (d : DbLoadReg) (src : DbSrc) (lanes : BitVec 32) :
    ∃ bytes bad, ((s.dbLoad c d src lanes).dbOf c).loads =
      (s.dbOf c).loads ++ [{ set := (s.dbOf c).cur, reg := d, lanes := lanes, bytes := bytes, bad := bad }] := by
  have hcur : (s.dbOf c).stepPc.cur = (s.dbOf c).cur := (setRegs_keeps ..).1
  rw [← hcur]
  unfold State.dbLoad
  extract_lets x n
  cases src with
  | dmem o => exact ⟨_, _, loads_joined hdb (fh_dbEcc ..) c n _⟩
  | device a =>
    dsimp only
    split
    · exact ⟨_, _, loads_joined hdb (noteReads_keeps ..).2 c n _⟩
    · exact ⟨_, _, loads_joined hdb rfl c n _⟩

theorem exec_dibberLaneOp_load (hhalt : s.halted .radio = false) (hon : s.dbOn c = true) (hrun : (s.dbOf c).halted = false)
    (d : DbLoadReg) (src : DbSrc) (lanes : BitVec 32) :
    exec (.dibberLaneOp c (.load d src) lanes) s = .next (s.dbLoad c d src lanes) :=
  (unlessHalted_runs hhalt _).trans (onlyIf_true (by simp [hon, hrun]) _ _)

theorem exec_dibberLaneOp_arrive (hhalt : s.halted .radio = false) (hon : s.dbOn c = true) (lanes : BitVec 32) :
    exec (.dibberLaneOp c .arrive lanes) s = .next (s.setDb c (s.dbOf c).arrive) :=
  (unlessHalted_runs hhalt _).trans (onlyIf_true hon _ _)

/-- The oldest load is no longer on its way once it has arrived. -/
theorem loads_arrive {x : Dibber} {l : DbLoad} {ls : List DbLoad} (h : x.loads = l :: ls) : x.arrive.loads = ls := by
  unfold Dibber.arrive
  rw [h]
  dsimp only
  split <;> rfl

/-! #### Stores -/

/-- What the Dibbers hold has no part in a store to device memory. -/
theorem mem_store_setDb (s : State) (c : Fin 48) (x : Dibber) (a : Nat) (bs : List Byte) :
    ((s.setDb c x).store a bs).mem = (s.store a bs).mem := by
  have hput (n : Nat) : ∀ (bs : List Byte) (b : Nat) (m : Memory),
      (s.setDb c x).putBytes a n b bs m = s.putBytes a n b bs m := by
    intro bs
    induction bs with
    | nil => exact fun _ _ => rfl
    | cons y ys ih => exact fun b m => ih (b + 1) _
  exact hput ..

section
variable (r : DbRegs) (acc : Fin 8) (sh : Fin 32) (rnd : StoreRound) (wide symm : Bool) (lanes : BitVec 32)

/-- A lane's accumulator converted to a word of two components of w bits (R54). -/
def storedWord (w l : Nat) : Nat :=
  toBits w (cstore sh.val rnd w symm (r.acc acc l).1).1 + toBits w (cstore sh.val rnd w symm (r.acc acc l).2).1 * 2 ^ w

/-- The bytes of the selected lanes' words, without gaps (log 136). -/
def storedBytes : List Byte :=
  (lanesOf lanes).flatMap (fun l => leBytes (if wide then 8 else 4) (storedWord r acc sh rnd symm (if wide then 32 else 16) l))

/-- The values of the selected lanes' components that a store converts to LLR8 (log 153). -/
def storedLlrs : List Int :=
  (lanesOf lanes).flatMap (fun l =>
    [(cstore sh.val .nearestEven 40 false (r.acc acc l).1).1, (cstore sh.val .nearestEven 40 false (r.acc acc l).2).1])

/-- What a store leaves but for the flags and counts: the converted accumulators in its destination (R54, R220). -/
def dbStored (s : State) (c : Fin 48) : DbDst → State
  | .vreg d => s.setDb c ((s.dbOf c).stepPc.setRegs
      ((lanesOf lanes).foldl (fun q l => q.setVec d l (storedWord (s.dbOf c).regs acc sh rnd symm (if wide then 32 else 16) l))
        (s.dbOf c).stepPc.regs))
  | .dmem o => s.setDb c ((s.dbOf c).stepPc.dmemStore o.toNat (storedBytes (s.dbOf c).regs acc sh rnd wide symm lanes))
  | .device a =>
    let bytes := storedBytes (s.dbOf c).regs acc sh rnd wide symm lanes
    if inRd a.toNat bytes.length then (s.setDb c (s.dbOf c).stepPc).store a.toNat bytes else s.setDb c (s.dbOf c).stepPc
  | .llr a al k =>
    let es := storedLlrs (s.dbOf c).regs acc sh lanes
    if inRd (a.toNat + k) es.length then
      ((s.setDb c (s.dbOf c).stepPc).store (a.toNat + k) (s.llrBytes al k es)).llrRun a.toNat al es.length
    else s.setDb c (s.dbOf c).stepPc

/-- An instruction's step leaves what a store converts. -/
theorem stored_stepPc (x : Dibber) (w l : Nat) :
    x.stepPc.regs.stored acc sh rnd w symm l = x.regs.stored acc sh rnd w symm l := by
  unfold DbRegs.stored
  rw [acc_stepPc]

theorem storedWord_lt (l : Nat) : storedWord r acc sh rnd symm 16 l < 2 ^ 32 := by
  have hlt (i : Int) : toBits 16 i < 2 ^ 16 := by
    unfold toBits
    omega
  have hre := hlt (cstore sh.val rnd 16 symm (r.acc acc l).1).1
  have him := hlt (cstore sh.val rnd 16 symm (r.acc acc l).2).1
  unfold storedWord
  omega

/-- A store of a running core, but CI32 to a vector register, ends in its destination, with the lanes that saturated counted. -/
theorem exec_dibberStore (hhalt : s.halted .radio = false) (hon : s.dbOn c = true) (hrun : (s.dbOf c).halted = false)
    {dst : DbDst} (hdst : wide = false ∨ ∀ d, dst ≠ .vreg d) :
    ∃ sat, exec (.dibberStore c acc sh rnd wide symm dst lanes) s =
      .next ((dbStored acc sh rnd wide symm lanes s c dst).dbFlags c [] sat false) := by
  have hexec : exec (.dibberStore c acc sh rnd wide symm dst lanes) s = execDibberStore c acc sh rnd wide symm dst lanes s := rfl
  unfold execDibberStore at hexec
  rw [hexec, unlessHalted_runs hhalt]
  cases dst <;> simp only [List.foldl_map, List.flatMap_map, stored_stepPc]
  case vreg d =>
    have hnarrow : wide = false := hdst.resolve_right fun h => h d rfl
    exact ⟨_, onlyIf_true (by simp [hon, halted_stepPc, hrun, hnarrow]) _ _⟩
  case dmem => exact ⟨_, onlyIf_true (by simp [hon, halted_stepPc, hrun]) _ _⟩
  case device => exact ⟨_, onlyIf_true (by simp [hon, halted_stepPc, hrun]) _ _⟩
  case llr => exact ⟨_, onlyIf_true (by simp [hon, halted_stepPc, hrun]) _ _⟩

end

section
variable (hhalt : s.halted .radio = false) (hon : s.dbOn c = true) (hdb : tsorted 0 s.fh.db = true)
  (hrun : (s.dbOf c).halted = false) (acc : Fin 8) (sh : Fin 32) (rnd : StoreRound) (wide symm : Bool) (lanes : BitVec 32)
include hhalt hon hrun

theorem runs_dibberStore_llr (a : PAddr) (al : LlrAlloc) (k : Nat)
    (hrd : inRd (a.toNat + k) (storedLlrs (s.dbOf c).regs acc sh lanes).length = true) :
    Runs (.dibberStore c acc sh rnd wide symm (.llr a al k) lanes) s (fun t =>
      t.mem = (s.store (a.toNat + k) (s.llrBytes al k (storedLlrs (s.dbOf c).regs acc sh lanes))).mem) := by
  obtain ⟨sat, h⟩ := exec_dibberStore acc sh rnd wide symm lanes hhalt hon hrun (dst := .llr a al k) (.inr nofun)
  refine ⟨_, h, ?_⟩
  beta_reduce
  rw [mem_dbFlags, dbStored]
  simp only [hrd, if_true]
  exact mem_store_setDb ..

include hdb

theorem runs_dibberStore_vreg (d : Fin 32) (hv : tsorted 0 (s.dbOf c).regs.v = true) :
    Runs (.dibberStore c acc sh rnd false symm (.vreg d) lanes) s (fun t => ∀ l < 32, (t.dbOf c).regs.vec d l =
      if lanes.getLsbD l then storedWord (s.dbOf c).regs acc sh rnd symm 16 l else (s.dbOf c).regs.vec d l) := by
  obtain ⟨sat, h⟩ := exec_dibberStore acc sh rnd false symm lanes hhalt hon hrun (dst := .vreg d) (.inl rfl)
  have hstep : tsorted 0 (s.dbOf c).stepPc.regs.v = true := by
    rw [regs_stepPc]
    exact hv
  refine ⟨_, h, fun l hl => ?_⟩
  rw [dbStored, (dbFlags_keeps (sorted_setDb hdb c _) ..).1, dbOf_setDb hdb, regs_setRegs]
  have hlane := foldl_lanes (P := fun q : DbRegs => tsorted 0 q.v = true) (get := fun q => q.vec d)
    (put := fun q l => q.setVec d l (storedWord (s.dbOf c).regs acc sh rnd symm 16 l))
    (val := fun l _ => storedWord (s.dbOf c).regs acc sh rnd symm 16 l) (fun q l hq => sorted_setVec hq ..)
    (fun q l hq => (vec_setVec_same hq ..).trans (Nat.mod_eq_of_lt (storedWord_lt ..)))
    (fun q l k hk => vec_setVec_other q d _ hk) (nodup_lanesOf lanes) hstep l
  refine hlane.trans ?_
  simp only [mem_lanesOf, hl, true_and, vec_stepPc]

theorem runs_dibberStore_dmem (o : BitVec 18) :
    Runs (.dibberStore c acc sh rnd wide symm (.dmem o) lanes) s (fun t =>
      (t.dbOf c).dmem = ((s.dbOf c).dmemStore o.toNat (storedBytes (s.dbOf c).regs acc sh rnd wide symm lanes)).dmem ∧
      (t.dbOf c).regs = (s.dbOf c).stepPc.regs ∧ t.mem = s.mem) := by
  obtain ⟨sat, h⟩ := exec_dibberStore acc sh rnd wide symm lanes hhalt hon hrun (dst := .dmem o) (.inr nofun)
  have hdmem : (s.dbOf c).stepPc.dmem = (s.dbOf c).dmem := (setRegs_keeps ..).2.2.2
  refine ⟨_, h, ?_⟩
  beta_reduce
  obtain ⟨hregs, hmem⟩ := dbFlags_keeps (sorted_setDb hdb c _) [] sat false
  rw [mem_dbFlags, dbStored, hregs, hmem, dbOf_setDb hdb]
  refine ⟨?_, rfl, rfl⟩
  simp only [Dibber.dmemStore, hdmem]

theorem runs_dibberStore_device (a : PAddr) :
    Runs (.dibberStore c acc sh rnd wide symm (.device a) lanes) s (fun t =>
      (t.dbOf c).regs = (s.dbOf c).stepPc.regs ∧ (t.dbOf c).dmem = (s.dbOf c).dmem ∧
      t.mem = if inRd a.toNat (storedBytes (s.dbOf c).regs acc sh rnd wide symm lanes).length
        then (s.store a.toNat (storedBytes (s.dbOf c).regs acc sh rnd wide symm lanes)).mem else s.mem) := by
  obtain ⟨sat, h⟩ := exec_dibberStore acc sh rnd wide symm lanes hhalt hon hrun (dst := .device a) (.inr nofun)
  have hdmem : (s.dbOf c).stepPc.dmem = (s.dbOf c).dmem := (setRegs_keeps ..).2.2.2
  refine ⟨_, h, ?_⟩
  beta_reduce
  rw [mem_dbFlags, dbStored]
  have hsorted := sorted_setDb hdb c (s.dbOf c).stepPc
  have hset := dbOf_setDb hdb c (s.dbOf c).stepPc
  split
  · obtain ⟨hregs, hmem⟩ := dbFlags_keeps (s := (s.setDb c (s.dbOf c).stepPc).store a.toNat _) (c := c) hsorted [] sat false
    exact ⟨hregs.trans (congrArg Dibber.regs hset), (hmem.trans (congrArg Dibber.dmem hset)).trans hdmem, mem_store_setDb ..⟩
  · obtain ⟨hregs, hmem⟩ := dbFlags_keeps hsorted [] sat false
    exact ⟨hregs.trans (congrArg Dibber.regs hset), (hmem.trans (congrArg Dibber.dmem hset)).trans hdmem, rfl⟩

end

/-! #### DB_CTRL -/

theorem agentIf_rdCore {k : Fin 16} (hk : k.val < 4) (hhalt : s.halted .radio = false) (hrd : s.dieOn .rd = true) (t : State) :
    agentIf (.core .rd k) (Agent.isRd (.core .rd k) && s.dieOn .rd) s t = .next t := by
  have hrun : s.agentHalted (.core .rd k) = false := by simp [State.agentHalted, dieUnit, hhalt, hrd]
  exact agentIf_acts hrun rfl (by simp [Agent.isRd, hk, hrd]) t

/-- What is pending is taken in another set; the rest of the core stays (R222). -/
theorem halted_take (x : Dibber) (b : Bool) : (x.take b).halted = x.halted := by
  unfold Dibber.take
  split_ifs <;> rfl

theorem take_of_not_pending (b : Bool) (x : Dibber) (hslot : x.slotPend = false)
    (hsym : x.symPend = false) : x.take b = x := by
  simp [Dibber.take, hslot, hsym]

theorem regN_dbControl (hregs : tsorted 0 s.regs = true) (v : Word) (x : Dibber) :
    (s.dbControl c v x).regN (dbReg c 0) = v.toNat &&& 0xFFFF19 :=
  (s.regN_setReg_same hregs _ _).trans (Nat.mod_eq_of_lt (Nat.and_lt_two_pow _ (by decide)))

theorem dbOf_dbControl (hdb : tsorted 0 s.fh.db = true) (v : Word) (x : Dibber) :
    (s.dbControl c v x).dbOf c = Dibber.take s.bankNow { x with halted := !v.getLsbD 0 } := dbOf_setDb (by exact hdb) c _

section
variable {k : Fin 16} (hk : k.val < 4) (hhalt : s.halted .radio = false) (hrd : s.dieOn .rd = true)
  (hdb : tsorted 0 s.fh.db = true) (hregs : tsorted 0 s.regs = true) (v : Word)
include hk hhalt hrd hdb hregs

theorem runs_dbCtrlRun : Runs (.dbCtrlRun (.core .rd k) c v) s (fun t =>
    (t.dbOf c).halted = !v.getLsbD 0 ∧ t.regN (dbReg c 0) = v.toNat &&& 0xFFFF19) := by
  refine ⟨_, agentIf_rdCore hk hhalt hrd _, ?_, regN_dbControl hregs ..⟩
  rw [dbOf_dbControl hdb, halted_take]

omit hregs in
/-- After RESET nothing is pending, so that no set is left (R224). -/
theorem runs_dbCtrlReset : Runs (.dbCtrlReset (.core .rd k) c v) s (fun t =>
    (t.dbOf c).main = {} ∧ (t.dbOf c).set1 = {} ∧ (t.dbOf c).set2 = {} ∧ (t.dbOf c).cur = .main ∧
    (t.dbOf c).symPend = false ∧ (t.dbOf c).slotPend = false ∧ (t.dbOf c).held1 = false ∧
    (t.dbOf c).halted = (!v.getLsbD 0) ∧ (t.dbOf c).dmem = (s.dbOf c).dmem) := by
  refine ⟨_, agentIf_rdCore hk hhalt hrd _, ?_⟩
  beta_reduce
  rw [dbOf_dbControl hdb, take_of_not_pending _ _ rfl rfl]
  exact ⟨rfl, rfl, rfl, rfl, rfl, rfl, rfl, rfl, rfl⟩

end

end

/-- Settles O25, from the lemmas about each of the commands. -/
theorem dibberCommands : Obligations.DibberCommands := by
  unfold Obligations.DibberCommands
  refine ⟨fun s c hhalt hon hdb => ⟨fun hst hen hslot => ⟨?_, ?_, ?_⟩, fun hst hen hrun hslot => ⟨?_, ?_, ?_⟩,
      runs_dibberReti hhalt hon hdb, fun hrun lanes => ⟨?_, ?_, ?_⟩, fun lanes l ls hl => ⟨?_, ?_⟩,
      fun acc sh rnd wide symm lanes hrun => ⟨?_, ?_, ?_, ?_⟩⟩,
    fun s k c v hk hhalt hrd hdb hregs => ⟨runs_dbCtrlRun hk hhalt hrd hdb hregs v, runs_dbCtrlReset hk hhalt hrd hdb v⟩⟩
  · exact runs_dibberSymIrq_taken hhalt hon hdb hst hen hslot
  · exact runs_dibberSymIrq_waits hhalt hon hdb hst hen hslot
  · exact runs_dibberSymIrq_lost hhalt hon hdb hst hen hslot
  · exact runs_dibberSlotIrq_taken hhalt hon hdb hst hen hrun hslot
  · exact runs_dibberSlotIrq_waits hhalt hon hdb hst hen hslot
  · exact runs_dibberSlotIrq_both hhalt hon hdb hst hen hrun hslot
  · exact fun acc a b conj neg ha => runs_dibberCmac hhalt hon hdb hrun acc a b conj neg lanes ha
  · exact fun op hload harr => (exec_dibberLaneOp hhalt op lanes hload harr).trans (dbLanes_runs hon hrun ..)
  · exact fun d src => ⟨exec_dibberLaneOp_load hhalt hon hrun d src lanes, loads_dbLoad hdb c d src lanes⟩
  · exact exec_dibberLaneOp_arrive hhalt hon lanes
  · exact loads_arrive hl
  · rintro d rfl hv
    exact runs_dibberStore_vreg hhalt hon hdb hrun acc sh rnd symm lanes d hv
  · exact runs_dibberStore_dmem hhalt hon hdb hrun acc sh rnd wide symm lanes
  · exact runs_dibberStore_device hhalt hon hdb hrun acc sh rnd wide symm lanes
  · exact fun a al k hrd => runs_dibberStore_llr hhalt hon hrun acc sh rnd wide symm lanes a al k hrd

end Sys2Proof

namespace Sys2Proof
open Machine

/-! ### O6: what a command of one Espalier leaves -/

/-- A register that a command of array g may change: the array's ES_CTRL, a register of a bank page, HI_ERR_CAUSE and
HI_BAR2_COLL (R70, R98, R102, R340). -/
def esMayChange (g : Fin 84) (o : Nat) : Prop :=
  o = esReg g 0 ∨ (bkBlock ≤ o ∧ o < bkBlock + 0xA0000) ∨ o = hiBlock + 0x00C ∨ o = hiBlock + 0x020

/-- From s to t every array but g stays, and so does every register that g's commands may not change. -/
structure Alone (g : Fin 84) (s t : State) : Prop where
  es : ∀ x, x ≠ g.val → t.esOf x = s.esOf x
  regs : RegsKept (esMayChange g) s t

/-- The pages of the ten dies' banks follow each other (R461). -/
theorem esMayChange_bkReg (g : Fin 84) (d : Die) {o : Nat} (ho : o < 0x10000) : esMayChange g (bkReg d o) := by
  have hd : d.index ≤ 9 := by
    cases d <;> simp only [Die.index] <;> omega
  exact .inr (.inl ⟨by unfold bkReg; omega, by unfold bkReg; omega⟩)

section
variable {g : Fin 84} {s₀ s t : State}

theorem Alone.refl (g : Fin 84) (s : State) : Alone g s s := ⟨fun _ _ => rfl, fun _ _ => rfl⟩

/-- A state whose sequencers and registers are those of one that g leaves alone. -/
theorem Alone.of_eq (h : Alone g s₀ s) (hes : t.es = s.es := by rfl) (hregs : t.regs = s.regs := by rfl) : Alone g s₀ t := by
  refine ⟨fun x hx => ?_, fun o ho => ?_⟩
  · exact (congrArg (fun es => tget ({} : EsArray) es x) hes).trans (h.es x hx)
  · exact (congrArg (fun regs => tget (regReset o) regs o) hregs).trans (h.regs o ho)

theorem Alone.ite {c : Prop} {_ : Decidable c} (hs : Alone g s₀ s) (ht : Alone g s₀ t) : Alone g s₀ (if c then s else t) := by
  split
  · exact hs
  · exact ht

/-! #### The updates of the state -/

theorem Alone.setReg (h : Alone g s₀ s) {o : Nat} (ho : esMayChange g o) (v : Nat) : Alone g s₀ (s.setReg o v) := by
  refine ⟨h.es, fun x hx => ?_⟩
  rw [s.reg_setReg_other v (by rintro rfl; exact hx ho)]
  exact h.regs x hx

theorem Alone.count (h : Alone g s₀ s) {o : Nat} (ho : esMayChange g o) (n : Nat) : Alone g s₀ (s.count o n) := h.setReg ho _

/-- ES_CTRL is the array's own. -/
theorem Alone.setCtrl (h : Alone g s₀ s) (hi lo v : Nat) : Alone g s₀ (s.setRegB (esReg g 0) hi lo v) := h.setReg (.inl rfl) _

theorem Alone.setEs (h : Alone g s₀ s) (e : EsArray) : Alone g s₀ (s.setEs g e) :=
  ⟨fun x hx => (s.esOf_setEs_other e hx).trans (h.es x hx), h.regs⟩

theorem Alone.store (h : Alone g s₀ s) (a bs) : Alone g s₀ (s.store a bs) := h.of_eq

theorem Alone.esIrq (h : Alone g s₀ s) : Alone g s₀ (s.esIrq g) := h.of_eq

theorem Alone.putEs (h : Alone g s₀ s) (e : EsArray) : Alone g s₀ (s.putEs g e) := by
  unfold State.putEs
  extract_lets t
  have ht : Alone g s₀ t := h.setEs e
  exact .ite ht (.ite (ht.store ..) ht)

theorem Alone.countPass (h : Alone g s₀ s) : Alone g s₀ (s.countPass g) := by
  unfold State.countPass
  split
  · exact h.of_eq
  · exact h

theorem Alone.wakeArray (h : Alone g s₀ s) : Alone g s₀ (s.wakeArray g) := .ite h h.of_eq

/-! #### Reads, which meet ECC errors, and writes, which lose collisions -/

theorem Alone.hiErr (h : Alone g s₀ s) (bit) : Alone g s₀ (s.hiErr bit) := by
  unfold State.hiErr
  extract_lets t
  have ht : Alone g s₀ t := h.setReg (.inr (.inr (.inl rfl))) _
  exact .ite ht (.ite ht ht.of_eq)

theorem Alone.eccReport (h : Alone g s₀ s) (m k bad) : Alone g s₀ (s.eccReport m k bad) := by
  unfold State.eccReport
  split
  · exact h
  next d _ _ _ =>
    have hpage (o : Nat) (ho : o < 0x10000) : esMayChange g (bkBlock + 0x10000 * d.index + o) := esMayChange_bkReg g d ho
    extract_lets b _ _ s₁ s₂ _ s₃
    have hs₁ : Alone g s₀ s₁ := h.count (by
      split
      · exact hpage 0x0104 (by decide)
      · exact hpage 0x0100 (by decide)) _
    have hs₂ : Alone g s₀ s₂ := .ite ((hs₁.setReg (hpage 0x0108 (by decide)) _).setReg (hpage 0x010C (by decide)) _) hs₁
    have hs₃ : Alone g s₀ s₃ := hs₂.of_eq
    exact .ite (((hs₃.setReg (hpage 0x0004 (by decide)) _).of_eq).hiErr _) hs₂

theorem Alone.noteReads (h : Alone g s₀ s) (m a n) : Alone g s₀ (s.noteReads m a n) :=
  foldl_keeps (fun t k ht => by
    extract_lets u
    have hu : Alone g s₀ u := ht.eccReport ..
    exact .ite hu hu.of_eq) _ h

theorem Alone.noteRanges (h : Alone g s₀ s) (m rs) : Alone g s₀ (s.noteRanges m rs) := foldl_keeps (fun _ _ ht => ht.noteReads ..) _ h

theorem Alone.noteHeader (h : Alone g s₀ s) (p code) : Alone g s₀ (s.noteHeader g p code) := .ite (h.noteReads ..) h

/-- A write of the array itself, whose lost words are counted in its own BK_COLL (R102). -/
theorem Alone.collided (h : Alone g s₀ s) (d) : Alone g s₀ (s.collided d g) := by
  unfold State.collided
  extract_lets s₁ s₂
  have hs₁ : Alone g s₀ s₁ := h.count (esMayChange_bkReg g d (by omega)) _
  have hs₂ : Alone g s₀ s₂ := .ite (hs₁.count (.inr (.inr (.inr rfl))) _) hs₁
  exact .ite hs₂.of_eq hs₂

theorem Alone.storeLost (h : Alone g s₀ s) (a bs lost) : Alone g s₀ (s.storeLost g a bs lost) :=
  .ite (h.store ..) (foldl_keeps (fun t c ht => by
    split
    · exact ht.collided ..
    · exact ht.store ..) _ h)

theorem Alone.writeRow (h : Alone g s₀ s) (r m lost) : Alone g s₀ (s.writeRow g r m lost).1 := by
  unfold State.writeRow
  split
  · extract_lets _ _ _ t s₁ t₁
    have ht : Alone g s₀ t := (h.store ..).store ..
    have hs₁ : Alone g s₀ s₁ := .ite (h.noteReads ..) h
    have ht₁ : Alone g s₀ t₁ := hs₁.storeLost ..
    split
    · exact ht.of_eq
    · split
      · exact ht₁.storeLost ..
      · exact ht₁
  · exact h

/-! #### The commands -/

/-- Whatever state the command answers, g has left the others alone. -/
structure NextAlone (g : Fin 84) (s : State) (o : Out) : Prop where
  alone : ∀ t, o = .next t → Alone g s t

theorem NextAlone.next (h : Alone g s₀ s) : NextAlone g s₀ (.next s) := ⟨fun _ e => Host.Outcome.next.inj e ▸ h⟩

theorem NextAlone.onlyIf {p : Bool} (ht : Alone g s t) : NextAlone g s (onlyIf p s t) := .next (.ite ht (.refl g s))

theorem NextAlone.agentIf {m : Agent} {p : Bool} (ht : Alone g s t) : NextAlone g s (agentIf m p s t) :=
  ⟨fun _ e => agentIf_keeps e (.refl g s) (Alone.refl g s).of_eq fun _ => ht⟩

theorem NextAlone.unlessHalted {u : StopUnit} {o : Out} (ho : NextAlone g s o) : NextAlone g s (unlessHalted s u o) := by
  refine ⟨fun t e => ?_⟩
  obtain rfl | e := unlessHalted_next e
  · exact .refl g t
  · exact ho.alone t e

theorem nextAlone_esCtrlEnable (s m g on k) : NextAlone g s (execEsCtrlEnable m g on k s) := by
  unfold execEsCtrlEnable
  extract_lets _ _ t
  have ht : Alone g s t := ((Alone.refl g s).setCtrl ..).setCtrl ..
  exact .agentIf (.ite (ht.setEs _) ht)

theorem nextAlone_esCtrlStop (s m g) : NextAlone g s (execEsCtrlStop m g s) := .agentIf ((Alone.refl g s).setCtrl ..)

theorem nextAlone_esCtrlUnstop (s m g) : NextAlone g s (execEsCtrlUnstop m g s) := .agentIf ((Alone.refl g s).setCtrl ..)

theorem nextAlone_esCtrlAbort (s m g w) : NextAlone g s (execEsCtrlAbort m ⟨g, w⟩ s) := .agentIf (((Alone.refl g s).setEs _).putEs _)

theorem nextAlone_esAbortSettle (s g) : NextAlone g s (execEsAbortSettle g s) := by
  refine .unlessHalted ?_
  extract_lets
  split
  · exact .next ((Alone.refl g s).setEs _)
  · exact .next ((Alone.refl g s).setEs _).esIrq
  · exact .next (.refl g s)

theorem nextAlone_esCtrlResume (s m g) : NextAlone g s (execEsCtrlResume m g s) := by
  unfold execEsCtrlResume
  extract_lets _ t u
  have ht : Alone g s t := (Alone.refl g s).putEs _
  have hu : Alone g s u := .ite ht (.ite ht.countPass.esIrq ht.countPass)
  exact .agentIf hu

theorem nextAlone_esCtrlClrCnt (s m g) : NextAlone g s (execEsCtrlClrCnt m g s) := .agentIf ((Alone.refl g s).setEs _)

theorem nextAlone_esSPush (s m g) : NextAlone g s (execEsSPush m g s) := .agentIf ((Alone.refl g s).setEs _)

theorem nextAlone_esPPush (s m g) : NextAlone g s (execEsPPush m g s) := .agentIf ((Alone.refl g s).putEs _).wakeArray

theorem nextAlone_esStageFetch (s g) : NextAlone g s (execEsStageFetch g s) := .unlessHalted (.onlyIf ((Alone.refl g s).setEs _))

theorem nextAlone_esStageDataArrive (s g) : NextAlone g s (execEsStageDataArrive g s) := by
  refine .unlessHalted ?_
  extract_lets
  split
  · extract_lets
    exact .onlyIf (((Alone.refl g s).noteRanges ..).setEs _)
  · exact .next (.refl g s)

theorem nextAlone_esShadowValid (s g) : NextAlone g s (execEsShadowValid g s) := .unlessHalted (.onlyIf ((Alone.refl g s).setEs _))

theorem nextAlone_esSwapBegin (s g w) : NextAlone g s (execEsSwapBegin g w s) := by
  refine .unlessHalted ?_
  extract_lets
  split
  · exact .onlyIf ((Alone.refl g s).setEs _)
  · exact .next (.refl g s)

theorem nextAlone_esPassStart (s g w) : NextAlone g s (execEsPassStart g w s) := by
  refine .unlessHalted ?_
  extract_lets
  split
  · exact .next (.refl g s)
  · extract_lets _ _ _ t
    have ht : Alone g s t := (Alone.refl g s).noteHeader ..
    split
    · extract_lets
      exact .onlyIf ((ht.noteRanges ..).putEs _)
    · exact .onlyIf (ht.putEs _).esIrq

theorem nextAlone_esOperandArrive (s g a) : NextAlone g s (execEsOperandArrive g a s) := by
  refine .unlessHalted ?_
  extract_lets
  split
  · exact .next (.refl g s)
  · extract_lets
    exact .onlyIf (((Alone.refl g s).noteRanges ..).setEs _)

theorem nextAlone_esRowWrite (s g lost) : NextAlone g s (execEsRowWrite ⟨g, lost⟩ s) := by
  unfold execEsRowWrite
  extract_lets
  refine .unlessHalted ?_
  split
  · exact .next (.refl g s)
  · extract_lets _ x
    have hx : Alone g s x.1 := List.foldlRecOn (motive := fun y : State × Nat => Alone g s y.1) _ _ (.refl g s)
      fun y hy m _ => hy.writeRow ..
    exact .onlyIf (hx.setEs _)

theorem nextAlone_esPassDone (s g) : NextAlone g s (execEsPassDone g s) := by
  refine .unlessHalted ?_
  extract_lets
  split
  · extract_lets t
    have ht : Alone g s t := ((Alone.refl g s).putEs _).countPass
    exact .onlyIf (.ite ht.esIrq ht)
  · exact .next (.refl g s)

theorem nextAlone_esPassError (s g) : NextAlone g s (execEsPassError g s) := by
  refine .unlessHalted ?_
  extract_lets
  split
  · exact .next (.refl g s)
  · split
    · exact .next (.refl g s)
    · exact .onlyIf ((Alone.refl g s).setEs _).esIrq

theorem nextAlone_esCntLoRead (s m g c) : NextAlone g s (execEsCntLoRead m g c s) := .onlyIf ((Alone.refl g s).setEs _)

end

/-- Settles O6: each command of the array leaves the others alone. -/
theorem espalierAlone : Obligations.EspalierAlone := by
  unfold Obligations.EspalierAlone
  intro s t m g c hc e
  suffices h : NextAlone g s (exec c s) from ⟨(h.alone t e).es, (h.alone t e).regs⟩
  obtain ⟨on, k, rfl⟩ | rfl | rfl | ⟨w, rfl⟩ | rfl | rfl | rfl | rfl | rfl | rfl | rfl | rfl | ⟨w, rfl⟩ | ⟨w, rfl⟩ | ⟨w, rfl⟩ |
    ⟨l, rfl⟩ | rfl | rfl | ⟨k, rfl⟩ := hc
  · exact nextAlone_esCtrlEnable ..
  · exact nextAlone_esCtrlStop ..
  · exact nextAlone_esCtrlUnstop ..
  · exact nextAlone_esCtrlAbort ..
  · exact nextAlone_esAbortSettle ..
  · exact nextAlone_esCtrlResume ..
  · exact nextAlone_esCtrlClrCnt ..
  · exact nextAlone_esSPush ..
  · exact nextAlone_esPPush ..
  · exact nextAlone_esStageFetch ..
  · exact nextAlone_esStageDataArrive ..
  · exact nextAlone_esShadowValid ..
  · exact nextAlone_esSwapBegin ..
  · exact nextAlone_esPassStart ..
  · exact nextAlone_esOperandArrive ..
  · exact nextAlone_esRowWrite ..
  · exact nextAlone_esPassDone ..
  · exact nextAlone_esPassError ..
  · exact nextAlone_esCntLoRead ..

end Sys2Proof

namespace Sys2Proof
open Machine

/-! ### O3: the control registers of an Espalier -/

section
variable {s : State} {m : Agent} {g : Fin 84}

/-! #### What the commands read back of the sequencer they wrote -/

theorem esOf_setEs (hs : Safe s) (g : Nat) (e : EsArray) : (s.setEs g e).esOf g = e := by
  obtain ⟨-, -, -, hes, -⟩ := hs
  exact s.esOf_setEs_same hes g e

theorem esOf_setEs_esIrq (hs : Safe s) (g : Nat) (e : EsArray) : ((s.setEs g e).esIrq g).esOf g = e := esOf_setEs hs g e

/-- The copy of ES_SEQ that a booked array leaves is in memory (R200). -/
theorem esOf_putEs (hs : Safe s) (g : Nat) (e : EsArray) : (s.putEs g e).esOf g = e := by
  have hset := esOf_setEs hs g e
  unfold State.putEs State.copySeq
  dsimp only
  split
  · exact hset
  · split
    · exact hset
    · exact hset

theorem esOf_putEs_esIrq (hs : Safe s) (g : Nat) (e : EsArray) : ((s.putEs g e).esIrq g).esOf g = e := esOf_putEs hs g e

theorem esOf_countPass (s : State) (g x : Nat) : (s.countPass g).esOf x = s.esOf x := by
  unfold State.countPass
  split
  · rfl
  · rfl

/-- The count of a pass, with or without its interrupt, leaves the sequencers (R70, R441). -/
theorem esOf_counted (s : State) (g x : Nat) (irq : Bool) :
    (if irq then (s.countPass g).esIrq g else s.countPass g).esOf x = s.esOf x := by
  split
  · exact esOf_countPass ..
  · exact esOf_countPass ..

theorem esOf_wakeArray (s : State) (g x : Nat) : (s.wakeArray g).esOf x = s.esOf x := by
  unfold State.wakeArray
  dsimp only
  split
  · rfl
  · rfl

/-- Whether the sequencer may start work depends on its halt alone, not on its FIFOs and buffers (R73). -/
theorem esGoes_setEs (hs : Safe s) {e : EsArray} (hhalt : e.halt = (s.esOf g).halt) : (s.setEs g e).esGoes g = s.esGoes g := by
  have hset : ((s.setEs g e).esOf g).halt = (s.esOf g).halt := by rw [esOf_setEs hs, hhalt]
  unfold State.esGoes
  dsimp only
  rw [hset]
  rfl

/-! #### Entries that wait at a full FIFO -/

/-- A stage that moves up from the pushes that wait is in the FIFO, and no stage is lost (R71). -/
theorem stages_esRefill (e : EsArray) : e.refill.sfifo ++ e.refill.sStall = e.sfifo ++ e.sStall := by
  simp only [EsArray.refill, List.append_assoc, List.take_append_drop]

/-- Where no push waits the pass FIFO stays. -/
theorem pfifo_esRefill {e : EsArray} (h : e.pStall = []) : e.refill.pfifo = e.pfifo := by
  simp [EsArray.refill, h]

/-- A push enters a FIFO that has room, and PUSHED advances (R71). -/
theorem esRefill_push {e : EsArray} (h : e.pStall = []) (hlen : e.pfifo.length < 8) (p : EsPass) :
    ({ e with pStall := e.pStall ++ [p] } : EsArray).refill.pushed = (e.pushed + 1) % 65536 ∧
    ({ e with pStall := e.pStall ++ [p] } : EsArray).refill.pfifo = e.pfifo ++ [{ p with seq := (e.pushed + 1) % 65536 }] := by
  obtain ⟨r, hr⟩ : ∃ r, 8 - e.pfifo.length = r + 1 := ⟨7 - e.pfifo.length, by omega⟩
  simp [EsArray.refill, h, hr]

/-! #### ES_CTRL -/

/-- ES_CTRL with ENABLE and IRQ_CORE as written (R70). -/
def esEnableRegs (s : State) (g : Fin 84) (on : Bool) (k : BitVec 2) : State :=
  (s.setRegB (esReg g 0) 0 0 (b2n on)).setRegB (esReg g 0) 5 4 k.toNat

section
variable (hs : Safe s) (on : Bool) (k : BitVec 2)
include hs

theorem esEnable_esEnableRegs : (esEnableRegs s g on k).esEnable g = on := by
  obtain ⟨-, -, hregs, -⟩ := hs
  have hregs' := s.sorted_setRegB hregs (esReg g 0) 0 0 (b2n on)
  unfold esEnableRegs State.esEnable
  rw [State.regBit_setRegB_field _ hregs' _ _ (by decide) (by decide) (by decide), s.regBit_setRegB_same hregs _ _ (by decide)]
  cases on <;> rfl

theorem irqCore_esEnableRegs : (esEnableRegs s g on k).regB (esReg g 0) 5 4 = k.toNat := by
  obtain ⟨-, -, hregs, -⟩ := hs
  have hregs' := s.sorted_setRegB hregs (esReg g 0) 0 0 (b2n on)
  exact (State.regB_setRegB_same _ hregs' _ _ (by decide) (by decide)).trans (Nat.mod_eq_of_lt k.isLt)

theorem esStop_esEnableRegs : (esEnableRegs s g on k).esStop g = s.esStop g := by
  obtain ⟨-, -, hregs, -⟩ := hs
  have hregs' := s.sorted_setRegB hregs (esReg g 0) 0 0 (b2n on)
  unfold esEnableRegs State.esStop
  rw [State.regBit_setRegB_field _ hregs' _ _ (by decide) (by decide) (by decide),
    s.regBit_setRegB_field hregs _ _ (by decide) (by decide) (by decide)]

end

theorem runs_esCtrlEnable (hs : Safe s) (hd : Drives m (arrayDie g) s) (on : Bool) (k : BitVec 2) :
    Runs (.esCtrlEnable m g on k) s (fun t =>
      t.esEnable g = on ∧ t.regB (esReg g 0) 5 4 = k.toNat ∧ t.esStop g = s.esStop g ∧
      (on = true → (s.esOf g).halt = .aborted → (t.esOf g).halt = .none ∧ (t.esOf g).errCode = 0)) := by
  have henable := esEnable_esEnableRegs (g := g) hs on k
  have hcore := irqCore_esEnableRegs (g := g) hs on k
  have hstop := esStop_esEnableRegs (g := g) hs on k
  refine ⟨_, agentIf_drives hd _, ?_⟩
  split
  · exact ⟨henable, hcore, hstop, fun _ _ => by rw [esOf_setEs ((hs.setRegB ..).setRegB ..)]; exact ⟨rfl, rfl⟩⟩
  next hleft => exact ⟨henable, hcore, hstop, fun hon hhalt => absurd (by simp [hon, hhalt]) hleft⟩

/-- STOP holds what is written, and ENABLE stays (R73). -/
theorem esCtrl_setStop (hs : Safe s) (v : Nat) :
    (s.setRegB (esReg g 0) 2 2 v).esStop g = (v % 2 == 1) ∧ (s.setRegB (esReg g 0) 2 2 v).esEnable g = s.esEnable g := by
  obtain ⟨-, -, hregs, -⟩ := hs
  exact ⟨s.regBit_setRegB_same hregs _ _ (by decide), s.regBit_setRegB_field hregs _ _ (by decide) (by decide) (by decide)⟩

theorem runs_esCtrlStop (hs : Safe s) (hd : Drives m (arrayDie g) s) :
    Runs (.esCtrlStop m g) s (fun t => t.esStop g = true ∧ t.esEnable g = s.esEnable g) :=
  ⟨_, agentIf_drives hd _, esCtrl_setStop hs 1⟩

theorem runs_esCtrlUnstop (hs : Safe s) (hd : Drives m (arrayDie g) s) :
    Runs (.esCtrlUnstop m g) s (fun t => t.esStop g = false ∧ t.esEnable g = s.esEnable g) :=
  ⟨_, agentIf_drives hd _, esCtrl_setStop hs 0⟩

/-- What an ABORT leaves of the sequencer, before the pushes that waited enter (R73). -/
def esAborted (e : EsArray) (going : Bool) : EsArray :=
  { e with
    sfifo := [], pfifo := [], again := [], fetching := false, port := none, shadow := none, active := none
    swapping := false, runs := [], halt := .aborting (e.oldest going), errCode := 0
    pushed := e.done }

/-- The wait that an ABORT ends is counted, and nothing else changes (R75). -/
theorem halt_held (e : EsArray) (going : Bool) (waited : Nat) : (e.held going waited).halt = e.halt := by
  unfold EsArray.held
  split
  · rfl
  · split
    · split
      · rfl
      · rfl
    · rfl

theorem runs_esCtrlAbort (hs : Safe s) (hd : Drives m (arrayDie g) s) (waited : Nat) :
    Runs (.esCtrlAbort m ⟨g, waited⟩) s (fun t =>
      t.esOf g = (esAborted ((s.esOf g).held (s.esGoes g) waited) (s.esGoes g)).refill) := by
  have hput (t : State) (ht : Safe t) : (t.esAbort g).esOf g = (esAborted (t.esOf g) (t.esGoes g)).refill := esOf_putEs ht ..
  refine ⟨_, agentIf_drives hd _, ?_⟩
  beta_reduce
  rw [hput _ (hs.setEs ..), esOf_setEs hs, esGoes_setEs hs (halt_held ..)]

theorem runs_esCtrlResume (hs : Safe s) (hd : Drives m (arrayDie g) s) (hhalt : (s.esOf g).halt = .error) :
    Runs (.esCtrlResume m g) s (fun t =>
      (t.esOf g).halt = .none ∧ (t.esOf g).errCode = 0 ∧ (t.esOf g).pfifo = (s.esOf g).pfifo ∧
      (t.esOf g).done = if (s.esOf g).errCode = 7 then (s.esOf g).done else ((s.esOf g).done + 1) % 65536) := by
  obtain ⟨⟨hrun, hfree⟩, hwrite⟩ := hd
  refine ⟨_, agentIf_acts hrun hfree (by simp [hwrite, hhalt]) _, ?_⟩
  beta_reduce
  rw [apply_ite (State.esOf · g), esOf_counted, ite_self, esOf_putEs hs]
  exact ⟨rfl, rfl, rfl, rfl⟩

theorem runs_esCtrlClrCnt (hs : Safe s) (hd : Drives m (arrayDie g) s) :
    Runs (.esCtrlClrCnt m g) s (fun t => ∀ c < 4, (t.esOf g).counter c = 0) := by
  refine ⟨_, agentIf_drives hd _, fun c _ => ?_⟩
  rw [esOf_setEs hs]
  unfold EsArray.counter
  split <;> rfl

/-! #### Pushes -/

theorem runs_esSPush (hs : Safe s) (hd : Drives m (arrayDie g) s) (hhalt : (s.esOf g).halt ≠ .error) :
    Runs (.esSPush m g) s (fun t =>
      t.esOf g = ({ s.esOf g with sStall := (s.esOf g).sStall ++ [esStageRegs s g] } : EsArray).refill ∧
      (t.esOf g).sfifo ++ (t.esOf g).sStall = (s.esOf g).sfifo ++ (s.esOf g).sStall ++ [esStageRegs s g]) := by
  obtain ⟨⟨hrun, hfree⟩, hwrite⟩ := hd
  refine ⟨_, agentIf_acts hrun hfree (by simp [hwrite, hhalt]) _, ?_⟩
  beta_reduce
  rw [esOf_setEs hs, stages_esRefill]
  exact ⟨rfl, (List.append_assoc ..).symm⟩

theorem runs_esPPush (hs : Safe s) (hd : Drives m (arrayDie g) s) (hhalt : (s.esOf g).halt ≠ .error) :
    Runs (.esPPush m g) s (fun t =>
      t.esOf g = ({ s.esOf g with pStall := (s.esOf g).pStall ++ [esPassRegs s g] } : EsArray).refill ∧
      ((s.esOf g).pStall = [] → (s.esOf g).pfifo.length < 8 →
        (t.esOf g).pushed = ((s.esOf g).pushed + 1) % 65536 ∧
        (t.esOf g).pfifo = (s.esOf g).pfifo ++ [{ esPassRegs s g with seq := ((s.esOf g).pushed + 1) % 65536 }])) := by
  obtain ⟨⟨hrun, hfree⟩, hwrite⟩ := hd
  refine ⟨_, agentIf_acts hrun hfree (by simp [hwrite, hhalt]) _, ?_⟩
  beta_reduce
  rw [esOf_wakeArray, esOf_putEs hs]
  exact ⟨rfl, fun hstall hlen => esRefill_push hstall hlen _⟩

/-- A push in ERROR is discarded (R71). -/
theorem exec_esSPush_error (hd : Drives m (arrayDie g) s) (hhalt : (s.esOf g).halt = .error) :
    exec (.esSPush m g) s = .next s := agentIf_ignored hd.1 (by simp [hhalt]) _

theorem exec_esPPush_error (hd : Drives m (arrayDie g) s) (hhalt : (s.esOf g).halt = .error) :
    exec (.esPPush m g) s = .next s := agentIf_ignored hd.1 (by simp [hhalt]) _

theorem runs_esCntLoRead (hs : Safe s) (h : (s.isPf m || s.coreMayWrite m (arrayDie g)) = true) (c : Fin 4) :
    Runs (.esCntLoRead m g c) s (fun t =>
      (t.esOf g).latch = lmod (s.esOf g).latch c (fun _ => (s.esOf g).counter c / 2 ^ 32)) := by
  refine ⟨_, onlyIf_true h _ _, ?_⟩
  beta_reduce
  rw [esOf_setEs hs]

end

/-- Settles O3, from the lemmas about each of the commands. -/
theorem espalierControl : Obligations.EspalierControl := by
  unfold Obligations.EspalierControl
  exact ⟨fun s m g hs hd => ⟨runs_esCtrlEnable hs hd, runs_esCtrlStop hs hd, runs_esCtrlUnstop hs hd, runs_esCtrlAbort hs hd,
      runs_esCtrlResume hs hd, runs_esCtrlClrCnt hs hd, fun hhalt => ⟨runs_esSPush hs hd hhalt, runs_esPPush hs hd hhalt⟩,
      fun hhalt => ⟨exec_esSPush_error hd hhalt, exec_esPPush_error hd hhalt⟩⟩,
    fun s m g c hs h => runs_esCntLoRead hs h c⟩

end Sys2Proof

namespace Sys2Proof
open Machine

/-! ### O4: an Espalier's stages, swaps and the end of an ABORT -/

section
variable {s : State} {g : Fin 84}

/-- The head stage is taken off the stages that are fetched again, and off the FIFO's where there is none (R65, R74). -/
theorem stages_dropStage {e : EsArray} (h : e.headStage.isSome = true) :
    e.dropStage.again ++ (e.dropStage.sfifo ++ e.dropStage.sStall) = (e.again ++ e.sfifo ++ e.sStall).drop 1 := by
  unfold EsArray.headStage at h
  unfold EsArray.dropStage
  cases hagain : e.again with
  | cons x xs => simp
  | nil =>
    cases hfifo : e.sfifo with
    | cons x xs => simp
    | nil => simp [hagain, hfifo] at h

/-- A stage that is taken off leaves the buffers. -/
theorem buffers_dropStage (e : EsArray) : e.dropStage.shadow = e.shadow ∧ e.dropStage.port = e.port := by
  unfold EsArray.dropStage
  split
  · exact ⟨rfl, rfl⟩
  · exact ⟨rfl, rfl⟩

/-- No running pass awaits operands (R71). -/
theorem any_waiting_eq_false {rs : List EsRun} (h : ∀ r ∈ rs, r.waiting = false) : rs.any (·.waiting) = false :=
  List.any_eq_false.mpr fun r hr => by simp [h r hr]

/-- A unit that is not halted does what its command's meaning answers (R450). -/
theorem runs_unlessHalted {c : Instr} {u : StopUnit} {o : Out} {p : State → Prop} (hhalt : s.halted u = false)
    (he : exec c s = unlessHalted s u o) (ho : ∃ t, o = .next t ∧ p t) : Runs c s p := by
  unfold Runs
  rwa [he, unlessHalted_runs hhalt]

variable (hhalt : s.halted (arrayUnit g) = false)
include hhalt

theorem exec_esStageFetch (hgo : s.esGoes g = true) (hfetch : (s.esOf g).fetching = false) (hport : (s.esOf g).port = none)
    (hst : (s.esOf g).headStage.isSome = true) :
    exec (.esStageFetch g) s = .next (s.setEs g { s.esOf g with fetching := true }) :=
  (unlessHalted_runs hhalt _).trans (onlyIf_true (by simp [hgo, hfetch, hport, hst]) _ _)

theorem runs_esStageDataArrive (hs : Safe s) {st : EsStage} (hst : (s.esOf g).headStage = some st)
    (hon : s.islOn (arrayIsland g) = true) (hfetch : (s.esOf g).fetching = true) :
    Runs (.esStageDataArrive g) s (fun t =>
      (t.esOf g).port = some (s.readTile g st) ∧ (t.esOf g).fetching = false) := by
  refine runs_unlessHalted hhalt rfl ?_
  simp only [hst]
  refine ⟨_, onlyIf_true (by simp [hon, hfetch]) _ _, ?_⟩
  rw [esOf_setEs (hs.noteRanges ..)]
  exact ⟨rfl, rfl⟩

theorem runs_esShadowValid (hs : Safe s) {tile : EsTile} (hon : s.islOn (arrayIsland g) = true)
    (hport : (s.esOf g).port = some tile) (hshadow : (s.esOf g).shadow = none)
    (hfree : (s.esOf g).swapping = false ∨ s.esGoes g = false) (hst : (s.esOf g).headStage.isSome = true) :
    Runs (.esShadowValid g) s (fun t =>
      (t.esOf g).shadow = some tile ∧ (t.esOf g).port = none ∧
      (t.esOf g).again ++ (t.esOf g).sfifo ++ (t.esOf g).sStall =
        ((s.esOf g).again ++ (s.esOf g).sfifo ++ (s.esOf g).sStall).drop 1) := by
  have hfree' : ((s.esOf g).swapping && s.esGoes g) = false := Bool.and_eq_false_iff.mpr hfree
  refine ⟨_, (unlessHalted_runs hhalt _).trans (onlyIf_true (by simp [hon, hport, hshadow, hfree']) _ _), ?_⟩
  beta_reduce
  rw [esOf_setEs hs, List.append_assoc, stages_esRefill]
  obtain ⟨hsh, hpt⟩ := buffers_dropStage { s.esOf g with shadow := (s.esOf g).port, port := none }
  exact ⟨hsh.trans hport, hpt, stages_dropStage hst⟩

theorem runs_esSwapBegin (hs : Safe s) {p : EsPass} {rest : List EsPass} {tile : EsTile} (waited : Nat)
    (hp : (s.esOf g).pfifo = p :: rest) (hgo : s.esGoes g = true) (hswap : p.wAction = 1)
    (hfirst : (s.esOf g).swapping = false) (hshadow : (s.esOf g).shadow = some tile)
    (hruns : ∀ r ∈ (s.esOf g).runs, r.waiting = false) :
    Runs (.esSwapBegin g waited) s (fun t =>
      (t.esOf g).active = some tile ∧ (t.esOf g).shadow = none ∧ (t.esOf g).swapping = true ∧
      (t.esOf g).cntSwap = ((s.esOf g).cntSwap + waited + 32) % 2 ^ 64) := by
  refine runs_unlessHalted hhalt rfl ?_
  simp only [hp]
  refine ⟨_, onlyIf_true (by simp [hgo, hswap, hfirst, hshadow, any_waiting_eq_false hruns]) _ _, ?_⟩
  rw [esOf_setEs hs]
  exact ⟨hshadow, rfl, rfl, rfl⟩

theorem runs_esAbortSettle_stopped (hs : Safe s) (habort : (s.esOf g).halt = .aborting none) :
    Runs (.esAbortSettle g) s (fun t => (t.esOf g).halt = .aborted) := by
  refine runs_unlessHalted hhalt rfl ?_
  simp only [habort]
  refine ⟨_, rfl, ?_⟩
  rw [esOf_setEs hs]

theorem runs_esAbortSettle_error (hs : Safe s) {seq row : Nat} (habort : (s.esOf g).halt = .aborting (some (seq, row))) :
    Runs (.esAbortSettle g) s (fun t =>
      (t.esOf g).halt = .error ∧ (t.esOf g).errCode = 7 ∧ (t.esOf g).errSeq = seq ∧ (t.esOf g).errRow = row) := by
  refine runs_unlessHalted hhalt rfl ?_
  simp only [habort]
  refine ⟨_, rfl, ?_⟩
  rw [esOf_setEs_esIrq hs]
  exact ⟨rfl, rfl, rfl, rfl⟩

end

/-- Settles O4, from the lemmas about each of the commands. -/
theorem espalierStages : Obligations.EspalierStages := by
  unfold Obligations.EspalierStages
  intro s g hs hhalt
  exact ⟨exec_esStageFetch hhalt, fun _ => runs_esStageDataArrive hhalt hs, fun _ => runs_esShadowValid hhalt hs,
    fun _ _ _ w => runs_esSwapBegin hhalt hs w, runs_esAbortSettle_stopped hhalt hs, fun _ _ => runs_esAbortSettle_error hhalt hs⟩

end Sys2Proof

namespace Sys2Proof
open Machine

/-! ### O5: a pass on an Espalier -/

/-- The state in which the presented rows are stored one after the other, and the saturations that they count (R63, R442). -/
def rowsWritten (s : State) (g : Nat) (r : EsRun) (lost : List PAddr) : State × Nat :=
  r.group.foldl (fun y m => ((y.1.writeRow g r m lost).1, y.2 + (y.1.writeRow g r m lost).2)) (s, 0)

theorem Safe.rowsWritten {s : State} (h : Safe s) (g r lost) : Safe (rowsWritten s g r lost).1 :=
  Safe.foldl_fst (fun _ _ hy => by exact hy.writeRow ..) _ h

section
variable {s : State} {g : Fin 84} (hs : Safe s) (hhalt : s.halted (arrayUnit g) = false)
include hs hhalt

/-! #### The start of a pass -/

section
variable {p : EsPass} {rest : List EsPass} (waits : Option (Fin 65536)) (hp : (s.esOf g).pfifo = p :: rest)
  (hstall : (s.esOf g).pStall = []) (hgo : s.esGoes g = true) (hswap : p.wAction ≠ 1 ∨ (s.esOf g).swapping = true)
  (hruns : ∀ r ∈ (s.esOf g).runs, r.waiting = false)
include hp hstall hgo hswap hruns

theorem runs_esPassStart {tile : EsTile} (hactive : (s.esOf g).active = some tile)
    (hcode : s.passStartCode g p (some tile) = 0) :
    Runs (.esPassStart g waits) s (fun t =>
      (t.esOf g).pfifo = rest ∧
      (t.esOf g).cntBusy = ((s.esOf g).cntBusy + p.injects 0 (p.waitRow waits)) % 2 ^ 64 ∧
      (t.esOf g).runs = (s.esOf g).runs ++ [{ pass := p, tile := tile, upto := p.waitRow waits
                                              rows := s.readRows g p tile.stage.kAct 0 (p.waitRow waits) }]) := by
  refine runs_unlessHalted hhalt rfl ?_
  simp only [hp, hactive, hcode]
  refine ⟨_, onlyIf_true (by simp [hgo, hswap, any_waiting_eq_false hruns]) _ _, ?_⟩
  rw [esOf_putEs ((hs.noteHeader ..).noteRanges ..), pfifo_esRefill (by exact hstall)]
  exact ⟨rfl, rfl, rfl⟩

theorem runs_esPassStart_error (hcode : s.passStartCode g p (s.esOf g).active ≠ 0) :
    Runs (.esPassStart g waits) s (fun t =>
      (t.esOf g).pfifo = rest ∧ (t.esOf g).halt = .error ∧
      (t.esOf g).errCode = s.passStartCode g p (s.esOf g).active ∧
      (t.esOf g).errSeq = p.seq ∧ (t.esOf g).errRow = 0 ∧ (t.esOf g).done = (s.esOf g).done) := by
  refine runs_unlessHalted hhalt rfl ?_
  simp only [hp]
  split
  next hzero => exact absurd hzero hcode
  next =>
    refine ⟨_, onlyIf_true (by simp [hgo, hswap, any_waiting_eq_false hruns]) _ _, ?_⟩
    rw [esOf_putEs_esIrq (hs.noteHeader ..), pfifo_esRefill (by exact hstall)]
    exact ⟨rfl, rfl, rfl, rfl, rfl, rfl⟩

end

/-! #### Operands and rows -/

theorem runs_esOperandArrive {r : EsRun} (cycles : Nat) (waits : Option (Fin 65536))
    (hr : (s.esOf g).runs.find? (·.waiting) = some r) (hon : s.islOn (arrayIsland g) = true) :
    Runs (.esOperandArrive g ⟨cycles, waits⟩) s (fun t =>
      let hi := if r.upto < r.pass.waitRow waits then r.pass.waitRow waits else r.pass.m
      (t.esOf g).runs = lmodFirst (·.waiting) (fun q => { q with
        upto := hi, rows := q.rows ++ s.readRows g q.pass r.tile.stage.kAct q.upto hi }) (s.esOf g).runs ∧
      (t.esOf g).cntOper = ((s.esOf g).cntOper + cycles) % 2 ^ 64) := by
  refine runs_unlessHalted hhalt rfl ?_
  simp only [hr]
  refine ⟨_, onlyIf_true hon _ _, ?_⟩
  rw [esOf_setEs (hs.noteRanges ..)]
  exact ⟨rfl, rfl⟩

theorem runs_esRowWrite {r : EsRun} (lost : List PAddr) (hr : (s.esOf g).writer = some r)
    (hon : s.islOn (arrayIsland g) = true) (hrows : ∀ m ∈ r.group, m < r.upto ∧ s.rowError g r m = none) :
    Runs (.esRowWrite ⟨g, lost⟩) s (fun t =>
      let x := rowsWritten s g r lost
      t.mem = x.1.mem ∧ (t.esOf g).cntSat = min (2 ^ 64 - 1) ((s.esOf g).cntSat + x.2) ∧
      (t.esOf g).runs = lmodFirst (fun q => decide (q.written < q.pass.m))
        (fun q => { q with written := q.written + r.group.length }) (s.esOf g).runs) := by
  have hall : r.group.all (fun m => decide (m < r.upto) && (s.rowError g r m).isNone) = true :=
    List.all_eq_true.mpr fun m hm => by simp [hrows m hm]
  refine runs_unlessHalted hhalt rfl ?_
  simp only [hr]
  refine ⟨_, onlyIf_true (by simp only [hon, hall, Bool.and_self]) _ _, rfl, ?_⟩
  have hset := esOf_setEs (hs.rowsWritten g r lost) g
  exact ⟨congrArg EsArray.cntSat (hset _), congrArg EsArray.runs (hset _)⟩

/-! #### The end of a pass -/

theorem runs_esPassDone {r : EsRun} {rest : List EsRun} (hr : (s.esOf g).runs = r :: rest) (hlast : r.pass.m ≤ r.written) :
    Runs (.esPassDone g) s (fun t =>
      (t.esOf g).done = ((s.esOf g).done + 1) % 65536 ∧ (t.esOf g).runs = rest) := by
  refine runs_unlessHalted hhalt rfl ?_
  simp only [hr]
  refine ⟨_, onlyIf_true (decide_eq_true hlast) _ _, ?_⟩
  rw [esOf_counted, esOf_putEs hs]
  exact ⟨rfl, rfl⟩

theorem runs_esPassError {r : EsRun} {code : Nat} {rest : List Nat} (hr : (s.esOf g).writer = some r)
    (hcode : r.group.filterMap (s.rowError g r) = code :: rest) (hrows : ∀ m ∈ r.group, m < r.upto)
    (hrun : (s.esOf g).halt = .none) :
    Runs (.esPassError g) s (fun t =>
      (t.esOf g).halt = .error ∧ (t.esOf g).errCode = code ∧ (t.esOf g).errRow = r.written ∧
      (t.esOf g).errSeq = r.pass.seq ∧ (t.esOf g).done = (s.esOf g).done ∧ (t.esOf g).pfifo = (s.esOf g).pfifo) := by
  have hall : r.group.all (fun m => decide (m < r.upto)) = true :=
    List.all_eq_true.mpr fun m hm => decide_eq_true (hrows m hm)
  refine runs_unlessHalted hhalt rfl ?_
  simp only [hr, hcode, List.head?_cons]
  refine ⟨_, onlyIf_true (by simp only [hall, hrun, beq_self_eq_true, Bool.and_self]) _ _, ?_⟩
  rw [esOf_setEs_esIrq hs]
  exact ⟨rfl, rfl, rfl, rfl, rfl, rfl⟩

end

/-- Settles O5, from the lemmas about each of the commands. -/
theorem espalierPasses : Obligations.EspalierPasses := by
  unfold Obligations.EspalierPasses
  intro s g hs hhalt
  refine ⟨?_, ?_, ?_, ?_, ?_, ?_⟩
  · exact fun p rest tile waits hp hstall hactive hcode hgo hswap hruns =>
      runs_esPassStart hs hhalt waits hp hstall hgo hswap hruns hactive hcode
  · exact fun p rest waits hp hstall hcode hgo hswap hruns =>
      runs_esPassStart_error hs hhalt waits hp hstall hgo hswap hruns hcode
  · exact fun r cycles waits hr hon => runs_esOperandArrive hs hhalt cycles waits hr hon
  · exact fun r lost hr hon hrows => runs_esRowWrite hs hhalt lost hr hon hrows
  · exact fun r rest hr hlast => runs_esPassDone hs hhalt hr hlast
  · exact fun r code rest hr hcode hrows hrun => runs_esPassError hs hhalt hr hcode hrows hrun

end Sys2Proof

namespace Sys2Proof
open Machine

/-! ### O11: what an access of a bank may store -/

/-- The keys of the eight bytes from k on. -/
def wordKeys (k : Nat) (x : Nat) : Prop := k ≤ x ∧ x < k + 8

section
variable {p : Nat → Prop} {s t : State}

/-! #### What the operations of a bank leave -/

theorem Within.irqTo (h : Within p s t) (core src) : Within p s (t.irqTo core src) := h.of_eq

theorem Within.bootFailed (h : Within p s t) : Within p s t.bootFailed := .ite h.of_eq h

theorem Within.raiseFatal (h : Within p s t) (cause die) : Within p s (t.raiseFatal cause die) := by
  unfold State.raiseFatal
  extract_lets t₁ t₂
  have h₁ : Within p s t₁ := (h.setReg (by unfold dlPage; decide) _).bootFailed
  have h₂ : Within p s t₂ := h₁.setReg (by unfold dlPage; decide) _
  exact .ite h h₂.of_eq

theorem Within.bondedError (h : Within p s t) (k) : Within p s (t.bondedError k) := .ite (h.raiseFatal ..) h

theorem Within.answer (h : Within p s t) (m st data) : Within p s (t.answer m st data) := h.of_eq

theorem Within.readWord (h : Within p s t) (m k) : Within p s (t.readWord m k).1 := by
  unfold State.readWord
  split
  · exact h
  · split
    · exact ((h.eccReport ..).of_eq).bondedError ..
    · exact (h.eccReport ..).of_eq

/-- A run of bytes at keys that p names leaves what lies outside (R93). -/
theorem rdByte_wrBytes_of_not (m : Memory) (bs : List Byte) (k : Nat) (hp : ∀ i < bs.length, p (k + i)) {x : Nat} (hx : ¬ p x) :
    rdByte (wrBytes m k bs) x = rdByte m x := by
  induction bs generalizing m k with
  | nil => rfl
  | cons b bs ih =>
    refine (ih (wrByte m k b) (k + 1) fun i hi => ?_).trans (tget_tset_other 0 m b ?_)
    · rw [Nat.add_right_comm]
      exact hp (i + 1) (Nat.succ_lt_succ hi)
    · rintro rfl
      exact hx (hp 0 (Nat.succ_pos _))

variable {k : Nat}

theorem Within.putWord (h : Within (wordKeys k) s t) (v) : Within (wordKeys k) s (t.putWord k v) := by
  refine ⟨fun x hx => ?_, h.reg⟩
  refine (rdByte_wrBytes_of_not t.mem _ k (fun i hi => ?_) hx).trans (h.mem x hx)
  rw [length_leBytes] at hi
  exact ⟨by omega, by omega⟩

theorem Within.writeWord (h : Within (wordKeys k) s t) (m mask data) : Within (wordKeys k) s (t.writeWord m k mask data).1 := by
  unfold State.writeWord
  extract_lets r
  have hr : Within (wordKeys k) s r.1 := h.readWord ..
  split
  · exact h.putWord _
  · split
    · exact hr
    · exact hr.putWord _

theorem Within.doAccess (h : Within (wordKeys k) s t) (m op) : Within (wordKeys k) s (t.doAccess m k op) := by
  unfold State.doAccess
  split
  · exact (h.readWord ..).answer ..
  · exact (h.readWord ..).answer ..
  · exact (h.writeWord ..).answer ..

theorem Within.meet (h : Within (wordKeys k) s t) (d bank q r) : Within (wordKeys k) s (t.meet d bank k q r) := by
  unfold State.meet
  split
  · exact .ite (((h.doAccess ..).answer ..).collided ..) (((h.doAccess ..).answer ..).collided ..)
  · exact (h.doAccess ..).doAccess ..
  · exact (h.doAccess ..).doAccess ..

theorem Within.copyWord (h : Within p s t) (d i) : Within p s (t.copyWord d i) := by
  unfold State.copyWord
  extract_lets _ _ t₁ t₂
  have h₁ : Within p s t₁ := h.of_eq
  have h₂ : Within p s t₂ := h₁.eccReport ..
  exact .ite h₁ (.ite (h₂.bondedError ..) h₂.of_eq)

theorem Within.accept (h : Within p s t) (d bank word q port) : Within p s (t.accept d bank word q port) := by
  unfold State.accept
  extract_lets t₁ _ t₂
  have h₁ : Within p s t₁ := .ite (h.count (not_dlPage_bkPage _ _) _) h
  have h₂ : Within p s t₂ := .ite h₁.of_eq h₁
  exact .ite (h₂.copyWord ..) h₂

theorem Within.alone (h : Within p s t) (q port others a write) {f : Die → State → State}
    (hf : ∀ d u, Within p s u → Within p s (f d u)) : Within p s (t.alone q port others a write f) := by
  unfold State.alone
  split
  · exact (Within.ite h.of_eq h).answer ..
  · split
    · exact .ite (hf _ _ (h.accept ..)) h
    · exact h
    · exact h.answer ..

theorem Within.doAtomic (h : Within (wordKeys k) s t) (d m a opc x) : Within (wordKeys k) s (t.doAtomic d m k a opc x).1 := by
  unfold State.doAtomic
  extract_lets _ _ r
  have hr : Within (wordKeys k) s r.1 := h.readWord ..
  split
  · exact h
  · split
    · exact h.count (not_dlPage_bkPage _ _) _
    · split
      · exact hr
      · split
        · exact h
        · exact hr.putWord _

theorem Within.atomicAnswered (h : Within (wordKeys k) s t) (d m a opc x) :
    Within (wordKeys k) s (t.atomicAnswered d m k a opc x) := by
  unfold State.atomicAnswered
  extract_lets r t₁
  have h₁ : Within (wordKeys k) s t₁ := (h.doAtomic ..).answer ..
  exact .ite (h₁.irqTo ..) h₁

/-! #### The commands -/

/-- An access of the word that an address names (R93). -/
theorem Within.access {a : Nat} (h : Within (wordKeys (s.key (a / 8 * 8))) s t) (q others) :
    Within (wordKeys (s.key (a / 8 * 8))) s (t.access q others a) := by
  unfold State.access
  rw [h.key]
  exact h.alone _ _ _ _ _ fun _ _ hu => hu.doAccess ..

/-- Bits that flip in the word before the access are no store. -/
theorem Within.upset (h : Within p s t) (k u) : Within p s (t.upset k u) := h.of_eq

theorem within_execBankAccess {q : BankReq} {a : PAddr} {r others u v} (e : execBankAccess q a r others u v s = .next t) :
    Within (wordKeys (s.key (a.toNat / 8 * 8))) s t := by
  unfold execBankAccess at e
  extract_lets _ n k t₁ at e
  have h₁ : Within (wordKeys k) s t₁ := .ite ((Within.refl ..).upset ..) (.refl ..)
  split at e
  · exact Host.Outcome.next.inj e ▸ .refl ..
  · refine Host.Outcome.next.inj e ▸ ?_
    split
    · exact h₁.access ..
    · split
      · exact .ite (h₁.access ..) (.ite (((h₁.accept ..).accept ..).meet ..) ((h₁.access ..).access ..))
      · exact (h₁.access ..).access ..

theorem within_execBankAtomic {q : BankReq} {a : PAddr} {opc x r others u}
    (e : execBankAtomic q a opc x r others u s = .next t) : Within (wordKeys (s.key (a.toNat / 8 * 8))) s t := by
  unfold execBankAtomic at e
  extract_lets n k atom single t₁ at e
  have hatom (d u) (hu : Within (wordKeys k) s u) : Within (wordKeys k) s (atom d u) := hu.atomicAnswered ..
  have hsingle {u} (hu : Within (wordKeys k) s u) (others) : Within (wordKeys k) s (single u others) :=
    hu.alone _ _ _ _ _ hatom
  have h₁ : Within (wordKeys k) s t₁ := .ite ((Within.refl ..).upset ..) (.refl ..)
  split at e
  · exact Host.Outcome.next.inj e ▸ .refl ..
  · refine Host.Outcome.next.inj e ▸ ?_
    split
    · exact hsingle h₁ _
    · split
      · extract_lets u
        have hu : Within (wordKeys k) s u := (h₁.accept ..).accept ..
        exact .ite (hsingle h₁ _) (.ite (.ite ((hatom _ _ hu).doAccess ..) (hatom _ _ (hu.doAccess ..))) (h₁.access ..))
      · exact (hsingle h₁ _).access ..

theorem memKept_execHbmAtomic {m : Fin 512} {a : PAddr} {opc x u} (e : execHbmAtomic m a opc x u s = .next t) :
    MemKept (wordKeys (a.toNat / 8 * 8)) s t := by
  have hsame {v : State} (hv : v.mem = s.mem) : MemKept (wordKeys (a.toNat / 8 * 8)) s v := fun x _ => by rw [hv]
  unfold execHbmAtomic at e
  extract_lets n at e
  split at e
  next h _ _ =>
    extract_lets d at e
    split_ifs at e
    · exact Host.Outcome.next.inj e ▸ hsame rfl
    · exact Host.Outcome.next.inj e ▸ hsame (hiErr_keeps ..).1
    · exact Host.Outcome.next.inj e ▸ ((Within.refl ..).atomicAnswered ..).mem
    · exact Host.Outcome.next.inj e ▸ hsame rfl
  next => exact Host.Outcome.next.inj e ▸ hsame rfl

end

/-- Settles O11: every operation of an access stores in the word that the address names or nowhere. -/
theorem bankAccessFrame : Obligations.BankAccessFrame := by
  unfold Obligations.BankAccessFrame
  exact ⟨fun _ _ _ _ _ _ _ _ _ e => (within_execBankAccess e).mem, fun _ _ _ _ _ _ _ _ _ _ e => (within_execBankAtomic e).mem,
    fun _ _ _ _ _ _ _ _ e => memKept_execHbmAtomic e⟩

end Sys2Proof

namespace Sys2Proof
open Machine

/-! ### O9: the bank page's writes and the Dredge -/

/-! #### Registers that read 0 after a reset -/

/-- What holds of 0 and of the reset value of every row that has a register in a range holds of the range's reset values. -/
theorem regReset_of_rows {P : Word → Bool} {lo hi o : Nat} (h0 : P 0 = true)
    (h : regRows.all (fun r => misses lo hi 1 0 r || P (BitVec.ofNat 32 r.reset)) = true) (hlo : lo ≤ o) (hhi : o ≤ hi) :
    P (regReset o) = true := by
  unfold regReset
  split
  next r hr =>
    have hmem : r ∈ regRows := List.mem_of_find?_eq_some hr
    have hhas : r.has o = true := List.find?_some (p := fun r : RegRow => r.has o) hr
    obtain hmiss | hreset := Bool.or_eq_true_iff.mp (List.all_eq_true.mp h r hmem)
    · rw [not_has_of_misses hmiss (regRows_strides r hmem) hlo hhi (Nat.mod_one o)] at hhas
      cases hhas
    · exact hreset
  next => exact h0

/-- A register that no row lists, or only rows whose registers read 0 after a reset. -/
theorem regReset_eq_zero {lo hi o : Nat}
    (h : regRows.all (fun r => misses lo hi 1 0 r || BitVec.ofNat 32 r.reset == 0) = true) (hlo : lo ≤ o) (hhi : o ≤ hi) :
    regReset o = 0 :=
  eq_of_beq (regReset_of_rows (P := (· == 0)) rfl h hlo hhi)

theorem index_lt (d : Die) : d.index < 10 := by
  cases d <;> simp only [Die.index] <;> omega

/-- The counts of a bank page: BK_ATOM_FAULT, the ECC counts, the counts of R442, and the wait and collision counts of each
master (R98). -/
def bkCount (o : Nat) : Prop :=
  o = 0x0008 ∨ (0x0100 ≤ o ∧ o ≤ 0x0104) ∨ (0x0300 ≤ o ∧ o ≤ 0x0308) ∨ (0x8000 ≤ o ∧ o < 0x9000)

theorem regReset_bkCount (d : Die) {o : Nat} (ho : bkCount o) : regReset (bkReg d o) = 0 := by
  have hpage (lo hi : Nat) (h : ∀ n : Fin 10,
      regRows.all (fun r =>
        misses (bkBlock + 0x10000 * n + lo) (bkBlock + 0x10000 * n + hi) 1 0 r || BitVec.ofNat 32 r.reset == 0) = true)
      (hlo : lo ≤ o) (hhi : o ≤ hi) : regReset (bkReg d o) = 0 :=
    regReset_eq_zero (h ⟨d.index, index_lt d⟩) (by simp only [bkReg]; omega) (by simp only [bkReg]; omega)
  obtain rfl | ⟨hlo, hhi⟩ | ⟨hlo, hhi⟩ | ⟨hlo, hhi⟩ := ho
  · exact hpage 0x0008 0x0008 (by decide +kernel) le_rfl le_rfl
  · exact hpage 0x0100 0x0104 (by decide +kernel) hlo hhi
  · exact hpage 0x0300 0x0308 (by decide +kernel) hlo hhi
  · exact hpage 0x8000 0x8FFF (by decide +kernel) hlo (by omega)

theorem reg_resetRegs (s : State) (lo hi o : Nat) :
    (s.resetRegs lo hi).reg o = if lo ≤ o ∧ o < hi then regReset o else s.reg o := by
  have h := tget_filter (regReset o) (fun x => !(decide (lo ≤ x) && decide (x < hi))) s.regs o
  refine h.trans ?_
  by_cases hin : lo ≤ o ∧ o < hi
  · simp [hin]
  · rw [if_neg hin]
    simp [not_and_or.mp hin |>.imp Nat.not_le.mp Nat.not_lt.mp, State.reg]

section
variable {s : State} {m : Agent} {d : Die}

/-- Registers of a page that were reset read 0 where they are counts. -/
theorem regN_resetRegs_bkCount {lo hi o : Nat} (ho : bkCount o) (hlo : lo ≤ o) (hhi : o < hi) :
    (s.resetRegs (bkReg d lo) (bkReg d hi)).regN (bkReg d o) = 0 := by
  unfold State.regN
  rw [reg_resetRegs, if_pos (by simp only [bkReg]; omega), regReset_bkCount d ho]
  rfl

/-- A reset of other registers of the page keeps a count that reads 0. -/
theorem regN_resetRegs_zero {lo hi o : Nat} (ho : bkCount o) (h : s.regN (bkReg d o) = 0) :
    (s.resetRegs (bkReg d lo) (bkReg d hi)).regN (bkReg d o) = 0 := by
  unfold State.regN
  rw [reg_resetRegs]
  split
  · rw [regReset_bkCount d ho]
    rfl
  · exact h

/-! #### BK_CTRL -/

theorem agentIf_bkMayWrite (ha : Acts m s) (hw : s.bkMayWrite m d = true) (t : State) :
    agentIf m (s.bkMayWrite m d) s t = .next t := by
  obtain ⟨hrun, hfree⟩ := ha
  exact agentIf_acts hrun hfree hw t

theorem runs_bkCtrlClrEcc (ha : Acts m s) (hw : s.bkMayWrite m d = true) :
    Runs (.bkCtrlClrEcc m d) s (fun t => t.regN (bkReg d 0x0100) = 0 ∧ t.regN (bkReg d 0x0104) = 0) :=
  ⟨_, agentIf_bkMayWrite ha hw _, regN_resetRegs_bkCount (.inr (.inl (by decide))) (by decide) (by decide),
    regN_resetRegs_bkCount (.inr (.inl (by decide))) (by decide) (by decide)⟩

theorem runs_bkCtrlClrConf (ha : Acts m s) (hw : s.bkMayWrite m d = true) :
    Runs (.bkCtrlClrConf m d) s (fun t => t.regN (bkReg d 0x0008) = 0 ∧ t.regN (bkReg d 0x0300) = 0 ∧
      t.regN (bkReg d 0x0304) = 0 ∧ t.regN (bkReg d 0x0308) = 0 ∧
      ∀ k < 512, t.regN (bkReg d (0x8000 + 4 * k)) = 0 ∧ t.regN (bkReg d (0x8800 + 4 * k)) = 0) := by
  refine ⟨_, agentIf_bkMayWrite ha hw _, ?_, ?_, ?_, ?_, fun k hk => ?_⟩
  · have h : bkCount 0x0008 := .inl rfl
    exact regN_resetRegs_zero h (regN_resetRegs_bkCount h (by decide) (by decide))
  · exact regN_resetRegs_bkCount (.inr (.inr (.inl (by decide)))) (by decide) (by decide)
  · exact regN_resetRegs_bkCount (.inr (.inr (.inl (by decide)))) (by decide) (by decide)
  · exact regN_resetRegs_bkCount (.inr (.inr (.inl (by decide)))) (by decide) (by decide)
  · have hmaster {o : Nat} (hlo : 0x8000 ≤ o) (hhi : o < 0x9000) : (((s.resetRegs (bkReg d 0x8000) (bkReg d 0x9000)).resetRegs
        (bkReg d 0x0008) (bkReg d 0x000C)).resetRegs (bkReg d 0x0300) (bkReg d 0x030C)).regN (bkReg d o) = 0 := by
      have h : bkCount o := .inr (.inr (.inr ⟨hlo, hhi⟩))
      exact regN_resetRegs_zero h (regN_resetRegs_zero h (regN_resetRegs_bkCount h hlo hhi))
    exact ⟨hmaster (by omega) (by omega), hmaster (by omega) (by omega)⟩

/-! #### BK_RULE -/

theorem mergeRules_lt (old new n : Nat) : mergeRules old new n < 4 ^ n := by
  induction n with
  | zero => exact Nat.one_pos
  | succ n ih =>
    have hfield : (if new / 4 ^ n % 4 = 3 then old / 4 ^ n % 4 else new / 4 ^ n % 4) ≤ 3 := by
      split <;> omega
    have := Nat.mul_le_mul_left (4 ^ n) hfield
    simp only [mergeRules]
    omega

/-- Each field takes the value written, but for 0b11, which keeps it (R100). -/
theorem mergeRules_field (old new : Nat) {n k : Nat} (hk : k < n) :
    mergeRules old new n / 4 ^ k % 4 = if new / 4 ^ k % 4 = 3 then old / 4 ^ k % 4 else new / 4 ^ k % 4 := by
  induction n with
  | zero => exact absurd hk (Nat.not_lt_zero k)
  | succ n ih =>
    simp only [mergeRules]
    obtain rfl | hlt := Nat.eq_or_lt_of_le (Nat.le_of_lt_succ hk)
    · rw [Nat.add_mul_div_left _ _ (Nat.pow_pos (by decide)), Nat.div_eq_of_lt (mergeRules_lt old new k), Nat.zero_add]
      split
      · exact Nat.mod_mod ..
      · exact Nat.mod_mod ..
    · have hpow : 4 ^ n = 4 ^ k * (4 * 4 ^ (n - k - 1)) := by
        rw [← Nat.pow_succ', ← Nat.pow_add]
        congr 1
        omega
      rw [hpow, Nat.mul_assoc, Nat.add_mul_div_left _ _ (Nat.pow_pos (by decide)), Nat.mul_assoc, Nat.add_mul_mod_self_left, ih hlt]

/-- A bank's rule is a field of its BK_RULE register (R100). -/
theorem bankRule_eq (s : State) (d : Die) (i : Nat) {k : Nat} (hk : k < 16) :
    s.bankRule d (16 * i + k) = s.regN (bkReg d (0x4000 + 4 * i)) / 4 ^ k % 4 := by
  have hreg : (16 * i + k) / 16 = i := by omega
  have hfield : (16 * i + k) % 16 = k := by omega
  have hwidth : 2 * k + 1 + 1 - 2 * k = 2 := by omega
  simp only [State.bankRule, State.regB, bitsOf, hreg, hfield, hwidth, Nat.pow_mul, Nat.reducePow]

theorem runs_bkRuleWrite (hs : Safe s) (ha : Acts m s) (hw : s.bkMayWrite m d = true) (i : Fin 192) (v : Word)
    (hi : i.val < ruleRegs d) : Runs (.bkRuleWrite m d i v) s (fun t => ∀ k < 16, t.bankRule d (16 * i.val + k) =
      if v.toNat / 4 ^ k % 4 = 3 then s.bankRule d (16 * i.val + k) else v.toNat / 4 ^ k % 4) := by
  obtain ⟨-, -, hregs, -⟩ := hs
  obtain ⟨hrun, hfree⟩ := ha
  refine ⟨_, agentIf_acts hrun hfree (by simp [hw, hi]) _, fun k hk => ?_⟩
  have hreg : (s.setReg (bkReg d (0x4000 + 4 * i)) (mergeRules (s.regN (bkReg d (0x4000 + 4 * i))) v.toNat 16)).regN
      (bkReg d (0x4000 + 4 * i)) = mergeRules (s.regN (bkReg d (0x4000 + 4 * i))) v.toNat 16 := by
    rw [s.regN_setReg_same hregs]
    exact Nat.mod_eq_of_lt (mergeRules_lt ..)
  rw [bankRule_eq _ d i hk, bankRule_eq s d i hk]
  refine (congrArg (· / 4 ^ k % 4) ?_).trans (mergeRules_field _ _ hk)
  split
  · exact hreg
  · exact hreg

theorem runs_bkDrEnableWrite (hs : Safe s) (ha : Acts m s) (hw : s.bkMayWrite m d = true) (on : Bool) :
    Runs (.bkDrEnableWrite m d on) s (fun t => t.regBit (bkReg d 0x0200) 0 = on) := by
  obtain ⟨-, -, hregs, -⟩ := hs
  refine ⟨_, agentIf_bkMayWrite ha hw _, ?_⟩
  have hreg : (s.setReg (bkReg d 0x0200) (b2n on)).regN (bkReg d 0x0200) = b2n on := by
    rw [s.regN_setReg_same hregs]
    cases on <;> rfl
  refine (congrArg (bitOf · 0) hreg).trans ?_
  cases on <;> rfl

/-! #### Writebacks -/

theorem runs_eccWriteback {bank : Fin 12288} {word : Fin 32768} (hbank : bank.val < bankCount d)
    (hdue : wordKey d bank word ∈ s.bk.writeback) :
    Runs (.eccWriteback d bank word) s (fun t => wordKey d bank word ∉ t.bk.writeback ∧ t.mem = s.mem) :=
  ⟨_, onlyIf_true (by simp [hbank, hdue]) _ _, by simp, rfl⟩

/-! #### What a copy of a word leaves -/

theorem bk_hiErr (s : State) (bit : Nat) : (s.hiErr bit).bk = s.bk := by
  unfold State.hiErr State.sendVec
  extract_lets t
  have ht : t.bk = s.bk := rfl
  split_ifs
  · exact ht
  · exact ht
  · exact ht

theorem dredge_eccReport (s : State) (m k : Nat) (bad : Bool) : (s.eccReport m k bad).bk.dredge = s.bk.dredge := by
  unfold State.eccReport
  split
  · rfl
  · extract_lets b _ _ t₁ t₂ _ t₃
    have ht₂ : t₂.bk.dredge = s.bk.dredge := by
      unfold t₂
      split <;> rfl
    split
    · refine (congrArg (·.dredge) (bk_hiErr ..)).trans ?_
      exact ht₂
    · exact ht₂

theorem bondedError_keeps (s : State) (k : Nat) : (s.bondedError k).mem = s.mem ∧ (s.bondedError k).bk = s.bk := by
  have hboot (t : State) : t.bootFailed.mem = t.mem ∧ t.bootFailed.bk = t.bk := by
    unfold State.bootFailed
    split <;> exact ⟨rfl, rfl⟩
  unfold State.bondedError State.raiseFatal
  split
  · split
    · exact ⟨rfl, rfl⟩
    · exact hboot _
  · exact ⟨rfl, rfl⟩

/-- A word that is copied is in the shadow, and no byte of memory changes (R113). -/
theorem copyWord_keeps (s : State) (d : Die) (i : Nat) : (s.copyWord d i).mem = s.mem ∧ (s.copyWord d i).bk.dredge =
    (s.setDredge d { s.dredgeOf d with shadow := i :: (s.dredgeOf d).shadow }).bk.dredge := by
  unfold State.copyWord
  extract_lets x k t u
  have hu : u.mem = s.mem ∧ u.bk.dredge = t.bk.dredge := ⟨(eccReport_keeps ..).1, dredge_eccReport ..⟩
  obtain ⟨hmem, hdredge⟩ := hu
  split
  · exact ⟨rfl, rfl⟩
  · split
    · obtain ⟨hmem', hbk⟩ := bondedError_keeps u k
      exact ⟨hmem'.trans hmem, (congrArg (·.dredge) hbk).trans hdredge⟩
    · exact ⟨hmem, hdredge⟩

/-! #### The Dredge -/

theorem dredgeOf_setDredge (h : tsorted 0 s.bk.dredge = true) (d : Die) (x : Dredge) : (s.setDredge d x).dredgeOf d = x :=
  tget_tset_same _ h _ x

theorem shadow_advance (x : Dredge) (d : Die) : (x.advance d).1.shadow = x.shadow := by
  unfold Dredge.advance
  split
  · rfl
  · split
    · rfl
    · split <;> rfl

/-- The words of a list are copied: they join the shadow. -/
theorem foldl_copyWord (hsorted : tsorted 0 s.bk.dredge = true) (d : Die) (l : List Nat) : let t := l.foldl (fun u i => u.copyWord d i) s
    tsorted 0 t.bk.dredge = true ∧ t.mem = s.mem ∧ ∀ i, i ∈ l ∨ i ∈ (s.dredgeOf d).shadow → i ∈ (t.dredgeOf d).shadow := by
  induction l generalizing s with
  | nil => exact ⟨hsorted, rfl, fun i h => h.resolve_left List.not_mem_nil⟩
  | cons j l ih =>
    obtain ⟨hmem, hdredge⟩ := copyWord_keeps s d j
    have hsorted' : tsorted 0 (s.copyWord d j).bk.dredge = true := by
      rw [hdredge]
      exact tsorted_tput _ hsorted (Nat.zero_le _)
    have hof : (s.copyWord d j).dredgeOf d = { s.dredgeOf d with shadow := j :: (s.dredgeOf d).shadow } :=
      (congrArg (tget ({} : Dredge) · d.index) hdredge).trans (dredgeOf_setDredge hsorted ..)
    obtain ⟨hlast, hmem', hin⟩ := ih hsorted'
    refine ⟨hlast, hmem'.trans hmem, fun i h => hin i ?_⟩
    rw [hof]
    obtain h | h := h
    · obtain rfl | h := List.mem_cons.mp h
      · exact .inr List.mem_cons_self
      · exact .inl h
    · exact .inr (List.mem_cons_of_mem _ h)

/-- The state in which the next region starts: at its due time, or at once where none has started before (R112). -/
def dredgeStart (s : State) (d : Die) (due : Nat) : State := if (s.dredgeOf d).started then s.reachRaw due else s

theorem bk_dredgeStart (s : State) (d : Die) (due : Nat) : (dredgeStart s d due).bk = s.bk := by
  unfold dredgeStart
  split
  · exact s.reachRaw_bk due
  · rfl

theorem regs_dredgeStart (s : State) (d : Die) (due : Nat) : (dredgeStart s d due).regs = s.regs := by
  unfold dredgeStart
  split
  · exact s.reachRaw_regs due
  · rfl

/-- The raw count at which a region may start, BK_DR_PACE after the last start (R114). -/
def dredgeDue (s : State) (d : Die) : Nat := (s.dredgeOf d).lastStart + ceilDiv (s.regB (bkReg d 0x0204) 15 0 * 98304) 10

theorem exec_dredgeMarchDone (hhalt : s.halted .inference = false) (fails : List MarchFail) (hmarch : (s.dredgeOf d).phase = .march) :
    exec (.dredgeMarchDone d fails) s = .next ((failedWords fails).foldl (fun u f => u.marchFailed d (s.dredgeOf d) f)
      (s.setDredge d { s.dredgeOf d with phase := .restore })) :=
  (unlessHalted_runs hhalt _).trans (onlyIf_true (by rw [hmarch]; rfl) _ _)

section
variable (hsorted : tsorted 0 s.bk.dredge = true) (hhalt : s.halted .inference = false)
include hsorted hhalt

section
variable (hon : s.dieOn d = true) (hen : s.regBit (bkReg d 0x0200) 0 = true) (hidle : (s.dredgeOf d).phase = .idle)
  (hdue : (s.dredgeOf d).started = true → dredgeDue s d ≤ (dredgeStart s d (dredgeDue s d)).td.raw)
include hon hen hidle hdue

theorem runs_dredgeRegionStart_copy (htest : s.dredgeable d (s.dredgeNext d) = true) :
    Runs (.dredgeRegionStart d) s (fun t =>
      t.dredgeOf d = { s.dredgeNext d with phase := .copy, shadow := [], started := true, lastStart := t.td.raw } ∧
      ((s.dredgeOf d).started = true → dredgeDue s d ≤ t.td.raw)) := by
  have hr : tsorted 0 (dredgeStart s d (dredgeDue s d)).bk.dredge = true := by rwa [bk_dredgeStart]
  refine runs_unlessHalted hhalt rfl ⟨_, (if_pos htest).trans (onlyIf_true ?_ _ _), dredgeOf_setDredge hr .., hdue⟩
  simp only [hon, hen, hidle, beq_self_eq_true, Bool.true_and, Bool.or_eq_true, Bool.not_eq_true', decide_eq_true_eq]
  exact (Bool.eq_false_or_eq_true _).symm.imp id hdue

theorem runs_dredgeRegionStart_skip (htest : s.dredgeable d (s.dredgeNext d) = false) :
    Runs (.dredgeRegionStart d) s (fun t => t.dredgeOf d = ((s.dredgeNext d).advance d).1 ∧
      (tsorted 0 s.regs = true → t.reg (bkReg d 0x0210) = satAdd (s.reg (bkReg d 0x0210)) 1)) := by
  have hr : tsorted 0 (dredgeStart s d (dredgeDue s d)).bk.dredge = true := by rwa [bk_dredgeStart]
  have hpass : bkReg d 0x0210 ≠ bkReg d 0x020C := by simp [bkReg]
  refine runs_unlessHalted hhalt rfl
    ⟨_, (if_neg (ne_true_of_eq_false htest)).trans (onlyIf_true ?_ _ _), ?_, fun hregs => ?_⟩
  · simp only [hon, hen, hidle, beq_self_eq_true, Bool.true_and, Bool.or_eq_true, Bool.not_eq_true', decide_eq_true_eq]
    exact (Bool.eq_false_or_eq_true _).symm.imp id hdue
  · have hset := dredgeOf_setDredge hr d ((s.dredgeNext d).advance d).1
    split
    · exact hset
    · exact hset
  · have hcount : (((dredgeStart s d (dredgeDue s d)).setDredge d ((s.dredgeNext d).advance d).1).count (bkReg d 0x0210) 1).reg
        (bkReg d 0x0210) = satAdd (s.reg (bkReg d 0x0210)) 1 := by
      refine (State.reg_setReg_same _ (by rw [← regs_dredgeStart s d (dredgeDue s d)] at hregs; exact hregs) ..).trans ?_
      rw [BitVec.ofNat_toNat, BitVec.setWidth_eq]
      exact congrArg (satAdd · 1) (congrArg (tget (regReset (bkReg d 0x0210)) · (bkReg d 0x0210)) (regs_dredgeStart ..))
    split
    · exact (State.reg_setReg_other _ _ hpass).trans hcount
    · exact hcount

end

theorem runs_dredgeCopyDone (hcopy : (s.dredgeOf d).phase = .copy) : Runs (.dredgeCopyDone d) s (fun t =>
    (t.dredgeOf d).phase = .march ∧ (∀ i < 512, i ∈ (t.dredgeOf d).shadow) ∧ t.mem = s.mem) := by
  have hwords : ∀ i < 512, i ∈ (List.range 512).filter (fun i => !(s.dredgeOf d).shadow.contains i) ∨
      i ∈ (s.dredgeOf d).shadow := fun i hi => by
    by_cases hold : i ∈ (s.dredgeOf d).shadow
    · exact .inr hold
    · exact .inl (List.mem_filter.mpr ⟨List.mem_range.mpr hi, by simp [hold]⟩)
  refine runs_unlessHalted hhalt rfl ⟨_, onlyIf_true (by rw [hcopy]; rfl) _ _, ?_⟩
  generalize (List.range 512).filter (fun i => !(s.dredgeOf d).shadow.contains i) = l at hwords ⊢
  obtain ⟨hlast, hmem, hin⟩ := foldl_copyWord hsorted d l
  rw [dredgeOf_setDredge hlast]
  exact ⟨rfl, fun i hi => hin i (hwords i hi), hmem⟩

theorem runs_dredgeRegionDone (hrestore : (s.dredgeOf d).phase = .restore) : Runs (.dredgeRegionDone d) s (fun t =>
    t.dredgeOf d = ({ s.dredgeOf d with
      phase := .idle, shadow := []
      owed := (s.dredgeOf d).owed.filter (· ≠ ((s.dredgeOf d).bank, (s.dredgeOf d).region)) : Dredge }.advance d).1 ∧
    (t.dredgeOf d).shadow = [] ∧ t.mem = s.mem) := by
  refine runs_unlessHalted hhalt rfl ⟨_, onlyIf_true (by rw [hrestore]; rfl) _ _, ?_⟩
  have hset (x : Dredge) (b : Bool) : (if b then (s.setDredge d x).count (bkReg d 0x020C) 1 else s.setDredge d x).dredgeOf d = x ∧
      (if b then (s.setDredge d x).count (bkReg d 0x020C) 1 else s.setDredge d x).mem = s.mem := by
    split <;> exact ⟨dredgeOf_setDredge hsorted d x, rfl⟩
  obtain ⟨hof, hmem⟩ := hset (Dredge.advance { s.dredgeOf d with
    phase := .idle, shadow := []
    owed := (s.dredgeOf d).owed.filter (· ≠ ((s.dredgeOf d).bank, (s.dredgeOf d).region)) : Dredge } d).1 _
  rw [hof, shadow_advance]
  exact ⟨rfl, rfl, hmem⟩

end

end

/-- Settles O9, from the lemmas about each of the commands. -/
theorem bankControl : Obligations.BankControl := by
  unfold Obligations.BankControl
  refine ⟨fun s m d hs ha hw => ⟨runs_bkCtrlClrEcc ha hw, runs_bkCtrlClrConf ha hw, runs_bkRuleWrite hs ha hw,
      runs_bkDrEnableWrite hs ha hw⟩, fun s d bank word => runs_eccWriteback, ?_, fun s d hsorted hhalt =>
      ⟨runs_dredgeCopyDone hsorted hhalt, exec_dredgeMarchDone hhalt, runs_dredgeRegionDone hsorted hhalt⟩⟩
  exact fun s d hsorted hhalt hon hen hidle hdue => ⟨runs_dredgeRegionStart_copy hsorted hhalt hon hen hidle hdue,
    runs_dredgeRegionStart_skip hsorted hhalt hon hen hidle hdue⟩

end Sys2Proof

namespace Sys2Proof
open Machine

/-! ### O10: what a bank answers -/

/-! #### Words of memory -/

/-- The little-endian bytes of a number give it back, up to their width (R8). -/
theorem leNat_leBytes (n x : Nat) : leNat (leBytes n x) = x % 256 ^ n := by
  induction n generalizing x with
  | zero => exact (Nat.mod_one x).symm
  | succ n ih =>
    simp only [leBytes, leNat, ih, BitVec.toNat_ofNat, Nat.pow_succ']
    exact (Nat.mod_mul ..).symm

/-- Bytes that were written read back. -/
theorem rdBytes_wrBytes {m : Memory} (h : m.wf = true) (k : Nat) (bs : List Byte) :
    rdBytes (wrBytes m k bs) k bs.length = bs := by
  induction bs generalizing m k with
  | nil => rfl
  | cons b bs ih =>
    have hm : (wrByte m k b).wf = true := wf_wrByte h k b
    have hfirst : rdByte (wrBytes (wrByte m k b) (k + 1) bs) k = b := by
      rw [rdByte_wrBytes_outside bs hm (k + 1) k (.inl (Nat.lt_succ_self k)), rdByte_wrByte m h, if_pos rfl]
    simp only [wrBytes, List.length_cons, rdBytes, hfirst, ih hm]

theorem wordAt_putWord {s : State} (h : s.mem.wf = true) (k : Nat) (v : DWord) : (s.putWord k v).wordAt k = v := by
  have hread : rdBytes (s.putWord k v).mem k 8 = leBytes 8 v.toNat := by
    have hbytes := rdBytes_wrBytes h k (leBytes 8 v.toNat)
    rwa [length_leBytes] at hbytes
  unfold State.wordAt
  have hlt : v.toNat < 256 ^ 8 := v.isLt
  rw [hread, leNat_leBytes, Nat.mod_eq_of_lt hlt, BitVec.ofNat_toNat, BitVec.setWidth_eq]

theorem wordAt_of_mem {s t : State} (h : t.mem = s.mem) (k : Nat) : t.wordAt k = s.wordAt k :=
  congrArg (fun m => BitVec.ofNat 64 (leNat (rdBytes m k 8))) h

/-! #### Words of banks -/

/-- The windows of the prompt dies follow each other (R20). -/
theorem sramBase_pd {n : Nat} (hn : n < 4) : sramBase (Die.ofIndex n) = 0x010000000000 + n * 0x40000000 := by
  simp [Die.ofIndex, hn, sramBase]

/-- The windows of the generation dies follow each other (R20). -/
theorem sramBase_gd {n : Nat} (hn : n < 4) : sramBase (Die.ofIndex (4 + n)) = 0x020000000000 + n * 0x100000000 := by
  simp [Die.ofIndex, hn, sramBase]

/-- A place in SRAM is an offset from the base of its die's window (R20, R457). -/
theorem eq_base_of_place {a : Nat} {d : Die} {off : Nat} (h : place a = .sram d off) : a = sramBase d + off := by
  have hwindow {d' : Die} {x : Nat} (hw : inWindow d' x = .sram d off) : d' = d ∧ x = off := by
    unfold inWindow at hw
    split at hw
    next => exact Place.sram.inj hw
    next => cases hw
  unfold place at h
  split_ifs at h with hhbm hpd hgd hrd hhd
  · obtain ⟨rfl, rfl⟩ := hwindow h
    rw [sramBase_pd (by omega)]
    omega
  · obtain ⟨rfl, rfl⟩ := hwindow h
    rw [sramBase_gd (by omega)]
    omega
  · obtain ⟨rfl, rfl⟩ := hwindow h
    simp only [sramBase]
    omega
  · obtain ⟨rfl, rfl⟩ := hwindow h
    simp only [sramBase]
    omega

/-- The key of the word of a bank that holds a key (R77, R92). -/
theorem wordKey_of_bankOf {k : Nat} {d : Die} {bank word : Nat} (h : bankOf k = some (d, bank, word)) :
    wordKey d bank word = k / 8 * 8 := by
  unfold bankOf at h
  split at h
  next n off hplace =>
    obtain ⟨rfl, rfl, rfl⟩ : _ ∧ _ ∧ _ := by simpa using h
    have hk := eq_base_of_place hplace
    simp only [wordKey, sramBase] at hk ⊢
    omega
  next d' off hgd hplace =>
    obtain ⟨rfl, rfl, rfl⟩ : _ ∧ _ ∧ _ := by simpa using h
    have hk := eq_base_of_place hplace
    have hbase : sramBase d' % 8 = 0 := by
      cases d' <;> simp only [sramBase] <;> omega
    cases d'
    case gd n => exact absurd rfl (hgd n)
    all_goals
      simp only [wordKey]
      omega
  next => cases h

/-- The bits in error are those of a whole word (R109). -/
theorem wordErr_word (s : State) (k : Nat) : s.wordErr (k / 8 * 8) = s.wordErr k := by
  unfold State.wordErr
  rw [Nat.mul_div_cancel _ (by decide)]

/-- A read of a word without errors. -/
theorem readWord_clean {s : State} {k : Nat} (h : s.wordErr k = 0) (m : Nat) : s.readWord m k = (s, .ok, s.wordAt k) := if_pos h

/-! #### How a request comes to its word -/

/-- A request to a word without errors is served: no bit of the word flips, and its bank accepts it. -/
def served (s : State) (d : Die) (bank word : Nat) (q : BankReq) (port : Port) (k : Nat) : State :=
  (s.upset k 0).accept d bank word q port

section
variable {s : State} {q : BankReq} {others : List BankReq} {a : PAddr} {d : Die} {bank word : Nat}

/-- A request on its own that is not fenced, reaches a bank and is granted its port. -/
theorem alone_served {port : Die → Port} {n : Nat} {write : Bool} {f : Die → State → State}
    (hfence : s.fencedAccess q.master n = false) (hreach : s.accessStatus q.master n = .ok)
    (hbank : bankOf (s.key (n / 8 * 8)) = some (d, bank, word)) (hgrant : s.granted d bank q (port d) others = true) :
    s.alone q port others n write f = f d (s.accept d bank word q (port d)) := by
  simp [State.alone, hfence, hreach, hbank, hgrant]

section
variable (hup : s.masterDown q.master = false) (hfence : s.fencedAccess q.master a.toNat = false)
  (hreach : s.accessStatus q.master a.toNat = .ok) (hbank : bankOf (s.key (a.toNat / 8 * 8)) = some (d, bank, word))
include hup hfence hreach hbank

theorem exec_bankAccess_served (hgrant : s.granted d bank q (q.port d) others = true) :
    exec (.bankAccess q a none others 0 0) s = .next
      ((served s d bank word q (q.port d) (s.key (a.toNat / 8 * 8))).doAccess q.master (s.key (a.toNat / 8 * 8)) q.op) := by
  have hperf : s.performs q a.toNat = true := by simp [State.performs, hfence, hreach]
  have hexec : exec (.bankAccess q a none others 0 0) s = .next ((s.upset (s.key (a.toNat / 8 * 8)) 0).access q others a.toNat) := by
    show execBankAccess q a none others 0 0 s = _
    simp [execBankAccess, hup, hperf, hbank]
  rw [hexec]
  exact congrArg _ (alone_served (s := s.upset (s.key (a.toNat / 8 * 8)) 0) hfence hreach hbank hgrant)

theorem exec_bankAtomic_served (opc : BitVec 4) (x : DWord) (hgrant : s.granted d bank q .b others = true) :
    exec (.bankAtomic q a opc x none others 0) s = .next ((served s d bank word q .b (s.key (a.toNat / 8 * 8))).atomicAnswered d
      q.master (s.key (a.toNat / 8 * 8)) a.toNat opc.toNat x) := by
  have hperf : s.performs q a.toNat = true := by simp [State.performs, hfence, hreach]
  have hexec : exec (.bankAtomic q a opc x none others 0) s = .next ((s.upset (s.key (a.toNat / 8 * 8)) 0).alone q (fun _ => .b)
      others a.toNat true (fun d t => t.atomicAnswered d q.master (s.key (a.toNat / 8 * 8)) a.toNat opc.toNat x)) := by
    show execBankAtomic q a opc x none others 0 s = _
    simp [execBankAtomic, hup, hperf, hbank]
  rw [hexec]
  exact congrArg _ (alone_served (s := s.upset (s.key (a.toNat / 8 * 8)) 0) hfence hreach hbank hgrant)

end

/-- What the operation of a served request finds: memory, the answers and the DETERMINISTIC setting as they were, a word without
errors, and BK_ATOM_FAULT as it was. -/
structure Found (s t : State) (d : Die) (k : Nat) : Prop where
  mem : t.mem = s.mem
  rsp : t.bk.rsp = s.bk.rsp
  det : t.det = s.det
  regs : tsorted 0 t.regs = true
  err : t.wordErr k = 0
  fault : t.regN (bkReg d 0x0008) = s.regN (bkReg d 0x0008)

/-- The Dredge's copy of a word without errors puts it in the shadow alone (R113). -/
theorem redirect_clean {t : State} {k : Nat} (hbank : bankOf k = some (d, bank, word)) (herr : t.wordErr k = 0) :
    t.redirect d bank word = t ∨ ∃ x, t.redirect d bank word = t.setDredge d x := by
  unfold State.redirect State.copyWord
  extract_lets x k' t'
  split
  next h =>
    obtain ⟨-, hb, hr, -⟩ := h
    have hword : 512 * x.region + word % 512 = word := by omega
    have hclean : t.wordErr k' = 0 := by
      unfold k'
      rw [hb, hword, wordKey_of_bankOf hbank, wordErr_word, herr]
    exact .inr ⟨_, if_pos hclean⟩
  next => exact .inl rfl

theorem found_served {k : Nat} {port : Port} (hs : Safe s) (hsorted : tsorted 0 s.bk.err = true)
    (hbank : bankOf k = some (d, bank, word)) (herr : s.wordErr k = 0) : Found s (served s d bank word q port k) d k := by
  obtain ⟨-, -, hregs, -⟩ := hs
  have hupset : Found s (s.upset k 0) d k := by
    refine ⟨rfl, rfl, rfl, hregs, ?_, rfl⟩
    refine (tget_tset_same 0 hsorted _ _).trans ?_
    rw [herr]
    rfl
  have hwaited : Found s ((s.upset k 0).waitedAt d q.master (decide (0 < q.waited))) d k := by
    unfold State.waitedAt
    split
    · have hne : bkReg d 0x0008 ≠ bkReg d (0x8000 + 4 * q.master) := by
        simp only [bkReg]
        omega
      exact { hupset with regs := State.sorted_count _ hregs _ _, fault := State.regN_setReg_other _ _ hne }
    · exact hupset
  unfold served State.accept
  extract_lets t c t'
  have ht' : Found s t' d k := by
    unfold t'
    split
    · exact { hwaited with }
    · exact hwaited
  obtain h | ⟨x, h⟩ := redirect_clean hbank ht'.err
  · rw [h]
    exact ht'
  · rw [h]
    exact { ht' with }

/-! #### Answers -/

theorem rsp_answer {t : State} (h : tsorted 0 t.bk.rsp = true) (m : Nat) (st : BankStatus) (x : DWord) :
    tget {} (t.answer m st x).bk.rsp m = { status := st, data := x } :=
  tget_tset_same _ h m _

/-- An atomic is answered with its status and prior value; the fault exception of R104 changes no word and no register. -/
theorem atomicAnswered_of_doAtomic {t u : State} {d : Die} {m k n opc : Nat} {x y : DWord} {st : BankStatus}
    (hop : t.doAtomic d m k n opc x = (u, st, y)) (hrsp : tsorted 0 u.bk.rsp = true) :
    tget {} (t.atomicAnswered d m k n opc x).bk.rsp m = { status := st, data := y } ∧
    (t.atomicAnswered d m k n opc x).mem = u.mem ∧ (t.atomicAnswered d m k n opc x).regs = u.regs := by
  unfold State.atomicAnswered
  rw [hop]
  dsimp only
  split <;> exact ⟨rsp_answer hrsp .., rfl, rfl⟩

/-- The operand of an atomic in a word: the word, or the half that the address names (R103). -/
def atomicPrior (w n opc : Nat) : Nat := if atomicBytes opc = 8 then w else w / 2 ^ (32 * (n / 4 % 2)) % 2 ^ 32

/-- The word in which an atomic has left its result. -/
def atomicWord (w n opc v : Nat) : Nat := if atomicBytes opc = 8 then v else withBits w (32 * (n / 4 % 2) + 31) (32 * (n / 4 % 2)) v

/-- An opcode with an operation is none of the reserved ones (R103). -/
theorem opc_of_atomicOp {opc prior x : Nat} {r : Nat × Nat} (h : atomicOp opc prior x = some r) : ¬ (opc = 0 ∨ 5 < opc) := by
  unfold atomicOp at h
  split at h
  case h_6 => cases h
  all_goals omega

/-- An aligned atomic on a word without errors answers the prior value and stores its result (R103). -/
theorem doAtomic_stored {t : State} {k n opc b v : Nat} {x : DWord} (herr : t.wordErr k = 0) (hadd : opc ≠ 3)
    (halign : n % atomicBytes opc = 0) (hop : atomicOp opc (atomicPrior (t.wordAt k).toNat n opc) x.toNat = some (b, v))
    (d : Die) (m : Nat) : t.doAtomic d m k n opc x = (t.putWord k (BitVec.ofNat 64 (atomicWord (t.wordAt k).toNat n opc v)), .ok,
      BitVec.ofNat 64 (atomicPrior (t.wordAt k).toNat n opc)) := by
  have hopc : ¬ (opc = 0 ∨ 5 < opc ∨ n % atomicBytes opc ≠ 0) := by
    have := opc_of_atomicOp hop
    omega
  unfold State.doAtomic
  rw [atomicPrior] at hop
  simp only [hopc, hadd, false_and, if_false, readWord_clean herr, reduceCtorEq, hop]
  rfl

theorem doAtomic_refused {n opc : Nat} (h : opc = 0 ∨ 5 < opc ∨ n % atomicBytes opc ≠ 0) (t : State) (d : Die) (m k : Nat)
    (x : DWord) : t.doAtomic d m k n opc x = (t, .refused, 0) := if_pos h

theorem doAtomic_detFault {t : State} {n : Nat} (hdet : t.det.active = true) (halign : n % 4 = 0) (d : Die) (m k : Nat)
    (x : DWord) : t.doAtomic d m k n 3 x = (t.count (bkReg d 0x0008) 1, .detFault, 0) := by
  simp [State.doAtomic, atomicBytes, halign, hdet]

theorem regN_count_same {t : State} (h : tsorted 0 t.regs = true) (o n : Nat) :
    (t.count o n).regN o = min 0xFFFFFFFF (t.regN o + n) := by
  unfold State.count
  rw [t.regN_setReg_same h, satAdd, BitVec.toNat_ofNat, Nat.mod_mod, Nat.mod_eq_of_lt (by omega)]
  rfl

/-! #### The commands -/

section
variable (hs : Safe s) (hrsp : tsorted 0 s.bk.rsp = true) (hsorted : tsorted 0 s.bk.err = true)
  (hup : s.masterDown q.master = false) (hfence : s.fencedAccess q.master a.toNat = false)
  (hreach : s.accessStatus q.master a.toNat = .ok) (hbank : bankOf (s.key (a.toNat / 8 * 8)) = some (d, bank, word))
  (herr : s.wordErr (s.key (a.toNat / 8 * 8)) = 0)
include hs hrsp hsorted hup hfence hreach hbank herr

theorem runs_bankAccess_read (hop : q.op = .read) (hgrant : s.granted d bank q (q.port d) others = true) :
    Runs (.bankAccess q a none others 0 0) s (fun t =>
      tget {} t.bk.rsp q.master = { status := .ok, data := s.wordAt (s.key (a.toNat / 8 * 8)) } ∧ t.mem = s.mem) := by
  refine ⟨_, exec_bankAccess_served hup hfence hreach hbank hgrant, ?_⟩
  have hfound := found_served (q := q) (port := q.port d) hs hsorted hbank herr
  simp only [hop, State.doAccess, readWord_clean hfound.err, State.wordAt, hfound.mem]
  exact ⟨rsp_answer (by rwa [hfound.rsp]) .., hfound.mem⟩

theorem runs_bankAccess_write {v : DWord} (hop : q.op = .write 0xFF v) (hgrant : s.granted d bank q (q.port d) others = true) :
    Runs (.bankAccess q a none others 0 0) s (fun t =>
      (tget {} t.bk.rsp q.master).status = .ok ∧ t.wordAt (s.key (a.toNat / 8 * 8)) = v) := by
  obtain ⟨hmem, -⟩ := id hs
  refine ⟨_, exec_bankAccess_served hup hfence hreach hbank hgrant, ?_⟩
  have hfound := found_served (q := q) (port := q.port d) hs hsorted hbank herr
  simp only [hop, State.doAccess, State.writeWord, if_true]
  refine ⟨?_, wordAt_putWord (by rwa [hfound.mem]) _ v⟩
  rw [rsp_answer (t := State.putWord ..) (by rw [← hfound.rsp] at hrsp; exact hrsp)]

theorem runs_bankAtomic_stored {opc : BitVec 4} {x : DWord} (hgrant : s.granted d bank q .b others = true) {b v : Nat}
    (hadd : opc ≠ 3) (halign : a.toNat % atomicBytes opc.toNat = 0)
    (hop : atomicOp opc.toNat (atomicPrior (s.wordAt (s.key (a.toNat / 8 * 8))).toNat a.toNat opc.toNat) x.toNat = some (b, v)) :
    Runs (.bankAtomic q a opc x none others 0) s (fun t =>
      tget {} t.bk.rsp q.master =
        { status := .ok, data := BitVec.ofNat 64 (atomicPrior (s.wordAt (s.key (a.toNat / 8 * 8))).toNat a.toNat opc.toNat) } ∧
      t.wordAt (s.key (a.toNat / 8 * 8)) =
        BitVec.ofNat 64 (atomicWord (s.wordAt (s.key (a.toNat / 8 * 8))).toNat a.toNat opc.toNat v)) := by
  obtain ⟨hmem, -⟩ := id hs
  refine ⟨_, exec_bankAtomic_served hup hfence hreach hbank opc x hgrant, ?_⟩
  have hfound := found_served (q := q) (port := .b) hs hsorted hbank herr
  have hword : (served s d bank word q .b (s.key (a.toNat / 8 * 8))).wordAt (s.key (a.toNat / 8 * 8)) =
      s.wordAt (s.key (a.toNat / 8 * 8)) := wordAt_of_mem hfound.mem _
  have hadd' : opc.toNat ≠ 3 := fun h => hadd (BitVec.eq_of_toNat_eq h)
  rw [← hword] at hop ⊢
  obtain ⟨hans, hm, -⟩ := atomicAnswered_of_doAtomic (doAtomic_stored hfound.err hadd' halign hop d q.master)
    (by rw [← hfound.rsp] at hrsp; exact hrsp)
  exact ⟨hans, (wordAt_of_mem hm _).trans (wordAt_putWord (by rwa [hfound.mem]) _ _)⟩

theorem runs_bankAtomic_refused {opc : BitVec 4} {x : DWord} (hgrant : s.granted d bank q .b others = true)
    (h : opc = 0 ∨ 5 < opc.toNat ∨ a.toNat % atomicBytes opc.toNat ≠ 0) :
    Runs (.bankAtomic q a opc x none others 0) s (fun t =>
      tget {} t.bk.rsp q.master = { status := .refused, data := 0 } ∧ t.mem = s.mem) := by
  refine ⟨_, exec_bankAtomic_served hup hfence hreach hbank opc x hgrant, ?_⟩
  have hfound := found_served (q := q) (port := .b) hs hsorted hbank herr
  have hcode : opc.toNat = 0 ∨ 5 < opc.toNat ∨ a.toNat % atomicBytes opc.toNat ≠ 0 := h.imp_left fun h0 => congrArg BitVec.toNat h0
  obtain ⟨hans, hm, -⟩ := atomicAnswered_of_doAtomic (doAtomic_refused hcode _ d q.master _ x) (by rwa [hfound.rsp])
  exact ⟨hans, hm.trans hfound.mem⟩

theorem runs_bankAtomic_detFault {x : DWord} (hgrant : s.granted d bank q .b others = true) (hdet : s.det.active = true)
    (halign : a.toNat % 4 = 0) : Runs (.bankAtomic q a 3 x none others 0) s (fun t =>
      tget {} t.bk.rsp q.master = { status := .detFault, data := 0 } ∧ t.mem = s.mem ∧
      t.regN (bkReg d 0x0008) = min 0xFFFFFFFF (s.regN (bkReg d 0x0008) + 1)) := by
  refine ⟨_, exec_bankAtomic_served hup hfence hreach hbank 3 x hgrant, ?_⟩
  have hfound := found_served (q := q) (port := .b) hs hsorted hbank herr
  obtain ⟨hans, hm, hregs⟩ := atomicAnswered_of_doAtomic (doAtomic_detFault (by rwa [hfound.det]) halign d q.master _ x)
    (by rw [← hfound.rsp] at hrsp; exact hrsp)
  refine ⟨hans, hm.trans hfound.mem, ?_⟩
  have hreg := regN_count_same hfound.regs (bkReg d 0x0008) 1
  rw [hfound.fault] at hreg
  exact (congrArg (fun r => (tget (regReset (bkReg d 0x0008)) r (bkReg d 0x0008)).toNat) hregs).trans hreg

end

section
variable {m : Fin 512} {h off : Nat} (hrsp : tsorted 0 s.bk.rsp = true) (hup : s.masterDown m = false)
  (hplace : place a.toNat = .hbm h off)
include hrsp hup hplace

theorem runs_hbmAtomic_unreached (opc : BitVec 4) (x : DWord) (hreach : s.addrStatus a.toNat ≠ .ok) :
    Runs (.hbmAtomic m a opc x false) s (fun t =>
      tget {} t.bk.rsp m = { status := .address, data := 0 } ∧ t.mem = s.mem) := by
  refine ⟨s.answer m .address 0, ?_, rsp_answer hrsp .., rfl⟩
  show execHbmAtomic m a opc x false s = _
  simp [execHbmAtomic, hplace, hup, hreach]

theorem runs_hbmAtomic_swap (hs : Safe s) (x : DWord) (hreach : s.addrStatus a.toNat = .ok) (halign : a.toNat % 8 = 0)
    (herr : s.wordErr a.toNat = 0) : Runs (.hbmAtomic m a 5 x false) s (fun t =>
      tget {} t.bk.rsp m = { status := .ok, data := s.wordAt a.toNat } ∧ t.wordAt a.toNat = x) := by
  obtain ⟨hmem, -⟩ := hs
  have hword : a.toNat / 8 * 8 = a.toNat := by omega
  refine ⟨s.atomicAnswered (Die.ofIndex (h / 2)) m a.toNat a.toNat 5 x, ?_, ?_⟩
  · show execHbmAtomic m a 5 x false s = _
    simp [execHbmAtomic, hplace, hup, hreach, hword]
  · obtain ⟨hans, hm, -⟩ := atomicAnswered_of_doAtomic
      (doAtomic_stored (opc := 5) (x := x) herr (by decide) halign rfl (Die.ofIndex (h / 2)) m) hrsp
    rw [hans, wordAt_of_mem hm, wordAt_putWord hmem]
    simp [atomicPrior, atomicWord, atomicBytes, Nat.mod_eq_of_lt x.isLt]

end

end

/-- Settles O10, from the lemmas about each of the commands. -/
theorem bankAnswers : Obligations.BankAnswers := by
  unfold Obligations.BankAnswers
  refine ⟨fun s q others a d bank word hs hrsp hsorted hup hfence hreach hbank herr => ⟨?_, ?_, fun opc x hgrant => ⟨?_, ?_, ?_⟩⟩,
    fun s m a h off opc x hs hrsp hup hplace => ⟨?_, ?_⟩⟩
  · exact runs_bankAccess_read hs hrsp hsorted hup hfence hreach hbank herr
  · exact fun v => runs_bankAccess_write hs hrsp hsorted hup hfence hreach hbank herr
  · exact fun n v => runs_bankAtomic_stored hs hrsp hsorted hup hfence hreach hbank herr hgrant
  · exact runs_bankAtomic_refused hs hrsp hsorted hup hfence hreach hbank herr hgrant
  · rintro rfl
    exact runs_bankAtomic_detFault hs hrsp hsorted hup hfence hreach hbank herr hgrant
  · exact runs_hbmAtomic_unreached hrsp hup hplace opc x
  · rintro hreach rfl
    exact runs_hbmAtomic_swap hrsp hup hplace hs x hreach

end Sys2Proof

namespace Sys2Proof
open Machine

/-! ### O37: what ending requests and serving descriptors leaves -/

/-- From s to t the model slots, Tide, the cell plan, the fabric, the link, the entries that wait for the Harbourmaster and the
weights stay, every context with its key meets C, and every saved image and descriptor that waits is of a function that V
names. -/
structure Serves (C : Nat × Ctx → Prop) (V : Nat → Prop) (s t : State) : Prop where
  slots : t.slots = s.slots
  td : t.td = s.td
  fh : t.fh = s.fh
  zl : t.zl = s.zl
  link : t.hi.linkUp = s.hi.linkUp
  cmdq : t.hm.cmdq = s.hm.cmdq
  eff : t.sh.eff = s.sh.eff
  sorted : tsorted 0 t.sh.ctx = true
  ctx : ∀ e ∈ t.sh.ctx, C e
  saved : ∀ e ∈ t.sh.saved, V e.ctx.vf
  wait : ∀ w ∈ t.sh.wait, V w.vf

section
variable {C : Nat × Ctx → Prop} {V : Nat → Prop} {s t : State}

/-- A state whose parts are those of one that serves C and V. -/
theorem Serves.of_eq {u : State} (h : Serves C V s t) (hslots : u.slots = t.slots := by rfl) (htd : u.td = t.td := by rfl)
    (hfh : u.fh = t.fh := by rfl) (hzl : u.zl = t.zl := by rfl) (hlink : u.hi.linkUp = t.hi.linkUp := by rfl)
    (hcmdq : u.hm.cmdq = t.hm.cmdq := by rfl) (heff : u.sh.eff = t.sh.eff := by rfl) (hctx : u.sh.ctx = t.sh.ctx := by rfl)
    (hsaved : u.sh.saved = t.sh.saved := by rfl) (hwait : u.sh.wait = t.sh.wait := by rfl) : Serves C V s u :=
  ⟨hslots.trans h.slots, htd.trans h.td, hfh.trans h.fh, hzl.trans h.zl, hlink.trans h.link, hcmdq.trans h.cmdq,
    heff.trans h.eff, hctx ▸ h.sorted, hctx ▸ h.ctx, hsaved ▸ h.saved, hwait ▸ h.wait⟩

theorem Serves.ite {c : Prop} {_ : Decidable c} {u : State} (ht : Serves C V s t) (hu : Serves C V s u) :
    Serves C V s (if c then t else u) := by
  split
  · exact ht
  · exact hu

/-! #### Reports and traces -/

theorem Serves.sendVec (h : Serves C V s t) (f v) : Serves C V s (t.sendVec f v) := .ite h h.of_eq

theorem Serves.hiErr (h : Serves C V s t) (bit) : Serves C V s (t.hiErr bit) := by
  unfold State.hiErr
  extract_lets t₁
  have h₁ : Serves C V s t₁ := h.of_eq
  exact .ite h₁ (h₁.sendVec ..)

theorem Serves.eccReport (h : Serves C V s t) (m k bad) : Serves C V s (t.eccReport m k bad) := by
  unfold State.eccReport
  split
  · exact h
  · extract_lets _ _ _ t₁ t₂ _ t₃
    have h₁ : Serves C V s t₁ := h.of_eq
    have h₂ : Serves C V s t₂ := .ite h₁.of_eq h₁
    have h₃ : Serves C V s t₃ := h₂.of_eq
    exact .ite (Serves.hiErr h₃.of_eq _) h₂

theorem Serves.noteReads (h : Serves C V s t) (m a n) : Serves C V s (t.noteReads m a n) :=
  foldl_keeps (fun u k hu => by
    extract_lets u₁
    have hu₁ : Serves C V s u₁ := hu.eccReport ..
    exact .ite hu₁ hu₁.of_eq) _ h

theorem Serves.noteRanges (h : Serves C V s t) (m rs) : Serves C V s (t.noteRanges m rs) :=
  foldl_keeps (fun _ _ hu => hu.noteReads ..) _ h

theorem Serves.traceWrite (h : Serves C V s t) (r) : Serves C V s (t.traceWrite r) := by
  unfold State.traceWrite
  extract_lets _ _ t₁
  have h₁ : Serves C V s t₁ := .ite h h.of_eq
  exact .ite h.of_eq (.ite h₁.of_eq h₁.of_eq)

theorem Serves.trace (h : Serves C V s t) (kind unit layer op fn arg) : Serves C V s (t.trace kind unit layer op fn arg) :=
  .ite (h.traceWrite ..) h

theorem Serves.traceDesc (h : Serves C V s t) (kind d vf x arg) : Serves C V s (t.traceDesc kind d vf x arg) := h.trace ..

theorem Serves.postRecord (h : Serves C V s t) (d vf slot dseq x r) : Serves C V s (t.postRecord d vf slot dseq x r) := by
  unfold State.postRecord
  extract_lets t₁ _ t₂
  have h₁ : Serves C V s t₁ := h.traceDesc ..
  have h₂ : Serves C V s t₂ := h₁.of_eq
  exact .ite h₂ (.ite (h₂.sendVec ..) h₂.of_eq)

/-! #### Accounts and contexts -/

theorem Serves.settle (h : Serves C V s t) : Serves C V s t.settle := by
  unfold State.settle
  extract_lets _ u t₁
  have hu : Serves C V s u := foldl_keeps (fun _ _ hv => .ite hv.of_eq hv) _ h
  have h₁ : Serves C V s t₁ := .ite h hu.of_eq
  exact h₁.of_eq

theorem Serves.wakeVf (h : Serves C V s t) (v) : Serves C V s (t.wakeVf v) := by
  unfold State.wakeVf
  split
  · exact h
  · split
    · exact h
    · exact h.of_eq

/-- A context that is put or removed. -/
theorem Serves.setCtx (h : Serves C V s t) (k) {c : Option Ctx} {C' : Nat × Ctx → Prop}
    (hC : ∀ e ∈ tput c t.sh.ctx k, C' e) : Serves C' V s (t.setCtx k c) := by
  have hctx : tput c t.sh.ctx k = (t.setCtx k c).sh.ctx := (ctx_setCtx ..).symm
  have hsorted : tsorted 0 (t.setCtx k c).sh.ctx = true := hctx ▸ tsorted_tput c h.sorted (Nat.zero_le k)
  exact { h.settle with sorted := hsorted, ctx := hctx ▸ hC }

/-- A removed key is no longer listed. -/
theorem ne_key_of_mem_tput_none {α : Type} {l : Table α} {lo k : Nat} {e : Nat × α} (hl : tsorted lo l = true)
    (h : e ∈ tput none l k) : e.1 ≠ k := by
  induction l generalizing lo with
  | nil => exact absurd h List.not_mem_nil
  | cons a l ih =>
    simp only [tsorted, Bool.and_eq_true, decide_eq_true_eq] at hl
    obtain ⟨-, hl⟩ := hl
    have hkey : e ∈ l → a.1 < e.1 := le_key_of_mem hl
    simp only [tput] at h
    split at h
    next hk => exact ((List.mem_cons.mp h).elim (fun h => h ▸ hk) fun h => hk.trans (hkey h)).ne'
    split at h
    next hk => exact hk ▸ (hkey h).ne'
    next hk => exact (List.mem_cons.mp h).elim (fun h => h ▸ Ne.symm hk) (ih hl)

theorem Serves.dropCtx (h : Serves C V s t) (k) : Serves (fun e => C e ∧ e.1 ≠ k) V s (t.setCtx k none) :=
  h.setCtx k fun e he => ⟨(mem_tput none he).elim (h.ctx e) nofun, ne_key_of_mem_tput_none h.sorted he⟩

/-- A weaker demand on the contexts. -/
theorem Serves.mono {C' : Nat × Ctx → Prop} (h : Serves C V s t) (hC : ∀ e, C e → C' e) : Serves C' V s t :=
  { h with ctx := fun e he => hC e (h.ctx e he) }

theorem Serves.loseWrites (h : Serves C V s t) (ws) : Serves C V s (t.loseWrites ws) := foldl_keeps (fun _ _ hu => hu.of_eq) _ h

theorem Serves.loseBlocks (h : Serves C V s t) (r) : Serves C V s (t.loseBlocks r) :=
  foldl_keeps (fun _ _ hu => hu.loseWrites _) _ h

theorem Serves.loseScratch (h : Serves C V s t) (c) : Serves C V s (t.loseScratch c) := h.of_eq

theorem Serves.store (h : Serves C V s t) (a bs) : Serves C V s (t.store a bs) := h.of_eq

theorem Serves.storeNat (h : Serves C V s t) (a n x) : Serves C V s (t.storeNat a n x) := h.of_eq

theorem Serves.doRoutine (h : Serves C V s t) : Serves C V s t.doRoutine := h.of_eq

/-- An aborted context goes. -/
theorem Serves.abortCtx (h : Serves C V s t) (d key) : Serves (fun e => C e ∧ e.1 ≠ key) V s (t.abortCtx d key) := by
  unfold State.abortCtx
  extract_lets t₁
  have h₁ : Serves C V s t₁ := h.settle
  split
  next hnone =>
    have hctx (e) (he : e ∈ t₁.sh.ctx) : C e ∧ e.1 ≠ key :=
      ⟨h₁.ctx e he, fun hkey => List.find?_eq_none.mp (Option.map_eq_none_iff.mp hnone) e he (beq_iff_eq.mpr hkey)⟩
    exact { h₁ with ctx := hctx }
  next c _ =>
    refine Serves.dropCtx (foldl_keeps (fun _ _ hu => hu.postRecord ..) _ ?_) _
    split
    · exact ((h₁.loseBlocks _).loseScratch c).postRecord ..
    · exact h₁

end

/-! #### Descriptors -/

/-- The same, where every context too is of a function that V names. -/
abbrev ServesFns (V : Nat → Prop) (s t : State) : Prop := Serves (fun e => V e.2.vf) V s t

section
variable {V : Nat → Prop} {s t : State}

theorem Serves.putCtx (h : ServesFns V s t) (k) {c : Ctx} (hc : V c.vf) :
    ServesFns V s (t.setCtx k (some c)) :=
  h.setCtx k fun e he => (mem_tput _ he).elim (h.ctx e) fun hce => Option.some.inj hce ▸ hc

/-- A context that a state holds is of a function that V names. -/
theorem Serves.vf_of_ctxOf (h : ServesFns V s t) {k : Nat} {c : Ctx} (hc : t.ctxOf k = some c) : V c.vf := by
  obtain ⟨e, he, rfl⟩ := Option.map_eq_some_iff.mp hc
  exact h.ctx e (List.mem_of_find?_eq_some he)

theorem Serves.doConvert (h : ServesFns V s t) (d x) : ServesFns V s (t.doConvert d x).1 := by
  unfold State.doConvert
  extract_lets _ _ _ t₁ u u₁
  have h₁ : ServesFns V s t₁ := h.noteRanges ..
  have hu : ServesFns V s u := foldl_keeps (fun _ _ hv => hv.of_eq) _ h₁
  have hu₁ : ServesFns V s u₁ := .ite (hu.loseWrites _) hu
  split
  · exact h₁.loseWrites _
  · split
    · exact h₁.loseWrites _
    · exact hu₁.of_eq

theorem Serves.runQueue (h : ServesFns V s t) (d key) {c : Ctx} (hc : V c.vf) (qs) : ServesFns V s (t.runQueue d key c qs) := by
  induction qs generalizing t with
  | nil => exact (h.dropCtx _).mono fun _ he => he.1
  | cons q qs ih =>
    unfold State.runQueue
    extract_lets _ _ _ _ _ _ t₁ _ _ _ u v
    have h₁ : ServesFns V s t₁ := .ite (h.noteReads ..) h
    split
    · exact ih (h₁.postRecord ..)
    · split
      · exact ih (((h₁.traceDesc ..).doConvert ..).postRecord ..)
      · split
        · exact ih ((h₁.traceDesc ..).doRoutine.postRecord ..)
        · have hu : ServesFns V s u := ((h₁.storeNat ..).storeNat ..).store ..
          have hv : ServesFns V s v := hu.traceDesc ..
          exact hv.putCtx _ hc

theorem Serves.stopCtx (h : ServesFns V s t) (key why) : ServesFns V s (t.stopCtx key why) := by
  unfold State.stopCtx
  split
  · exact h
  next c hc =>
    extract_lets u
    have hu : ServesFns V s u := foldl_keeps (fun _ _ hv => hv.of_eq) _ h
    have hvf : V c.vf := h.vf_of_ctxOf hc
    exact hu.putCtx _ hvf

theorem Serves.evict (h : ServesFns V s t) (d v) : ServesFns V s (t.evict d v) := by
  unfold State.evict
  extract_lets t₁
  have h₁ : ServesFns V s t₁ := h.settle
  split
  · exact h₁
  · split
    · exact h₁
    · exact .ite (h₁.stopCtx ..) h₁

/-- A new context is of the function that it is made for (R183). -/
theorem vf_of_canMake {d : Die} {vf slot key : Nat} {c : Ctx} (h : s.canMake d vf slot = some (key, c)) : c.vf = vf := by
  unfold State.canMake State.newCtx at h
  split at h
  · cases h
  · extract_lets at h
    split at h
    · obtain ⟨-, rfl⟩ := Prod.mk.inj (Option.some.inj h)
      rfl
    · cases h

theorem Serves.placeDesc (h : ServesFns V s t) (d slot q) {vf : Nat} (hvf : V vf) :
    ServesFns V s (t.placeDesc d vf slot q) := by
  unfold State.placeDesc
  extract_lets t₁ u _ w v
  have h₁ : ServesFns V s t₁ := h.settle
  have hu : ServesFns V s u := h₁.wakeVf _
  have hv : ServesFns V s v := h₁.evict ..
  split
  next key c hfind =>
    have hc : V c.vf := h₁.ctx _ (List.mem_of_find?_eq_some hfind)
    have hqueue : V { c with queue := [] }.vf := hc
    exact .ite ((h₁.wakeVf _).runQueue _ _ hqueue _) (h₁.putCtx _ hc)
  next =>
    split
    next key c hmake =>
      have hc : V c.vf := vf_of_canMake hmake ▸ hvf
      have hmade : ServesFns V s { u with sh.made := u.sh.made + 1 } := hu.of_eq
      exact hmade.runQueue _ _ hc _
    next =>
      have hwait : ∀ x ∈ v.sh.wait ++ [w], V x.vf := fun x hx =>
        (List.mem_append.mp hx).elim (hv.wait x) fun hx => by rwa [List.mem_singleton.mp hx]
      exact { hv with wait := hwait }

theorem Serves.serveWait (h : ServesFns V s t) (d) : ServesFns V s (t.serveWait d) := by
  have hrest : ServesFns V s { t with sh.wait := t.sh.wait.filter (fun w => w.die != d.index) } :=
    { h with wait := fun w hw => h.wait w (List.mem_of_mem_filter hw) }
  exact List.foldlRecOn (motive := ServesFns V s) _ _ hrest fun u hu w hw =>
    hu.placeDesc _ _ _ (h.wait w (List.mem_of_mem_filter hw))

/-! #### Requests -/

theorem Serves.modMan (h : ServesFns V s t) (i f) : ServesFns V s (t.modMan i f) := h.of_eq

theorem Serves.freeMan (h : ServesFns V s t) (i) : ServesFns V s (t.freeMan i) := h.of_eq

theorem Serves.setBerth (h : ServesFns V s t) (k b) : ServesFns V s (t.setBerth k b) := h.of_eq

theorem Serves.releaseBerths (h : ServesFns V s t) (i) : ServesFns V s (t.releaseBerths i) := by
  unfold State.releaseBerths
  extract_lets
  refine Serves.modMan (foldl_keeps (P := ServesFns V s) ?_ _ h) i _
  exact fun _ _ hu => hu.setBerth ..

theorem Serves.svRelease (h : ServesFns V s t) (i) : ServesFns V s (t.svRelease i) := by
  unfold State.svRelease State.svLog
  split
  · exact h
  · split
    · exact h.modMan ..
    · exact Serves.modMan h.of_eq ..

theorem Serves.prefillOver (h : ServesFns V s t) (i) : ServesFns V s (t.prefillOver i) := by
  unfold State.prefillOver
  extract_lets _ _ t₁
  have h₁ : ServesFns V s t₁ := h.of_eq
  split
  · exact .ite (h₁.modMan ..) h₁
  · exact h₁

theorem Serves.abortPrefill (h : ServesFns V s t) (i) : ServesFns V s (t.abortPrefill i) := by
  unfold State.abortPrefill
  extract_lets _ _ mine t₁ t₂
  have h₁ : ServesFns V s t₁ := by
    unfold t₁
    split
    · exact (h.abortCtx ..).mono fun _ he => he.1
    · exact h
  have h₂ : ServesFns V s t₂ := foldl_keeps (fun _ _ hu => hu.postRecord ..) _ h₁
  have hrest : ServesFns V s { t₂ with sh := { t₂.sh with wait := t₂.sh.wait.filter (fun w => !mine w) } } :=
    { h₂ with wait := fun w hw => h₂.wait w (List.mem_of_mem_filter hw) }
  exact .ite (h.prefillOver _) ((hrest.serveWait _).prefillOver _)

theorem Serves.reclaim (h : ServesFns V s t) (i) : ServesFns V s (t.reclaim i) := by
  have hrecord : ServesFns V s ((t.abortPrefill i).freeRecord i) := .ite (h.abortPrefill i).of_eq (h.abortPrefill i)
  exact (((hrecord.modMan ..).releaseBerths i).svRelease i).freeMan i

theorem Serves.endQuietly (h : ServesFns V s t) (p) : ServesFns V s (t.endQuietly p) :=
  foldl_keeps (fun _ _ hu => .ite (hu.modMan ..) ((hu.modMan ..).reclaim _)) _ h

end

/-! #### Resets of functions -/

section
variable {C : Nat × Ctx → Prop} {V : Nat → Prop} {s t : State} {p : Nat → Bool}

/-- The contexts of a list are aborted, each on its die. -/
theorem Serves.abortAll (l : List (Nat × Ctx)) : ∀ {C : Nat × Ctx → Prop} {t : State}, Serves C V s t →
    Serves (fun e => C e ∧ ∀ x ∈ l, e.1 ≠ x.1) V s (l.foldl (fun u e => u.abortCtx (Die.ofIndex (e.1 / 8)) e.1) t) := by
  induction l with
  | nil => exact fun h => h.mono fun _ he => ⟨he, fun _ hx => absurd hx List.not_mem_nil⟩
  | cons a l ih =>
    exact fun h => (ih (h.abortCtx _ a.1)).mono fun e ⟨⟨hC, ha⟩, hl⟩ => ⟨hC, List.forall_mem_cons.mpr ⟨ha, hl⟩⟩

theorem not_of_mem_filter_not {α : Type} {q : α → Bool} {l : List α} (e) (he : e ∈ l.filter (fun x => !q x)) :
    q e = false := by
  have hq := (List.mem_filter.mp he).2
  rwa [Bool.not_eq_true'] at hq

/-- The state without the saved images of the functions that p names and without the descriptors of theirs that wait (R346). -/
def dropImages (p : Nat → Bool) (s : State) : State :=
  { s with sh := { s.sh with
    saved := s.sh.saved.filter (fun e => !p e.ctx.vf)
    wait := s.sh.wait.filter (fun e => !p e.vf) } }

theorem Serves.dropImages (h : Serves C V s t) (p : Nat → Bool) :
    Serves C (fun f => p f = false) s (dropImages p t) :=
  { h with saved := not_of_mem_filter_not, wait := not_of_mem_filter_not }

theorem dropContexts_eq (s : State) (p : Nat → Bool) : s.dropContexts p =
    [Die.pd 0, .pd 1, .pd 2, .pd 3, .rd].foldl State.serveWait (dropImages p
      ((s.sh.ctx.filter (fun e => p e.2.vf)).foldl (fun u e => u.abortCtx (Die.ofIndex (e.1 / 8)) e.1) s)) := rfl

theorem Serves.dropContexts (h : Serves C V s t) (p : Nat → Bool) :
    ServesFns (fun f => p f = false) s (t.dropContexts p) := by
  have hstart : Serves (· ∈ t.sh.ctx) V s t := { h with ctx := fun _ => id }
  have hvf (e : Nat × Ctx) : (e ∈ t.sh.ctx ∧ ∀ x ∈ t.sh.ctx.filter (fun e => p e.2.vf), e.1 ≠ x.1) → p e.2.vf = false :=
    fun ⟨hmem, hne⟩ => Bool.eq_false_iff.mpr fun hp => hne e (List.mem_filter.mpr ⟨hmem, hp⟩) rfl
  rw [dropContexts_eq]
  refine foldl_keeps (P := ServesFns (fun f => p f = false) s) ?_ _ ?_
  · exact fun _ d hu => Serves.serveWait (V := fun f => p f = false) hu d
  · exact ((hstart.abortAll _).mono hvf).dropImages p

theorem Serves.refl (h : tsorted 0 s.sh.ctx = true) : Serves (fun _ => True) (fun _ => True) s s where
  slots := rfl
  td := rfl
  fh := rfl
  zl := rfl
  link := rfl
  cmdq := rfl
  eff := rfl
  sorted := h
  ctx _ _ := trivial
  saved _ _ := trivial
  wait _ _ := trivial

/-- The state without the entries of the functions that p names that wait for the Harbourmaster (R346). -/
def dropEntries (p : Nat → Bool) (s : State) : State :=
  { s with hm := { s.hm with cmdq := s.hm.cmdq.filter (fun e => !p e.fn) } }

/-- The state with the queues, counters and queue pages of the functions that p names reset (R346, R441). -/
def clearFns (p : Nat → Bool) (s : State) : State :=
  { s with
    hi := { s.hi with
      sq := tdrop (fun k => p (k / 8)) s.hi.sq
      cq := tdrop (fun k => p (k / 8)) s.hi.cq
      msix := tdrop (fun k => p (k / 2048)) s.hi.msix
      counts := tdrop (fun k => p (k / 16)) s.hi.counts
      d3 := s.hi.d3.filter (fun f => !p f) }
    regs := tdrop (fun o => decide (hiBlock + 0x100000 ≤ o) && decide (o < hiBlock + 0x200000) && p (pageFn o)) s.regs }

theorem flrFns_eq (s : State) (p : Nat → Bool) : s.flrFns p =
    clearFns p ((((dropEntries p s).endQuietly p).dropContexts p).dropCached (fun e => p e.fn) (fun e => p e.fn)
      (fun w => p w.fn)) := by
  unfold State.flrFns clearFns dropEntries
  rfl

theorem Serves.dropCached (h : Serves C V s t) (leaf tab walk) : Serves C V s (t.dropCached leaf tab walk) := h.of_eq

theorem Serves.clearFns (h : Serves C V s t) (p) : Serves C V s (clearFns p t) := h.of_eq

theorem serves_flrFns (h : tsorted 0 s.sh.ctx = true) (p : Nat → Bool) :
    ServesFns (fun f => p f = false) (dropEntries p s) (s.flrFns p) := by
  have hentries : Serves (fun _ => True) (fun _ => True) (dropEntries p s) (dropEntries p s) := .refl h
  rw [flrFns_eq]
  exact (((Serves.endQuietly (V := fun _ => True) hentries p).dropContexts p).dropCached ..).clearFns p

/-- The entries, contexts, saved images, Customs entries and queues of a reset function are gone. -/
structure FnsReset (p : Nat → Bool) (s t : State) : Prop where
  slots : t.slots = s.slots
  td : t.td = s.td
  fh : t.fh = s.fh
  zl : t.zl = s.zl
  link : t.hi.linkUp = s.hi.linkUp
  eff : t.sh.eff = s.sh.eff
  sorted : tsorted 0 t.sh.ctx = true
  ctx : ∀ e ∈ t.sh.ctx, p e.2.vf = false
  saved : ∀ e ∈ t.sh.saved, p e.ctx.vf = false
  cmdq : ∀ e ∈ t.hm.cmdq, p e.fn = false
  leaves : ∀ e ∈ t.cu.leaves, p e.fn = false
  tabs : ∀ e ∈ t.cu.tabs, p e.fn = false
  sq : ∀ f i, p f = true → i < 8 → t.sqOf f i = {}
  cq : ∀ f i, p f = true → i < 8 → t.cqOf f i = {}
  page : ∀ o, hiBlock + 0x100000 ≤ o → o < hiBlock + 0x200000 → p (pageFn o) = true → t.reg o = regReset o

/-- A queue of a function whose queues are dropped reads as a fresh one. -/
theorem tget_tdrop_queue {α : Type} (d : α) (l : Table α) {f i : Nat} (hf : p f = true) (hi : i < 8) :
    tget d (tdrop (fun k => p (k / 8)) l) (8 * f + i) = d := by
  refine (tget_filter d (fun k => !p (k / 8)) l _).trans ?_
  rw [show (8 * f + i) / 8 = f by omega, hf]
  rfl

theorem reg_clearFns {o : Nat} (hlo : hiBlock + 0x100000 ≤ o) (hhi : o < hiBlock + 0x200000) (ho : p (pageFn o) = true) :
    (clearFns p t).reg o = regReset o := by
  refine (tget_filter _ (fun o => !(decide (hiBlock + 0x100000 ≤ o) && decide (o < hiBlock + 0x200000) && p (pageFn o)))
    t.regs o).trans ?_
  simp [hlo, hhi, ho]

theorem fnsReset_flrFns (h : tsorted 0 s.sh.ctx = true) (p : Nat → Bool) : FnsReset p s (s.flrFns p) := by
  have hserves := serves_flrFns h p
  have hcmdq : (s.flrFns p).hm.cmdq = s.hm.cmdq.filter (fun e => !p e.fn) := hserves.cmdq
  rw [flrFns_eq] at hserves hcmdq ⊢
  generalize ((dropEntries p s).endQuietly p).dropContexts p = u at hserves hcmdq ⊢
  exact {
    slots := hserves.slots
    td := hserves.td
    fh := hserves.fh
    zl := hserves.zl
    link := hserves.link
    eff := hserves.eff
    sorted := hserves.sorted
    ctx := hserves.ctx
    saved := hserves.saved
    cmdq := hcmdq ▸ not_of_mem_filter_not
    leaves := not_of_mem_filter_not
    tabs := not_of_mem_filter_not
    sq := fun _ _ => tget_tdrop_queue _ _
    cq := fun _ _ => tget_tdrop_queue _ _
    page := fun _ => reg_clearFns }

/-- The functions of a list are in an FLR, the last of which began at a time. -/
def setFlr (fs : List Nat) (raw : Nat) (s : State) : State := { s with hi := { s.hi with flr := fs, flrT := raw } }

theorem flrVfs_eq (s : State) (p : Nat → Bool) : s.flrVfs p =
    setFlr (((List.range 512).map (· + 1)).filter (fun f => p f || (s.flrFns p).hi.flr.contains f)) s.td.raw (s.flrFns p) := rfl

theorem FnsReset.setFlr (h : FnsReset p s t) (fs raw) : FnsReset p s (setFlr fs raw t) := { h with }

theorem fnsReset_flrVfs (h : tsorted 0 s.sh.ctx = true) (p : Nat → Bool) : FnsReset p s (s.flrVfs p) := by
  rw [flrVfs_eq]
  exact (fnsReset_flrFns h p).setFlr ..

theorem contains_flr_flrVfs {f : Nat} (hlo : 1 ≤ f) (hhi : f ≤ 512) (hf : p f = true) :
    (s.flrVfs p).hi.flr.contains f = true := by
  have hrange : f ∈ (List.range 512).map (· + 1) := List.mem_map.mpr ⟨f - 1, List.mem_range.mpr (by omega), by omega⟩
  rw [flrVfs_eq]
  unfold setFlr
  generalize (List.range 512).map (· + 1) = fs at hrange
  exact List.contains_iff_mem.mpr (List.mem_filter.mpr ⟨hrange, by rw [hf, Bool.true_or]⟩)

end

/-! #### A function's queues after its reset -/

section
variable {s t : State} {p : Nat → Bool}

/-- A register of a queue page is reset to a value with bit 31 clear, so that no queue is enabled. -/
theorem bitOf_regReset_page {o : Nat} (hlo : hiBlock + 0x100000 ≤ o) (hhi : o < hiBlock + 0x200000) :
    bitOf (regReset o).toNat 31 = false := by
  have h : (!bitOf (regReset o).toNat 31) = true :=
    regReset_of_rows (P := fun w => !bitOf w.toNat 31) (hi := hiBlock + 0x1FFFFF) (by decide) (by decide +kernel) hlo (by omega)
  rwa [Bool.not_eq_true'] at h

theorem FnsReset.regBit_page (h : FnsReset p s t) {f o : Nat} (hlo : hiBlock + 0x100000 ≤ o) (hhi : o < hiBlock + 0x200000)
    (hpage : pageFn o = f) (hf : p f = true) : t.regBit o 31 = false := by
  have hreset : t.reg o = regReset o := h.page o hlo hhi (hpage ▸ hf)
  unfold State.regBit State.regN
  rw [hreset, bitOf_regReset_page hlo hhi]

theorem FnsReset.sqOn (h : FnsReset p s t) {f i : Nat} (hf : p f = true) (hhi : f ≤ 512) (hi : i < 8) : t.sqOn f i = false := by
  refine h.regBit_page ?_ ?_ ?_ hf <;> simp only [sqReg, pageFn, hiBlock] <;> omega

theorem FnsReset.cqOn (h : FnsReset p s t) {f i : Nat} (hf : p f = true) (hhi : f ≤ 512) (hi : i < 8) : t.cqOn f i = false := by
  refine h.regBit_page ?_ ?_ ?_ hf <;> simp only [cqReg, pageFn, hiBlock] <;> omega

theorem FnsReset.weight (h : FnsReset p s t) (v : Nat) : t.weight v = s.weight v := by
  unfold State.weight State.cxVf
  rw [h.eff]

end

/-! #### Resets of the host interface -/

/-- The host interface is reset (R347): its registers and Customs', the contexts and the Customs cache; the slots, Tide, the
cell plan and the fabric stay. -/
structure HostIsReset (s t : State) : Prop where
  vfEnable : t.hi.vfEnable = false
  leaves : t.cu.leaves = []
  tabs : t.cu.tabs = []
  walks : ∀ w ∈ t.cu.walks, w.cache = false
  ctx : t.sh.ctx = []
  regHi : ∀ o, hiBlock ≤ o → o < hiBlock + 0x200000 → t.reg o = regReset o
  regCu : ∀ o, cuBlock ≤ o → o < cuBlock + 0x10000 → t.reg o = regReset o
  slots : t.slots = s.slots
  td : t.td = s.td
  fh : t.fh = s.fh
  zl : t.zl = s.zl
  link : t.hi.linkUp = s.hi.linkUp

/-- What is left to reset of the host interface once every function is (R347). -/
def clearHost (s : State) : State :=
  let t := ((s.resetRegs hiBlock (hiBlock + 0x200000)).resetRegs cuBlock (cuBlock + 0x10000)).dropCached (fun _ => true)
    (fun _ => true) (fun _ => true)
  { t with hi := { t.hi with vfEnable := false, retrains := 0 }, cu := { t.cu with invBusy := false } }

section
variable {s t : State}

theorem hiReset_eq (s : State) : s.hiReset = clearHost ((s.flrVfs (fun f => decide (0 < f))).flrFns (fun _ => true)) := rfl

theorem reg_clearHost {o : Nat} (ho : (hiBlock ≤ o ∧ o < hiBlock + 0x200000) ∨ (cuBlock ≤ o ∧ o < cuBlock + 0x10000)) :
    (clearHost s).reg o = regReset o := by
  have hregs : (clearHost s).reg o =
      ((s.resetRegs hiBlock (hiBlock + 0x200000)).resetRegs cuBlock (cuBlock + 0x10000)).reg o := rfl
  rw [hregs, reg_resetRegs, reg_resetRegs]
  split_ifs with hcu hhi
  · rfl
  · rfl
  · exact absurd (ho.resolve_right hcu) hhi

theorem clearHost_keeps (s : State) : (clearHost s).slots = s.slots ∧ (clearHost s).td = s.td ∧ (clearHost s).fh = s.fh ∧
    (clearHost s).zl = s.zl ∧ (clearHost s).hi.linkUp = s.hi.linkUp ∧ (clearHost s).sh = s.sh := by
  unfold clearHost State.dropCached State.resetRegs
  exact ⟨rfl, rfl, rfl, rfl, rfl, rfl⟩

/-- After the VFs and then every function, the rest of the host interface. -/
theorem FnsReset.clearHost {p : Nat → Bool} {u : State} (hvfs : FnsReset p s t) (hall : FnsReset (fun _ => true) t u) :
    HostIsReset s (clearHost u) := by
  obtain ⟨hslots, htd, hfh, hzl, hlink, hsh⟩ := clearHost_keeps u
  have hctx (e) (he : e ∈ (Sys2Proof.clearHost u).sh.ctx) : False := Bool.noConfusion (hall.ctx e (hsh ▸ he))
  have hnone {α : Type} (l : List α) : l.filter (fun _ => !true) = [] := List.filter_eq_nil_iff.mpr fun _ _ => nofun
  exact {
    vfEnable := rfl
    leaves := hnone _
    tabs := hnone _
    walks := fun w hw => by
      obtain ⟨v, -, rfl⟩ := List.mem_map.mp hw
      rfl
    ctx := List.eq_nil_iff_forall_not_mem.mpr hctx
    regHi := fun _ hlo hhi => reg_clearHost (.inl ⟨hlo, hhi⟩)
    regCu := fun _ hlo hhi => reg_clearHost (.inr ⟨hlo, hhi⟩)
    slots := hslots.trans (hall.slots.trans hvfs.slots)
    td := htd.trans (hall.td.trans hvfs.td)
    fh := hfh.trans (hall.fh.trans hvfs.fh)
    zl := hzl.trans (hall.zl.trans hvfs.zl)
    link := hlink.trans (hall.link.trans hvfs.link) }

theorem hostIsReset_hiReset (h : tsorted 0 s.sh.ctx = true) : HostIsReset s s.hiReset := by
  have hvfs := fnsReset_flrVfs h (fun f => decide (0 < f))
  rw [hiReset_eq]
  exact hvfs.clearHost (fnsReset_flrFns hvfs.sorted _)

end

/-! #### The commands of the link and of resets -/

section
variable {s : State}

theorem runs_of_onlyIf {c : Instr} {g : Bool} {t : State} {P : State → Prop} (hexec : exec c s = onlyIf g s t) (hg : g = true)
    (ht : P t) : Runs c s P :=
  ⟨t, by rw [hexec, onlyIf_true hg], ht⟩

end

section
variable {s : State}

theorem runs_vfFlr (hup : s.hi.linkUp = true) (hctx : tsorted 0 s.sh.ctx = true) (v : Fin 512) (hvf : s.hi.vfEnable = true) :
    Runs (.vfFlr v) s (fun t =>
      (∀ i < 8, t.sqOf (v.val + 1) i = {} ∧ t.cqOf (v.val + 1) i = {} ∧ t.sqOn (v.val + 1) i = false ∧
        t.cqOn (v.val + 1) i = false) ∧
      (∀ e ∈ t.sh.ctx, e.2.vf ≠ v.val + 1) ∧ (∀ e ∈ t.sh.saved, e.ctx.vf ≠ v.val + 1) ∧
      (∀ e ∈ t.cu.leaves, e.fn ≠ v.val + 1) ∧ (∀ e ∈ t.cu.tabs, e.fn ≠ v.val + 1) ∧
      (∀ e ∈ t.hm.cmdq, e.fn ≠ v.val + 1) ∧ t.hi.flr.contains (v.val + 1) = true ∧
      (tsorted 0 s.regs = true → t.weight (v.val + 1) = s.weight (v.val + 1))) := by
  have h := fnsReset_flrVfs hctx (fun f => f == v.val + 1)
  have hv : (v.val + 1 == v.val + 1) = true := beq_self_eq_true _
  have hle : v.val + 1 ≤ 512 := v.isLt
  have hflr := contains_flr_flrVfs (s := s) (p := fun f => f == v.val + 1) (Nat.le_add_left 1 v.val) hle hv
  refine runs_of_onlyIf (g := s.hi.linkUp && s.hi.vfEnable) rfl (by rw [hup, hvf]; rfl) ?_
  exact ⟨fun i hi => ⟨h.sq _ i hv hi, h.cq _ i hv hi, h.sqOn hv hle hi, h.cqOn hv hle hi⟩,
    fun e he => ne_of_beq_false (h.ctx e he), fun e he => ne_of_beq_false (h.saved e he),
    fun e he => ne_of_beq_false (h.leaves e he), fun e he => ne_of_beq_false (h.tabs e he),
    fun e he => ne_of_beq_false (h.cmdq e he), hflr, fun _ => h.weight _⟩

theorem runs_vfEnableClear (hup : s.hi.linkUp = true) (hctx : tsorted 0 s.sh.ctx = true) (hvf : s.hi.vfEnable = true) :
    Runs .vfEnableClear s (fun t => t.hi.vfEnable = false ∧ (∀ e ∈ t.sh.ctx, e.2.vf = 0) ∧ (∀ e ∈ t.cu.leaves, e.fn = 0) ∧
      (∀ f, 1 ≤ f → f ≤ 512 → t.hi.flr.contains f = true)) := by
  have h := fnsReset_flrVfs hctx (fun f => decide (0 < f))
  have hflr (f) (hlo : 1 ≤ f) (hhi : f ≤ 512) := contains_flr_flrVfs (s := s) (p := fun f => decide (0 < f)) hlo hhi
    (decide_eq_true hlo)
  have hzero {f : Nat} (hf : decide (0 < f) = false) : f = 0 := by simpa using hf
  refine runs_of_onlyIf (g := s.hi.linkUp && s.hi.vfEnable)
    (t := let u := s.flrVfs (fun f => decide (0 < f)); { u with hi := { u.hi with vfEnable := false } }) rfl
    (by rw [hup, hvf]; rfl) ?_
  generalize s.flrVfs (fun f => decide (0 < f)) = u at h hflr
  exact ⟨rfl, fun e he => hzero (h.ctx e he), fun e he => hzero (h.leaves e he), hflr⟩

/-- A PF FLR and a link-down reset the host interface; the link stays up after the FLR alone (R347). -/
theorem runs_hostReset (hup : s.hi.linkUp = true) (hctx : tsorted 0 s.sh.ctx = true) :
    ∀ c ∈ [Instr.pfFlr, Instr.pcieLinkDown], Runs c s (fun t =>
      t.hi.vfEnable = false ∧ t.cu.leaves = [] ∧ t.cu.tabs = [] ∧ (∀ w ∈ t.cu.walks, w.cache = false) ∧ t.sh.ctx = [] ∧
      (∀ o, hiBlock ≤ o → o < hiBlock + 0x200000 → t.reg o = regReset o) ∧
      (∀ o, cuBlock ≤ o → o < cuBlock + 0x10000 → t.reg o = regReset o) ∧ t.slots = s.slots ∧ t.td = s.td ∧
      t.fh = s.fh ∧ t.zl = s.zl ∧ t.hi.linkUp = (c == .pfFlr)) := by
  have h := hostIsReset_hiReset hctx
  rw [List.forall_mem_cons, List.forall_mem_singleton]
  constructor
  · refine runs_of_onlyIf (g := s.hi.linkUp) rfl hup ?_
    exact ⟨h.vfEnable, h.leaves, h.tabs, h.walks, h.ctx, h.regHi, h.regCu, h.slots, h.td, h.fh, h.zl, h.link.trans hup⟩
  · refine runs_of_onlyIf (g := s.hi.linkUp) (t := s.hiReset.linkLow) rfl hup ?_
    generalize s.hiReset = u at h
    exact ⟨h.vfEnable, h.leaves, h.tabs, h.walks, h.ctx, h.regHi, h.regCu, h.slots, h.td, h.fh, h.zl, rfl⟩

theorem runs_pciPmStateWrite (hup : s.hi.linkUp = true) (f : Fin 513) (d3 : Bool) (hflr : s.hi.flr.contains f.val = false)
    (hf : f.val = 0 ∨ s.hi.vfEnable = true) : Runs (.pciPmStateWrite f d3) s (fun t => t.hi.d3.contains f.val = d3) := by
  have hfn : (f.val == 0 || s.hi.vfEnable) = true := by simpa using hf
  refine runs_of_onlyIf (g := s.hi.linkUp && !s.hi.flr.contains f.val && (f.val == 0 || s.hi.vfEnable)) rfl
    (by rw [hup, hflr, hfn]; rfl) ?_
  cases d3 <;> simp

theorem runs_perstAssert (hpow : s.boot.powered = true) (hctx : tsorted 0 s.sh.ctx = true) :
    Runs .perstAssert s (fun t => t.hi.perstHigh = false ∧
      t.hi.linkUp = false ∧ t.cu.leaves = [] ∧ t.sh.ctx = [] ∧
      (∀ o, hiBlock ≤ o → o < hiBlock + 0x200000 → t.reg o = regReset o) ∧ t.slots = s.slots ∧ t.td = s.td) := by
  have h := hostIsReset_hiReset hctx
  refine runs_of_onlyIf (g := s.boot.powered)
    (t := let u := s.hiReset.linkLow; { u with hi := { u.hi with perstHigh := false } }) rfl hpow ?_
  generalize s.hiReset = u at h
  exact ⟨rfl, rfl, h.leaves, h.ctx, h.regHi, h.slots, h.td⟩

theorem runs_pcieLinkTrained (x16 gt64 flit : Bool) (hlock : s.clk.tideLock = true) (hperst : s.hi.perstHigh = true)
    (hrom : s.boot.rom = true) (hphase : s.boot.phase ≠ .record) :
    Runs (.pcieLinkTrained x16 gt64 flit) s (fun t => t.hi.linkUp = true ∧ t.hi.width = (if x16 then 16 else 8) ∧
      t.hi.degraded = (!x16 || !gt64) ∧ t.hi.flit = (gt64 || flit)) := by
  have hphase' : (s.boot.phase != .record) = true := bne_iff_ne.mpr hphase
  exact runs_of_onlyIf (g := s.clk.tideLock && s.hi.perstHigh && s.boot.rom && s.boot.phase != .record) rfl
    (by rw [hlock, hperst, hrom, hphase']; rfl) ⟨rfl, rfl, rfl, rfl⟩

theorem runs_vfFlrComplete (v : Fin 512) (hT : s.hi.flrT + rawUs 2000 ≤ (s.reachRaw (s.hi.flrT + rawUs 2000)).td.raw)
    (hlive : ∀ e ∈ s.liveMen, e.2.fn ≠ v.val + 1) :
    Runs (.vfFlrComplete v) s (fun t => t.hi.flr = s.hi.flr.filter (fun f => f != v.val + 1) ∧ t.hi.sq = s.hi.sq) := by
  have hany : s.liveMen.any (fun e => e.2.fn == v.val + 1) = false :=
    List.any_eq_false.mpr fun e he => by simpa using hlive e he
  refine runs_of_onlyIf (g := decide (s.hi.flrT + rawUs 2000 ≤ (s.reachRaw (s.hi.flrT + rawUs 2000)).td.raw) &&
    !(s.liveMen.any (fun e => e.2.fn == v.val + 1))) rfl (by rw [decide_eq_true hT, hany]; rfl) ?_
  simp

/-! #### BAR accesses -/

theorem barAnswer_keeps (s : State) (data status : Nat) :
    (s.barAnswer data status).hi.barRsp = some (data, status) ∧ (s.barAnswer data status).mem = s.mem := ⟨rfl, rfl⟩

theorem linkUp_of_fnLive {f : Nat} (h : s.fnLive f = true) : s.hi.linkUp = true := by
  simp only [State.fnLive, Bool.and_eq_true] at h
  exact h.1.1.1.1

theorem exec_bar0BadAccess (f : Fin 513) (hlive : s.fnLive f = true) (write : Bool) :
    exec (.bar0BadAccess f write) s =
      .next (if write then s.count hiBarRefuse 1 else (s.count hiBarRefuse 1).barAnswer 0 1) := by
  refine (onlyIf_true (linkUp_of_fnLive hlive) s _).trans ?_
  rw [if_pos hlive]

section
variable {o : BitVec 36} {n : Fin 4097} (hup : s.hi.linkUp = true) (hpos : 0 < n.val) (hpage : o.toNat % 4096 + n.val ≤ 4096)
include hup hpos hpage

/-- What a BAR2 read of a right form does (R332). -/
theorem exec_bar2Read : exec (.bar2Read o n) s =
    .next (let a := s.bar2 o.toNat
      let st := if s.fnLive 0 then s.bar2Status a else 1
      if st = 0 then
        if s.addrStatus a == .ok then
          (s.noteReads 0x120 a n).barAnswer (s.loadNat a n) (if s.rangeBad a n then 3 else 0)
        else s.barAnswer 0 0
      else s.barAnswer 0 st) :=
  onlyIf_true (by rw [hup, decide_eq_true hpos, decide_eq_true hpage]; rfl) s _

theorem exec_bar2Read_bonded (hlive : s.fnLive 0 = true) (hbonded : bonded (s.bar2 o.toNat) = true) :
    exec (.bar2Read o n) s = .next (s.barAnswer 0 2) := by
  rw [exec_bar2Read hup hpos hpage]
  simp [hlive, State.bar2Status, hbonded]

theorem exec_bar2Read_dead (hlive : s.fnLive 0 = false) : exec (.bar2Read o n) s = .next (s.barAnswer 0 1) := by
  rw [exec_bar2Read hup hpos hpage]
  simp [hlive]

variable {d : Die} {r : Nat} (hlive : s.fnLive 0 = true) (hbonded : bonded (s.bar2 o.toNat) = false)
  (hplace : place (s.bar2 o.toNat) = .sram d r)
include hlive hbonded hplace

theorem runs_bar2Read_sram (hok : s.addrStatus (s.bar2 o.toNat) = .ok) (hbad : s.rangeBad (s.bar2 o.toNat) n = false) :
    Runs (.bar2Read o n) s (fun t => t.hi.barRsp = some (s.loadNat (s.bar2 o.toNat) n, 0) ∧ t.mem = s.mem) := by
  obtain ⟨hmem, -⟩ := noteReads_keeps s 0x120 (s.bar2 o.toNat) n
  obtain ⟨hrsp, hmem'⟩ := barAnswer_keeps (s.noteReads 0x120 (s.bar2 o.toNat) n) (s.loadNat (s.bar2 o.toNat) n) 0
  refine ⟨_, ?_, hrsp, hmem'.trans hmem⟩
  rw [exec_bar2Read hup hpos hpage]
  simp [hlive, State.bar2Status, hbonded, hplace, hok, hbad]

theorem exec_bar2Read_unreached (hok : s.addrStatus (s.bar2 o.toNat) ≠ .ok) :
    exec (.bar2Read o n) s = .next (s.barAnswer 0 0) := by
  rw [exec_bar2Read hup hpos hpage]
  simp [hlive, State.bar2Status, hbonded, hplace, hok]

end

section
variable {o : BitVec 36} {data : List Byte} (hlive : s.fnLive 0 = true) (hpos : 0 < data.length)
  (hpage : o.toNat % 4096 + data.length ≤ 4096)
include hlive hpos hpage

/-- What a BAR2 write of a right form does (R332). -/
theorem exec_bar2Write (lost : List PAddr) : exec (.bar2Write o data lost) s =
    .next (if s.bar2Status (s.bar2 o.toNat) ≠ 0 ∨ s.pfVoid (s.bar2 o.toNat) then s.count hiBarRefuse 1
      else s.storeLost 0x120 (s.bar2 o.toNat) data lost) :=
  onlyIf_true (by rw [hlive, decide_eq_true hpos, decide_eq_true hpage]; rfl) s _

theorem exec_bar2Write_void (h : s.bar2Status (s.bar2 o.toNat) ≠ 0 ∨ s.pfVoid (s.bar2 o.toNat) = true) (lost : List PAddr) :
    exec (.bar2Write o data lost) s = .next (s.count hiBarRefuse 1) := by
  rw [exec_bar2Write hlive hpos hpage, if_pos h]

theorem exec_bar2Write_reached (hst : s.bar2Status (s.bar2 o.toNat) = 0) (hvoid : s.pfVoid (s.bar2 o.toNat) = false)
    (lost : List PAddr) :
    exec (.bar2Write o data lost) s = .next (s.storeLost 0x120 (s.bar2 o.toNat) data lost) := by
  rw [exec_bar2Write hlive hpos hpage, if_neg (by simp [hst, hvoid])]

end

/-- A whole word is one part of a write. -/
theorem wordChunks_word {a : Nat} {bs : List Byte} (hlen : bs.length = 8) (ha : a % 8 = 0) : wordChunks a bs = [(a, bs)] := by
  have hword : a / 8 * 8 = a := Nat.div_mul_cancel (Nat.dvd_of_mod_eq_zero ha)
  have hone : List.range (ceilDiv (a % 8 + 8) 8) = [0] := by rw [ha]; rfl
  have htake : bs.take 8 = bs := List.take_of_length_le hlen.le
  simp [wordChunks, hone, hword, hlen, htake]

/-- A word outside the GD banks that is named loses its collision. -/
theorem losable_sram {w : PAddr} {a r : Nat} {d : Die} (hw : w.toNat = a) (hplace : place a = .sram d r)
    (hd : ∀ n, d ≠ .gd n) : losable [w] a = true := by
  unfold losable
  rw [hplace]
  cases d with
  | gd n => exact absurd rfl (hd n)
  | pd n => simp [hw]
  | rd => simp [hw]
  | hd => simp [hw]

theorem storeLost_word {w : PAddr} {m a r : Nat} {d : Die} {bs : List Byte} (hlen : bs.length = 8) (ha : a % 8 = 0)
    (hw : w.toNat = a) (hplace : place a = .sram d r) (hd : ∀ n, d ≠ .gd n) :
    s.storeLost m a bs [w] = s.collided d m := by
  unfold State.storeLost
  rw [wordChunks_word hlen ha, List.foldl_cons, List.foldl_nil, losable_sram hw hplace hd, hplace]
  rfl

/-! #### Fatal causes -/

theorem hi_bootFailed (s : State) : s.bootFailed.hi = s.hi := by
  unfold State.bootFailed
  split
  · rfl
  · rfl

theorem hi_raiseFatal (hfatal : s.fatal = false) (cause die : Nat) : (s.raiseFatal cause die).fatal = true ∧
    (s.raiseFatal cause die).hi.errFatal = s.hi.errFatal + b2n s.hi.linkUp := by
  have hnow : ¬ s.boot.fatalNow = true := Bool.eq_false_iff.mp hfatal
  unfold State.raiseFatal
  extract_lets u t
  have ht : t.hi = s.hi := hi_bootFailed _
  rw [if_neg hnow]
  exact ⟨rfl, by rw [ht]⟩

theorem runs_fatalError (cause : BitVec 8) (d : Option Die) (hlo : 1 ≤ cause.toNat) (hhi : cause.toNat ≤ 8)
    (hfatal : s.fatal = false) (hregs : tsorted 0 s.regs = true) :
    Runs (.fatalError cause d) s (fun t => t.fatal = true ∧
      t.regN (btBlock + 0x300) = 2 ^ 31 + (match d with | some x => x.index | none => 0xFF) * 2 ^ 16 + cause.toNat ∧
      t.hi.errFatal = s.hi.errFatal + b2n s.hi.linkUp) := by
  have hdie : dieField d < 256 := by
    cases d with
    | none => decide
    | some x => exact (index_lt x).trans (by decide)
  have hreg := regN_raiseFatal hregs hfatal cause.toNat (dieField d)
  rw [Nat.mod_eq_of_lt hdie, Nat.mod_eq_of_lt cause.isLt] at hreg
  obtain ⟨hset, herr⟩ := hi_raiseFatal hfatal cause.toNat (dieField d)
  exact runs_of_onlyIf (g := decide (1 ≤ cause.toNat) && decide (cause.toNat ≤ 8)) rfl
    (by rw [decide_eq_true hlo, decide_eq_true hhi]; rfl) ⟨hset, hreg, herr⟩

theorem exec_fatalError_again (cause : BitVec 8) (d : Option Die) (hfatal : s.fatal = true) :
    exec (.fatalError cause d) s = .next s := by
  have hkept : s.raiseFatal cause.toNat (dieField d) = s := if_pos hfatal
  show onlyIf _ s (s.raiseFatal cause.toNat (dieField d)) = .next s
  rw [hkept, onlyIf, ite_self]

end

/-- Settles O37: a reset of functions is followed once through the ends of their requests, the aborts of their contexts and
the descriptors that get a context then (`Serves`), from which what stays and what goes is read off for an FLR of a VF, VF
Enable, a PF FLR, a link-down and PERST_N; the accesses and the fatal causes go by their own cases. -/
theorem hostFunctions : Obligations.HostFunctions := by
  unfold Obligations.HostFunctions
  refine ⟨fun s hup hctx => ⟨runs_vfFlr hup hctx, runs_vfEnableClear hup hctx, onlyIf_true hup _ _, runs_hostReset hup hctx,
    runs_pciPmStateWrite hup, fun f hlive => ⟨exec_bar0BadAccess f hlive true, exec_bar0BadAccess f hlive false⟩,
    fun o n hpos hpage => ⟨exec_bar2Read_bonded hup hpos hpage, exec_bar2Read_dead hup hpos hpage,
      fun d r hlive hbonded hplace => ⟨runs_bar2Read_sram hup hpos hpage hlive hbonded hplace,
        exec_bar2Read_unreached hup hpos hpage hlive hbonded hplace⟩⟩⟩,
    fun s o data hlive hpos hpage => ⟨exec_bar2Write_void hlive hpos hpage, fun hst hvoid =>
      ⟨exec_bar2Write_reached hlive hpos hpage hst hvoid [], fun w d r hlen ha hw hplace hd => ?_⟩⟩,
    fun s => ⟨runs_perstAssert, rfl, runs_pcieLinkTrained, runs_vfFlrComplete, runs_fatalError, exec_fatalError_again⟩⟩
  rw [exec_bar2Write_reached hlive hpos hpage hst hvoid, storeLost_word hlen ha hw hplace hd]

end Sys2Proof

namespace Sys2Proof
open Machine

/-! ### O14: a refused descriptor -/

section
variable {s : State}

/-! #### What reports, records and charges leave -/

theorem sh_sendVec (s : State) (f v : Nat) : (s.sendVec f v).sh = s.sh := by
  unfold State.sendVec
  split <;> rfl

theorem mem_sendVec (s : State) (f v : Nat) : (s.sendVec f v).mem = s.mem := by
  unfold State.sendVec
  split <;> rfl

theorem sh_hiErr (s : State) (bit : Nat) : (s.hiErr bit).sh = s.sh := by
  unfold State.hiErr
  extract_lets t
  split
  · rfl
  · exact sh_sendVec t 0 0

/-- The report of an ECC error touches neither a context nor HM_TRC_CFG: it writes the bank page of a die and HI_ERR_CAUSE. -/
theorem eccReport_keeps_trace (s : State) (m k : Nat) (bad : Bool) :
    (s.eccReport m k bad).sh = s.sh ∧ (s.eccReport m k bad).regN trcCfg = s.regN trcCfg := by
  unfold State.eccReport
  split
  · exact ⟨rfl, rfl⟩
  next d bank word _ =>
    have hpage (x : Nat) (hx : x < 0x10000) : trcCfg ≠ bkBlock + 0x10000 * d.index + x := by
      unfold trcCfg hmBlock bkBlock
      omega
    extract_lets b _ free t₁ t₂ t t₃
    have h₁ : t₁.regN trcCfg = s.regN trcCfg := by
      refine s.regN_setReg_other _ ?_
      split <;> exact hpage _ (by decide)
    have h₂ : t₂.sh = s.sh ∧ t₂.regN trcCfg = s.regN trcCfg := by
      unfold t₂
      split
      · refine ⟨rfl, Eq.trans ?_ h₁⟩
        rw [State.regN_setReg_other _ _ (hpage _ (by decide)), State.regN_setReg_other _ _ (hpage _ (by decide))]
      · exact ⟨rfl, h₁⟩
    obtain ⟨hsh, hreg⟩ := h₂
    split
    · refine ⟨(sh_hiErr ..).trans hsh, ?_⟩
      rw [regN_hiErr_other _ _ (by decide)]
      exact (t₃.regN_setReg_other _ (hpage _ (by decide))).trans hreg
    · exact ⟨hsh, hreg⟩

theorem noteReads_keeps_trace (s : State) (m a n : Nat) :
    (s.noteReads m a n).sh = s.sh ∧ (s.noteReads m a n).regN trcCfg = s.regN trcCfg := by
  refine foldl_keeps (P := fun t => t.sh = s.sh ∧ t.regN trcCfg = s.regN trcCfg) (fun t k ⟨hsh, hreg⟩ => ?_) _ ⟨rfl, rfl⟩
  obtain ⟨hsh', hreg'⟩ := eccReport_keeps_trace t m k (t.wordBad k)
  dsimp only
  split
  · exact ⟨hsh'.trans hsh, hreg'.trans hreg⟩
  · exact ⟨hsh'.trans hsh, hreg'.trans hreg⟩

theorem sh_trace (s : State) (kind unit layer op fn arg : Nat) : (s.trace kind unit layer op fn arg).sh = s.sh := by
  have hwrite (r : List Byte) : (s.traceWrite r).sh = s.sh := by
    unfold State.traceWrite
    dsimp only
    split_ifs <;> rfl
  unfold State.trace
  extract_lets
  split
  · exact hwrite _
  · rfl

/-- With tracing off no record is written (R445). -/
theorem trace_off (hoff : s.regBit trcCfg 31 = false) (kind unit layer op fn arg : Nat) :
    s.trace kind unit layer op fn arg = s := by
  unfold State.trace
  rw [hoff]
  rfl

/-- The interrupt at a completion record leaves the contexts and memory (R121). -/
theorem recordIrq_keeps (s : State) (x : Desc) (vf core : Nat) :
    (if !x.irq then s else if vf = 0 then s.mgmtEvent else s.irqTo core .other).sh = s.sh ∧
    (if !x.irq then s else if vf = 0 then s.mgmtEvent else s.irqTo core .other).mem = s.mem := by
  split
  · exact ⟨rfl, rfl⟩
  · split
    · exact ⟨sh_sendVec .., mem_sendVec ..⟩
    · exact ⟨rfl, rfl⟩

/-- A completion record joins those of the module, and nothing else of the contexts changes. -/
theorem sh_postRecord (s : State) (d : Die) (vf slot dseq : Nat) (x : Desc) (r : BitVec 128) :
    (s.postRecord d vf slot dseq x r).sh = { s.sh with recs := s.sh.recs ++
      [{ die := d.index, vf := vf, slot := slot, irq := x.irq, record := r }] } := by
  simp only [State.postRecord, State.traceDesc, recordIrq_keeps, sh_trace]

theorem mem_postRecord (hoff : s.regBit trcCfg 31 = false) (d : Die) (vf slot dseq : Nat) (x : Desc) (r : BitVec 128) :
    (s.postRecord d vf slot dseq x r).mem = s.mem := by
  simp only [State.postRecord, State.traceDesc, recordIrq_keeps, trace_off hoff]

/-- A charge of array time writes no memory and posts no record (R185). -/
theorem settle_keeps (s : State) : s.settle.mem = s.mem ∧ s.settle.sh.recs = s.sh.recs := by
  unfold State.settle
  extract_lets dt u t
  have hu : u.mem = s.mem ∧ u.sh.recs = s.sh.recs :=
    foldl_keeps (P := fun v => v.mem = s.mem ∧ v.sh.recs = s.sh.recs) (fun v e hv => by
      split
      · exact hv
      · exact hv) _ ⟨rfl, rfl⟩
  have ht : t.mem = s.mem ∧ t.sh.recs = s.sh.recs := by
    unfold t
    split
    · exact ⟨rfl, rfl⟩
    · exact hu
  exact ht

theorem setCtx_keeps (s : State) (k : Nat) (c : Option Ctx) :
    (s.setCtx k c).mem = s.mem ∧ (s.setCtx k c).sh.recs = s.sh.recs := settle_keeps s

theorem ctxOf_setCtx_none (h : tsorted 0 s.sh.ctx = true) (k : Nat) : (s.setCtx k none).ctxOf k = none := by
  unfold State.ctxOf
  rw [ctx_setCtx, Option.map_eq_none_iff, List.find?_eq_none]
  exact fun e he hk => ne_key_of_mem_tput_none h he (beq_iff_eq.mp hk)

/-! #### The checks and the record -/

/-- The status and the subcode are the first two bytes of a completion record (R124). -/
theorem recordOf_bytes {status sub : Nat} (hst : status < 256) (hsub : sub < 256) (x : Desc) (path chunks ran skipped : Nat) :
    (recordOf x status sub path chunks ran skipped).toNat % 256 = status ∧
    (recordOf x status sub path chunks ran skipped).toNat / 256 % 256 = sub := by
  simp only [recordOf, leBytes, List.cons_append, List.nil_append, leNat, BitVec.toNat_ofNat]
  omega

/-- The statuses of the checks that precede the ragged vector, none with a subcode (R123). -/
theorem checkHead_le (s : State) (x : Desc) (chunks : Nat) : (s.checkHead x chunks).1 ≤ 4 ∧ (s.checkHead x chunks).2 = 0 := by
  unfold State.checkHead
  extract_lets
  split_ifs <;> decide

/-- The checks answer a status and a subcode of R123, each a byte. -/
theorem checkDesc_lt (s : State) (d : Die) (x : Desc) (chunks path : Nat) :
    (s.checkDesc d x chunks path).1 < 256 ∧ (s.checkDesc d x chunks path).2 < 256 := by
  obtain ⟨hst, hsub⟩ := checkHead_le s x chunks
  unfold State.checkDesc
  extract_lets head
  split_ifs
  · exact ⟨hst.trans_lt (by decide), hsub.trans_lt (by decide)⟩
  all_goals decide

/-- The K-chunks of a descriptor that comes up in a context's queue (R125, R126). -/
def chunksOf (s : State) (d : Die) (key : Nat) (q : QDesc) : Nat :=
  let x := Desc.parse q.desc
  if x.isConvert || x.isRoutine || s.runsDrip d x q.r90 then 1 else x.chunks d s.det.active (s.availArrays d key)

/-- Its accumulation path (R128). -/
def pathOf (s : State) (d : Die) (key : Nat) (q : QDesc) : Nat :=
  let x := Desc.parse q.desc
  x.path (chunksOf s d key q) s.det.active (s.runsDrip d x q.r90)

/-- What the checks answer of it: status and subcode (R123). -/
def verdictOf (s : State) (d : Die) (key : Nat) (q : QDesc) : Nat × Nat :=
  s.checkDesc d (Desc.parse q.desc) (chunksOf s d key q) (pathOf s d key q)

/-- The read of a ragged length vector, which comes before the checks that need it (R123). -/
def readLens (s : State) (d : Die) (key : Nat) (q : QDesc) : State :=
  let x := Desc.parse q.desc
  if x.isRagged && (s.checkHead x (chunksOf s d key q)).1 == 0 then s.noteReads (coreId d 0) x.aux (4 * x.batch) else s

theorem readLens_keeps (s : State) (d : Die) (key : Nat) (q : QDesc) :
    (readLens s d key q).mem = s.mem ∧ (readLens s d key q).sh = s.sh ∧
      (readLens s d key q).regN trcCfg = s.regN trcCfg := by
  unfold readLens
  extract_lets x
  split
  · exact ⟨(noteReads_keeps ..).1, noteReads_keeps_trace ..⟩
  · exact ⟨rfl, rfl, rfl⟩

/-- A descriptor that the checks refuse, with none behind it: its record is posted, and its context goes. -/
theorem runQueue_refused {d : Die} {key : Nat} {q : QDesc} (c : Ctx) (h : (verdictOf s d key q).1 ≠ 0) :
    s.runQueue d key c [q] = ((readLens s d key q).postRecord d c.vf c.slot c.dseq (Desc.parse q.desc)
      (recordOf (Desc.parse q.desc) (verdictOf s d key q).1 (verdictOf s d key q).2 (pathOf s d key q) (chunksOf s d key q)
        0 0)).setCtx key none :=
  if_pos h

/-- The read of a ragged vector, the record and the end of the context write no memory; the record's first two bytes are
what the checks answered. -/
theorem runQueue_refused_keeps {d : Die} {key : Nat} {q : QDesc} (c : Ctx) (hoff : s.regBit trcCfg 31 = false)
    (hsorted : tsorted 0 s.sh.ctx = true) (h : (verdictOf s d key q).1 ≠ 0) :
    (s.runQueue d key c [q]).mem = s.mem ∧ (s.runQueue d key c [q]).ctxOf key = none ∧
    ∃ y, (s.runQueue d key c [q]).sh.recs = s.sh.recs ++ [y] ∧ y.die = d.index ∧ y.vf = c.vf ∧ y.slot = c.slot ∧
      y.record.toNat % 256 = (verdictOf s d key q).1 ∧ y.record.toNat / 256 % 256 = (verdictOf s d key q).2 := by
  obtain ⟨hmem, hsh, htrc⟩ := readLens_keeps s d key q
  have hoff' : (readLens s d key q).regBit trcCfg 31 = false := (congrArg (bitOf · 31) htrc).trans hoff
  obtain ⟨hst, hsub⟩ : (verdictOf s d key q).1 < 256 ∧ (verdictOf s d key q).2 < 256 := checkDesc_lt ..
  rw [runQueue_refused c h, (setCtx_keeps ..).1, (setCtx_keeps ..).2, mem_postRecord hoff', sh_postRecord, hsh]
  refine ⟨hmem, ctxOf_setCtx_none ?_ _, _, rfl, rfl, rfl, rfl, recordOf_bytes hst hsub ..⟩
  rwa [sh_postRecord, hsh]

end

/-- Settles O14: the refused descriptor is read for its ragged vector at most, and is answered by its record. -/
theorem descriptorRefused : Obligations.DescriptorRefused := by
  unfold Obligations.DescriptorRefused
  intro s d key c q hoff hsorted
  exact runQueue_refused_keeps c hoff hsorted

end Sys2Proof

namespace Sys2Proof
open Machine

/-! ### O12: the arrival of a descriptor -/

section
variable {s : State} {d : Die} {vf : Fin 513} {slot : Fin 16} {q : BitVec 512}

/-- On a die that runs and takes descriptors, one whose opcode is the command's own is placed. -/
theorem descCmd_placed (hhalt : s.halted (dieUnit d) = false) (hon : s.dieOn d = true) (hctx : 0 < maxCtx d) (op : Nat → Bool)
    (hop : op (Desc.parse q).opcode = true) (r90 : Bool) :
    unlessHalted s (dieUnit d) (s.descCmd op d vf slot q r90) = .next (s.placeDesc d vf slot { desc := q, r90 := r90 }) :=
  (unlessHalted_runs hhalt _).trans (onlyIf_true (by simp [hop, hon, hctx]) _ _)

/-- The opcode or FLAGS of a descriptor are reserved (R120, R121). -/
theorem opcode_reserved (x : Desc) (h : ¬ (x.opcode ∈ [1, 2, 4, 5, 8] ∨ x.isRoutine = true) ∨ 16 ≤ x.flags) :
    (!(x.opcode == 1 || x.opcode == 2 || x.opcode == 4 || x.opcode == 5 || x.opcode == 8 || x.isRoutine) ||
      decide (16 ≤ x.flags)) = true := by
  rcases h with hop | hflags
  · simp_all
  · simp [hflags]

theorem runs_descBadOpcode (hhalt : s.halted (dieUnit d) = false) (hon : s.dieOn d = true) (hctx : 0 < maxCtx d)
    (h : ¬ ((Desc.parse q).opcode ∈ [1, 2, 4, 5, 8] ∨ (Desc.parse q).isRoutine = true) ∨ 16 ≤ (Desc.parse q).flags) :
    Runs (.descBadOpcode d vf slot q) s (fun t => ∃ x, t.sh.recs = s.sh.recs ++ [x] ∧ x.die = d.index ∧ x.vf = vf.val ∧
      x.slot = slot.val ∧ x.record.toNat % 256 = 1) := by
  refine runs_unlessHalted hhalt rfl ⟨_, onlyIf_true (by rw [opcode_reserved _ h, hon, decide_eq_true hctx]; rfl) _ _, ?_⟩
  rw [sh_postRecord]
  exact ⟨_, rfl, rfl, rfl, rfl, (recordOf_bytes (by decide) (by decide) ..).1⟩

end

section
variable {s : State} {d : Die} {vf slot : Nat} (q : QDesc)

/-- The context of a function and slot on a die, with its key. -/
def ctxFor (s : State) (d : Die) (vf slot : Nat) : Option (Nat × Ctx) :=
  s.sh.ctx.find? (fun e => e.1 / 8 == d.index && e.2.vf == vf && e.2.slot == slot)

/-- A descriptor whose function and slot have a context starts there at once where that idles (R189). -/
theorem placeDesc_of_ctx {key : Nat} {c : Ctx} (hmine : ctxFor s.settle d vf slot = some (key, c)) :
    s.placeDesc d vf slot q = if c.run.isNone ∧ c.st = .running then
        (s.settle.wakeVf vf).runQueue d key { c with queue := [] } (c.queue ++ [q])
      else s.settle.setCtx key (some { c with queue := c.queue ++ [q] }) := by
  unfold ctxFor at hmine
  unfold State.placeDesc
  extract_lets t
  rw [hmine]

theorem placeDesc_joins {key : Nat} {c : Ctx} (hmine : ctxFor s.settle d vf slot = some (key, c))
    (hbusy : c.run ≠ none ∨ c.st ≠ .running) :
    s.placeDesc d vf slot q = s.settle.setCtx key (some { c with queue := c.queue ++ [q] }) := by
  refine (placeDesc_of_ctx q hmine).trans (if_neg ?_)
  rintro ⟨hnone, hst⟩
  exact hbusy.elim (· (Option.isNone_iff_eq_none.mp hnone)) (· hst)

theorem placeDesc_starts {key : Nat} {c : Ctx} (hmine : ctxFor s.settle d vf slot = some (key, c)) (hrun : c.run = none)
    (hst : c.st = .running) :
    s.placeDesc d vf slot q = (s.settle.wakeVf vf).runQueue d key { c with queue := [] } (c.queue ++ [q]) :=
  (placeDesc_of_ctx q hmine).trans (if_pos ⟨Option.isNone_iff_eq_none.mpr hrun, hst⟩)

theorem placeDesc_opens {key : Nat} {c : Ctx} (hmine : ctxFor s.settle d vf slot = none)
    (hmake : s.settle.canMake d vf slot = some (key, c)) :
    s.placeDesc d vf slot q = ({ s.settle.wakeVf vf with sh.made := (s.settle.wakeVf vf).sh.made + 1 } : State).runQueue d
      key c [q] := by
  unfold ctxFor at hmine
  unfold State.placeDesc
  extract_lets t u
  rw [hmine, hmake]

theorem placeDesc_waits (hmine : ctxFor s.settle d vf slot = none) (hmake : s.settle.canMake d vf slot = none) :
    (s.placeDesc d vf slot q).sh.wait =
      (s.settle.evict d vf).sh.wait ++ [{ die := d.index, vf := vf, slot := slot, desc := q }] := by
  unfold ctxFor at hmine
  unfold State.placeDesc
  extract_lets t u
  rw [hmine, hmake]

end

/-- Settles O12: a descriptor of each opcode is placed, and what becomes of it goes by the cases of its context. -/
theorem descriptorArrives : Obligations.DescriptorArrives := by
  unfold Obligations.DescriptorArrives
  refine ⟨fun s d vf slot q hhalt hon hctx => ⟨?_, runs_descBadOpcode hhalt hon hctx⟩, fun s d vf slot q =>
    ⟨fun key c hmine hbusy => placeDesc_joins q hmine hbusy, fun key c hmine hrun hst => placeDesc_starts q hmine hrun hst,
      fun key c hmine hmake => placeDesc_opens q hmine hmake, placeDesc_waits q⟩⟩
  have hplaced (k : Nat) (h : (Desc.parse q).opcode = k) := descCmd_placed (vf := vf) (slot := slot) hhalt hon hctx (· == k)
    (beq_iff_eq.mpr h)
  exact ⟨fun r90 h => hplaced 1 h r90, fun h => hplaced 2 h false, fun h => hplaced 4 h false, fun h => hplaced 5 h false,
    fun h => hplaced 8 h false, fun hlo hhi => descCmd_placed hhalt hon hctx
      (fun o => decide (0x40 ≤ o) && decide (o < 0x80)) (by simp [hlo, hhi]) false⟩

end Sys2Proof

namespace Sys2Proof
open Machine

/-! ### O13: work tiles -/

section
variable {s : State}

/-! #### Hand-backs -/

/-- The passes that an array has run leave memory and its addresses as they were. -/
theorem loadNat_ranPasses (s : State) (g vf : Nat) (a : Fmt) (rows n sat k len : Nat) :
    (s.ranPasses g vf a rows n sat).loadNat k len = s.loadNat k len := by
  have hload : ∀ len k, (s.ranPasses g vf a rows n sat).load k len = s.load k len := by
    intro len
    induction len with
    | zero => exact fun _ => rfl
    | succ len ih => exact fun k => congrArg (s.byteAt k :: ·) (ih (k + 1))
  exact congrArg leNat (hload len k)

/-- An array with one tile stops: the passes of the tile before its next K-tile have run. -/
theorem stopTiles_one {cx : Ctx} {r : DescRun} {g : Nat} {tr : TileRun} (h : r.running.filter (fun q => q.array == g) = [tr])
    (next : Nat) :
    let x := Desc.parse r.desc
    let p := x.tileOf tr.index
    let n := max tr.next (min next (r.passes x tr.index))
    s.stopTiles cx r g next =
      (s.ranPasses g cx.vf x.fa (r.blockDims x p.1 p.2.1 p.2.2.1).1 (n - tr.next) 0, [{ tr with next := n }]) := by
  unfold State.stopTiles
  rw [h]

/-- One tile is handed back to its array's slot, where no entry waits. -/
theorem handBack_one {cx : Ctx} {q : TileRun} (r : DescRun)
    (hfree : bitOf (s.loadNat (cx.handback (arrayInDie q.array)) 8) 63 = false) :
    s.handBack cx r [q] = (s.storeNat (cx.handback (arrayInDie q.array)) 8 (handbackWord q.index q.next), r) :=
  if_neg (Bool.eq_false_iff.mp hfree)

theorem lrmFirst_of_none {α : Type} {p : α → Bool} {l : List α} (h : ∀ x ∈ l, p x = false) : lrmFirst p l = l := by
  induction l with
  | nil => rfl
  | cons a l ih =>
    obtain ⟨ha, hl⟩ := List.forall_mem_cons.mp h
    rw [lrmFirst, ha, ih hl]
    rfl

end

/-! #### The occasions of a claim and of a take -/

section
variable {s : State} {d : Die} {cx : Ctx} {r : DescRun} {g : Fin 84}

/-- An array of the context may be given a tile (R131). -/
def takesTile (s : State) (cx : Ctx) (r : DescRun) (g : Fin 84) : Prop :=
  g.val ∈ cx.arrays ∧ g.val ∉ cx.rel ∧ s.islOn (arrayIsland g) = true ∧ r.roomFor g = true

/-- The guard of a claim of the tile index i. -/
def claimGuard (s : State) (d : Die) (cx : Ctx) (r : DescRun) (g : Fin 84) (i : Nat) : Bool :=
  let x := Desc.parse r.desc
  let free := (r.path == 5 && !r.running.any (fun q => q.array == g.val)) ||
    (r.path != 5 && cx.arrays.contains g.val && !cx.rel.contains g.val && s.islOn (arrayIsland g) && r.roomFor g)
  let scanned := x.fa != .fp4 || r.spans.any (fun q => q.block == i % x.blocks)
  cx.st == .running && r.staged && free && !s.handedBack d cx && (scanned || decide (r.tiles ≤ i))

theorem claimGuard_of {i : Nat} (hst : cx.st = .running) (hstaged : r.staged = true) (hback : s.handedBack d cx = false)
    (hfree : (r.path = 5 ∧ ∀ q ∈ r.running, q.array ≠ g.val) ∨ (r.path ≠ 5 ∧ takesTile s cx r g))
    (hscan : ((Desc.parse r.desc).fa ≠ .fp4 ∨ ∃ q ∈ r.spans, q.block = i % (Desc.parse r.desc).blocks) ∨ r.tiles ≤ i) :
    claimGuard s d cx r g i = true := by
  unfold claimGuard takesTile at *
  rcases hfree with ⟨hpath, hidle⟩ | ⟨hpath, hg, hrel, hon, hroom⟩
  · simpa [hst, hstaged, hback, hpath, or_assoc] using ⟨hidle, or_assoc.mp hscan⟩
  · simpa [hst, hstaged, hback, hpath, hg, hrel, hon, hroom] using hscan

end

section
variable {s : State} {d : Die} {c : Fin 8} {cx : Ctx}

/-- What the command of a context's running descriptor answers: nothing changes where there is no such descriptor, and a stop
halts it. -/
def withRun (s : State) (d : Die) (c : Fin 8) (f : Ctx → DescRun → Out) : Out :=
  unlessHalted s (dieUnit d) (match s.ctxOf (ctxKey d c) with
    | none => .next s
    | some cx => match cx.run with
      | none => .next s
      | some r => f cx r)

variable (hhalt : s.halted (dieUnit d) = false) (hctx : s.ctxOf (ctxKey d c) = some cx)
include hhalt hctx

theorem exec_of_run {i : Instr} {f : Ctx → DescRun → Out} {r : DescRun} (hrun : cx.run = some r)
    (hexec : exec i s = withRun s d c f) : exec i s = f cx r := by
  rw [hexec, withRun, unlessHalted_runs hhalt, hctx]
  dsimp only
  rw [hrun]

theorem exec_tileHandback_idle (hrun : cx.run = none) {g : Fin 84} (hg : g.val ∈ cx.arrays) (next : BitVec 16) :
    exec (.tileHandback d c g next) s = .next ((s.setCtx (ctxKey d c) (some { cx with
      arrays := cx.arrays.filter (· ≠ g.val), rel := cx.rel.filter (· ≠ g.val) })).giveIdle d) := by
  refine (unlessHalted_runs hhalt _).trans ?_
  rw [hctx]
  dsimp only
  rw [hrun]
  exact onlyIf_true (List.contains_iff_mem.mpr hg) _ _

variable {r : DescRun} (hrun : cx.run = some r)
include hrun

theorem exec_tileHandback_run {g : Fin 84} (hg : g.val ∈ cx.arrays) (next : BitVec 16) :
    exec (.tileHandback d c g next) s =
      (let t := s.stopTiles cx r g next.toNat
       let u := t.1.handBack cx { r with running := r.running.filter (fun q => q.array != g.val) } t.2
       .next ((u.1.setCtx (ctxKey d c) (some { cx with
         arrays := cx.arrays.filter (· ≠ g.val), rel := cx.rel.filter (· ≠ g.val), run := some u.2 })).giveIdle d)) := by
  refine (unlessHalted_runs hhalt _).trans ?_
  rw [hctx]
  dsimp only
  rw [hrun]
  exact onlyIf_true (List.contains_iff_mem.mpr hg) _ _

/-- What an array with one tile hands back, its slot holding no entry (R132). -/
theorem exec_tileHandback_one {g : Fin 84} (hg : g.val ∈ cx.arrays) (next : BitVec 16) {tr : TileRun}
    (htile : r.running.filter (fun q => q.array == g.val) = [tr])
    (hfree : bitOf (s.loadNat (cx.handback (arrayInDie g)) 8) 63 = false) :
    let x := Desc.parse r.desc
    let p := x.tileOf tr.index
    let n := max tr.next (min next.toNat (r.passes x tr.index))
    let u := s.ranPasses g cx.vf x.fa (r.blockDims x p.1 p.2.1 p.2.2.1).1 (n - tr.next) 0
    exec (.tileHandback d c g next) s = .next (((u.storeNat (cx.handback (arrayInDie g)) 8
      (handbackWord tr.index n)).setCtx (ctxKey d c) (some { cx with
        arrays := cx.arrays.filter (· ≠ g.val), rel := cx.rel.filter (· ≠ g.val)
        run := some { r with running := r.running.filter (fun q => q.array != g.val) } })).giveIdle d) := by
  intro x p n u
  have harray : tr.array = g.val := by
    have hmem : tr ∈ r.running.filter (fun q => q.array == g.val) := htile ▸ List.mem_singleton_self tr
    exact beq_iff_eq.mp (List.mem_filter.mp hmem).2
  have hslot : bitOf (u.loadNat (cx.handback (arrayInDie { tr with next := n }.array)) 8) 63 = false := by
    rw [loadNat_ranPasses, harray]
    exact hfree
  have hback := handBack_one { r with running := r.running.filter (fun q => q.array != g.val) } hslot
  rw [exec_tileHandback_run hhalt hctx hrun hg, stopTiles_one htile]
  dsimp only
  rw [hback, harray]

/-! #### The other commands on their occasions -/

theorem exec_operandStageCopy_acts (hst : cx.st = .running) (hstaged : r.staged = false) :
    let x := Desc.parse r.desc
    let t := s.noteRanges (coreId d 0) ((s.outside d x).flatMap Plane.each)
    exec (.operandStageCopy d c) s = .next
      (if s.copyCode d x ≠ 0 then ((t.loseBlocks r).endDesc d (ctxKey d c) cx r 8 (s.copyCode d x)).afterDesc d
       else (t.loseScratch cx).setCtx (ctxKey d c) (some { cx with run := some { r with
         staged := true, copies := (s.outside d x).map (fun p => (p.range.1, s.load p.range.1 p.range.2)) } })) :=
  (exec_of_run (i := .operandStageCopy d c) hhalt hctx hrun rfl).trans (onlyIf_true (by simp [hst, hstaged]) _ _)

theorem exec_spanScan_acts {block : Nat} (hst : cx.st = .running) (hstaged : r.staged = true)
    (hfmt : (Desc.parse r.desc).fa = .fp4) (hblock : block < (Desc.parse r.desc).blocks)
    (hnew : ∀ q ∈ r.spans, q.block ≠ block) :
    let x := Desc.parse r.desc
    let dec := s.decideSpan r x block
    let fixed := dec.1.any (·.isNone)
    let t := (s.count (bkBlock + 0x10000 * d.index + 0x0300) dec.2.2).count (hmBlock + 0x064) dec.2.1
    exec (.spanScan d c block) s = .next
      (if x.fo = .lps ∧ (fixed = true ∨ 0 < dec.2.1) then ((t.loseBlocks r).endDesc d (ctxKey d c) cx r 8 4).afterDesc d
       else t.setCtx (ctxKey d c) (some { cx with run := some { r with
         spans := r.spans ++ [{ block := block, rows := dec.1 }], ordered := r.ordered || fixed } })) :=
  (exec_of_run (i := .spanScan d c block) hhalt hctx hrun rfl).trans
    (onlyIf_true (by simpa [hst, hstaged, hfmt, hblock] using hnew) _ _)

theorem exec_tileClaim_acts {g : Fin 84} (h : claimGuard s d cx r g (s.loadNat cx.tally 8 % 2 ^ 32) = true) :
    let x := Desc.parse r.desc
    let i := s.loadNat cx.tally 8 % 2 ^ 32
    let t := s.storeNat cx.tally 8 ((s.loadNat cx.tally 8 + 1) % 2 ^ 64)
    exec (.tileClaim d c g) s = .next
      (if r.tiles ≤ i then t
       else if r.tileSkipped x i then (t.countDone d (ctxKey d c) cx { r with skipped := r.skipped + 1 }).afterDesc d
       else (t.stageFor d g r x (i % x.blocks)).setCtx (ctxKey d c) (some { cx with run := some { r with
         running := r.running ++ [{ array := g, index := i, next := 0 }]
         begun := if r.begun.contains (i % x.blocks) then r.begun else i % x.blocks :: r.begun } })) :=
  (exec_of_run (i := .tileClaim d c g) hhalt hctx hrun rfl).trans (onlyIf_true h _ _)

/-- No tile waits for the slot, so that it stays empty (R132). -/
theorem exec_handbackTake_acts {k : Fin 16} {g : Fin 84} (hst : cx.st = .running)
    (he : bitOf (s.loadNat (cx.handback k) 8) 63 = true) (htakes : takesTile s cx r g) (hk : k.val < (dieArrays d).length)
    (hlater : ∀ q ∈ r.later, arrayInDie q.array ≠ k.val) :
    let x := Desc.parse r.desc
    let e := s.loadNat (cx.handback k) 8
    exec (.handbackTake d c k g) s =
      .next (((s.storeNat (cx.handback k) 8 0).stageFor d g r x (e % 2 ^ 32 % x.blocks)).setCtx (ctxKey d c)
        (some { cx with run := some { r with
          running := r.running ++ [{ array := g, index := e % 2 ^ 32, next := bitsOf e 47 32 }] } })) := by
  intro x e
  obtain ⟨hg, hrel, hon, hroom⟩ := htakes
  have hnone : ∀ q ∈ r.later, (arrayInDie q.array == k.val) = false := fun q hq => beq_false_of_ne (hlater q hq)
  refine ((exec_of_run (i := .handbackTake d c k g) hhalt hctx hrun rfl).trans
    (onlyIf_true (by simp [hst, he, hg, hrel, hon, hk, hroom]) _ _)).trans ?_
  rw [lrmFirst_of_none hnone, List.find?_eq_none.mpr fun q hq => Bool.eq_false_iff.mp (hnone q hq)]
  rfl

end

/-- Settles O13: each command does on its occasion what its meaning says for the descriptor that runs, and the clauses are the
branches of that: a copy that fails or not, a block that LPS cannot hold exactly or can, a claim beyond the last tile, of a
skipped one or of one that runs, and a tile that fails, leaves its block open or completes it. -/
theorem tilingSteps : Obligations.TilingSteps := by
  unfold Obligations.TilingSteps
  refine ⟨fun s d c cx g next hhalt hctx hrun hg => exec_tileHandback_idle hhalt hctx hrun hg next,
    fun s d c cx r hhalt hctx hrun => ⟨fun hst hstaged => ?_, fun block hst hstaged hfmt hblock hnew => ?_,
      fun g hst hstaged hback hfree => ?_,
      fun g next tr hg htile hslot => exec_tileHandback_one hhalt hctx hrun hg next htile hslot,
      fun k g hst he hg hrel hon hk hroom hlater =>
        exec_handbackTake_acts hhalt hctx hrun hst he ⟨hg, hrel, hon, hroom⟩ hk hlater,
      fun g tr hfind => ?_, (exec_of_run hhalt hctx hrun rfl).trans rfl⟩⟩
  · have hcopy := exec_operandStageCopy_acts hhalt hctx hrun hst hstaged
    exact ⟨fun h => hcopy.trans (congrArg _ (if_neg (not_not_intro h))), fun h => hcopy.trans (congrArg _ (if_pos h))⟩
  · have hscan := exec_spanScan_acts hhalt hctx hrun hst hstaged hfmt hblock hnew
    refine ⟨fun h => hscan.trans (congrArg _ (if_neg ?_)), fun hlps hlost => hscan.trans (congrArg _ (if_pos ⟨hlps, hlost⟩))⟩
    rintro ⟨hlps, hlost⟩
    obtain ⟨hexact, hsplit⟩ := h.resolve_left (not_not_intro hlps)
    simp [hexact, hsplit] at hlost
  · have hclaim (h) := exec_tileClaim_acts hhalt hctx hrun (claimGuard_of hst hstaged hback hfree h)
    refine ⟨fun hpast => (hclaim (.inr hpast)).trans (congrArg _ (if_pos hpast)), fun hlt hscan => ?_⟩
    have hruns := (hclaim (.inl hscan)).trans (congrArg _ (if_neg hlt.not_ge))
    exact ⟨fun hskip => hruns.trans (congrArg _ (if_neg (Bool.eq_false_iff.mp hskip))),
      fun hskip => hruns.trans (congrArg _ (if_pos hskip))⟩
  · have hdone := exec_of_run (i := .tileDone d c g) hhalt hctx hrun rfl
    rw [hfind] at hdone
    refine ⟨fun hcode => hdone.trans (if_pos hcode), fun hcode hopen => ?_, fun hcode hlast hpath hapart hmatch => ?_⟩
    · exact hdone.trans ((if_neg (not_not_intro hcode)).trans (if_neg hopen))
    · refine hdone.trans ((if_neg (not_not_intro hcode)).trans ((if_pos hlast).trans
        ((if_neg (Bool.eq_false_iff.mp hmatch)).trans ?_)))
      dsimp only
      rw [if_pos hpath, if_neg (Bool.eq_false_iff.mp hapart)]

end Sys2Proof

namespace Sys2Proof
open Machine

/-! ### O56: what the commands of serving, token selection and sharing leave

A footprint names the parts of the state, the registers and the device memory that a function may change.  One lemma for each
function of the model follows its body, as the lemmas for O52 do, and cites those of the functions it calls; `within` decides
that a caller's footprint holds a callee's. -/

/-! #### Footprints -/

/-- The device memory that may be stored to: none, the SRAM of HD with its tables (R147), or any. -/
inductive Zone where
  | none | hd | any
  deriving DecidableEq

/-- The storage key lies in the zone. -/
def Zone.Has (z : Zone) (a : Nat) : Prop :=
  match z with
  | .none => False
  | .hd => sramBase .hd ≤ a
  | .any => True

/-- Every key of the first zone lies in the second. -/
def Zone.within (z w : Zone) : Bool := z == .none || w == .any || z == w

theorem Zone.Has.within {z w : Zone} {a : Nat} (h : z.Has a) (hz : z.within w = true) : w.Has a := by
  cases z with
  | none => exact h.elim
  | hd => cases w with
    | none => exact absurd hz (by decide)
    | hd => exact h
    | any => trivial
  | any => cases w with
    | none => exact absurd hz (by decide)
    | hd => exact absurd hz (by decide)
    | any => trivial

/-- The parts of the state, the registers and the device memory that a function of the model may change. -/
structure Footprint where
  parts : List Part := []
  regs : List RegSet := []
  zone : Zone := .none

/-- Nothing but what the second footprint lets change. -/
def Footprint.within (f k : Footprint) : Bool :=
  f.parts.all (k.parts.contains ·) && f.regs.all (k.regs.contains ·) && f.zone.within k.zone

/-- What either of two footprints lets change. -/
def Footprint.plus (f g : Footprint) : Footprint where
  parts := f.parts ++ g.parts
  regs := f.regs ++ g.regs
  zone := if f.zone.within g.zone then g.zone else f.zone

/-- Nothing but what the footprint names differs. -/
structure Spares (k : Footprint) (s t : State) : Prop where
  parts : Keeps k.parts s t
  regs : RegsKept (fun o => ∃ r ∈ k.regs, r.has o) s t
  mem : MemKept k.zone.Has s t

theorem Part.Same.refl (p : Part) (s : State) : p.Same s s := by
  cases p with
  | ecc => exact ⟨rfl, rfl⟩
  | rsp => exact ⟨rfl, rfl⟩
  | dredge => exact ⟨rfl, rfl⟩
  | rules => exact ⟨rfl, rfl⟩
  | trace => exact ⟨rfl, rfl⟩
  | _ => rfl

theorem Part.Same.trans {p : Part} {s t u : State} (h₁ : p.Same s t) (h₂ : p.Same t u) : p.Same s u := by
  cases p with
  | ecc => exact ⟨h₂.1.trans h₁.1, h₂.2.trans h₁.2⟩
  | rsp => exact ⟨h₂.1.trans h₁.1, h₂.2.trans h₁.2⟩
  | dredge => exact ⟨h₂.1.trans h₁.1, h₂.2.trans h₁.2⟩
  | rules => exact ⟨h₂.1.trans h₁.1, h₂.2.trans h₁.2⟩
  | trace => exact ⟨h₂.1.trans h₁.1, h₂.2.trans h₁.2⟩
  | tide => exact Eq.trans (congrArg (fun x : TideState => { x with raw := s.td.raw }) (h₂ : _ = t.td)) (h₁ : _ = s.td)
  | stop =>
    exact Eq.trans (congrArg (fun x : Obs => { x with wr := s.obs.wr, lost := s.obs.lost }) (h₂ : _ = t.obs)) (h₁ : _ = s.obs)
  | boot => exact Eq.trans (congrArg (fun x : Boot => { x with fenced := s.boot.fenced }) (h₂ : _ = t.boot)) (h₁ : _ = s.boot)
  | hi =>
    exact Eq.trans (congrArg (fun x : HostIf => { x with msix := s.hi.msix, counts := s.hi.counts }) (h₂ : _ = t.hi))
      (h₁ : _ = s.hi)
  | _ => exact Eq.trans h₂ h₁

section
set_option Elab.async false
variable {f k : Footprint} {s₀ s t u : State}

theorem Spares.refl (k : Footprint) (s : State) : Spares k s s :=
  ⟨fun p _ => .refl p s, fun _ _ => rfl, fun _ _ => rfl⟩

theorem Spares.trans (h₁ : Spares k s t) (h₂ : Spares k t u) : Spares k s u :=
  ⟨fun p hp => (h₁.parts p hp).trans (h₂.parts p hp), fun o ho => (h₂.regs o ho).trans (h₁.regs o ho),
    fun a ha => (h₂.mem a ha).trans (h₁.mem a ha)⟩

theorem Spares.mono (h : Spares f s t) (hk : f.within k = true) : Spares k s t := by
  simp only [Footprint.within, Bool.and_eq_true, List.all_eq_true, List.contains_iff_mem] at hk
  obtain ⟨⟨hparts, hregs⟩, hzone⟩ := hk
  exact ⟨fun p hp => h.parts p fun hf => hp (hparts p hf),
    fun o ho => h.regs o fun ⟨r, hr, hro⟩ => ho ⟨r, hregs r hr, hro⟩, fun a ha => h.mem a fun hf => ha (hf.within hzone)⟩

/-- What a smaller footprint allows goes on from a state within a larger one. -/
theorem Spares.grow (h : Spares k s₀ s) (hk : f.within k = true) (ht : Spares f s s → Spares f s t) : Spares k s₀ t :=
  h.trans ((ht (.refl f s)).mono hk)

theorem Spares.ite {c : Prop} {_ : Decidable c} (ht : Spares k s₀ t) (hu : Spares k s₀ u) :
    Spares k s₀ (if c then t else u) := by
  split
  · exact ht
  · exact hu

/-- The state of a pair that a pattern takes apart. -/
theorem Spares.of_fst {β : Type} {p : State × β} {b : β} (h : Spares k s₀ p.1) (e : p = (t, b)) : Spares k s₀ t := by
  rw [e] at h
  exact h

/-- A fold over a state beside another value, whose steps each stay within a footprint. -/
theorem Spares.foldl_fst {α β : Type} {g : State × β → α → State × β} (hg : ∀ y x, Spares k s₀ y.1 → Spares k s₀ (g y x).1)
    (l : List α) {y : State × β} (hy : Spares k s₀ y.1) : Spares k s₀ (l.foldl g y).1 :=
  List.foldlRecOn (motive := fun y => Spares k s₀ y.1) l g hy (fun y hy x _ => hg y x hy)

/-- A change of one part that leaves the registers and device memory as they are. -/
theorem Spares.part (h : Spares k s₀ s) {q : Part} (hq : k.parts.contains q = true) (hst : ∀ p, p ≠ q → p.Same s t)
    (hregs : t.regs = s.regs := by rfl) (hmem : t.mem = s.mem := by rfl) : Spares k s₀ t := by
  refine h.trans ⟨fun p hp => hst p ?_, fun o _ => ?_, fun a _ => by rw [hmem]⟩
  · rintro rfl
    exact hp (List.contains_iff_mem.mp hq)
  · unfold State.reg
    rw [hregs]

end

/-! #### Changes of one part -/

section
set_option Elab.async false
variable {k : Footprint} {s₀ s : State}

theorem Spares.hm (h : Spares k s₀ s) {x} (hp : k.parts.contains .hm = true := by rfl) :
    Spares k s₀ { s with hm := x } :=
  h.part hp fun p hne => by
    cases p with
    | hm => exact absurd rfl hne
    | _ => simp only [Part.Same, and_self]

theorem Spares.sh (h : Spares k s₀ s) {x} (hp : k.parts.contains .sh = true := by rfl) :
    Spares k s₀ { s with sh := x } :=
  h.part hp fun p hne => by
    cases p with
    | sh => exact absurd rfl hne
    | _ => simp only [Part.Same, and_self]

theorem Spares.tt (h : Spares k s₀ s) {x} (hp : k.parts.contains .tt = true := by rfl) :
    Spares k s₀ { s with tt := x } :=
  h.part hp fun p hne => by
    cases p with
    | tt => exact absurd rfl hne
    | _ => simp only [Part.Same, and_self]

theorem Spares.cu (h : Spares k s₀ s) {x} (hp : k.parts.contains .cu = true := by rfl) :
    Spares k s₀ { s with cu := x } :=
  h.part hp fun p hne => by
    cases p with
    | cu => exact absurd rfl hne
    | _ => simp only [Part.Same, and_self]

theorem Spares.free (h : Spares k s₀ s) {x} (hp : k.parts.contains .free = true := by rfl) :
    Spares k s₀ { s with free := x } :=
  h.part hp fun p hne => by
    cases p with
    | free => exact absurd rfl hne
    | _ => simp only [Part.Same, and_self]

theorem Spares.irq (h : Spares k s₀ s) {x} (hp : k.parts.contains .irq = true := by rfl) :
    Spares k s₀ { s with irq := x } :=
  h.part hp fun p hne => by
    cases p with
    | irq => exact absurd rfl hne
    | _ => simp only [Part.Same, and_self]

theorem Spares.host (h : Spares k s₀ s) {x} (hp : k.parts.contains .host = true := by rfl) :
    Spares k s₀ { s with host := x } :=
  h.part hp fun p hne => by
    cases p with
    | host => exact absurd rfl hne
    | _ => simp only [Part.Same, and_self]

theorem Spares.slots (h : Spares k s₀ s) {x} (hp : k.parts.contains .slots = true := by rfl) :
    Spares k s₀ { s with slots := x } :=
  h.part hp fun p hne => by
    cases p with
    | slots => exact absurd rfl hne
    | _ => simp only [Part.Same, and_self]

theorem Spares.es (h : Spares k s₀ s) {x} (hp : k.parts.contains .es = true := by rfl) :
    Spares k s₀ { s with es := x } :=
  h.part hp fun p hne => by
    cases p with
    | es => exact absurd rfl hne
    | _ => simp only [Part.Same, and_self]

theorem Spares.raw (h : Spares k s₀ s) {x} (hp : k.parts.contains .raw = true := by rfl) :
    Spares k s₀ { s with td := { s.td with raw := x } } :=
  h.part hp fun p hne => by
    cases p with
    | raw => exact absurd rfl hne
    | _ => simp only [Part.Same, and_self]

theorem Spares.msix (h : Spares k s₀ s) {x} (hp : k.parts.contains .msix = true := by rfl) :
    Spares k s₀ { s with hi := { s.hi with msix := x } } :=
  h.part hp fun p hne => by
    cases p with
    | msix => exact absurd rfl hne
    | _ => simp only [Part.Same, and_self]

theorem Spares.counts (h : Spares k s₀ s) {x} (hp : k.parts.contains .counts = true := by rfl) :
    Spares k s₀ { s with hi := { s.hi with counts := x } } :=
  h.part hp fun p hne => by
    cases p with
    | counts => exact absurd rfl hne
    | _ => simp only [Part.Same, and_self]

theorem Spares.cq (h : Spares k s₀ s) {x} (hp : k.parts.contains .hi = true := by rfl) :
    Spares k s₀ { s with hi := { s.hi with cq := x } } :=
  h.part hp fun p hne => by
    cases p with
    | hi => exact absurd rfl hne
    | _ => simp only [Part.Same, and_self]

theorem Spares.err (h : Spares k s₀ s) {x} (hp : k.parts.contains .ecc = true := by rfl) :
    Spares k s₀ { s with bk := { s.bk with err := x } } :=
  h.part hp fun p hne => by
    cases p with
    | ecc => exact absurd rfl hne
    | _ => simp only [Part.Same, and_self]

theorem Spares.writeback (h : Spares k s₀ s) {x} (hp : k.parts.contains .ecc = true := by rfl) :
    Spares k s₀ { s with bk := { s.bk with writeback := x } } :=
  h.part hp fun p hne => by
    cases p with
    | ecc => exact absurd rfl hne
    | _ => simp only [Part.Same, and_self]

theorem Spares.ueLog (h : Spares k s₀ s) {x} (hp : k.parts.contains .ueLog = true := by rfl) :
    Spares k s₀ { s with bk := { s.bk with ueLog := x } } :=
  h.part hp fun p hne => by
    cases p with
    | ueLog => exact absurd rfl hne
    | _ => simp only [Part.Same, and_self]

theorem Spares.traceWr (h : Spares k s₀ s) {x} (hp : k.parts.contains .trace = true := by rfl) :
    Spares k s₀ { s with obs := { s.obs with wr := x } } :=
  h.part hp fun p hne => by
    cases p with
    | trace => exact absurd rfl hne
    | _ => simp only [Part.Same, and_self]

theorem Spares.traceLoss (h : Spares k s₀ s) {x} (hp : k.parts.contains .trace = true := by rfl) :
    Spares k s₀ { s with obs := { s.obs with lost := x } } :=
  h.part hp fun p hne => by
    cases p with
    | trace => exact absurd rfl hne
    | _ => simp only [Part.Same, and_self]

theorem Spares.fencedCount (h : Spares k s₀ s) {x} (hp : k.parts.contains .fenced = true := by rfl) :
    Spares k s₀ { s with boot := { s.boot with fenced := x } } :=
  h.part hp fun p hne => by
    cases p with
    | fenced => exact absurd rfl hne
    | _ => simp only [Part.Same, and_self]

theorem Spares.isl (h : Spares k s₀ s) {x} (hp : k.parts.contains .islands = true := by rfl) :
    Spares k s₀ { s with pw := { s.pw with isl := x } } :=
  h.part hp fun p hne => by
    cases p with
    | islands => exact absurd rfl hne
    | _ => simp only [Part.Same, and_self]

end

/-! #### Registers -/

theorem RegSet.has_one (o : Nat) : (RegSet.one o).has o := ⟨0, 0, .inr Nat.one_pos, Nat.one_pos, by simp [RegSet.one]⟩

theorem RegSet.has_row {i n : Nat} (hi : i < n) (o s : Nat) : (RegSet.row o n s).has (o + i * s) :=
  ⟨i, 0, .inr hi, Nat.one_pos, by simp [RegSet.row]⟩

theorem RegSet.has_rows (o s i : Nat) : (RegSet.rows o s).has (o + i * s) :=
  ⟨i, 0, .inl rfl, Nat.one_pos, by simp [RegSet.rows]⟩

theorem RegSet.has_grid {i j n1 n2 : Nat} (hi : i < n1) (hj : j < n2) (o s1 s2 : Nat) :
    (RegSet.grid o n1 s1 n2 s2).has (o + i * s1 + j * s2) :=
  ⟨i, j, .inr hi, hj, rfl⟩

section
set_option Elab.async false
variable {k : Footprint} {s₀ s : State}

/-- A register of one of the footprint's sets is written. -/
theorem Spares.setIn (h : Spares k s₀ s) {r : RegSet} {o v : Nat} (ho : r.has o) (hr : k.regs.contains r = true := by rfl)
    (hp : k.parts.contains .regs = true := by rfl) : Spares k s₀ (s.setReg o v) := by
  refine h.trans ⟨fun p hne => ?_, fun x hx => s.reg_setReg_other v ?_, fun _ _ => rfl⟩
  · cases p with
    | regs => exact absurd (List.contains_iff_mem.mp hp) hne
    | _ => simp only [Part.Same, State.setReg, and_self]
  · rintro rfl
    exact hx ⟨r, List.contains_iff_mem.mp hr, ho⟩

/-- A register that the footprint names is written. -/
theorem Spares.setReg (h : Spares k s₀ s) {o v : Nat} (hr : k.regs.contains (.one o) = true := by rfl)
    (hp : k.parts.contains .regs = true := by rfl) : Spares k s₀ (s.setReg o v) := h.setIn (RegSet.has_one o) hr hp

theorem Spares.count (h : Spares k s₀ s) {o n : Nat} (hr : k.regs.contains (.one o) = true := by rfl)
    (hp : k.parts.contains .regs = true := by rfl) : Spares k s₀ (s.count o n) := h.setReg hr hp

end

/-! #### Device memory -/

/-- No address from HD's SRAM on is one of a generation die's SRAM (R20). -/
theorem place_ne_gd {a : Nat} (ha : sramBase .hd ≤ a) (n : Fin 4) (off : Nat) : place a ≠ .sram (.gd n) off := by
  have hbase : 0x038000000000 ≤ a := ha
  unfold place inWindow
  rw [if_neg (by omega), if_neg (by omega), if_neg (by omega), if_neg (by omega)]
  split_ifs <;> simp

/-- An address from HD's SRAM on is its own storage key. -/
theorem key_of_hd_le (s : State) {a : Nat} (ha : sramBase .hd ≤ a) : s.key a = a := by
  unfold State.key
  split
  next n off hplace => exact absurd hplace (place_ne_gd ha n off)
  next => rfl

section
set_option Elab.async false
variable {k : Footprint} {s₀ s : State}

/-- Bytes are stored at keys of the footprint's zone. -/
theorem Spares.storeIn (h : Spares k s₀ s) {a : Nat} {bs : List Byte} (ha : ∀ i < bs.length, k.zone.Has (s.key (a + i)))
    (hp : k.parts.contains .ecc = true) (hm : k.parts.contains .mem = true) : Spares k s₀ (s.store a bs) := by
  refine h.trans ⟨fun p hne => ?_, fun _ _ => rfl, memKept_putBytes s a bs.length bs a s.mem ha⟩
  cases p with
  | ecc => exact absurd (List.contains_iff_mem.mp hp) hne
  | mem => exact absurd (List.contains_iff_mem.mp hm) hne
  | _ => simp only [Part.Same, State.store, and_self]

theorem Spares.store (h : Spares k s₀ s) {a : Nat} {bs : List Byte} (hz : k.zone = .any := by rfl)
    (hp : k.parts.contains .ecc = true := by rfl) (hm : k.parts.contains .mem = true := by rfl) :
    Spares k s₀ (s.store a bs) :=
  h.storeIn (fun _ _ => by rw [hz]; trivial) hp hm

theorem Spares.storeNat (h : Spares k s₀ s) {a n x : Nat} (hz : k.zone = .any := by rfl)
    (hp : k.parts.contains .ecc = true := by rfl) (hm : k.parts.contains .mem = true := by rfl) :
    Spares k s₀ (s.storeNat a n x) := h.store hz hp hm

theorem Zone.Has.of_hd_le {z : Zone} {a : Nat} (hz : Zone.hd.within z = true) (ha : sramBase .hd ≤ a) : z.Has a :=
  Zone.Has.within (z := .hd) ha hz

/-- Bytes are stored to the SRAM of HD, or above it. -/
theorem Spares.storeHd (h : Spares k s₀ s) {a : Nat} {bs : List Byte} (ha : sramBase .hd ≤ a)
    (hz : Zone.hd.within k.zone = true := by rfl) (hp : k.parts.contains .ecc = true := by rfl)
    (hm : k.parts.contains .mem = true := by rfl) : Spares k s₀ (s.store a bs) :=
  have hd (i : Nat) : sramBase .hd ≤ a + i := Nat.le_add_right_of_le ha
  h.storeIn (fun i _ => by rw [key_of_hd_le s (hd i)]; exact .of_hd_le hz (hd i)) hp hm

/-- Part of the SRAM of HD, or of what lies above it, is cleared. -/
theorem Spares.clearHd (h : Spares k s₀ s) {p : Nat → Bool} (ha : ∀ a, p a = true → sramBase .hd ≤ a)
    (hz : Zone.hd.within k.zone = true := by rfl) (hp : k.parts.contains .ecc = true := by rfl)
    (hm : k.parts.contains .mem = true := by rfl) : Spares k s₀ (s.clearMem p) := by
  refine h.trans ⟨fun q hne => ?_, fun _ _ => rfl, fun a hna => ?_⟩
  · cases q with
    | ecc => exact absurd (List.contains_iff_mem.mp hp) hne
    | mem => exact absurd (List.contains_iff_mem.mp hm) hne
    | _ => simp only [Part.Same, State.clearMem, and_self]
  · refine (tget_filter 0 (fun x => !p x) s.mem a).trans (if_pos ?_)
    rw [Bool.not_eq_true', ← Bool.not_eq_true]
    exact fun hpa => hna (.of_hd_le hz (ha a hpa))

end

/-! #### The outcome of a command -/

/-- The command's next state stays within a footprint. -/
def NextSpares (k : Footprint) (s : State) (o : Out) : Prop := ∀ t, o = .next t → Spares k s t

section
set_option Elab.async false
variable {k : Footprint} {s t u : State} {o o' : Out}

theorem NextSpares.next (h : Spares k s t) : NextSpares k s (.next t) := by
  rintro _ ⟨⟩
  exact h

theorem NextSpares.ite {c : Prop} {_ : Decidable c} (ho : NextSpares k s o) (ho' : NextSpares k s o') :
    NextSpares k s (if c then o else o') := by
  split
  · exact ho
  · exact ho'

theorem NextSpares.onlyIf {p : Bool} (h : Spares k s t) : NextSpares k s (onlyIf p s t) := .next (.ite h (.refl k s))

theorem NextSpares.unlessHalted {v : StopUnit} (ho : NextSpares k s o) : NextSpares k s (unlessHalted s v o) :=
  .ite (.next (.refl k s)) ho

theorem NextSpares.agentIf {m : Agent} {p : Bool} (h : Spares k s t) (hp : k.parts.contains .fenced = true := by rfl) :
    NextSpares k s (agentIf m p s t) :=
  .ite (.next (.refl k s)) (.ite (.next ((Spares.refl k s).fencedCount hp)) (.onlyIf h))

end

/-! #### The footprints of the model's functions

Each is shared by the functions that do one kind of work. -/

/-- A report of an error to the PF (R340). -/
def Footprint.errors : Footprint := ⟨[.msix, .regs], Regs.errCause, .none⟩

/-- What a read of words in error reports (R109 to R111). -/
def Footprint.reports : Footprint := ⟨[.ecc, .ueLog, .msix, .regs, .irq], Regs.errCause ++ Regs.ecc, .none⟩

/-- A trace record, or its loss (R444 to R446). -/
def Footprint.tracing : Footprint := ⟨[.ecc, .trace, .regs, .mem], Regs.traceLost, .any⟩

/-- A sequencer and its copy in memory (R65, R200). -/
def Footprint.arrays : Footprint := ⟨[.es, .ecc, .mem], [], .any⟩

/-- The tiles that stopped arrays hand back (R190). -/
def Footprint.handbacks : Footprint := ⟨[.es, .ecc, .counts, .mem], [], .any⟩

/-- Contexts and their accounts (R183 to R188). -/
def Footprint.sharing : Footprint := ⟨[.sh], [], .none⟩

/-- A context stops its arrays (R189). -/
def Footprint.stops : Footprint := ⟨[.sh, .regs], [.rows esBlock 0x1000], .none⟩

/-- A context runs its descriptors, and loses them (R118 to R136). -/
def Footprint.descs : Footprint where
  parts := [.ecc, .ueLog, .sh, .trace, .msix, .regs, .mem, .irq, .free]
  regs := Regs.errCause ++ Regs.traceLost ++ Regs.ecc ++ [.row (bkBlock + 0x0308) 10 0x10000]
  zone := .any

/-- Descriptors are placed, and contexts make room for them (R189). -/
def Footprint.serves : Footprint := { Footprint.descs with regs := Regs.descs }

/-- A tenant's memory is read and written through Customs, and its completions are posted (R337 to R344). -/
def Footprint.posts : Footprint := ⟨[.msix, .counts, .hi, .cu, .regs, .host, .free], Regs.errCause ++ Regs.customs, .none⟩

section
set_option Elab.async false
variable {k : Footprint} {s₀ s : State}

/-! #### Registers, interrupts and reports -/

theorem Spares.setRegB (h : Spares k s₀ s) {o hi lo v} (hr : k.regs.contains (.one o) = true := by rfl)
    (hp : k.parts.contains .regs = true := by rfl) : Spares k s₀ (s.setRegB o hi lo v) := h.setReg hr hp

theorem Spares.drew (h : Spares k s₀ s) {n} (hp : k.parts.contains .free = true := by rfl) : Spares k s₀ (s.drew n) :=
  h.free hp

theorem Spares.irqTo (h : Spares k s₀ s) {core src} (hp : k.parts.contains .irq = true := by rfl) :
    Spares k s₀ (s.irqTo core src) := h.irq hp

theorem Spares.sendVec (h : Spares k s₀ s) {f v} (hp : k.parts.contains .msix = true := by rfl) :
    Spares k s₀ (s.sendVec f v) := .ite h (h.msix hp)

theorem Spares.mgmtEvent (h : Spares k s₀ s) (hp : k.parts.contains .msix = true := by rfl) : Spares k s₀ s.mgmtEvent :=
  h.sendVec hp

theorem Spares.fnCount (h : Spares k s₀ s) {f c n} (hp : k.parts.contains .counts = true := by rfl) :
    Spares k s₀ (s.fnCount f c n) := h.counts hp

theorem Spares.reachRaw (h : Spares k s₀ s) {n} (hp : k.parts.contains .raw = true := by rfl) : Spares k s₀ (s.reachRaw n) :=
  .ite (h.raw hp) h

theorem Spares.reachNs (h : Spares k s₀ s) {t} (hp : k.parts.contains .raw = true := by rfl) : Spares k s₀ (s.reachNs t) :=
  .ite (h.reachRaw hp) h

theorem Spares.hiErr (h : Spares k s₀ s) {bit} (hk : Footprint.errors.within k = true := by rfl) :
    Spares k s₀ (s.hiErr bit) := h.grow hk fun h => by
  unfold State.hiErr
  extract_lets t
  have ht : Spares .errors s t := h.setReg
  exact .ite ht ht.sendVec

/-- A register of the bank page of each die. -/
theorem has_bkPage (d : Die) (o : Nat) : (RegSet.row (bkBlock + o) 10 0x10000).has (bkBlock + 0x10000 * d.index + o) := by
  have h := RegSet.has_row (index_lt d) (bkBlock + o) 0x10000
  rwa [show bkBlock + o + d.index * 0x10000 = bkBlock + 0x10000 * d.index + o by omega] at h

/-- A register of a group of bank pages' registers. -/
theorem has_bkPages (d : Die) {j n : Nat} (hj : j < n) (o : Nat) :
    (RegSet.grid (bkBlock + o) 10 0x10000 n 4).has (bkBlock + 0x10000 * d.index + (o + j * 4)) := by
  have h := RegSet.has_grid (index_lt d) hj (bkBlock + o) 0x10000 4
  rwa [show bkBlock + o + d.index * 0x10000 + j * 4 = bkBlock + 0x10000 * d.index + (o + j * 4) by omega] at h

theorem Spares.eccReport (h : Spares k s₀ s) {m a bad} (hk : Footprint.reports.within k = true := by rfl) :
    Spares k s₀ (s.eccReport m a bad) := h.grow hk fun h => by
  unfold State.eccReport
  split
  · exact h
  next d bank word _ =>
    extract_lets b _ _ s₁ s₂ _ s₃
    have hs₁ : Spares .reports s s₁ := by
      refine h.setIn (r := .grid (bkBlock + 0x0100) 10 0x10000 2 4) ?_
      split
      · exact has_bkPages d (j := 1) (by decide) 0x0100
      · exact has_bkPages d (j := 0) (by decide) 0x0100
    have hs₂ : Spares .reports s s₂ := .ite ((hs₁.setIn (has_bkPage d 0x0108)).setIn (has_bkPage d 0x010C)) hs₁
    have hs₃ : Spares .reports s s₃ := hs₂.ueLog
    exact .ite ((hs₃.setIn (has_bkPage d 0x0004)).irqTo).hiErr hs₂

theorem Spares.noteReads (h : Spares k s₀ s) {m a n} (hk : Footprint.reports.within k = true := by rfl) :
    Spares k s₀ (s.noteReads m a n) := h.grow hk fun h => by
  unfold State.noteReads
  extract_lets
  exact foldl_keeps (fun t x ht => by
      extract_lets s₁
      have hs₁ : Spares .reports s s₁ := ht.eccReport
      exact .ite hs₁ hs₁.writeback) _ h

/-! #### Trace records -/

theorem Spares.tracePut (h : Spares k s₀ s) {r} (hk : Footprint.tracing.within k = true := by rfl) :
    Spares k s₀ (s.tracePut r) := h.grow hk fun h => by
  unfold State.tracePut
  extract_lets _ t
  have ht : Spares .tracing s t := h.store
  exact ht.traceWr

theorem Spares.traceLost (h : Spares k s₀ s) (hk : Footprint.tracing.within k = true := by rfl) :
    Spares k s₀ s.traceLost := h.grow hk fun h => by
  unfold State.traceLost
  extract_lets t
  have ht : Spares .tracing s t := h.count
  exact ht.traceLoss

theorem Spares.traceWrite (h : Spares k s₀ s) {r} (hk : Footprint.tracing.within k = true := by rfl) :
    Spares k s₀ (s.traceWrite r) := h.grow hk fun h => by
  unfold State.traceWrite
  extract_lets u _ t
  have hu : Spares .tracing s u := h.tracePut
  have ht : Spares .tracing s t := .ite h hu.traceLoss
  exact .ite h.traceLost (.ite ht.tracePut ht.traceLost)

theorem Spares.trace (h : Spares k s₀ s) {kind unit layer op fn arg} (hk : Footprint.tracing.within k = true := by rfl) :
    Spares k s₀ (s.trace kind unit layer op fn arg) := h.grow hk fun h => .ite h.traceWrite h

/-! #### Arrays -/

theorem Spares.copySeq (h : Spares k s₀ s) {g} (hk : Footprint.arrays.within k = true := by rfl) :
    Spares k s₀ (s.copySeq g) := h.grow hk fun h => .ite h.storeNat h

theorem Spares.putEs (h : Spares k s₀ s) {g e} (hk : Footprint.arrays.within k = true := by rfl) :
    Spares k s₀ (s.putEs g e) := h.grow hk fun h => by
  unfold State.putEs
  extract_lets t
  have ht : Spares .arrays s t := h.es
  exact .ite ht ht.copySeq

theorem Spares.esAbort (h : Spares k s₀ s) {g} (hk : Footprint.arrays.within k = true := by rfl) :
    Spares k s₀ (s.esAbort g) := h.grow hk fun h => h.putEs

theorem Spares.noteRanges (h : Spares k s₀ s) {m rs} (hk : Footprint.reports.within k = true := by rfl) :
    Spares k s₀ (s.noteRanges m rs) := h.grow hk fun h => foldl_keeps (fun _ _ ht => ht.noteReads) _ h

/-! #### Contexts -/

theorem Spares.charge (h : Spares k s₀ s) {v n} (hk : Footprint.sharing.within k = true := by rfl) :
    Spares k s₀ (s.charge v n) := h.grow hk fun h => h.sh

theorem Spares.settle (h : Spares k s₀ s) (hk : Footprint.sharing.within k = true := by rfl) :
    Spares k s₀ s.settle := h.grow hk fun h => by
  unfold State.settle
  extract_lets _ u t
  have hu : Spares .sharing s u := foldl_keeps (fun _ _ ht₁ => .ite ht₁.charge ht₁) _ h
  have ht : Spares .sharing s t := .ite h hu.charge
  exact ht.sh

theorem Spares.wakeVf (h : Spares k s₀ s) {v} (hk : Footprint.sharing.within k = true := by rfl) :
    Spares k s₀ (s.wakeVf v) := h.grow hk fun h => by
  unfold State.wakeVf
  extract_lets
  split
  · exact h
  · split
    · exact h
    · exact h.sh

theorem Spares.setCtx (h : Spares k s₀ s) {key c} (hk : Footprint.sharing.within k = true := by rfl) :
    Spares k s₀ (s.setCtx key c) := h.grow hk fun h => by
  unfold State.setCtx
  extract_lets s₁
  have hs₁ : Spares .sharing s s₁ := h.settle
  exact hs₁.sh

theorem Spares.giveIdle (h : Spares k s₀ s) {d} (hk : Footprint.sharing.within k = true := by rfl) :
    Spares k s₀ (s.giveIdle d) := h.grow hk fun h => by
  unfold State.giveIdle
  extract_lets s₁
  have hs₁ : Spares .sharing s s₁ := h.settle
  exact foldl_keeps (fun t x ht => by
      split
      · exact ht
      · extract_lets
        exact .ite ht ht.setCtx) _ hs₁

theorem Spares.loseWrites (h : Spares k s₀ s) {ws} (hk : Footprint.descs.within k = true := by rfl) :
    Spares k s₀ (s.loseWrites ws) := h.grow hk fun h => foldl_keeps (fun _ _ ht => ht.store.drew) _ h

theorem Spares.doConvert (h : Spares k s₀ s) {d x} (hk : Footprint.descs.within k = true := by rfl) :
    Spares k s₀ (s.doConvert d x).1 := h.grow hk fun h => by
  unfold State.doConvert
  extract_lets _ _ _ t u u₁
  have ht : Spares .descs s t := h.noteRanges
  have hu : Spares .descs s u := foldl_keeps (fun _ _ ht₁ => ht₁.store) _ ht
  have hu₁ : Spares .descs s u₁ := .ite hu.loseWrites hu
  split
  · exact ht.loseWrites
  · split
    · exact ht.loseWrites
    · exact hu₁.setIn (has_bkPage d 0x0308)

theorem Spares.doRoutine (h : Spares k s₀ s) (hk : Footprint.descs.within k = true := by rfl) :
    Spares k s₀ s.doRoutine := h.grow hk fun h => h.store.drew

theorem Spares.traceDesc (h : Spares k s₀ s) {kind d vf x arg} (hk : Footprint.tracing.within k = true := by rfl) :
    Spares k s₀ (s.traceDesc kind d vf x arg) := h.grow hk fun h => h.trace

theorem Spares.postRecord (h : Spares k s₀ s) {d vf slot dseq x r} (hk : Footprint.descs.within k = true := by rfl) :
    Spares k s₀ (s.postRecord d vf slot dseq x r) := h.grow hk fun h => by
  unfold State.postRecord
  extract_lets s₁ _ t
  have hs₁ : Spares .descs s s₁ := h.traceDesc
  have ht : Spares .descs s t := hs₁.sh
  exact .ite ht (.ite ht.mgmtEvent ht.irqTo)

theorem Spares.loseScratch (h : Spares k s₀ s) {c} (hk : Footprint.descs.within k = true := by rfl) :
    Spares k s₀ (s.loseScratch c) := h.grow hk fun h => h.store.drew

theorem Spares.runQueue (h : Spares k s₀ s) {d key c qs} (hk : Footprint.descs.within k = true := by rfl) :
    Spares k s₀ (s.runQueue d key c qs) := by
  induction qs generalizing s with
  | nil => exact h.grow hk fun h => h.setCtx
  | cons q qs ih =>
    unfold State.runQueue
    extract_lets x drip avail chunks path chk s₁ t seq u
    have hs₁ : Spares k s₀ s₁ := h.grow hk fun h => .ite h.noteReads h
    split
    · exact ih (hs₁.postRecord hk)
    · split
      · exact ih (hs₁.grow hk fun h => h.traceDesc.doConvert.postRecord)
      · split
        · exact ih (hs₁.grow hk fun h => h.traceDesc.doRoutine.postRecord)
        · exact hs₁.grow hk fun h => h.storeNat.storeNat.store.traceDesc.setCtx

theorem Spares.loseBlock (h : Spares k s₀ s) {r x block} (hk : Footprint.descs.within k = true := by rfl) :
    Spares k s₀ (s.loseBlock r x block) := h.grow hk fun h => h.loseWrites

theorem Spares.loseBlocks (h : Spares k s₀ s) {r} (hk : Footprint.descs.within k = true := by rfl) :
    Spares k s₀ (s.loseBlocks r) := h.grow hk fun h => foldl_keeps (fun _ _ ht => ht.loseBlock) _ h

theorem Spares.abortCtx (h : Spares k s₀ s) {d key} (hk : Footprint.descs.within k = true := by rfl) :
    Spares k s₀ (s.abortCtx d key) := h.grow hk fun h => by
  unfold State.abortCtx
  extract_lets s₁
  have hs₁ : Spares .descs s s₁ := h.settle
  split
  · exact hs₁
  · extract_lets t t₁
    have ht : Spares .descs s t := by
      unfold t
      split
      · extract_lets
        exact hs₁.loseBlocks.loseScratch.postRecord
      · exact hs₁
    have ht₁ : Spares .descs s t₁ := foldl_keeps (fun t₂ x ht₂ => by
        extract_lets
        exact ht₂.postRecord) _ ht
    exact ht₁.setCtx

/-- A register of the pages of the Espalier arrays. -/
theorem has_esReg (g o : Nat) : (RegSet.rows (esBlock + o) 0x1000).has (esReg g o) := by
  have h := RegSet.has_rows (esBlock + o) 0x1000 g
  rwa [show esBlock + o + g * 0x1000 = esReg g o by unfold esReg; omega] at h

theorem Spares.stopCtx (h : Spares k s₀ s) {key why} (hk : Footprint.stops.within k = true := by rfl) :
    Spares k s₀ (s.stopCtx key why) := h.grow hk fun h => by
  unfold State.stopCtx
  split
  · exact h
  · extract_lets t
    have ht : Spares .stops s t := foldl_keeps (fun _ _ ht₁ => ht₁.setIn (has_esReg _ 0)) _ h
    exact ht.setCtx

theorem Spares.evict (h : Spares k s₀ s) {d v} (hk : Footprint.stops.within k = true := by rfl) :
    Spares k s₀ (s.evict d v) := h.grow hk fun h => by
  unfold State.evict
  extract_lets s₁
  have hs₁ : Spares .stops s s₁ := h.settle
  split
  · exact hs₁
  · split
    · exact hs₁
    · exact .ite hs₁.stopCtx hs₁

theorem Spares.placeDesc (h : Spares k s₀ s) {d vf slot q} (hk : Footprint.serves.within k = true := by rfl) :
    Spares k s₀ (s.placeDesc d vf slot q) := h.grow hk fun h => by
  unfold State.placeDesc
  extract_lets s₁ t _ _ t₁
  have hs₁ : Spares .serves s s₁ := h.settle
  have ht : Spares .serves s t := hs₁.wakeVf
  have ht₁ : Spares .serves s t₁ := hs₁.evict
  split
  · exact .ite hs₁.wakeVf.runQueue hs₁.setCtx
  · split
    · exact ht.sh.runQueue
    · exact ht₁.sh

theorem Spares.goOn (h : Spares k s₀ s) {d key c} (hk : Footprint.descs.within k = true := by rfl) :
    Spares k s₀ (s.goOn d key c) := h.grow hk fun h => by
  unfold State.goOn
  extract_lets s₁
  have hs₁ : Spares .descs s s₁ := h.settle.wakeVf
  exact .ite hs₁.runQueue hs₁.setCtx

theorem Spares.serveWait (h : Spares k s₀ s) {d} (hk : Footprint.serves.within k = true := by rfl) :
    Spares k s₀ (s.serveWait d) := h.grow hk fun h => foldl_keeps (fun _ _ ht => ht.placeDesc) _ h.sh

theorem Spares.ranPasses (h : Spares k s₀ s) {g vf a rows n sat} (hk : Footprint.handbacks.within k = true := by rfl) :
    Spares k s₀ (s.ranPasses g vf a rows n sat) := h.grow hk fun h => h.es.fnCount

theorem Spares.handBack (h : Spares k s₀ s) {cx r ts} (hk : Footprint.handbacks.within k = true := by rfl) :
    Spares k s₀ (s.handBack cx r ts).1 := h.grow hk fun h => Spares.foldl_fst (fun y x hy => by
    extract_lets
    split
    · exact hy
    · exact hy.storeNat) _ h

theorem Spares.stopTiles (h : Spares k s₀ s) {cx r g next} (hk : Footprint.handbacks.within k = true := by rfl) :
    Spares k s₀ (s.stopTiles cx r g next).1 := h.grow hk fun h => by
  unfold State.stopTiles
  extract_lets
  split
  · exact h
  · extract_lets
    exact h.ranPasses

end

/-- The manifests, the berth table and what the Harbourmaster keeps beside them, with their copies in HD's SRAM (R147). -/
def Footprint.tables : Footprint := ⟨[.ecc, .hm, .mem], [], .hd⟩

/-- Bytes of berths and of automata move (R148, R177). -/
def Footprint.copies : Footprint := ⟨[.ecc, .hm, .mem], [], .any⟩

/-- Tokens and tensor dumps reach the tenant (R145, R449). -/
def Footprint.delivers : Footprint := Footprint.tables.plus .posts

/-- A provenance record (R362). -/
def Footprint.provenance : Footprint := { Footprint.posts with regs := Footprint.posts.regs ++ Regs.prov }

/-- A request ends (R159, R160). -/
def Footprint.ends : Footprint := (Footprint.delivers.plus .provenance).plus .serves

/-- A request waits for the berth table's rebuild, which is counted once (R150). -/
def Footprint.waits : Footprint := Footprint.tables.plus ⟨[.regs], [.one (hmBlock + 0x044)], .none⟩

/-- A selection is counted (R173). -/
def Footprint.counted : Footprint := ⟨[.regs], Regs.select, .none⟩

/-- An empty selection is counted (R175). -/
def Footprint.empties : Footprint := ⟨[.regs], Regs.noToken, .none⟩

/-- A selection in Rake or Sieve (R173, R175). -/
def Footprint.selects : Footprint := Footprint.counted.plus .empties

/-- A request leaves the batch, or is held for the berth table's rebuild (R150, R156). -/
def Footprint.holds : Footprint := Footprint.ends.plus .waits

section
set_option Elab.async false
variable {k : Footprint} {s₀ s : State}

/-! #### Customs and the host's queues -/

theorem Spares.cacheLeaf (h : Spares k s₀ s) {fn pasid addr host log2 w} (hk : Footprint.posts.within k = true := by rfl) :
    Spares k s₀ (s.cacheLeaf fn pasid addr host log2 w) := h.grow hk fun h => .ite h.cu (h.free (x := s.free + 1)).cu

theorem Spares.cacheTab (h : Spares k s₀ s) {fn pasid at_ v x} (hk : Footprint.posts.within k = true := by rfl) :
    Spares k s₀ (s.cacheTab fn pasid at_ v x) := h.grow hk fun h => by
  unfold State.cacheTab
  extract_lets
  split
  · exact h
  · exact h
  · extract_lets
    exact h.cu

theorem Spares.xlateFault (h : Spares k s₀ s) {fn pasid addr write reason} (hk : Footprint.posts.within k = true := by rfl) :
    Spares k s₀ (s.xlateFault fn pasid addr write reason) := h.grow hk fun h => by
  unfold State.xlateFault
  extract_lets t t₁
  have ht : Spares .posts s t := h.count.fnCount
  have ht₁ : Spares .posts s t₁ := .ite ht ht.setReg.setReg.setReg
  exact ht₁.hiErr

theorem Spares.walkAll (h : Spares k s₀ s) {fn pasid addr write n x} (hk : Footprint.posts.within k = true := by rfl) :
    Spares k s₀ (s.walkAll fn pasid addr write n x).1 := by
  induction n generalizing s x with
  | zero => exact h
  | succ n ih =>
    cases x with
    | read a e w => exact ih (h.cacheTab hk)
    | done hst l w => exact h
    | fail r => exact h

theorem Spares.xlate (h : Spares k s₀ s) {fn pasid addr write} (hk : Footprint.posts.within k = true := by rfl) :
    Spares k s₀ (s.xlate fn pasid addr write).1 := h.grow hk fun h => by
  unfold State.xlate
  extract_lets start r
  have hr : Spares .posts s r.1 := h.walkAll
  clear_value r start
  split
  · dsimp only
    split
    · exact hr.cacheLeaf
    · exact hr
  · exact hr.xlateFault
  · exact hr

theorem Spares.hostRead (h : Spares k s₀ s) {fn pasid j addr n} (hk : Footprint.posts.within k = true := by rfl) :
    Spares k s₀ (s.hostRead fn pasid j addr n).1 := by
  induction j generalizing s addr n with
  | zero => exact h
  | succ j ih =>
    unfold State.hostRead
    split
    · exact h
    · extract_lets m
      split
      next t _ e => exact (h.xlate hk).of_fst e
      next t _ e =>
        have ht : Spares k s₀ t := (h.xlate hk).of_fst e
        split
        next u _ e' => exact (ih ht).of_fst e'
        next u e' => exact (ih ht).of_fst e'

theorem Spares.hostWrite (h : Spares k s₀ s) {fn pasid j addr bs} (hk : Footprint.posts.within k = true := by rfl) :
    Spares k s₀ (s.hostWrite fn pasid j addr bs).1 := by
  induction j generalizing s addr bs with
  | zero => exact h
  | succ j ih =>
    unfold State.hostWrite
    split
    · exact h
    · extract_lets m
      split
      next t _ e => exact (h.xlate hk).of_fst e
      next t _ e =>
        have ht : Spares k s₀ t := (h.xlate hk).of_fst e
        exact ih (ht.grow hk fun h => .ite h h.host)

theorem Spares.tenantRead (h : Spares k s₀ s) {fn pasid addr n} (hk : Footprint.posts.within k = true := by rfl) :
    Spares k s₀ (s.tenantRead fn pasid addr n).1 := h.grow hk fun h => h.hostRead

theorem Spares.tenantWrite (h : Spares k s₀ s) {fn pasid addr bs} (hk : Footprint.posts.within k = true := by rfl) :
    Spares k s₀ (s.tenantWrite fn pasid addr bs).1 := h.grow hk fun h => h.hostWrite

theorem Spares.setCq (h : Spares k s₀ s) {f i q} (hk : Footprint.posts.within k = true := by rfl) :
    Spares k s₀ (s.setCq f i q) := h.grow hk fun h => h.cq

theorem Spares.queueError (h : Spares k s₀ s) {f} (hk : Footprint.posts.within k = true := by rfl) :
    Spares k s₀ (s.queueError f) := h.grow hk fun h => (Spares.ite h.sendVec h).hiErr

theorem Spares.cqFault (h : Spares k s₀ s) {f i code} (hk : Footprint.posts.within k = true := by rfl) :
    Spares k s₀ (s.cqFault f i code) := h.grow hk fun h => .ite h.setCq.queueError h

theorem Spares.cqSignal (h : Spares k s₀ s) {f i} (hk : Footprint.posts.within k = true := by rfl) :
    Spares k s₀ (s.cqSignal f i) := h.grow hk fun h => by
  unfold State.cqSignal
  extract_lets _ _ _ s₁
  have hs₁ : Spares .posts s s₁ := h.setCq
  exact .ite hs₁.sendVec hs₁

theorem Spares.cqModerate (h : Spares k s₀ s) {f i} (hk : Footprint.posts.within k = true := by rfl) :
    Spares k s₀ (s.cqModerate f i) := h.grow hk fun h => by
  unfold State.cqModerate
  extract_lets _ _ s₁
  have hs₁ : Spares .posts s s₁ := h.setCq
  exact .ite hs₁.cqSignal hs₁

theorem Spares.countEvent (h : Spares k s₀ s) {f e} (hk : Footprint.posts.within k = true := by rfl) :
    Spares k s₀ (s.countEvent f e) := h.grow hk fun h => by
  unfold State.countEvent
  extract_lets
  split
  · exact h.fnCount
  · exact h.fnCount
  · exact h.fnCount
  · exact h.fnCount
  · exact h

theorem Spares.cqWrite (h : Spares k s₀ s) {f i e} (hk : Footprint.posts.within k = true := by rfl) :
    Spares k s₀ (s.cqWrite f i e).1 := h.grow hk fun h => by
  unfold State.cqWrite
  extract_lets
  split
  next t e₁ =>
    have ht : Spares .posts s t := h.tenantWrite.of_fst e₁
    exact ht.cqFault
  next t e₁ =>
    have ht : Spares .posts s t := h.tenantWrite.of_fst e₁
    extract_lets _ t₁
    have ht₁ : Spares .posts s t₁ := ht.setCq.countEvent
    split
    next u e₂ =>
      have hu : Spares .posts s u := ht₁.tenantWrite.of_fst e₂
      exact hu.cqModerate
    next u e₂ =>
      have hu : Spares .posts s u := ht₁.tenantWrite.of_fst e₂
      exact hu.cqFault

theorem Spares.postCq (h : Spares k s₀ s) {f i e} (hk : Footprint.posts.within k = true := by rfl) :
    Spares k s₀ (s.postCq f i e) := h.grow hk fun h => by
  unfold State.postCq
  extract_lets
  split
  · exact h.setCq
  · split
    next u e₁ =>
      exact h.cqWrite.of_fst e₁
    next u e₁ =>
      have hu : Spares .posts s u := h.cqWrite.of_fst e₁
      extract_lets
      exact hu.setCq

/-! #### Manifests, berths and peers -/

/-- The manifest table lies in HD's SRAM (R147, R459). -/
theorem hd_le_manBase (i : Nat) : sramBase .hd ≤ manBase + 64 * i := Nat.le_add_right _ _

/-- Both copies of the berth table lie in HD's SRAM (R147, R459). -/
theorem hd_le_btBase (s : State) (live : Bool) : sramBase .hd ≤ s.btBase live := by
  unfold State.btBase
  split <;> decide

/-- Both copies of the automaton store lie in HD's SRAM (R147, R459). -/
theorem hd_le_svBase (s : State) (live : Bool) : sramBase .hd ≤ s.svBase live := by
  unfold State.svBase
  split <;> decide

theorem Spares.setMan (h : Spares k s₀ s) {i m} (hk : Footprint.tables.within k = true := by rfl) :
    Spares k s₀ (s.setMan i m) := h.grow hk fun h => by
  unfold State.setMan
  extract_lets t
  have ht : Spares .tables s t := h.storeHd (hd_le_manBase i)
  exact ht.hm

theorem Spares.modMan (h : Spares k s₀ s) {i f} (hk : Footprint.tables.within k = true := by rfl) :
    Spares k s₀ (s.modMan i f) := h.grow hk fun h => h.setMan

theorem Spares.setBerth (h : Spares k s₀ s) {e b} (hk : Footprint.tables.within k = true := by rfl) :
    Spares k s₀ (s.setBerth e b) := h.grow hk fun h => by
  unfold State.setBerth
  extract_lets t
  have ht : Spares .tables s t := h.storeHd (Nat.le_add_right_of_le (hd_le_btBase s true))
  exact ht.hm

theorem Spares.btStart (h : Spares k s₀ s)  (hp : k.parts.contains .hm = true := by rfl) : Spares k s₀ s.btStart := h.hm hp

theorem Spares.waitOnce (h : Spares k s₀ s) {i o} (hr : k.regs.contains (.one o) = true := by rfl)
    (hp : k.parts.contains .regs = true := by rfl) (hk : Footprint.tables.within k = true := by rfl) :
    Spares k s₀ (s.waitOnce i o) := .ite h ((h.count hr hp).setMan hk)

theorem Spares.btHold (h : Spares k s₀ s) {i} (hk : Footprint.waits.within k = true := by rfl) :
    Spares k s₀ (s.btHold i) := h.grow hk fun h => h.waitOnce.btStart

theorem Spares.addBerth (h : Spares k s₀ s) {i tier frame} (hk : Footprint.tables.within k = true := by rfl) :
    Spares k s₀ (s.addBerth i tier frame).1 := h.grow hk fun h => by
  unfold State.addBerth
  extract_lets
  split
  · exact h
  · exact h.setBerth.setMan

theorem Spares.setWritten (h : Spares k s₀ s) {i n} (hk : Footprint.tables.within k = true := by rfl) :
    Spares k s₀ (s.setWritten i n) := h.grow hk fun h => by
  unfold State.setWritten
  extract_lets _ t
  have ht : Spares .tables s t := foldl_keeps (fun t₁ x ht₁ => by
      extract_lets
      exact .ite ht₁ ht₁.setBerth) _ h
  exact ht.modMan

theorem Spares.putPeer (h : Spares k s₀ s) {peer a bs} (hp : k.parts.contains .hm = true := by rfl) :
    Spares k s₀ (s.putPeer peer a bs) := h.hm hp

theorem Spares.sliceStore (h : Spares k s₀ s) {r t f j o bs} (hk : Footprint.copies.within k = true := by rfl) :
    Spares k s₀ (s.sliceStore r t f j o bs) := h.grow hk fun h => by
  unfold State.sliceStore
  split
  · exact h.store
  · exact h.putPeer

theorem Spares.copyBerth (h : Spares k s₀ s) {r t f t' f' got} (hk : Footprint.copies.within k = true := by rfl) :
    Spares k s₀ (s.copyBerth r t f t' f' got) := h.grow hk fun h => foldl_keeps (fun _ _ ht₁ => ht₁.sliceStore) _ h

theorem Spares.growBerth (h : Spares k s₀ s) {i} (hk : Footprint.tables.within k = true := by rfl) :
    Spares k s₀ (s.growBerth i).1 := h.grow hk fun h => by
  unfold State.growBerth
  dsimp only
  split
  · exact h
  · split
    next t e => exact h.addBerth.of_fst e
    next t e =>
      have ht := h.addBerth.of_fst e
      dsimp only
      exact ht.modMan.modMan

theorem Spares.issueMirror (h : Spares k s₀ s) {i byStep} (hk : Footprint.tables.within k = true := by rfl) :
    Spares k s₀ (s.issueMirror i byStep) := h.grow hk fun h => by
  unfold State.issueMirror
  extract_lets
  exact .ite h (foldl_keeps (fun t x ht => by
      extract_lets
      exact .ite ht ht.setBerth.putPeer.setMan) _ h)

theorem Spares.sendRecord (h : Spares k s₀ s) {i} (hk : Footprint.tables.within k = true := by rfl) :
    Spares k s₀ (s.sendRecord i) := h.grow hk fun h => by
  unfold State.sendRecord
  extract_lets
  split
  · exact .ite h.setMan.putPeer h
  · exact h

theorem Spares.takeCkpt (h : Spares k s₀ s) {i} (hk : Footprint.tables.within k = true := by rfl) :
    Spares k s₀ (s.takeCkpt i) := h.grow hk fun h => by
  unfold State.takeCkpt
  extract_lets t
  have ht : Spares .tables s t := h.issueMirror
  exact .ite ht.setMan.sendRecord ht

theorem Spares.takeSpare (h : Spares k s₀ s) {i} (hk : Footprint.tables.within k = true := by rfl) :
    Spares k s₀ (s.takeSpare i) := h.grow hk fun h => .ite h h.setMan

theorem Spares.releaseBerths (h : Spares k s₀ s) {i} (hk : Footprint.tables.within k = true := by rfl) :
    Spares k s₀ (s.releaseBerths i) := h.grow hk fun h => by
  unfold State.releaseBerths
  extract_lets
  exact (foldl_keeps (fun _ _ ht => ht.setBerth) _ h).modMan

theorem Spares.postEvent (h : Spares k s₀ s) {i event status reason step} (hk : Footprint.posts.within k = true := by rfl) :
    Spares k s₀ (s.postEvent i event status reason step) := h.grow hk fun h => h.postCq

theorem Spares.postTokens (h : Spares k s₀ s) {i first ts n} (hk : Footprint.posts.within k = true := by rfl) :
    Spares k s₀ (s.postTokens i first ts n) := by
  induction n generalizing s first ts with
  | zero => cases ts <;> exact h
  | succ n ih =>
    cases ts with
    | nil => exact h
    | cons x xs => exact ih (h.postCq hk)

theorem Spares.emitTokens (h : Spares k s₀ s) {i ts} (hk : Footprint.delivers.within k = true := by rfl) :
    Spares k s₀ (s.emitTokens i ts) := h.grow hk fun h => h.modMan.postTokens

theorem Spares.flushTokens (h : Spares k s₀ s) {i} (hk : Footprint.delivers.within k = true := by rfl) :
    Spares k s₀ (s.flushTokens i) := h.grow hk fun h => by
  unfold State.flushTokens
  extract_lets
  exact h.postTokens.modMan

/-- A function's sequence number of provenance records. -/
theorem has_provSeq (v : Nat) : (RegSet.rows (hmBlock + 0x300C) 0x10).has (provReg v 0xC) := by
  have h := RegSet.has_rows (hmBlock + 0x300C) 0x10 v
  rwa [show hmBlock + 0x300C + v * 0x10 = provReg v 0xC by unfold provReg; omega] at h

theorem Spares.writeProv (h : Spares k s₀ s) {i event part} (hk : Footprint.provenance.within k = true := by rfl) :
    Spares k s₀ (s.writeProv i event part) := h.grow hk fun h => by
  unfold State.writeProv
  extract_lets
  split
  · exact h
  · split
    next u e =>
      have hu : Spares .provenance s u := h.tenantWrite.of_fst e
      exact hu.setIn (has_provSeq _)
    next u e =>
      have hu : Spares .provenance s u := h.tenantWrite.of_fst e
      exact hu.count

theorem Spares.dumpStatus (h : Spares k s₀ s) {f entry tag status len} (hk : Footprint.posts.within k = true := by rfl) :
    Spares k s₀ (s.dumpStatus f entry tag status len) := h.grow hk fun h => by
  unfold State.dumpStatus
  extract_lets _ _ t t₁
  have ht : Spares .posts s t := h.tenantWrite
  have ht₁ : Spares .posts s t₁ := ht.tenantWrite
  exact .ite ht₁ ht₁.fnCount

theorem Spares.bindDumps (h : Spares k s₀ s) {i} (hk : Footprint.delivers.within k = true := by rfl) :
    Spares k s₀ (s.bindDumps i) := h.grow hk fun h => by
  unfold State.bindDumps
  extract_lets
  split
  · exact h
  · split
    next t e =>
      exact h.tenantRead.of_fst e
    next t _ e =>
      have ht : Spares .delivers s t := h.tenantRead.of_fst e
      exact foldl_keeps (fun t₁ x ht₁ => by
          extract_lets
          exact .ite ht₁ (.ite ht₁.dumpStatus ht₁.modMan)) _ ht

theorem Spares.writeDump (h : Spares k s₀ s) {i b d} (hk : Footprint.posts.within k = true := by rfl) :
    Spares k s₀ (s.writeDump i b d) := h.grow hk fun h => by
  unfold State.writeDump
  extract_lets
  split
  · exact h.dumpStatus
  · extract_lets
    split
    next t e =>
      have ht : Spares .posts s t := h.tenantWrite.of_fst e
      exact ht.dumpStatus
    next t e =>
      have ht : Spares .posts s t := h.tenantWrite.of_fst e
      split
      next t₁ e₁ =>
        have ht₁ : Spares .posts s t₁ := ht.tenantWrite.of_fst e₁
        exact ht₁.dumpStatus
      next t₁ e₁ =>
        have ht₁ : Spares .posts s t₁ := ht.tenantWrite.of_fst e₁
        exact ht₁.dumpStatus.fnCount

theorem Spares.dueDumps (h : Spares k s₀ s) {i ds} (hk : Footprint.delivers.within k = true := by rfl) :
    Spares k s₀ (s.dueDumps i ds) := h.grow hk fun h => foldl_keeps (fun _ _ ht => ht.writeDump) _ h.setMan

theorem Spares.dropDumps (h : Spares k s₀ s) {i} (hk : Footprint.delivers.within k = true := by rfl) :
    Spares k s₀ (s.dropDumps i) := h.grow hk fun h => foldl_keeps (fun _ _ ht => ht.dumpStatus) _ h.setMan

theorem Spares.svLog (h : Spares k s₀ s) {f words} (hp : k.parts.contains .hm = true := by rfl) :
    Spares k s₀ (s.svLog f words) := by
  unfold State.svLog
  extract_lets
  split
  · exact h
  · extract_lets
    exact h.hm hp

theorem Spares.svRelease (h : Spares k s₀ s) {i} (hk : Footprint.tables.within k = true := by rfl) :
    Spares k s₀ (s.svRelease i) := h.grow hk fun h => by
  unfold State.svRelease
  split
  · exact h
  · exact h.svLog.modMan

theorem Spares.svPack (h : Spares k s₀ s)  (hp : k.parts.contains .hm = true := by rfl) : Spares k s₀ s.svPack := h.hm hp

theorem Spares.svStart (h : Spares k s₀ s)  (hp : k.parts.contains .hm = true := by rfl) : Spares k s₀ s.svStart :=
  .ite h (h.svPack hp)

theorem Spares.freeMan (h : Spares k s₀ s) {i} (hk : Footprint.tables.within k = true := by rfl) :
    Spares k s₀ (s.freeMan i) := h.grow hk fun h => h.setMan

theorem Spares.prefillOver (h : Spares k s₀ s) {i} (hk : Footprint.tables.within k = true := by rfl) :
    Spares k s₀ (s.prefillOver i) := h.grow hk fun h => by
  unfold State.prefillOver
  extract_lets _ _ t
  have ht : Spares .tables s t := h.hm
  split
  · exact .ite ht.modMan ht
  · exact ht

theorem Spares.abortPrefill (h : Spares k s₀ s) {i} (hk : Footprint.ends.within k = true := by rfl) :
    Spares k s₀ (s.abortPrefill i) := h.grow hk fun h => by
  unfold State.abortPrefill
  extract_lets _ _ _ t t₁
  have ht : Spares .ends s t := by
    unfold t
    split
    · exact h.abortCtx
    · exact h
  have ht₁ : Spares .ends s t₁ := foldl_keeps (fun t₂ x ht₂ => by
      extract_lets
      exact ht₂.postRecord) _ ht
  exact .ite h.prefillOver ht₁.sh.serveWait.prefillOver

theorem Spares.freeRecord (h : Spares k s₀ s) {i} (hk : Footprint.tables.within k = true := by rfl) :
    Spares k s₀ (s.freeRecord i) := h.grow hk fun h => .ite h.putPeer h

theorem Spares.reclaim (h : Spares k s₀ s) {i} (hk : Footprint.ends.within k = true := by rfl) :
    Spares k s₀ (s.reclaim i) := h.grow hk fun h => h.abortPrefill.freeRecord.modMan.releaseBerths.svRelease.freeMan

theorem Spares.endRequest (h : Spares k s₀ s) {i event status reason} (hk : Footprint.ends.within k = true := by rfl) :
    Spares k s₀ (s.endRequest i event status reason) := h.grow hk fun h => by
  unfold State.endRequest
  extract_lets t t₁
  have ht : Spares .ends s t := h.flushTokens.dropDumps
  have ht₁ : Spares .ends s t₁ := .ite ht ht.writeProv
  exact ht₁.postEvent.reclaim

theorem Spares.makeReady (h : Spares k s₀ s) {i} (hk : Footprint.tables.within k = true := by rfl) :
    Spares k s₀ (s.makeReady i) := h.grow hk fun h => by
  unfold State.makeReady
  extract_lets _ t
  have ht : Spares .tables s t := h.setMan
  exact .ite ht ht.hm

theorem Spares.pauseLanded (h : Spares k s₀ s) {i} (hk : Footprint.tables.within k = true := by rfl) :
    Spares k s₀ (s.pauseLanded i) := h.grow hk fun h => .ite h.takeCkpt h

theorem Spares.pauseMoves (h : Spares k s₀ s) {i mv} (hk : Footprint.tables.within k = true := by rfl) :
    Spares k s₀ (s.pauseMoves i mv) := h.grow hk fun h => by
  unfold State.pauseMoves
  extract_lets _ _ _ t
  have ht : Spares .tables s t := foldl_keeps (fun t₁ x ht₁ => by
      split
      · extract_lets
        exact ht₁.setBerth
      · exact ht₁) _ h
  exact ht.modMan.pauseLanded

theorem Spares.pauseBegin (h : Spares k s₀ s) {i reason cmd} (hk : Footprint.holds.within k = true := by rfl) :
    Spares k s₀ (s.pauseBegin i reason cmd) := h.grow hk fun h => by
  unfold State.pauseBegin
  extract_lets _ s₁ s₂ s₃ s₄
  have hs₁ : Spares .holds s s₁ := h.flushTokens.dropDumps
  have hs₂ : Spares .holds s s₂ := .ite hs₁.growBerth hs₁
  have hs₃ : Spares .holds s s₃ := .ite hs₂.setWritten hs₂
  have hs₄ : Spares .holds s s₄ := hs₃.issueMirror
  split
  · exact h.modMan.btHold
  · split
    · exact .ite hs₄.endRequest hs₄.endRequest
    · exact hs₄.setMan.pauseMoves

theorem Spares.turnEnds (h : Spares k s₀ s) {i reason} (hk : Footprint.holds.within k = true := by rfl) :
    Spares k s₀ (s.turnEnds i reason) := h.grow hk fun h => .ite h.pauseBegin h.endRequest

theorem Spares.countSel (h : Spares k s₀ s) (hk : Footprint.counted.within k = true := by rfl) :
    Spares k s₀ s.countSel := h.grow hk fun h => h.setReg.setReg

theorem Spares.acceptToken (h : Spares k s₀ s) {i tok stop z} (hk : Footprint.tables.within k = true := by rfl) :
    Spares k s₀ (s.acceptToken i tok stop z) := h.grow hk fun h => h.setMan

theorem Spares.noToken (h : Spares k s₀ s) {i} (hk : Footprint.empties.within k = true := by rfl) :
    Spares k s₀ (s.noToken i) := h.grow hk fun h => by
  unfold State.noToken
  split
  · exact h.count
  · exact h.count

end

/-! #### Requests -/

/-- What a command itself may change, with device memory of a zone. -/
def Instr.footprint (c : Instr) (z : Zone) : Footprint := ⟨c.touches, c.regSets, z⟩

/-- A command is refused (R146). -/
def Footprint.refusals : Footprint := Footprint.posts.plus ⟨[.regs], [.one (hmBlock + 0x040)], .none⟩

/-- A request's first token (R151, R152). -/
def Footprint.firsts : Footprint := Footprint.holds.plus .selects

/-- A prefill is placed, and grows (R151). -/
def Footprint.places : Footprint where
  parts := [.ecc, .sh, .hm, .regs, .mem]
  regs := [.one (hmBlock + 0x044), .one (hmBlock + 0x048), .one (hmBlock + 0x050), .rows esBlock 0x1000]
  zone := .any

/-- A decode step ends, and the next batch forms (R153, R156). -/
def Footprint.steps : Footprint := Footprint.holds.plus ⟨[.regs], [.one (hmBlock + 0x048), .one (hmBlock + 0x050)], .none⟩

section
set_option Elab.async false
variable {k : Footprint} {s₀ s : State}

theorem NextSpares.of {o : Out} (h : Spares k s s → NextSpares k s o) : NextSpares k s o := h (.refl k s)

theorem Spares.takeCmd (h : Spares k s₀ s) {f sq e} (hp : k.parts.contains .hm = true := by rfl) :
    Spares k s₀ (s.takeCmd f sq e) := by
  unfold State.takeCmd
  extract_lets
  split
  · exact .ite (h.hm hp) h
  · exact h

theorem Spares.refuse (h : Spares k s₀ s) {f e rid status} (hk : Footprint.refusals.within k = true := by rfl) :
    Spares k s₀ (s.refuse f e rid status) := h.grow hk fun h => by
  unfold State.refuse
  extract_lets s₁
  have hs₁ : Spares .refusals s s₁ := .ite h.count.fnCount h
  exact hs₁.postCq

theorem Spares.ack (h : Spares k s₀ s) {f e} (hk : Footprint.posts.within k = true := by rfl) :
    Spares k s₀ (s.ack f e) := h.grow hk fun h => h.postCq

theorem Spares.allocMan (h : Spares k s₀ s) (hp : k.parts.contains .hm = true := by rfl) :
    Spares k s₀ s.allocMan := .ite (h.hm hp) (h.hm hp)

theorem nextSpares_execSubmit (f sq entry) : NextSpares ((Instr.submit f sq entry).footprint .any) s
    (execSubmit f sq entry s) := .of fun h => by
  unfold execSubmit
  extract_lets _ t _ _ t₁
  have ht : Spares _ s t := h.takeCmd
  have ht₁ : Spares _ s t₁ := .ite ht ht.drew
  refine .unlessHalted (.onlyIf ?_)
  split
  · exact ht.refuse
  · exact ht.refuse
  · extract_lets _ u
    have hu : Spares _ s u := ht₁.allocMan.setMan.postEvent
    exact .ite hu (Spares.endRequest (by split <;> exact hu.count))

theorem Spares.requestCmd (h : Spares k s s) {opc f sq entry} {act : SubEntry → Nat → Manifest → State → State}
    (hact : ∀ e i m t, Spares k s t → Spares k s (act e i m t)) (hp : k.parts.contains .hm = true := by rfl)
    (hk : Footprint.refusals.within k = true := by rfl) :
    NextSpares k s (s.requestCmd opc f sq entry act) := by
  unfold State.requestCmd
  extract_lets e t
  have ht : Spares k s t := h.takeCmd hp
  refine .unlessHalted (.onlyIf (.ite (ht.refuse hk) ?_))
  split
  · exact ht.refuse hk
  · exact hact _ _ _ _ ht

theorem nextSpares_execPause (f sq entry) : NextSpares ((Instr.pause f sq entry).footprint .any) s
    (execPause f sq entry s) := .of fun h => by
  unfold execPause
  refine h.requestCmd fun e i m t ht => ?_
  split
  · exact ht.refuse
  · split
    · exact ht.setMan.ack
    · exact ht.setMan.ack
    · exact ht.setMan.ack
    · exact ht.ack.pauseBegin
    · exact ht.setMan.ack
    · exact ht.refuse

theorem Spares.doResume (h : Spares k s₀ s) {i entry} (hk : Footprint.delivers.within k = true := by rfl) :
    Spares k s₀ (s.doResume i entry) := h.grow hk fun h => by
  unfold State.doResume
  extract_lets _ t
  have ht : Spares .delivers s t := h.postEvent
  exact .ite ht.setMan.bindDumps.makeReady ht.setMan

theorem nextSpares_execResume (f sq entry) : NextSpares ((Instr.resume f sq entry).footprint .hd) s
    (execResume f sq entry s) := .of fun h => by
  unfold execResume
  refine h.requestCmd fun e i m t ht => ?_
  dsimp only
  split
  · exact ht.refuse
  · exact .ite ht.setMan.ack ht.setMan.ack.doResume

theorem nextSpares_execCancel (f sq entry) : NextSpares ((Instr.cancel f sq entry).footprint .any) s
    (execCancel f sq entry s) := .of fun h => by
  unfold execCancel
  refine h.requestCmd fun e i m t ht => ?_
  split
  · exact .ite ht.refuse ht.setMan.ack
  · exact ht.ack.endRequest
  · exact ht.ack.endRequest
  · exact ht.ack.endRequest
  · exact ht.ack.endRequest
  · exact ht.ack.endRequest
  · exact ht.ack.endRequest
  · exact ht.refuse

theorem nextSpares_execTouch (f sq entry) : NextSpares ((Instr.touch f sq entry).footprint .hd) s
    (execTouch f sq entry s) := .of fun h => by
  unfold execTouch
  refine h.requestCmd fun e i m t ht => ?_
  extract_lets
  split
  · exact ht.refuse
  · split
    · exact ht.setMan.ack
    · exact .ite ht.refuse ht.setMan.ack
    · exact ht.refuse

theorem nextSpares_execSqBadOpcode (f sq entry) : NextSpares ((Instr.sqBadOpcode f sq entry).footprint .none) s
    (execSqBadOpcode f sq entry s) := .of fun h => by
  unfold execSqBadOpcode
  extract_lets _ t
  have ht : Spares _ s t := h.takeCmd
  exact .unlessHalted (.onlyIf ht.drew.refuse)

theorem Spares.promptRead (h : Spares k s₀ s) {i e} (hk : Footprint.ends.within k = true := by rfl) :
    Spares k s₀ (s.promptRead i e) := h.grow hk fun h => by
  unfold State.promptRead
  extract_lets
  split
  next t e₁ =>
    have ht : Spares .ends s t := h.tenantRead.of_fst e₁
    exact ht.endRequest
  next t _ e₁ =>
    have ht : Spares .ends s t := h.tenantRead.of_fst e₁
    split
    next t₁ e₂ =>
      have ht₁ : Spares .ends s t₁ := ht.tenantRead.of_fst e₂
      exact ht₁.endRequest
    next t₁ _ e₂ =>
      have ht₁ : Spares .ends s t₁ := ht.tenantRead.of_fst e₂
      extract_lets
      split
      · exact ht₁.endRequest
      · extract_lets
        split
        · exact ht₁.endRequest
        · split
          · exact ht₁.setMan.bindDumps
          · split
            · exact ht₁.setMan.bindDumps
            · split
              next t₂ e₃ =>
                have ht₂ : Spares .ends s t₂ := ht₁.tenantRead.of_fst e₃
                exact ht₂.endRequest
              next t₂ _ e₃ =>
                have ht₂ : Spares .ends s t₂ := ht₁.tenantRead.of_fst e₃
                split
                · exact ht₂.endRequest
                · exact ht₂.setMan.bindDumps

theorem Spares.appendRead (h : Spares k s₀ s) {i e} (hk : Footprint.ends.within k = true := by rfl) :
    Spares k s₀ (s.appendRead i e) := h.grow hk fun h => by
  unfold State.appendRead
  extract_lets
  split
  next t e₁ =>
    have ht : Spares .ends s t := h.tenantRead.of_fst e₁
    exact ht.endRequest
  next t _ e₁ =>
    have ht : Spares .ends s t := h.tenantRead.of_fst e₁
    extract_lets
    split
    · exact ht.endRequest
    · exact ht.setMan.bindDumps

theorem nextSpares_execPromptReadDone (i) : NextSpares ((Instr.promptReadDone i).footprint .any) s
    (execPromptReadDone i s) := .of fun h => .unlessHalted (.onlyIf (.ite h.promptRead h.appendRead))

theorem Spares.contextFor (h : Spares k s₀ s) {d vf slot} (hk : Footprint.stops.within k = true := by rfl) :
    Spares k s₀ (s.contextFor d vf slot).1 := h.grow hk fun h => by
  unfold State.contextFor
  split
  · exact h
  · split
    · exact h
    · exact h.evict

theorem Spares.addBerths (h : Spares k s₀ s) {i fs} (hk : Footprint.tables.within k = true := by rfl) :
    Spares k s₀ (s.addBerths i fs).1 := by
  induction fs generalizing s with
  | nil => exact h
  | cons p fs ih =>
    unfold State.addBerths
    split
    next u e => exact ih ((h.addBerth hk).of_fst e)
    next u e => exact (h.addBerth hk).of_fst e

theorem Spares.growPrefill (h : Spares k s₀ s) {i n} (hk : Footprint.places.within k = true := by rfl) :
    Spares k s₀ (s.growPrefill i n) := h.grow hk fun h => by
  unfold State.growPrefill
  extract_lets
  split
  · exact h
  · split
    · exact h.waitOnce
    · split
      next u e =>
        have hu : Spares .places s u := h.addBerths.of_fst e
        exact hu.modMan
      next u e =>
        have hu : Spares .places s u := h.addBerths.of_fst e
        exact hu.btHold

theorem Spares.placePrefill (h : Spares k s₀ s) {i n got} (hk : Footprint.places.within k = true := by rfl) :
    Spares k s₀ (s.placePrefill i n got) := h.grow hk fun h => by
  unfold State.placePrefill
  extract_lets m r part sram rest
  clear_value part sram
  refine .ite h.waitOnce ?_
  split
  next v e => exact h.contextFor.of_fst e
  next v e =>
    have hv : Spares .places s v := h.contextFor.of_fst e
    extract_lets t
    have ht : Spares .places s t := by
      unfold t
      split
      · exact hv.copyBerth.setBerth
      · exact hv
    split
    · exact h.btHold
    next u e => exact ((ht.addBerths.of_fst e).modMan).hm

theorem nextSpares_execPrefillPlace (i peer) : NextSpares ((Instr.prefillPlace i peer).footprint .any) s
    (execPrefillPlace i peer s) := .of fun h => by
  unfold execPrefillPlace
  extract_lets
  refine .unlessHalted ?_
  split
  · refine .onlyIf ?_
    split
    · exact h.waitOnce
    · exact h.modMan.placePrefill
  · exact .onlyIf h.growPrefill

theorem Spares.firstToken (h : Spares k s₀ s) {i logits dumps} (hk : Footprint.firsts.within k = true := by rfl) :
    Spares k s₀ (s.firstToken i logits dumps) := h.grow hk fun h => by
  unfold State.firstToken
  extract_lets _ u
  have hu : Spares .firsts s u := .ite h h.countSel
  split
  · exact h.noToken.endRequest
  · extract_lets u₁
    have hu₁ : Spares .firsts s u₁ := hu.acceptToken.emitTokens.dueDumps
    split
    · exact hu₁.turnEnds
    · exact .ite hu₁.pauseBegin hu₁.makeReady

theorem Spares.arrival (h : Spares k s₀ s) {rid} {act : Nat → Manifest → State} (hact : ∀ i m, Spares k s₀ (act i m))
    (hr : k.regs.contains (.one (hmBlock + 0x040)) = true := by rfl) (hp : k.parts.contains .regs = true := by rfl) :
    Spares k s₀ (s.arrival rid act) := .ite (hact _ _) (h.count hr hp)

theorem nextSpares_execPrefillDone (rid logits dumps) : NextSpares ((Instr.prefillDone rid logits dumps).footprint .any) s
    (execPrefillDone rid logits dumps s) := .of fun h => by
  unfold execPrefillDone
  refine .unlessHalted (.next (h.arrival fun i m => ?_))
  extract_lets t t₁
  have ht : Spares _ s t := h.setWritten.modMan.fnCount
  have ht₁ : Spares _ s t₁ := ht.prefillOver.issueMirror
  exact .ite h (.ite h.endRequest (.ite h ht₁.firstToken))

theorem Spares.afterStep (h : Spares k s₀ s) {dumps i} (hk : Footprint.steps.within k = true := by rfl) :
    Spares k s₀ (s.afterStep dumps i) := h.grow hk fun h => by
  unfold State.afterStep
  extract_lets t _ u
  have ht : Spares .steps s t := h.modMan.dueDumps
  have hu : Spares .steps s u := .ite ht.growBerth ht
  split
  · exact ht.endRequest
  · exact ht.reclaim
  · exact ht.endRequest
  · exact ht.endRequest
  · exact .ite ht.pauseBegin ht.pauseBegin
  · exact ht.pauseBegin
  · exact .ite ht.pauseBegin ht.endRequest
  · exact hu.setWritten

theorem Spares.rejoin (h : Spares k s₀ s) {i} (hk : Footprint.steps.within k = true := by rfl) :
    Spares k s₀ (s.rejoin i) := h.grow hk fun h => by
  unfold State.rejoin
  extract_lets _ t g t₁
  have ht : Spares .steps s t := h.takeSpare
  have hg : Spares .steps s g.1 := by
    unfold g
    split
    · exact ht.growBerth
    · exact ht
  have ht₁ : Spares .steps s t₁ := .ite hg.takeSpare hg
  exact .ite h.setMan (.ite ht₁.btHold.modMan (.ite ht₁.waitOnce.modMan ht₁.modMan))

theorem Spares.joinBatch (h : Spares k s₀ s) {i} (hk : Footprint.steps.within k = true := by rfl) :
    Spares k s₀ (s.joinBatch i) := h.grow hk fun h => by
  unfold State.joinBatch
  extract_lets _ _ _ t
  have ht : Spares .steps s t := h.setMan
  exact .ite h (.ite h.waitOnce (.ite ht.growBerth.rejoin ht))

theorem Spares.sitOut (h : Spares k s₀ s) {slot} (hp : k.parts.contains .counts = true := by rfl) :
    Spares k s₀ (s.sitOut slot) := foldl_keeps (fun _ _ ht => .ite (ht.fnCount hp) ht) _ h

theorem Spares.formBatch (h : Spares k s₀ s) {slot} (hk : Footprint.steps.within k = true := by rfl) :
    Spares k s₀ (s.formBatch slot) := h.grow hk fun h => by
  unfold State.formBatch
  extract_lets _ t t₁ u
  have ht : Spares .steps s t := foldl_keeps (fun _ _ ht₂ => ht₂.rejoin) _ h
  have ht₁ : Spares .steps s t₁ := foldl_keeps (fun _ _ ht₂ => ht₂.joinBatch) _ ht
  have hu : Spares .steps s u := .ite ht₁ ht₁.sitOut
  exact hu.hm

theorem Spares.nextBatch (h : Spares k s₀ s) {slots} (hk : Footprint.steps.within k = true := by rfl) :
    Spares k s₀ (s.nextBatch slots) := by
  induction slots generalizing s with
  | nil => exact h.grow hk fun h => h.hm
  | cons slot slots ih => exact .ite (ih (h.formBatch hk)) (h.formBatch hk)

theorem Spares.chargeStep (h : Spares k s₀ s) {is_} (hk : Footprint.sharing.within k = true := by rfl) :
    Spares k s₀ (s.chargeStep is_) := h.grow hk fun h => foldl_keeps (fun _ _ ht => ht.charge) _ h.settle

theorem Spares.checkpointAll (h : Spares k s₀ s) (hk : Footprint.tables.within k = true := by rfl) :
    Spares k s₀ s.checkpointAll := h.grow hk fun h => by
  unfold State.checkpointAll
  extract_lets _ t
  have ht : Spares .tables s t := foldl_keeps (fun _ _ ht₁ => ht₁.takeCkpt) _ h
  exact .ite h.hm (.ite h ht.hm)

theorem Spares.endStep (h : Spares k s₀ s) {dumps} (hk : Footprint.steps.within k = true := by rfl) :
    Spares k s₀ (s.endStep dumps) := h.grow hk fun h => by
  unfold State.endStep
  extract_lets _ u _ u₁ u₂ u₃
  have hu : Spares .steps s u := h.chargeStep
  have hu₁ : Spares .steps s u₁ := hu.hm
  have hu₂ : Spares .steps s u₂ := hu₁.trace
  have hu₃ : Spares .steps s u₃ := .ite (foldl_keeps (fun _ _ ht => ht.modMan) _ hu₂) hu₂
  exact (foldl_keeps (fun _ _ ht => ht.afterStep) _ hu₃).checkpointAll

theorem Spares.leaveIdle (h : Spares k s₀ s) {dumps} (hk : Footprint.steps.within k = true := by rfl) :
    Spares k s₀ (s.leaveIdle dumps) := h.grow hk fun h => foldl_keeps (fun _ _ ht => ht.afterStep) _ h

theorem Spares.formNext (h : Spares k s₀ s) (hk : Footprint.steps.within k = true := by rfl) :
    Spares k s₀ s.formNext := h.grow hk fun h => by
  unfold State.formNext
  extract_lets _ t t₁
  have ht : Spares .steps s t := h.hm
  have ht₁ : Spares .steps s t₁ := foldl_keeps (fun _ _ ht₂ => ht₂.modMan) _ ht
  exact .ite ht₁.hm ht₁.nextBatch

theorem nextSpares_execDecodeStepBoundary (dumps) : NextSpares ((Instr.decodeStepBoundary dumps).footprint .any) s
    (execDecodeStepBoundary dumps s) := .of fun h => .unlessHalted (.onlyIf (((Spares.ite h.endStep h).leaveIdle).formNext))

theorem Spares.startStep (h : Spares k s₀ s) {i} (hk : Footprint.tables.within k = true := by rfl) :
    Spares k s₀ (s.startStep i) := h.grow hk fun h => by
  unfold State.startStep
  extract_lets _ _ t
  have ht : Spares .tables s t := .ite h h.setMan
  exact ht.issueMirror

theorem nextSpares_execDecodeStepStart :
    NextSpares (Instr.decodeStepStart.footprint .hd) s (execDecodeStepStart s) := .of fun h => by
  unfold execDecodeStepStart
  extract_lets t
  have ht : Spares _ s t := foldl_keeps (fun _ _ ht₁ => ht₁.startStep) _ h
  exact .unlessHalted (.onlyIf ht.hm)

theorem Spares.berthLands (h : Spares k s₀ s) {i j t f} (hk : Footprint.tables.within k = true := by rfl) :
    Spares k s₀ (s.berthLands i j t f) := h.grow hk fun h => by
  unfold State.berthLands
  extract_lets
  split
  · exact h
  · extract_lets _ _ _ u
    have hu : Spares .tables s u := h.setBerth
    exact hu.modMan

theorem nextSpares_execBerthSliceArrive (rid berth slice layer data) :
    NextSpares ((Instr.berthSliceArrive rid berth slice layer data).footprint .any) s
      (execBerthSliceArrive rid berth slice layer data s) := .of fun h => by
  unfold execBerthSliceArrive
  extract_lets
  refine .unlessHalted (.next (h.arrival fun i m => ?_))
  extract_lets
  split
  · extract_lets _ _ t t₁ u
    have ht : Spares _ s t := h.sliceStore
    have ht₁ : Spares _ s t₁ := ht.modMan
    have hu : Spares _ s u := ht₁.berthLands
    exact .ite h (.ite h.setMan (.ite ht₁ (.ite ht₁.setBerth (.ite hu.pauseLanded hu))))
  · exact h

theorem nextSpares_execPullSourceError (rid peer) : NextSpares ((Instr.pullSourceError rid peer).footprint .hd) s
    (execPullSourceError rid peer s) := .of fun h => by
  unfold execPullSourceError
  refine .unlessHalted (.next (h.arrival fun i m => ?_))
  exact .ite h.setMan h

theorem nextSpares_execMirrorCopyDone (rid berth) : NextSpares ((Instr.mirrorCopyDone rid berth).footprint .hd) s
    (execMirrorCopyDone rid berth s) := .of fun h => by
  unfold execMirrorCopyDone
  refine .unlessHalted (.next (h.arrival fun i m => ?_))
  extract_lets
  split
  · extract_lets _ t t₁
    have ht : Spares _ s t := h.setMan
    have ht₁ : Spares _ s t₁ := .ite ht ht.putPeer.setBerth
    exact ht₁.sendRecord
  · exact h

theorem nextSpares_execCheckpointCommit (rid) : NextSpares ((Instr.checkpointCommit rid).footprint .hd) s
    (execCheckpointCommit rid s) := .of fun h => by
  unfold execCheckpointCommit
  refine .unlessHalted (.next (h.arrival fun i m => ?_))
  split
  · exact .ite h.setMan h
  · exact h

theorem nextSpares_execCheckpointFail (rid) : NextSpares ((Instr.checkpointFail rid).footprint .hd) s
    (execCheckpointFail rid s) := .of fun h => by
  unfold execCheckpointFail
  refine .unlessHalted (.next (h.arrival fun i m => ?_))
  exact .ite h.setMan.count h

theorem nextSpares_execPauseComplete (i) : NextSpares ((Instr.pauseComplete i).footprint .any) s
    (execPauseComplete i s) := .of fun h => by
  unfold execPauseComplete
  extract_lets _ t t₁
  have ht : Spares _ s t := h.writeProv.postEvent
  have ht₁ : Spares _ s t₁ := ht.modMan
  exact .unlessHalted (.onlyIf (.ite ht₁.doResume ht₁))

theorem nextSpares_execExpirySweep : NextSpares (Instr.expirySweep.footprint .any) s (execExpirySweep s) := .of fun h => by
  unfold execExpirySweep
  extract_lets t
  have ht : Spares _ s t := h.reachNs
  exact .unlessHalted (.next (foldl_keeps (fun _ _ ht₁ => ht₁.endRequest) _ ht))

theorem nextSpares_execManifestQuietEnd (i) : NextSpares ((Instr.manifestQuietEnd i).footprint .hd) s
    (execManifestQuietEnd i s) := .of fun h => by
  unfold execManifestQuietEnd
  extract_lets _ t u
  have ht : Spares _ s t := h.reachRaw
  have hu : Spares _ s u := ht.setMan
  exact .unlessHalted (.onlyIf hu.hm)

theorem nextSpares_execBtRebuildStart : NextSpares (Instr.btRebuildStart.footprint .none) s (execBtRebuildStart s) :=
  .of fun h => .unlessHalted (.onlyIf h.btStart)

theorem nextSpares_execHmBtStart (m) : NextSpares ((Instr.hmBtStart m).footprint .none) s
    (execHmBtStart m s) := .of fun h => .agentIf h.btStart

theorem Spares.writeShadow (h : Spares k s₀ s) (hk : Footprint.tables.within k = true := by rfl) :
    Spares k s₀ s.writeShadow := h.grow hk fun h => by
  unfold State.writeShadow
  extract_lets _ t
  have ht : Spares .tables s t := h.clearHd fun a ha => by
    obtain ⟨hlo, -⟩ := Bool.and_eq_true_iff.mp ha
    exact Nat.le_trans (hd_le_btBase s false) (of_decide_eq_true hlo)
  exact foldl_keeps (fun _ _ ht₁ => ht₁.storeHd (Nat.le_add_right_of_le (hd_le_btBase s false))) _ ht

theorem nextSpares_execBtRebuildPassEnd :
    NextSpares (Instr.btRebuildPassEnd.footprint .hd) s (execBtRebuildPassEnd s) := .of fun h => by
  unfold execBtRebuildPassEnd
  extract_lets t
  have ht : Spares _ s t := h.writeShadow
  split
  · exact .next h
  · exact .unlessHalted (.next ht.hm)

theorem nextSpares_execBtFlip : NextSpares (Instr.btFlip.footprint .hd) s (execBtFlip s) := .of fun h => by
  unfold execBtFlip
  extract_lets _ _ t t₁
  have ht : Spares _ s t := h.hm
  have ht₁ : Spares _ s t₁ := foldl_keeps (fun _ _ ht₂ => ht₂.modMan) _ ht
  exact .unlessHalted (.onlyIf ht₁)

theorem nextSpares_execBtRebuildRestart : NextSpares (Instr.btRebuildRestart.footprint .none) s (execBtRebuildRestart s) :=
  .of fun h => .unlessHalted (.onlyIf h.hm)

theorem Spares.setSlot (h : Spares k s₀ s) {j r} (hp : k.parts.contains .slots = true := by rfl) :
    Spares k s₀ (s.setSlot j r) := h.slots hp

theorem Spares.slotError (h : Spares k s₀ s) {j code} (hp : k.parts.contains .hm = true := by rfl) :
    Spares k s₀ (s.slotError j code) := h.hm hp

theorem nextSpares_execHmSlotLoad (m k) : NextSpares ((Instr.hmSlotLoad m k).footprint .none) s
    (execHmSlotLoad m k s) := .of fun h => by
  unfold execHmSlotLoad
  extract_lets
  refine .agentIf ?_
  split
  · exact h.slotError.mgmtEvent
  · split
    · exact h.slotError.setSlot
    · exact h.slotError.mgmtEvent

theorem nextSpares_execSlotLoadDone (k r) : NextSpares ((Instr.slotLoadDone k r).footprint .any) s
    (execSlotLoadDone k r s) := .of fun h => by
  unfold execSlotLoadDone
  extract_lets _ _ _ _ t
  have ht : Spares _ s t := foldl_keeps (fun _ _ ht₁ => ht₁.store) _ h
  refine .unlessHalted (.onlyIf ?_)
  split
  · exact h.setSlot.slotError.mgmtEvent
  · split
    · exact h.setSlot.slotError.mgmtEvent
    · exact ht.setSlot.slotError.mgmtEvent

theorem nextSpares_execHmSlotUnload (m k) : NextSpares ((Instr.hmSlotUnload m k).footprint .none) s
    (execHmSlotUnload m k s) := .of fun h => .agentIf (.ite h.setSlot.slotError h.slotError.mgmtEvent)

theorem Spares.unloadAll (h : Spares k s₀ s) {j} (hk : Footprint.ends.within k = true := by rfl) :
    Spares k s₀ (s.unloadAll j) := h.grow hk fun h => foldl_keeps (fun t x ht => by
    extract_lets
    exact .ite ht.setMan ht.endRequest) _ h

theorem nextSpares_execHmSlotUnloadForce (m k) : NextSpares ((Instr.hmSlotUnloadForce m k).footprint .any) s
    (execHmSlotUnloadForce m k s) := .of fun h => by
  unfold execHmSlotUnloadForce
  extract_lets _ t
  have ht : Spares _ s t := h.setSlot.unloadAll
  exact .agentIf (.ite ((Spares.ite ht ht.setSlot.mgmtEvent).slotError) h.slotError.mgmtEvent)

theorem nextSpares_execSlotDrainDone (k) : NextSpares ((Instr.slotDrainDone k).footprint .none) s
    (execSlotDrainDone k s) := .of fun h => .unlessHalted (.onlyIf h.setSlot.mgmtEvent)

theorem nextSpares_execHmCkptWrite (m v) : NextSpares ((Instr.hmCkptWrite m v).footprint .none) s
    (execHmCkptWrite m v s) := .of fun h => .agentIf h.setReg

theorem nextSpares_execHmQuietWrite (m v) : NextSpares ((Instr.hmQuietWrite m v).footprint .none) s
    (execHmQuietWrite m v s) := .of fun h => .agentIf h.setReg

end

/-! #### Tokens and automata -/

/-- A token is selected, and reaches the tenant (R145, R168). -/
def Footprint.chooses : Footprint := Footprint.delivers.plus .selects

/-- Drafted tokens are verified (R174). -/
def Footprint.verifies : Footprint := Footprint.tables.plus .selects

section
set_option Elab.async false
variable {k : Footprint} {s₀ s : State}

theorem Spares.stepSelect (h : Spares k s₀ s) {i logits} (hk : Footprint.chooses.within k = true := by rfl) :
    Spares k s₀ (s.stepSelect i logits) := h.grow hk fun h => by
  unfold State.stepSelect
  extract_lets _ t
  have ht : Spares .chooses s t := .ite h h.countSel
  split
  · exact h.noToken.modMan
  · exact ht.acceptToken.emitTokens.modMan

theorem nextSpares_execRakeSelect (rid logits) : NextSpares ((Instr.rakeSelect rid logits).footprint .hd) s
    (execRakeSelect rid logits s) := .of fun h => by
  unfold execRakeSelect
  refine .unlessHalted (.next (h.arrival fun i m => ?_))
  exact .ite h.stepSelect h

theorem nextSpares_execSieveSelect (rid logits) : NextSpares ((Instr.sieveSelect rid logits).footprint .hd) s
    (execSieveSelect rid logits s) := .of fun h => by
  unfold execSieveSelect
  refine .unlessHalted (.next (h.arrival fun i m => ?_))
  exact .ite h.stepSelect h

theorem nextSpares_execSpecDraft (rid logits) : NextSpares ((Instr.specDraft rid logits).footprint .hd) s
    (execSpecDraft rid logits s) := .of fun h => by
  unfold execSpecDraft
  refine .unlessHalted (.next (h.arrival fun i m => ?_))
  extract_lets _ t t₁
  have ht : Spares _ s t := h.setMan.count.fnCount
  have ht₁ : Spares _ s t₁ := .ite ht (foldl_keeps (fun _ _ ht₂ => ht₂.countSel) _ ht)
  exact .ite ht₁ h

theorem Spares.verify (h : Spares k s₀ s) {i j xs ls} (hk : Footprint.verifies.within k = true := by rfl) :
    Spares k s₀ (s.verify i j xs ls).1 := by
  induction ls generalizing s j xs with
  | nil =>
    unfold State.verify
    exact h
  | cons l ls ih =>
    unfold State.verify
    extract_lets m
    split
    · exact h
    next tok stop z _ =>
      extract_lets t
      have ht : Spares k s₀ t := h.grow hk fun h => (Spares.ite h h.countSel).acceptToken
      split
      · split
        · split
          · exact ht
          · exact ih ht
        · exact ht
      · exact ht

theorem nextSpares_execSpecVerify (rid logits) : NextSpares ((Instr.specVerify rid logits).footprint .hd) s
    (execSpecVerify rid logits s) := .of fun h => by
  unfold execSpecVerify
  refine .unlessHalted (.next (h.arrival fun i m => ?_))
  extract_lets r t t₁ t₂
  have hr : Spares _ s r.1 := h.verify
  have ht : Spares _ s t := hr.count.fnCount.emitTokens
  have ht₁ : Spares _ s t₁ := ht.modMan
  have ht₂ : Spares _ s t₂ := .ite ht₁.noToken.modMan ht₁
  exact .ite ht₂ h

theorem Spares.svPlace (h : Spares k s₀ s) {i a auto} (hk : Footprint.tables.within k = true := by rfl) :
    Spares k s₀ (s.svPlace i a auto) := h.grow hk fun h => by
  unfold State.svPlace
  extract_lets t
  have ht : Spares .tables s t := h.storeHd (Nat.le_add_right_of_le (hd_le_svBase s true))
  exact ht.svLog.modMan

theorem nextSpares_execSieveImageLoad (i) : NextSpares ((Instr.sieveImageLoad i).footprint .any) s
    (execSieveImageLoad i s) := .of fun h => by
  unfold execSieveImageLoad
  extract_lets _ _ _ _ t
  have ht : Spares ((Instr.sieveImageLoad i).footprint .any) s t := by
    unfold t
    split
    · exact h.count.endRequest
    · split
      · exact h.svStart
      · split
        · exact h.svPlace
        · split
          next t₁ e =>
            have ht₁ : Spares _ s t₁ := h.tenantRead.of_fst e
            exact ht₁.endRequest
          next t₁ _ e =>
            have ht₁ : Spares _ s t₁ := h.tenantRead.of_fst e
            split
            · exact ht₁.endRequest
            · exact ht₁.svPlace.modMan
  exact .unlessHalted (.onlyIf ht)

theorem nextSpares_execSvStoreStart (m) : NextSpares ((Instr.svStoreStart m).footprint .none) s
    (execSvStoreStart m s) := .of fun h => .agentIf h.svStart

theorem nextSpares_execSvRebuildStart : NextSpares (Instr.svRebuildStart.footprint .none) s (execSvRebuildStart s) :=
  .of fun h => .unlessHalted (.onlyIf h.svStart)

theorem Spares.svWriteShadow (h : Spares k s₀ s) (hk : Footprint.tables.within k = true := by rfl) :
    Spares k s₀ s.svWriteShadow := h.grow hk fun h => 
  foldl_keeps (fun _ _ ht => ht.storeHd (Nat.le_add_right_of_le (hd_le_svBase _ false))) _ h

theorem nextSpares_execSvRebuildPassEnd :
    NextSpares (Instr.svRebuildPassEnd.footprint .hd) s (execSvRebuildPassEnd s) := .of fun h => by
  unfold execSvRebuildPassEnd
  extract_lets t
  have ht : Spares _ s t := h.svWriteShadow
  split
  · exact .next h
  · exact .unlessHalted (.next ht.hm)

theorem nextSpares_execSvStoreFlip : NextSpares (Instr.svStoreFlip.footprint .hd) s (execSvStoreFlip s) := .of fun h => by
  unfold execSvStoreFlip
  extract_lets t _ t₁
  have ht : Spares _ s t := foldl_keeps (fun _ _ ht₂ => ht₂.modMan) _ h
  have ht₁ : Spares _ s t₁ := ht.hm
  exact .unlessHalted (.onlyIf ht₁)

theorem nextSpares_execSvRebuildRestart :
    NextSpares (Instr.svRebuildRestart.footprint .none) s (execSvRebuildRestart s) := .of fun h => by
  unfold execSvRebuildRestart
  extract_lets _ t
  have ht : Spares _ s t := h.svPack
  exact .unlessHalted (.onlyIf ht.hm)

end

/-! #### Contexts and bookings -/

/-- A context's save or restore fails (R191, R192). -/
def Footprint.saveErrors : Footprint := Footprint.ends.plus ⟨[.regs], [.one (cxBlock + 0x018)], .none⟩

/-- A booking changes (R196). -/
def Footprint.bookings : Footprint := Footprint.tracing.plus ⟨[.sh, .tt], [], .none⟩

/-- A booking is over, and contexts go on (R199). -/
def Footprint.releases : Footprint := Footprint.bookings.plus .descs

/-- Records of a booked array's ring are taken (R200). -/
def Footprint.feeds : Footprint where
  parts := [.es, .ecc, .islands, .regs, .mem]
  regs := [.one (ttBlock + 0x020), .rows (esBlock + 0x10) 4]
  zone := .any

/-- A context is stopped for bookings (R198). -/
def Footprint.ttStops : Footprint := Footprint.bookings.plus .stops

section
set_option Elab.async false
variable {k : Footprint} {s₀ s : State}

theorem Spares.shrink (h : Spares k s₀ s) {key target} (hk : Footprint.sharing.within k = true := by rfl) :
    Spares k s₀ (s.shrink key target) := h.grow hk fun h => by
  unfold State.shrink
  split
  · exact h
  · extract_lets
    exact h.setCtx

theorem Spares.reassign (h : Spares k s₀ s) {d} (hk : Footprint.sharing.within k = true := by rfl) :
    Spares k s₀ (s.reassign d) := h.grow hk fun h => by
  unfold State.reassign
  extract_lets _ _ t
  have ht : Spares .sharing s t := foldl_keeps (fun _ _ ht₁ => ht₁.shrink) _ h
  exact ht.giveIdle

theorem Spares.shTt (h : Spares k s₀ s) {x y} (hp : k.parts.contains .sh = true := by rfl)
    (hq : k.parts.contains .tt = true := by rfl) : Spares k s₀ { s with sh := x, tt := y } :=
  (h.sh (x := x) hp).tt (s := { s with sh := x }) hq

theorem Spares.takeCxVf (h : Spares k s₀ s) (hp : k.parts.contains .sh = true := by rfl) : Spares k s₀ s.takeCxVf := h.sh hp

theorem nextSpares_execQuantumBoundary :
    NextSpares (Instr.quantumBoundary.footprint .none) s (execQuantumBoundary s) := .of fun h => by
  unfold execQuantumBoundary
  extract_lets _ t _ t₁ u
  have ht : Spares _ s t := h.reachNs.settle
  have ht₁ : Spares _ s t₁ := ht.sh.takeCxVf
  have hu : Spares _ s u := foldl_keeps (fun _ _ ht₂ => ht₂.reassign) _ ht₁
  exact .unlessHalted (.onlyIf (.ite hu hu.reassign))

theorem nextSpares_execContextStop (d c) : NextSpares ((Instr.contextStop d c).footprint .none) s
    (execContextStop d c s) := .of fun h => .unlessHalted (.onlyIf h.stopCtx)

theorem Spares.unstop (h : Spares k s₀ s) {d key} (hk : Footprint.descs.within k = true := by rfl) :
    Spares k s₀ (s.unstop d key) := h.grow hk fun h => by
  unfold State.unstop
  split
  · extract_lets
    exact .ite h.goOn h
  · exact h

theorem nextSpares_execContextStopDone (d c nexts) : NextSpares ((Instr.contextStopDone d c nexts).footprint .any) s
    (execContextStopDone d c nexts s) := .of fun h => by
  unfold execContextStopDone
  extract_lets
  split
  · exact .next h
  · extract_lets _ t u v
    have ht : Spares _ s t := foldl_keeps (fun _ _ ht₁ => ht₁.esAbort) _ h
    have hu : Spares _ s u.1 := Spares.foldl_fst (fun y x hy => by
        extract_lets y₁
        have hy₁ : Spares _ s y₁.1 := hy.stopTiles
        exact hy₁.handBack) _ ht
    have hv : Spares _ s v := hu.setCtx
    exact .unlessHalted (.onlyIf hv.unstop.giveIdle)

theorem Spares.traceSave (h : Spares k s₀ s) {kind n num c} (hk : Footprint.tracing.within k = true := by rfl) :
    Spares k s₀ (s.traceSave kind n num c) := h.grow hk fun h => h.trace

theorem Spares.saveError (h : Spares k s₀ s) {n c} (hk : Footprint.saveErrors.within k = true := by rfl) :
    Spares k s₀ (s.saveError n c) := h.grow hk fun h => by
  unfold State.saveError
  extract_lets t
  have ht : Spares .saveErrors s t := h.count.hiErr
  exact foldl_keeps (fun _ _ ht₁ => ht₁.endRequest) _ ht

theorem nextSpares_execContextSaveBegin (n c) : NextSpares ((Instr.contextSaveBegin n c).footprint .any) s
    (execContextSaveBegin n c s) := .of fun h => by
  unfold execContextSaveBegin
  extract_lets
  split
  · exact .next h
  · exact .unlessHalted (.onlyIf h.setCtx.traceSave)

theorem nextSpares_execContextSaveEnd (n c) : NextSpares ((Instr.contextSaveEnd n c).footprint .any) s
    (execContextSaveEnd n c s) := .of fun h => by
  unfold execContextSaveEnd
  extract_lets
  split
  · exact .next h
  · extract_lets _ _ t _ t₁ _ _ t₂
    have ht : Spares _ s t := h.store.store
    have ht₁ : Spares _ s t₁ := ht.setCtx.count.fnCount
    have ht₂ : Spares _ s t₂ := ht₁.shTt
    exact .unlessHalted (.onlyIf ((Spares.ite h.saveError.setCtx ht₂.traceSave).serveWait))

theorem nextSpares_execContextRestoreBegin (k) : NextSpares ((Instr.contextRestoreBegin k).footprint .none) s
    (execContextRestoreBegin k s) := .of fun h => by
  unfold execContextRestoreBegin
  extract_lets
  split
  · exact .next h
  · extract_lets
    split
    · exact .next h
    · exact .unlessHalted (.onlyIf h.sh.setCtx)

theorem nextSpares_execContextRestoreEnd (n c) : NextSpares ((Instr.contextRestoreEnd n c).footprint .any) s
    (execContextRestoreEnd n c s) := .of fun h => by
  unfold execContextRestoreEnd
  extract_lets
  split
  · exact .next h
  · extract_lets _ _ t t₁
    have ht : Spares _ s t := h.store.store
    have ht₁ : Spares _ s t₁ := ht.count.traceSave
    exact .unlessHalted (.onlyIf (.ite h.saveError.setCtx.serveWait ht₁.goOn))

theorem nextSpares_execCxQuantumWrite (m v) : NextSpares ((Instr.cxQuantumWrite m v).footprint .none) s
    (execCxQuantumWrite m v s) := .of fun h => .agentIf h.setReg

theorem nextSpares_execCxMarginWrite (m v) : NextSpares ((Instr.cxMarginWrite m v).footprint .none) s
    (execCxMarginWrite m v s) := .of fun h => .agentIf h.setReg

/-- A VF's register of weights (R186). -/
theorem has_cxVf (f : Fin 513) : (RegSet.row (cxBlock + 0x1000) 513 4).has (cxBlock + 0x1000 + 4 * f.val) := by
  have h := RegSet.has_row f.isLt (cxBlock + 0x1000) 4
  rwa [Nat.mul_comm] at h

theorem nextSpares_execCxVfWrite (m f v) : NextSpares ((Instr.cxVfWrite m f v).footprint .none) s
    (execCxVfWrite m f v s) := .of fun h => .agentIf (h.settle.setIn (has_cxVf f))

theorem Spares.setTt (h : Spares k s₀ s) {n i e} (hk : Footprint.bookings.within k = true := by rfl) :
    Spares k s₀ (s.setTt n i e) := h.grow hk fun h => by
  unfold State.setTt
  extract_lets s₁ _ _ t
  have hs₁ : Spares .bookings s s₁ := h.settle
  have ht : Spares .bookings s t := hs₁.tt
  exact .ite ht ht.trace

theorem Spares.ttIrq (h : Spares k s₀ s) {e} (hp : k.parts.contains .irq = true := by rfl) :
    Spares k s₀ (s.ttIrq e) := h.irqTo hp

theorem nextSpares_execTtEntrySubmit (m n i v) : NextSpares ((Instr.ttEntrySubmit m n i v).footprint .any) s
    (execTtEntrySubmit m n i v s) := .of fun h => by
  unfold execTtEntrySubmit
  extract_lets _ _ _ _ _ t
  have ht : Spares _ s t := .ite h.setTt.count.ttIrq h.setTt.count
  exact .agentIf ht

theorem Spares.discardBooked (h : Spares k s₀ s) {n i} (hk : Footprint.arrays.within k = true := by rfl) :
    Spares k s₀ (s.discardBooked n i) := h.grow hk fun h => foldl_keeps (fun t x ht => by
    extract_lets
    exact ht.putEs) _ h

theorem Spares.ttOver (h : Spares k s₀ s) {n i st} (hk : Footprint.releases.within k = true := by rfl) :
    Spares k s₀ (s.ttOver n i st) := h.grow hk fun h => by
  unfold State.ttOver
  extract_lets _ t
  have ht : Spares .releases s t := h.setTt
  exact foldl_keeps (fun _ _ ht₁ => ht₁.unstop) _ ht

theorem nextSpares_execTtEntryCancel (m n i) : NextSpares ((Instr.ttEntryCancel m n i).footprint .any) s
    (execTtEntryCancel m n i s) := .of fun h => .agentIf h.discardBooked.ttOver

theorem Spares.ttStop (h : Spares k s₀ s) {n key} (hk : Footprint.ttStops.within k = true := by rfl) :
    Spares k s₀ (s.ttStop n key) := h.grow hk fun h => by
  unfold State.ttStop
  extract_lets
  exact (foldl_keeps (fun t x ht => by
      extract_lets
      exact ht.setTt) _ h).stopCtx

theorem nextSpares_execTtStopDue (n) : NextSpares ((Instr.ttStopDue n).footprint .any) s
    (execTtStopDue n s) := .of fun h => by
  unfold execTtStopDue
  split
  · exact .next h
  · extract_lets t
    have ht : Spares _ s t := h.reachNs
    exact .unlessHalted (.onlyIf ht.ttStop)

theorem nextSpares_execTtReleaseDue (n i) : NextSpares ((Instr.ttReleaseDue n i).footprint .none) s
    (execTtReleaseDue n i s) := .of fun h => by
  unfold execTtReleaseDue
  extract_lets _ _ t _ u
  have ht : Spares _ s t := h.reachNs
  have hu : Spares _ s u := foldl_keeps (fun t₁ x ht₁ => by
      split
      · exact ht₁
      · extract_lets
        exact ht₁.setCtx) _ ht
  exact .unlessHalted (.onlyIf hu)

theorem nextSpares_execTtReady (n i) : NextSpares ((Instr.ttReady n i).footprint .any) s
    (execTtReady n i s) := .of fun h => .unlessHalted (.onlyIf h.setTt.ttIrq)

theorem Spares.ttActivate (h : Spares k s₀ s) {n i e} (hk : Footprint.bookings.within k = true := by rfl) :
    Spares k s₀ (s.ttActivate n i e) := h.grow hk fun h => by
  unfold State.ttActivate
  extract_lets _ t _ t₁
  have ht : Spares .bookings s t := h.setTt
  have ht₁ : Spares .bookings s t₁ := ht.tt
  exact .ite ht ht₁.storeNat

theorem nextSpares_execTtStart (n i) : NextSpares ((Instr.ttStart n i).footprint .any) s
    (execTtStart n i s) := .of fun h => by
  unfold execTtStart
  extract_lets _ t
  have ht : Spares _ s t := h.reachNs
  exact .unlessHalted (.onlyIf (.ite ht.ttActivate ht.setTt.count.ttIrq))

theorem nextSpares_execTtLateArrayFree (n i) : NextSpares ((Instr.ttLateArrayFree n i).footprint .any) s
    (execTtLateArrayFree n i s) := .of fun h => .unlessHalted (.onlyIf (.ite h.ttActivate h.setTt))

theorem nextSpares_execTtEnd (n i) : NextSpares ((Instr.ttEnd n i).footprint .any) s
    (execTtEnd n i s) := .of fun h => by
  unfold execTtEnd
  extract_lets _ t u u₁
  have ht : Spares _ s t := h.reachNs
  have hu : Spares _ s u := ht.discardBooked
  have hu₁ : Spares _ s u₁ := .ite hu.count hu
  exact .unlessHalted (.onlyIf hu₁.ttOver)

theorem Spares.wakeArray (h : Spares k s₀ s) {g} (hp : k.parts.contains .islands = true := by rfl) :
    Spares k s₀ (s.wakeArray g) := .ite h (h.isl hp)

/-- A staging register of an array. -/
theorem has_staging (g j : Nat) : (RegSet.rows (esBlock + 0x10) 4).has (esReg g (0x010 + 4 * j)) := by
  have h := RegSet.has_rows (esBlock + 0x10) 4 (0x400 * g + j)
  rwa [show esBlock + 0x10 + (0x400 * g + j) * 4 = esReg g (0x010 + 4 * j) by unfold esReg; omega] at h

theorem Spares.takeRecord (h : Spares k s₀ s) {n b} (hk : Footprint.feeds.within k = true := by rfl) :
    Spares k s₀ (s.takeRecord n b) := h.grow hk fun h => by
  unfold State.takeRecord
  extract_lets kind g named t st p ws ds ranges ok e
  have ht : Spares .feeds s t := foldl_keeps (fun t j ht => by
      extract_lets
      split
      · exact .ite ht (ht.setIn (has_staging g j))
      · exact ht) _ h
  exact .ite h.count (.ite ht (.ite ht.putEs ht.putEs.wakeArray))

theorem Spares.takeRecords (h : Spares k s₀ s) {n j} (hk : Footprint.feeds.within k = true := by rfl)
    (hp : k.parts.contains .tt = true := by rfl) : Spares k s₀ (s.takeRecords n j) := by
  induction j generalizing s with
  | zero => exact h
  | succ j ih =>
    unfold State.takeRecords
    extract_lets c t c'
    have ht : Spares k s₀ t := h.takeRecord hk
    exact ih ((ht.tt hp).grow hk fun h => h.storeNat)

theorem nextSpares_execTtRingDoorbell (m n v) : NextSpares ((Instr.ttRingDoorbell m n v).footprint .any) s
    (execTtRingDoorbell m n v s) := .of fun h => by
  unfold execTtRingDoorbell
  extract_lets w ahead _ t
  have ht : Spares _ s t := h.tt
  exact .agentIf (.ite h.count ht.takeRecords)

end

/-! #### Commands that store to the trace ring alone -/

/-- The registers that say where the trace ring lies and how many records it holds (R444, R455). -/
def ringReg (o : Nat) : Prop := o = hmBlock + 0x6000 ∨ o = hmBlock + 0x6008 ∨ o = hmBlock + 0x600C

/-- From s to t memory outside the trace ring stays, and so does the ring's place. -/
structure OnlyRing (s t : State) : Prop where
  within : Within s.inTraceRing s t
  ring : ∀ o, ringReg o → t.reg o = s.reg o

section
set_option Elab.async false
variable {f : Footprint} {s t u : State}

theorem OnlyRing.refl (s : State) : OnlyRing s s := ⟨.refl _ s, fun _ _ => rfl⟩

/-- A change that leaves memory and the registers as they are. -/
theorem OnlyRing.of_eq (h : OnlyRing s t) (hmem : u.mem = t.mem := by rfl) (hregs : u.regs = t.regs := by rfl) :
    OnlyRing s u := by
  refine ⟨h.within.of_eq hmem hregs, fun o ho => Eq.trans ?_ (h.ring o ho)⟩
  unfold State.reg
  rw [hregs]

theorem OnlyRing.of_spares (h : OnlyRing s t) (hu : Spares f t u) (hm : .mem ∉ f.parts := by decide)
    (hr : .regs ∉ f.parts := by decide) : OnlyRing s u :=
  h.of_eq (hu.parts .mem hm) (hu.parts .regs hr)

theorem OnlyRing.ite {c : Prop} {_ : Decidable c} (ht : OnlyRing s t) (hu : OnlyRing s u) :
    OnlyRing s (if c then t else u) := by
  split
  · exact ht
  · exact hu

theorem OnlyRing.base (h : OnlyRing s t) :
    t.reg64 (hmBlock + 0x6008) (hmBlock + 0x600C) = s.reg64 (hmBlock + 0x6008) (hmBlock + 0x600C) := by
  unfold State.reg64 State.regN
  rw [h.ring _ (.inr (.inl rfl)), h.ring _ (.inr (.inr rfl))]

theorem OnlyRing.traceSize (h : OnlyRing s t) : t.traceSize = s.traceSize := by
  unfold State.traceSize State.regB State.regN
  rw [h.ring _ (.inl rfl)]

/-- A record is stored to its place in the ring. -/
theorem OnlyRing.tracePut (h : OnlyRing s t) {r : List Byte} (hr : r.length = 32) : OnlyRing s (t.tracePut r) := by
  have hslot : t.obs.wr % s.traceSize < s.traceSize := Nat.mod_lt _ (Nat.two_pow_pos _)
  have hstore : Within s.inTraceRing s
      (t.store (t.reg64 (hmBlock + 0x6008) (hmBlock + 0x600C) + 32 * (t.obs.wr % t.traceSize)) r) := by
    rw [h.base, h.traceSize]
    refine h.within.store fun i hi => ⟨32 * (t.obs.wr % s.traceSize) + i, by omega, by rw [Nat.add_assoc]⟩
  exact ⟨hstore.of_eq, h.ring⟩

theorem OnlyRing.traceLost (h : OnlyRing s t) : OnlyRing s t.traceLost := by
  refine ⟨(h.within.count (o := hmBlock + 0x6018) (by unfold dlPage; decide) 1).of_eq, fun o ho => ?_⟩
  refine Eq.trans (t.reg_setReg_other _ ?_) (h.ring o ho)
  rintro rfl
  unfold ringReg at ho
  revert ho
  decide

theorem length_traceRec (s : State) (kind unit layer op fn arg) : (s.traceRec kind unit layer op fn arg).length = 32 := by
  simp [State.traceRec, length_leBytes]

theorem OnlyRing.trace (h : OnlyRing s t) {kind unit layer op fn arg} : OnlyRing s (t.trace kind unit layer op fn arg) := by
  refine .ite ?_ h
  unfold State.traceWrite
  extract_lets u _ v
  have hu : OnlyRing s u := h.tracePut (length_traceRec ..)
  have hv : OnlyRing s v := .ite h hu.of_eq
  exact .ite h.traceLost (.ite (hv.tracePut (length_traceRec ..)) hv.traceLost)

theorem OnlyRing.setTt (h : OnlyRing s t) {n i e} : OnlyRing s (t.setTt n i e) := by
  unfold State.setTt
  extract_lets t₁ _ _ t₂
  have ht₁ : OnlyRing s t₁ := h.of_spares (Spares.refl .sharing t).settle
  have ht₂ : OnlyRing s t₂ := ht₁.of_eq
  exact .ite ht₂ ht₂.trace

/-- What leaves memory as it is may follow. -/
theorem OnlyRing.memKept (h : OnlyRing s t) (hu : Spares f t u) (hm : .mem ∉ f.parts := by decide) :
    MemKept s.inTraceRing s u := by
  intro a ha
  rw [hu.parts .mem hm]
  exact h.within.mem a ha

end

/-- The command's next state differs from s in memory only where p says. -/
def NextMem (p : Nat → Prop) (s : State) (o : Out) : Prop := ∀ t, o = .next t → MemKept p s t

section
set_option Elab.async false
variable {p : Nat → Prop} {s t : State} {o : Out}

theorem NextMem.next (h : MemKept p s t) : NextMem p s (.next t) := by
  rintro _ ⟨⟩
  exact h

theorem NextMem.onlyIf {c : Bool} (h : MemKept p s t) : NextMem p s (onlyIf c s t) := by
  refine .next ?_
  split
  · exact h
  · exact fun _ _ => rfl

theorem NextMem.unlessHalted {v : StopUnit} (ho : NextMem p s o) : NextMem p s (unlessHalted s v o) := by
  unfold Machine.unlessHalted
  split
  · exact .next fun _ _ => rfl
  · exact ho

theorem NextMem.agentIf {m : Agent} {c : Bool} (h : MemKept p s t) : NextMem p s (agentIf m c s t) := by
  unfold Machine.agentIf
  split
  · exact .next fun _ _ => rfl
  · split
    · exact .next fun _ _ => rfl
    · exact .onlyIf h

theorem nextMem_execContextSaveBegin (n c) : NextMem s.inTraceRing s (execContextSaveBegin n c s) := by
  unfold execContextSaveBegin
  extract_lets
  split
  · exact .next fun _ _ => rfl
  · have hset {key c} : OnlyRing s (s.setCtx key c) := (OnlyRing.refl s).of_spares (Spares.refl .sharing s).setCtx
    exact .unlessHalted (.onlyIf hset.trace.within.mem)

/-- A register is written, and a core interrupted. -/
def Footprint.told (rs : List RegSet) : Footprint := ⟨[.regs, .irq], rs, .none⟩

theorem nextMem_execTtEntrySubmit (m n i v) : NextMem s.inTraceRing s (execTtEntrySubmit m n i v s) := by
  unfold execTtEntrySubmit
  extract_lets _ _ _ _ _ t
  refine .agentIf ?_
  unfold t
  split
  · exact (OnlyRing.refl s).setTt.memKept ((Spares.refl (.told [.one (ttBlock + 0x01C)]) _).count).ttIrq
  · exact (OnlyRing.refl s).setTt.memKept (Spares.refl (.told [.one (ttBlock + 0x010)]) _).count

theorem nextMem_execTtStopDue (n) : NextMem s.inTraceRing s (execTtStopDue n s) := by
  unfold execTtStopDue
  split
  · exact .next fun _ _ => rfl
  · extract_lets t
    have ht : OnlyRing s t := (OnlyRing.refl s).of_spares (Spares.refl ⟨[.raw], [], .none⟩ s).reachNs
    have hset {is_ : List Nat} {e : State → Nat → TtEntry} : OnlyRing s (is_.foldl (fun s i => s.setTt n i (e s i)) t) :=
      foldl_keeps (fun _ _ h => h.setTt) _ ht
    exact .unlessHalted (.onlyIf (hset.memKept (Spares.refl .stops _).stopCtx))

theorem nextMem_execTtReady (n i) : NextMem s.inTraceRing s (execTtReady n i s) :=
  .unlessHalted (.onlyIf ((OnlyRing.refl s).setTt.memKept (Spares.refl (.told []) _).ttIrq))

end

/-! #### The frame of each command -/

/-- A command whose next states stay within its own parts and registers, and differ in memory only where it may store, has its
frame. -/
theorem frame_of_mem {c : Instr} {z : Zone} (h : ∀ s, NextSpares (c.footprint z) s (exec c s))
    (hm : ∀ s, NextMem (c.mayStore s) s (exec c s)) : Frame c := by
  intro s t hst
  obtain ⟨hparts, hregs, -⟩ := h s t hst
  exact ⟨hparts, hregs, hm s t hst⟩

/-- A command whose next states stay within the footprint of its own parts, registers and memory has its frame. -/
theorem frame_of {c : Instr} {z : Zone} (h : ∀ s, NextSpares (c.footprint z) s (exec c s))
    (hz : ∀ s a, z.Has a → c.mayStore s a) : Frame c :=
  frame_of_mem h fun s t hst a ha => (h s t hst).mem a fun hza => ha (hz s a hza)

/-- Settles O56: each function of the model stays within the footprint that its lemma names, and each command's footprint holds
those of the functions that it calls. -/
theorem frameServing : Obligations.FrameServing := by
  unfold Obligations.FrameServing
  intro c h7 h9
  have hserving : decide (7 ≤ c.chapter ∧ c.chapter ≤ 9) = true := decide_eq_true ⟨h7, h9⟩
  cases c with
  | submit f sq entry => exact frame_of (fun s => nextSpares_execSubmit f sq entry) fun _ _ h => h
  | pause f sq entry => exact frame_of (fun s => nextSpares_execPause f sq entry) fun _ _ h => h
  | resume f sq entry => exact frame_of (fun s => nextSpares_execResume f sq entry) fun _ _ h => h
  | cancel f sq entry => exact frame_of (fun s => nextSpares_execCancel f sq entry) fun _ _ h => h
  | touch f sq entry => exact frame_of (fun s => nextSpares_execTouch f sq entry) fun _ _ h => h
  | sqBadOpcode f sq entry => exact frame_of (fun s => nextSpares_execSqBadOpcode f sq entry) fun _ _ h => h
  | promptReadDone i => exact frame_of (fun s => nextSpares_execPromptReadDone i) fun _ _ h => h
  | prefillPlace i peer => exact frame_of (fun s => nextSpares_execPrefillPlace i peer) fun _ _ h => h
  | prefillDone rid logits dumps => exact frame_of (fun s => nextSpares_execPrefillDone rid logits dumps) fun _ _ h => h
  | decodeStepBoundary dumps => exact frame_of (fun s => nextSpares_execDecodeStepBoundary dumps) fun _ _ h => h
  | decodeStepStart => exact frame_of (fun s => nextSpares_execDecodeStepStart) fun _ _ h => h
  | berthSliceArrive rid berth slice layer data =>
    exact frame_of (fun s => nextSpares_execBerthSliceArrive rid berth slice layer data) fun _ _ h => h
  | pullSourceError rid peer => exact frame_of (fun s => nextSpares_execPullSourceError rid peer) fun _ _ h => h
  | mirrorCopyDone rid berth => exact frame_of (fun s => nextSpares_execMirrorCopyDone rid berth) fun _ _ h => h
  | checkpointCommit rid => exact frame_of (fun s => nextSpares_execCheckpointCommit rid) fun _ _ h => h
  | checkpointFail rid => exact frame_of (fun s => nextSpares_execCheckpointFail rid) fun _ _ h => h
  | pauseComplete i => exact frame_of (fun s => nextSpares_execPauseComplete i) fun _ _ h => h
  | expirySweep => exact frame_of (fun s => nextSpares_execExpirySweep) fun _ _ h => h
  | manifestQuietEnd i => exact frame_of (fun s => nextSpares_execManifestQuietEnd i) fun _ _ h => h
  | btRebuildStart => exact frame_of (fun s => nextSpares_execBtRebuildStart) fun _ _ h => h
  | hmBtStart m => exact frame_of (fun s => nextSpares_execHmBtStart m) fun _ _ h => h
  | btRebuildPassEnd => exact frame_of (fun s => nextSpares_execBtRebuildPassEnd) fun _ _ h => h
  | btFlip => exact frame_of (fun s => nextSpares_execBtFlip) fun _ _ h => h
  | btRebuildRestart => exact frame_of (fun s => nextSpares_execBtRebuildRestart) fun _ _ h => h
  | hmSlotLoad m k => exact frame_of (fun s => nextSpares_execHmSlotLoad m k) fun _ _ h => h
  | slotLoadDone k r => exact frame_of (fun s => nextSpares_execSlotLoadDone k r) fun _ _ h => h
  | hmSlotUnload m k => exact frame_of (fun s => nextSpares_execHmSlotUnload m k) fun _ _ h => h
  | hmSlotUnloadForce m k => exact frame_of (fun s => nextSpares_execHmSlotUnloadForce m k) fun _ _ h => h
  | slotDrainDone k => exact frame_of (fun s => nextSpares_execSlotDrainDone k) fun _ _ h => h
  | hmCkptWrite m v => exact frame_of (fun s => nextSpares_execHmCkptWrite m v) fun _ _ h => h
  | hmQuietWrite m v => exact frame_of (fun s => nextSpares_execHmQuietWrite m v) fun _ _ h => h
  | rakeSelect rid logits => exact frame_of (fun s => nextSpares_execRakeSelect rid logits) fun _ _ h => h
  | sieveSelect rid logits => exact frame_of (fun s => nextSpares_execSieveSelect rid logits) fun _ _ h => h
  | specDraft rid logits => exact frame_of (fun s => nextSpares_execSpecDraft rid logits) fun _ _ h => h
  | specVerify rid logits => exact frame_of (fun s => nextSpares_execSpecVerify rid logits) fun _ _ h => h
  | sieveImageLoad i => exact frame_of (fun s => nextSpares_execSieveImageLoad i) fun _ _ h => h
  | svStoreStart m => exact frame_of (fun s => nextSpares_execSvStoreStart m) fun _ _ h => h
  | svRebuildStart => exact frame_of (fun s => nextSpares_execSvRebuildStart) fun _ _ h => h
  | svRebuildPassEnd => exact frame_of (fun s => nextSpares_execSvRebuildPassEnd) fun _ _ h => h
  | svStoreFlip => exact frame_of (fun s => nextSpares_execSvStoreFlip) fun _ _ h => h
  | svRebuildRestart => exact frame_of (fun s => nextSpares_execSvRebuildRestart) fun _ _ h => h
  | quantumBoundary => exact frame_of (fun s => nextSpares_execQuantumBoundary) fun _ _ h => h
  | contextStop d c => exact frame_of (fun s => nextSpares_execContextStop d c) fun _ _ h => h
  | contextStopDone d c nexts => exact frame_of (fun s => nextSpares_execContextStopDone d c nexts) fun _ _ h => h
  | contextSaveBegin n c =>
    exact frame_of_mem (fun s => nextSpares_execContextSaveBegin n c) fun s => nextMem_execContextSaveBegin n c
  | contextSaveEnd n c => exact frame_of (fun s => nextSpares_execContextSaveEnd n c) fun _ _ h => h
  | contextRestoreBegin k => exact frame_of (fun s => nextSpares_execContextRestoreBegin k) fun _ _ h => h
  | contextRestoreEnd n c => exact frame_of (fun s => nextSpares_execContextRestoreEnd n c) fun _ _ h => h
  | cxQuantumWrite m v => exact frame_of (fun s => nextSpares_execCxQuantumWrite m v) fun _ _ h => h
  | cxMarginWrite m v => exact frame_of (fun s => nextSpares_execCxMarginWrite m v) fun _ _ h => h
  | cxVfWrite m f v => exact frame_of (fun s => nextSpares_execCxVfWrite m f v) fun _ _ h => h
  | ttEntrySubmit m n i v =>
    exact frame_of_mem (fun s => nextSpares_execTtEntrySubmit m n i v) fun s => nextMem_execTtEntrySubmit m n i v
  | ttEntryCancel m n i => exact frame_of (fun s => nextSpares_execTtEntryCancel m n i) fun _ _ h => h
  | ttStopDue n => exact frame_of_mem (fun s => nextSpares_execTtStopDue n) fun s => nextMem_execTtStopDue n
  | ttReleaseDue n i => exact frame_of (fun s => nextSpares_execTtReleaseDue n i) fun _ _ h => h
  | ttReady n i => exact frame_of_mem (fun s => nextSpares_execTtReady n i) fun s => nextMem_execTtReady n i
  | ttStart n i => exact frame_of (fun s => nextSpares_execTtStart n i) fun _ _ h => h
  | ttLateArrayFree n i => exact frame_of (fun s => nextSpares_execTtLateArrayFree n i) fun _ _ h => h
  | ttEnd n i => exact frame_of (fun s => nextSpares_execTtEnd n i) fun _ _ h => h
  | ttRingDoorbell m n v => exact frame_of (fun s => nextSpares_execTtRingDoorbell m n v) fun _ _ h => h
  | _ => exact absurd (show false = true from hserving) Bool.false_ne_true

end Sys2Proof

namespace Sys2Proof
open Machine

/-! ### Requests: manifests, and what leaves them -/

section
variable {s t : State}

/-! #### Reading the manifest table -/

theorem manOf_setMan_same (h : tsorted 0 s.hm.man = true) (i : Nat) (m : Manifest) : (s.setMan i m).manOf i = m :=
  tget_tset_same _ h i m

theorem manOf_setMan_other {i j : Nat} (h : j ≠ i) (m : Manifest) : (s.setMan i m).manOf j = s.manOf j :=
  tget_tset_other _ s.hm.man m h

theorem manOf_congr (h : t.hm = s.hm) (i : Nat) : t.manOf i = s.manOf i := by
  unfold State.manOf
  rw [h]

theorem manOf_of_man (h : t.hm.man = s.hm.man) (i : Nat) : t.manOf i = s.manOf i := by
  unfold State.manOf
  rw [h]

theorem manOf_freed (s : State) (l : List Nat) (i : Nat) :
    State.manOf { s with hm := { s.hm with freed := l } } i = s.manOf i := rfl

@[simp] theorem setMan_freed (s : State) (i m) : (s.setMan i m).hm.freed = s.hm.freed := rfl

/-! #### What leaves the Harbourmaster's tables -/

@[simp] theorem postEvent_hm (s : State) (i event status reason step) : (s.postEvent i event status reason step).hm = s.hm :=
  (Spares.refl .posts s).postEvent.parts .hm (by decide)

@[simp] theorem writeProv_hm (s : State) (i event part) : (s.writeProv i event part).hm = s.hm :=
  (Spares.refl .provenance s).writeProv.parts .hm (by decide)

theorem takeCmd_man (s : State) (f sq entry) : (s.takeCmd f sq entry).hm.man = s.hm.man := by
  unfold State.takeCmd
  split
  · split <;> rfl
  · rfl

theorem allocMan_man (s : State) : s.allocMan.hm.man = s.hm.man := by
  unfold State.allocMan
  split <;> rfl

theorem takeCmd_manOf (s : State) (f sq entry i) : (s.takeCmd f sq entry).manOf i = s.manOf i :=
  congrArg (fun man => tget ({} : Manifest) man i) (takeCmd_man s f sq entry)

theorem takeCmd_slotOf (s : State) (f sq entry k) : (s.takeCmd f sq entry).slotOf k = s.slotOf k :=
  congrArg (fun slots => tget ({} : Slot) slots k) ((Spares.refl ⟨[.hm], [], .none⟩ s).takeCmd.parts .slots (by decide))

@[simp] theorem drew_manOf (s : State) (n i : Nat) : (s.drew n).manOf i = s.manOf i := rfl
@[simp] theorem drew_slotOf (s : State) (n k : Nat) : (s.drew n).slotOf k = s.slotOf k := rfl
@[simp] theorem drew_freeRec (s : State) (n : Nat) (sel : Bool) : (s.drew n).freeRec sel = s.freeRec sel := rfl

end

/-! ### O15: what a tenant's command does -/

section
variable {s : State} {f sq opc i : Nat} {entry : BitVec 512} {act : SubEntry → Nat → Manifest → State → State}

/-- A command that names a request of its function acts on it (R139). -/
theorem requestCmd_named (hrun : s.halted .inference = false) (hopc : (SubEntry.parse entry).opc = opc)
    (hflags : (SubEntry.parse entry).flags < 32) (hres : (SubEntry.parse entry).reserved = false)
    (hnamed : (s.takeCmd f sq entry).named f (SubEntry.parse entry).rid = some i) :
    s.requestCmd opc f sq entry act =
      .next (act (SubEntry.parse entry) i ((s.takeCmd f sq entry).manOf i) (s.takeCmd f sq entry)) := by
  unfold State.requestCmd
  rw [unlessHalted_runs hrun, onlyIf_true (by simp [hopc]), if_neg (by simp [hres, hflags]), hnamed]

/-- A command that names no request of its function is refused with NOT_FOUND (R139). -/
theorem requestCmd_stale (hrun : s.halted .inference = false) (hopc : (SubEntry.parse entry).opc = opc)
    (hflags : (SubEntry.parse entry).flags < 32) (hres : (SubEntry.parse entry).reserved = false)
    (hnamed : (s.takeCmd f sq entry).named f (SubEntry.parse entry).rid = none) :
    s.requestCmd opc f sq entry act =
      .next ((s.takeCmd f sq entry).refuse f (SubEntry.parse entry) (SubEntry.parse entry).rid 9) := by
  unfold State.requestCmd
  rw [unlessHalted_runs hrun, onlyIf_true (by simp [hopc]), if_neg (by simp [hres, hflags]), hnamed]

end

section
variable {s : State} {f : Fin 513} {sq : Fin 8} {entry : BitVec 512}

/-- A SUBMIT that fails a check is refused with its status (R151). -/
theorem exec_submit_refused (hrun : s.halted .inference = false) (hopc : (SubEntry.parse entry).opc = 1) {st : Nat}
    (hcheck : (s.takeCmd f sq entry).submitCheck (SubEntry.parse entry) = some st) :
    exec (.submit f sq entry) s = .next ((s.takeCmd f sq entry).refuse f (SubEntry.parse entry) 0 st) := by
  refine (unlessHalted_runs hrun _).trans ((onlyIf_true (by simp [hopc]) ..).trans ?_)
  rw [hcheck]

/-- A SUBMIT that passes its checks, and has a parameter record, takes the manifest free longest (R138, R151). -/
theorem runs_submit (hrun : s.halted .inference = false) (hopc : (SubEntry.parse entry).opc = 1) {i r : Nat}
    (hsorted : tsorted 0 s.hm.man = true)
    (hcheck : (s.takeCmd f sq entry).submitCheck (SubEntry.parse entry) = none)
    (hfree : (s.takeCmd f sq entry).nextFree = some i)
    (hrec : (s.takeCmd f sq entry).freeRec (bitOf (SubEntry.parse entry).flags 0) = some r) :
    Runs (.submit f sq entry) s (fun u =>
      let e := SubEntry.parse entry
      let m := u.manOf i
      m.st = .admitted ∧ m.gen = (s.manOf i).gen ∧ m.fn = f.val ∧ m.sq = sq.val ∧ m.cq = e.cq ∧ m.slot = e.slot ∧
      m.tag = e.tag ∧ (bitOf e.flags 4 = true → m.seed = e.seed) ∧ m.step = 0 ∧ m.ctx = e.ntok ∧ m.endAt = e.maxNew ∧
      m.ckpt = 0xFFFFFFFF ∧ m.ttl = (if e.ttl = 0 then (s.slotOf e.slot).ttlDef else e.ttl)) := by
  unfold Runs
  rw [show exec (.submit f sq entry) s = execSubmit f sq entry s from rfl]
  unfold execSubmit
  have hman : tsorted 0 (s.takeCmd f sq entry).allocMan.hm.man = true := by rwa [allocMan_man, takeCmd_man]
  have hdrewman : tsorted 0 ((s.takeCmd f sq entry).drew 1).allocMan.hm.man = true := by
    rwa [allocMan_man, State.drew_hm, takeCmd_man]
  simp only [unlessHalted_runs hrun, hopc, beq_self_eq_true, onlyIf_true, hcheck, hfree, Host.Outcome.next.injEq,
    exists_eq_left']
  by_cases hseed : bitOf (SubEntry.parse entry).flags 4 = true
  · simp [hseed, hrec, takeCmd_manOf, takeCmd_slotOf, manOf_congr (postEvent_hm ..), manOf_setMan_same hman]
  · simp [hseed, hrec, takeCmd_manOf, takeCmd_slotOf, manOf_congr (postEvent_hm ..), manOf_setMan_same hdrewman]

end

/-- Settles O15, from what a tenant's command does once it names its request. -/
theorem tenantCommands : Obligations.TenantCommands := by
  unfold Obligations.TenantCommands
  intro s f sq entry hrun
  dsimp only
  refine ⟨fun hopc => ⟨fun st => exec_submit_refused hrun hopc, fun i r hsorted => runs_submit hrun hopc hsorted⟩,
    fun hflags hres hnamed => ⟨fun hopc => ?_, fun hopc => ?_, fun hopc => ?_, fun hopc => ?_⟩,
    fun i hflags hres hnamed => ⟨fun hopc hpend => ?_, fun hopc hpend hctx hnew hmax => ?_, fun hopc => ?_, fun hopc httl => ?_⟩,
    fun hopc => ⟨_, (unlessHalted_runs hrun _).trans (onlyIf_true (by simpa using hopc) ..)⟩⟩
  case refine_1 => exact (requestCmd_stale hrun hopc hflags hres hnamed : execPause f sq entry s = _)
  case refine_2 => exact (requestCmd_stale hrun hopc hflags hres hnamed : execResume f sq entry s = _)
  case refine_3 => exact (requestCmd_stale hrun hopc hflags hres hnamed : execCancel f sq entry s = _)
  case refine_4 => exact (requestCmd_stale hrun hopc hflags hres hnamed : execTouch f sq entry s = _)
  case refine_5 =>
    have hact : execPause f sq entry s = _ := requestCmd_named hrun hopc hflags hres hnamed
    refine ⟨fun hst => hact.trans ?_, fun hst => hact.trans ?_, fun hst hleave => hact.trans ?_, fun hst => hact.trans ?_⟩
    · rcases hst with hst | hst | hst <;> rw [if_neg (not_not_intro hpend), hst]
    · rw [if_neg (not_not_intro hpend), hst]
    · rw [if_neg (not_not_intro hpend), hst, if_pos hleave]
    · rcases hst with hst | hst <;> rw [if_neg (not_not_intro hpend), hst]
  case refine_6 =>
    have hact : execResume f sq entry s = _ := requestCmd_named hrun hopc hflags hres hnamed
    refine ⟨fun hst => hact.trans ?_, fun hst hexp => hact.trans ?_, fun hst hexp => hact.trans ?_⟩
    · simp [hpend, hst, Nat.not_lt.mpr hctx, Nat.not_lt.mpr hmax, Nat.ne_of_gt hnew]
    · simp [hpend, hst, Nat.not_le.mpr hexp, Nat.not_lt.mpr hctx, Nat.not_lt.mpr hmax, Nat.ne_of_gt hnew]
    · simp [hpend, hst, hexp]
  case refine_7 =>
    have hact : execCancel f sq entry s = _ := requestCmd_named hrun hopc hflags hres hnamed
    refine ⟨fun hst hpend hleave => hact.trans (by simp [hpend, hst, hleave]), fun hst => hact.trans ?_⟩
    simp only [List.mem_cons, List.not_mem_nil, or_false] at hst
    rcases hst with hst | hst | hst | hst | hst | hst <;> rw [hst]
  case refine_8 =>
    have hact : execTouch f sq entry s = _ := requestCmd_named hrun hopc hflags hres hnamed
    refine ⟨fun hst => hact.trans ?_, fun hst hexp => hact.trans ?_, fun hst hexp => hact.trans ?_⟩
    · simp [Nat.not_lt.mpr httl, hst]
    · simp [Nat.not_lt.mpr httl, hst, hexp]
    · simp [Nat.not_lt.mpr httl, hst, Nat.not_le.mpr hexp]

end Sys2Proof

namespace Sys2Proof
open Machine

/-! ### O16: how a request progresses -/

section
variable {f : Footprint} {s t : State}

/-- Time stands still within a footprint that names neither the raw counter nor the rest of Tide. -/
theorem Spares.td (h : Spares f s t) (hr : .raw ∉ f.parts := by decide) (ht : .tide ∉ f.parts := by decide) : t.td = s.td := by
  have hraw : t.td.raw = s.td.raw := h.parts .raw hr
  have hrest : { t.td with raw := s.td.raw } = s.td := h.parts .tide ht
  rwa [← hraw] at hrest

theorem T_congr (h : t.td = s.td) : t.T = s.T := by
  unfold State.T State.now State.cAt
  rw [h]

@[simp] theorem setMan_T (s : State) (i m) : (s.setMan i m).T = s.T := rfl

@[simp] theorem postEvent_T (s : State) (i event status reason step) : (s.postEvent i event status reason step).T = s.T :=
  T_congr (Spares.refl .posts s).postEvent.td

@[simp] theorem writeProv_T (s : State) (i event part) : (s.writeProv i event part).T = s.T :=
  T_congr (Spares.refl .provenance s).writeProv.td

/-- An internal arrival for a current request is taken (R139). -/
theorem arrival_current {rid : BitVec 24} {i : Nat} {act : Nat → Manifest → State} (hrid : rid.toNat % 2 ^ 18 = i)
    (hgen : (s.manOf i).gen = rid.toNat / 2 ^ 18) (hfree : (s.manOf i).st ≠ .free) (hquiet : (s.manOf i).st ≠ .quiet) :
    s.arrival rid act = act i (s.manOf i) := by
  subst hrid
  exact if_pos ⟨hgen, hfree, hquiet⟩

/-- An arrival for a request that is gone is counted (R139). -/
theorem arrival_stale {rid : BitVec 24} {act : Nat → Manifest → State}
    (h : (s.manOf (rid.toNat % 2 ^ 18)).gen ≠ rid.toNat / 2 ^ 18 ∨ (s.manOf (rid.toNat % 2 ^ 18)).st = .free ∨
      (s.manOf (rid.toNat % 2 ^ 18)).st = .quiet) :
    s.arrival rid act = s.count (hmBlock + 0x040) 1 :=
  if_neg (by rintro ⟨hgen, hfree, hquiet⟩; exact h.elim (· hgen) (·.elim hfree hquiet))

/-! #### Placing a prefill -/

/-- The one member that the predicate holds of is found. -/
theorem find?_eq_some_of_unique {α : Type} {p : α → Bool} {l : List α} {x : α} (hx : x ∈ l) (hp : p x = true)
    (huniq : ∀ y ∈ l, p y = true → y = x) : l.find? p = some x := by
  cases hfind : l.find? p with
  | none => exact absurd hp (List.find?_eq_none.mp hfind x hx)
  | some y => exact congrArg some (huniq y (List.mem_of_find?_eq_some hfind) (List.find?_some hfind))

/-- No prompt die is allowed (R152). -/
theorem prefillDie_none {fn : Nat} (h : ∀ n < 4, s.mayPd fn n = false) : s.prefillDie fn = none := by
  have hempty : (List.range 4).filter (fun n => s.mayPd fn n) = [] :=
    List.filter_eq_nil_iff.mpr fun n hn => by simp [h n (List.mem_range.mp hn)]
  unfold State.prefillDie
  rw [hempty]
  rfl

/-- The allowed prompt die with the fewest queued tokens, the lowest of those that tie (R152). -/
theorem prefillDie_some {fn n : Nat} (hn : n < 4) (hmay : s.mayPd fn n = true)
    (hle : ∀ k < 4, s.mayPd fn k = true → s.queuedTokens n ≤ s.queuedTokens k)
    (hlt : ∀ k < n, s.mayPd fn k = true → s.queuedTokens n < s.queuedTokens k) : s.prefillDie fn = some n := by
  unfold State.prefillDie
  extract_lets ns
  have hns {k : Nat} : k ∈ ns ↔ k < 4 ∧ s.mayPd fn k = true := by simp [ns]
  have hmem : n ∈ ns := hns.mpr ⟨hn, hmay⟩
  have hbest : ns.all (fun k => decide (s.queuedTokens n < s.queuedTokens k) ||
      (decide (s.queuedTokens n = s.queuedTokens k) && decide (n ≤ k))) = true := by
    rw [List.all_eq_true]
    intro k hk
    obtain ⟨hk4, hkmay⟩ := hns.mp hk
    have := hle k hk4 hkmay
    by_cases hkn : k < n
    · simp [hlt k hkn hkmay]
    · simp only [Bool.or_eq_true, Bool.and_eq_true, decide_eq_true_eq]
      omega
  refine find?_eq_some_of_unique hmem hbest fun x hx hxbest => ?_
  have hxn := List.all_eq_true.mp hxbest n hmem
  have hnx := List.all_eq_true.mp hbest x hx
  simp only [Bool.or_eq_true, Bool.and_eq_true, decide_eq_true_eq] at hxn hnx
  omega

end

section
variable {s : State} {i : Fin 262144}

/-- The end of a prefill whose turn it is (R144, R152). -/
theorem exec_prefillDone (hrun : s.halted .inference = false) {rid : BitVec 24} {logits : List Word} {dumps : List DumpData}
    (hrid : rid.toNat % 2 ^ 18 = i.val) (hgen : (s.manOf i).gen = rid.toNat / 2 ^ 18) (hphase : (s.manOf i).phase = .running)
    (hst : (s.manOf i).st = .prefill ∨ (s.manOf i).st = .resuming) (hfirst : s.prefillFirst i = true) :
    ((s.prefillFailed (s.manOf i) = true → exec (.prefillDone rid logits dumps) s = .next (s.endRequest i 8 0xD 0)) ∧
      (s.prefillFailed (s.manOf i) = false → (s.manOf i).berthsShort = 0 →
        logits.length = (s.slotOf (s.manOf i).slot).vocab →
        exec (.prefillDone rid logits dumps) s =
          .next ((((((s.setWritten i (s.manOf i).ctx).modMan i (fun m => { m with pre := 0, phase := .reading })).fnCount
            (s.manOf i).fn .prefilled (s.manOf i).pre).prefillOver i).issueMirror i false).firstToken i
              (logits.map (·.toNat)) dumps))) := by
  have hlive : (s.manOf i).st ≠ .free ∧ (s.manOf i).st ≠ .quiet := by
    rcases hst with hst | hst <;> simp [hst]
  obtain ⟨hfree, hquiet⟩ := hlive
  refine ⟨fun hfail => ?_, fun hok hshort hlen => ?_⟩ <;>
    refine (unlessHalted_runs hrun _).trans (congrArg _ ((arrival_current hrid hgen hfree hquiet).trans ?_))
  · simp [hphase, hst, hfirst, hfail]
  · simp [hphase, hst, hfirst, hok, hshort, hlen]

/-- A paused request resumes, or stays with its EXPIRY set (R159, R160). -/
theorem runs_pauseComplete (hrun : s.halted .inference = false) (hst : (s.manOf i).st = .pausing)
    (hmoves : (s.manOf i).moves = []) (hflight : (s.manOf i).ckptFlight = none) (hpend : (s.manOf i).pend ≠ 3)
    (hsorted : tsorted 0 s.hm.man = true) :
    Runs (.pauseComplete i) s (fun t =>
      (t.manOf i).st = .paused ∧ (t.manOf i).expiry = s.T + (s.manOf i).ttl * 10 ^ 9) := by
  have hman : ((s.writeProv i 4 ((s.manOf i).reason == 3)).postEvent i 4 0 (s.manOf i).reason 0).hm = s.hm := by simp
  refine ⟨_, (unlessHalted_runs hrun _).trans ((onlyIf_true (by simp [hst, hmoves, hflight]) ..).trans
    (congrArg _ (if_neg hpend))), ?_⟩
  dsimp only
  unfold State.modMan
  rw [manOf_setMan_same (by rwa [hman])]
  simp [manOf_congr hman]

/-- A manifest is free after its quiet time (R138). -/
theorem runs_manifestQuietEnd (hrun : s.halted .inference = false) (hst : (s.manOf i).st = .quiet)
    (hdue : (s.manOf i).quietUntil ≤ (s.reachRaw (s.manOf i).quietUntil).td.raw) :
    Runs (.manifestQuietEnd i) s (fun t =>
      t.hm.freed = s.hm.freed ++ [i.val] ∧ t.td = (s.reachRaw (s.manOf i).quietUntil).td ∧
      (tsorted 0 s.hm.man = true → t.manOf i = { s.manOf i with st := .free, quietUntil := 0 })) := by
  have hexec : exec (.manifestQuietEnd i) s = .next
      (let u := (s.reachRaw (s.manOf i).quietUntil).setMan i { s.manOf i with st := .free, quietUntil := 0 }
       { u with hm := { u.hm with freed := u.hm.freed ++ [i.val] } }) :=
    (unlessHalted_runs hrun _).trans (onlyIf_true (by simp [hst, hdue]) ..)
  refine ⟨_, hexec, ?_, rfl, fun hsorted => ?_⟩
  · simp only [setMan_freed, State.reachRaw_hm]
  · rw [manOf_freed, manOf_setMan_same (by rwa [State.reachRaw_hm])]

end

section
variable {s : State} {i : Fin 262144}

/-- The buffers of a request are read (R151, R161). -/
theorem exec_promptReadDone (hrun : s.halted .inference = false) (hphase : (s.manOf i).phase = .reading) :
    ((s.manOf i).st = .admitted →
      exec (.promptReadDone i) s = .next (s.promptRead i (SubEntry.parse (s.manOf i).entry))) ∧
    ((s.manOf i).st = .resuming →
      exec (.promptReadDone i) s = .next (s.appendRead i (SubEntry.parse (s.manOf i).entry))) := by
  refine ⟨fun hst => ?_, fun hst => ?_⟩ <;>
    refine (unlessHalted_runs hrun _).trans ((onlyIf_true (by simp [hphase, hst]) ..).trans ?_)
  · rw [if_pos hst]
  · rw [if_neg (by simp [hst])]

/-- A request that is to be placed, by what prefillDie says (R152). -/
theorem exec_prefillPlace (hrun : s.halted .inference = false) (peer) (hphase : (s.manOf i).phase = .place)
    (hst : (s.manOf i).st = .admitted ∨ (s.manOf i).st = .resuming) (hradio : s.radioOnly = false) :
    exec (.prefillPlace i peer) s = .next (match s.prefillDie (s.manOf i).fn with
      | none => s.waitOnce i (hmBlock + 0x050)
      | some n => (s.modMan i (fun m =>
          { m with counted := m.counted.filter (· != hmBlock + 0x050) })).placePrefill i n peer) :=
  (unlessHalted_runs hrun _).trans ((if_pos hphase).trans
    (onlyIf_true (by rcases hst with hst | hst <;> simp [hst, hradio]) ..))

end

/-- Settles O16, command by command. -/
theorem requestProgress : Obligations.RequestProgress := by
  unfold Obligations.RequestProgress
  intro s hrun
  dsimp only
  refine ⟨fun i => ⟨fun hphase => (exec_promptReadDone hrun hphase).1, fun hphase => (exec_promptReadDone hrun hphase).2,
      fun peer hphase hst hradio => ⟨fun hnone hcounted => ?_, fun n hn hmay hle hlt => ?_⟩,
      fun rid logits dumps hrid hgen hphase hst hfirst => exec_prefillDone hrun hrid hgen hphase hst hfirst,
      fun hst hmoves hflight => ⟨runs_pauseComplete hrun hst hmoves hflight, fun hpend => ?_⟩,
      runs_manifestQuietEnd hrun⟩,
    fun dumps => ⟨fun hstep hsel => ?_, fun hstep hbatch => ?_⟩, fun hstep hbatch hradio hflight => ?_, ?_⟩
  case refine_1 =>
    refine (exec_prefillPlace hrun peer hphase hst hradio).trans ?_
    rw [prefillDie_none hnone]
    exact congrArg _ (if_neg (by simpa using hcounted))
  case refine_2 =>
    refine (exec_prefillPlace hrun peer hphase hst hradio).trans ?_
    rw [prefillDie_some hn hmay hle hlt]
  case refine_3 =>
    exact (unlessHalted_runs hrun _).trans ((onlyIf_true (by simp [hst, hmoves, hflight]) ..).trans (congrArg _ (if_pos hpend)))
  case refine_4 =>
    refine (unlessHalted_runs hrun _).trans ((onlyIf_true (by simp [hstep, hsel]) ..).trans ?_)
    rw [if_pos hstep]
  case refine_5 =>
    refine (unlessHalted_runs hrun _).trans ((onlyIf_true (by simp [hstep, hbatch]) ..).trans ?_)
    rw [if_neg (by simp [hstep])]
  case refine_6 => exact (unlessHalted_runs hrun _).trans (onlyIf_true (by simp [hstep, hbatch, hradio]; simpa using hflight) ..)
  case refine_7 => exact unlessHalted_runs hrun _

end Sys2Proof

namespace Sys2Proof
open Machine

/-! ### O17: pulls, mirrors, checkpoints and the rebuild of the berth table -/

section
variable {s : State} {i j k : Nat}

/-! #### The berth table -/

theorem berthOf_congr {t : State} (h : t.hm.bt = s.hm.bt) (k : Nat) : t.berthOf k = s.berthOf k := by
  unfold State.berthOf
  rw [h]

theorem berthOf_setBerth_same (h : tsorted 0 s.hm.bt = true) (b : Berth) : (s.setBerth k b).berthOf k = b :=
  tget_tset_same _ h k b

@[simp] theorem modMan_bt (s : State) (i f) : (s.modMan i f).hm.bt = s.hm.bt := rfl

theorem sliceStore_tables (s : State) (r : Slot) (t : Tier) (f k o : Nat) (bs : List Byte) :
    (s.sliceStore r t f k o bs).hm.man = s.hm.man ∧ (s.sliceStore r t f k o bs).hm.bt = s.hm.bt := by
  unfold State.sliceStore
  split
  · exact ⟨rfl, rfl⟩
  · exact ⟨rfl, rfl⟩

theorem sendRecord_bt (s : State) (i : Nat) : (s.sendRecord i).hm.bt = s.hm.bt := by
  unfold State.sendRecord
  dsimp only
  split
  · split
    · rfl
    · rfl
  · rfl

/-- The entry of a berth that has landed names its new frame (R154). -/
theorem berthLands_berthOf (hsorted : tsorted 0 s.hm.bt = true) {e f : Nat} {tier : Tier}
    (he : (s.manOf i).entries[j]? = some e) :
    ((s.berthLands i j tier f).berthOf e).tier = tier ∧ ((s.berthLands i j tier f).berthOf e).frame = f ∧
      ((s.berthLands i j tier f).berthOf e).pulled = 0 := by
  unfold State.berthLands
  dsimp only
  rw [he]
  dsimp only
  rw [berthOf_congr (modMan_bt ..), berthOf_setBerth_same hsorted]
  split
  · exact ⟨rfl, rfl, rfl⟩
  · exact ⟨rfl, rfl, rfl⟩

/-! #### What the rebuild's folds leave -/

theorem writeShadow_bt (s : State) : s.writeShadow.hm.bt = s.hm.bt := by
  refine foldl_keeps (P := fun t => t.hm.bt = s.hm.bt) (fun t e h => ?_) _ rfl
  exact h

/-- Changing manifests one after the other changes the Harbourmaster in its manifest table alone. -/
theorem foldl_modMan_hm {α : Type} (key : α → Nat) (f : α → Manifest → Manifest) (l : List α) (s : State) :
    { (l.foldl (fun t e => t.modMan (key e) (f e)) s).hm with man := s.hm.man } = s.hm := by
  refine foldl_keeps (P := fun t => { t.hm with man := s.hm.man } = s.hm) (fun t e h => ?_) l rfl
  exact h

end

section
variable {s : State} {rid : BitVec 24} {i j : Nat}

/-- An internal arrival for a request that decodes is taken (R139). -/
theorem arrival_decode {act : Nat → Manifest → State} (hrid : rid.toNat % 2 ^ 18 = i)
    (hgen : (s.manOf i).gen = rid.toNat / 2 ^ 18) (hst : (s.manOf i).st = .decode) : s.arrival rid act = act i (s.manOf i) :=
  arrival_current hrid hgen (by simp [hst]) (by simp [hst])

/-- Every internal arrival for a request that is gone only counts (R139). -/
theorem exec_stale (hrun : s.halted .inference = false)
    (hstale : (s.manOf (rid.toNat % 2 ^ 18)).gen ≠ rid.toNat / 2 ^ 18 ∨ (s.manOf (rid.toNat % 2 ^ 18)).st = .free ∨
      (s.manOf (rid.toNat % 2 ^ 18)).st = .quiet) {c : Instr}
    (hc : (∃ b k l d, c = .berthSliceArrive rid b k l d) ∨ (∃ p, c = .pullSourceError rid p) ∨
      (∃ b, c = .mirrorCopyDone rid b) ∨ c = .checkpointCommit rid ∨ c = .checkpointFail rid ∨
      (∃ l d, c = .prefillDone rid l d) ∨ (∃ l, c = .rakeSelect rid l) ∨ (∃ l, c = .sieveSelect rid l) ∨
      (∃ l, c = .specDraft rid l) ∨ (∃ l, c = .specVerify rid l)) :
    exec c s = .next (s.count (hmBlock + 0x040) 1) := by
  have hdrop (act) : unlessHalted s .inference (.next (s.arrival rid act)) = .next (s.count (hmBlock + 0x040) 1) := by
    rw [unlessHalted_runs hrun, arrival_stale hstale]
  rcases hc with ⟨b, k, l, d, rfl⟩ | ⟨p, rfl⟩ | ⟨b, rfl⟩ | rfl | rfl | ⟨l, d, rfl⟩ | ⟨l, rfl⟩ | ⟨l, rfl⟩ | ⟨l, rfl⟩ |
    ⟨l, rfl⟩ <;> exact hdrop _

/-! #### A portion of a slice -/

section
variable {b : Fin 2048} {k : Fin 4} {l : Fin 1024} {data : List Byte} {e : Nat} {g : Tier × Nat}
  (hrun : s.halted .inference = false) (hrid : rid.toNat % 2 ^ 18 = i) (hgen : (s.manOf i).gen = rid.toNat / 2 ^ 18)
  (hst : (s.manOf i).st = .decode ∨ (s.manOf i).st = .pausing) (he : (s.manOf i).entries[b.val]? = some e)
  (hg : (s.manOf i).goal b = some g) (hdue : s.portionDue (s.manOf i) (k.val, l.val, b.val) = true)

/-- The words that the portion is read from hold an uncorrectable error. -/
def Machine.State.portionBad (s : State) (r : Slot) (c : Berth) (k l : Nat) : Prop :=
  ∃ a, r.sliceAddr c.tier c.frame k = some a ∧ s.rangeBad (a + l * r.portion) r.portion = true

/-- The portion at its new place, and the portions still to come. -/
def Machine.State.portionStored (s : State) (i : Nat) (g : Tier × Nat) (e k l b : Nat) (data : List Byte) : State :=
  let m := s.manOf i
  let r := s.slotOf m.slot
  let c := s.berthOf e
  (s.sliceStore r g.1 g.2 k (l * r.portion) (s.sliceLoad r c.tier c.frame k (l * r.portion) r.portion data)).modMan i
    (fun q => { q with pulls := lrmFirst (· == (k, l, b)) m.pulls })

theorem portionStored_bt (s : State) (i g e k l b data) : (s.portionStored i g e k l b data).hm.bt = s.hm.bt :=
  (sliceStore_tables ..).2

/-- A stored portion changes of its request the portions still to come alone. -/
theorem portionStored_manOf (hsorted : tsorted 0 s.hm.man = true) (g e k l b data) :
    (s.portionStored i g e k l b data).manOf i =
      { s.manOf i with pulls := lrmFirst (· == (k, l, b)) (s.manOf i).pulls } := by
  unfold State.portionStored State.modMan
  dsimp only
  rw [manOf_setMan_same (by rwa [(sliceStore_tables ..).1]), manOf_of_man (sliceStore_tables ..).1]

/-- In a pull a berth moves to a GD frame (R154). -/
theorem goal_decode {m : Manifest} (hst : m.st = .decode) (hg : m.goal j = some g) : g.1 = .gd := by
  unfold Manifest.goal at hg
  rw [hst] at hg
  obtain ⟨f, -, rfl⟩ := Option.map_eq_some_iff.mp hg
  rfl

/-- Portions of the slice are still to come. -/
theorem sliceLeft_iff {left : List (Nat × Nat × Nat)} {b k : Nat} :
    left.any (fun q => q.2.2 == b && q.1 == k) = true ↔ ∃ q ∈ left, q.2.2 = b ∧ q.1 = k := by
  simp only [List.any_eq_true, Bool.and_eq_true, beq_iff_eq]

/-- Portions of the berth are still to come. -/
theorem berthLeft_iff {left : List (Nat × Nat × Nat)} {b : Nat} :
    left.any (fun q => q.2.2 == b) = true ↔ ∃ q ∈ left, q.2.2 = b := by
  simp only [List.any_eq_true, beq_iff_eq]

include hrun hrid hgen hst he hg hdue

omit hst in
/-- A bad portion of a pull fails the request at the boundary (R155). -/
theorem exec_berthSliceArrive_bad (hbad : s.portionBad (s.slotOf (s.manOf i).slot) (s.berthOf e) k l)
    (hdecode : (s.manOf i).st = .decode) :
    exec (.berthSliceArrive rid b k l data) s = .next (s.setMan i { s.manOf i with leave := .fail 0xD }) := by
  obtain ⟨a, haddr, hrange⟩ := hbad
  refine (unlessHalted_runs hrun _).trans (congrArg _ ((arrival_decode hrid hgen hdecode).trans ?_))
  simp [he, hg, hdue, haddr, hrange, hdecode]

/-- A good portion, or one of a pause, is written; what follows depends on the portions still to come (R154). -/
theorem exec_berthSliceArrive_good
    (hgood : ¬ s.portionBad (s.slotOf (s.manOf i).slot) (s.berthOf e) k l ∨ (s.manOf i).st = .pausing) :
    exec (.berthSliceArrive rid b k l data) s =
      .next (let left := lrmFirst (· == (k.val, l.val, b.val)) (s.manOf i).pulls
        let t := s.portionStored i g e k l b data
        if left.any (fun q => q.2.2 == b.val && q.1 == k.val) then t
        else if left.any (fun q => q.2.2 == b.val) then
          t.setBerth e { s.berthOf e with pulled := (s.berthOf e).pulled ||| 2 ^ k.val }
        else if (s.manOf i).st = .pausing then (t.berthLands i b g.1 g.2).pauseLanded i else t.berthLands i b g.1 g.2) := by
  have hlive : (s.manOf i).st ≠ .free ∧ (s.manOf i).st ≠ .quiet := by
    rcases hst with hst | hst <;> simp [hst]
  obtain ⟨hfree, hquiet⟩ := hlive
  refine (unlessHalted_runs hrun _).trans (congrArg _ ((arrival_current hrid hgen hfree hquiet).trans ?_))
  simp only [he, hg]
  rw [if_neg (by simp [hdue]), if_neg]
  · rfl
  · rintro ⟨hbad, hdecode⟩
    split at hbad
    · next a haddr => exact hgood.elim (· ⟨a, haddr, hbad⟩) (by simp [hdecode])
    · exact absurd hbad Bool.false_ne_true

/-- The last portion of a berth of a pull: the entry names its GD frame (R154). -/
theorem runs_berthSliceArrive_last
    (hgood : ¬ s.portionBad (s.slotOf (s.manOf i).slot) (s.berthOf e) k l ∨ (s.manOf i).st = .pausing)
    (hlast : ∀ q ∈ lrmFirst (· == (k.val, l.val, b.val)) (s.manOf i).pulls, q.2.2 ≠ b.val) (hdecode : (s.manOf i).st = .decode)
    (hman : tsorted 0 s.hm.man = true) (hbt : tsorted 0 s.hm.bt = true) :
    Runs (.berthSliceArrive rid b k l data) s (fun t =>
      (t.berthOf e).tier = .gd ∧ (t.berthOf e).frame = g.2 ∧ (t.berthOf e).pulled = 0) := by
  refine ⟨_, exec_berthSliceArrive_good hrun hrid hgen hst he hg hdue hgood, ?_⟩
  dsimp only
  have hberth : ¬ ∃ q ∈ lrmFirst (· == (k.val, l.val, b.val)) (s.manOf i).pulls, q.2.2 = b.val :=
    fun ⟨q, hq, hqb⟩ => hlast q hq hqb
  have hslice : ¬ ∃ q ∈ lrmFirst (· == (k.val, l.val, b.val)) (s.manOf i).pulls, q.2.2 = b.val ∧ q.1 = k.val :=
    fun ⟨q, hq, hqb, _⟩ => hlast q hq hqb
  rw [if_neg (mt sliceLeft_iff.mp hslice), if_neg (mt berthLeft_iff.mp hberth), if_neg (by simp [hdecode]),
    ← goal_decode hdecode hg]
  exact berthLands_berthOf (by rwa [portionStored_bt]) (by rwa [portionStored_manOf hman])

end

/-! #### Mirrors -/

/-- A copy that brings every written position marks its berth mirrored (R157). -/
theorem runs_mirrorCopyDone (hrun : s.halted .inference = false) (hrid : rid.toNat % 2 ^ 18 = i)
    (hgen : (s.manOf i).gen = rid.toNat / 2 ^ 18) (hst : (s.manOf i).st = .decode) {b : Fin 2048} {e : Nat} {c : MirrorCopy}
    (he : (s.manOf i).entries[b.val]? = some e) (hc : (s.manOf i).copies.find? (fun c => c.berth == b.val) = some c)
    (hfill : (s.berthOf e).fill ≤ c.fill) (hbt : tsorted 0 s.hm.bt = true) :
    Runs (.mirrorCopyDone rid b) s (fun t => (t.berthOf e).mirrored = true) := by
  refine ⟨_, (unlessHalted_runs hrun _).trans (congrArg _ (arrival_decode hrid hgen hst)), ?_⟩
  simp only [he, hc]
  rw [if_neg (Nat.not_lt.mpr hfill), berthOf_congr (sendRecord_bt ..), berthOf_setBerth_same]
  exact hbt

/-! #### The rebuild -/

/-- A request is held until the table has been rebuilt. -/
theorem held_iff : s.liveMen.any (fun e => e.2.counted.contains (hmBlock + 0x044) && (s.nextEntry e.2).isNone) = true ↔
    ∃ e ∈ s.liveMen, e.2.counted.contains (hmBlock + 0x044) = true ∧ s.nextEntry e.2 = none := by
  simp only [List.any_eq_true, Bool.and_eq_true, Option.isNone_iff_eq_none]

/-- No stop and no helm fences the PF's writes. -/
theorem agentIf_isPf {m : Agent} (hm : s.isPf m = true) {p : Bool} (hp : p = true) (t : State) : agentIf m p s t = .next t := by
  obtain ⟨rfl, -⟩ : m = .pf ∧ s.fnLive 0 = true := by simpa [State.isPf] using hm
  exact agentIf_acts (agentHalted_pf s) rfl hp t

/-- A rebuild starts where none runs (R162). -/
theorem btStart_none (h : s.hm.btRun = none) : s.btStart = { s with hm := { s.hm with btRun := some {} } } := by
  unfold State.btStart
  rw [h]
  rfl

/-- A pass writes the shadow, and its log is empty (R162). -/
theorem exec_btRebuildPassEnd (hrun : s.halted .inference = false) {r} (hr : s.hm.btRun = some r) :
    exec .btRebuildPassEnd s = .next (let t := s.writeShadow
      { t with hm := { t.hm with btRun := some { passes := r.passes + 1, log := 0 } } }) := by
  show execBtRebuildPassEnd s = _
  unfold execBtRebuildPassEnd
  rw [hr]
  exact unlessHalted_runs hrun _

/-- The flip takes the packed table, toggles LIVE and ends the rebuild (R162). -/
theorem runs_btFlip (hrun : s.halted .inference = false) {r} (hr : s.hm.btRun = some r) (hpass : 0 < r.passes)
    (hlog : r.log = 0) (hstep : s.hm.stepping = false) :
    Runs .btFlip s (fun t => t.hm.btLive = !s.hm.btLive ∧ t.hm.btFlips = (s.hm.btFlips + 1) % 2 ^ 16 ∧ t.hm.btRun = none ∧
      t.hm.bt = s.packed.1) := by
  refine ⟨_, (unlessHalted_runs hrun _).trans (onlyIf_true (by simp [hr, hpass, hlog, hstep]) ..), ?_⟩
  have hkept := foldl_modMan_hm (fun e : Nat × Nat × Nat => e.1)
    (fun e m => { m with ext := if e.2.2 = 0 then [] else [(e.2.1, e.2.2)] }) s.packed.2
    { s with hm := { s.hm with
      bt := s.packed.1, btLive := !s.hm.btLive, btFlips := (s.hm.btFlips + 1) % 2 ^ 16, btRun := none } }
  exact ⟨congrArg Serving.btLive hkept, congrArg Serving.btFlips hkept, congrArg Serving.btRun hkept, congrArg Serving.bt hkept⟩

end

/-- Settles O17, command by command. -/
theorem berthsAndCheckpoints : Obligations.BerthsAndCheckpoints := by
  unfold Obligations.BerthsAndCheckpoints
  intro s hrun
  dsimp only
  refine ⟨fun rid => ⟨fun hstale c hc => exec_stale hrun hstale hc,
      fun hgen hst b k l data e g he hg hdue => ⟨fun hbad hdecode => ?_, fun hgood => ⟨fun hmore => ?_, fun hmore hnone => ?_,
        fun hlast => ⟨fun hpausing => ?_, fun hdecode hman hbt => ?_⟩⟩⟩,
      fun hgen hst => ⟨fun p => ?_, fun b e c he hc hfill hbt => runs_mirrorCopyDone hrun rfl hgen hst he hc hfill hbt,
        fun n hflight => ⟨fun hsent => ?_, ?_⟩⟩⟩,
    fun hwhy hnone => ?_, fun m hm hnone => ?_, fun r hr => ⟨?_, runs_btFlip hrun hr, fun hpass hlog => ?_⟩⟩
  case refine_1 => exact exec_berthSliceArrive_bad hrun rfl hgen he hg hdue hbad hdecode
  case refine_2 =>
    refine (exec_berthSliceArrive_good hrun rfl hgen hst he hg hdue hgood).trans ?_
    dsimp only
    rw [if_pos (sliceLeft_iff.mpr hmore)]
    rfl
  case refine_3 =>
    refine (exec_berthSliceArrive_good hrun rfl hgen hst he hg hdue hgood).trans ?_
    dsimp only
    rw [if_neg (mt sliceLeft_iff.mp fun ⟨q, hq, hqb, hqk⟩ => hnone q hq hqb hqk), if_pos (berthLeft_iff.mpr hmore)]
    rfl
  case refine_4 =>
    refine (exec_berthSliceArrive_good hrun rfl hgen hst he hg hdue hgood).trans ?_
    dsimp only
    rw [if_neg (mt sliceLeft_iff.mp fun ⟨q, hq, hqb, _⟩ => hlast q hq hqb),
      if_neg (mt berthLeft_iff.mp fun ⟨q, hq, hqb⟩ => hlast q hq hqb), if_pos hpausing]
    rfl
  case refine_5 => exact runs_berthSliceArrive_last hrun rfl hgen hst he hg hdue hgood hlast hdecode hman hbt
  case refine_6 =>
    exact (unlessHalted_runs hrun _).trans
      (congrArg _ ((arrival_decode rfl hgen hst).trans (if_pos hst)))
  case refine_7 =>
    refine (unlessHalted_runs hrun _).trans
      (congrArg _ ((arrival_decode rfl hgen hst).trans ?_))
    simp only [hflight, hsent, if_true]
  case refine_8 =>
    exact (unlessHalted_runs hrun _).trans
      (congrArg _ ((arrival_decode rfl hgen hst).trans (if_pos (by rw [hflight]; rfl))))
  case refine_9 =>
    have hwhy : (s.liveMen.any (fun e => e.2.counted.contains (hmBlock + 0x044) && (s.nextEntry e.2).isNone) ||
        decide (16 * longRuns 0 s.hm.bt < 2 ^ 20 - s.hm.bt.length)) = true := by
      rw [Bool.or_eq_true, held_iff, decide_eq_true_eq]
      exact hwhy
    exact (unlessHalted_runs hrun _).trans ((onlyIf_true hwhy ..).trans (congrArg _ (btStart_none hnone)))
  case refine_10 => exact (agentIf_isPf hm hm _).trans (congrArg _ (btStart_none hnone))
  case refine_11 => exact ⟨_, exec_btRebuildPassEnd hrun hr, rfl, writeShadow_bt s⟩
  case refine_12 => exact (unlessHalted_runs hrun _).trans (onlyIf_true (by simp [hr, hpass, hlog]) ..)

end Sys2Proof

namespace Sys2Proof
open Machine

/-! ### O18: model slots and the Harbourmaster's registers -/

/-- A table with rising keys reads at the key of an entry that entry's value. -/
theorem tget_of_mem {α : Type} (d : α) {l : Table α} {lo : Nat} (hl : tsorted lo l = true) {e : Nat × α} (h : e ∈ l) :
    tget d l e.1 = e.2 := by
  induction l generalizing lo with
  | nil => cases h
  | cons x l ih =>
    simp only [tsorted, Bool.and_eq_true, decide_eq_true_eq] at hl
    obtain ⟨-, hrest⟩ := hl
    rcases List.mem_cons.mp h with rfl | h
    · exact if_pos rfl
    · have hlt : x.1 < e.1 := le_key_of_mem hrest h
      exact (if_neg (by omega)).trans (ih hrest h)

/-- A key that does not read as an unlisted one is listed. -/
theorem mem_of_tget_ne {α : Type} {d : α} {l : Table α} {i : Nat} (h : tget d l i ≠ d) : (i, tget d l i) ∈ l := by
  induction l with
  | nil => exact absurd rfl h
  | cons x l ih =>
    by_cases hi : i = x.1
    · have hx : tget d (x :: l) i = x.2 := if_pos hi
      rw [hx, hi]
      exact List.mem_cons_self
    · have hx : tget d (x :: l) i = tget d l i := if_neg hi
      rw [hx] at h ⊢
      exact List.mem_cons_of_mem _ (ih h)

section
variable {s : State}

@[simp] theorem setSlot_mem (s : State) (k r) : (s.setSlot k r).mem = s.mem := rfl
@[simp] theorem slotError_slots (s : State) (k code) : (s.slotError k code).slots = s.slots := rfl
@[simp] theorem slotError_man (s : State) (k code) : (s.slotError k code).hm.man = s.hm.man := rfl
@[simp] theorem slotError_mem (s : State) (k code) : (s.slotError k code).mem = s.mem := rfl
@[simp] theorem mgmtEvent_slots (s : State) : s.mgmtEvent.slots = s.slots :=
  (Spares.refl ⟨[.msix], [], .none⟩ s).mgmtEvent.parts .slots (by decide)
@[simp] theorem mgmtEvent_hm (s : State) : s.mgmtEvent.hm = s.hm :=
  (Spares.refl ⟨[.msix], [], .none⟩ s).mgmtEvent.parts .hm (by decide)
@[simp] theorem mgmtEvent_mem (s : State) : s.mgmtEvent.mem = s.mem :=
  (Spares.refl ⟨[.msix], [], .none⟩ s).mgmtEvent.parts .mem (by decide)

theorem slotOf_congr {t : State} (h : t.slots = s.slots) (k : Nat) : t.slotOf k = s.slotOf k := by
  unfold State.slotOf
  rw [h]

theorem slotOf_setSlot_same (h : tsorted 0 s.slots = true) (k : Nat) (r : Slot) : (s.setSlot k r).slotOf k = r :=
  tget_tset_same _ h k r

theorem manOf_of_mem_liveMen (h : tsorted 0 s.hm.man = true) {e : Nat × Manifest} (he : e ∈ s.liveMen) : s.manOf e.1 = e.2 :=
  tget_of_mem _ h (List.mem_filter.mp he).1

/-- A manifest that decodes is live. -/
theorem mem_liveMen_of_decode {i : Nat} (h : (s.manOf i).st = .decode) : (i, s.manOf i) ∈ s.liveMen := by
  refine List.mem_filter.mpr ⟨mem_of_tget_ne fun hempty => ?_, by simp [h]⟩
  have hfree : (s.manOf i).st = .free := congrArg Manifest.st hempty
  rw [h] at hfree
  cases hfree

/-! #### UNLOAD with FORCE -/

/-- Manifests written one after the other, each a function of its index. -/
theorem manOf_foldl_setMan (v : Nat → Manifest) (j : Nat) (l : List Nat) (hsorted : tsorted 0 s.hm.man = true) :
    (l.foldl (fun t i => t.setMan i (v i)) s).manOf j = if j ∈ l then v j else s.manOf j := by
  induction l generalizing s with
  | nil => rfl
  | cons i l ih =>
    rw [List.foldl_cons, ih (tsorted_tput _ hsorted (Nat.zero_le i))]
    by_cases hij : j = i
    · subst hij
      simp [manOf_setMan_same hsorted]
    · simp [hij, manOf_setMan_other hij]

theorem foldl_setMan_slots (v : Nat → Manifest) (l : List Nat) :
    (l.foldl (fun t i => t.setMan i (v i)) s).slots = s.slots := by
  refine foldl_keeps (P := fun t => t.slots = s.slots) (fun t i h => ?_) l rfl
  exact h

/-- A slot that nothing names has nothing to unload. -/
theorem unloadAll_of_unnamed {k : Nat} (h : s.slotNamed k = false) : s.unloadAll k = s := by
  have hnone : s.liveMen.filter (fun e => e.2.slot == k) = [] := by
    rw [List.filter_eq_nil_iff]
    exact fun e he => by simpa using List.any_eq_false.mp h e he
  unfold State.unloadAll
  rw [hnone]
  rfl

/-- Where every request of the slot decodes, each is to leave at the boundary (R141). -/
theorem unloadAll_of_decode {k : Nat} (hdecode : ∀ e ∈ s.liveMen, e.2.slot = k → e.2.st = .decode)
    (hsorted : tsorted 0 s.hm.man = true) :
    s.unloadAll k = ((s.liveMen.filter (fun e => e.2.slot == k)).map (·.1)).foldl
      (fun t i => t.setMan i { s.manOf i with leave := .unload }) s := by
  unfold State.unloadAll
  rw [List.foldl_map]
  refine List.foldl_ext _ _ _ fun t e he => ?_
  obtain ⟨hlive, hslot⟩ := List.mem_filter.mp he
  rw [if_pos (hdecode e hlive (by simpa using hslot)), manOf_of_mem_liveMen hsorted hlive]

/-- A request of the slot, after it. -/
theorem unloadAll_manOf {k : Nat} (hdecode : ∀ e ∈ s.liveMen, e.2.slot = k → e.2.st = .decode)
    (hsorted : tsorted 0 s.hm.man = true) {e : Nat × Manifest} (he : e ∈ s.liveMen) (hslot : e.2.slot = k) :
    (s.unloadAll k).manOf e.1 = { e.2 with leave := .unload } := by
  have hmem : e.1 ∈ (s.liveMen.filter (fun e => e.2.slot == k)).map (·.1) :=
    List.mem_map_of_mem (List.mem_filter.mpr ⟨he, by simp [hslot]⟩)
  rw [unloadAll_of_decode hdecode hsorted, manOf_foldl_setMan _ _ _ hsorted, if_pos hmem, manOf_of_mem_liveMen hsorted he]

theorem unloadAll_slots {k : Nat} (hdecode : ∀ e ∈ s.liveMen, e.2.slot = k → e.2.st = .decode)
    (hsorted : tsorted 0 s.hm.man = true) : (s.unloadAll k).slots = s.slots := by
  rw [unloadAll_of_decode hdecode hsorted, foldl_setMan_slots]

/-- Its requests name the slot until they have left. -/
theorem slotNamed_unloadAll {k : Nat} (hdecode : ∀ e ∈ s.liveMen, e.2.slot = k → e.2.st = .decode)
    (hsorted : tsorted 0 s.hm.man = true) (hnamed : s.slotNamed k = true) : (s.unloadAll k).slotNamed k = true := by
  obtain ⟨e, he, hek⟩ := List.any_eq_true.mp hnamed
  have hslot : e.2.slot = k := by simpa using hek
  have hman := unloadAll_manOf hdecode hsorted he hslot
  have hst : ((s.unloadAll k).manOf e.1).st = .decode := by
    rw [hman]
    exact hdecode e he hslot
  refine List.any_eq_true.mpr ⟨_, mem_liveMen_of_decode hst, ?_⟩
  rw [hman]
  exact hek

/-- The slot drains. -/
def Machine.State.drainSlot (s : State) (k : Nat) : State := s.setSlot k { s.slotOf k with st := .draining }

/-- A write of the PF outside its command's occasion. -/
theorem agentIf_isPf_ignored {m : Agent} (hm : s.isPf m = true) {p : Bool} (hp : p = false) (t : State) :
    agentIf m p s t = .next s := by
  obtain ⟨rfl, -⟩ : m = .pf ∧ s.fnLive 0 = true := by simpa [State.isPf] using hm
  exact agentIf_ignored ⟨agentHalted_pf s, rfl⟩ hp t

/-- UNLOAD with FORCE of a slot that nothing names empties it at once (R141). -/
theorem exec_hmSlotUnloadForce_unnamed {m : Agent} {k : Fin 16} (hm : s.isPf m = true)
    (hst : (s.slotOf k).st = .ready ∨ (s.slotOf k).st = .draining) (hnamed : s.slotNamed k = false) :
    exec (.hmSlotUnloadForce m k) s = .next
      ((((s.setSlot k { s.slotOf k with st := .draining }).setSlot k {}).mgmtEvent).slotError k 0) := by
  have hleft : (s.setSlot k { s.slotOf k with st := .draining }).slotNamed k = false := hnamed
  refine (agentIf_isPf hm hm _).trans (congrArg _ ((if_pos hst).trans ?_))
  rw [unloadAll_of_unnamed hleft, if_neg (by simp [hleft])]

/-- UNLOAD with FORCE of a slot whose requests decode: they are to leave, and the slot drains (R141). -/
theorem runs_hmSlotUnloadForce {m : Agent} {k : Fin 16} (hm : s.isPf m = true)
    (hst : (s.slotOf k).st = .ready ∨ (s.slotOf k).st = .draining)
    (hdecode : ∀ e ∈ s.liveMen, e.2.slot = k.val → e.2.st = .decode) (hnamed : s.slotNamed k = true)
    (hsorted : tsorted 0 s.hm.man = true) :
    Runs (.hmSlotUnloadForce m k) s (fun t =>
      (tsorted 0 s.slots = true → (t.slotOf k).st = .draining) ∧
      ∀ e ∈ s.liveMen, e.2.slot = k.val → (t.manOf e.1).leave = .unload) := by
  have hexec : exec (.hmSlotUnloadForce m k) s =
      .next (((s.drainSlot k).unloadAll k).slotError k 0) :=
    (agentIf_isPf hm hm _).trans (congrArg _ ((if_pos hst).trans
      (congrArg (fun t : State => t.slotError k 0) (if_pos (slotNamed_unloadAll (s := s.drainSlot k) hdecode hsorted hnamed)))))
  refine ⟨_, hexec, fun hslots => ?_, fun e he hek => ?_⟩
  · rw [slotOf_congr (slotError_slots ..), slotOf_congr (unloadAll_slots (s := s.drainSlot k) hdecode hsorted)]
    exact congrArg Slot.st (slotOf_setSlot_same hslots _ _)
  · rw [manOf_of_man (slotError_man ..), unloadAll_manOf (s := s.drainSlot k) hdecode hsorted he hek]

/-! #### LOAD -/

/-- LOAD of an EMPTY slot, by what its record gives (R140, R141). -/
theorem exec_hmSlotLoad_empty {m : Agent} {k : Fin 16} (hm : s.isPf m = true) (hst : (s.slotOf k).st = .empty) :
    exec (.hmSlotLoad m k) s = .next
      (match (if s.rangeOk (s.reg64 (hmBlock + 0x010) (hmBlock + 0x014)) 128 ∧
          s.rangeBad (s.reg64 (hmBlock + 0x010) (hmBlock + 0x014)) 128 = false
        then parseSlot (s.load (s.reg64 (hmBlock + 0x010) (hmBlock + 0x014)) 128) else none) with
      | some r => (s.slotError k 0).setSlot k r
      | none => (s.slotError k 1).mgmtEvent) :=
  (agentIf_isPf hm hm _).trans (congrArg _ (if_neg (not_not_intro hst)))

/-- Bank groups that a load needs and that have failed. -/
theorem lost_iff {r : SlotLoad} : r.groups.any (fun g => (s.isl g).st == .failedShort) = true ↔
    ∃ g ∈ r.groups, (s.isl g).st = .failedShort := by
  simp only [List.any_eq_true, beq_iff_eq]

/-- A load that has brought its whole package (R141). -/
theorem exec_slotLoadDone (hrun : s.halted .inference = false) {k : Fin 16} {r : SlotLoad} (hst : (s.slotOf k).st = .loading)
    (hparts : ∀ p ∈ r.parts, p.2.1 + p.2.2 ≤ (s.slotOf k).wpkgLen) :
    exec (.slotLoadDone k r) s = .next
      (let sl := s.slotOf k
      let parts := r.parts.map (fun p => (p.1.toNat, s.load (sl.wpkgAddr + p.2.1) p.2.2))
      if ¬ Config.sha3 (s.load sl.wpkgAddr sl.wpkgLen) = sl.wdigest then ((s.setSlot k {}).slotError k 2).mgmtEvent
      else match (if r.fits = false ∨ r.groups.any (fun g => (s.isl g).st == .failedShort) = true
          then none else s.carve sl) with
        | none => ((s.setSlot k {}).slotError k 3).mgmtEvent
        | some bases =>
          (((parts.foldl (fun t p => t.store p.1 p.2) s).setSlot k { sl with
            st := .ready, bases := bases, scratch := r.scratch.toNat, extent := r.extent.toNat
            groups := r.groups.map (·.val), sums := parts, specExact := r.specExact }).slotError k 0).mgmtEvent) :=
  (unlessHalted_runs hrun _).trans (onlyIf_true (by simpa [hst] using fun a b c h => hparts (a, b, c) h) ..)

/-- Placing weights changes memory alone among what the slot table and the Harbourmaster hold. -/
theorem foldl_store_slots (parts : List (Nat × List Byte)) :
    (parts.foldl (fun t p => t.store p.1 p.2) s).slots = s.slots := by
  refine foldl_keeps (P := fun t => t.slots = s.slots) (fun t p h => ?_) parts rfl
  exact h

/-- A load whose package matches and whose frames and weights fit (R140, log 148). -/
theorem runs_slotLoadDone (hrun : s.halted .inference = false) {k : Fin 16} {r : SlotLoad} {bases : List Nat}
    (hst : (s.slotOf k).st = .loading) (hparts : ∀ p ∈ r.parts, p.2.1 + p.2.2 ≤ (s.slotOf k).wpkgLen)
    (hdigest : Config.sha3 (s.load (s.slotOf k).wpkgAddr (s.slotOf k).wpkgLen) = (s.slotOf k).wdigest)
    (hfits : r.fits = true) (hgood : ∀ g ∈ r.groups, (s.isl g).st ≠ .failedShort)
    (hcarve : s.carve (s.slotOf k) = some bases) (hslots : tsorted 0 s.slots = true) :
    Runs (.slotLoadDone k r) s (fun t => (t.slotOf k).st = .ready ∧ (t.slotOf k).bases = bases ∧
      (t.slotOf k).specExact = r.specExact ∧ t.hm.slotErr = 0 ∧ t.hm.errSlot = k.val ∧
      t.mem = (r.parts.foldl (fun u p => u.store p.1.toNat (s.load ((s.slotOf k).wpkgAddr + p.2.1) p.2.2)) s).mem) := by
  have hfree : ¬ (r.fits = false ∨ r.groups.any (fun g => (s.isl g).st == .failedShort) = true) := by
    rw [lost_iff]
    rintro (hno | ⟨g, hg, hfailed⟩)
    · simp [hfits] at hno
    · exact hgood g hg hfailed
  refine ⟨_, exec_slotLoadDone hrun hst hparts, ?_⟩
  dsimp only
  rw [if_neg (not_not_intro hdigest), if_neg hfree, hcarve]
  dsimp only
  rw [slotOf_congr (mgmtEvent_slots _), slotOf_congr (slotError_slots ..),
    slotOf_setSlot_same (by rwa [foldl_store_slots]), mgmtEvent_hm, mgmtEvent_mem, slotError_mem, setSlot_mem, List.foldl_map]
  exact ⟨rfl, rfl, rfl, rfl, rfl, rfl⟩

end

/-- Settles O18, command by command. -/
theorem slotCommands : Obligations.SlotCommands := by
  unfold Obligations.SlotCommands
  dsimp only
  refine ⟨fun s m k hm => ⟨⟨fun r hst hok hbad hr => ?_, fun hst hrefused => ?_, fun hst => ?_⟩, fun hst => ?_, fun hst => ?_,
      exec_hmSlotUnloadForce_unnamed hm, runs_hmSlotUnloadForce hm, fun hst => ?_⟩,
    fun s m v hm => ⟨⟨fun hc => ?_, fun hc => ?_⟩, agentIf_isPf hm hm _⟩,
    fun s k r hrun => ⟨fun hst hnamed => ?_, fun hst hparts => ⟨fun hdigest => ?_, fun hdigest => ⟨fun hno => ?_,
      fun bases hfits hgood hcarve => runs_slotLoadDone hrun hst hparts hdigest hfits hgood hcarve⟩⟩⟩⟩
  case refine_1 =>
    rw [exec_hmSlotLoad_empty hm hst, if_pos ⟨hok, hbad⟩, hr]
  case refine_2 =>
    rw [exec_hmSlotLoad_empty hm hst]
    rcases hrefused with hok | hbad | hr
    · simp [hok]
    · simp [hbad]
    · simp [hr]
  case refine_3 => exact (agentIf_isPf hm hm _).trans (congrArg _ (if_pos hst))
  case refine_4 => exact (agentIf_isPf hm hm _).trans (congrArg _ (if_pos hst))
  case refine_5 => exact (agentIf_isPf hm hm _).trans (congrArg _ (if_neg hst))
  case refine_6 =>
    exact (agentIf_isPf hm hm _).trans (congrArg _ (if_neg (by rcases hst with hst | hst <;> simp [hst])))
  case refine_7 => exact agentIf_isPf hm (by simp [hm, hc]) _
  case refine_8 =>
    have hno : (v.toNat % 512 == 0 || (decide (8 ≤ v.toNat % 512) && decide (v.toNat % 512 ≤ 256))) = false := by
      simp only [Bool.or_eq_false_iff, Bool.and_eq_false_iff, beq_eq_false_iff_ne, decide_eq_false_iff_not]
      omega
    exact agentIf_isPf_ignored hm (by simp [hno]) _
  case refine_9 => exact (unlessHalted_runs hrun _).trans (onlyIf_true (by simp [hst, hnamed]) ..)
  case refine_10 =>
    rw [exec_slotLoadDone hrun hst hparts]
    exact congrArg _ (if_pos hdigest)
  case refine_11 =>
    have hnone : (if r.fits = false ∨ r.groups.any (fun g => (s.isl g).st == .failedShort) = true
        then none else s.carve (s.slotOf k)) = none := by
      rcases hno with hfits | hlost | hcarve
      · exact if_pos (.inl hfits)
      · exact if_pos (.inr (lost_iff.mpr hlost))
      · rw [hcarve, ite_self]
    rw [exec_slotLoadDone hrun hst hparts]
    dsimp only
    rw [if_neg (not_not_intro hdigest), hnone]

end Sys2Proof

namespace Sys2Proof
open Machine

/-! ### O19: how tokens are selected -/

/-- The manifest once a token has joined its context; maxCtx is its slot's limit (R156). -/
def Machine.Manifest.accepted (m : Manifest) (maxCtx tok : Nat) (stop : Bool) (z : Nat) : Manifest :=
  { m with
    toks := m.toks ++ [tok], step := m.step + 1, ctx := m.ctx + 1, autSt := z
    turnEnd := if stop then some 0 else if m.endAt ≤ m.step + 1 then some 1 else if maxCtx ≤ m.ctx + 1 then some 2 else none }

section
variable {s : State} {i : Nat}

theorem setMan_sorted (h : tsorted 0 s.hm.man = true) (i m) : tsorted 0 (s.setMan i m).hm.man = true :=
  tsorted_tput _ h (Nat.zero_le i)

theorem manOf_modMan_same (h : tsorted 0 s.hm.man = true) (i f) : (s.modMan i f).manOf i = f (s.manOf i) :=
  manOf_setMan_same h i _

theorem modMan_sorted (h : tsorted 0 s.hm.man = true) (i f) : tsorted 0 (s.modMan i f).hm.man = true := setMan_sorted h i _

@[simp] theorem noToken_hm (s : State) (i) : (s.noToken i).hm = s.hm := rfl

theorem noToken_sorted (h : tsorted 0 s.hm.man = true) (i) : tsorted 0 (s.noToken i).hm.man = true := h

@[simp] theorem postTokens_hm (s : State) (i first ts n) : (s.postTokens i first ts n).hm = s.hm :=
  (Spares.refl .posts s).postTokens.parts .hm (by decide)

theorem acceptToken_eq (s : State) (i tok : Nat) (stop : Bool) (z : Nat) :
    s.acceptToken i tok stop z = s.setMan i ((s.manOf i).accepted (s.slotOf (s.manOf i).slot).maxCtx tok stop z) := rfl

/-- Counting positions leaves the Harbourmaster's tables. -/
theorem foldl_countSel_hm {α : Type} (l : List α) (s : State) : (l.foldl (fun t _ => t.countSel) s).hm = s.hm := by
  refine foldl_keeps (P := fun t => t.hm = s.hm) (fun t _ h => ?_) l rfl
  exact h

/-- Emitted tokens join those that the request has put out; which of them wait is its own affair (R143). -/
theorem emitTokens_manOf (h : tsorted 0 s.hm.man = true) (i : Nat) (ts : List Nat) :
    ∃ held, (s.emitTokens i ts).manOf i = { s.manOf i with held := held, out := (s.manOf i).out ++ ts } := by
  unfold State.emitTokens
  dsimp only
  rw [manOf_congr (postTokens_hm ..), manOf_modMan_same h]
  exact ⟨_, rfl⟩

theorem emitTokens_sorted (h : tsorted 0 s.hm.man = true) (i : Nat) (ts : List Nat) :
    tsorted 0 (s.emitTokens i ts).hm.man = true := by
  unfold State.emitTokens
  dsimp only
  rw [postTokens_hm]
  exact modMan_sorted h i _

/-! #### One selection -/

/-- The unit of a request without Sieve selects by Rake's rule (R168). -/
theorem choose_rake {m : Manifest} (hsel : m.sel = false) (toks : List Nat) (z : Nat) (logits : List Nat) (n d : Nat) :
    m.choose toks z logits n d = (rakeSelect m.param toks logits m.seed n d).map
      (fun t => (t, ((stopTokens m.param).map (· % 2 ^ 18)).contains t, z)) := if_neg (by simp [hsel])

/-- The unit of a request with Sieve selects along its automaton (R175). -/
theorem choose_sieve {m : Manifest} (hsel : m.sel = true) (toks : List Nat) (z : Nat) (logits : List Nat) (n d : Nat) :
    m.choose toks z logits n d = (sieveSelect m.auto z ((stopTokens m.param).map (· % 2 ^ 18)) logits).map
      (fun t => (t, ((stopTokens m.param).map (· % 2 ^ 18)).contains t,
        if ((stopTokens m.param).map (· % 2 ^ 18)).contains t then z else sieveNext m.auto z t)) := if_pos hsel

/-- A step's token joins the context and is put out. -/
theorem stepSelect_manOf (h : tsorted 0 s.hm.man = true) {logits : List Word} {tok z : Nat} {stop : Bool}
    (hchoose : (s.manOf i).choose (s.manOf i).toks (s.manOf i).autSt (logits.map (·.toNat)) (s.manOf i).step 0 =
      some (tok, stop, z)) :
    ∃ held, (s.stepSelect i logits).manOf i =
      { (s.manOf i).accepted (s.slotOf (s.manOf i).slot).maxCtx tok stop z with
        held := held, out := (s.manOf i).out ++ [tok], selected := true } := by
  have haccept (t : State) (hhm : t.hm = s.hm) (hslots : t.slots = s.slots) :
      ∃ held, (((t.acceptToken i tok stop z).emitTokens i [tok]).modMan i (fun m => { m with selected := true })).manOf i =
        { (s.manOf i).accepted (s.slotOf (s.manOf i).slot).maxCtx tok stop z with
          held := held, out := (s.manOf i).out ++ [tok], selected := true } := by
    have hsorted : tsorted 0 t.hm.man = true := by rwa [hhm]
    obtain ⟨held, hemit⟩ := emitTokens_manOf (setMan_sorted hsorted i
      ((t.manOf i).accepted (t.slotOf (t.manOf i).slot).maxCtx tok stop z)) i [tok]
    refine ⟨held, ?_⟩
    rw [acceptToken_eq, manOf_modMan_same (emitTokens_sorted (setMan_sorted hsorted i _) i _), hemit,
      manOf_setMan_same hsorted, manOf_congr hhm, slotOf_congr hslots]
    rfl
  unfold State.stepSelect
  dsimp only
  rw [hchoose]
  dsimp only
  split
  · exact haccept s rfl rfl
  · exact haccept s.countSel rfl rfl

/-- A step without a token fails its request at the boundary (R156). -/
theorem stepSelect_none {logits : List Word}
    (hchoose : (s.manOf i).choose (s.manOf i).toks (s.manOf i).autSt (logits.map (·.toNat)) (s.manOf i).step 0 = none) :
    s.stepSelect i logits = (s.noToken i).modMan i (fun m => { m with selected := true, leave := .fail 0xD }) := by
  unfold State.stepSelect
  dsimp only
  rw [hchoose]

section
variable {rid : BitVec 24} {logits : List Word} (hrun : s.halted .inference = false) (hrid : rid.toNat % 2 ^ 18 = i)
  (hgen : (s.manOf i).gen = rid.toNat / 2 ^ 18) (hst : (s.manOf i).st = .decode) (hawaits : s.awaits (s.manOf i) = true)
  (hpull : s.pullDone (s.manOf i) = true)
include hrun hrid hgen hst hawaits hpull

/-- Rake selects for a request of the batch that names no automaton. -/
theorem exec_rakeSelect (hspec : (s.manOf i).spec = false) (hlen : logits.length = (s.slotOf (s.manOf i).slot).vocab)
    (hsel : (s.manOf i).sel = false) : exec (.rakeSelect rid logits) s = .next (s.stepSelect i logits) :=
  (unlessHalted_runs hrun _).trans (congrArg _ ((arrival_decode hrid hgen hst).trans
    (if_pos (by simp [hawaits, hsel, hspec, hpull, hlen]))))

/-- Sieve selects for a request of the batch that names one. -/
theorem exec_sieveSelect (hspec : (s.manOf i).spec = false) (hlen : logits.length = (s.slotOf (s.manOf i).slot).vocab)
    (hsel : (s.manOf i).sel = true) : exec (.sieveSelect rid logits) s = .next (s.stepSelect i logits) :=
  (unlessHalted_runs hrun _).trans (congrArg _ ((arrival_decode hrid hgen hst).trans
    (if_pos (by simp [hawaits, hsel, hspec, hpull, hlen]))))

/-- A draft holds its proposals (R179). -/
theorem runs_specDraft {drafts : List (List Word)} (hsorted : tsorted 0 s.hm.man = true) (hspec : (s.manOf i).spec = true)
    (hlen : ∀ l ∈ drafts, l.length = (s.slotOf (s.manOf i).slot).vocab) (hempty : (s.manOf i).drafts = [])
    (hleave : (s.manOf i).leave = .none) :
    Runs (.specDraft rid drafts) s (fun t => (t.manOf i).drafts = (s.manOf i).draft
      (min (fieldAt (s.manOf i).param 2 1) ((s.manOf i).endAt - (s.manOf i).step - 1)) 0 (s.manOf i).autSt drafts) := by
  refine ⟨_, (unlessHalted_runs hrun _).trans (congrArg _ ((arrival_decode hrid hgen hst).trans
    (if_pos (by simp [hawaits, hspec, hempty, hleave, hpull]; exact hlen)))), ?_⟩
  generalize (s.manOf i).draft (min (fieldAt (s.manOf i).param 2 1) ((s.manOf i).endAt - (s.manOf i).step - 1)) 0
    (s.manOf i).autSt drafts = xs
  have hman := manOf_setMan_same hsorted i { s.manOf i with drafts := xs }
  split
  · exact congrArg Manifest.drafts hman
  · rw [manOf_congr (foldl_countSel_hm ..)]
    exact congrArg Manifest.drafts hman

end

/-! #### Verification (R179) -/

/-- The tokens that a verification accepts join the context. -/
theorem verify_toks (h : tsorted 0 s.hm.man = true) (j : Nat) (xs : List Nat) (ls : List (List Word)) :
    tsorted 0 (s.verify i j xs ls).1.hm.man = true ∧
      ((s.verify i j xs ls).1.manOf i).toks = (s.manOf i).toks ++ (s.verify i j xs ls).2.1 := by
  induction ls generalizing s j xs with
  | nil =>
    unfold State.verify
    exact ⟨h, (List.append_nil _).symm⟩
  | cons l ls ih =>
    unfold State.verify
    dsimp only
    split
    · exact ⟨h, (List.append_nil _).symm⟩
    next tok stop z _ =>
      have haccept (t : State) (ht : t.hm = s.hm) : tsorted 0 (t.acceptToken i tok stop z).hm.man = true ∧
          ((t.acceptToken i tok stop z).manOf i).toks = (s.manOf i).toks ++ [tok] := by
        have hsorted : tsorted 0 t.hm.man = true := by rwa [ht]
        rw [acceptToken_eq]
        refine ⟨setMan_sorted hsorted i _, ?_⟩
        rw [manOf_setMan_same hsorted, manOf_congr ht]
        rfl
      have hjoined := haccept (if (s.manOf i).sel then s else s.countSel) (by split <;> rfl)
      generalize (if (s.manOf i).sel then s else s.countSel).acceptToken i tok stop z = t at hjoined
      obtain ⟨hsorted, htoks⟩ := hjoined
      split
      next x rest =>
        split
        · split
          · exact ⟨hsorted, htoks⟩
          · obtain ⟨hrest, hmore⟩ := ih hsorted (j + 1) rest
            refine ⟨hrest, ?_⟩
            rw [hmore, htoks]
            simp
        · exact ⟨hsorted, htoks⟩
      next => exact ⟨hsorted, htoks⟩

/-- A verification takes the target's own token first. -/
theorem verify_first {l : List Word} {ls : List (List Word)} {j tok z : Nat} {xs : List Nat} {stop : Bool}
    (hchoose : (s.manOf i).choose (s.manOf i).toks (s.manOf i).autSt (l.map (·.toNat)) (s.manOf i).step 0 =
      some (tok, stop, z)) : ∃ rest, (s.verify i j xs (l :: ls)).2.1 = tok :: rest := by
  unfold State.verify
  dsimp only
  rw [hchoose]
  dsimp only
  generalize (if (s.manOf i).sel then s else s.countSel).acceptToken i tok stop z = t
  cases xs with
  | nil => exact ⟨_, rfl⟩
  | cons x rest =>
    dsimp only
    split
    · split
      · exact ⟨_, rfl⟩
      · exact ⟨_, rfl⟩
    · exact ⟨_, rfl⟩

/-- Without a token at its first position a verification accepts none. -/
theorem verify_none {l : List Word} {ls : List (List Word)} {j : Nat} {xs : List Nat}
    (hchoose : (s.manOf i).choose (s.manOf i).toks (s.manOf i).autSt (l.map (·.toNat)) (s.manOf i).step 0 = none) :
    s.verify i j xs (l :: ls) = (s, [], 0, true) := by
  unfold State.verify
  dsimp only
  rw [hchoose]

/-- What a verification leaves of the manifest: its tokens are put out and its drafts gone, and a position without a token
fails the request. -/
def Machine.State.verified (s : State) (i : Nat) (r : State × List Nat × Nat × Bool) : State :=
  let t := ((r.1.count (rkBlock + 0x01C) r.2.2.1).fnCount (s.manOf i).fn .specAcc r.2.2.1).emitTokens i r.2.1
  let t := t.modMan i (fun m => { m with selected := true, drafts := [] })
  if r.2.2.2 then (t.noToken i).modMan i (fun m => { m with leave := .fail 0xD }) else t

theorem verified_manOf {r : State × List Nat × Nat × Bool} (h : tsorted 0 r.1.hm.man = true) :
    ((s.verified i r).manOf i).selected = true ∧ ((s.verified i r).manOf i).drafts = [] ∧
      ((s.verified i r).manOf i).toks = (r.1.manOf i).toks ∧
      (r.2.2.2 = true → ((s.verified i r).manOf i).leave = .fail 0xD) := by
  obtain ⟨u, tokens, n, bad⟩ := r
  have hcounted : tsorted 0 ((u.count (rkBlock + 0x01C) n).fnCount (s.manOf i).fn .specAcc n).hm.man = true := h
  obtain ⟨held, hemit⟩ := emitTokens_manOf hcounted i tokens
  have hsorted := emitTokens_sorted hcounted i tokens
  unfold State.verified
  dsimp only
  split
  · rw [manOf_modMan_same (noToken_sorted (modMan_sorted hsorted i _) i), manOf_congr (noToken_hm ..),
      manOf_modMan_same hsorted, hemit]
    exact ⟨rfl, rfl, rfl, fun _ => rfl⟩
  next hgood =>
    rw [manOf_modMan_same hsorted, hemit]
    exact ⟨rfl, rfl, rfl, fun hbad => absurd hbad hgood⟩

section
variable {rid : BitVec 24} {l : List Word} {ls : List (List Word)} (hrun : s.halted .inference = false)
  (hrid : rid.toNat % 2 ^ 18 = i) (hgen : (s.manOf i).gen = rid.toNat / 2 ^ 18) (hst : (s.manOf i).st = .decode)
  (hawaits : s.awaits (s.manOf i) = true) (hpull : s.pullDone (s.manOf i) = true) (hspec : (s.manOf i).spec = true)
  (hlen : ∀ x ∈ l :: ls, x.length = (s.slotOf (s.manOf i).slot).vocab) (hcount : ls.length = (s.manOf i).drafts.length)
include hrun hrid hgen hst hawaits hpull hspec hlen hcount

/-- A verification of a request of the batch. -/
theorem exec_specVerify : exec (.specVerify rid (l :: ls)) s =
    .next (s.verified i (s.verify i 0 (s.manOf i).drafts (l :: ls))) :=
  (unlessHalted_runs hrun _).trans (congrArg _ ((arrival_decode hrid hgen hst).trans
    (if_pos (by simp [hawaits, hspec, hpull, hcount]; simpa using hlen))))

/-- It takes the target's own token first, and ends the step. -/
theorem runs_specVerify_some (hsorted : tsorted 0 s.hm.man = true) {tok z : Nat} {stop : Bool}
    (hchoose : (s.manOf i).choose (s.manOf i).toks (s.manOf i).autSt (l.map (·.toNat)) (s.manOf i).step 0 =
      some (tok, stop, z)) :
    Runs (.specVerify rid (l :: ls)) s (fun t => (t.manOf i).selected = true ∧ (t.manOf i).drafts = [] ∧
      ∃ rest, (t.manOf i).toks = (s.manOf i).toks ++ tok :: rest) := by
  obtain ⟨hafter, htoks⟩ := verify_toks (i := i) hsorted 0 (s.manOf i).drafts (l :: ls)
  obtain ⟨rest, hfirst⟩ := verify_first (ls := ls) (j := 0) (xs := (s.manOf i).drafts) hchoose
  obtain ⟨hselected, hdrafts, hkept, -⟩ := verified_manOf (s := s) hafter
  refine ⟨_, exec_specVerify hrun hrid hgen hst hawaits hpull hspec hlen hcount, hselected, hdrafts, rest, ?_⟩
  rw [hkept, htoks, hfirst]

/-- Without a token there the request fails at the boundary. -/
theorem runs_specVerify_none (hsorted : tsorted 0 s.hm.man = true)
    (hchoose : (s.manOf i).choose (s.manOf i).toks (s.manOf i).autSt (l.map (·.toNat)) (s.manOf i).step 0 = none) :
    Runs (.specVerify rid (l :: ls)) s (fun t => (t.manOf i).selected = true ∧ (t.manOf i).leave = .fail 0xD) := by
  have hexec := exec_specVerify hrun hrid hgen hst hawaits hpull hspec hlen hcount
  rw [verify_none hchoose] at hexec
  obtain ⟨hselected, -, -, hleave⟩ := verified_manOf (s := s) (i := i) (r := (s, [], 0, true)) hsorted
  exact ⟨_, hexec, hselected, hleave rfl⟩

end

/-! #### The automaton store -/

theorem svWriteShadow_man (s : State) : s.svWriteShadow.hm.man = s.hm.man := by
  refine foldl_keeps (P := fun t => t.hm.man = s.hm.man) (fun t e h => ?_) _ rfl
  exact h

/-- A rebuild starts where none runs (R177). -/
theorem svStart_none (h : s.hm.svRun = none) : s.svStart = s.svPack := if_neg (by simp [h])

/-- A pass writes the shadow, and its log is empty (R177). -/
theorem exec_svRebuildPassEnd (hrun : s.halted .inference = false) {r} (hr : s.hm.svRun = some r) :
    exec .svRebuildPassEnd s = .next (let t := s.svWriteShadow
      { t with hm := { t.hm with svRun := some { passes := r.passes + 1, log := 0 } } }) := by
  show execSvRebuildPassEnd s = _
  unfold execSvRebuildPassEnd
  rw [hr]
  exact unlessHalted_runs hrun _

/-- The words that a request's automaton needs: of its image, or of the one that it has kept (R174). -/
def Machine.Manifest.autWords (m : Manifest) : Nat :=
  if fieldAt m.param 1 1 = 1 then ceilDiv (fieldAt m.param 64 4) 8 else m.auto.words

/-- An automaton for which the store has words enough: where it goes decides (R177). -/
theorem exec_sieveImageLoad {i : Fin 262144} (hrun : s.halted .inference = false) (hst : (s.manOf i).st = .admitted)
    (hphase : (s.manOf i).phase = .store) (hfree : (s.manOf i).autWords ≤ s.svFree) :
    exec (.sieveImageLoad i) s = .next
      (match freeRun (s.manOf i).autWords 0 (s.svUsed.mergeSort (fun a b => decide (a.1 ≤ b.1))) with
      | none => s.svStart
      | some a =>
        if fieldAt (s.manOf i).param 1 1 ≠ 1 then s.svPlace i a (s.manOf i).auto
        else match s.tenantRead (s.manOf i).fn (s.sqPasid (s.manOf i).fn (s.manOf i).sq) (fieldAt (s.manOf i).param 56 8)
            (fieldAt (s.manOf i).param 64 4) with
          | (u, none) => u.endRequest i 8 6 0
          | (u, some bs) =>
            match parseImage bs (fieldAt (s.manOf i).param 64 4) (fieldAt (s.manOf i).param 68 4)
              (s.slotOf (s.manOf i).slot).vocab (stopTokens (s.manOf i).param) with
            | none => u.endRequest i 8 7 0
            | some auto => (u.svPlace i a auto).modMan i (fun m =>
              { m with hIn := Config.sha3 (m.param ++ bs ++ m.toks.flatMap (leBytes 4)) })) :=
  (unlessHalted_runs hrun _).trans ((onlyIf_true (by simp [hst, hphase]) ..).trans (congrArg _ (if_neg (Nat.not_lt.mpr hfree))))

end

/-- Settles O19, command by command. -/
theorem tokenCommands : Obligations.TokenCommands := by
  unfold Obligations.TokenCommands
  dsimp only
  refine ⟨fun s rid hrun hsorted hgen hst hawaits hpull =>
      ⟨fun logits hspec hlen => ⟨fun hsel => ⟨fun tok htok => ?_, fun hnone => ?_⟩,
          fun hsel => ⟨fun tok htok => ?_, fun hnone => ?_⟩⟩,
        fun logits hspec hlen => ⟨fun hempty hleave =>
            runs_specDraft hrun rfl hgen hst hawaits hpull hsorted hspec hlen hempty hleave,
          fun l ls hlogits hcount => ⟨fun tok stop z hchoose => ?_, fun hchoose => ?_⟩⟩⟩,
    fun s i hrun hst hphase => ⟨fun hfew => ?_, fun hfree => ⟨fun hnone => ?_, fun a ha => ⟨fun hmode => ?_,
      fun hmode => ⟨fun u hgot => ?_, fun u bs hgot => ⟨fun himg => ?_, fun auto himg => ?_⟩⟩⟩⟩⟩,
    fun s m hm hnone => ?_,
    fun s hrun => ⟨fun hnone hwaits => ?_, fun r hr => ⟨?_, fun hpass hlog hstep => ?_, fun hpass hlog => ?_⟩⟩⟩
  case refine_1 =>
    obtain ⟨held, hman⟩ := stepSelect_manOf hsorted ((choose_rake hsel ..).trans (congrArg (Option.map _) htok))
    refine ⟨_, exec_rakeSelect hrun rfl hgen hst hawaits hpull hspec hlen hsel, ?_⟩
    dsimp only
    rw [hman]
    exact ⟨rfl, rfl, rfl, rfl, rfl, rfl⟩
  case refine_2 =>
    refine (exec_rakeSelect hrun rfl hgen hst hawaits hpull hspec hlen hsel).trans (congrArg _ ?_)
    rw [stepSelect_none ((choose_rake hsel ..).trans (congrArg (Option.map _) hnone)), State.noToken,
      if_neg (ne_true_of_eq_false hsel)]
  case refine_3 =>
    obtain ⟨held, hman⟩ := stepSelect_manOf hsorted ((choose_sieve hsel ..).trans (congrArg (Option.map _) htok))
    refine ⟨_, exec_sieveSelect hrun rfl hgen hst hawaits hpull hspec hlen hsel, ?_⟩
    dsimp only
    rw [hman]
    exact ⟨⟨rfl, rfl, rfl, rfl, rfl, rfl⟩, rfl⟩
  case refine_4 =>
    refine (exec_sieveSelect hrun rfl hgen hst hawaits hpull hspec hlen hsel).trans (congrArg _ ?_)
    rw [stepSelect_none ((choose_sieve hsel ..).trans (congrArg (Option.map _) hnone)), State.noToken, if_pos hsel]
  case refine_5 =>
    subst hlogits
    exact runs_specVerify_some hrun rfl hgen hst hawaits hpull hspec hlen hcount hsorted hchoose
  case refine_6 =>
    subst hlogits
    exact runs_specVerify_none hrun rfl hgen hst hawaits hpull hspec hlen hcount hsorted hchoose
  case refine_7 =>
    exact (unlessHalted_runs hrun _).trans ((onlyIf_true (by simp [hst, hphase]) ..).trans (congrArg _ (if_pos hfew)))
  case refine_8 =>
    refine (exec_sieveImageLoad hrun hst hphase hfree).trans (congrArg _ ?_)
    rw [Manifest.autWords, hnone]
  case refine_9 =>
    refine (exec_sieveImageLoad hrun hst hphase hfree).trans (congrArg _ ?_)
    rw [Manifest.autWords, ha]
    exact if_pos hmode
  case refine_10 =>
    refine (exec_sieveImageLoad hrun hst hphase hfree).trans (congrArg _ ?_)
    rw [Manifest.autWords, ha, hgot]
    exact if_neg (not_not_intro hmode)
  case refine_11 =>
    refine (exec_sieveImageLoad hrun hst hphase hfree).trans (congrArg _ ?_)
    rw [Manifest.autWords, ha, hgot]
    dsimp only
    rw [if_neg (not_not_intro hmode), himg]
  case refine_12 =>
    refine (exec_sieveImageLoad hrun hst hphase hfree).trans (congrArg _ ?_)
    rw [Manifest.autWords, ha, hgot]
    dsimp only
    rw [if_neg (not_not_intro hmode), himg]
  case refine_13 => exact (agentIf_isPf hm hm _).trans (congrArg _ (svStart_none hnone))
  case refine_14 =>
    have hwaits : s.liveMen.any (fun e => e.2.phase == .store && e.2.st == .admitted) = true := by
      simpa only [List.any_eq_true, Bool.and_eq_true, beq_iff_eq] using hwaits
    exact (unlessHalted_runs hrun _).trans ((onlyIf_true hwaits ..).trans (congrArg _ (svStart_none hnone)))
  case refine_15 => exact ⟨_, exec_svRebuildPassEnd hrun hr, rfl, svWriteShadow_man s⟩
  case refine_16 =>
    exact ⟨_, (unlessHalted_runs hrun _).trans (onlyIf_true (by simp [hr, hpass, hlog, hstep]) ..), rfl, rfl, rfl⟩
  case refine_17 =>
    exact ⟨_, (unlessHalted_runs hrun _).trans (onlyIf_true (by simp [hr, hpass, hlog]) ..), rfl, rfl, rfl⟩

end Sys2Proof

namespace Sys2Proof
open Machine

/-! ### O20: how Rake cuts and draws -/

/-! #### The first entry of a list of numbers that meets a test -/

section
variable {q : Nat → Bool} {l : List Nat}

/-- The first entry that meets a test meets it. -/
theorem getD_findIdx (h : ∃ x ∈ l, q x = true) : q (l.getD (l.findIdx q) 0) = true := by
  rw [List.getD_eq_getElem _ _ (List.findIdx_lt_length_of_exists h)]
  exact List.findIdx_getElem

/-- The entries before it do not. -/
theorem getD_of_lt_findIdx {i : Nat} (hi : i < l.findIdx q) : q (l.getD i 0) = false := by
  rw [List.getD_eq_getElem _ _ (hi.trans_le List.findIdx_le_length)]
  exact List.not_of_lt_findIdx hi

theorem find?_getD_eq_getD_findIdx (h : ∃ x ∈ l, q x = true) (d : Nat) :
    (l.find? q).getD d = l.getD (l.findIdx q) 0 := by
  have hlt := List.findIdx_lt_length_of_exists h
  rw [List.find?_eq_getElem?_findIdx, List.getElem?_eq_getElem hlt, Option.getD_some, List.getD_eq_getElem _ _ hlt]

/-- Beside a list of the same length, a search by the second list finds the entry of the first at that index. -/
theorem find?_zip_eq_getElem?_findIdx {α : Type} {xs : List α} (hlen : l.length = xs.length) :
    ((xs.zip l).find? (fun x => q x.2)).map (·.1) = xs[l.findIdx q]? := by
  have hidx : (xs.zip l).findIdx (fun x => q x.2) = l.findIdx q := by
    rw [← Function.comp_def q Prod.snd, ← List.findIdx_map, List.map_snd_zip hlen.le]
  rw [List.find?_eq_getElem?_findIdx, hidx, ← List.getElem?_map, List.map_fst_zip hlen.ge]

end

/-! #### Weights and their running sums (R169, R170) -/

@[simp] theorem length_runningSums (a : Nat) (ws : List Nat) : (runningSums a ws).length = ws.length := by
  induction ws generalizing a with
  | nil => rfl
  | cons w ws ih => simp [runningSums, ih]

theorem le_of_mem_runningSums {a c : Nat} {ws : List Nat} (h : c ∈ runningSums a ws) : a ≤ c := by
  induction ws generalizing a with
  | nil => cases h
  | cons w ws ih =>
    obtain rfl | h := List.mem_cons.mp h
    · exact Nat.le_add_right a w
    · exact (Nat.le_add_right a w).trans (ih h)

/-- Every running sum holds the first weight. -/
theorem first_le_of_mem_runningSums {a w c : Nat} {ws : List Nat} (h : c ∈ runningSums a (w :: ws)) : a + w ≤ c := by
  obtain rfl | h := List.mem_cons.mp h
  · exact Nat.le_refl _
  · exact le_of_mem_runningSums h

/-- R169: equal values give x = +0, so q = 0 and the weight is t[0]: candidate 0's is never 0. -/
theorem rakeWeight_self (v : Nat) : rakeWeight v v = 2 ^ 31 := by
  unfold rakeWeight
  rw [if_pos rfl]
  decide +kernel

/-! #### Top-p, the generator and the draw (R170, R171) -/

theorem leNat_lt (bs : List Byte) : leNat bs < 256 ^ bs.length := by
  induction bs with
  | nil => simp [leNat]
  | cons b bs ih =>
    have hb := b.isLt
    simp only [leNat, List.length_cons, Nat.pow_succ]
    omega

theorem fieldAt_lt (p : List Byte) (start n : Nat) : fieldAt p start n < 256 ^ n :=
  (leNat_lt _).trans_le (Nat.pow_le_pow_right (by decide) (List.length_take_le ..))

theorem mix64_lt {z : Nat} : mix64 z < 2 ^ 64 := by
  have hlow : ∀ y : Nat, y % 2 ^ 64 < 2 ^ 64 := fun y => Nat.mod_lt y (Nat.two_pow_pos 64)
  exact Nat.xor_lt_two_pow (hlow _) ((Nat.div_le_self ..).trans_lt (hlow _))

theorem generator_lt (seed n d : Nat) : generator seed n d < 2 ^ 64 := mix64_lt

/-- The draw from a positive sum lies below it. -/
theorem draw_lt {c : Nat} (hc : 0 < c) (seed n d : Nat) : generator seed n d * c / 2 ^ 64 < c :=
  Nat.div_lt_of_lt_mul (Nat.mul_lt_mul_of_pos_right (generator_lt seed n d) hc)

/-- R170: the share of the weight that is kept, in units of 2^-16. -/
def topP (p : List Byte) : Nat := if fieldAt p 10 2 = 0 then 65536 else fieldAt p 10 2

theorem topP_le (p : List Byte) : topP p ≤ 65536 := by
  have := fieldAt_lt p 10 2
  unfold topP
  split <;> omega

/-- R170: the running sums of the candidates' weights. -/
def rakeSums (c0 : Nat × Nat) (cs : List (Nat × Nat)) : List Nat :=
  runningSums 0 ((c0 :: cs).map (fun x => rakeWeight c0.2 x.2))

/-- R170: the last index that the cut keeps. -/
def keptIdx (p : List Byte) (sums : List Nat) : Nat :=
  sums.findIdx (fun c => decide (topP p * sums.getLastD 0 ≤ c * 65536))

/-- R170: the draw among the candidates that the cut keeps. -/
def rakeDrawn (p : List Byte) (sums : List Nat) (seed n d : Nat) : Nat :=
  generator seed n d * sums.getD (keptIdx p sums) 0 / 2 ^ 64

section
variable (c0 : Nat × Nat) (cs : List (Nat × Nat))

@[simp] theorem length_rakeSums : (rakeSums c0 cs).length = (c0 :: cs).length := by simp [rakeSums]

theorem pos_of_mem_rakeSums {c : Nat} (h : c ∈ rakeSums c0 cs) : 0 < c := by
  have hfirst : 0 + rakeWeight c0.2 c0.2 ≤ c := first_le_of_mem_runningSums h
  rw [rakeWeight_self] at hfirst
  omega

theorem getLastD_mem_rakeSums : (rakeSums c0 cs).getLastD 0 ∈ rakeSums c0 cs := by
  have hne : rakeSums c0 cs ≠ [] := List.ne_nil_of_length_pos (by simp)
  rw [List.getLastD_eq_getLast?, List.getLast?_eq_some_getLast hne]
  exact List.getLast_mem hne

/-- The cut keeps the whole weight at the latest, since top-p is at most 1. -/
theorem exists_mem_rakeSums_cut (p : List Byte) :
    ∃ c ∈ rakeSums c0 cs, decide (topP p * (rakeSums c0 cs).getLastD 0 ≤ c * 65536) = true := by
  refine ⟨_, getLastD_mem_rakeSums c0 cs, decide_eq_true ?_⟩
  rw [Nat.mul_comm]
  exact Nat.mul_le_mul_left _ (topP_le p)

theorem keptIdx_lt (p : List Byte) : keptIdx p (rakeSums c0 cs) < (rakeSums c0 cs).length :=
  List.findIdx_lt_length_of_exists (exists_mem_rakeSums_cut c0 cs p)

theorem getD_keptIdx_mem (p : List Byte) : (rakeSums c0 cs).getD (keptIdx p (rakeSums c0 cs)) 0 ∈ rakeSums c0 cs := by
  rw [List.getD_eq_getElem _ _ (keptIdx_lt c0 cs p)]
  exact List.getElem_mem _

theorem rakeDrawn_lt (p : List Byte) (seed n d : Nat) :
    rakeDrawn p (rakeSums c0 cs) seed n d < (rakeSums c0 cs).getD (keptIdx p (rakeSums c0 cs)) 0 :=
  draw_lt (pos_of_mem_rakeSums c0 cs (getD_keptIdx_mem c0 cs p)) seed n d

end

/-- A step that is not greedy selects the candidate of the first running sum above the draw (R170). -/
theorem rakeSelect_eq_getElem? {p : List Byte} {context logits : List Nat} {c0 : Nat × Nat} {cs : List (Nat × Nat)}
    (hcands : rakeCandidates p context logits = c0 :: cs) (htemp : fieldAt p 4 4 ≠ 0) (seed n d : Nat) :
    rakeSelect p context logits seed n d =
      ((c0 :: cs)[(rakeSums c0 cs).findIdx (fun c => decide (rakeDrawn p (rakeSums c0 cs) seed n d < c))]?).map (·.1) := by
  rw [← find?_zip_eq_getElem?_findIdx (length_rakeSums c0 cs), Option.map_map, rakeDrawn, keptIdx,
    ← find?_getD_eq_getD_findIdx (exists_mem_rakeSums_cut c0 cs p) ((rakeSums c0 cs).getLastD 0)]
  unfold rakeSelect
  rw [hcands]
  exact if_neg htemp

/-- Settles O20: the last sum meets the cut, and the sum at the cut, which holds candidate 0's weight, lies above the draw. -/
theorem rakeDraw : Obligations.RakeDraw := by
  unfold Obligations.RakeDraw
  intro p context logits seed n d c0 cs hcands htemp
  have hcut := exists_mem_rakeSums_cut c0 cs p
  have hdrawn := rakeDrawn_lt c0 cs p seed n d
  have habove : ∃ c ∈ rakeSums c0 cs, decide (rakeDrawn p (rakeSums c0 cs) seed n d < c) = true :=
    ⟨_, getD_keptIdx_mem c0 cs p, decide_eq_true hdrawn⟩
  refine ⟨keptIdx p (rakeSums c0 cs), length_rakeSums c0 cs ▸ keptIdx_lt c0 cs p, of_decide_eq_true (getD_findIdx hcut),
    fun i hi => Nat.not_le.mp (of_decide_eq_false (getD_of_lt_findIdx hi)), hdrawn,
    _, Nat.not_lt.mp fun hlt => ?_, of_decide_eq_true (getD_findIdx habove),
    fun i hi => Nat.not_lt.mp (of_decide_eq_false (getD_of_lt_findIdx hi)), rakeSelect_eq_getElem? hcands htemp seed n d⟩
  exact of_decide_eq_false (getD_of_lt_findIdx hlt) hdrawn

end Sys2Proof

namespace Sys2Proof
open Machine

/-! ### Contexts: reading their table, and what leaves it -/

/-- A fold whose steps keep P and Q reaches Q where the step of one of its members takes P to Q. -/
theorem foldl_reaches {α : Type} {P Q : State → Prop} {f : State → α → State} {l : List α} {a : α} (ha : a ∈ l)
    (hP : ∀ s x, P s → P (f s x)) (hhit : ∀ s, P s → Q (f s a)) (hQ : ∀ s x, Q s → Q (f s x)) {s : State} (hs : P s) :
    Q (l.foldl f s) := by
  obtain ⟨l₁, l₂, rfl⟩ := List.append_of_mem ha
  rw [List.foldl_append, List.foldl_cons]
  exact foldl_keeps hQ l₂ (hhit _ (foldl_keeps hP l₁ hs))

/-- The first entry of a placed key is the placed one. -/
theorem find?_tput_same {α : Type} (v : α) (l : Table α) (k : Nat) :
    (tput (some v) l k).find? (fun e => e.1 == k) = some (k, v) := by
  induction l with
  | nil => simp [tput]
  | cons x l ih =>
    simp only [tput]
    split_ifs with hlt heq
    · simp
    · simp [heq]
    · have hne : x.1 ≠ k := fun h => heq h.symm
      simp [hne, ih]

/-- The first entry of another key is as before. -/
theorem find?_tput_other {α : Type} (v : Option α) (l : Table α) {j k : Nat} (h : j ≠ k) :
    (tput v l k).find? (fun e => e.1 == j) = l.find? (fun e => e.1 == j) := by
  have hk : k ≠ j := h.symm
  induction l with
  | nil => cases v <;> simp [tput, hk]
  | cons x l ih =>
    simp only [tput]
    split_ifs with hlt heq
    · cases v <;> simp [hk]
    · have hx : x.1 ≠ j := heq ▸ hk
      cases v <;> simp [hx]
    · simp only [List.find?_cons, ih]

section
variable {s t : State} {j k : Nat} {c : Ctx}

theorem ctxOf_congr (h : t.sh.ctx = s.sh.ctx) (k : Nat) : t.ctxOf k = s.ctxOf k := by
  unfold State.ctxOf
  rw [h]

@[simp] theorem ctxOf_settle (s : State) (k : Nat) : s.settle.ctxOf k = s.ctxOf k := ctxOf_congr (ctx_settle s) k

@[simp] theorem ctxOf_setCtx_some (s : State) (k : Nat) (c : Ctx) : (s.setCtx k (some c)).ctxOf k = some c := by
  unfold State.ctxOf
  rw [ctx_setCtx, find?_tput_same]
  rfl

theorem ctxOf_setCtx_other (c : Option Ctx) (h : j ≠ k) : (s.setCtx k c).ctxOf j = s.ctxOf j := by
  unfold State.ctxOf
  rw [ctx_setCtx, find?_tput_other c _ h]

theorem mem_of_ctxOf (h : s.ctxOf k = some c) : (k, c) ∈ s.sh.ctx := by
  obtain ⟨e, he, rfl⟩ := Option.map_eq_some_iff.mp h
  have hkey : e.1 = k := by simpa using List.find?_some he
  exact hkey ▸ List.mem_of_find?_eq_some he

/-- Under rising keys each context is the one its key names. -/
theorem ctxOf_of_mem (hsorted : tsorted 0 s.sh.ctx = true) {e : Nat × Ctx} (he : e ∈ s.sh.ctx) : s.ctxOf e.1 = some e.2 := by
  obtain ⟨x, hx⟩ : ∃ x, s.sh.ctx.find? (fun q => q.1 == e.1) = some x :=
    Option.isSome_iff_exists.mp (List.find?_isSome.mpr ⟨e, he, beq_self_eq_true _⟩)
  have hkey : x.1 = e.1 := by simpa using List.find?_some hx
  have hval : x.2 = e.2 := by
    have hget := tget_of_mem e.2 hsorted (List.mem_of_find?_eq_some hx)
    rw [hkey, tget_of_mem e.2 hsorted he] at hget
    exact hget.symm
  unfold State.ctxOf
  rw [hx, Option.map_some, hval]

theorem sorted_setCtx (hsorted : tsorted 0 s.sh.ctx = true) (k : Nat) (c : Option Ctx) :
    tsorted 0 (s.setCtx k c).sh.ctx = true := by
  rw [ctx_setCtx]
  exact tsorted_tput c hsorted (Nat.zero_le k)

/-- A charge of array time changes the accounts alone (R185). -/
theorem settle_sh (s : State) :
    { s.settle.sh with acct := s.sh.acct, usage := s.sh.usage, acctT := s.sh.acctT } = s.sh := by
  unfold State.settle
  extract_lets dt u t
  have hu : { u.sh with acct := s.sh.acct, usage := s.sh.usage, acctT := s.sh.acctT } = s.sh := by
    refine foldl_keeps (P := fun v : State =>
      { v.sh with acct := s.sh.acct, usage := s.sh.usage, acctT := s.sh.acctT } = s.sh) (fun v e hv => ?_) _ rfl
    split
    · exact hv
    · exact hv
  have ht : { t.sh with acct := s.sh.acct, usage := s.sh.usage, acctT := s.sh.acctT } = s.sh := by
    unfold t
    split
    · rfl
    · exact hu
  exact ht

@[simp] theorem settle_regs (s : State) : s.settle.regs = s.regs := (Spares.refl .sharing s).settle.parts .regs (by decide)
@[simp] theorem settle_td (s : State) : s.settle.td = s.td := (Spares.refl .sharing s).settle.td
@[simp] theorem settle_tt (s : State) : s.settle.tt = s.tt := (Spares.refl .sharing s).settle.parts .tt (by decide)
@[simp] theorem setCtx_regs (s : State) (k c) : (s.setCtx k c).regs = s.regs := settle_regs s
@[simp] theorem setCtx_tt (s : State) (k c) : (s.setCtx k c).tt = s.tt := settle_tt s

theorem settle_eff (s : State) : s.settle.sh.eff = s.sh.eff := by
  have h := congrArg Sharing.eff (settle_sh s)
  exact h

theorem setCtx_saved (s : State) (k : Nat) (c : Option Ctx) : (s.setCtx k c).sh.saved = s.sh.saved := by
  have h := congrArg Sharing.saved (settle_sh s)
  exact h

end

end Sys2Proof

namespace Sys2Proof
open Machine

/-! ### O21: contexts -/

section
variable {s t : State} {d : Die} {key : Nat} {cx : Ctx}

/-- What the command of a context answers: nothing changes where the context does not stand. -/
def withCtx (s : State) (key : Nat) (f : Ctx → Out) : Out :=
  match s.ctxOf key with
  | none => .next s
  | some cx => f cx

theorem exec_of_ctx {i : Instr} {f : Ctx → Out} (hctx : s.ctxOf key = some cx) (hexec : exec i s = withCtx s key f) :
    exec i s = f cx := by
  rw [hexec, withCtx, hctx]

theorem pastNs_congr (h : t.td = s.td) (x : Int) : t.pastNs x = s.pastNs x := by
  unfold State.pastNs State.past State.now State.cAt
  rw [h]

theorem regN_congr (h : t.regs = s.regs) (o : Nat) : t.regN o = s.regN o := by
  unfold State.regN State.reg
  rw [h]

theorem regBit_congr (h : t.regs = s.regs) (o i : Nat) : t.regBit o i = s.regBit o i :=
  congrArg (bitOf · i) (regN_congr h o)

theorem inAffected_congr (h : t.tt = s.tt) (n : Nat) {c c' : Ctx} (hid : c'.id = c.id) :
    t.inAffected n c' = s.inAffected n c := by
  unfold State.inAffected
  rw [h, hid]

/-! #### Quanta (R187) -/

theorem takeCxVf_td (s : State) : s.takeCxVf.td = s.td := rfl

/-- The state at a quantum boundary: the accounts are settled, and CX_VF takes effect. -/
def atBoundary (s : State) : State := { s.settle with sh := { s.settle.sh with quantumT := s.settle.T } }.takeCxVf

theorem pastNs_atBoundary (s : State) (x : Int) : (atBoundary s).pastNs x = s.pastNs x := by
  refine pastNs_congr ?_ x
  rw [atBoundary, takeCxVf_td]
  exact settle_td s

/-- The arrays of every prompt die are reassigned. -/
def reassignPds (s : State) : State := (List.range 4).foldl (fun u n => u.reassign (Die.ofIndex n)) s

theorem exec_quantumBoundary (hrun : s.halted .inference = false) :
    let t := s.reachNs (s.sh.quantumT + s.regN cxBlock * 1000 : Nat)
    t.pastNs (s.sh.quantumT + s.regN cxBlock * 1000 : Nat) = true → exec .quantumBoundary s = .next
      (if s.planLoaded then reassignPds (atBoundary t) else (reassignPds (atBoundary t)).reassign .rd) := by
  intro t hdue
  rw [← pastNs_atBoundary] at hdue
  exact (unlessHalted_runs hrun _).trans (onlyIf_true hdue _ _)

/-! #### Stopping (R190) -/

/-- STOP is set on each array of a list (R73). -/
def setStops (s : State) (gs : List Nat) : State := gs.foldl (fun s g => s.setRegB (esReg g 0) 2 2 1) s

theorem stopCtx_eq (hctx : s.ctxOf key = some cx) (why : StopFor) :
    s.stopCtx key why = (setStops s cx.arrays).setCtx key
      (some { cx with st := .stopping, rel := [], target := 0, held := cx.arrays, stopFor := why }) := by
  unfold State.stopCtx
  rw [hctx]
  rfl

theorem esStop_congr (h : t.regs = s.regs) (g : Nat) : t.esStop g = s.esStop g :=
  regBit_congr h (esReg g 0) 2

theorem esStop_setRegB_same (hregs : tsorted 0 s.regs = true) (g : Nat) : (s.setRegB (esReg g 0) 2 2 1).esStop g = true :=
  s.regBit_setRegB_same hregs _ 1 (by decide)

theorem esStop_setRegB (hregs : tsorted 0 s.regs = true) (x : Nat) {g : Nat} (h : s.esStop g = true) :
    (s.setRegB (esReg x 0) 2 2 1).esStop g = true := by
  by_cases hx : esReg g 0 = esReg x 0
  · unfold State.esStop
    rw [hx]
    exact esStop_setRegB_same hregs x
  · exact (congrArg (bitOf · 2) (s.regN_setRegB_other 1 hx)).trans h

theorem esStop_setStops (hregs : tsorted 0 s.regs = true) {gs : List Nat} {g : Nat} (hg : g ∈ gs) :
    (setStops s gs).esStop g = true := by
  have hsorted (t : State) (x : Nat) (h : tsorted 0 t.regs = true) : tsorted 0 (t.setRegB (esReg x 0) 2 2 1).regs = true :=
    t.sorted_setRegB h (esReg x 0) 2 2 1
  have hstop : tsorted 0 (setStops s gs).regs = true ∧ (setStops s gs).esStop g = true :=
    foldl_reaches (P := fun t => tsorted 0 t.regs = true) (Q := fun t => tsorted 0 t.regs = true ∧ t.esStop g = true) hg
      hsorted (fun t h => ⟨hsorted t g h, esStop_setRegB_same h g⟩) (fun t x ⟨h, hq⟩ => ⟨hsorted t x h, esStop_setRegB h x hq⟩)
      hregs
  exact hstop.2

/-- A stop sets STOP on every array that the context holds, and ends its claiming. -/
theorem stopCtx_stops (hctx : s.ctxOf key = some cx) (hregs : tsorted 0 s.regs = true) (why : StopFor) :
    (s.stopCtx key why).ctxOf key =
      some { cx with st := .stopping, rel := [], target := 0, held := cx.arrays, stopFor := why } ∧
    ∀ g ∈ cx.arrays, (s.stopCtx key why).esStop g = true := by
  rw [stopCtx_eq hctx]
  exact ⟨ctxOf_setCtx_some .., fun g hg => (esStop_congr (setCtx_regs ..) g).trans (esStop_setStops hregs hg)⟩

theorem runs_contextStop {c : Fin 8} (hrun : s.halted (dieUnit d) = false) (hctx : s.ctxOf (ctxKey d c) = some cx)
    (hst : cx.st = .running) (hregs : tsorted 0 s.regs = true) :
    Runs (.contextStop d c) s (fun t => t.ctxOf (ctxKey d c) =
      some { cx with st := .stopping, rel := [], target := 0, held := cx.arrays, stopFor := .share } ∧
      ∀ g ∈ cx.arrays, t.esStop g = true) :=
  ⟨_, (unlessHalted_runs hrun _).trans (onlyIf_true (by simp [hctx, hst]) _ _), stopCtx_stops hctx hregs .share⟩

/-! #### Idle arrays (R187) -/

/-- Idle arrays change no more of a context than the arrays it holds. -/
theorem ctxOf_giveIdle (hctx : s.ctxOf key = some cx) (d : Die) :
    ∃ gs, (s.giveIdle d).ctxOf key = some { cx with arrays := gs } := by
  refine foldl_keeps (P := fun t => ∃ gs, t.ctxOf key = some { cx with arrays := gs }) (fun t e ht => ?_) _
    ⟨cx.arrays, (ctxOf_settle ..).trans hctx⟩
  split
  · exact ht
  next c hc =>
    extract_lets more
    split
    · exact ht
    · by_cases hkey : key = e.1
      · obtain ⟨gs, hgs⟩ := ht
        obtain rfl : c = { cx with arrays := gs } := Option.some.inj (hc.symm.trans (hkey ▸ hgs))
        exact ⟨gs ++ more, hkey ▸ ctxOf_setCtx_some ..⟩
      · rwa [ctxOf_setCtx_other _ hkey]

/-- A context that is not runnable gets none. -/
theorem ctxOf_giveIdle_stopping (hsorted : tsorted 0 s.sh.ctx = true) (hctx : s.ctxOf key = some cx) (hst : cx.st = .stopping)
    (d : Die) : (s.giveIdle d).ctxOf key = some cx := by
  refine List.foldlRecOn (motive := fun t : State => t.ctxOf key = some cx) _ _ ((ctxOf_settle ..).trans hctx)
    fun t ht e he => ?_
  have hne : key ≠ e.1 := by
    rintro rfl
    obtain ⟨hin, hrun⟩ := List.mem_filter.mp ((List.mergeSort_perm ..).subset he)
    rw [ctx_settle] at hin
    obtain rfl : cx = e.2 := Option.some.inj (hctx.symm.trans (ctxOf_of_mem hsorted hin))
    simp [Ctx.runnable, hst] at hrun
  split
  · exact ht
  · extract_lets
    split
    · exact ht
    · rwa [ctxOf_setCtx_other _ hne]

/-! #### A stop that is complete -/

theorem unstop_stays (hctx : s.ctxOf key = some cx) (h : cx.stopFor = .share ∨ s.inAffected d.index cx = true) :
    s.unstop d key = s := by
  unfold State.unstop
  rw [hctx]
  rcases h with h | h
  · simp [h]
  · simp [h]

theorem unstop_goesOn (hctx : s.ctxOf key = some cx) (hst : cx.st = .stopping) (hstopped : cx.stopped = true)
    (hwhy : cx.stopFor = .booking) (hfree : s.inAffected d.index cx = false) : s.unstop d key = s.goOn d key cx := by
  unfold State.unstop
  rw [hctx]
  simp [hst, hstopped, hwhy, hfree]

theorem ctxOf_goOn (hrun : cx.run ≠ none) :
    (s.goOn d key cx).ctxOf key = some { cx with st := .running, stopped := false, restoreFrom := 0 } := by
  unfold State.goOn
  extract_lets u c
  have hsome : ¬ c.run.isNone = true := fun h => hrun (Option.isNone_iff_eq_none.mp h)
  rw [if_neg hsome]
  exact ctxOf_setCtx_some ..

/-- The running descriptor of a context as its stop takes it up, with none where nothing runs. -/
def stoppedRun (cx : Ctx) : DescRun :=
  cx.run.getD { desc := 0, dseq := 0, path := 0, chunks := 0, tiles := 0, det := false, lens := [], staged := true }

/-- The arrays of a stopped context abort what is queued, and hand back their tiles (R190). -/
def handBackAll (s : State) (cx : Ctx) (nexts : List (BitVec 16)) : State × DescRun :=
  (cx.arrays.zip nexts).foldl (fun acc x =>
    let y := acc.1.stopTiles cx (stoppedRun cx) x.1 x.2.toNat
    y.1.handBack cx acc.2 y.2) (cx.arrays.foldl (fun s g => s.esAbort g) s, { stoppedRun cx with running := [] })

theorem spares_handBackAll (s : State) (cx : Ctx) (nexts : List (BitVec 16)) :
    Spares .handbacks s (handBackAll s cx nexts).1 :=
  Spares.foldl_fst (fun y x hy => by
    extract_lets z
    have hz : Spares .handbacks s z.1 := hy.stopTiles
    exact hz.handBack) _ (foldl_keeps (fun _ _ h => h.esAbort) _ (.refl _ s))

/-- The stopped context, with no array, in the state that its hand-backs leave. -/
def stoppedAt (s : State) (key : Nat) (cx : Ctx) (nexts : List (BitVec 16)) : State :=
  (handBackAll s cx nexts).1.setCtx key
    (some { cx with arrays := [], stopped := true, run := cx.run.map (fun _ => (handBackAll s cx nexts).2) })

theorem stoppedAt_tt (s : State) (key : Nat) (cx : Ctx) (nexts : List (BitVec 16)) : (stoppedAt s key cx nexts).tt = s.tt :=
  (setCtx_tt ..).trans ((spares_handBackAll s cx nexts).parts .tt (by decide))

theorem sorted_stoppedAt (hsorted : tsorted 0 s.sh.ctx = true) (key : Nat) (cx : Ctx) (nexts : List (BitVec 16)) :
    tsorted 0 (stoppedAt s key cx nexts).sh.ctx = true := by
  have hsh : (handBackAll s cx nexts).1.sh = s.sh := (spares_handBackAll s cx nexts).parts .sh (by decide)
  exact sorted_setCtx (hsh ▸ hsorted) ..

theorem ctxOf_stoppedAt (s : State) (key : Nat) (cx : Ctx) (nexts : List (BitVec 16)) :
    (stoppedAt s key cx nexts).ctxOf key =
      some { cx with arrays := [], stopped := true, run := cx.run.map (fun _ => (handBackAll s cx nexts).2) } :=
  ctxOf_setCtx_some ..

section
variable {c : Fin 8} {nexts : List (BitVec 16)} (hrun : s.halted (dieUnit d) = false)
  (hctx : s.ctxOf (ctxKey d c) = some cx) (hst : cx.st = .stopping) (hopen : cx.stopped = false)
  (hall : ∀ g ∈ cx.arrays, s.arrayStopped g = true) (hlen : nexts.length = cx.arrays.length)
include hrun hctx hst hopen hall hlen

theorem exec_contextStopDone :
    exec (.contextStopDone d c nexts) s =
      .next (((stoppedAt s (ctxKey d c) cx nexts).unstop d (ctxKey d c)).giveIdle d) := by
  refine (exec_of_ctx (i := .contextStopDone d c nexts) hctx rfl).trans
    ((unlessHalted_runs hrun _).trans (onlyIf_true ?_ _ _))
  simpa [hst, hopen, hlen] using hall

/-- Stopped for good, the context holds no array and waits for its save. -/
theorem runs_contextStopDone_waits (hsorted : tsorted 0 s.sh.ctx = true)
    (hwhy : cx.stopFor = .share ∨ s.inAffected d.index cx = true) :
    Runs (.contextStopDone d c nexts) s (fun t =>
      ∃ cx', t.ctxOf (ctxKey d c) = some cx' ∧ cx'.arrays = [] ∧ cx'.stopped = true ∧ cx'.st = .stopping) := by
  have hctx' := ctxOf_stoppedAt s (ctxKey d c) cx nexts
  have hstay := unstop_stays (d := d) hctx' (hwhy.imp id fun h => (inAffected_congr (stoppedAt_tt ..) _ rfl).trans h)
  refine ⟨_, exec_contextStopDone hrun hctx hst hopen hall hlen, ?_⟩
  rw [hstay]
  exact ⟨_, ctxOf_giveIdle_stopping (sorted_stoppedAt hsorted ..) hctx' hst d, rfl, rfl, hst⟩

/-- Stopped for bookings that no longer stand, it goes on. -/
theorem runs_contextStopDone_goesOn (hwhy : cx.stopFor = .booking) (hfree : s.inAffected d.index cx = false)
    (hdesc : cx.run ≠ none) :
    Runs (.contextStopDone d c nexts) s (fun t =>
      ∃ cx', t.ctxOf (ctxKey d c) = some cx' ∧ cx'.stopped = false ∧ cx'.st = .running) := by
  have hgoes := unstop_goesOn (d := d) (ctxOf_stoppedAt s (ctxKey d c) cx nexts) hst rfl hwhy
    ((inAffected_congr (stoppedAt_tt ..) _ rfl).trans hfree)
  refine ⟨_, exec_contextStopDone hrun hctx hst hopen hall hlen, ?_⟩
  rw [hgoes]
  obtain ⟨gs, hgs⟩ := ctxOf_giveIdle (ctxOf_goOn (s := stoppedAt s (ctxKey d c) cx nexts) (key := ctxKey d c) (d := d)
    (cx := { cx with arrays := [], stopped := true, run := cx.run.map (fun _ => (handBackAll s cx nexts).2) })
    (by simpa using hdesc)) d
  exact ⟨_, hgs, rfl, rfl⟩

end

/-! #### Saving and restoring (R191 to R194) -/

/-- A count of a context's saves or restores leaves HM_TRC_CFG (R203, R455). -/
theorem count_traceOff {o : Nat} (ho : o ≠ trcCfg) (n : Nat) (hoff : s.regBit trcCfg 31 = false) :
    (s.count o n).regBit trcCfg 31 = false :=
  (congrArg (bitOf · 31) (s.regN_setReg_other _ ho.symm)).trans hoff

theorem traceSave_off (hoff : s.regBit trcCfg 31 = false) (kind n num : Nat) (c : Ctx) : s.traceSave kind n num c = s :=
  trace_off hoff ..

/-- The image of a context: its header, its portion and its extent (R191). -/
def putImage (s : State) (cx : Ctx) (num a : Nat) : State :=
  (s.store a (cx.header num s.T)).store (a + 4096) (s.load cx.scratch cx.scratchLen ++ s.load cx.extent cx.extentLen)

theorem putImage_sh (s : State) (cx : Ctx) (num a : Nat) : (putImage s cx num a).sh = s.sh := by
  rw [putImage, State.store_sh, State.store_sh]

theorem putImage_regs (s : State) (cx : Ctx) (num a : Nat) : (putImage s cx num a).regs = s.regs := by
  rw [putImage, State.store_regs, State.store_regs]

/-- A stored portion and extent come back from where they were saved (R193). -/
def takeImage (s : State) (cx : Ctx) : State :=
  (s.store cx.scratch (s.load (cx.restoreFrom + 4096) cx.scratchLen)).store cx.extent
    (s.load (cx.restoreFrom + 4096 + cx.scratchLen) cx.extentLen)

theorem takeImage_regs (s : State) (cx : Ctx) : (takeImage s cx).regs = s.regs := by
  rw [takeImage, State.store_regs, State.store_regs]

/-- An image joins those saved, and the bookings that waited for it count it (R191, R195). -/
def joinSaved (s : State) (e : SavedCtx) : State :=
  { s with
    sh := { s.sh with saved := s.sh.saved ++ [e] }
    tt := { s.tt with entries := s.tt.entries.map (fun (b : Nat × TtEntry) =>
      if b.1 / 64 = e.die ∧ b.2.affected.contains e.ctx.id = true ∧
          (b.2.st = TtSt.accepted ∨ b.2.st = TtSt.clearing ∨ b.2.st = TtSt.late) then
        (b.1, { b.2 with nsaved := b.2.nsaved + 1, saved4k := b.2.saved4k + e.ctx.imageBytes / 4096 })
      else b) } }

theorem joinSaved_ctx (s : State) (e : SavedCtx) : (joinSaved s e).sh.ctx = s.sh.ctx := rfl
theorem joinSaved_saved (s : State) (e : SavedCtx) : (joinSaved s e).sh.saved = s.sh.saved ++ [e] := rfl
theorem joinSaved_mem (s : State) (e : SavedCtx) : (joinSaved s e).mem = s.mem := rfl
theorem joinSaved_regs (s : State) (e : SavedCtx) : (joinSaved s e).regs = s.regs := rfl

/-- A context is saved: its image is in memory, it is gone from its die, and the save is counted. -/
def savedAt (s : State) (key num : Nat) (cx : Ctx) (e : SavedCtx) : State :=
  joinSaved ((((putImage s cx num e.addr).setCtx key none).count (cxBlock + 0x010) 1).fnCount cx.vf .saves 1) e

theorem savedAt_ctxOf (hsorted : tsorted 0 s.sh.ctx = true) (key num : Nat) (cx : Ctx) (e : SavedCtx) :
    (savedAt s key num cx e).ctxOf key = none := by
  have hput : tsorted 0 (putImage s cx num e.addr).sh.ctx = true := by rwa [putImage_sh]
  have hctx : (savedAt s key num cx e).sh.ctx = ((putImage s cx num e.addr).setCtx key none).sh.ctx := by
    rw [savedAt, joinSaved_ctx, State.fnCount_sh, State.count_sh]
  rw [ctxOf_congr hctx, ctxOf_setCtx_none hput]

theorem savedAt_saved (s : State) (key num : Nat) (cx : Ctx) (e : SavedCtx) :
    (savedAt s key num cx e).sh.saved = s.sh.saved ++ [e] := by
  rw [savedAt, joinSaved_saved, State.fnCount_sh, State.count_sh, setCtx_saved, putImage_sh]

theorem savedAt_mem (s : State) (key num : Nat) (cx : Ctx) (e : SavedCtx) :
    (savedAt s key num cx e).mem = (putImage s cx num e.addr).mem := by
  obtain ⟨hmem, -⟩ := setCtx_keeps (putImage s cx num e.addr) key none
  rw [savedAt, joinSaved_mem, State.fnCount_mem, State.count_mem, hmem]

theorem savedAt_traceOff (hoff : s.regBit trcCfg 31 = false) (key num : Nat) (cx : Ctx) (e : SavedCtx) :
    (savedAt s key num cx e).regBit trcCfg 31 = false := by
  have hput : (putImage s cx num e.addr).regBit trcCfg 31 = false := (regBit_congr (putImage_regs ..) ..).trans hoff
  have hregs : (savedAt s key num cx e).regs =
      (((putImage s cx num e.addr).setCtx key none).count (cxBlock + 0x010) 1).regs := by
    rw [savedAt, joinSaved_regs, State.fnCount_regs]
  exact (regBit_congr hregs ..).trans (count_traceOff (by decide) 1 ((regBit_congr (setCtx_regs ..) ..).trans hput))

section
variable {n : Fin 4} {c : Fin 8} (hrun : s.halted .inference = false) (hctx : s.ctxOf (ctxKey (.pd n) c) = some cx)
include hrun hctx

theorem runs_contextSaveBegin {a : Nat} (hst : cx.st = .stopping) (hstopped : cx.stopped = true)
    (hfit : s.saveSlot n cx = some a) (hwhy : cx.stopFor = .share ∨ s.inAffected n cx = true)
    (halone : ∀ e ∈ s.sh.ctx, e.1 / 8 = n.val → e.2.st ≠ .saving ∧ e.2.st ≠ .restoring) :
    Runs (.contextSaveBegin n c) s (fun t => t.ctxOf (ctxKey (.pd n) c) = some { cx with st := .saving }) := by
  have hbusy : s.sh.ctx.any (fun e => e.1 / 8 == n.val && (e.2.st == .saving || e.2.st == .restoring)) = false := by
    simpa [List.any_eq_false] using halone
  refine ⟨_, (exec_of_ctx (i := .contextSaveBegin n c) hctx rfl).trans
    ((unlessHalted_runs hrun _).trans (onlyIf_true ?_ _ _)), ?_⟩
  · rw [hbusy]
    simpa [hst, hstopped, hfit] using hwhy
  · exact (ctxOf_congr (congrArg Sharing.ctx (sh_trace ..)) _).trans (ctxOf_setCtx_some ..)

theorem exec_contextSaveEnd (hst : cx.st = .saving)
    (hgood : (s.rangeBad cx.scratch cx.scratchLen || s.rangeBad cx.extent cx.extentLen) = false) {a : Nat}
    (hfit : s.saveSlot n cx = some a) (hsorted : tsorted 0 s.sh.ctx = true) (hoff : s.regBit trcCfg 31 = false) :
    ∃ u : State, exec (.contextSaveEnd n c) s = .next (u.serveWait (.pd n)) ∧
      u.ctxOf (ctxKey (.pd n) c) = none ∧
      u.sh.saved = s.sh.saved ++ [{ die := n, ctx := { cx with st := .saved }, addr := a, held := cx.held, num := c }] ∧
      u.mem = (putImage s cx c a).mem := by
  let e : SavedCtx := { die := n, ctx := { cx with st := .saved }, addr := a, held := cx.held, num := c }
  have hexec : exec (.contextSaveEnd n c) s =
      .next (((savedAt s (ctxKey (.pd n) c) c cx e).traceSave 6 n c cx).serveWait (.pd n)) := by
    refine (exec_of_ctx (i := .contextSaveEnd n c) hctx rfl).trans
      ((unlessHalted_runs hrun _).trans ((onlyIf_true (beq_iff_eq.mpr hst) _ _).trans ?_))
    rw [hgood, hfit]
    rfl
  rw [traceSave_off (savedAt_traceOff hoff ..)] at hexec
  exact ⟨_, hexec, savedAt_ctxOf hsorted .., savedAt_saved .., savedAt_mem ..⟩

theorem exec_contextSaveEnd_bad (hst : cx.st = .saving)
    (hbad : (s.rangeBad cx.scratch cx.scratchLen || s.rangeBad cx.extent cx.extentLen) = true) :
    exec (.contextSaveEnd n c) s =
      .next (((s.saveError n cx).setCtx (ctxKey (.pd n) c) none).serveWait (.pd n)) := by
  have hexec := (exec_of_ctx (i := .contextSaveEnd n c) hctx rfl).trans
    ((unlessHalted_runs hrun _).trans (onlyIf_true (beq_iff_eq.mpr hst) _ _))
  rwa [if_pos hbad] at hexec

theorem exec_contextRestoreEnd (hst : cx.st = .restoring) (hgood : s.rangeBad cx.restoreFrom cx.imageBytes = false)
    (hoff : s.regBit trcCfg 31 = false) :
    ∃ u : State, exec (.contextRestoreEnd n c) s = .next (u.goOn (.pd n) (ctxKey (.pd n) c) cx) ∧
      u.mem = (takeImage s cx).mem := by
  have hexec : exec (.contextRestoreEnd n c) s =
      .next ((((takeImage s cx).count (cxBlock + 0x014) 1).traceSave 7 n c cx).goOn (.pd n) (ctxKey (.pd n) c) cx) := by
    refine (exec_of_ctx (i := .contextRestoreEnd n c) hctx rfl).trans
      ((unlessHalted_runs hrun _).trans ((onlyIf_true (beq_iff_eq.mpr hst) _ _).trans ?_))
    rw [hgood]
    rfl
  rw [traceSave_off (count_traceOff (by decide) 1 ((regBit_congr (takeImage_regs ..) ..).trans hoff))] at hexec
  exact ⟨_, hexec, State.count_mem ..⟩

theorem exec_contextRestoreEnd_bad (hst : cx.st = .restoring) (hbad : s.rangeBad cx.restoreFrom cx.imageBytes = true) :
    exec (.contextRestoreEnd n c) s =
      .next (((s.saveError n cx).setCtx (ctxKey (.pd n) c) none).serveWait (.pd n)) := by
  have hexec := (exec_of_ctx (i := .contextRestoreEnd n c) hctx rfl).trans
    ((unlessHalted_runs hrun _).trans (onlyIf_true (beq_iff_eq.mpr hst) _ _))
  rwa [if_pos hbad] at hexec

end

/-- A saved context that may be restored starts under the lowest free number, while no other moves on its die (R193). -/
theorem exec_contextRestoreBegin {k : Fin 64} {e : SavedCtx} {num : Nat} (hrun : s.halted .inference = false)
    (hsaved : s.sh.saved[k.val]? = some e) (hfits : s.restorable e = true) (hnum : s.freeCtx (Die.ofIndex e.die) = some num)
    (halone : ∀ q ∈ s.sh.ctx, q.1 / 8 = e.die → q.2.st ≠ .saving ∧ q.2.st ≠ .restoring) :
    exec (.contextRestoreBegin k) s = .next
      ({ s with sh := { s.sh with saved := s.sh.saved.eraseIdx k } }.setCtx (ctxKey (Die.ofIndex e.die) num)
        (some { e.ctx with st := .restoring, stopped := false, restoreFrom := e.addr })) := by
  have hbusy : s.sh.ctx.any (fun q => q.1 / 8 == e.die && (q.2.st == .saving || q.2.st == .restoring)) = false := by
    simpa [List.any_eq_false] using halone
  show execContextRestoreBegin k s = _
  unfold execContextRestoreBegin
  rw [hsaved]
  dsimp only
  rw [hnum]
  refine (unlessHalted_runs hrun _).trans (onlyIf_true ?_ _ _)
  rw [hfits, hbusy]
  rfl

/-! #### The CX registers (R203) -/

/-- What CX_VF of a function holds once the value is taken: the masks, and the weight but where it is 0. -/
def cxVfTaken (old v : Nat) : Nat := v % 2 ^ 21 / 2 ^ 16 * 2 ^ 16 + (if v % 2 ^ 16 = 0 then bitsOf old 15 0 else v % 2 ^ 16)

theorem cxVfTaken_fields (old v : Nat) :
    bitsOf (cxVfTaken old v) 15 0 = (if v % 2 ^ 16 = 0 then bitsOf old 15 0 else v % 2 ^ 16) ∧
    bitsOf (cxVfTaken old v) 31 16 = v / 2 ^ 16 % 2 ^ 5 ∧ cxVfTaken old v < 2 ^ 32 := by
  unfold cxVfTaken
  have hold : bitsOf old 15 0 < 2 ^ 16 := bitsOf_lt old 15 0
  split
  · generalize bitsOf old 15 0 = w at *
    unfold bitsOf
    omega
  · unfold bitsOf
    omega

theorem runs_cxVfWrite {m : Agent} (hm : s.isPf m = true) (f : Fin 513) (v : Word) (hregs : tsorted 0 s.regs = true) :
    Runs (.cxVfWrite m f v) s (fun t =>
      t.regB (cxBlock + 0x1000 + 4 * f) 15 0 =
        (if v.toNat % 2 ^ 16 = 0 then s.regB (cxBlock + 0x1000 + 4 * f) 15 0 else v.toNat % 2 ^ 16) ∧
      t.regB (cxBlock + 0x1000 + 4 * f) 31 16 = v.toNat / 2 ^ 16 % 2 ^ 5 ∧
      t.weight f = s.weight f ∧ (∀ n < 4, t.mayPd f n = s.mayPd f n) ∧ t.mayRd f = s.mayRd f) := by
  have hcx : s.settle.cxVf f = s.cxVf f := congrArg (tget 0x1F0001 · f.val) (settle_eff s)
  obtain ⟨hweight, hmask, hlt⟩ := cxVfTaken_fields (s.regN (cxBlock + 0x1000 + 4 * f)) v.toNat
  have hreg : (s.settle.setReg (cxBlock + 0x1000 + 4 * f) (cxVfTaken (s.regN (cxBlock + 0x1000 + 4 * f)) v.toNat)).regN
      (cxBlock + 0x1000 + 4 * f) = cxVfTaken (s.regN (cxBlock + 0x1000 + 4 * f)) v.toNat :=
    (s.settle.regN_setReg_same ((settle_regs s).symm ▸ hregs) _ _).trans (Nat.mod_eq_of_lt hlt)
  exact ⟨_, agentIf_isPf hm hm _, (congrArg (bitsOf · 15 0) hreg).trans hweight, (congrArg (bitsOf · 31 16) hreg).trans hmask,
    congrArg (bitsOf · 15 0) hcx, fun n _ => congrArg (bitOf · (16 + n)) hcx, congrArg (bitOf · 20) hcx⟩

/-- CX_MARGIN takes 20 to 1,480 and ignores the rest. -/
theorem exec_cxMarginWrite {m : Agent} (hm : s.isPf m = true) (v : Word) :
    (20 ≤ v.toNat % 2 ^ 11 → v.toNat % 2 ^ 11 ≤ 1480 →
      exec (.cxMarginWrite m v) s = .next (s.setReg (cxBlock + 0x004) (v.toNat % 2 ^ 11))) ∧
    (v.toNat % 2 ^ 11 < 20 ∨ 1480 < v.toNat % 2 ^ 11 → exec (.cxMarginWrite m v) s = .next s) := by
  refine ⟨fun hlo hhi => agentIf_isPf hm ?_ _, fun hout => agentIf_isPf_ignored hm ?_ _⟩
  · rw [hm, decide_eq_true hlo, decide_eq_true hhi]
    rfl
  · rw [Bool.and_eq_false_iff, Bool.and_eq_false_iff, decide_eq_false_iff_not, decide_eq_false_iff_not]
    omega

end

/-- Settles O21, command by command: on its occasion each does what its meaning says, and what it leaves of the context that
its key names is read back. -/
theorem contextCommands : Obligations.ContextCommands := by
  unfold Obligations.ContextCommands
  exact ⟨fun s hrun => ⟨exec_quantumBoundary hrun,
      fun n c cx hctx hsorted => ⟨fun a hst hstopped hfit => runs_contextSaveBegin hrun hctx hst hstopped hfit,
        fun hst hgood a hfit hoff => exec_contextSaveEnd hrun hctx hst hgood hfit hsorted hoff,
        exec_contextSaveEnd_bad hrun hctx, exec_contextRestoreEnd hrun hctx, exec_contextRestoreEnd_bad hrun hctx⟩,
      fun k e num hsaved hfits hnum => exec_contextRestoreBegin hrun hsaved hfits hnum⟩,
    fun s d c cx hrun hctx hsorted => ⟨fun hst hregs _ => runs_contextStop hrun hctx hst hregs,
      fun nexts hst hopen hall hlen =>
        ⟨fun hwhy => runs_contextStopDone_waits hrun hctx hst hopen hall hlen hsorted (hwhy.imp_right And.right),
          runs_contextStopDone_goesOn hrun hctx hst hopen hall hlen⟩⟩,
    fun s m v hm =>
      have ⟨hin, hout⟩ := exec_cxMarginWrite hm v
      ⟨agentIf_isPf hm hm _, hin, hout, fun f => runs_cxVfWrite hm f v⟩⟩

end Sys2Proof

namespace Sys2Proof
open Machine

/-! ### O22: bookings -/

section
variable {s t : State} {n i : Nat} {e : TtEntry}

/-! #### The tide table (R195) -/

theorem ttOf_congr (h : t.tt.entries = s.tt.entries) (n i : Nat) : t.ttOf n i = s.ttOf n i := by
  unfold State.ttOf
  rw [h]

theorem trace_tt (s : State) (kind unit layer op fn arg : Nat) : (s.trace kind unit layer op fn arg).tt = s.tt :=
  (Spares.refl .tracing s).trace.parts .tt (by decide)

/-- A change of an entry changes that entry alone. -/
theorem setTt_entries (s : State) (n i : Nat) (e : TtEntry) :
    (s.setTt n i e).tt.entries = tset {} s.tt.entries (64 * n + i) e := by
  unfold State.setTt
  extract_lets u old _ t
  have ht : t.tt.entries = tset {} s.tt.entries (64 * n + i) e :=
    congrArg (fun x : TideTable => tset {} x.entries (64 * n + i) e) (settle_tt s)
  split
  · exact ht
  · exact (congrArg TideTable.entries (trace_tt ..)).trans ht

theorem sorted_setTt (h : tsorted 0 s.tt.entries = true) (n i : Nat) (e : TtEntry) :
    tsorted 0 (s.setTt n i e).tt.entries = true := by
  rw [setTt_entries]
  exact tsorted_tput _ h (Nat.zero_le _)

theorem ttOf_setTt_same (h : tsorted 0 s.tt.entries = true) (n i : Nat) (e : TtEntry) : (s.setTt n i e).ttOf n i = e := by
  unfold State.ttOf
  rw [setTt_entries]
  exact tget_tset_same _ h _ e

theorem ttOf_setTt_other {j : Nat} (e : TtEntry) (h : i ≠ j) : (s.setTt n j e).ttOf n i = s.ttOf n i := by
  unfold State.ttOf
  rw [setTt_entries]
  exact tget_tset_other _ _ e (by omega)

theorem bitOf_toNat {w : Nat} (v : BitVec w) (i : Nat) : bitOf v.toNat i = v.getLsbD i := by
  rw [BitVec.getLsbD, Nat.testBit_eq_decide_div_mod_eq]
  rfl

/-! #### Submission and withdrawal (R195, R196, R202) -/

/-- The entry that a write of its last word with VALID submits. -/
def submitted (s : State) (n i : Nat) (v : Word) : TtEntry :=
  { s.ttOf n i with
    valid := true, arrays := bitsOf v.toNat 15 0, rwin := bitsOf v.toNat 25 16, core := bitsOf v.toNat 27 26
    margin := s.regN (cxBlock + 0x004), reason := 0, nsaved := 0, tReady := 0, saved4k := 0
    affected := [], losing := [], taken := [] }

theorem bookedOnly_of_not_active (h : (s.ttOf n i).st ≠ .active) : s.bookedOnly n i = [] := if_neg h

theorem discardBooked_of_not_active (h : (s.ttOf n i).st ≠ .active) : s.discardBooked n i = s := by
  unfold State.discardBooked
  rw [bookedOnly_of_not_active h]
  rfl

section
variable {k : Fin 16} (hk : k.val < 4) (ha : Acts (.core .rd k) s)
include hk ha

/-- A core of RD that acts has its command where the rest of the occasion holds. -/
theorem agentIf_rd {p : Bool} (hp : p = true) (t : State) :
    agentIf (.core .rd k) (Agent.isRd (.core .rd k) && p) s t = .next t := by
  obtain ⟨hrun, hfree⟩ := ha
  exact agentIf_acts hrun hfree (by rw [hp, Bool.and_true]; exact decide_eq_true hk) t

theorem exec_ttEntrySubmit (n : Fin 4) (i : Fin 64) {v : Word} (hlive : (s.ttOf n i).live = false)
    (hvalid : v.getLsbD 31 = true) :
    (s.ttCheck n i (submitted s n i v) ≠ 0 → exec (.ttEntrySubmit (.core .rd k) n i v) s =
      .next (((s.setTt n i { submitted s n i v with st := .refused, reason := s.ttCheck n i (submitted s n i v) }).count
        (ttBlock + 0x01C) 1).ttIrq (submitted s n i v))) ∧
    (s.ttCheck n i (submitted s n i v) = 0 → tsorted 0 s.tt.entries = true →
      Runs (.ttEntrySubmit (.core .rd k) n i v) s (fun t =>
        (t.ttOf n i).st = .accepted ∧ (t.ttOf n i).affected = s.affected n (submitted s n i v) ∧
        (t.ttOf n i).arrays = (submitted s n i v).arrays ∧ (t.ttOf n i).rwin = (submitted s n i v).rwin ∧
        (t.ttOf n i).core = (submitted s n i v).core ∧ (t.ttOf n i).margin = (submitted s n i v).margin)) := by
  have hexec (t : State) := agentIf_rd hk ha (p := bitOf v.toNat 31 && !(s.ttOf n i).live)
    (by rw [bitOf_toNat, hvalid, hlive]; rfl) t
  simp only [← Bool.and_assoc] at hexec
  refine ⟨fun hbad => (hexec _).trans (congrArg _ (if_pos hbad)), fun hgood hsorted =>
    ⟨_, (hexec _).trans (congrArg _ (if_neg (not_not_intro hgood))), ?_⟩⟩
  dsimp only
  rw [ttOf_congr (congrArg TideTable.entries (State.count_tt ..)), ttOf_setTt_same hsorted]
  exact ⟨rfl, rfl, rfl, rfl, rfl, rfl⟩

theorem exec_ttEntryCancel (n : Fin 4) (i : Fin 64) (hlive : (s.ttOf n i).live = true) :
    exec (.ttEntryCancel (.core .rd k) n i) s = .next ((s.discardBooked n i).ttOver n i .cancelled) :=
  agentIf_rd hk ha hlive _

/-- A doorbell of a die with an ACTIVE booking: too far ahead it is only counted, and else its records are taken (R200). -/
theorem exec_ttRingDoorbell (n : Fin 4) (v : Word) (hactive : ∃ b ∈ s.tt.entries, b.1 / 64 = n.val ∧ b.2.st = .active) :
    let ahead := (v.toNat % 2 ^ 16 + 2 ^ 16 - tget 0 s.tt.taken n) % 2 ^ 16
    let u := { s with tt := { s.tt with written := tset 0 s.tt.written n (v.toNat % 2 ^ 16) } }
    (4096 < ahead → exec (.ttRingDoorbell (.core .rd k) n v) s = .next (s.count (ttBlock + 0x020) 1)) ∧
    (ahead ≤ 4096 → exec (.ttRingDoorbell (.core .rd k) n v) s = .next (u.takeRecords n ahead)) := by
  intro ahead u
  have hany : s.tt.entries.any (fun b => b.1 / 64 == n.val && b.2.st == .active) = true := by
    obtain ⟨b, hb, hdie, hst⟩ := hactive
    exact List.any_eq_true.mpr ⟨b, hb, by simp [hdie, hst]⟩
  exact ⟨fun hfar => (agentIf_rd hk ha hany _).trans (congrArg _ (if_pos hfar)),
    fun hnear => (agentIf_rd hk ha hany _).trans (congrArg _ (if_neg (Nat.not_lt.mpr hnear)))⟩

end

/-! #### READY, ACTIVE and LATE (R199) -/

theorem ttActivate_st (hsorted : tsorted 0 s.tt.entries = true) (n i : Nat) (e : TtEntry) :
    ((s.ttActivate n i e).ttOf n i).st = .active := by
  have hset : ((s.setTt n i { e with st := .active }).ttOf n i).st = .active := by rw [ttOf_setTt_same hsorted]
  unfold State.ttActivate
  extract_lets other t u
  split
  · exact hset
  · rwa [ttOf_congr (congrArg TideTable.entries (State.storeNat_tt ..))]

/-! #### The end (R201) -/

theorem putEs_es (s : State) (g : Nat) (e : EsArray) : (s.putEs g e).es = tset {} s.es g e := by
  unfold State.putEs State.copySeq
  dsimp only
  split
  · rfl
  · split
    · rfl
    · rfl

/-- What an end or a withdrawal leaves of a sequencer: the passes that run. -/
def drained (x : EsArray) : EsArray :=
  { x with
    sfifo := [], sStall := [], pfifo := [], pStall := [], again := [], fetching := false, port := none, shadow := none
    swapping := false, pushed := (x.done + x.runs.length) % 65536 }

/-- The sequencer of an array is drained. -/
def drainAt (s : State) (g : Nat) : State := s.putEs g (drained (s.esOf g))

theorem esOf_drainAt_same (hes : tsorted 0 s.es = true) (g : Nat) : (drainAt s g).esOf g = drained (s.esOf g) := by
  unfold State.esOf
  rw [drainAt, putEs_es]
  exact tget_tset_same _ hes g _

theorem esOf_drainAt_other {g x : Nat} (h : x ≠ g) : (drainAt s g).esOf x = s.esOf x := by
  unfold State.esOf
  rw [drainAt, putEs_es]
  exact tget_tset_other _ _ _ h

theorem sorted_drainAt (hes : tsorted 0 s.es = true) (g : Nat) : tsorted 0 (drainAt s g).es = true := by
  rw [drainAt, putEs_es]
  exact tsorted_tput _ hes (Nat.zero_le g)

/-- What draining a sequencer keeps, draining any of them keeps. -/
theorem esOf_drainAt_keeps {p : EsArray → Prop} (hp : ∀ x, p x → p (drained x)) (hes : tsorted 0 s.es = true) {g : Nat}
    (h : p (s.esOf g)) (j : Nat) : p ((drainAt s j).esOf g) := by
  by_cases hj : g = j
  · subst hj
    rw [esOf_drainAt_same hes]
    exact hp _ h
  · rwa [esOf_drainAt_other hj]

/-- Nothing is queued at the sequencer, and the passes that run are those given. -/
def OnlyRuns (rs : List EsRun) (x : EsArray) : Prop :=
  x.sfifo = [] ∧ x.sStall = [] ∧ x.pfifo = [] ∧ x.pStall = [] ∧ x.runs = rs

theorem onlyRuns_drained {rs : List EsRun} {x : EsArray} (h : x.runs = rs) : OnlyRuns rs (drained x) :=
  ⟨rfl, rfl, rfl, rfl, h⟩

/-- An end or a withdrawal discards what is queued at each of the booking's arrays; the passes that run go on. -/
theorem esOf_discardBooked (hes : tsorted 0 s.es = true) {g : Nat} (hg : g ∈ s.bookedOnly n i) :
    OnlyRuns (s.esOf g).runs ((s.discardBooked n i).esOf g) := by
  have hend : tsorted 0 (s.discardBooked n i).es = true ∧ OnlyRuns (s.esOf g).runs ((s.discardBooked n i).esOf g) :=
    foldl_reaches (f := drainAt) (P := fun t => tsorted 0 t.es = true ∧ (t.esOf g).runs = (s.esOf g).runs)
      (Q := fun t => tsorted 0 t.es = true ∧ OnlyRuns (s.esOf g).runs (t.esOf g)) hg
      (fun t j ⟨h, hr⟩ => ⟨sorted_drainAt h j, esOf_drainAt_keeps (p := (·.runs = _)) (fun _ h => h) h hr j⟩)
      (fun t ⟨h, hr⟩ => ⟨sorted_drainAt h g, by rw [esOf_drainAt_same h]; exact onlyRuns_drained hr⟩)
      (fun t j ⟨h, hq⟩ => ⟨sorted_drainAt h j,
        esOf_drainAt_keeps (fun _ ⟨_, _, _, _, hr⟩ => onlyRuns_drained hr) h hq j⟩) ⟨hes, rfl⟩
  exact hend.2

theorem unstop_tt (s : State) (d : Die) (key : Nat) : (s.unstop d key).tt = s.tt :=
  (Spares.refl .descs s).unstop.parts .tt (by decide)

theorem ttOver_st (hsorted : tsorted 0 s.tt.entries = true) (n i : Nat) (st : TtSt) : ((s.ttOver n i st).ttOf n i).st = st := by
  have htt : (s.ttOver n i st).tt = (s.setTt n i { s.ttOf n i with st := st }).tt :=
    foldl_keeps (P := fun t => t.tt = (s.setTt n i { s.ttOf n i with st := st }).tt)
      (fun t k h => (unstop_tt ..).trans h) _ rfl
  rw [ttOf_congr (congrArg TideTable.entries htt), ttOf_setTt_same hsorted]

/-! #### Named arrays are released (R198) -/

/-- A tile of the context's descriptor runs on the array. -/
def tileOn (c : Ctx) (g : Nat) : Bool :=
  match c.run with
  | some r => r.running.any (fun q => q.array == g)
  | none => false

/-- A context without the named arrays on which it runs no tile; the others are to be released. -/
def released (e : TtEntry) (n : Nat) (c : Ctx) : Ctx :=
  let give := c.arrays.filter (fun g => (e.named n).contains g)
  { c with
    arrays := c.arrays.filter (fun g => !(give.contains g) || tileOn c g)
    rel := c.rel ++ (give.filter (tileOn c)).filter (fun g => !c.rel.contains g) }

/-- The context of a key releases named arrays. -/
def releaseAt (e : TtEntry) (n : Nat) (s : State) (key : Nat) : State :=
  match s.ctxOf key with
  | none => s
  | some c => s.setCtx key (some (released e n c))

theorem spares_releaseAt (e : TtEntry) (n : Nat) (s : State) (key : Nat) : Spares .sharing s (releaseAt e n s key) := by
  unfold releaseAt
  split
  · exact .refl _ s
  · exact (Spares.refl _ s).setCtx

theorem mem_of_mem_released {c : Ctx} {g : Nat} (h : g ∈ (released e n c).arrays) : g ∈ c.arrays := (List.mem_filter.mp h).1

/-- Where nothing runs, every named array is released. -/
theorem not_named_of_mem_released {c : Ctx} {g : Nat} (hrun : c.run = none) (h : g ∈ (released e n c).arrays) :
    g ∉ e.named n := by
  obtain ⟨hg, hkeep⟩ := List.mem_filter.mp h
  have hidle : tileOn c g = false := by simp [tileOn, hrun]
  simpa [hidle, hg] using hkeep

theorem ctxOf_releaseAt {key : Nat} {c : Ctx} (hctx : s.ctxOf key = some c) (e : TtEntry) (n : Nat) :
    (releaseAt e n s key).ctxOf key = some (released e n c) := by
  unfold releaseAt
  rw [hctx]
  exact ctxOf_setCtx_some ..

theorem ctxOf_releaseAt_other {key j : Nat} (h : key ≠ j) (e : TtEntry) (n : Nat) :
    (releaseAt e n s j).ctxOf key = s.ctxOf key := by
  unfold releaseAt
  split
  · rfl
  · exact ctxOf_setCtx_other _ h

/-- A context in which nothing runs holds no array but those of the list. -/
def IdleWithin (key : Nat) (p : Nat → Prop) (s : State) : Prop :=
  ∃ c, s.ctxOf key = some c ∧ c.run = none ∧ ∀ g ∈ c.arrays, p g

/-- A release at any key gives it none. -/
theorem IdleWithin.after {key : Nat} {p : Nat → Prop} (h : IdleWithin key p s) (e : TtEntry) (n j : Nat) :
    IdleWithin key p (releaseAt e n s j) := by
  obtain ⟨c, hc, hrun, hp⟩ := h
  by_cases hj : key = j
  · subst hj
    exact ⟨_, ctxOf_releaseAt hc e n, hrun, fun g hg => hp g (mem_of_mem_released hg)⟩
  · exact ⟨c, (ctxOf_releaseAt_other hj e n).trans hc, hrun, hp⟩

/-- A release at its own key takes the named arrays. -/
theorem IdleWithin.unnamed {key : Nat} {p : Nat → Prop} (h : IdleWithin key p s) (e : TtEntry) (n : Nat) :
    IdleWithin key (fun g => p g ∧ g ∉ e.named n) (releaseAt e n s key) := by
  obtain ⟨c, hc, hrun, hp⟩ := h
  exact ⟨_, ctxOf_releaseAt hc e n, hrun, fun g hg => ⟨hp g (mem_of_mem_released hg), not_named_of_mem_released hrun hg⟩⟩

/-- The keys of the contexts of a die that only lose arrays to a booking. -/
def losingKeys (s : State) (n : Nat) (e : TtEntry) : List Nat :=
  (s.sh.ctx.filter (fun c => c.1 / 8 == n && e.losing.contains c.2.id)).map (·.1)

/-! #### Stops for bookings (R198) -/

/-- The entry is CLEARING. -/
def clearAt (n : Nat) (s : State) (i : Nat) : State := s.setTt n i { s.ttOf n i with st := .clearing }

theorem clearAt_st (hsorted : tsorted 0 s.tt.entries = true) (n i : Nat) : ((clearAt n s i).ttOf n i).st = .clearing := by
  rw [clearAt, ttOf_setTt_same hsorted]

theorem sorted_clearAt (hsorted : tsorted 0 s.tt.entries = true) (n i : Nat) :
    tsorted 0 (clearAt n s i).tt.entries = true := sorted_setTt hsorted n i _

theorem clearAt_keeps (hsorted : tsorted 0 s.tt.entries = true) (h : (s.ttOf n i).st = .clearing) (j : Nat) :
    ((clearAt n s j).ttOf n i).st = .clearing := by
  by_cases hj : i = j
  · exact hj ▸ clearAt_st hsorted n i
  · rwa [clearAt, ttOf_setTt_other _ hj]

/-- An entry that is not free is listed. -/
theorem mem_entries (h : (s.ttOf n i).st ≠ .free) : (64 * n + i, s.ttOf n i) ∈ s.tt.entries :=
  mem_of_tget_ne fun hempty => h (congrArg TtEntry.st hempty)

/-- The entries of a die that a stop of the context makes CLEARING. -/
def awaiting (s : State) (n id : Nat) : List Nat :=
  (s.tt.entries.filter (fun b => b.1 / 64 == n && b.2.st == .accepted && b.2.affected.contains id)).map (·.1 % 64)

theorem mem_awaiting {id : Nat} (hi : i < 64) (hst : (s.ttOf n i).st = .accepted)
    (hid : (s.ttOf n i).affected.contains id = true) : i ∈ awaiting s n id := by
  have hdie : (64 * n + i) / 64 = n := by omega
  have hidx : (64 * n + i) % 64 = i := by omega
  have hlisted : (64 * n + i, s.ttOf n i) ∈ s.tt.entries := mem_entries (by rw [hst]; decide)
  refine List.mem_map.mpr ⟨_, List.mem_filter.mpr ⟨hlisted, ?_⟩, hidx⟩
  rw [hdie, hst, hid]
  simp

theorem stopCtx_tt (s : State) (key : Nat) (why : StopFor) : (s.stopCtx key why).tt = s.tt :=
  (Spares.refl .stops s).stopCtx.parts .tt (by decide)

/-- A stop makes the accepted bookings that affect its context CLEARING. -/
theorem ttStop_clearing (hsorted : tsorted 0 s.tt.entries = true) {key : Nat} {c : Ctx} (hctx : s.ctxOf key = some c)
    (hi : i < 64) (hst : (s.ttOf n i).st = .accepted) (hid : (s.ttOf n i).affected.contains c.id = true) :
    ((s.ttStop n key).ttOf n i).st = .clearing := by
  have hstop : s.ttStop n key = ((awaiting s n c.id).foldl (clearAt n) s).stopCtx key .booking := by
    unfold State.ttStop
    rw [hctx]
    rfl
  have hfold : tsorted 0 ((awaiting s n c.id).foldl (clearAt n) s).tt.entries = true ∧
      (((awaiting s n c.id).foldl (clearAt n) s).ttOf n i).st = .clearing :=
    foldl_reaches (P := fun t => tsorted 0 t.tt.entries = true)
      (Q := fun t => tsorted 0 t.tt.entries = true ∧ (t.ttOf n i).st = .clearing) (mem_awaiting hi hst hid)
      (fun t j h => sorted_clearAt h n j) (fun t h => ⟨sorted_clearAt h n i, clearAt_st h n i⟩)
      (fun t j ⟨h, hq⟩ => ⟨sorted_clearAt h n j, clearAt_keeps h hq j⟩) hsorted
  rw [hstop, ttOf_congr (congrArg TideTable.entries (stopCtx_tt ..))]
  exact hfold.2

end

section
variable {s : State} {n : Fin 4} {i : Fin 64} (hrun : s.halted .inference = false)
include hrun

theorem exec_ttReady (hst : (s.ttOf n i).st = .accepted ∨ (s.ttOf n i).st = .clearing) (hfree : s.ttFree n i = true) :
    exec (.ttReady n i) s = .next ((s.setTt n i { s.ttOf n i with st := .ready, tReady := s.T }).ttIrq (s.ttOf n i)) :=
  (unlessHalted_runs hrun _).trans (onlyIf_true (by simpa [hfree] using hst) _ _)

/-- At T_START a booking is ACTIVE or LATE. -/
theorem exec_ttStart (hst : (s.ttOf n i).st = .ready ∨ (s.ttOf n i).st = .accepted ∨ (s.ttOf n i).st = .clearing) :
    let e := s.ttOf n i
    let t := s.reachNs e.start
    t.pastNs e.start = true → exec (.ttStart n i) s = .next
      (if e.st = .ready ∧ s.radioOnly = false then t.ttActivate n i e
       else ((t.setTt n i { e with st := .late }).count (ttBlock + 0x014) 1).ttIrq e) := by
  intro e t hdue
  refine (unlessHalted_runs hrun _).trans (onlyIf_true ?_ _ _)
  rw [hdue, Bool.and_true]
  simpa [or_assoc] using hst

theorem exec_ttStart_active (hsorted : tsorted 0 s.tt.entries = true)
    (hdue : (s.reachNs (s.ttOf n i).start).pastNs (s.ttOf n i).start = true) (hst : (s.ttOf n i).st = .ready)
    (hradio : s.radioOnly = false) :
    exec (.ttStart n i) s = .next ((s.reachNs (s.ttOf n i).start).ttActivate n i (s.ttOf n i)) ∧
    (((s.reachNs (s.ttOf n i).start).ttActivate n i (s.ttOf n i)).ttOf n i).st = .active :=
  ⟨(exec_ttStart hrun (.inl hst) hdue).trans (congrArg _ (if_pos ⟨hst, hradio⟩)),
    ttActivate_st (by rwa [State.reachNs_tt]) ..⟩

theorem exec_ttStart_late (hdue : (s.reachNs (s.ttOf n i).start).pastNs (s.ttOf n i).start = true)
    (hst : (s.ttOf n i).st = .accepted ∨ (s.ttOf n i).st = .clearing ∨ ((s.ttOf n i).st = .ready ∧ s.radioOnly = true)) :
    exec (.ttStart n i) s = .next ((((s.reachNs (s.ttOf n i).start).setTt n i { s.ttOf n i with st := .late }).count
      (ttBlock + 0x014) 1).ttIrq (s.ttOf n i)) := by
  have hwaits : ¬ ((s.ttOf n i).st = .ready ∧ s.radioOnly = false) := by
    rintro ⟨hready, hradio⟩
    simp [hready, hradio] at hst
  have hocc : (s.ttOf n i).st = .ready ∨ (s.ttOf n i).st = .accepted ∨ (s.ttOf n i).st = .clearing := by tauto
  exact (exec_ttStart hrun hocc hdue).trans (congrArg _ (if_neg hwaits))

/-- A LATE booking takes what is free, and is ACTIVE with the last of it. -/
theorem exec_ttLateArrayFree (hst : (s.ttOf n i).st = .late) :
    exec (.ttLateArrayFree n i) s = .next
      (if s.ttFree n i then s.ttActivate n i { s.ttOf n i with
        taken := ((s.ttOf n i).named n).filter (s.ttArrayFree n i), tReady := s.T }
       else s.setTt n i { s.ttOf n i with taken := ((s.ttOf n i).named n).filter (s.ttArrayFree n i) }) :=
  (unlessHalted_runs hrun _).trans (onlyIf_true (beq_iff_eq.mpr hst) _ _)

/-- Contexts that only lose arrays to the booking, and in which nothing runs, hold none that it names. -/
theorem runs_ttReleaseDue :
    let e := s.ttOf n i
    let due : Int := (e.start : Int) - e.margin * 1000
    e.st = .accepted ∨ e.st = .clearing ∨ e.st = .late → (s.reachNs due).pastNs due = true →
    Runs (.ttReleaseDue n i) s (fun t => t.mem = s.mem ∧ t.tt = s.tt ∧
      ∀ k c, s.ctxOf k = some c → k / 8 = n.val → e.losing.contains c.id = true → c.run = none →
        ∃ c', t.ctxOf k = some c' ∧ ∀ g ∈ c'.arrays, g ∈ c.arrays ∧ g ∉ e.named n) := by
  intro e due hst hdue
  have hocc : (e.saving && (s.reachNs due).pastNs due) = true := by
    rw [hdue, Bool.and_true]
    simpa [TtEntry.saving, or_assoc] using hst
  have hexec : exec (.ttReleaseDue n i) s =
      .next ((losingKeys s n e).foldl (releaseAt e n) (s.reachNs due)) :=
    (unlessHalted_runs hrun _).trans (onlyIf_true hocc _ _)
  have hspares : Spares .sharing (s.reachNs due) ((losingKeys s n e).foldl (releaseAt e n) (s.reachNs due)) :=
    foldl_keeps (fun t k h => h.trans (spares_releaseAt e n t k)) _ (.refl _ _)
  refine ⟨_, hexec, Eq.trans (hspares.parts .mem (by decide)) (State.reachNs_mem ..),
    Eq.trans (hspares.parts .tt (by decide)) (State.reachNs_tt ..), fun k c hctx hdie hlose hidle => ?_⟩
  have hctx' : (s.reachNs due).ctxOf k = some c := (ctxOf_congr (congrArg Sharing.ctx (State.reachNs_sh ..)) k).trans hctx
  have hk : k ∈ losingKeys s n e :=
    List.mem_map.mpr ⟨(k, c), List.mem_filter.mpr ⟨mem_of_ctxOf hctx, by rw [hdie, hlose, beq_self_eq_true]; rfl⟩, rfl⟩
  obtain ⟨c', hc', -, harrays⟩ := foldl_reaches (f := releaseAt e n) (P := IdleWithin k (· ∈ c.arrays))
    (Q := IdleWithin k (fun g => g ∈ c.arrays ∧ g ∉ e.named n)) hk (fun t j h => h.after e n j) (fun t h => h.unnamed e n)
    (fun t j h => h.after e n j) ⟨c, hctx', hidle, fun _ hg => hg⟩
  exact ⟨c', hc', harrays⟩

theorem exec_ttEnd :
    let e := s.ttOf n i
    let t := s.reachNs (e.start + e.dur : Nat)
    let u := t.discardBooked n i
    e.live = true → t.pastNs (e.start + e.dur : Nat) = true → exec (.ttEnd n i) s = .next
      ((if t.bookedQueued n i then u.count (ttBlock + 0x018) 1 else u).ttOver n i .done) := by
  intro e t u hlive hdue
  exact (unlessHalted_runs hrun _).trans (onlyIf_true (by rw [hlive, hdue]; rfl) _ _)

theorem exec_ttStopDue {due : Int} {key : Nat} {rest : List (Int × Nat)}
    (hnext : (saveStarts (s.saveQueue n)).1 = (due, key) :: rest) (hdue : (s.reachNs due).pastNs due = true) :
    exec (.ttStopDue n) s = .next ((s.reachNs due).ttStop n key) := by
  show execTtStopDue n s = _
  unfold execTtStopDue
  rw [hnext]
  exact (unlessHalted_runs hrun _).trans (onlyIf_true hdue _ _)

end

/-- Settles O22, command by command: each answers on its occasion what its meaning says, and the entry, the context or the
sequencer that it changed is read back. -/
theorem bookingCommands : Obligations.BookingCommands := by
  unfold Obligations.BookingCommands
  refine ⟨fun s k n i v hk ha => ⟨fun hlive hvalid => exec_ttEntrySubmit hk ha n i hlive hvalid,
      fun hlive => ⟨exec_ttEntryCancel hk ha n i hlive, discardBooked_of_not_active⟩,
      fun hactive => exec_ttRingDoorbell hk ha n v hactive⟩,
    fun s n i hrun hsorted => ⟨exec_ttReady hrun, fun hdue => ⟨exec_ttStart_active hrun hsorted hdue,
        exec_ttStart_late hrun hdue⟩, fun hst => ⟨fun hfree => ?_, fun hfree => ?_⟩,
      fun hst hdue _ => runs_ttReleaseDue hrun hst hdue, exec_ttEnd hrun, fun hes g hg => esOf_discardBooked hes hg,
      ttOver_st hsorted n i⟩,
    fun s n due key rest hrun hnext hdue => ⟨exec_ttStopDue hrun hnext hdue, fun i c hsorted hctx hst hid => ?_⟩⟩
  · exact ⟨_, (exec_ttLateArrayFree hrun hst).trans (congrArg _ (if_pos hfree)), ttActivate_st hsorted ..⟩
  · exact (exec_ttLateArrayFree hrun hst).trans (congrArg _ (if_neg (Bool.eq_false_iff.mp hfree)))
  · have htt : (s.reachNs due).tt = s.tt := State.reachNs_tt ..
    have hent : (s.reachNs due).ttOf n i = s.ttOf n i := ttOf_congr (congrArg TideTable.entries htt) ..
    exact ttStop_clearing (by rwa [htt]) ((ctxOf_congr (congrArg Sharing.ctx (State.reachNs_sh ..)) key).trans hctx) i.isLt
      (by rwa [hent]) (by rwa [hent])

end Sys2Proof

namespace Sys2Proof
open Machine

/-! ### O57: what the commands of the radio and of channel coding leave

The footprints of O56 go on here: one lemma for each function of these chapters. -/

/-- A gap in a stream's sequence is counted (R208). -/
def Footprint.sequence : Footprint := ⟨[.fh, .regs], [.one (fhBlock + 0x110)], .none⟩

/-- A slot's configuration is noted, and counted where it is late (R229). -/
def Footprint.configs : Footprint := ⟨[.fh, .regs], [.one (fhBlock + 0x128)], .none⟩

/-- A preamble is reported (R217). -/
def Footprint.preambles : Footprint := ⟨[.ecc, .fh, .regs, .mem, .irq], [.one (fhBlock + 0x11C)], .any⟩

/-- A Dibber's interrupt is raised, or lost and counted (R222). -/
def Footprint.raises : Footprint where
  parts := [.tide, .fh, .regs]
  regs := [.row (dbBlock + 0x08) 48 0x100, .row (dbBlock + 0x14) 48 0x100]

/-- A Dibber's flags and counts of saturations (R223, R224). -/
def Footprint.flags : Footprint where
  parts := [.fh, .regs]
  regs := [.row (dbBlock + 0x08) 48 0x100, .row (dbBlock + 0x0C) 48 0x100, .row (dbBlock + 0x10) 48 0x100]

/-- A Dibber's control register is written (R224). -/
def Footprint.control : Footprint := ⟨[.fh, .regs], [.row dbBlock 48 0x100], .none⟩

/-- Records of the HARQ pools move and end (R258 to R262). -/
def Footprint.harq : Footprint := ⟨[.ecc, .ds, .mem], [], .any⟩

/-- A job leaves a coding cluster's table with its completion entry (R245). -/
def Footprint.jobEnds : Footprint where
  parts := [.ecc, .ds, .regs, .mem, .irq]
  regs := [.row (dsBlock + 0x100) 4 0x1000, .row (dsBlock + 0x104) 4 0x1000]
  zone := .any

/-- A job ends with ECC (R242, R245). -/
def Footprint.jobEccs : Footprint :=
  { Footprint.jobEnds with regs := Footprint.jobEnds.regs ++ [.row (dsBlock + 0x114) 4 0x1000] }

/-- Contexts lose their descriptors, and the prefills that ran there are placed again (R191). -/
def Footprint.replaces : Footprint := Footprint.tables.plus .serves

section
set_option Elab.async false
variable {k : Footprint} {s₀ s : State}

/-! #### Changes of one part -/

theorem Spares.fh (h : Spares k s₀ s) {x} (hp : k.parts.contains .fh = true := by rfl) :
    Spares k s₀ { s with fh := x } :=
  h.part hp fun p hne => by
    cases p with
    | fh => exact absurd rfl hne
    | _ => simp only [Part.Same, and_self]

theorem Spares.ds (h : Spares k s₀ s) {x} (hp : k.parts.contains .ds = true := by rfl) :
    Spares k s₀ { s with ds := x } :=
  h.part hp fun p hne => by
    cases p with
    | ds => exact absurd rfl hne
    | _ => simp only [Part.Same, and_self]

theorem Spares.clk (h : Spares k s₀ s) {x} (hp : k.parts.contains .clk = true := by rfl) :
    Spares k s₀ { s with clk := x } :=
  h.part hp fun p hne => by
    cases p with
    | clk => exact absurd rfl hne
    | _ => simp only [Part.Same, and_self]

theorem Spares.signals (h : Spares k s₀ s) {x} (hp : k.parts.contains .tide = true := by rfl) :
    Spares k s₀ { s with td := { s.td with signals := x } } :=
  h.part hp fun p hne => by
    cases p with
    | tide => exact absurd rfl hne
    | _ => simp only [Part.Same, and_self]

theorem Spares.fftStart (h : Spares k s₀ s) {x} (hp : k.parts.contains .tide = true := by rfl) :
    Spares k s₀ { s with td := { s.td with fftStart := x } } :=
  h.part hp fun p hne => by
    cases p with
    | tide => exact absurd rfl hne
    | _ => simp only [Part.Same, and_self]

theorem Spares.fhFftStart (h : Spares k s₀ s) {x y} (hp : k.parts.contains .fh = true := by rfl)
    (ht : k.parts.contains .tide = true := by rfl) : Spares k s₀ { s with fh := x, td := { s.td with fftStart := y } } :=
  (h.fh hp (x := x)).fftStart ht (x := y)

theorem Spares.reachC (h : Spares k s₀ s) {c} (hp : k.parts.contains .raw = true := by rfl) : Spares k s₀ (s.reachC c) :=
  .ite (h.reachRaw hp) h

/-! #### Cell plans -/

theorem Spares.startClock (h : Spares k s₀ s) {d} (hp : k.parts.contains .clk = true := by rfl) :
    Spares k s₀ (s.startClock d) := .ite h (h.clk hp)

theorem Spares.usePlan (h : Spares k s₀ s) {p} (hp : k.parts.contains .fh = true := by rfl) : Spares k s₀ (s.usePlan p) :=
  h.fh hp

theorem Spares.activatePlan (h : Spares k s₀ s) {p} (hp : k.parts.contains .fh = true := by rfl) :
    Spares k s₀ (s.activatePlan p) := by
  unfold State.activatePlan
  extract_lets _ t
  have ht : Spares k s₀ t := h.usePlan hp
  exact ht.fh hp

theorem Spares.endPlan (h : Spares k s₀ s) (hp : k.parts.contains .fh = true := by rfl) : Spares k s₀ s.endPlan := by
  unfold State.endPlan
  extract_lets _ t
  have ht : Spares k s₀ t := h.usePlan hp
  exact ht.fh hp

/-- What `Spares.abortPrefill` says, without the completions of the end of a request. -/
theorem Spares.dropPrefill (h : Spares k s₀ s) {i} (hk : Footprint.replaces.within k = true := by rfl) :
    Spares k s₀ (s.abortPrefill i) := h.grow hk fun h => by
  unfold State.abortPrefill
  extract_lets _ _ _ t t₁
  have ht : Spares .replaces s t := by
    unfold t
    split
    · exact h.abortCtx
    · exact h
  have ht₁ : Spares .replaces s t₁ := foldl_keeps (fun t₂ x ht₂ => by
      extract_lets
      exact ht₂.postRecord) _ ht
  exact .ite h.prefillOver ht₁.sh.serveWait.prefillOver

theorem Spares.placeAgain (h : Spares k s₀ s) {i} (hk : Footprint.replaces.within k = true := by rfl) :
    Spares k s₀ (s.placeAgain i) := h.grow hk fun h => by
  unfold State.placeAgain
  extract_lets _ _ t
  have ht : Spares .replaces s t := foldl_keeps (fun _ _ ht => ht.setBerth) _ h.dropPrefill
  exact ht.modMan

theorem Spares.abortRd (h : Spares k s₀ s) (hk : Footprint.replaces.within k = true := by rfl) :
    Spares k s₀ s.abortRd := h.grow hk fun h => by
  unfold State.abortRd
  extract_lets _ t
  have ht : Spares .replaces s t := foldl_keeps (fun _ _ ht => ht.abortCtx) _ h
  exact foldl_keeps (fun _ _ ht => ht.placeAgain) _ ht

theorem nextSpares_execFhPlanLoad (m) : NextSpares ((Instr.fhPlanLoad m).footprint .any) s (execFhPlanLoad m s) := .of fun h => by
  unfold execFhPlanLoad
  refine .agentIf (Spares.mgmtEvent ?_)
  split
  · exact h.fh
  · extract_lets _ u
    have hu : Spares _ s u := h.abortRd.startClock
    exact .ite hu.fh h.fh

theorem nextSpares_execFhPlanUnload (m) : NextSpares ((Instr.fhPlanUnload m).footprint .none) s (execFhPlanUnload m s) :=
  .of fun h => .agentIf h.fh.mgmtEvent

theorem nextSpares_execFhPlanCancel (m) : NextSpares ((Instr.fhPlanCancel m).footprint .none) s (execFhPlanCancel m s) :=
  .of fun h => .agentIf h.fh.mgmtEvent

theorem nextSpares_execCellShed : NextSpares (Instr.cellShed.footprint .none) s (execCellShed s) := .of fun h => by
  unfold execCellShed
  split
  · exact .next h
  · extract_lets v
    clear_value v
    cases v with
    | nil => exact .next h
    | cons c cs => exact .onlyIf h.reachNs.fh.hiErr

/-! #### Fronthaul reception -/

theorem Spares.seqCheck (h : Spares k s₀ s) {i seq} (hk : Footprint.sequence.within k = true := by rfl) :
    Spares k s₀ (s.seqCheck i seq) := h.grow hk fun h => by
  unfold State.seqCheck
  extract_lets _ _ _ t
  have ht : Spares .sequence s t := h.fh
  exact .ite ht.count ht

theorem Spares.txSeqCheck (h : Spares k s₀ s) {i seq} (hk : Footprint.sequence.within k = true := by rfl) :
    Spares k s₀ (s.txSeqCheck i seq) := h.grow hk fun h => by
  unfold State.txSeqCheck
  extract_lets _ _ t
  have ht : Spares .sequence s t := h.fh
  exact .ite ht.count ht

theorem nextSpares_execFhCplaneRx (port sub h' eaxc sec ext) :
    NextSpares ((Instr.fhCplaneRx port sub h' eaxc sec ext).footprint .none) s (execFhCplaneRx port sub h' eaxc sec ext s) :=
  .of fun h => by
  unfold execFhCplaneRx
  extract_lets
  refine .unlessHalted (.onlyIf ?_)
  split
  · exact h.count
  · split
    · exact h.seqCheck
    · split
      · exact h.txSeqCheck
      · exact h.count

theorem nextSpares_execFhUplaneRx (port sub h' eaxc comp width frame slot sym arrival startPrb prbs buf) :
    NextSpares ((Instr.fhUplaneRx port sub h' eaxc comp width frame slot sym arrival startPrb prbs buf).footprint .any) s
      (execFhUplaneRx port sub h' eaxc comp width frame slot sym arrival startPrb prbs buf s) := .of fun h => by
  unfold execFhUplaneRx
  extract_lets s0
  have hs0 : Spares _ s s0 := h.reachRaw
  refine .unlessHalted (.onlyIf ?_)
  split
  · exact hs0.count
  · split
    · split
      · exact hs0.txSeqCheck
      · exact hs0.count
    · extract_lets s1 _ _ _ _ _ _ s2 s3
      have hs1 : Spares _ s s1 := hs0.seqCheck
      have hs2 : Spares _ s s2 := hs1.store
      have hs3 : Spares _ s s3 := hs2.count
      split
      · exact hs1.count
      · exact hs1.count
      · exact .ite hs1 (.ite hs1.count hs3.fh)

theorem nextSpares_execFhRxWindowClose (i frame slot sym buf) :
    NextSpares ((Instr.fhRxWindowClose i frame slot sym buf).footprint .any) s (execFhRxWindowClose i frame slot sym buf s) :=
  .of fun h => by
  unfold execFhRxWindowClose
  extract_lets
  refine .unlessHalted ?_
  split
  · exact .next h
  · split
    · exact .next h
    · extract_lets _ _ s0 _ s1 s2
      have hs0 : Spares _ s s0 := h.reachC
      have hs1 : Spares _ s s1 := foldl_keeps (fun _ _ ht => ht.store) _ hs0
      have hs2 : Spares ((Instr.fhRxWindowClose i frame slot sym buf).footprint .any) s s2 := by
        unfold s2
        split
        · exact .ite hs1 hs1.storeNat
        · exact hs1
      exact .onlyIf hs2.fh

/-! #### Gain loops -/

theorem nextSpares_execAgcSymbolUpdate (i frame slot sym side) :
    NextSpares ((Instr.agcSymbolUpdate i frame slot sym side).footprint .any) s (execAgcSymbolUpdate i frame slot sym side s) :=
  .of fun h => by
  unfold execAgcSymbolUpdate
  extract_lets
  refine .unlessHalted ?_
  split
  · exact .next h
  · split
    · extract_lets _ s0 _ _ _ _ _ _ _ t
      have hs0 : Spares _ s s0 := h.reachC
      have ht : Spares _ s t := hs0.store
      exact .onlyIf ht.fh
    · exact .next h

theorem nextSpares_execAgcFreezeEnd (c) : NextSpares ((Instr.agcFreezeEnd c).footprint .none) s (execAgcFreezeEnd c s) :=
  .of fun h => by
  unfold execAgcFreezeEnd
  extract_lets
  refine .unlessHalted ?_
  split
  · exact .onlyIf h.fh
  · exact .next h

theorem nextSpares_execFhAgcRel (m c) : NextSpares ((Instr.fhAgcRel m c).footprint .none) s (execFhAgcRel m c s) :=
  .of fun h => .agentIf h.fh

theorem nextSpares_execFhAgcCfgWrite (m v) : NextSpares ((Instr.fhAgcCfgWrite m v).footprint .none) s (execFhAgcCfgWrite m v s) :=
  .of fun h => .agentIf h.setReg

/-- A port's configuration register (R207). -/
theorem has_fhPortCfg (p : Fin 8) : (RegSet.row (fhBlock + 0x20) 8 4).has (fhBlock + 0x020 + 4 * p.val) := by
  have h := RegSet.has_row p.isLt (fhBlock + 0x20) 4
  rwa [Nat.mul_comm] at h

theorem nextSpares_execFhPortCfgWrite (m p v) :
    NextSpares ((Instr.fhPortCfgWrite m p v).footprint .none) s (execFhPortCfgWrite m p v s) :=
  .of fun h => .agentIf (h.setIn (has_fhPortCfg p))

/-! #### PRACH and the FFT engines -/

theorem Spares.prachReported (h : Spares k s₀ s) {c core tOcc d} (hk : Footprint.preambles.within k = true := by rfl) :
    Spares k s₀ (s.prachReported c core tOcc d) := h.grow hk fun h => by
  unfold State.prachReported
  extract_lets t u _ t₁
  have ht : Spares .preambles s t := h.count.irqTo
  have hu : Spares .preambles s u := ht.storeNat
  have ht₁ : Spares .preambles s t₁ := .ite ht hu.fh
  exact ht₁.fh

theorem nextSpares_execPrachOccasion (c frame slot core reps) :
    NextSpares ((Instr.prachOccasion c frame slot core reps).footprint .any) s (execPrachOccasion c frame slot core reps s) :=
  .of fun h => by
  unfold execPrachOccasion
  refine .unlessHalted ?_
  split
  · exact .next h
  · extract_lets
    split
    · extract_lets _ _ t _ _ _ r
      have ht : Spares _ s t := h.reachC
      have hr : Spares _ s r := ht.drew
      exact .onlyIf (.ite ht.count (foldl_keeps (fun _ _ ht₁ => ht₁.prachReported) _ hr.fh))
    · exact .next h

theorem nextSpares_execFftJobQueue (e src dst size mode) :
    NextSpares ((Instr.fftJobQueue e src dst size mode).footprint .none) s (execFftJobQueue e src dst size mode s) :=
  .of fun h => .unlessHalted (.onlyIf h.fh)

theorem nextSpares_execFftJobDone (e radices) :
    NextSpares ((Instr.fftJobDone e radices).footprint .any) s (execFftJobDone e radices s) := .of fun h => by
  unfold execFftJobDone
  extract_lets
  refine .unlessHalted ?_
  split
  · exact .next h
  · extract_lets _ _ t
    have ht : Spares _ s t := h.store
    exact .onlyIf ht.fhFftStart

/-! #### Slots -/

theorem Spares.addNote (h : Spares k s₀ s) {c frame slot up late} (hp : k.parts.contains .fh = true := by rfl) :
    Spares k s₀ (s.addNote c frame slot up late) := .ite h (h.fh hp)

theorem Spares.configIn (h : Spares k s₀ s) {c frame slot up} (hk : Footprint.configs.within k = true := by rfl) :
    Spares k s₀ (s.configIn c frame slot up) := h.grow hk fun h => .ite h (.ite h.addNote.count h.addNote)

theorem nextSpares_execSlotConfigRx (c frame slot dirs a) :
    NextSpares ((Instr.slotConfigRx c frame slot dirs a).footprint .none) s (execSlotConfigRx c frame slot dirs a s) :=
  .of fun h => by
  unfold execSlotConfigRx
  refine .unlessHalted ?_
  split
  · exact .next h
  · extract_lets t
    have ht : Spares _ s t := .ite h.configIn h
    exact .onlyIf (.ite ht.configIn ht)

theorem nextSpares_configLate (c frame slot up) :
    NextSpares ⟨[.raw, .fh, .regs], [.one (fhBlock + 0x128)], .none⟩ s (s.configLate c frame slot up) := .of fun h => by
  unfold State.configLate
  split
  · exact .next h
  · extract_lets _ t
    have ht : Spares _ s t := h.reachNs
    exact .onlyIf ht.addNote.count

theorem nextSpares_execUlConfigLate (c frame slot) :
    NextSpares ((Instr.ulConfigLate c frame slot).footprint .none) s (execUlConfigLate c frame slot s) :=
  .unlessHalted (nextSpares_configLate c.val frame slot.val true)

theorem nextSpares_execDlConfigLate (c frame slot) :
    NextSpares ((Instr.dlConfigLate c frame slot).footprint .none) s (execDlConfigLate c frame slot s) :=
  .unlessHalted (nextSpares_configLate c.val frame slot.val false)

/-- A cell's count of allocations without a booking (R233). -/
theorem has_noBook (c : Nat) : (RegSet.rows (fhBlock + 0x1008) 0x10).has (fhBlock + 0x1008 + 16 * c) := by
  have h := RegSet.has_rows (fhBlock + 0x1008) 0x10 c
  rwa [Nat.mul_comm] at h

theorem Spares.nrxUse (h : Spares k s₀ s) {mu bufs} (hp : k.parts.contains .fh = true := by rfl) :
    Spares k s₀ (s.nrxUse mu bufs) := h.fh hp

theorem nextSpares_execNrxCompletionWord (src dst word n alloc passes bookings) :
    NextSpares ((Instr.nrxCompletionWord src dst word n alloc passes bookings).footprint .any) s
      (execNrxCompletionWord src dst word n alloc passes bookings s) := .of fun h => by
  unfold execNrxCompletionWord
  extract_lets
  refine .unlessHalted ?_
  split
  · exact .next h
  next c _ =>
    extract_lets _ _ t
    have ht : Spares _ s t := h.nrxUse.store.drew.storeNat
    exact .onlyIf (.ite (h.setIn (has_noBook c.cell)) (.ite ht h))

/-! #### Dibbers -/

/-- A register of the pages of the Dibbers. -/
theorem has_dbReg (c : Fin 48) (o : Nat) : (RegSet.row (dbBlock + o) 48 0x100).has (dbReg c o) := by
  have h := RegSet.has_row c.isLt (dbBlock + o) 0x100
  rwa [show dbBlock + o + c.val * 0x100 = dbReg c o by unfold dbReg; omega] at h

theorem Spares.setDb (h : Spares k s₀ s) {c x} (hp : k.parts.contains .fh = true := by rfl) : Spares k s₀ (s.setDb c x) :=
  h.fh hp

theorem Spares.dbRaise (h : Spares k s₀ s) {c slot} (hk : Footprint.raises.within k = true := by rfl) :
    Spares k s₀ (s.dbRaise c slot) := h.grow hk fun h => by
  unfold State.dbRaise
  extract_lets _ _ _ _ _ s₁
  have hs₁ : Spares .raises s s₁ := h.signals
  exact .ite hs₁ (.ite ((hs₁.setIn (has_dbReg c 0x08)).setIn (has_dbReg c 0x14)) hs₁.setDb)

theorem nextSpares_execDibberSymIrq (c) : NextSpares ((Instr.dibberSymIrq c).footprint .none) s (execDibberSymIrq c s) :=
  .of fun h => by
  unfold execDibberSymIrq
  extract_lets t
  have ht : Spares _ s t := h.dbRaise
  exact .unlessHalted (.onlyIf ht.setDb)

theorem nextSpares_execDibberSlotIrq (c sym) :
    NextSpares ((Instr.dibberSlotIrq c sym).footprint .none) s (execDibberSlotIrq c sym s) := .of fun h => by
  unfold execDibberSlotIrq
  extract_lets t
  have ht : Spares _ s t := (Spares.ite h.dbRaise h).dbRaise
  exact .unlessHalted (.onlyIf ht.setDb)

theorem nextSpares_execDibberReti (c) : NextSpares ((Instr.dibberReti c).footprint .none) s (execDibberReti c s) :=
  .of fun h => .unlessHalted (.onlyIf h.setDb)

theorem Spares.dbFlags (h : Spares k s₀ s) {c ovf sat divz} (hk : Footprint.flags.within k = true := by rfl) :
    Spares k s₀ (s.dbFlags c ovf sat divz) := h.grow hk fun h => by
  unfold State.dbFlags
  extract_lets _ s₁ s₂ s₃
  have hs₁ : Spares .flags s s₁ := h.setDb
  have hs₂ : Spares .flags s s₂ := hs₁.setIn (has_dbReg c 0x08)
  have hs₃ : Spares .flags s s₃ := hs₂.setIn (has_dbReg c 0x0C)
  exact hs₃.setIn (has_dbReg c 0x10)

theorem nextSpares_dbLanes (hk : Footprint.flags.within k = true) (c f lanes) : NextSpares k s (s.dbLanes c f lanes) :=
  .of fun h => .onlyIf (h.grow hk fun h => h.setDb.dbFlags)

theorem Spares.dbEcc (h : Spares k s₀ s) {c bad} (hk : Footprint.flags.within k = true := by rfl) :
    Spares k s₀ (s.dbEcc c bad) := h.grow hk fun h => .ite (h.setIn (has_dbReg c 0x08)) h

/-- A Dibber loads from its own memory or from RD SRAM (R221). -/
def Footprint.loads : Footprint := (Footprint.flags.plus .reports).plus ⟨[.free], [], .none⟩

theorem Spares.dbLoad (h : Spares k s₀ s) {c d src lanes} (hk : Footprint.loads.within k = true := by rfl) :
    Spares k s₀ (s.dbLoad c d src lanes) := h.grow hk fun h => by
  unfold State.dbLoad
  extract_lets x n
  split
  next bs bad t e =>
    have ht : Spares .loads s t := by
      cases src with
      | dmem o =>
        cases e
        exact h.dbEcc
      | device a =>
        dsimp only at e
        split at e
        · cases e
          exact h.noteReads
        · cases e
          exact h
    exact ht.drew.setDb

theorem nextSpares_execDibberLaneOp (c op lanes) :
    NextSpares ((Instr.dibberLaneOp c op lanes).footprint .none) s (execDibberLaneOp c op lanes s) := .of fun h => by
  unfold execDibberLaneOp
  refine .unlessHalted ?_
  split
  · exact .onlyIf h.dbLoad
  · exact .onlyIf h.setDb
  · exact nextSpares_dbLanes rfl c op.lane lanes

theorem Spares.dbControl (h : Spares k s₀ s) {c v x} (hk : Footprint.control.within k = true := by rfl) :
    Spares k s₀ (s.dbControl c v x) := h.grow hk fun h => (h.setIn (has_dbReg c 0)).setDb

theorem nextSpares_execDbCtrlReset (m c v) : NextSpares ((Instr.dbCtrlReset m c v).footprint .none) s (execDbCtrlReset m c v s) :=
  .of fun h => .agentIf h.dbControl

theorem nextSpares_execDbCtrlRun (m c v) : NextSpares ((Instr.dbCtrlRun m c v).footprint .none) s (execDbCtrlRun m c v s) :=
  .of fun h => .agentIf h.dbControl

/-! #### Coding clusters -/

/-- A register of the pages of the coding clusters. -/
theorem has_dsReg (c : Fin 4) (o : Nat) : (RegSet.row (dsBlock + o) 4 0x1000).has (dsReg c o) := by
  have h := RegSet.has_row c.isLt (dsBlock + o) 0x1000
  rwa [show dsBlock + o + c.val * 0x1000 = dsReg c o by unfold dsReg; omega] at h

theorem Spares.setDs (h : Spares k s₀ s) {c x} (hp : k.parts.contains .ds = true := by rfl) : Spares k s₀ (s.setDs c x) :=
  h.ds hp

theorem Spares.dsIrq (h : Spares k s₀ s) {c} (hp : k.parts.contains .irq = true := by rfl) : Spares k s₀ (s.dsIrq c) :=
  h.irqTo hp

theorem Spares.setHandle (h : Spares k s₀ s) {i x} (hk : Footprint.harq.within k = true := by rfl) :
    Spares k s₀ (s.setHandle i x) := h.grow hk fun h => h.storeNat

theorem Spares.emptyHandle (h : Spares k s₀ s) {i} (hk : Footprint.harq.within k = true := by rfl) :
    Spares k s₀ (s.emptyHandle i) := h.grow hk fun h => h.storeNat

theorem Spares.loseHandle (h : Spares k s₀ s) {i} (hk : Footprint.harq.within k = true := by rfl) :
    Spares k s₀ (s.loseHandle i) := h.setHandle hk

theorem Spares.harqFetch (h : Spares k s₀ s) {i} (hk : Footprint.harq.within k = true := by rfl) :
    Spares k s₀ (s.harqFetch i) := h.grow hk fun h => by
  unfold State.harqFetch
  extract_lets _ t
  have ht : Spares .harq s t := h.setHandle
  split
  · split
    · extract_lets
      exact ht.ds
    · exact .ite h h.ds
  · exact h

theorem Spares.settleFrees (h : Spares k s₀ s) (hk : Footprint.harq.within k = true := by rfl) :
    Spares k s₀ s.settleFrees := h.grow hk fun h =>
  have hfree : Spares .harq s _ := foldl_keeps (fun _ _ ht => ht.emptyHandle) _ h.ds
  foldl_keeps (fun _ _ ht => ht.harqFetch) _ hfree.ds

theorem Spares.dsComplete (h : Spares k s₀ s) {c x d} (hk : Footprint.jobEnds.within k = true := by rfl) :
    Spares k s₀ (s.dsComplete c x d) := h.grow hk fun h => by
  unfold State.dsComplete
  extract_lets _ _ _ _ t t₁
  have ht : Spares .jobEnds s t := h.storeNat.setDs
  have ht₁ : Spares .jobEnds s t₁ := (ht.setIn (has_dsReg c 0x100)).setIn (has_dsReg c 0x104)
  exact .ite ht₁.dsIrq ht₁

theorem Spares.dsRemove (h : Spares k s₀ s) {c i} (hk : Footprint.harq.within k = true := by rfl) :
    Spares k s₀ (s.dsRemove c i) := h.grow hk fun h => h.setDs.settleFrees

theorem Spares.dsEnd (h : Spares k s₀ s) {c i x d} (hk : Footprint.jobEnds.within k = true := by rfl) :
    Spares k s₀ (s.dsEnd c i x d) := h.grow hk fun h => h.dsRemove.dsComplete

theorem Spares.dsEcc (h : Spares k s₀ s) {c i x} (hk : Footprint.jobEccs.within k = true := by rfl) :
    Spares k s₀ (s.dsEcc c i x) := h.grow hk fun h => (h.setIn (has_dsReg c 0x114)).dsEnd

theorem Spares.dsReads (h : Spares k s₀ s) {a n} (hk : Footprint.reports.within k = true := by rfl) :
    Spares k s₀ (s.dsReads a n) := h.noteReads hk

/-! #### Rings -/

theorem nextSpares_execDsSqDoorbell (m c tail) :
    NextSpares ((Instr.dsSqDoorbell m c tail).footprint .none) s (execDsSqDoorbell m c tail s) := .of fun h =>
  .agentIf (.ite (h.setIn (has_dsReg c 0x004)).dsIrq (h.setIn (has_dsReg c 0x014)))

theorem nextSpares_execDsCqHeadWrite (m c head) :
    NextSpares ((Instr.dsCqHeadWrite m c head).footprint .none) s (execDsCqHeadWrite m c head s) := .of fun h =>
  .agentIf (.ite (h.setIn (has_dsReg c 0x004)).dsIrq (h.setIn (has_dsReg c 0x024)))

theorem nextSpares_execDsJobCopy (c) : NextSpares ((Instr.dsJobCopy c).footprint .any) s (execDsJobCopy c s) := .of fun h => by
  unfold execDsJobCopy
  extract_lets _ _ _ _ s1 _ _ s2
  have hs1 : Spares _ s s1 := h.dsReads.setDs
  have hs2 : Spares _ s s2 := hs1.setDs
  exact .unlessHalted (.onlyIf (.ite hs1.dsComplete (.ite hs1.dsComplete (.ite hs2.harqFetch hs2))))

/-! #### Jobs -/

theorem Spares.dsJob (h : Spares k s₀ s) {c i opc x j t} (e : s.dsJob c i opc = some (x, j, t))
    (hp : k.parts.contains .raw = true := by rfl) : Spares k s₀ t := by
  unfold State.dsJob at e
  split at e
  · cases e
  · extract_lets y u at e
    have hu : Spares k s₀ u := .ite h (h.reachNs hp)
    clear_value y u
    split at e
    · cases e
      exact hu
    · cases e

/-- The pair is named by a predicate and the definition unfolded as a function, as in `keepRecord_of_safe`. -/
theorem keepRecord_of_spares (h : Spares k s₀ s) (hk : Footprint.harq.within k = true) (x bufs) {P : State × Bool → Prop}
    (hP : ∀ t b, Spares k s₀ t → P (t, b)) : P (s.keepRecord x bufs) := by
  generalize hf : @State.keepRecord = f
  delta State.keepRecord at hf
  subst hf
  beta_reduce
  extract_lets sh old n64 reuse s0
  have hs0 : Spares k s₀ s0 := .ite h (h.emptyHandle hk)
  clear_value reuse s0
  split
  · exact hP _ _ ((hs0.grow hk fun h => h.store).setHandle hk)
  · exact hP _ _ hs0

theorem Spares.keepRecord (h : Spares k s₀ s) {x bufs} (hk : Footprint.harq.within k = true := by rfl) :
    Spares k s₀ (s.keepRecord x bufs).1 :=
  keepRecord_of_spares h hk x bufs (P := fun p => Spares k s₀ p.1) fun _ _ ht => ht

theorem Spares.usedHandle (h : Spares k s₀ s) {i} (hk : Footprint.harq.within k = true := by rfl) :
    Spares k s₀ (s.usedHandle i) := .ite h (h.setHandle hk)

theorem nextSpares_execDsLdpcDec (c i) : NextSpares ((Instr.dsLdpcDec c i).footprint .any) s (execDsLdpcDec c i s) :=
  .of fun h => by
  unfold execDsLdpcDec
  refine .unlessHalted ?_
  split
  · exact .next h
  next t e =>
    have ht : Spares _ s t := h.dsJob e
    extract_lets _ _ _ _ _ _ _ t₁ t₂ t₃ _ _ _ _ _ _ _ t₄ kept _ t₅ t₆
    have ht₁ : Spares _ s t₁ := ht.dsReads
    have ht₂ : Spares _ s t₂ := .ite ht₁.dsReads ht₁
    have ht₃ : Spares _ s t₃ := .ite (ht₂.setIn (has_dsReg c 0x114)).loseHandle ht₂
    have ht₄ : Spares _ s t₄ := ht₃.store
    have hkept : Spares ((Instr.dsLdpcDec c i).footprint .any) s kept.1 := by
      unfold kept
      split
      · exact ht₄.keepRecord
      · exact .ite ht₄.emptyHandle ht₄
    have ht₅ : Spares _ s t₅ := hkept.usedHandle
    have ht₆ : Spares _ s t₆ := .ite (ht₅.setIn (has_dsReg c 0x10C)) ht₅
    exact .ite (.next h) (.ite (.next ht₁.dsEcc) (.next ht₆.dsEnd))

theorem nextSpares_execDsLdpcEnc (c i) : NextSpares ((Instr.dsLdpcEnc c i).footprint .any) s (execDsLdpcEnc c i s) :=
  .of fun h => by
  unfold execDsLdpcEnc
  refine .unlessHalted ?_
  split
  · exact .next h
  next t e =>
    have ht : Spares _ s t := h.dsJob e
    extract_lets _ t₁
    have ht₁ : Spares _ s t₁ := ht.dsReads
    exact .ite (.next ht₁.dsEcc) (.next ht₁.store.dsEnd)

theorem nextSpares_execDsPolarDec (c i) : NextSpares ((Instr.dsPolarDec c i).footprint .any) s (execDsPolarDec c i s) :=
  .of fun h => by
  unfold execDsPolarDec
  refine .unlessHalted ?_
  split
  · exact .next h
  next t e =>
    have ht : Spares _ s t := h.dsJob e
    extract_lets _ t₁
    have ht₁ : Spares _ s t₁ := ht.dsReads
    exact .ite (.next ht₁.dsEcc) (.next ht₁.store.dsEnd)

theorem nextSpares_execDsPolarEnc (c i) : NextSpares ((Instr.dsPolarEnc c i).footprint .any) s (execDsPolarEnc c i s) :=
  .of fun h => by
  unfold execDsPolarEnc
  refine .unlessHalted ?_
  split
  · exact .next h
  next t e =>
    have ht : Spares _ s t := h.dsJob e
    extract_lets _ t₁
    have ht₁ : Spares _ s t₁ := ht.dsReads
    exact .ite (.next ht₁.dsEcc) (.next ht₁.store.dsEnd)

theorem nextSpares_execDsTbEnc (c i) : NextSpares ((Instr.dsTbEnc c i).footprint .any) s (execDsTbEnc c i s) :=
  .of fun h => by
  unfold execDsTbEnc
  refine .unlessHalted ?_
  split
  · exact .next h
  next t e =>
    have ht : Spares _ s t := h.dsJob e
    extract_lets _ t₁ _ _ _ _ t₂ t₃
    have ht₁ : Spares _ s t₁ := ht.dsReads
    have ht₂ : Spares _ s t₂ := ht₁.store
    have ht₃ : Spares _ s t₃ := .ite (ht₂.setIn (has_dsReg c 0x110)) ht₂
    exact .ite (.next ht₁.dsEcc) (.next ht₃.dsEnd)

theorem nextSpares_execDsTbDec (c i) : NextSpares ((Instr.dsTbDec c i).footprint .any) s (execDsTbDec c i s) :=
  .of fun h => by
  unfold execDsTbDec
  refine .unlessHalted ?_
  split
  · exact .next h
  next t e =>
    have ht : Spares _ s t := h.dsJob e
    extract_lets _ t₁
    have ht₁ : Spares _ s t₁ := ht.dsReads
    exact .ite (.next ht₁.dsEcc) (.next ht₁.store.dsEnd)

/-- An allocation is not decoded (R233). -/
def Footprint.undecoded : Footprint := ⟨[.fh, .regs], [.one (fhBlock + 0x124)], .none⟩

theorem Spares.notDecoded (h : Spares k s₀ s) {cell slot} (hk : Footprint.undecoded.within k = true := by rfl) :
    Spares k s₀ (s.notDecoded cell slot) := h.grow hk fun h => by
  unfold State.notDecoded
  extract_lets t
  have ht : Spares .undecoded s t := h.count
  exact ht.fh

/-- A cell's count of selections of one kind (R241). -/
theorem has_selection (c j : Nat) : (RegSet.rows (fhBlock + 0x1000) 4).has (fhBlock + 0x1000 + 16 * c + 4 * j) := by
  have h := RegSet.has_rows (fhBlock + 0x1000) 4 (4 * c + j)
  rwa [show fhBlock + 0x1000 + (4 * c + j) * 4 = fhBlock + 0x1000 + 16 * c + 4 * j by omega] at h

theorem nextSpares_execDsNselRead (c i) : NextSpares ((Instr.dsNselRead c i).footprint .none) s (execDsNselRead c i s) :=
  .of fun h => by
  unfold execDsNselRead
  extract_lets
  refine .unlessHalted ?_
  split
  · exact .next h
  next j _ =>
    extract_lets x t _ _ _ _ _ o _ _ u
    have ht : Spares ((Instr.dsNselRead c i).footprint .none) s t := h.reachNs
    have ho : (RegSet.rows (fhBlock + 0x1000) 4).has o := by
      unfold o
      split
      · exact has_selection x.cell 0
      · split
        · exact has_selection x.cell 3
        · exact has_selection x.cell 1
    have hu : Spares _ s u := ht.dsReads.setDs.setIn ho
    exact .onlyIf (.ite hu.notDecoded hu)

theorem nextSpares_execDsJobLate (c i) : NextSpares ((Instr.dsJobLate c i).footprint .any) s (execDsJobLate c i s) :=
  .of fun h => by
  unfold execDsJobLate
  refine .unlessHalted ?_
  split
  · exact .next h
  · extract_lets _ t
    have ht : Spares _ s t := h.reachNs
    exact .onlyIf (ht.setIn (has_dsReg c 0x108)).dsEnd

theorem nextSpares_execDsCtrlAbort (m c v) : NextSpares ((Instr.dsCtrlAbort m c v).footprint .any) s (execDsCtrlAbort m c v s) :=
  .of fun h => by
  unfold execDsCtrlAbort
  extract_lets t
  have ht : Spares _ s t := h.setIn (has_dsReg c 0)
  exact .agentIf (foldl_keeps (fun t₁ x ht₁ => by
      extract_lets
      exact .ite ht₁ (Spares.ite ht₁.loseHandle ht₁).dsEnd) _ ht)

theorem nextSpares_execDsCtrlEnable (m c v) :
    NextSpares ((Instr.dsCtrlEnable m c v).footprint .none) s (execDsCtrlEnable m c v s) :=
  .of fun h => .agentIf (h.setIn (has_dsReg c 0))

/-! #### HARQ records -/

theorem nextSpares_execDsHarqFree (m i) : NextSpares ((Instr.dsHarqFree m i).footprint .any) s (execDsHarqFree m i s) :=
  .of fun h => .agentIf h.ds.settleFrees

theorem nextSpares_execDsHarqPrefetch (m i) :
    NextSpares ((Instr.dsHarqPrefetch m i).footprint .any) s (execDsHarqPrefetch m i s) :=
  .of fun h => .agentIf h.harqFetch

theorem nextSpares_execHarqSpill : NextSpares (Instr.harqSpill.footprint .any) s (execHarqSpill s) := .of fun h => by
  unfold execHarqSpill
  refine .unlessHalted ?_
  split
  · exact .next h
  · extract_lets _ t
    have ht : Spares _ s t := h.setHandle
    split
    · exact .next h
    · extract_lets
      exact .onlyIf ht.ds

theorem nextSpares_execHarqSpillDone (i) : NextSpares ((Instr.harqSpillDone i).footprint .any) s (execHarqSpillDone i s) :=
  .of fun h => by
  unfold execHarqSpillDone
  extract_lets
  refine .unlessHalted ?_
  split
  · exact .next h
  · extract_lets _ t u
    have ht : Spares _ s t := h.ds
    have hu : Spares _ s u := .ite ht (.ite ht.dsReads.loseHandle ht.dsReads.store.setHandle)
    exact .next hu.settleFrees

/-- A cell plan takes effect, or ends (R239, R262). -/
def Footprint.plans : Footprint := ⟨[.ecc, .raw, .fh, .ds, .mem], [], .any⟩

theorem nextSpares_execFhPlanActivate : NextSpares .plans s (execFhPlanActivate s) := .of fun h => by
  unfold execFhPlanActivate
  extract_lets before done
  have hdone (due f) (hf : ∀ t, Spares .plans s t → Spares .plans s (f t)) : NextSpares .plans s (done due f) :=
    .onlyIf (hf _ h.reachNs).ds.settleFrees
  have hact (p) : NextSpares .plans s (done p.tAct fun t => t.activatePlan p) := hdone _ _ fun _ ht => ht.activatePlan
  have hend (d) : NextSpares .plans s (done d State.endPlan) := hdone _ _ fun _ ht => ht.endPlan
  refine .unlessHalted ?_
  split
  · exact .ite (hend _) (hact _)
  · exact hact _
  · exact hend _
  · exact .next h

end

/-! #### The frame of each command -/

/-- Settles O57: each function of the radio and of channel coding stays within the footprint that its lemma names, and each
command's footprint holds those of the functions that it calls. -/
theorem frameRadio : Obligations.FrameRadio := by
  unfold Obligations.FrameRadio
  intro c hc
  have hradio : decide (c.chapter = 10 ∨ c.chapter = 11) = true := decide_eq_true hc
  cases c with
  | fhPlanLoad m => exact frame_of (fun s => nextSpares_execFhPlanLoad m) fun _ _ h => h
  | fhPlanUnload m => exact frame_of (fun s => nextSpares_execFhPlanUnload m) fun _ _ h => h
  | fhPlanCancel m => exact frame_of (fun s => nextSpares_execFhPlanCancel m) fun _ _ h => h
  | cellShed => exact frame_of (fun s => nextSpares_execCellShed) fun _ _ h => h
  | fhCplaneRx port sub h' eaxc sec ext =>
    exact frame_of (fun s => nextSpares_execFhCplaneRx port sub h' eaxc sec ext) fun _ _ h => h
  | fhUplaneRx port sub h' eaxc comp width frame slot sym arrival startPrb prbs buf =>
    exact frame_of (fun s => nextSpares_execFhUplaneRx port sub h' eaxc comp width frame slot sym arrival startPrb prbs buf)
      fun _ _ h => h
  | fhRxWindowClose i frame slot sym buf =>
    exact frame_of (fun s => nextSpares_execFhRxWindowClose i frame slot sym buf) fun _ _ h => h
  | agcSymbolUpdate i frame slot sym side =>
    exact frame_of (fun s => nextSpares_execAgcSymbolUpdate i frame slot sym side) fun _ _ h => h
  | agcFreezeEnd c => exact frame_of (fun s => nextSpares_execAgcFreezeEnd c) fun _ _ h => h
  | fhAgcRel m c => exact frame_of (fun s => nextSpares_execFhAgcRel m c) fun _ _ h => h
  | fhAgcCfgWrite m v => exact frame_of (fun s => nextSpares_execFhAgcCfgWrite m v) fun _ _ h => h
  | fhPortCfgWrite m p v => exact frame_of (fun s => nextSpares_execFhPortCfgWrite m p v) fun _ _ h => h
  | prachOccasion c frame slot core reps =>
    exact frame_of (fun s => nextSpares_execPrachOccasion c frame slot core reps) fun _ _ h => h
  | fftJobQueue e src dst size mode =>
    exact frame_of (fun s => nextSpares_execFftJobQueue e src dst size mode) fun _ _ h => h
  | fftJobDone e radices => exact frame_of (fun s => nextSpares_execFftJobDone e radices) fun _ _ h => h
  | slotConfigRx c frame slot dirs a =>
    exact frame_of (fun s => nextSpares_execSlotConfigRx c frame slot dirs a) fun _ _ h => h
  | ulConfigLate c frame slot => exact frame_of (fun s => nextSpares_execUlConfigLate c frame slot) fun _ _ h => h
  | dlConfigLate c frame slot => exact frame_of (fun s => nextSpares_execDlConfigLate c frame slot) fun _ _ h => h
  | nrxCompletionWord src dst word n alloc passes bookings =>
    exact frame_of (fun s => nextSpares_execNrxCompletionWord src dst word n alloc passes bookings) fun _ _ h => h
  | dibberSymIrq c => exact frame_of (fun s => nextSpares_execDibberSymIrq c) fun _ _ h => h
  | dibberSlotIrq c sym => exact frame_of (fun s => nextSpares_execDibberSlotIrq c sym) fun _ _ h => h
  | dibberReti c => exact frame_of (fun s => nextSpares_execDibberReti c) fun _ _ h => h
  | dibberLaneOp c op lanes => exact frame_of (fun s => nextSpares_execDibberLaneOp c op lanes) fun _ _ h => h
  | dbCtrlReset m c v => exact frame_of (fun s => nextSpares_execDbCtrlReset m c v) fun _ _ h => h
  | dbCtrlRun m c v => exact frame_of (fun s => nextSpares_execDbCtrlRun m c v) fun _ _ h => h
  | dsSqDoorbell m c tail => exact frame_of (fun s => nextSpares_execDsSqDoorbell m c tail) fun _ _ h => h
  | dsCqHeadWrite m c head => exact frame_of (fun s => nextSpares_execDsCqHeadWrite m c head) fun _ _ h => h
  | dsJobCopy c => exact frame_of (fun s => nextSpares_execDsJobCopy c) fun _ _ h => h
  | dsLdpcDec c i => exact frame_of (fun s => nextSpares_execDsLdpcDec c i) fun _ _ h => h
  | dsLdpcEnc c i => exact frame_of (fun s => nextSpares_execDsLdpcEnc c i) fun _ _ h => h
  | dsPolarDec c i => exact frame_of (fun s => nextSpares_execDsPolarDec c i) fun _ _ h => h
  | dsPolarEnc c i => exact frame_of (fun s => nextSpares_execDsPolarEnc c i) fun _ _ h => h
  | dsTbEnc c i => exact frame_of (fun s => nextSpares_execDsTbEnc c i) fun _ _ h => h
  | dsTbDec c i => exact frame_of (fun s => nextSpares_execDsTbDec c i) fun _ _ h => h
  | dsNselRead c i => exact frame_of (fun s => nextSpares_execDsNselRead c i) fun _ _ h => h
  | dsJobLate c i => exact frame_of (fun s => nextSpares_execDsJobLate c i) fun _ _ h => h
  | dsCtrlAbort m c v => exact frame_of (fun s => nextSpares_execDsCtrlAbort m c v) fun _ _ h => h
  | dsCtrlEnable m c v => exact frame_of (fun s => nextSpares_execDsCtrlEnable m c v) fun _ _ h => h
  | dsHarqFree m i => exact frame_of (fun s => nextSpares_execDsHarqFree m i) fun _ _ h => h
  | dsHarqPrefetch m i => exact frame_of (fun s => nextSpares_execDsHarqPrefetch m i) fun _ _ h => h
  | harqSpill => exact frame_of (fun s => nextSpares_execHarqSpill) fun _ _ h => h
  | harqSpillDone i => exact frame_of (fun s => nextSpares_execHarqSpillDone i) fun _ _ h => h
  | fhPlanActivate => exact frame_of (fun s => nextSpares_execFhPlanActivate) fun _ _ h => h
  | _ => exact absurd (show false = true from hradio) Bool.false_ne_true

end Sys2Proof

namespace Sys2Proof
open Machine

/-! ### O30: PTP frames -/

section
variable {s : State} {q : Fin 32} {phase : BitVec 6}

/-! #### Frames for the engine, and its Syncs (R274, R275) -/

section
variable (hhalt : s.halted .radio = false) (hup : s.ptpUp q = true) (hengine : s.regBit (tdPort q) 0 = true)
include hhalt hup hengine

theorem exec_ptpRx_pdelay {h : PtpHdr} (hsup : h.supported = true) :
    exec (.ptpRx q { h with msg := .pdelay } phase) s = .next s :=
  (unlessHalted_runs hhalt _).trans (onlyIf_true (by rw [hup, hengine]; exact hsup) ..)

theorem exec_ptpRx_management {h : PtpHdr} (hsup : h.supported = true) :
    exec (.ptpRx q { h with msg := .management } phase) s =
      .next ({ s with td := { s.td with ptpHost := s.td.ptpHost ++ [q.val] } } : State).mgmtEvent :=
  (unlessHalted_runs hhalt _).trans (onlyIf_true (by rw [hup, hengine]; exact hsup) ..)

theorem exec_ptpRx_engine {h : PtpHdr} (hsup : h.supported = true) {msg : PtpMsg} (hpdelay : msg ≠ .pdelay)
    (hmgmt : msg ≠ .management) (seq : BitVec 16) :
    exec (.ptpRx q { h with msg := msg, seq := seq } phase) s =
      .next ((s.ptpDeliver q (64 * s.td.raw + phase.toNat) msg seq.toNat).syncNoted q.val msg) := by
  refine (unlessHalted_runs hhalt _).trans ((onlyIf_true (by rw [hup, hengine]; exact hsup) ..).trans ?_)
  cases msg with
  | pdelay => exact absurd rfl hpdelay
  | management => exact absurd rfl hmgmt
  | _ => rfl

theorem exec_ptpSyncTx (seq : BitVec 16) (corr : Int) :
    (let r := 64 * s.td.raw + phase.toNat
     let c := (((s.cAt r : Int) + s.regB (tdLat q) 31 16 * 2 ^ 12) % 2 ^ 96).toNat
     exec (.ptpSyncTx q phase seq corr) s = .next { s with td := { s.td with ptpOut := s.td.ptpOut ++
       [if s.regBit (tdPort q) 2 then
         { q := q, r := r, c := c, msg := .syncOneStep, seq := seq.toNat, sec := c / 2 ^ 16 / 10 ^ 9 % 2 ^ 48
           ns := c / 2 ^ 16 % 10 ^ 9, corr := corr + (c % 2 ^ 16 : Nat) }
        else { q := q, r := r, c := c, msg := .syncTwoStep, seq := seq.toNat, corr := corr, twoStep := true }] } }) :=
  (unlessHalted_runs hhalt _).trans (onlyIf_true (by simp [hup, hengine]) ..)

end

/-- The frame is in the engine's list, and a Sync of the selected port renews the source (R277). -/
theorem syncNoted_ptpDeliver (s : State) (q : Fin 32) (r seq : Nat) (msg : PtpMsg) :
    (s.ptpDeliver q r msg seq).syncNoted q.val msg = { s with td := { s.td with
      ptpIn := s.td.ptpIn ++ [{ q := q, r := r, c := (s.rxTime q r % 2 ^ 96).toNat, msg := msg, seq := seq }]
      syncSeen := if (msg = .syncOneStep ∨ msg = .syncTwoStep) ∧ s.srcKind = 1 ∧
        s.regB (tdBlock + 0x008) 13 8 = q.val then s.td.raw else s.td.syncSeen } } := by
  unfold State.syncNoted
  by_cases hsource : (msg = .syncOneStep ∨ msg = .syncTwoStep) ∧ s.srcKind = 1 ∧ s.regB (tdBlock + 0x008) 13 8 = q.val
  · rw [if_pos (by exact hsource), if_pos hsource]
    rfl
  · rw [if_neg (by exact hsource), if_neg hsource]
    rfl

/-! #### Transparent forwarding (R276) -/

/-- The frame leaves on port fwd with a correction. -/
def ptpSent (s : State) (q : Fin 32) (fwd : Nat) (corr : Int) : State :=
  { s with td := { s.td with ptpFwd := s.td.ptpFwd ++ [{ src := q, dst := fwd, corr := corr }] } }

/-- The engine of the port, where it runs, receives what was forwarded. -/
def ptpHeard (s t : State) (q : Fin 32) (msg : PtpMsg) (rIn : BitVec 70) (seq : BitVec 16) : State :=
  if s.regBit (tdPort q) 0 then t.ptpDeliver q rIn.toNat msg seq.toNat else t

/-- An entry joins the table, where its port's part has room. -/
def tcAdded (s : State) (p : Nat) (e : TcEntry) : State :=
  if (s.tcOf p).length < 64 then { s with td := { s.td with tc := s.td.tc ++ [e] } } else s

theorem tcAdded_keeps (s : State) (p : Nat) (e : TcEntry) (q r : Nat) :
    (tcAdded s p e).regs = s.regs ∧ (tcAdded s p e).td.ptpFwd = s.td.ptpFwd ∧ (tcAdded s p e).td.ptpIn = s.td.ptpIn ∧
      (tcAdded s p e).rxTime q r = s.rxTime q r := by
  unfold tcAdded
  split <;> exact ⟨rfl, rfl, rfl, rfl⟩

theorem tc_tcAdded (s : State) (p : Nat) (e : TcEntry) :
    (tcAdded s p e).td.tc = if (s.tcOf p).length < 64 then s.td.tc ++ [e] else s.td.tc := by
  unfold tcAdded
  split <;> rfl

theorem tc_ptpHeard (s t : State) (q : Fin 32) (msg rIn seq) : (ptpHeard s t q msg rIn seq).td.tc = t.td.tc := by
  unfold ptpHeard
  split <;> rfl

theorem regs_ptpHeard (s t : State) (q : Fin 32) (msg rIn seq) : (ptpHeard s t q msg rIn seq).regs = t.regs := by
  unfold ptpHeard
  split <;> rfl

/-- A frame that t has forwarded, where it takes its time as s does, is heard with the receive timestamp that it has in s. -/
theorem td_ptpHeard {t : State} {fwd : Nat} {x : Int} {rIn : BitVec 70}
    (hfwd : t.td.ptpFwd = s.td.ptpFwd ++ [{ src := q, dst := fwd, corr := x }]) (hin : t.td.ptpIn = s.td.ptpIn)
    (htime : t.rxTime q rIn.toNat = s.rxTime q rIn.toNat) (msg : PtpMsg) (seq : BitVec 16) :
    (ptpHeard s t q msg rIn seq).td.ptpFwd = s.td.ptpFwd ++ [{ src := q, dst := fwd, corr := x }] ∧
      (ptpHeard s t q msg rIn seq).td.ptpIn = if s.regBit (tdPort q) 0 then s.td.ptpIn ++
        [{ q := q, r := rIn.toNat, c := (s.rxTime q rIn.toNat % 2 ^ 96).toNat, msg := msg, seq := seq.toNat }]
        else s.td.ptpIn := by
  unfold ptpHeard
  split
  · refine ⟨hfwd, ?_⟩
    show t.td.ptpIn ++ [{ q := q, r := rIn.toNat, c := c96 (t.rxTime q rIn.toNat), msg := msg, seq := seq.toNat }] = _
    rw [hin, htime]
    rfl
  · exact ⟨hfwd, hin⟩

section
variable {rIn : BitVec 70} (hhalt : s.halted .radio = false) (hup : s.ptpUp q = true)
  (hfwd : s.regB (tdPort q) 13 8 < 32) (hupFwd : s.ptpUp (s.regB (tdPort q) 13 8) = true)
  (htc : s.regBit (tdPort q) 1 = true) (hto : s.regBit (tdPort q) 14 = true)
  (hin : rIn.toNat ≤ 64 * s.td.raw + phase.toNat)
include hhalt hup hfwd hupFwd htc hto hin

theorem ptpTcForward_occasion (t : State) :
    unlessHalted s .radio (onlyIf (s.ptpUp q && decide (s.regB (tdPort q) 13 8 < 32) && s.ptpUp (s.regB (tdPort q) 13 8) &&
      s.regBit (tdPort q) 1 && s.regBit (tdPort q) 14 && decide (rIn.toNat ≤ 64 * s.td.raw + phase.toNat)) s t) = .next t :=
  (unlessHalted_runs hhalt _).trans (onlyIf_true (by simp [hup, hfwd, hupFwd, htc, hto, hin]) ..)

variable (key : BitVec 104) (seq : BitVec 16) (corr : Int)

/-- A Delay_Req or a one-step Sync carries its residence time on. -/
theorem exec_ptpTcForward_corrected {msg : PtpMsg} (hmsg : msg = .delayReq ∨ msg = .syncOneStep) :
    exec (.ptpTcForward q msg rIn phase key seq corr) s = .next (ptpHeard s (ptpSent s q (s.regB (tdPort q) 13 8)
      (corr + (s.residence (64 * s.td.raw + phase.toNat - rIn.toNat) + s.tcLat q (s.regB (tdPort q) 13 8)))) q msg rIn seq) := by
  rcases hmsg with rfl | rfl
  · exact ptpTcForward_occasion hhalt hup hfwd hupFwd htc hto hin _
  · exact ptpTcForward_occasion hhalt hup hfwd hupFwd htc hto hin _

theorem exec_ptpTcForward_unchanged {msg : PtpMsg}
    (hmsg : msg ∈ [PtpMsg.delayResp, .announce, .signaling, .management, .pdelay]) :
    exec (.ptpTcForward q msg rIn phase key seq corr) s =
      .next (ptpHeard s (ptpSent s q (s.regB (tdPort q) 13 8) corr) q msg rIn seq) := by
  simp only [List.mem_cons, List.not_mem_nil, or_false] at hmsg
  rcases hmsg with rfl | rfl | rfl | rfl | rfl <;>
    exact ptpTcForward_occasion hhalt hup hfwd hupFwd htc hto hin _

/-- A two-step Sync leaves its residence time in the table, where its port's part has room. -/
theorem exec_ptpTcForward_syncTwoStep :
    exec (.ptpTcForward q .syncTwoStep rIn phase key seq corr) s = .next (ptpHeard s (ptpSent (tcAdded s (q / 4) {
        q := q, key := key.toNat
        residence := s.residence (64 * s.td.raw + phase.toNat - rIn.toNat) + s.tcLat q (s.regB (tdPort q) 13 8)
        since := s.td.raw }) q (s.regB (tdPort q) 13 8) corr) q .syncTwoStep rIn seq) :=
  ptpTcForward_occasion hhalt hup hfwd hupFwd htc hto hin _

theorem exec_ptpTcForward_followUp {e : TcEntry}
    (he : s.td.tc.find? (fun e => e.q == q.val && e.key == key.toNat) = some e) :
    exec (.ptpTcForward q .followUp rIn phase key seq corr) s = .next (ptpHeard s (ptpSent
      { s with td := { s.td with tc := lrmFirst (fun e => e.q == q.val && e.key == key.toNat) s.td.tc } }
      q (s.regB (tdPort q) 13 8) (corr + e.residence)) q .followUp rIn seq) := by
  refine (ptpTcForward_occasion hhalt hup hfwd hupFwd htc hto hin _).trans ?_
  simp only [he]
  rfl

theorem exec_ptpTcForward_missed (he : s.td.tc.find? (fun e => e.q == q.val && e.key == key.toNat) = none) :
    exec (.ptpTcForward q .followUp rIn phase key seq corr) s = .next (ptpHeard s
      ((ptpSent s q (s.regB (tdPort q) 13 8) corr).count (tdBlock + 0x068) 1) q .followUp rIn seq) := by
  refine (ptpTcForward_occasion hhalt hup hfwd hupFwd htc hto hin _).trans ?_
  simp only [he]
  rfl

end

/-- The count of messages without an entry is no part of a port's latencies (R272, R276). -/
theorem rxTime_missed (s : State) (q : Fin 32) (fwd : Nat) (corr : Int) (r : Nat) :
    ((ptpSent s q fwd corr).count (tdBlock + 0x068) 1).rxTime q r = s.rxTime q r := by
  unfold State.rxTime State.count
  rw [State.regN_setReg_other _ _ (by omega)]
  rfl

theorem regN_count (h : tsorted 0 s.regs = true) (o n : Nat) : (s.count o n).regN o = (satAdd (s.reg o) n).toNat := by
  unfold State.count
  rw [s.regN_setReg_same h, Nat.mod_eq_of_lt (satAdd (s.reg o) n).isLt]

/-- An entry that has stood for 1 s is discarded and counted. -/
theorem exec_tcEntryExpire {p : Fin 8} {i : Fin 64} {e : TcEntry} (he : (s.tcOf p)[i.val]? = some e)
    (hdue : e.since + rawUs 1000000 ≤ (s.reachRaw (e.since + rawUs 1000000)).td.raw) :
    exec (.tcEntryExpire p i) s =
      .next (({ s.reachRaw (e.since + rawUs 1000000) with td := { (s.reachRaw (e.since + rawUs 1000000)).td with
        tc := lrmFirst (· == e) (s.reachRaw (e.since + rawUs 1000000)).td.tc } } : State).count (tdBlock + 0x068) 1) := by
  show execTcEntryExpire p i s = _
  unfold execTcEntryExpire
  simp only [he]
  exact onlyIf_true (decide_eq_true hdue) ..

theorem runs_tcEntryExpire {p : Fin 8} {i : Fin 64} {e : TcEntry} (he : (s.tcOf p)[i.val]? = some e)
    (hregs : tsorted 0 s.regs = true) (hdue : e.since + rawUs 1000000 ≤ (s.reachRaw (e.since + rawUs 1000000)).td.raw) :
    Runs (.tcEntryExpire p i) s (fun t => t.td.tc = lrmFirst (· == e) s.td.tc ∧
      t.regN (tdBlock + 0x068) = (satAdd (s.reg (tdBlock + 0x068)) 1).toNat) := by
  refine ⟨_, exec_tcEntryExpire he hdue, ?_⟩
  obtain ⟨r, -, -, hreach⟩ := s.reachRaw_spec (e.since + rawUs 1000000)
  rw [hreach]
  exact ⟨rfl, regN_count hregs ..⟩

end

/-- Settles O30, from what each command answers for each kind of message. -/
theorem ptpCommands : Obligations.PtpCommands := by
  unfold Obligations.PtpCommands
  refine ⟨fun s q phase seq corr hhalt hup hengine => ⟨fun h hsup => ⟨?_, ?_, fun msg hpdelay hmgmt => ?_⟩, ?_⟩,
    fun s q phase rIn key seq corr => ?_, fun s p i e he hregs hdue => runs_tcEntryExpire he hregs hdue⟩
  · exact exec_ptpRx_pdelay hhalt hup hengine hsup
  · exact exec_ptpRx_management hhalt hup hengine hsup
  · exact (exec_ptpRx_engine hhalt hup hengine hsup hpdelay hmgmt seq).trans (congrArg _ (syncNoted_ptpDeliver ..))
  · exact exec_ptpSyncTx hhalt hup hengine seq corr
  · intro fwd r extra hhalt hup hfwd hupFwd htc hto hin hregs held mine sent missed
    refine ⟨fun msg hmsg => ⟨_, exec_ptpTcForward_corrected hhalt hup hfwd hupFwd htc hto hin key seq corr hmsg, ?_⟩,
      fun msg hmsg => ⟨_, exec_ptpTcForward_unchanged hhalt hup hfwd hupFwd htc hto hin key seq corr hmsg, ?_⟩,
      ⟨_, exec_ptpTcForward_syncTwoStep hhalt hup hfwd hupFwd htc hto hin key seq corr, ?_⟩,
      fun e he => ⟨_, exec_ptpTcForward_followUp hhalt hup hfwd hupFwd htc hto hin key seq corr he, ?_⟩,
      fun he => ⟨_, exec_ptpTcForward_missed hhalt hup hfwd hupFwd htc hto hin key seq corr he, ?_⟩⟩
    · exact ⟨td_ptpHeard (by rfl) (by rfl) (by rfl) .., tc_ptpHeard .., regs_ptpHeard ..⟩
    · exact ⟨td_ptpHeard (by rfl) (by rfl) (by rfl) .., tc_ptpHeard .., regs_ptpHeard ..⟩
    · obtain ⟨hregs', hfwd', hin', htime⟩ := tcAdded_keeps s (q / 4)
        { q := q, key := key.toNat, residence := extra, since := s.td.raw } q rIn.toNat
      exact ⟨td_ptpHeard (by exact congrArg (· ++ _) hfwd') (by exact hin') (by exact htime) .., (regs_ptpHeard ..).trans hregs',
        (tc_ptpHeard ..).trans (tc_tcAdded ..)⟩
    · exact ⟨td_ptpHeard (by rfl) (by rfl) (by rfl) .., tc_ptpHeard .., regs_ptpHeard ..⟩
    · refine ⟨td_ptpHeard (by rfl) (by rfl) (by exact rxTime_missed ..) .., tc_ptpHeard .., ?_⟩
      exact (congrArg (fun regs => (tget (regReset (tdBlock + 0x068)) regs (tdBlock + 0x068)).toNat) (regs_ptpHeard ..)).trans
        (regN_count (s := ptpSent s q fwd corr) hregs ..)

end Sys2Proof

namespace Sys2Proof
open Machine

/-! ### Device memory as two states see it

A change that is no part of reads and stores leaves what is read and what a store writes. -/

/-- What a read or a store of device memory looks at is the same in both states. -/
structure SameMemory (s t : State) : Prop where
  mem : t.mem = s.mem
  isl : t.pw.isl = s.pw.isl
  down : t.bk.hbmDown = s.bk.hbmDown
  err : t.bk.err = s.bk.err
  reg : ∀ o, dlPage o → t.reg o = s.reg o

section
variable {s t u : State}

theorem SameMemory.of_eq (hmem : t.mem = s.mem := by rfl) (hpw : t.pw = s.pw := by rfl) (hbk : t.bk = s.bk := by rfl)
    (hregs : t.regs = s.regs := by rfl) : SameMemory s t := by
  refine ⟨hmem, congrArg _ hpw, congrArg _ hbk, congrArg _ hbk, fun o _ => ?_⟩
  unfold State.reg
  rw [hregs]

theorem SameMemory.trans (h₁ : SameMemory s t) (h₂ : SameMemory t u) : SameMemory s u :=
  ⟨h₂.mem.trans h₁.mem, h₂.isl.trans h₁.isl, h₂.down.trans h₁.down, h₂.err.trans h₁.err,
    fun o ho => (h₂.reg o ho).trans (h₁.reg o ho)⟩

/-- A register outside the pages of the Drip sequencers is written. -/
theorem SameMemory.setReg (s : State) {o : Nat} (ho : ¬ dlPage o) (v : Nat) : SameMemory s (s.setReg o v) :=
  ⟨rfl, rfl, rfl, rfl, fun _ hx => s.reg_setReg_other v (by rintro rfl; exact ho hx)⟩

theorem err_eccReport (s : State) (m k : Nat) (bad : Bool) : (s.eccReport m k bad).bk.err = s.bk.err := by
  unfold State.eccReport
  split
  · rfl
  · extract_lets b _ _ t₁ t₂ _ t₃
    have ht₂ : t₂.bk.err = s.bk.err := by
      unfold t₂
      split <;> rfl
    split
    · refine (congrArg (·.err) (bk_hiErr ..)).trans ?_
      exact ht₂
    · exact ht₂

theorem err_noteReads (s : State) (m a n : Nat) : (s.noteReads m a n).bk.err = s.bk.err := by
  refine foldl_keeps (P := fun t => t.bk.err = s.bk.err) (fun t k ht => ?_) _ rfl
  have hreport : (t.eccReport m k (t.wordBad k)).bk.err = s.bk.err := (err_eccReport ..).trans ht
  dsimp only
  split <;> exact hreport

/-- A read reports the errors it meets, and corrects none (R110, R111). -/
theorem SameMemory.noteReads (s : State) (m a n : Nat) : SameMemory s (s.noteReads m a n) := by
  have hspares : Spares .reports s (s.noteReads m a n) := (Spares.refl .reports s).noteReads
  obtain ⟨-, hdown⟩ := hspares.parts .rules (by decide)
  exact ⟨hspares.parts .mem (by decide), hspares.parts .islands (by decide), hdown, err_noteReads ..,
    ((Within.refl (fun _ => False) s).noteReads m a n).reg⟩

theorem SameMemory.key (h : SameMemory s t) (a : Nat) : t.key a = s.key a := key_of_dlPage h.reg a

theorem SameMemory.addrStatus (h : SameMemory s t) (a : Nat) : t.addrStatus a = s.addrStatus a := by
  unfold State.addrStatus State.placeStatus State.islOn State.isl
  rw [h.isl, h.down, h.key]

theorem SameMemory.byteAt (h : SameMemory s t) (a : Nat) : t.byteAt a = s.byteAt a := by
  unfold State.byteAt
  rw [h.addrStatus, h.key, h.mem]

theorem SameMemory.load (h : SameMemory s t) (a n : Nat) : t.load a n = s.load a n := by
  induction n generalizing a with
  | zero => rfl
  | succ n ih => exact congrArg₂ _ (h.byteAt a) (ih (a + 1))

theorem SameMemory.loadNat (h : SameMemory s t) (a n : Nat) : t.loadNat a n = s.loadNat a n := congrArg leNat (h.load a n)

theorem SameMemory.wordBad (h : SameMemory s t) (k : Nat) : t.wordBad k = s.wordBad k := by
  unfold State.wordBad State.wordErr
  rw [h.err]

theorem SameMemory.writes (h : SameMemory s t) (a n b : Nat) : t.writes a n b = s.writes a n b := by
  unfold State.writes
  rw [h.addrStatus, h.key, h.wordBad]

theorem SameMemory.putBytes (h : SameMemory s t) (a n b : Nat) (bs : List Byte) (m : Memory) :
    t.putBytes a n b bs m = s.putBytes a n b bs m := by
  induction bs generalizing b m with
  | nil => rfl
  | cons x xs ih =>
    unfold State.putBytes
    rw [h.writes, h.key, ih]

/-- The same bytes stored at the same place leave the same memory. -/
theorem SameMemory.store (h : SameMemory s t) (a : Nat) (bs : List Byte) : SameMemory (s.store a bs) (t.store a bs) := by
  refine ⟨?_, h.isl, h.down, ?_, h.reg⟩
  · unfold State.store
    rw [h.putBytes, h.mem]
  · unfold State.store
    simp only [h.key, h.writes, h.err]

theorem SameMemory.storeNat (h : SameMemory s t) (a n x : Nat) : SameMemory (s.storeNat a n x) (t.storeNat a n x) := h.store ..

end
end Sys2Proof

namespace Sys2Proof
open Machine

/-! ### O27: neural selection and the HARQ soft buffers -/

section
variable {s t : State}

/-! #### The table of handles (R258) -/

theorem SameMemory.handle (h : SameMemory s t) (hcfg : t.cfg = s.cfg) (i : Nat) : t.handle i = s.handle i := by
  unfold State.handle State.harqBase
  simp only [h.loadNat, hcfg]

theorem SameMemory.setHandle (h : SameMemory s t) (hcfg : t.cfg = s.cfg) (i : Nat) (x : Handle) :
    SameMemory (s.setHandle i x) (t.setHandle i x) := by
  unfold State.setHandle State.harqBase
  rw [hcfg]
  exact h.storeNat ..

theorem SameMemory.loseHandle (h : SameMemory s t) (hcfg : t.cfg = s.cfg) (i : Nat) :
    SameMemory (s.loseHandle i) (t.loseHandle i) := by
  unfold State.loseHandle
  rw [h.handle hcfg]
  exact h.setHandle hcfg ..

/-- What a cluster reads leaves the coding state, the configuration and what memory shows (R242). -/
theorem dsReads_keeps (s : State) (a n : Nat) :
    SameMemory s (s.dsReads a n) ∧ (s.dsReads a n).ds = s.ds ∧ (s.dsReads a n).cfg = s.cfg := by
  have hspares : Spares .reports s (s.dsReads a n) := (Spares.refl .reports s).dsReads
  exact ⟨.noteReads .., hspares.parts .ds (by decide), hspares.parts .cfg (by decide)⟩

/-! #### Handles that wait (R260, R262) -/

/-- With no record that waits for room none is tried. -/
theorem harqRetry_of_none (hwants : s.ds.wants = []) : s.harqRetry = s := by
  have hds : ({ s.ds with wants := [] } : Coding) = s.ds := by
    cases h : s.ds
    simp_all
  unfold State.harqRetry
  rw [hwants, hds]
  rfl

/-- Of the handles that wait to become EMPTY those that no table job names do so. -/
theorem settleFrees_eq (hwants : s.ds.wants = []) {go stay : List Nat}
    (hgo : s.ds.freeing.filter (fun h => !s.handleNamed h) = go)
    (hstay : s.ds.freeing.filter (fun h => s.handleNamed h) = stay) :
    s.settleFrees = go.foldl State.emptyHandle { s with ds := { s.ds with freeing := stay } } := by
  unfold State.settleFrees
  rw [hgo, hstay]
  refine harqRetry_of_none ?_
  exact foldl_keeps (P := fun t => t.ds.wants = []) (f := State.emptyHandle) (fun _ _ ht => ht) _ hwants

/-- With no handle that waits nothing is settled. -/
theorem settleFrees_of_none (hfree : s.ds.freeing = []) (hwants : s.ds.wants = []) : s.settleFrees = s := by
  have hds : ({ s.ds with freeing := [] } : Coding) = s.ds := by
    cases h : s.ds
    simp_all
  rw [settleFrees_eq hwants (go := []) (stay := []) (by rw [hfree]; rfl) (by rw [hfree]; rfl), hds]
  rfl

section
variable (hfree : s.ds.freeing = []) (hwants : s.ds.wants = []) {i : Nat}
include hfree hwants

/-- A handle that a table job names waits to become EMPTY. -/
theorem settleFrees_named (hname : s.handleNamed i = true) :
    ({ s with ds := { s.ds with freeing := s.ds.freeing ++ [i] } } : State).settleFrees =
      { s with ds := { s.ds with freeing := [i] } } := by
  rw [hfree]
  exact settleFrees_eq (s := { s with ds := { s.ds with freeing := [i] } }) (go := []) (stay := [i]) hwants
    (List.filter_cons_of_neg (p := fun h => !s.handleNamed h) (by simp [hname]))
    (List.filter_cons_of_pos (p := fun h => s.handleNamed h) hname)

/-- Another becomes EMPTY at once. -/
theorem settleFrees_unnamed (hname : s.handleNamed i = false) :
    ({ s with ds := { s.ds with freeing := s.ds.freeing ++ [i] } } : State).settleFrees = s.emptyHandle i := by
  have hds : ({ s.ds with freeing := [] } : Coding) = s.ds := by
    cases h : s.ds
    simp_all
  rw [hfree]
  refine (settleFrees_eq (s := { s with ds := { s.ds with freeing := [i] } }) (go := [i]) (stay := []) hwants
    (List.filter_cons_of_pos (p := fun h => !s.handleNamed h) (by simp [hname]))
    (List.filter_cons_of_neg (p := fun h => s.handleNamed h) (by simp [hname]))).trans ?_
  show State.emptyHandle { s with ds := { s.ds with freeing := [] } } i = _
  rw [hds]

end

/-! #### Neural selection (R232, R247) -/

/-- The completion word is the slot's, and complete. -/
def nselFresh (w : Nat) (slot : Nat × Nat) : Bool := w % 1024 == slot.1 && bitsOf w 15 10 == slot.2 && bitOf w 16

/-- The word of the job j, of fields x, has been read and its set selected, which the count o shows. -/
def nselTaken (t : State) (c : Fin 4) (i : Nat) (j : DsJob) (x : DsFields) (b : Bool) (o : Nat) : State :=
  ((t.dsReads (sramBase .rd + x.w56) 8).setDs c { t.dsOf c with
    jobs := (t.dsOf c).jobs.set i { j with sel := some b } }).count o 1

/-- The job is the next one whose selection is made, and its START has come. -/
structure NselDue (s : State) (c : Fin 4) (i : Fin 256) (j : DsJob) (y : Cell) : Prop where
  run : s.halted .radio = false
  on : s.dsOn c = true
  enabled : s.regBit (dsReg c 0) 0 = true
  job : (s.dsOf c).jobs[i.val]? = some j
  opc : (DsFields.parse j.job).opc = 1
  nsel : (DsFields.parse j.job).nsel = true
  unset : j.sel = none
  cell : s.runCells.find? (fun q => q.cell == (DsFields.parse j.job).cell) = some y
  first : ∀ z ∈ (s.dsOf c).jobs.take i, (DsFields.parse z.job).opc = 1 → (DsFields.parse z.job).nsel = true →
    (DsFields.parse z.job).start = (DsFields.parse j.job).start → z.sel ≠ none
  past : (s.reachNs (DsFields.parse j.job).start).pastNs (DsFields.parse j.job).start = true

section
variable {c : Fin 4} {i : Fin 256} {j : DsJob} {y : Cell}

/-- The selection as the completion word w makes it. -/
theorem exec_dsNselRead (h : NselDue s c i j y) :
    (let x := DsFields.parse j.job
     let t := s.reachNs x.start
     let w := t.loadNat (sramBase .rd + x.w56) 8
     let slot := t.nselSlot y x.start
     let neural := nselFresh w slot && !bitOf w 17
     let k := fhBlock + 0x1000 + 16 * x.cell
     let u := nselTaken t c i j x neural (if neural then k else if nselFresh w slot then k + 12 else k + 4)
     exec (.dsNselRead c i) s = .next (if !neural && t.setShort x slot then u.notDecoded x.cell slot else u)) := by
  obtain ⟨hrun, hon, henabled, hjob, hopc, hnsel, hunset, hcell, hfirst, hpast⟩ := h
  have hfirst' : ((s.dsOf c).jobs.take i.val).all (fun y =>
      let z := DsFields.parse y.job
      !(z.opc == 1 && z.nsel && z.start == (DsFields.parse j.job).start && y.sel.isNone)) = true := by
    refine List.all_eq_true.mpr fun z hz => ?_
    by_cases hsel : z.sel = none
    · have := hfirst z hz
      grind
    · have hsome : z.sel.isSome = true := Option.isSome_iff_ne_none.mpr hsel
      simp [hsome]
  show execDsNselRead c i s = _
  unfold execDsNselRead
  simp only [hjob, hcell]
  rw [unlessHalted_runs hrun]
  exact onlyIf_true (by simp only [hopc, hnsel, hunset, hfirst', hon, henabled, hpast]; rfl) ..

/-- A fallback is not decoded where the classical set is short (R233). -/
def nselBack (t : State) (y : Cell) (x : DsFields) (u : State) : State :=
  if t.setShort x (t.nselSlot y x.start) then u.notDecoded x.cell (t.nselSlot y x.start) else u

section
variable {t : State} {x : DsFields} (h : NselDue s c i j y) (hx : DsFields.parse j.job = x) (ht : s.reachNs x.start = t)
include h hx ht

theorem exec_dsNselRead_neural (hfresh : nselFresh (t.loadNat (sramBase .rd + x.w56) 8) (t.nselSlot y x.start) = true)
    (hgood : bitOf (t.loadNat (sramBase .rd + x.w56) 8) 17 = false) :
    exec (.dsNselRead c i) s = .next (nselTaken t c i j x true (fhBlock + 0x1000 + 16 * x.cell + 0)) := by
  subst hx ht
  refine (exec_dsNselRead h).trans ?_
  simp only [hfresh, hgood, Bool.not_false, Bool.and_true, Bool.not_true, Bool.false_and, Bool.false_eq_true, ↓reduceIte,
    Nat.add_zero]

theorem exec_dsNselRead_error (hfresh : nselFresh (t.loadNat (sramBase .rd + x.w56) 8) (t.nselSlot y x.start) = true)
    (hbad : bitOf (t.loadNat (sramBase .rd + x.w56) 8) 17 = true) :
    exec (.dsNselRead c i) s = .next (nselBack t y x (nselTaken t c i j x false (fhBlock + 0x1000 + 16 * x.cell + 12))) := by
  subst hx ht
  refine (exec_dsNselRead h).trans ?_
  simp only [hfresh, hbad, Bool.not_true, Bool.and_false, Bool.not_false, Bool.true_and, Bool.false_eq_true, ↓reduceIte]
  rfl

theorem exec_dsNselRead_late (hlate : nselFresh (t.loadNat (sramBase .rd + x.w56) 8) (t.nselSlot y x.start) = false) :
    exec (.dsNselRead c i) s = .next (nselBack t y x (nselTaken t c i j x false (fhBlock + 0x1000 + 16 * x.cell + 4))) := by
  subst hx ht
  refine (exec_dsNselRead h).trans ?_
  simp only [hlate, Bool.false_and, Bool.not_false, Bool.true_and, Bool.false_eq_true, ↓reduceIte]
  rfl

end
end

/-! #### FREE and PREFETCH (R260, R262, R263) -/

section
variable {k : Fin 16} (hk : k.val < 4) (hhalt : s.halted .radio = false) (hrd : s.dieOn .rd = true) (h : BitVec 14)
include hk hhalt hrd

theorem exec_dsHarqFree : exec (.dsHarqFree (.core .rd k) h) s =
    .next ({ s with ds := { s.ds with freeing := s.ds.freeing ++ [h.toNat] } } : State).settleFrees :=
  agentIf_rdCore hk hhalt hrd _

theorem exec_dsHarqPrefetch : exec (.dsHarqPrefetch (.core .rd k) h) s = .next (s.harqFetch h.toNat) :=
  agentIf_rdCore hk hhalt hrd _

end

/-- A record in HBM is MOVING, where the RD pool has room. -/
theorem harqFetch_room {i a : Nat} (hst : (s.handle i).st = 2) (hroom : s.harqRoom false (s.handle i).len = some a) :
    s.harqFetch i = { s.setHandle i { s.handle i with st := 3 } with ds := { s.ds with
      moves := s.ds.moves ++ [{ handle := i, toHbm := false, dst := a }] } } := by
  unfold State.harqFetch
  simp only [hst, hroom, ↓reduceIte]
  rfl

/-- Otherwise it waits for room. -/
theorem harqFetch_noRoom {i : Nat} (hst : (s.handle i).st = 2) (hroom : s.harqRoom false (s.handle i).len = none)
    (hwants : i ∉ s.ds.wants) : s.harqFetch i = { s with ds := { s.ds with wants := s.ds.wants ++ [i] } } := by
  unfold State.harqFetch
  simp [hst, hroom, hwants]

/-! #### Spills (R260, R261) -/

theorem runs_harqSpill (hhalt : s.halted .radio = false) {v a : Nat} (hv : s.spillVictim = some v)
    (hroom : s.harqRoom true (s.handle v).len = some a) (hneed : s.harqNeed = true)
    (hnone : ∀ y ∈ s.ds.moves, y.toHbm = false) :
    Runs .harqSpill s (fun t => t.mem = (s.setHandle v { s.handle v with st := 3 }).mem ∧
      t.ds.moves = s.ds.moves ++ [{ handle := v, toHbm := true, dst := a }]) := by
  have hocc : (s.harqNeed && s.ds.moves.all (fun y => !y.toHbm)) = true := by
    simpa [hneed] using hnone
  refine ⟨{ s.setHandle v { s.handle v with st := 3 } with ds := { (s.setHandle v { s.handle v with st := 3 }).ds with
    moves := s.ds.moves ++ [{ handle := v, toHbm := true, dst := a }] } }, ?_, rfl, rfl⟩
  show execHarqSpill s = _
  unfold execHarqSpill
  simp only [hv, hroom]
  exact (unlessHalted_runs hhalt _).trans (onlyIf_true hocc ..)

/-- The move of a handle is no longer on its way. -/
def moveEnded (s : State) (i : Nat) : State :=
  { s with ds := { s.ds with moves := s.ds.moves.filter (fun y => y.handle != i) } }

/-- The end of a move reads the record, which changes nothing that a store shows. -/
theorem moveRead_keeps (s : State) (mv : HarqMove) (x : Handle) :
    SameMemory s ((moveEnded s mv.handle).dsReads x.addr x.len) ∧
      ((moveEnded s mv.handle).dsReads x.addr x.len).ds = (moveEnded s mv.handle).ds ∧
      ((moveEnded s mv.handle).dsReads x.addr x.len).cfg = s.cfg := by
  obtain ⟨hmem, hds, hcfg⟩ := dsReads_keeps (moveEnded s mv.handle) x.addr x.len
  exact ⟨(SameMemory.of_eq (t := moveEnded s mv.handle)).trans hmem, hds, hcfg⟩

/-- The copy of the record, whose entry was x, is in its new place, and so says its handle. -/
def recordPlaced (s : State) (mv : HarqMove) (x : Handle) : State :=
  (((moveEnded s mv.handle).dsReads x.addr x.len).store mv.dst (s.load x.addr x.len)).setHandle mv.handle
    { x with st := if mv.toHbm then 2 else 1, addr := mv.dst }

/-- The record is lost. -/
def recordLost (s : State) (mv : HarqMove) (x : Handle) : State :=
  ((moveEnded s mv.handle).dsReads x.addr x.len).loseHandle mv.handle

/-- The record can be read, and its new place reached (R261). -/
def copyGood (s : State) (mv : HarqMove) (x : Handle) : Prop :=
  s.rangeBad x.addr x.len = false ∧ s.rangeOk x.addr x.len = true ∧ s.rangeOk mv.dst x.len = true

theorem mem_recordPlaced (s : State) (mv : HarqMove) (x : Handle) :
    (recordPlaced s mv x).mem = ((s.store mv.dst (s.load x.addr x.len)).setHandle mv.handle
      { x with st := if mv.toHbm then 2 else 1, addr := mv.dst }).mem := by
  obtain ⟨hmem, -, hcfg⟩ := moveRead_keeps s mv x
  exact ((hmem.store ..).setHandle hcfg ..).mem

theorem ds_recordPlaced (s : State) (mv : HarqMove) (x : Handle) : (recordPlaced s mv x).ds = (moveEnded s mv.handle).ds :=
  (moveRead_keeps s mv x).2.1

theorem mem_recordLost (s : State) (mv : HarqMove) (x : Handle) : (recordLost s mv x).mem = (s.loseHandle mv.handle).mem := by
  obtain ⟨hmem, -, hcfg⟩ := moveRead_keeps s mv x
  exact (hmem.loseHandle hcfg ..).mem

theorem ds_loseHandle (s : State) (i : Nat) : (s.loseHandle i).ds = s.ds := by
  unfold State.loseHandle State.setHandle
  rfl

theorem ds_recordLost (s : State) (mv : HarqMove) (x : Handle) : (recordLost s mv x).ds = (moveEnded s mv.handle).ds :=
  (ds_loseHandle ..).trans (moveRead_keeps s mv x).2.1

/-- The end of a move settles nothing more, where no handle waits. -/
theorem settleFrees_moveEnded {u : State} {i : Nat} (hu : u.ds = (moveEnded s i).ds) (hfree : s.ds.freeing = [])
    (hwants : s.ds.wants = []) : u.settleFrees = u :=
  settleFrees_of_none ((congrArg Coding.freeing hu).trans hfree) ((congrArg Coding.wants hu).trans hwants)

section
variable (hhalt : s.halted .radio = false) {h : BitVec 14} {mv : HarqMove} {x : Handle}
  (hmv : s.ds.moves.find? (fun m => m.handle == h.toNat) = some mv) (hx : s.handle mv.handle = x)
include hhalt hmv hx

theorem exec_harqSpillDone : exec (.harqSpillDone h) s = .next (if x.st ≠ 3 then moveEnded s mv.handle
    else if s.rangeBad x.addr x.len || !s.rangeOk x.addr x.len || !s.rangeOk mv.dst x.len then recordLost s mv x
    else recordPlaced s mv x).settleFrees := by
  show execHarqSpillDone h s = _
  unfold execHarqSpillDone
  simp only [hmv, hx]
  exact unlessHalted_runs hhalt _

variable (hfree : s.ds.freeing = []) (hwants : s.ds.wants = [])
include hfree hwants

theorem exec_harqSpillDone_placed (hst : x.st = 3) (hok : copyGood s mv x) :
    exec (.harqSpillDone h) s = .next (recordPlaced s mv x) := by
  obtain ⟨hbad, hsrc, hdst⟩ := hok
  rw [exec_harqSpillDone hhalt hmv hx, if_neg (by simp [hst]), if_neg (by simp [hbad, hsrc, hdst]),
    settleFrees_moveEnded (ds_recordPlaced s mv x) hfree hwants]

theorem exec_harqSpillDone_lost (hst : x.st = 3) (hok : ¬ copyGood s mv x) :
    exec (.harqSpillDone h) s = .next (recordLost s mv x) := by
  have hlost : (s.rangeBad x.addr x.len || !s.rangeOk x.addr x.len || !s.rangeOk mv.dst x.len) = true := by
    by_contra hgood
    exact hok (by simpa [copyGood, and_assoc] using hgood)
  rw [exec_harqSpillDone hhalt hmv hx, if_neg (by simp [hst]), if_pos hlost,
    settleFrees_moveEnded (ds_recordLost s mv x) hfree hwants]

theorem exec_harqSpillDone_gone (hst : x.st ≠ 3) : exec (.harqSpillDone h) s = .next (moveEnded s mv.handle) := by
  rw [exec_harqSpillDone hhalt hmv hx, if_pos hst, settleFrees_moveEnded (u := moveEnded s mv.handle) rfl hfree hwants]

end

end

/-- Settles O27: the selection goes by what its completion word says, and each HARQ command by what the handle's entry and the
pools say. -/
theorem harqCommands : Obligations.HarqCommands := by
  unfold Obligations.HarqCommands
  refine ⟨fun s c i j y hhalt hon hen hjob => ?_,
    fun s k h hk hhalt hrd => ⟨fun hname hfree hwants => ?_, fun hname hfree hwants => ?_, fun hst => ⟨fun a hroom => ?_,
      fun hroom hwants => ?_⟩⟩,
    fun s hhalt => ⟨fun v a hv hroom hneed hnone => runs_harqSpill hhalt hv hroom hneed hnone,
      fun h mv hmv hfree hwants => ?_⟩⟩
  · intro x hopc hnsel hunset hcell hfirst t w slot fresh sel back hpast
    have hdue : NselDue s c i j y := ⟨hhalt, hon, hen, hjob, hopc, hnsel, hunset, hcell, hfirst, hpast⟩
    have hfresh : fresh ↔ nselFresh w slot = true := by simp [fresh, nselFresh, and_assoc]
    refine ⟨fun hf hgood => ?_, fun hf hbad => ?_, fun hf => ?_⟩
    · exact exec_dsNselRead_neural (x := x) (t := t) hdue rfl rfl (hfresh.mp hf) hgood
    · exact exec_dsNselRead_error (x := x) (t := t) hdue rfl rfl (hfresh.mp hf) hbad
    · exact exec_dsNselRead_late (x := x) (t := t) hdue rfl rfl (by simpa [hfresh] using hf)
  · exact (exec_dsHarqFree hk hhalt hrd h).trans (congrArg _ (settleFrees_unnamed hfree hwants hname))
  · exact (exec_dsHarqFree hk hhalt hrd h).trans (congrArg _ (settleFrees_named hfree hwants hname))
  · refine ⟨_, exec_dsHarqPrefetch hk hhalt hrd h, ?_⟩
    rw [harqFetch_room hst hroom]
    exact ⟨rfl, rfl⟩
  · exact (exec_dsHarqPrefetch hk hhalt hrd h).trans (congrArg _ (harqFetch_noRoom hst hroom hwants))
  · have hmvh : mv.handle = h.toNat := by simpa using List.find?_some hmv
    generalize hx : s.handle h.toNat = x
    rw [← hmvh] at hx ⊢
    refine ⟨fun hst hok => ⟨_, exec_harqSpillDone_placed hhalt hmv hx hfree hwants hst hok, mem_recordPlaced .., ?_⟩,
      fun hst hok => ⟨_, exec_harqSpillDone_lost hhalt hmv hx hfree hwants hst hok, mem_recordLost ..⟩,
      fun hst => ⟨_, exec_harqSpillDone_gone hhalt hmv hx hfree hwants hst, rfl⟩⟩
    exact congrArg Coding.moves (ds_recordPlaced s mv x)

end Sys2Proof

namespace Sys2Proof
open Machine

/-! ### O23: fronthaul reception and the gain loops -/

section
variable {s : State}

/-! #### Matching and sequence checks (R206, R208) -/

section
variable (hhalt : s.halted .radio = false) {port : Fin 8} {sub : Option (Fin 4)} {h : FhHdr} {eaxc : BitVec 16}
  (hport : s.portUp port = true)
include hhalt hport

section
variable {sec : FhSection} {ext : Bool}

theorem exec_fhCplaneRx_unsupported (hsup : (h.supported 2 && sec.supported && !ext) = false) :
    exec (.fhCplaneRx port sub h eaxc sec ext) s = .next (s.count (fhBlock + 0x100) 1) :=
  (unlessHalted_runs hhalt _).trans ((onlyIf_true hport ..).trans (congrArg _ (if_pos (by simp [hsup]))))

variable (hsup : (h.supported 2 && sec.supported && !ext) = true)
include hsup

theorem exec_fhCplaneRx_rx {i : Nat} {c : Cell} (hrx : s.rxMatch (ifaceOf port sub) h.vlan.toNat eaxc.toNat = some (i, c)) :
    exec (.fhCplaneRx port sub h eaxc sec ext) s = .next (s.seqCheck i h.seq) := by
  refine (unlessHalted_runs hhalt _).trans ((onlyIf_true hport ..).trans (congrArg _ ((if_neg (by simp [hsup])).trans ?_)))
  simp only [hrx]

theorem exec_fhCplaneRx_tx {i : Nat} {c : Cell} (hrx : s.rxMatch (ifaceOf port sub) h.vlan.toNat eaxc.toNat = none)
    (htx : s.txMatch (ifaceOf port sub) h.vlan.toNat eaxc.toNat = some (i, c)) :
    exec (.fhCplaneRx port sub h eaxc sec ext) s = .next (s.txSeqCheck i h.seq) := by
  refine (unlessHalted_runs hhalt _).trans ((onlyIf_true hport ..).trans (congrArg _ ((if_neg (by simp [hsup])).trans ?_)))
  simp only [hrx, htx]

theorem exec_fhCplaneRx_none (hrx : s.rxMatch (ifaceOf port sub) h.vlan.toNat eaxc.toNat = none)
    (htx : s.txMatch (ifaceOf port sub) h.vlan.toNat eaxc.toNat = none) :
    exec (.fhCplaneRx port sub h eaxc sec ext) s = .next (s.count (fhBlock + 0x100) 1) := by
  refine (unlessHalted_runs hhalt _).trans ((onlyIf_true hport ..).trans (congrArg _ ((if_neg (by simp [hsup])).trans ?_)))
  simp only [hrx, htx]

end

/-! #### Uplink U-plane packets (R209, R210, R212, R229) -/

section
variable {comp : FhComp} {width : Option (Fin 17)} {frame : Nat} {slot : Fin 20} {sym : Fin 14} {arrival : Nat}
  {start : Fin 273} {prbs : List PrbData} {buf : PAddr}

theorem exec_fhUplaneRx_unsupported (hsup : (h.supported 0 && comp.supported width) = false) :
    exec (.fhUplaneRx port sub h eaxc comp width frame slot sym arrival start prbs buf) s =
      .next ((s.reachRaw (arrival / 64)).count (fhBlock + 0x100) 1) :=
  (unlessHalted_runs hhalt _).trans ((onlyIf_true hport ..).trans (congrArg _ (if_pos (by simp [hsup]))))

variable (hsup : (h.supported 0 && comp.supported width) = true)
include hsup

theorem exec_fhUplaneRx_tx {i : Nat} {c : Cell} (hrx : s.rxMatch (ifaceOf port sub) h.vlan.toNat eaxc.toNat = none)
    (htx : s.txMatch (ifaceOf port sub) h.vlan.toNat eaxc.toNat = some (i, c)) :
    exec (.fhUplaneRx port sub h eaxc comp width frame slot sym arrival start prbs buf) s =
      .next ((s.reachRaw (arrival / 64)).txSeqCheck i h.seq) := by
  refine (unlessHalted_runs hhalt _).trans ((onlyIf_true hport ..).trans (congrArg _ ((if_neg (by simp [hsup])).trans ?_)))
  simp only [hrx, htx]

theorem exec_fhUplaneRx_none (hrx : s.rxMatch (ifaceOf port sub) h.vlan.toNat eaxc.toNat = none)
    (htx : s.txMatch (ifaceOf port sub) h.vlan.toNat eaxc.toNat = none) :
    exec (.fhUplaneRx port sub h eaxc comp width frame slot sym arrival start prbs buf) s =
      .next ((s.reachRaw (arrival / 64)).count (fhBlock + 0x100) 1) := by
  refine (unlessHalted_runs hhalt _).trans ((onlyIf_true hport ..).trans (congrArg _ ((if_neg (by simp [hsup])).trans ?_)))
  simp only [hrx, htx]

end
end

/-- What a packet's PRBs are stored as, under the symbol's gain (R210, R212). -/
def packetComps (w : Nat) (y : RxSym) (prbs : List PrbData) : List Int :=
  (prbs.map (prbValues w (gainFactor y.g))).flatMap (·.1)

/-- The symbol with a packet's PRBs, the first of which is start. -/
def joined (y : RxSym) (w start : Nat) (prbs : List PrbData) : RxSym :=
  { y with
    prbs := y.prbs ++ (List.range prbs.length).map (start + ·)
    clipped := y.clipped || (prbs.map (prbValues w (gainFactor y.g))).any (·.2.2)
    power := y.power + ((packetComps w y prbs).map (fun v => v.natAbs * v.natAbs)).sum
    count := y.count + (packetComps w y prbs).length / 2 }

/-- The packet's samples are stored, and stream i's symbol y has its PRBs. -/
def packetTaken (s : State) (i : Nat) (y : RxSym) (w start : Nat) (prbs : List PrbData) (buf : PAddr) : State :=
  let t := (s.store (buf.toNat + 48 * start) ((packetComps w y prbs).flatMap (fun v => leBytes 2 (toBits 16 v)))).count
    (fhBlock + 0x118) (((prbs.map (prbValues w (gainFactor y.g))).map (·.2.1)).sum)
  { t with fh := { t.fh with rx := tset {} t.fh.rx i ((tget {} s.fh.rx i).putSym (joined y w start prbs)) } }

/-- The mantissas' width: the section's, or else the cell's. -/
def packetWidth (width : Option (Fin 17)) (c : Cell) : Nat :=
  match width with
  | some w => w.val
  | none => c.iqwUl

/-- What becomes of a packet of stream i and cell c: by its window, the slot's configuration and the symbol's PRBs. -/
def packetEnd (s : State) (i : Nat) (c : Cell) (width : Option (Fin 17)) (frame : Nat) (slot : Fin 20) (sym : Fin 14)
    (arr : Int) (start : Nat) (prbs : List PrbData) (buf : PAddr) : State :=
  let y := (tget {} s.fh.rx i).symOf frame slot sym
  let w := windowOf c (s.tSym c.mu frame slot sym) arr
  if w = 1 then s.count (fhBlock + 0x104) 1
  else if w = 2 then s.count (fhBlock + 0x108) 1
  else if s.slotOff c frame slot true then s
  else if ((List.range prbs.length).map (start + ·)).any (fun p => y.prbs.contains p) then s.count (fhBlock + 0x10C) 1
  else packetTaken s i y (packetWidth width c) start prbs buf

theorem exec_fhUplaneRx_rx (hhalt : s.halted .radio = false) {port : Fin 8} {sub : Option (Fin 4)} {h : FhHdr}
    {eaxc : BitVec 16} (hport : s.portUp port = true) {comp : FhComp} {width : Option (Fin 17)} (frame : Nat) (slot : Fin 20)
    (sym : Fin 14) (arrival : Nat) (start : Fin 273) (prbs : List PrbData) (buf : PAddr)
    (hsup : (h.supported 0 && comp.supported width) = true) {i : Nat} {c : Cell}
    (hrx : s.rxMatch (ifaceOf port sub) h.vlan.toNat eaxc.toNat = some (i, c)) :
    (let s1 := (s.reachRaw (arrival / 64)).seqCheck i h.seq
     exec (.fhUplaneRx port sub h eaxc comp width frame slot sym arrival start prbs buf) s =
       .next (packetEnd s1 i c width frame slot sym (s1.rxTime (portQ port sub) arrival) start prbs buf)) := by
  refine (unlessHalted_runs hhalt _).trans ((onlyIf_true hport ..).trans (congrArg _ ((if_neg (by simp [hsup])).trans ?_)))
  simp only [hrx]
  unfold packetEnd
  dsimp only
  split
  · next hw => rw [if_pos hw]
  · next hw => rw [if_neg (by omega), if_pos hw]
  · next h1 h2 =>
    rw [if_neg h1, if_neg h2]
    rfl

/-! #### Symbols of a stream -/

/-- The symbol of a stream is the one asked for. -/
theorem symOf_key (x : RxStream) (frame slot sym : Nat) :
    (x.symOf frame slot sym).frame = frame ∧ (x.symOf frame slot sym).slot = slot ∧ (x.symOf frame slot sym).sym = sym := by
  unfold RxStream.symOf
  cases hfind : x.syms.find? (fun y => y.frame == frame && y.slot == slot && y.sym == sym) with
  | none => exact ⟨rfl, rfl, rfl⟩
  | some y => simpa [and_assoc] using List.find?_some hfind

theorem mem_putSym (x : RxStream) (y : RxSym) : y ∈ (x.putSym y).syms := by simp [RxStream.putSym]

theorem rx_seqCheck (s : State) (i : Nat) (seq : BitVec 8) :
    (s.seqCheck i seq).fh.rx = tset {} s.fh.rx i { tget {} s.fh.rx i with seq := some seq.toNat } := by
  unfold State.seqCheck
  extract_lets x gap
  cases gap <;> rfl

theorem tsorted_seqCheck {i : Nat} {seq : BitVec 8} (hrx : tsorted 0 s.fh.rx = true) :
    tsorted 0 (s.seqCheck i seq).fh.rx = true := by
  rw [rx_seqCheck]
  exact tsorted_tput _ hrx (Nat.zero_le i)

/-- The stream's symbol has the packet's PRBs, and the gain is as it was. -/
theorem tget_packetTaken (hrx : tsorted 0 s.fh.rx = true) {i : Nat} {y : RxSym} {w start : Nat} {prbs : List PrbData}
    {buf : PAddr} : tget {} (packetTaken s i y w start prbs buf).fh.rx i = (tget {} s.fh.rx i).putSym (joined y w start prbs) :=
  tget_tset_same _ hrx ..

section
variable {i : Nat} {c : Cell} {width : Option (Fin 17)} {frame : Nat} {slot : Fin 20} {sym : Fin 14} {arr : Int} {start : Nat}
  {prbs : List PrbData} {buf : PAddr}

theorem packetEnd_early (hw : windowOf c (s.tSym c.mu frame slot sym) arr = 1) :
    packetEnd s i c width frame slot sym arr start prbs buf = s.count (fhBlock + 0x104) 1 := if_pos hw

theorem packetEnd_late (hw : windowOf c (s.tSym c.mu frame slot sym) arr = 2) :
    packetEnd s i c width frame slot sym arr start prbs buf = s.count (fhBlock + 0x108) 1 :=
  (if_neg (by omega)).trans (if_pos hw)

variable (hw : windowOf c (s.tSym c.mu frame slot sym) arr = 0)
include hw

theorem packetEnd_off (hoff : s.slotOff c frame slot true = true) :
    packetEnd s i c width frame slot sym arr start prbs buf = s :=
  (if_neg (by omega)).trans ((if_neg (by omega)).trans (if_pos hoff))

variable (hon : s.slotOff c frame slot true = false) {y : RxSym} (hy : (tget {} s.fh.rx i).symOf frame slot sym = y)
include hon hy

theorem packetEnd_duplicate (hdup : ∃ k < prbs.length, start + k ∈ y.prbs) :
    packetEnd s i c width frame slot sym arr start prbs buf = s.count (fhBlock + 0x10C) 1 := by
  subst hy
  exact (if_neg (by omega)).trans ((if_neg (by omega)).trans ((if_neg (by simp [hon])).trans (if_pos (by simpa using hdup))))

theorem packetEnd_taken (hdup : ¬ ∃ k < prbs.length, start + k ∈ y.prbs) :
    packetEnd s i c width frame slot sym arr start prbs buf = packetTaken s i y (packetWidth width c) start prbs buf := by
  subst hy
  exact (if_neg (by omega)).trans ((if_neg (by omega)).trans ((if_neg (by simp [hon])).trans (if_neg (by simpa using hdup))))

end

/-! #### The window's close and the symbol's end (R209, R213, R214) -/

/-- The missing PRBs of a symbol read as zero. -/
def prbsZeroed (s : State) (a : Nat) (miss : List Nat) : State := miss.foldl (fun t q => t.store (a + 48 * q) (leBytes 48 0)) s

/-- A side record already written shows an erasure (R214). -/
def sideErased (s : State) (side : Option Nat) : State :=
  match side with
  | some b => s.storeNat (b + 2) 1 (s.loadNat (b + 2) 1 ||| 2)
  | none => s

theorem fh_prbsZeroed (s : State) (a : Nat) (miss : List Nat) : (prbsZeroed s a miss).fh = s.fh :=
  foldl_keeps (P := fun t => t.fh = s.fh) (f := fun t q => t.store (a + 48 * q) (leBytes 48 0)) (fun _ _ ht => ht) _ rfl

theorem fh_sideErased (s : State) (side : Option Nat) : (sideErased s side).fh = s.fh := by
  cases side <;> rfl

/-- The power of a symbol as the loop takes it, dB (R213). -/
def agcPower (s : State) (y : RxSym) : Int :=
  if y.clipped then max (powerDb y.power y.count) (ofBits 8 (s.regN (fhBlock + 0x040) % 256) + 24)
  else powerDb y.power y.count

/-- The gain that a symbol of power p asks for. -/
def agcGain (s : State) (gain p : Int) (frozen : Bool) : Int :=
  let cfg := s.regN (fhBlock + 0x040)
  let err := p - ofBits 8 (cfg % 256)
  if frozen then gain
  else if (bitsOf cfg 23 16 : Int) < err then gain - min err (bitsOf cfg 15 8)
  else if err < -(bitsOf cfg 23 16 : Int) then gain + 1
  else gain

/-- At its end, which is the time of t, the symbol y of stream i has its side record, the stream its gain, and the cell's
freeze counts it. -/
def symbolEnded (s t : State) (i cell : Nat) (y : RxSym) (a : PAddr) : State :=
  let x := tget {} s.fh.rx i
  let fz := tget .none s.fh.freeze cell
  let u := t.store a.toNat (leBytes 1 (toBits 8 y.g) ++ leBytes 1 (toBits 8 (clampInt (-128) 127 (agcPower s y)).1) ++
    leBytes 2 (sideFlags y (fz.holds y.key)))
  { u with
    fh.rx := tset {} u.fh.rx i { x.putSym { y with side := some a.toNat } with
      gain := (clampInt (-128) 127 (agcGain s x.gain (agcPower s y) (fz.holds y.key))).1 }
    fh.freeze := tset .none u.fh.freeze cell (fz.count y.key) }

section
variable (hhalt : s.halted .radio = false) {p : Plan} (hactive : s.fh.active = some p) {i : Fin 2048} {e : Cell × Nat}
  (hstream : p.rxStreams[i.val]? = some e) (hup : s.cellUp e.1 = true) (frame : Nat) (slot : Fin 20) (sym : Fin 14) (a : PAddr)
include hhalt hactive hstream hup

theorem exec_fhRxWindowClose {miss : List Nat} {close : Int} {y : RxSym} (hy : (tget {} s.fh.rx i.val).symOf frame slot sym = y)
    (hmiss : (List.range e.1.prbs).filter (fun q => !y.prbs.contains q) = miss)
    (hclose : s.tSym e.1.mu frame slot sym + fine (e.1.ta4MaxUs * 1000) = close)
    (hpast : cPast (s.reachC (cOfFine close)).now close = true)
    (hon : (s.reachC (cOfFine close)).slotOff e.1 frame slot true = false)
    (hsome : miss ≠ []) :
    (let t := sideErased (prbsZeroed (s.reachC (cOfFine close)) a.toNat miss) y.side
     exec (.fhRxWindowClose i frame slot sym a) s = .next { t with fh := { t.fh with
       rx := tset {} t.fh.rx i.val ((tget {} s.fh.rx i.val).putSym { y with erased := miss }) } }) := by
  have hnil : miss.isEmpty = false := by simpa using hsome
  subst hy
  show execFhRxWindowClose i frame slot sym a s = _
  unfold execFhRxWindowClose
  simp only [hactive, hstream, hmiss, hclose, hnil]
  refine (unlessHalted_runs hhalt _).trans ((onlyIf_true (by simp [hup, hpast, hon]) ..).trans ?_)
  simp only [Bool.false_eq_true, ↓reduceIte]
  rfl

theorem exec_agcSymbolUpdate {y : RxSym}
    (hy : (tget {} s.fh.rx i.val).syms.find? (fun z => z.frame == frame && z.slot == slot.val && z.sym == sym.val) = some y)
    (hcount : 0 < y.count) (hside : y.side = none) {due : Int} (hdue : s.symEnd e.1.mu frame slot sym = due)
    (hpast : cPast (s.reachC (cOfFine due)).now due = true) :
    exec (.agcSymbolUpdate i frame slot sym a) s = .next (symbolEnded s (s.reachC (cOfFine due)) i e.1.cell y a) := by
  show execAgcSymbolUpdate i frame slot sym a s = _
  unfold execAgcSymbolUpdate
  simp only [hactive, hstream, hy, hdue]
  exact (unlessHalted_runs hhalt _).trans (onlyIf_true (by simp [hcount, hside, hup, hpast]) ..)

/-- The window's close where PRBs are missing (R209). -/
theorem runs_fhRxWindowClose (hrx : tsorted 0 s.fh.rx = true) {miss : List Nat} {close : Int} {y : RxSym}
    (hy : (tget {} s.fh.rx i.val).symOf frame slot sym = y)
    (hmiss : (List.range e.1.prbs).filter (fun q => !y.prbs.contains q) = miss)
    (hclose : s.tSym e.1.mu frame slot sym + fine (e.1.ta4MaxUs * 1000) = close)
    (hpast : cPast (s.reachC (cOfFine close)).now close = true)
    (hon : (s.reachC (cOfFine close)).slotOff e.1 frame slot true = false)
    (hsome : miss ≠ []) : Runs (.fhRxWindowClose i frame slot sym a) s (fun t =>
      tget {} t.fh.rx i.val = (tget {} s.fh.rx i.val).putSym { y with erased := miss } ∧
      t.mem = (sideErased (prbsZeroed (s.reachC (cOfFine close)) a.toNat miss) y.side).mem) := by
  refine ⟨_, exec_fhRxWindowClose hhalt hactive hstream hup frame slot sym a hy hmiss hclose hpast hon hsome, ?_, rfl⟩
  refine tget_tset_same (lo := 0) _ ?_ ..
  rw [fh_sideErased, fh_prbsZeroed, State.reachC_fh]
  exact hrx

/-- A symbol's end (R213, R214). -/
theorem runs_agcSymbolUpdate (hrx : tsorted 0 s.fh.rx = true) (hfreeze : tsorted 0 s.fh.freeze = true) {y : RxSym}
    (hy : (tget {} s.fh.rx i.val).syms.find? (fun z => z.frame == frame && z.slot == slot.val && z.sym == sym.val) = some y)
    (hcount : 0 < y.count) (hside : y.side = none) {due : Int} (hdue : s.symEnd e.1.mu frame slot sym = due)
    (hpast : cPast (s.reachC (cOfFine due)).now due = true) {fz : Freeze} (hfz : tget .none s.fh.freeze e.1.cell = fz) :
    Runs (.agcSymbolUpdate i frame slot sym a) s (fun t =>
      (tget {} t.fh.rx i.val).gain =
        (clampInt (-128) 127 (agcGain s (tget {} s.fh.rx i.val).gain (agcPower s y) (fz.holds y.key))).1 ∧
      tget .none t.fh.freeze e.1.cell = fz.count y.key ∧
      t.mem = ((s.reachC (cOfFine due)).store a.toNat (leBytes 1 (toBits 8 y.g) ++
        leBytes 1 (toBits 8 (clampInt (-128) 127 (agcPower s y)).1) ++ leBytes 2 (sideFlags y (fz.holds y.key)))).mem) := by
  have hfh : (s.reachC (cOfFine due)).fh = s.fh := State.reachC_fh ..
  subst hfz
  refine ⟨_, exec_agcSymbolUpdate hhalt hactive hstream hup frame slot sym a hy hcount hside hdue hpast, ?_, ?_, rfl⟩
  · exact congrArg RxStream.gain (tget_tset_same _ (congrArg Radio.rx hfh ▸ hrx) ..)
  · exact tget_tset_same _ (congrArg Radio.freeze hfh ▸ hfreeze) ..

end

/-- A freeze ends with its last counted symbol's updates (R215). -/
theorem exec_agcFreezeEnd (hhalt : s.halted .radio = false) {c : Fin 512} {n : Nat} {seen : List (Nat × Nat × Nat)}
    (hfz : tget .none s.fh.freeze c.val = .symbols n seen) (hlen : n ≤ seen.length)
    (howed : ∀ i ∈ s.cellStreams c, s.updateOwed seen i = false) :
    exec (.agcFreezeEnd c) s = .next { s with fh := { s.fh with freeze := tset .none s.fh.freeze c.val .none } } := by
  show execAgcFreezeEnd c s = _
  unfold execAgcFreezeEnd
  simp only [hfz]
  exact (unlessHalted_runs hhalt _).trans (onlyIf_true (by simpa [hlen] using howed) ..)

/-! #### Registers of the fronthaul (R207, R215, R241) -/

/-- The low bits of a number keep its fields. -/
theorem bitsOf_mod {x n hi lo : Nat} (h : hi < n) (hl : lo ≤ hi) : bitsOf (x % 2 ^ n) hi lo = bitsOf x hi lo := by
  unfold bitsOf
  rw [← pow_mul_pow_sub 2 (show lo ≤ n by omega), Nat.mod_mul_right_div_self,
    Nat.mod_mod_of_dvd _ (Nat.pow_dvd_pow 2 (by omega))]

/-- A stored number's fields are those of the number. -/
theorem regB_setReg_same (h : tsorted 0 s.regs = true) (o v : Nat) {hi lo : Nat} (hh : hi < 32) (hl : lo ≤ hi) :
    (s.setReg o v).regB o hi lo = bitsOf v hi lo := by
  unfold State.regB
  rw [s.regN_setReg_same h, bitsOf_mod hh hl]

/-- A cell of the plan uses the port. -/
def portUsed (p : Fin 8) (q : Option Plan) : Bool :=
  match q with
  | some q => q.cells.any (fun c => c.port == p.val)
  | none => false

theorem portUsed_eq_false {p : Fin 8} {o : Option Plan} (h : ∀ q, o = some q → ∀ c ∈ q.cells, c.port ≠ p.val) :
    portUsed p o = false := by
  cases o with
  | none => rfl
  | some q => simpa [portUsed] using h q rfl

section
variable (hpf : s.isPf .pf = true) (hrd : s.dieOn .rd = true) (hregs : tsorted 0 s.regs = true) (v : Word)
include hpf hrd hregs

theorem runs_fhAgcCfgWrite : Runs (.fhAgcCfgWrite .pf v) s (fun t =>
    t.regB (fhBlock + 0x040) 23 16 = bitsOf v.toNat 23 16 ∧ t.regB (fhBlock + 0x040) 7 0 = bitsOf v.toNat 7 0 ∧
    t.regB (fhBlock + 0x040) 15 8 = if 1 ≤ bitsOf v.toNat 15 8 ∧ bitsOf v.toNat 15 8 ≤ 32 then bitsOf v.toNat 15 8
      else s.regB (fhBlock + 0x040) 15 8) := by
  refine ⟨_, agentIf_acts (agentHalted_pf s) rfl (by simp [hpf, hrd]) _, ?_⟩
  simp only [regB_setReg_same hregs _ _ (show 23 < 32 by omega) (show 16 ≤ 23 by omega),
    regB_setReg_same hregs _ _ (show 15 < 32 by omega) (show 8 ≤ 15 by omega),
    regB_setReg_same hregs _ _ (show 7 < 32 by omega) (Nat.zero_le 7)]
  have hfield {hi lo : Nat} (hh : hi < 24) (hl : lo ≤ hi) := bitsOf_mod (x := v.toNat) hh hl
  split
  · next hin => exact ⟨hfield (by omega) (by omega), hfield (by omega) (by omega), hfield (by omega) (by omega)⟩
  · next hout =>
    refine ⟨(bitsOf_withBits_above _ _ _ _ _ _ (by omega) (by omega)).trans (hfield (by omega) (by omega)),
      (bitsOf_withBits_below _ _ _ _ _ _ (by omega) (by omega)).trans (hfield (by omega) (by omega)), ?_⟩
    exact (bitsOf_withBits_same _ _ _ _ (by omega)).trans (Nat.mod_eq_of_lt (bitsOf_lt ..))

/-- SPLIT is taken where no cell of a plan uses the port (R207). -/
theorem runs_fhPortCfgWrite (p : Fin 8) : Runs (.fhPortCfgWrite .pf p v) s (fun t =>
    t.regBit (fhBlock + 0x020 + 4 * p.val) 0 = v.getLsbD 0 ∧
    ((∀ q, s.fh.active = some q ∨ s.fh.next = some q → ∀ c ∈ q.cells, c.port ≠ p.val) →
      t.regBit (fhBlock + 0x020 + 4 * p.val) 1 = v.getLsbD 1)) := by
  have hbit (u : Nat) {i : Nat} (hi : i < 32) :
      (s.setReg (fhBlock + 0x020 + 4 * p.val) u).regBit (fhBlock + 0x020 + 4 * p.val) i = (bitsOf u i i == 1) :=
    (bitOf_eq ..).trans (congrArg (· == 1) (regB_setReg_same hregs _ _ hi (Nat.le_refl i)))
  have hfield {i : Nat} (hi : i < 2) : (bitsOf (v.toNat % 4) i i == 1) = v.getLsbD i := by
    rw [← bitOf_toNat, bitOf_eq]
    exact congrArg (· == 1) (bitsOf_mod (n := 2) hi (Nat.le_refl i))
  refine ⟨_, agentIf_acts (agentHalted_pf s) rfl (by simp [hpf, hrd]) _, ?_, fun hunused => ?_⟩
  · rw [hbit _ (by omega), ← hfield (by omega)]
    split
    · rw [bitsOf_withBits_below _ _ _ _ _ _ (by omega) (by omega)]
    · rfl
  · have hused : (portUsed p s.fh.active || portUsed p s.fh.next) = false := by
      rw [portUsed_eq_false fun q hq => hunused q (.inl hq), portUsed_eq_false fun q hq => hunused q (.inr hq)]
      rfl
    rw [hbit _ (by omega), ← hfield (by omega)]
    exact congrArg (fun n => bitsOf n 1 1 == 1) (if_neg (Bool.eq_false_iff.mp hused))

end

end
/-- Settles O23: a frame goes by its options, its stream and its window; a window's close and a symbol's end by the symbol's
state at their time. -/
theorem fronthaulCommands : Obligations.FronthaulCommands := by
  unfold Obligations.FronthaulCommands
  refine ⟨fun s port sub h eaxc hhalt hport => ⟨fun sec ext => ?_,
      fun comp width frame slot sym arrival start prbs buf => ?_⟩,
    fun s p i e frame slot sym a hhalt hactive hstream hup hrx => ⟨fun hpast hon hsome => ?_,
      fun y hy hcount hside hfreeze hpast => ?_⟩,
    fun s c hhalt n seen hfz hlen howed => ?_,
    fun s k c hk hhalt hrd hfreeze => ⟨_, agentIf_rdCore hk hhalt hrd _, tget_tset_same _ hfreeze ..⟩,
    fun s v hpf hrd hregs => ⟨runs_fhAgcCfgWrite hpf hrd hregs v, fun p => runs_fhPortCfgWrite hpf hrd hregs v p⟩⟩
  · exact ⟨exec_fhCplaneRx_unsupported hhalt hport, fun hsup => ⟨fun i c hrx => exec_fhCplaneRx_rx hhalt hport hsup hrx,
      fun i c hrx htx => exec_fhCplaneRx_tx hhalt hport hsup hrx htx, exec_fhCplaneRx_none hhalt hport hsup⟩⟩
  · refine ⟨exec_fhUplaneRx_unsupported hhalt hport, fun hsup => ⟨exec_fhUplaneRx_none hhalt hport hsup,
      fun i c hrx htx => exec_fhUplaneRx_tx hhalt hport hsup hrx htx, fun i c hrx => ?_⟩⟩
    have hexec := exec_fhUplaneRx_rx hhalt hport frame slot sym arrival start prbs buf hsup hrx
    refine ⟨fun hw => hexec.trans (congrArg _ (packetEnd_early hw)), fun hw => hexec.trans (congrArg _ (packetEnd_late hw)),
      fun hw hoff => hexec.trans (congrArg _ (packetEnd_off hw hoff)),
      fun hw hon hdup => hexec.trans (congrArg _ (packetEnd_duplicate hw hon rfl hdup)), fun hw hon hdup hsorted => ?_⟩
    refine ⟨_, hexec.trans (congrArg _ (packetEnd_taken hw hon rfl hdup)), rfl, ?_⟩
    rw [tget_packetTaken (tsorted_seqCheck (by rwa [State.reachRaw_fh]))]
    obtain ⟨hframe, hslot, hsym⟩ :=
      symOf_key (tget {} ((s.reachRaw (arrival / 64)).seqCheck i h.seq).fh.rx i) frame slot sym
    exact ⟨rfl, _, mem_putSym .., hframe, hslot, hsym, rfl, rfl⟩
  · obtain ⟨t, hexec, ht, hmem⟩ :=
      runs_fhRxWindowClose hhalt hactive hstream hup frame slot sym a hrx rfl rfl rfl hpast hon hsome
    refine ⟨t, hexec, ht, fun hside => ?_, fun b hside => ?_⟩ <;>
    · rw [hmem, hside]
      rfl
  · exact runs_agcSymbolUpdate hhalt hactive hstream hup frame slot sym a hrx hfreeze hy hcount hside rfl hpast rfl
  · exact exec_agcFreezeEnd hhalt hfz hlen howed

end Sys2Proof

namespace Sys2Proof
open Machine

/-! ### O24: PRACH, FFT engines, slots, neural receivers and cell plans -/

section
variable {s : State}

/-! #### PRACH (R217, R218) -/

/-- When a repetition of an occasion begins. -/
def prachAt (s : State) (x : Cell) (frame : Nat) (slot : Fin 20) (r : PrachRep) : Int :=
  s.tSym x.mu frame (slot.val + r.after.val) r.sym

/-- When the window of an occasion's last symbol closes. -/
def prachClose (s : State) (x : Cell) (frame : Nat) (slot : Fin 20) (r0 : PrachRep) (rs : List PrachRep) : Int :=
  rs.foldl (fun b r => max b (prachAt s x frame slot r)) (prachAt s x frame slot r0) + fine (x.ta4MaxUs * 1000)

/-- When the detector is done with an occasion of format f. -/
def prachDone (s : State) (x : Cell) (f : PrachFormat) (close : Int) : Int :=
  max close s.fh.prachFree + f.reps * f.weight * x.prachStreams * 500000

/-- The preambles found in the samples of t, an occasion's last window having closed. -/
def prachFound (s t : State) (x : Cell) (f : PrachFormat) (frame : Nat) (slot : Fin 20) (reps : List PrachRep) :
    List PrachDet :=
  (List.finRange 64).filterMap (fun v =>
    prachPreamble f ((Config.prachConfig x.mu (x.period == 0) x.prachCfg).getD (0, 0)).1 x.restricted x.root x.zcz x.thresh x.mu
      x.prachStreams (reps.map (t.prachSamples f.len x.mu frame slot)) (Config.freeValue (s.free + v.val)) v)

section
variable (hhalt : s.halted .radio = false) {c : Fin 512} {x : Cell} (hx : s.runCells.find? (fun q => q.cell == c.val) = some x)
include hhalt hx

theorem exec_prachOccasion {frame : Nat} {slot : Fin 20} (core : Fin 4) {r0 : PrachRep} {rs : List PrachRep} {f : PrachFormat}
    {n : Nat} (hf : x.prach = some (f, n)) (hlen : (r0 :: rs).length = f.reps * x.prachStreams)
    (hours : ∀ r ∈ r0 :: rs, r.rx.val ∈ (s.cellStreams c).drop x.conf.rx)
    (hdistinct : allDistinct (r0 :: rs) = true) {close : Int} (hclose : prachClose s x frame slot r0 rs = close)
    {t : State} (ht : s.reachC (cOfFine close) = t) (hpast : cPast t.now close = true) :
    exec (.prachOccasion c frame slot core (r0 :: rs)) s = .next
      (if close + fine 200000 < prachDone s x f close then t.count (fhBlock + 0x120) 1
       else (prachFound s t x f frame slot (r0 :: rs)).foldl (fun u d => u.prachReported x core
          (rs.foldl (fun b r => min b (prachAt s x frame slot r)) (prachAt s x frame slot r0) / 3072).toNat d)
        { t.drew 64 with fh := { t.fh with prachFree := prachDone s x f close } }) := by
  have hall : (r0 :: rs).all (fun r => ((s.cellStreams c).drop x.conf.rx).contains r.rx.val) = true := by
    simpa using hours
  subst hclose ht
  show execPrachOccasion c frame slot core (r0 :: rs) s = _
  unfold execPrachOccasion
  simp only [hx, hf]
  refine (unlessHalted_runs hhalt _).trans (onlyIf_true ?_ ..)
  rw [hlen, hall, hdistinct]
  simp only [beq_self_eq_true, Bool.true_and]
  exact hpast

end

/-- The report of a preamble of a cell that is not muted (R217). -/
theorem prachReported_eq {x : Cell} (hmuted : s.muted x.cell = false) (core : Fin 4) (tOcc : Nat) (d : PrachDet) :
    (let t := ((s.count (fhBlock + 0x11C) 1).irqTo (coreId .rd core) .radio).storeNat (prachSlot s.fh.reports) 16
      (prachReport tOcc x.cell x.restricted d).toNat
     s.prachReported x core tOcc d = { t with fh := { t.fh with
       reports := s.fh.reports + 1
       freeze := tset .none s.fh.freeze x.cell (if x.freeze = 0 then .held else .symbols x.freeze []) } }) := by
  unfold State.prachReported
  simp only [hmuted, Bool.false_eq_true, ↓reduceIte]
  rfl

theorem prachReported_spec {x : Cell} (hfreeze : tsorted 0 s.fh.freeze = true) (hregs : tsorted 0 s.regs = true)
    (hmuted : s.muted x.cell = false) (core : Fin 4) (tOcc : Nat) (d : PrachDet) :
    (let t := s.prachReported x core tOcc d
     t.fh.reports = s.fh.reports + 1 ∧ t.regN (fhBlock + 0x11C) = (satAdd (s.reg (fhBlock + 0x11C)) 1).toNat ∧
     t.mem = (s.storeNat (prachSlot s.fh.reports) 16 (prachReport tOcc x.cell x.restricted d).toNat).mem ∧
     tget .none t.fh.freeze x.cell = if x.freeze = 0 then .held else .symbols x.freeze []) := by
  have hcount : SameMemory s (s.count (fhBlock + 0x11C) 1) := .setReg s (by unfold dlPage; decide) _
  have hirq : SameMemory s ((s.count (fhBlock + 0x11C) 1).irqTo (coreId .rd core) .radio) := hcount.trans .of_eq
  rw [prachReported_eq hmuted]
  exact ⟨rfl, regN_count hregs .., (hirq.storeNat ..).mem, tget_tset_same _ hfreeze ..⟩

/-! #### Slots (R225 to R229) -/

/-- A slot's configuration in time is noted. -/
theorem configIn_inTime {x : Cell} {frame : Nat} {slot : Nat} {up : Bool} (hnote : s.noteOf x.cell frame slot up = none)
    (hpast : s.pastNs (s.configDue x frame slot) = false) : ∃ n ∈ (s.configIn x frame slot up).fh.notes,
      n.cell = x.cell ∧ n.frame = frame ∧ n.slot = slot ∧ n.uplink = up ∧ n.late = false := by
  have hnotes : (s.configIn x frame slot up).fh.notes = s.fh.notes ++
      [{ cell := x.cell, frame := frame, slot := slot, uplink := up, late := false
         posted := !s.silent x.cell frame slot }] := by
    unfold State.configIn State.addNote
    simp only [hnote, hpast]
    rfl
  rw [hnotes]
  exact ⟨_, List.mem_append_right _ (List.mem_singleton_self _), rfl, rfl, rfl, rfl, rfl⟩

/-- A late one is noted late and counted. -/
theorem configIn_late {x : Cell} {frame : Nat} {slot : Nat} {up : Bool} (hnote : s.noteOf x.cell frame slot up = none)
    (hpast : s.pastNs (s.configDue x frame slot) = true) :
    s.configIn x frame slot up = (s.addNote x.cell frame slot up true).count (fhBlock + 0x128) 1 := by
  unfold State.configIn
  simp only [hnote, hpast]
  rfl

section
variable (hhalt : s.halted .radio = false) {c : Fin 512} {x : Cell} (hx : s.runCells.find? (fun q => q.cell == c.val) = some x)
include hhalt hx

theorem exec_slotConfigRx (frame : Nat) (slot : Fin 20) (ul dl : Bool) {a : PAddr} (hrd : s.dieOn .rd = true)
    (hhd : inHd (s.key a.toNat) = true) (hok : s.rangeOk a.toNat 8 = true) :
    (let t := if ul then s.configIn x frame slot true else s
     exec (.slotConfigRx c frame slot ⟨ul, dl⟩ a) s = .next (if dl then t.configIn x frame slot false else t)) := by
  show execSlotConfigRx c frame slot ⟨ul, dl⟩ a s = _
  unfold execSlotConfigRx
  simp only [hx]
  exact (unlessHalted_runs hhalt _).trans (onlyIf_true (by rw [hrd, hhd, hok]; rfl) ..)

omit hhalt in
/-- A lead that passes with no configuration is noted late and counted. -/
theorem configLate_eq {frame slot : Nat} {up : Bool} (hnote : s.noteOf c frame slot up = none) {due : Int}
    (hdue : s.configDue x frame slot = due) (hpast : (s.reachNs due).pastNs due = true) :
    s.configLate c frame slot up = .next (((s.reachNs due).addNote c frame slot up true).count (fhBlock + 0x128) 1) := by
  unfold State.configLate
  simp only [hx, hdue, hnote]
  exact onlyIf_true hpast ..

end

/-! #### FFT engines (R219) -/

/-- The oldest job of an engine has written the transform of xs, after h halvings. -/
def fftEnded (s : State) (e : Nat) (j : FftJob) (js : List FftJob) (xs : List (Int × Int)) (h : Nat) : State :=
  let t := s.store j.dst ((dft j.inverse h xs).flatMap (fun y => leBytes 2 (toBits 16 (clampInt (-32768) 32767 y.1).1) ++
    leBytes 2 (toBits 16 (clampInt (-32768) 32767 y.2).1)))
  let n := tget 0 s.td.fftStart e
  { t with
    fh := { t.fh with fft := tset {} t.fh.fft e { jobs := js, done := (tget {} s.fh.fft e).done + 1, halvings := h } }
    td := { t.td with fftStart := tset 0 t.td.fftStart e (if j.strobe then n - 1 else n) } }

section
variable (hhalt : s.halted .radio = false) (hfft : tsorted 0 s.fh.fft = true) (e : Fin 8)
include hhalt hfft

theorem runs_fftJobQueue (src dst : PAddr) {size : Fin 4097} (inv strobe : Bool) (hsize : fftSizeOk size.val = true)
    (hrd : s.dieOn .rd = true) : Runs (.fftJobQueue e src dst size ⟨inv, strobe⟩) s (fun t => (tget {} t.fh.fft e.val).jobs =
      (tget {} s.fh.fft e.val).jobs ++
        [{ src := src.toNat, dst := dst.toNat, size := size.val, inverse := inv, strobe := strobe }]) :=
  ⟨_, (unlessHalted_runs hhalt _).trans (onlyIf_true (by rw [hsize, hrd]; rfl) ..),
    congrArg FftEngine.jobs (tget_tset_same _ hfft ..)⟩

theorem runs_fftJobDone {j : FftJob} {js : List FftJob} {radices : List (Fin 6)}
    (hjobs : (tget {} s.fh.fft e.val).jobs = j :: js) (hradices : fftRadices radices j.size = true)
    (hstrobe : j.strobe = true → 0 < tget 0 s.td.fftStart e.val) {xs : List (Int × Int)}
    (hxs : (List.range j.size).map (fun i => ci16 (s.loadNat (j.src + 4 * i) 4)) = xs) {h : Nat}
    (hh : fftHalvings j.inverse radices xs = h) : Runs (.fftJobDone e radices) s (fun t =>
      (tget {} t.fh.fft e.val).jobs = js ∧ (tget {} t.fh.fft e.val).halvings = h ∧
      t.mem = (s.store j.dst ((dft j.inverse h xs).flatMap
        (fun y => leBytes 2 (toBits 16 (clampInt (-32768) 32767 y.1).1) ++
          leBytes 2 (toBits 16 (clampInt (-32768) 32767 y.2).1)))).mem) := by
  have hstart : (!j.strobe || decide (0 < tget 0 s.td.fftStart e.val)) = true := by
    cases hj : j.strobe with
    | false => rfl
    | true => simpa using hstrobe hj
  have hexec : exec (.fftJobDone e radices) s = .next (fftEnded s e j js xs h) := by
    show execFftJobDone e radices s = _
    unfold execFftJobDone
    simp only [hjobs, hxs, hh]
    exact (unlessHalted_runs hhalt _).trans (onlyIf_true (by rw [hradices, hstart]; rfl) ..)
  have hengine := tget_tset_same ({} : FftEngine) hfft e.val
    { jobs := js, done := (tget {} s.fh.fft e.val).done + 1, halvings := h }
  exact ⟨_, hexec, congrArg FftEngine.jobs hengine, congrArg FftEngine.halvings hengine, rfl⟩

end

/-! #### Completion words (R230, R231, R233) -/

/-- LLR8 i of an allocation, or none for a NaN. -/
def llrAt (s : State) (src : PAddr) (i : Nat) : Option Int := llr8 (s.loadNat (src.toNat + 4 * i) 4)

/-- What the completion word reports as ERROR. -/
def nrxErr (s : State) (src : PAddr) (n : Nat) (passes : List (Fin 84 × BitVec 16)) : Bool :=
  !(passes.filter (fun p => !s.passCounted p)).isEmpty || ((List.range n).map (llrAt s src)).any (·.isNone) ||
    s.rangeBad src.toNat (4 * n)

/-- The bytes of an allocation's LLRs; that of a NaN is a free value. -/
def llrBytes (s : State) (src : PAddr) (n : Nat) (alloc : LlrAlloc) : List Byte :=
  ((((List.range n).map (llrAt s src)).zip (freeBytes s.free n)).zipIdx).map (fun e =>
    if s.llrErased alloc e.2 then 0
    else match e.1.1 with
      | some v => BitVec.ofNat 8 (toBits 8 v)
      | none => e.1.2)

theorem nrxErr_iff {src : PAddr} {n : Nat} {passes : List (Fin 84 × BitVec 16)} : nrxErr s src n passes = true ↔
    (∃ p ∈ passes, s.passCounted p = false) ∨ (∃ i < n, llrAt s src i = none) ∨ s.rangeBad src.toNat (4 * n) = true := by
  simp [nrxErr, or_assoc]

/-- With no NaN the bytes are those of the LLRs. -/
theorem llrBytes_eq {src : PAddr} {n : Nat} (alloc : LlrAlloc) (hnan : ∀ i < n, llrAt s src i ≠ none) :
    llrBytes s src n alloc = (List.range n).map (fun i =>
      if s.llrErased alloc i then 0 else BitVec.ofNat 8 (toBits 8 ((llrAt s src i).getD 0))) := by
  refine List.ext_getElem (by simp [llrBytes, length_freeBytes]) fun i hi hi' => ?_
  have hin : i < n := by simpa using hi'
  obtain ⟨v, hv⟩ := Option.ne_none_iff_exists'.mp (hnan i hin)
  simp [llrBytes, hv]

/-- The buffers of an allocation's LLRs and of its completion word. -/
def nrxBufs (c : Cell) (alloc : LlrAlloc) (dst word : PAddr) (n : Nat) : List NrxBuf :=
  [{ cell := c.cell, frame := alloc.frame, slot := alloc.slot, addr := dst.toNat, len := n },
   { cell := c.cell, frame := alloc.frame, slot := alloc.slot, addr := word.toNat, len := 8 }]

/-- The allocation's LLRs are in place, and its completion word is to come. -/
def llrsStored (s : State) (c : Cell) (alloc : LlrAlloc) (src dst word : PAddr) (n : Nat) : State :=
  ((s.nrxUse c.mu (nrxBufs c alloc dst word n)).store dst.toNat (llrBytes s src n alloc)).drew n

section
variable (hhalt : s.halted .radio = false) {src dst word : PAddr} {n : Fin 65536} {alloc : LlrAlloc}
  {passes : List (Fin 84 × BitVec 16)} {bookings : List (Fin 4 × Fin 64)} {c : Cell} (hrd : s.dieOn .rd = true)
  (hc : s.runCells.find? (fun x => x.cell == alloc.cell.val) = some c) (hnrx : c.nrx ≠ 0) (hdst : inRd dst.toNat n.val = true)
  (hword : inRd word.toNat 8 = true)
include hhalt hrd hc hnrx hdst hword

theorem exec_nrxCompletionWord : exec (.nrxCompletionWord src dst word n alloc passes bookings) s = .next
    (let open_ := passes.filter (fun p => !s.passCounted p)
     if !open_.isEmpty && bookings.any s.bookingBad then s.count (fhBlock + 0x1008 + 16 * c.cell) 1
     else if open_.all s.passLost && (nrxBufs c alloc dst word n).all s.nrxFree then
       (llrsStored s c alloc src dst word n).storeNat word.toNat 8
         (alloc.frame % 1024 + alloc.slot.val * 2 ^ 10 + 2 ^ 16 + b2n (nrxErr s src n passes) * 2 ^ 17)
     else s) := by
  show execNrxCompletionWord src dst word n alloc passes bookings s = _
  unfold execNrxCompletionWord
  simp only [hc]
  exact (unlessHalted_runs hhalt _).trans (onlyIf_true (by simp [hrd, hnrx, hdst, hword]) ..)

/-- An open pass with a bad booking is counted in FB_NOBOOK. -/
theorem exec_nrxCompletionWord_noBook (hopen : ∃ p ∈ passes, s.passCounted p = false)
    (hbad : ∃ b ∈ bookings, s.bookingBad b = true) : exec (.nrxCompletionWord src dst word n alloc passes bookings) s =
      .next (s.count (fhBlock + 0x1008 + 16 * c.cell) 1) := by
  obtain ⟨p, hp, hcounted⟩ := hopen
  have hsome : (passes.filter (fun p => !s.passCounted p)).isEmpty = false :=
    List.isEmpty_eq_false_iff_exists_mem.mpr ⟨p, List.mem_filter.mpr ⟨hp, by simp [hcounted]⟩⟩
  have hany : bookings.any s.bookingBad = true := List.any_eq_true.mpr hbad
  exact (exec_nrxCompletionWord hhalt hrd hc hnrx hdst hword).trans (congrArg _ (if_pos (by rw [hsome, hany]; rfl)))

theorem exec_nrxCompletionWord_written (hlost : ∀ p ∈ passes, s.passCounted p = false → s.passLost p = true)
    (hbook : (∀ p ∈ passes, s.passCounted p = true) ∨ (∀ b ∈ bookings, s.bookingBad b = false))
    (hfree : ∀ b ∈ nrxBufs c alloc dst word n, s.nrxFree b = true) :
    exec (.nrxCompletionWord src dst word n alloc passes bookings) s =
      .next ((llrsStored s c alloc src dst word n).storeNat word.toNat 8
        (alloc.frame % 1024 + alloc.slot.val * 2 ^ 10 + 2 ^ 16 + b2n (nrxErr s src n passes) * 2 ^ 17)) := by
  refine (exec_nrxCompletionWord hhalt hrd hc hnrx hdst hword).trans (congrArg _ ((if_neg ?_).trans (if_pos ?_)))
  · rcases hbook with hbook | hbook
    · simp +contextual [hbook]
    · simp +contextual [hbook]
  · refine Bool.and_eq_true_iff.mpr ⟨List.all_eq_true.mpr fun p hp => ?_, List.all_eq_true.mpr hfree⟩
    obtain ⟨hp, hopen⟩ := List.mem_filter.mp hp
    exact hlost p hp (by simpa using hopen)

end

/-- The bytes that an allocation without a NaN leaves. -/
theorem mem_llrsStored (c : Cell) {alloc : LlrAlloc} {src : PAddr} (dst word : PAddr) {n : Nat}
    (hnan : ∀ i < n, llrAt s src i ≠ none) : (llrsStored s c alloc src dst word n).mem =
      (s.store dst.toNat ((List.range n).map (fun i =>
        if s.llrErased alloc i then 0 else BitVec.ofNat 8 (toBits 8 ((llrAt s src i).getD 0))))).mem := by
  have hsame : SameMemory s (s.nrxUse c.mu (nrxBufs c alloc dst word n)) := .of_eq
  rw [← llrBytes_eq alloc hnan]
  exact (hsame.store ..).mem

/-! #### Cell plans (R235, R237, R239) -/

section
variable (hpf : s.isPf .pf = true) (hrd : s.dieOn .rd = true)
include hpf hrd

theorem exec_fhPlanLoad_none (hread : s.readPlan (s.reg64 (fhBlock + 0x004) (fhBlock + 0x008)) = none) :
    exec (.fhPlanLoad .pf) s = .next ({ s with fh := { s.fh with result := 1 } } : State).mgmtEvent := by
  refine (agentIf_acts (agentHalted_pf s) rfl (by simp [hpf, hrd]) _).trans ?_
  simp only [hread]

section
variable {p : Plan} (hread : s.readPlan (s.reg64 (fhBlock + 0x004) (fhBlock + 0x008)) = some p)
include hread

theorem exec_fhPlanLoad_refused (hcheck : s.checkPlan p.cells p.tAct ≠ 0) : exec (.fhPlanLoad .pf) s =
    .next ({ s with fh := { s.fh with result := s.checkPlan p.cells p.tAct } } : State).mgmtEvent := by
  refine (agentIf_acts (agentHalted_pf s) rfl (by simp [hpf, hrd]) _).trans ?_
  simp only [hread, if_neg hcheck]

theorem exec_fhPlanLoad_accepted (hcheck : s.checkPlan p.cells p.tAct = 0) :
    (let u := s.abortRd.startClock .rdc
     exec (.fhPlanLoad .pf) s =
       .next ({ u with fh := { u.fh with next := some p, result := 0, shedCount := 0 } } : State).mgmtEvent) := by
  refine (agentIf_acts (agentHalted_pf s) rfl (by simp [hpf, hrd]) _).trans ?_
  simp only [hread, if_pos hcheck]

end

theorem exec_fhPlanUnload (hactive : s.fh.active.isSome = true) : exec (.fhPlanUnload .pf) s = .next
    ({ s with fh := { s.fh with unload := some (s.frameAt (s.T + 100000000)).toNat } } : State).mgmtEvent :=
  agentIf_acts (agentHalted_pf s) rfl (by simp [hpf, hrd, hactive]) _

theorem exec_fhPlanCancel (hnext : s.fh.next.isSome = true) : exec (.fhPlanCancel .pf) s =
    .next ({ s with fh := { s.fh with next := none } } : State).mgmtEvent :=
  agentIf_acts (agentHalted_pf s) rfl (by simp [hpf, hrd, hnext]) _

end

/-! #### A plan's time, and a loss of capacity (R239, R240) -/

/-- The cells of s that do not run in t are gone, and so are their handles. -/
def cellsSettled (s t : State) : State :=
  let gone := (s.runCells.map (·.cell)).filter (fun c => !(t.runCells.map (·.cell)).contains c)
  ({ t with ds := { t.ds with freeing := t.ds.freeing ++ s.handles.filter (fun h => gone.contains (s.handle h).cell) } } :
    State).settleFrees

/-- That leaves the radio as it is. -/
theorem fh_cellsSettled (s t : State) : (cellsSettled s t).fh = t.fh :=
  ((Spares.refl .harq _).settleFrees).parts .fh (by decide)

section
variable (hhalt : s.halted .radio = false)
include hhalt

theorem exec_fhPlanActivate_next {p : Plan} (hnext : s.fh.next = some p) (hfirst : ∀ d, s.fh.unload = some d → p.tAct ≤ d)
    (hpast : (s.reachNs p.tAct).pastNs p.tAct = true) :
    exec .fhPlanActivate s = .next (cellsSettled s ((s.reachNs p.tAct).activatePlan p)) := by
  show execFhPlanActivate s = _
  unfold execFhPlanActivate
  rw [unlessHalted_runs hhalt]
  simp only [hnext]
  cases hunload : s.fh.unload with
  | none => exact onlyIf_true hpast ..
  | some d =>
    simp only [if_neg (Nat.not_lt.mpr (hfirst d hunload))]
    exact onlyIf_true hpast ..

theorem exec_fhPlanActivate_unload {d : Nat} (hunload : s.fh.unload = some d) (hfirst : ∀ p, s.fh.next = some p → d < p.tAct)
    (hpast : (s.reachNs d).pastNs d = true) : exec .fhPlanActivate s = .next (cellsSettled s (s.reachNs d).endPlan) := by
  show execFhPlanActivate s = _
  unfold execFhPlanActivate
  rw [unlessHalted_runs hhalt]
  simp only [hunload]
  cases hnext : s.fh.next with
  | none => exact onlyIf_true hpast ..
  | some p =>
    simp only [if_pos (hfirst p hnext)]
    exact onlyIf_true hpast ..

end

/-- The plan that takes effect is active, and no plan waits. -/
theorem activatePlan_spec {p : Plan} (hcells : p.cells ≠ []) : (s.activatePlan p).fh.next = none ∧
    ∃ q, (s.activatePlan p).fh.active = some q ∧ q.tAct = p.tAct ∧ ∀ c ∈ p.cells, c ∈ q.cells :=
  ⟨rfl, _, if_neg (by simp [hcells]), rfl, fun _ hc => List.mem_append_left _ hc⟩

/-- With no armed cell no plan is active after the end of one. -/
theorem endPlan_spec (s : State) : s.endPlan.fh.unload = none ∧ s.endPlan.fh.next = s.fh.next ∧
    (s.armedCells = [] → s.endPlan.fh.active = none) :=
  ⟨rfl, rfl, fun harmed => if_pos harmed⟩

theorem armedCells_reachNs (s : State) (t : Int) : (s.reachNs t).armedCells = s.armedCells := by
  unfold State.armedCells State.muted
  rw [State.reachNs_fh]

theorem exec_cellShed {p : Plan} {c : Cell} {cs : List Cell} (hactive : s.fh.active = some p)
    (hshed : p.cells.filter (fun x => (s.toShed p).contains x.cell) = c :: cs) {due : Int}
    (hdue : cs.foldl (fun b x => min b (s.slotAfter x.mu)) (s.slotAfter c.mu) = due) {t : State} (ht : s.reachNs due = t)
    (hpast : t.pastNs due = true) : exec .cellShed s = .next (({ t with fh := { t.fh with
      stopped := t.fh.stopped ++ ((c :: cs).filter (fun x => s.slotAfter x.mu == due)).map Cell.cell
      shedCount := min 255 (t.fh.shedCount + ((c :: cs).filter (fun x => s.slotAfter x.mu == due)).length) } } :
      State).hiErr 6) := by
  subst ht
  show execCellShed s = _
  unfold execCellShed
  simp only [hactive, hshed, hdue]
  exact onlyIf_true hpast ..

end

/-- Settles O24: each command of the radio takes effect at its time, as the cell, the engine or the plan that it names says. -/
theorem radioCommands : Obligations.RadioCommands := by
  unfold Obligations.RadioCommands
  refine ⟨fun s c x hhalt hx => ⟨fun frame slot core r0 rs f n hf => ?_,
      fun core tOcc d hfreeze hregs hmuted => prachReported_spec hfreeze hregs hmuted core tOcc d,
      fun frame slot => ⟨fun ul dl a hrd hhd hok => exec_slotConfigRx hhalt hx frame slot ul dl hrd hhd hok,
        fun up hnote => ⟨configIn_inTime hnote, configIn_late hnote⟩,
        fun hpast => ⟨fun hnote => ?_, fun hnote => ?_⟩⟩⟩,
    fun s e hhalt hfft => ⟨fun src dst size inv strobe hsize hrd =>
        runs_fftJobQueue hhalt hfft e src dst inv strobe hsize hrd,
      fun j js radices hjobs hradices hstrobe => runs_fftJobDone hhalt hfft e hjobs hradices hstrobe rfl rfl⟩,
    fun s src dst word n alloc passes bookings c hhalt hrd hc hnrx hdst hword => ⟨fun hopen hbad => ?_,
      fun hlost hbook hdfree hwfree b herr => ?_⟩,
    fun s hpf hrd => ⟨⟨exec_fhPlanLoad_none hpf hrd, fun p hread => ⟨exec_fhPlanLoad_refused hpf hrd hread,
      exec_fhPlanLoad_accepted hpf hrd hread⟩⟩, exec_fhPlanUnload hpf hrd, exec_fhPlanCancel hpf hrd⟩,
    fun s hhalt => ⟨fun p hnext hcells hfirst hpast => ?_, fun d hunload hfirst hpast => ?_⟩,
    fun s p c cs hactive hshed hpast => exec_cellShed hactive hshed rfl rfl hpast⟩
  · intro reps at_ first close t done code found hlen hours hdistinct hpast
    have hexec := exec_prachOccasion hhalt hx core hf hlen hours hdistinct rfl rfl hpast
    exact ⟨fun hlate => hexec.trans (congrArg _ (if_pos hlate)), fun htime =>
      hexec.trans (congrArg _ (if_neg (not_lt.mpr htime)))⟩
  · exact (unlessHalted_runs hhalt _).trans (configLate_eq hx hnote rfl hpast)
  · exact (unlessHalted_runs hhalt _).trans (configLate_eq hx hnote rfl hpast)
  · exact exec_nrxCompletionWord_noBook hhalt hrd hc hnrx hdst hword hopen hbad
  · have hb : nrxErr s src n passes = b := Bool.eq_iff_iff.mpr (nrxErr_iff.trans herr.symm)
    have hbufs : ∀ b ∈ nrxBufs c alloc dst word n, s.nrxFree b = true := by simpa [nrxBufs] using ⟨hdfree, hwfree⟩
    have hexec := exec_nrxCompletionWord_written (src := src) hhalt hrd hc hnrx hdst hword hlost hbook hbufs
    rw [hb] at hexec
    exact ⟨_, hexec, _, rfl, mem_llrsStored c dst word⟩
  · obtain ⟨hwait, q, hactive, htime, hmem⟩ := activatePlan_spec (s := s.reachNs p.tAct) hcells
    refine ⟨_, exec_fhPlanActivate_next hhalt hnext hfirst hpast, ?_⟩
    dsimp only
    rw [fh_cellsSettled]
    exact ⟨hwait, q, hactive, htime, hmem⟩
  · obtain ⟨hgone, hstays, hnone⟩ := endPlan_spec (s.reachNs d)
    refine ⟨_, exec_fhPlanActivate_unload hhalt hunload hfirst hpast, ?_⟩
    dsimp only
    rw [fh_cellsSettled]
    exact ⟨hgone, hstays.trans (congrArg _ (State.reachNs_fh ..)),
      fun harmed => hnone ((armedCells_reachNs s d).trans harmed)⟩

end Sys2Proof
